-- ==== Sys2Proof/Word.lean ====
section
/-! DEFINITION. The word types of the card's registers, commands and memory (spec/00_scope.md R6, R9). -/

namespace Sys2Proof

/-- One byte of memory, of a command or of a record. -/
abbrev Byte := BitVec 8

/-- One register: 32 bits (R6). -/
abbrev Word := BitVec 32

end Sys2Proof
end

