-- ==== Sys2Proof/Syntax.lean ====
section
/-! DEFINITION. The commands the card takes from outside: one constructor per row of spec/opcode_table.json, with the
operands the row's rule needs. A value that comes from outside the card (what a sensor reads, what a fetch returns,
what a decoder reconstructs under an outside standard, the errors a memory meets) is an operand. -/

namespace Sys2Proof

/-- A PCIe function (spec/04 R74): PF0, the PF of hamper `h`, or VF `v` of hamper `h`. -/
inductive Fn where
  | pf0
  | pf (h : Fin 4)
  | vf (h : Fin 4) (v : Fin 8)
deriving DecidableEq, Repr

/-- The function number of R74. -/
def Fn.num : Fn → Nat
  | .pf0 => 0
  | .pf h => h.val + 1
  | .vf h v => 8 + 8 * h.val + v.val

/-- The function's physical function, as a number 0 to 4. -/
def Fn.pfNum : Fn → Nat
  | .pf0 => 0
  | .pf h => h.val + 1
  | .vf h _ => h.val + 1

/-- The hamper of a hamper function. -/
def Fn.hamper : Fn → Option Nat
  | .pf0 => none
  | .pf h => some h.val
  | .vf h _ => some h.val

/-- The fields of configuration space (spec/04 R74, R75, R77, R79 to R81, R86, R580; spec/02 R33): those that host software
writes, and those that only say what the function is. `bar` and `vfBar` are a function's own BARs and the VF BARs of a PF's
SR-IOV capability, each 64 bits wide, by number. Bus Master Enable and VF Enable are written by rows of their own. -/
inductive CfgField where
  | memorySpaceEnable | vfMse | msixEnable | msixFunctionMask | ptmEnable | ariCapable | numVfs
  | completionTimeoutValue | completionTimeoutDisable | aerUncorrectable | aerCorrectable
  | aerSeverity | maxPayloadSize | maxReadRequestSize | aspm | powerState | bar (i : Nat) | vfBar (i : Nat)
  | busMasterEnable | vfEnable | aerHeader
  | vendorId | deviceId | subsystemVendorId | subsystemId | classCode | revisionId | interruptPin | flrCapable | noSoftReset
  | totalVfs | initialVfs | firstVfOffset | vfStride | serialNumber | ariCapability | acsPeer
deriving DecidableEq, Repr

/-- A host write: to a register of a BAR0, to a BAR4 at an offset where no doorbell is rung, or to a field of configuration
space. -/
inductive RegWrite where
  | mmio (fn : Fn) (off size value : Nat)
  | bar4 (fn : Fn) (off size value : Nat)
  | config (fn : Fn) (f : CfgField) (value : Nat)
deriving DecidableEq, Repr

/-- What a host read of a function names: an offset of its BAR0, an offset of its BAR4, or a field of its configuration space. -/
inductive RegRead where
  | mmio (off : Nat)
  | bar4 (off : Nat)
  | config (f : CfgField)
deriving DecidableEq, Repr

/-- An access to a hamper function's BAR. -/
structure BarAccess where
  fn    : Fn
  write : Bool
  len   : Nat
deriving DecidableEq, Repr

/-- What the regulator reports (spec/19 R461): its status faults, the core current and its own temperature. -/
structure AvsPoll where
  fault  : Bool
  coreDa : Nat
  temp   : Nat
deriving DecidableEq, Repr

/-- Which of the three resource registers of a VF is written (spec/04 R88). -/
inductive VfResource where
  | rings | sems | ctx
deriving DecidableEq, Repr

/-- An error that an operation's accesses met (spec/08 R177, R191; spec/17 R416, R417). A line is named by the region
and the data offset that the access used. -/
inductive MemErr where
  | corrected (region : Nat) (off : Nat)
  | uncorrectable (region : Nat) (off : Nat)
  | rmw (region : Nat) (off : Nat)          -- uncorrectable, found by the read of a read-modify-write (R176)
  | persist (region : Nat) (off : Nat) (write : Bool)
  | replayed (region : Nat) (off : Nat) (times : Nat)
  | sramCorrected (off : Nat)
  | sramUncorrectable (off : Nat)
  | cacheCorrected (ch : Fin 8) (line : Nat)
  | cacheUncorrectable (ch : Fin 8) (line : Nat) (dirty : Bool)
deriving DecidableEq, Repr

/-- A remote read or write request that arrives over a Dravaz port (spec/06 R145). -/
structure RemoteReq where
  id     : Nat
  window : Fin 64
  off    : Nat
  len    : Nat
  wdata  : Option (List Byte)
deriving DecidableEq, Repr

/-- What a Dravaz packet carries to the upper layer beside the rows of their own: an answer to a request of this card,
a time request of the peer, stamped with its card time (R536), or nothing. `other` is a payload whose effect is a row of its own (a
request, a message, an acknowledged write, the answer to a time request). -/
inductive DvBody where
  | empty
  | readData (id : Nat) (data : List Byte)
  | denied (id : Nat)
  | messageAck (id : Nat)
  | timeAsk (sent : Nat)
  | other (bytes : Nat)
deriving DecidableEq, Repr

/-- A packet on a Dravaz port (spec/23 R528): its sequence number, whether its CRC is good, the acknowledgement and the
replay request it carries, and its body. -/
structure DvPacket where
  seq    : Nat
  good   : Bool
  ack    : Option Nat
  replay : Option Nat
  body   : DvBody
deriving DecidableEq, Repr

/-- A message that arrives (spec/23 R535, R539). -/
structure DvMessage where
  id     : Nat
  card   : Fin 8
  hamper : Fin 4
  tag    : Nat
  sent   : Nat
  data   : List Byte
deriving DecidableEq, Repr

/-- A completed TIME exchange (spec/23 R536): the upstream card's HOPS and the offset measured, in ns. -/
structure TimeStamp where
  hops   : Nat
  offset : Int
deriving DecidableEq, Repr

/-- The profile that a sequence header claims, in the names of spec/10 R229; `other` is any that R229 does not list. -/
inductive VideoProfile where
  | main | constrainedBaseline | high | main10 | mainStill | profile0 | profile2 | other
deriving DecidableEq, Repr

/-- A sequence header as the coding standard reads it (spec/10 R229, R230, R243): its profile; the place of its level (ten times
its number, and for MPEG-2 1 Low, 2 Main, 3 High 1440, 4 High); its bit depth, AV1's large_scale_tile and monochrome; PROFILE
and LEVEL as coded; its cropped and coded dimensions; the pictures it needs; the queued bytes up to its end, with how many
pictures were dropped and units skipped among them; and the order in which the standard outputs the pending pictures
(decode numbers). -/
structure SeqHeader where
  form    : VideoProfile
  rank    : Nat
  depth   : Nat
  largeScale : Bool
  mono    : Bool
  profile : Nat
  level   : Nat
  width   : Nat
  height  : Nat
  codedW  : Nat
  codedH  : Nat
  needed  : Nat
  bytes   : Nat
  skipped : Nat
  flush   : List Nat
deriving DecidableEq, Repr

/-- Samples that reconstruction writes: an offset in the picture slot and bytes. -/
structure Samples where
  off  : Nat
  data : List Byte
deriving DecidableEq, Repr

/-- Damage that intake detects (spec/10 R240): a concealed area by its 16 x 16 units, with its CAUSE, or an invalid
parameter set. -/
inductive Damage where
  | area (cause : Nat) (units : List Nat)
  | paramBad (kind id : Nat)
deriving DecidableEq, Repr

/-- The film grain of a frame with apply_grain 1 (spec/10 R247): its parameters, in the form of R391, or with update_grain 0 the
picture (decode number) whose parameters it takes and its own grain_seed. -/
inductive Grain where
  | params (bytes : List Byte)
  | inherit_ (ref seed : Nat)
deriving DecidableEq, Repr

/-- What the standard gives a picture that completes (spec/10 R231, R236, R253): its queued bytes, its cropped form, the parity of
a field without a partner (`true` the bottom one), the output number that its place in output order gives it (none when it
is never output), its grain, its last samples, the pictures output now in order and the pictures still needed for
reference (decode numbers). -/
structure PicEnd where
  bytes   : Nat
  width   : Nat
  height  : Nat
  cropX   : Nat
  cropY   : Nat
  depth   : Nat
  field   : Bool
  lone    : Option Bool
  grain   : Option Grain
  last    : List Samples
  number  : Option Nat
  outputs : List Nat
  refs    : List Nat
deriving DecidableEq, Repr

/-- A reference that was never decoded, as R242 names it. -/
structure MissingRef where
  refId     : Nat
  orderHint : Nat
deriving DecidableEq, Repr

/-- How a picture begins (spec/10 R240, R242): the references it misses, and how many pictures before it the standard discards, or
depend on an invalid parameter set, with the queued bytes up to its start. -/
structure PicStart where
  missing : List MissingRef
  dropped : Nat
  bytes   : Nat
deriving DecidableEq, Repr

/-- A FEED (spec/10 R251): its sequence number, and the places in its bytes, decrypted, at which pictures begin. -/
structure FeedScan where
  seq    : Nat
  starts : List Nat
deriving DecidableEq, Repr

/-- What a completed partition leaves (spec/10 R237, R238): the rows of the picture complete from the top, and whether the
picture's last byte has been entropy-decoded. -/
structure PartEnd where
  rows   : Nat
  parsed : Bool
deriving DecidableEq, Repr

/-- How the header of a CSI-2 packet arrived (spec/11 R265, R282). -/
inductive PktHeader where
  | good | corrected | bad
deriving DecidableEq, Repr

/-- A CSI-2 long packet (spec/11 R265): its data type, its payload, whether the payload's CRC holds, and how many bytes
the port's write buffer has drained by since the last one (R274). -/
structure CsiPacket where
  dt    : Nat
  data  : List Byte
  crcOk : Bool
  drained : Nat
deriving DecidableEq, Repr

/-- The link-level errors of PCIe (spec/04 R79). -/
inductive LinkError where
  | receiver | badTlp | badDllp | replayTimeout | replayRollover | dataLinkProtocol | receiverOverflow
deriving DecidableEq, Repr

/-- What is wrong with a received TLP (spec/04 R79). -/
inductive TlpError where
  | malformed | ecrc | unexpectedCompletion
deriving DecidableEq, Repr

/-- What the input sense reads in one interval (spec/19 R456, R463): the currents in 10 mA, the node voltage in mV, and the
node power in mW averaged over the last 10 us. -/
structure PowerSense where
  slotCa : Nat
  auxCa  : Nat
  nodeMv : Nat
  powerMw : Nat
deriving DecidableEq, Repr

/-- A load that starts or stops under the draw governor (spec/19 R454): a unit of a class on a hamper, with the ring and the
sequence number of its operation, if it serves one. -/
structure UnitLoad where
  hamper : Fin 4
  cls    : Fin 9
  index  : Nat
  lc     : Bool
  op     : Option (Fin 16 × Nat)
deriving DecidableEq, Repr

/-- Marginal bits of a fuse word (spec/21 R494): the bits, and what each of them reads at the low reference current. -/
structure FuseMargin where
  word : Fin 128
  mask : Word
  low  : Word
deriving DecidableEq, Repr

/-- How bring-up finds the module of a channel (spec/01 R22, R24). -/
inductive ModuleSeat where
  | absent | refused | accepted
deriving DecidableEq, Repr

/-- What bring-up finds of one channel's module (spec/22 R509): its seat, its temperature in 1/8 degree, whether its CB-08
passes the self-check, and whether the channel's DDR5 initialisation succeeds. -/
structure ModuleResult where
  seat     : ModuleSeat
  temp     : Int
  colander : Bool
  initOk   : Bool
deriving DecidableEq, Repr

/-- A unit step that fails (spec/17 R404, R407): the unit, the operation (ring and sequence number; none for a picture on a
decoder slice and for a record of the card's own), and whether the step succeeds when it is run again on the unit, and then on
an equal unit that is free. -/
structure StepFault where
  hamper : Fin 4
  cls    : Fin 9
  unit   : Nat
  op     : Option (Fin 16 × Nat)
  again  : Bool
  equal  : Bool
deriving DecidableEq, Repr

/-- What the board controller reads of its own sensors (spec/24 R548, R549): the air temperatures in 1/8 degree (none where a
sensor does not answer), the node voltage in mV, and the input currents in 10 mA. -/
structure BoardSense where
  inlet  : Option Int
  outlet : Option Int
  nodeMv : Nat
  slotCa : Nat
  auxCa  : Nat
deriving DecidableEq, Repr

/-- The commands: one constructor per row of the table of operations. -/
inductive Instr where
  /-- REGISTER_WRITE: a host write to a register field, or to a configuration field, that has no row of its own (R4). -/
  | registerWrite (w : RegWrite)
  /-- RC_FIELD_READ: a host read of BAR0, clearing RC fields when it is a full aligned read (R4). -/
  | rcFieldRead (fn : Fn) (r : RegRead) (size : Nat)
  /-- PAIR_LO_READ: a full read of a _LO register, capturing the pair (R7). -/
  | pairLoRead (fn : Fn) (off : Nat)
  /-- PAIR_LO_WRITE: a write of a _LO register, which is held (R17). -/
  | pairLoWrite (fn : Fn) (off : Nat) (v : Word)
  /-- PAIR_HI_WRITE: a write of a _HI register, which applies both halves (R7). -/
  | pairHiWrite (fn : Fn) (off : Nat) (v : Word)
  /-- FROZEN_BAR_ACCESS: an access to a BAR of a hamper function while the card is frozen (R18). -/
  | frozenBarAccess (h : Fin 4) (acc : BarAccess)
  /-- UNCLAIMED_MEMORY_REQUEST: a memory request no function claims (R580). -/
  | unclaimedMemoryRequest (fn : Fn) (write : Bool) (hdr : Nat)
  /-- POISONED_WRITE_RECEIVED: a poisoned write to a BAR (R79). -/
  | poisonedWriteReceived (fn : Fn) (hdr : Nat)
  /-- PTM_INTERVAL_EXPIRY: the PTM interval timer expires (R33). -/
  | ptmIntervalExpiry
  /-- PTM_EXCHANGE_DONE: a PTM exchange completes with a measured offset in ns (R33). -/
  | ptmExchangeDone (offset : Int)
  /-- PTM_DISABLE: host software disables PTM (R48). -/
  | ptmDisable
  /-- PACE_WINDOW_END: the 256 us window ends (R37). -/
  | paceWindowEnd
  /-- AVS_WRITE_ACK: the regulator acknowledges the voltage write (R38). -/
  | avsWriteAck
  /-- AVS_WRITE_TIMEOUT: the regulator did not acknowledge within 1 ms (R43). -/
  | avsWriteTimeout
  /-- AVS_POLL: the card reads the regulator's status and telemetry (R461). -/
  | avsPoll (p : AvsPoll)
  /-- LAYOUT_CHECK: GO with CMD CHECK (R62). -/
  | layoutCheck (h : Fin 4)
  /-- LAYOUT_LOAD: GO with CMD LOAD (R62). -/
  | layoutLoad (h : Fin 4)
  /-- SET_DEFAULT: GO with CMD SET_DEFAULT (R62). -/
  | setDefault (h : Fin 4)
  /-- LOAD_DEFAULT: GO with CMD LOAD_DEFAULT (R62). -/
  | loadDefault (h : Fin 4)
  /-- LAYOUT_COMMAND_DONE: the running loader command completes (R61). -/
  | layoutCommandDone
  /-- LAYOUT_APPLICATION: a hamper function starts and its layout is applied (R63). -/
  | layoutApplication (h : Fin 4)
  /-- ZERO_FILL_DONE: the zero-fill of new regions ends and the function becomes READY (R63, R90). -/
  | zeroFillDone (h : Fin 4)
  /-- PF_FLR: Initiate FLR written in a hamper PF (R90). -/
  | pfFlr (h : Fin 4)
  /-- VF_FLR: Initiate FLR written in a VF (R92). -/
  | vfFlr (h : Fin 4) (v : Fin 8)
  /-- FLR_DRAIN_DONE: the drain of a reset ends: steps 3 to 5, or to 7 for a VF (R90). -/
  | flrDrainDone (h : Fin 4) (v : Option (Fin 8))
  /-- PF_D3HOT_ENTRY: a hamper PF enters D3hot (R90). -/
  | pfD3hotEntry (h : Fin 4)
  /-- PF_D3HOT_EXIT: a hamper PF returns to D0 (R90). -/
  | pfD3hotExit (h : Fin 4)
  /-- VF_ENABLE_WRITE: a write of VF Enable, with NumVFs written first (R75). -/
  | vfEnableWrite (h : Fin 4) (en : Bool) (num : Option Nat)
  /-- BUS_MASTER_ENABLE_WRITE: a write of Bus Master Enable (R98). -/
  | busMasterEnableWrite (fn : Fn) (en : Bool)
  /-- MSIX_MESSAGE_RELEASE: pending messages that have become deliverable are sent (R86). -/
  | msixMessageRelease (fn : Fn)
  /-- VF_RESOURCE_WRITE: a write of HP_VF_RINGS, HP_VF_SEMS or HP_VF_CTX (R88). -/
  | vfResourceWrite (h : Fin 4) (v : Fin 8) (kind : VfResource) (val : Word)
  /-- FLUSH_HELD_DISCARD: a write of 1s to HP_FLUSH_HELD (R87). -/
  | flushHeldDiscard (fn : Fn) (mask : Word)
  /-- FETCH_COMPLETION_TIMEOUT: a fetch from host memory times out (R80). -/
  | fetchCompletionTimeout (rid : Nat)
  /-- HOST_READ_COMPLETION: a completion of a card read of host memory arrives (R80). -/
  | hostReadCompletion (rid : Nat) (poisoned : Bool) (data : List Byte)
  /-- DOORBELL: a doorbell write (R82, R120). -/
  | doorbell (fn : Fn) (r : Fin 16) (prod : Word)
  /-- COMMAND_FETCH_DONE: the fetched slot or command list is decoded (R102). -/
  | commandFetchDone (h : Fin 4) (r : Fin 16)
  /-- WAIT_SATISFIED: the head command's waits hold and it is dispatched (R105). -/
  | waitSatisfied (h : Fin 4) (r : Fin 16)
  /-- FRONT_NOP: the front end's NOP (R106). -/
  | frontNop (h : Fin 4) (r : Fin 16)
  /-- FRONT_BARRIER: the front end's BARRIER (R106). -/
  | frontBarrier (h : Fin 4) (r : Fin 16)
  /-- FRONT_STAMP: the front end's STAMP (R106). -/
  | frontStamp (h : Fin 4) (r : Fin 16)
  /-- OPERATION_RETIRE: an operation retires (R125). -/
  | operationRetire (h : Fin 4) (r : Fin 16) (seq : Nat) (errs : List MemErr)
  /-- SEMAPHORE_HOST_WRITE: a host write of a semaphore's high word (R122). -/
  | semaphoreHostWrite (fn : Fn) (idx : Nat) (v : Word)
  /-- WAIT_TIMEOUT: the head command's wait times out (R110). -/
  | waitTimeout (h : Fin 4) (r : Fin 16)
  /-- RING_ENABLE: a write of HP_RING_CTL with ENABLE 1 (R119). -/
  | ringEnable (fn : Fn) (r : Fin 16) (v : Word)
  /-- RING_DISABLE: a write of HP_RING_CTL with ENABLE 0 (R119). -/
  | ringDisable (fn : Fn) (r : Fin 16) (v : Word)
  /-- RING_DRAIN_DONE: the ring's last operation has retired (R119). -/
  | ringDrainDone (h : Fin 4) (r : Fin 16)
  /-- COMPLETION_HEAD_WRITE: a write of HP_RING_CPL_HEAD (R121, R133). -/
  | completionHeadWrite (fn : Fn) (r : Fin 16) (v : Word)
  /-- CONTEXT_ENTRY_WRITE: the _HI write of HP_CTX_ENTRY (R134). -/
  | contextEntryWrite (h : Fin 4) (v : Word)
  /-- TRANSLATION_INVALIDATE: a write of HP_XL_INVAL with GO (R139). -/
  | translationInvalidate (h : Fin 4) (v : Word)
  /-- INVALIDATION_DONE: the invalidation ends (R139, R151). -/
  | invalidationDone (h : Fin 4)
  /-- SPARSE_FIRST_WRITE: the first write to an unbacked sparse page (R140). -/
  | sparseFirstWrite (h : Fin 4) (r : Fin 16) (seq : Nat) (va : Nat) (data : List Byte) (err : Option Nat)
  /-- REGION_OWNER_WRITE: a write of HP_REGION_OWNER (R136). -/
  | regionOwnerWrite (h : Fin 4) (v : Word)
  /-- APERTURE_MAP_WRITE: the _HI write of an aperture entry (R143). -/
  | apertureMapWrite (h : Fin 4) (vf : Option (Fin 8)) (e : Nat) (v : Word)
  /-- APERTURE_ACCESS: a host access through BAR2 (R143). -/
  | apertureAccess (fn : Fn) (addr : Nat) (len : Nat) (wdata : Option (List Byte)) (errs : List MemErr)
  /-- REMOTE_REQUEST_RECEIVED: a remote read or write request arrives (R145). -/
  | remoteRequestReceived (p : Fin 2) (q : RemoteReq)
  /-- MOVE_COPY: a mover's COPY (R149). -/
  | moveCopy (h : Fin 4) (r : Fin 16) (seq : Nat)
  /-- MOVE_FILL: a mover's FILL (R149). -/
  | moveFill (h : Fin 4) (r : Fin 16) (seq : Nat)
  /-- MOVE_UNBACK: a mover's UNBACK (R149). -/
  | moveUnback (h : Fin 4) (r : Fin 16) (seq : Nat)
  /-- POOL_ENABLE: a write of HP_POOL_CFG with ENABLE 1 (R162). -/
  | poolEnable (h : Fin 4) (p : Fin 16) (v : Word)
  /-- POOL_DISABLE: a write of HP_POOL_CFG with ENABLE 0 (R162). -/
  | poolDisable (h : Fin 4) (p : Fin 16) (v : Word)
  /-- POOL_CHECK_DONE: the enable or disable check ends (R163). -/
  | poolCheckDone (h : Fin 4)
  /-- POOL_HOST_TAKE: a write of HP_POOL_TAKE with GO (R164). -/
  | poolHostTake (h : Fin 4) (v : Word)
  /-- POOL_HOST_FREE: a write of HP_POOL_FREE_REG (R159). -/
  | poolHostFree (h : Fin 4) (v : Word)
  /-- POOL_AUDIT: a write of HP_AUDIT_CTL with GO (R161). -/
  | poolAudit (h : Fin 4) (v : Word)
  /-- AUDIT_SCAN_DONE: the audit's scan ends (R161). -/
  | auditScanDone (h : Fin 4)
  /-- REFRESH: an all-bank refresh of a subchannel falls due (R179). -/
  | refresh (ch : Fin 8) (sub : Fin 2)
  /-- MODULE_TEMP_SAMPLE: a module's temperature is read, in 1/8 degree (R185). -/
  | moduleTempSample (ch : Fin 8) (t : Option Int)
  /-- DELAY_APPLY: a write of MG_MEM_DLY_CTL with APPLY (R187). -/
  | delayApply (ch : Fin 8) (v : Word)
  /-- DELAY_LOAD: a write of MG_MEM_DLY_CTL with LOAD (R198). -/
  | delayLoad (ch : Fin 8) (v : Word)
  /-- DRIFT_WINDOW_END: R188. -/
  | driftWindowEnd
  /-- IDLE_SELF_REFRESH: a channel has had no access for IDLE_US (R190). -/
  | idleSelfRefresh (ch : Fin 8)
  /-- RANK_RETIRE: a write of MG_MEM_RETIRE (R205). -/
  | rankRetire (v : Word)
  /-- MIGRATION_START: R193. -/
  | migrationStart
  /-- MIGRATION_CHUNK_DONE: a chunk's copy finishes, or its target fails (R193). -/
  | migrationChunkDone (bad : List Nat) (ce : Nat) (fails : Bool)
  /-- SEARCH: the COLANDER command SEARCH (R217). -/
  | search (h : Fin 4) (r : Fin 16) (seq : Nat)
  /-- COLANDER_SEARCH_START: a CB-08 becomes free and starts its next SEARCH (R210). -/
  | colanderSearchStart (m : Fin 8)
  /-- DECODE_OPEN: the DECODE command OPEN (R249). -/
  | decodeOpen (h : Fin 4) (r : Fin 16) (seq : Nat)
  /-- DECODE_FEED: the DECODE command FEED (R251); with the places where pictures begin. -/
  | decodeFeed (h : Fin 4) (r : Fin 16) (feed : FeedScan)
  /-- FEED_BYTES_QUEUED: a FEED that waited finds room (R237). -/
  | feedBytesQueued (h : Fin 4) (r : Fin 16) (seq : Nat)
  /-- DECODE_DRAIN: the DECODE command DRAIN (R252), with the standard's output order of what is pending. -/
  | decodeDrain (h : Fin 4) (r : Fin 16) (seq : Nat) (order : List Nat)
  /-- DECODE_CLOSE: the DECODE command CLOSE (R252). -/
  | decodeClose (h : Fin 4) (r : Fin 16) (seq : Nat)
  /-- KEY_COMMIT: a write of HP_KEY_CTL with COMMIT (R255). -/
  | keyCommit (h : Fin 4) (v : Word)
  /-- KEY_CLEAR: a write of HP_KEY_CTL with CLEAR (R255). -/
  | keyClear (h : Fin 4) (v : Word)
  /-- PICTURE_DECODE_START: a free entropy stage takes a ready context (R237). -/
  | pictureDecodeStart (h : Fin 4) (d : Fin 16) (st : Fin 64) (ps : PicStart)
  /-- SEQUENCE_HEADER: a sequence header is parsed (R243). -/
  | sequenceHeader (h : Fin 4) (st : Fin 64) (hd : SeqHeader)
  /-- PARTITION_RECONSTRUCTED: a partition's reconstruction completes (R238), with the samples it writes. -/
  | partitionReconstructed (h : Fin 4) (st : Fin 64) (data : List Samples) (part : PartEnd)
  /-- DAMAGE_DETECTED: intake detects damage (R240). -/
  | damageDetected (h : Fin 4) (st : Fin 64) (dmg : Damage)
  /-- PICTURE_COMPLETE: a picture completes (R236). -/
  | pictureComplete (h : Fin 4) (st : Fin 64) (pe : PicEnd)
  /-- FRAME_START: a CSI-2 Frame Start packet (R273). -/
  | frameStart (p : Fin 4) (vc : Fin 4) (num : Nat) (hdr : PktHeader)
  /-- FRAME_END: a CSI-2 Frame End packet (R281). -/
  | frameEnd (p : Fin 4) (vc : Fin 4) (hdr : PktHeader)
  /-- LONG_PACKET: a CSI-2 long packet (R266). -/
  | longPacket (p : Fin 4) (vc : Fin 4) (pk : CsiPacket) (hdr : PktHeader)
  /-- LINE_MARKER: a Line Start or Line End packet (R265). -/
  | lineMarker (p : Fin 4) (vc : Fin 4) (hdr : PktHeader)
  /-- FRAME_WRITES_COMPLETE: a captured frame's writes are complete (R271). -/
  | frameWritesComplete (h : Fin 4) (vc : Fin 4)
  /-- RASTER_COMMIT_WRITE: the _HI write of HP_RP_COMMIT (R269). -/
  | rasterCommitWrite (h : Fin 4) (vc : Fin 4) (v : Word)
  /-- MOVE_COMMIT: a mover's COMMIT (R278). -/
  | moveCommit (h : Fin 4) (r : Fin 16) (seq : Nat)
  /-- RASTER_VC_ENABLE: a write of HP_RP_VC_CFG (R276). -/
  | rasterVcEnable (h : Fin 4) (vc : Fin 4) (v : Word)
  /-- RASTER_PACKET_TIMEOUT: no packet for 1 ms (R281). -/
  | rasterPacketTimeout (p : Fin 4) (vc : Fin 4)
  /-- RASTER_LINK_CHANGE: the clock lane's activity changes (R281). -/
  | rasterLinkChange (p : Fin 4) (up : Bool) (hs : Bool) (rate : Nat)
  /-- PREPARE: the SHAPE command PREPARE (R298), with the order in which its samples are completed (R291). -/
  | prepare (h : Fin 4) (r : Fin 16) (seq : Nat) (order : List Nat)
  /-- PREPARE_PROGRESS_RELEASE: a PREPARE that waits on progress sees it (R293). -/
  | prepareProgressRelease (h : Fin 4) (r : Fin 16) (seq : Nat) (order : List Nat)
  /-- BACKLOG_REFRESH: the backlog figures are refreshed (R295). -/
  | backlogRefresh (h : Fin 4)
  /-- GRIDDLE_RUN: the GRIDDLE command RUN (R321). -/
  | griddleRun (h : Fin 4) (r : Fin 16) (seq : Nat)
  /-- STAGE_ROWS: a mover's STAGE_ROWS (R322). -/
  | stageRows (h : Fin 4) (r : Fin 16) (seq : Nat)
  /-- STAGE_WEIGHTS: a mover's STAGE_WEIGHTS (R322). -/
  | stageWeights (h : Fin 4) (r : Fin 16) (seq : Nat)
  /-- STAGE_CONV: a mover's STAGE_CONV (R317). -/
  | stageConv (h : Fin 4) (r : Fin 16) (seq : Nat)
  /-- GRIDDLE_PASS_END: a pass ends on a griddle unit (R314). -/
  | griddlePassEnd (h : Fin 4) (u : Fin 8)
  /-- WHISK_MAP: the whisk runs MAP (R335). -/
  | whiskMap (h : Fin 4) (r : Fin 16) (seq : Nat)
  /-- WHISK_REDUCE: the whisk runs REDUCE (R336). -/
  | whiskReduce (h : Fin 4) (r : Fin 16) (seq : Nat)
  /-- WHISK_NORM: the whisk runs NORM (R337). -/
  | whiskNorm (h : Fin 4) (r : Fin 16) (seq : Nat)
  /-- DWCONV: the whisk runs DWCONV (R342). -/
  | dwconv (h : Fin 4) (r : Fin 16) (seq : Nat)
  /-- TRACK_STEP: the TRACK command STEP (R365). -/
  | trackStep (h : Fin 4) (r : Fin 16) (seq : Nat)
  /-- TRACK_BATCH: the TRACK command BATCH (R356). -/
  | trackBatch (h : Fin 4) (r : Fin 16) (seq : Nat)
  /-- TRACK_UPDATE: the TRACK command UPDATE (R357). -/
  | trackUpdate (h : Fin 4) (r : Fin 16) (seq : Nat)
  /-- TRACK_SWAP: the TRACK command SWAP (R358). -/
  | trackSwap (h : Fin 4) (r : Fin 16) (seq : Nat)
  /-- TRACK_WITHDRAW: the TRACK command WITHDRAW (R361). -/
  | trackWithdraw (h : Fin 4) (r : Fin 16) (seq : Nat)
  /-- ACC_CLEAR_ALL: a write of HP_ACC_CTL with CLEAR_ALL (R370). -/
  | accClearAll (h : Fin 4) (v : Word)
  /-- ACC_CLEAR_SLOT: a write of HP_ACC_CTL with CLEAR_SLOT (R370). -/
  | accClearSlot (h : Fin 4) (v : Word)
  /-- ACC_SLOT_CFG_WRITE: a write of HP_ACC_SLOT_CFG (R370). -/
  | accSlotCfgWrite (h : Fin 4) (slot : Fin 256) (v : Word)
  /-- EMIT_MOTION: the RECORD command EMIT_MOTION (R395). -/
  | emitMotion (h : Fin 4) (r : Fin 16) (seq : Nat)
  /-- EMIT: the RECORD command EMIT (R395). -/
  | emit (h : Fin 4) (r : Fin 16) (seq : Nat)
  /-- HEARTBEAT: a record ring's heartbeat interval ends (R394). -/
  | heartbeat (h : Fin 4) (r : Fin 16)
  /-- RECORD_RING_ENABLE: a write of HP_REC_CTL with ENABLE 1 (R397). -/
  | recordRingEnable (fn : Fn) (r : Fin 16) (v : Word)
  /-- RECORD_RING_DISABLE: a write of HP_REC_CTL with ENABLE 0 (R400). -/
  | recordRingDisable (fn : Fn) (r : Fin 16) (v : Word)
  /-- RECORD_HEAD_WRITE: a write of HP_REC_HEAD (R397, R133). -/
  | recordHeadWrite (fn : Fn) (r : Fin 16) (v : Word)
  /-- UNIT_STEP_FAILURE: a unit step fails its check (R407). -/
  | unitStepFailure (f : StepFault)
  /-- WATCHDOG_EXPIRY: a unit completes no handshake within the watchdog's time (R405). -/
  | watchdogExpiry (f : StepFault)
  /-- EQUAL_UNIT_RETRY_START: the retry that waits for a unit starts on it and succeeds or fails (R408). -/
  | equalUnitRetryStart (h : Fin 4) (cls : Fin 9) (u : Nat) (ok : Bool)
  /-- UNIT_REINSTATE: a write of HP_FR_REINSTATE (R415). -/
  | unitReinstate (h : Fin 4) (v : Word)
  /-- COLANDER_REINSTATE: a write of MG_FLT_COL_REINSTATE (R425). -/
  | colanderReinstate (v : Word)
  /-- SELF_TEST_DONE: the self-test of a hamper's unit, or of a colander, ends (R415). -/
  | selfTestDone (h : Option (Fin 4)) (passed : Bool)
  /-- FAULT_LOG_HEAD_WRITE: a write of MG_FLT_HEAD (R425, R133). -/
  | faultLogHeadWrite (v : Word)
  /-- FAULT_LOG_CLEAR: a write of MG_FLT_CTL with CLEAR (R425). -/
  | faultLogClear (v : Word)
  /-- FREEZE_PIN: FREEZE_N has fallen and been held low for 1 us, or is let go (R432). -/
  | freezePin (low : Bool)
  /-- FREEZE_REGISTER: a write of MG_FRZ_CTL with FREEZE (R432). -/
  | freezeRegister (v : Word)
  /-- FREEZE_LINK_PULSE: a freeze pulse arrives on a Dravaz port (R442). -/
  | freezeLinkPulse (p : Fin 2)
  /-- FREEZE_MATCH_TIME: card time reaches MG_FRZ_MATCH_TIME (R434). -/
  | freezeMatchTime
  /-- FREEZE_SETTLED: the ramp has ended and the channels are in self-refresh (R433). -/
  | freezeSettled
  /-- THAW: a write of MG_FRZ_CTL with THAW (R440). -/
  | thaw (v : Word)
  /-- THAW_COMPLETE: the thaw sequence ends, or a self-refresh exit fails (R440). -/
  | thawComplete (exitFailed : Bool)
  /-- READOUT_START: a write of MG_RO_CTL with GO (R437). -/
  | readoutStart (v : Word)
  /-- READOUT_DONE: a read-out ends, with the 64-byte lines found uncorrectable (R437). -/
  | readoutDone (bad : List Nat)
  /-- READOUT_UNLOCK_REQUEST: a write of MG_RO_UNLOCK with REQUEST (R438). -/
  | readoutUnlockRequest (v : Word)
  /-- JTAG_FREEZE: FREEZE reaches Update-IR (R442). -/
  | jtagFreeze
  /-- JTAG_THAW: THAW reaches Update-IR (R442). -/
  | jtagThaw
  /-- JTAG_RO_ACCESS: a scan of RO_ACCESS that shifts `dr` in (R442). -/
  | jtagRoAccess (dr : BitVec 48)
  /-- JTAG_EXTEST: a scan of EXTEST (R442). -/
  | jtagExtest (dr : Nat) (len : Nat)
  /-- JTAG_SAMPLE_PRELOAD: a scan of SAMPLE/PRELOAD (R442). -/
  | jtagSamplePreload (dr : Nat) (len : Nat)
  /-- JTAG_IDCODE: a scan of IDCODE (R442). -/
  | jtagIdcode
  /-- JTAG_BYPASS: a scan of BYPASS (R442). -/
  | jtagBypass (dr : Nat) (len : Nat)
  /-- TAP_RESET: TRST_N is driven low (R562). -/
  | tapReset
  /-- UNIT_START_REQUEST: a unit start asks the draw governor for admission (R455). -/
  | unitStartRequest (l : UnitLoad)
  /-- UNIT_STOP: a unit stop hands its weight to the ballast (R455). -/
  | unitStop (l : UnitLoad)
  /-- START_ACKNOWLEDGED: R456. -/
  | startAcknowledged
  /-- BALLAST_DECAY_TICK: an interval of 250 ns ends, with what the input sense read in it (R455). -/
  | ballastDecayTick (p : PowerSense)
  /-- SLOPE_EXCEEDED: R470. -/
  | slopeExceeded
  /-- BACKFEED_BLOCKED: R453. -/
  | backfeedBlocked
  /-- UV_WARN: NODE_MV falls below 11,400 mV (R463). -/
  | uvWarn (mv : Nat)
  /-- AUX_POWER_LOST: the auxiliary input is lost (R465). -/
  | auxPowerLost (gone : Bool)
  /-- SENSE_CHANGED: R466. -/
  | senseChanged
  /-- SLOT_POWER_LOST: R471. -/
  | slotPowerLost
  /-- SUPPLY_LIMITER_TRIP: an outward supply's limiter trips (R460). -/
  | supplyLimiterTrip (n : Fin 3)
  /-- OUTWARD_SUPPLY_ENABLE_WRITE: a write of MG_PWR_OUT (R460). -/
  | outwardSupplyEnableWrite (v : Word)
  /-- SLOT_12V_RISE: R462. -/
  | slot12vRise
  /-- AUX_CABLE_CONNECT: CARD_CBL_PRES# goes low, with the AUX_CAP code of the sense pins (R462). -/
  | auxCableConnect (sense : Fin 4)
  /-- AUX_QUALIFY_EXPIRY: R462. -/
  | auxQualifyExpiry
  /-- HUB_SENSOR_SAMPLE: hub sensors 0 to 9 are sampled, in 1/8 degree (R475). -/
  | hubSensorSample (ts : List (Option Int))
  /-- WARMING_TICK: a millisecond ends, with the node power averaged over it (R478). -/
  | warmingTick (mw : Nat)
  /-- AIRFLOW_UPDATE: R480. -/
  | airflowUpdate
  /-- WARM_RECHECK: the fuses are read again warm, with what is found marginal (R494). -/
  | warmRecheck (ms : List FuseMargin)
  /-- KEEP_STORE: a write of MG_KS_CTL with GO and CMD STORE (R490). -/
  | keepStore (v : Word)
  /-- STORE_COMMIT: a bank write finishes and is read back (R490). -/
  | storeCommit (ok : Bool)
  /-- RESTAGE: a write of MG_KS_CTL with GO and CMD RESTAGE (R500). -/
  | restage (v : Word)
  /-- CLEAR_RETIRE: a write of MG_KS_CTL with GO and CMD CLEAR_RETIRE (R500). -/
  | clearRetire (v : Word)
  /-- ABANDON: a write of MG_KS_CTL with GO and CMD ABANDON (R500). -/
  | abandon (v : Word)
  /-- INTERNAL_STORE: R491. -/
  | internalStore
  /-- KS_STAGING_ACCESS: a read of MG_KS_STG_DATA, or a write of it (R500). -/
  | ksStagingAccess (w : Option Word)
  /-- BUTTON_PRESS: the bracket button has been held for 50 ms, or is let go (R496). -/
  | buttonPress (down : Bool)
  /-- PRESENCE_TIMEOUT: R496. -/
  | presenceTimeout
  /-- JUMPER_FITTED: the service jumper is fitted, or taken off (R507). -/
  | jumperFitted (fitted : Bool)
  /-- FUSE_PROGRAM: a write of MG_FUSE_PROG_CTL with GO (R501). -/
  | fuseProgram (v : Word)
  /-- FUSE_PROGRAM_DONE: fuse programming ends with its margin read (R501). -/
  | fuseProgramDone (solid : Word)
  /-- POWER_GOOD: the node and the 3.3 V rails are good (R508). -/
  | powerGood
  /-- REGULATOR_RETRY: ten ms pass without the regulator's acknowledgement (R522). -/
  | regulatorRetry
  /-- FUSE_READ: the regulator has soft-started (R508). -/
  | fuseRead
  /-- KEEP_LOAD: the cold fuse read ends, with the marginal bits it found (R494, R508). -/
  | keepLoad (ms : List FuseMargin)
  /-- MEM_DELAYS: the keep store is read; module results, channel 0 first (R509). -/
  | memDelays (rs : List ModuleResult)
  /-- MEM_READY: the channels are initialised and the rank states settled (R511). -/
  | memReady
  /-- LAYOUT_DEFAULT: the stored defaults are checked (R515). -/
  | layoutDefault
  /-- HAMPERS_READY: bring-up is complete (R510). -/
  | hampersReady
  /-- CONVENTIONAL_RESET: PERST# is asserted and deasserted (R520). -/
  | conventionalReset
  /-- HOT_RESET: a hot reset or DL_Down (R521). -/
  | hotReset
  /-- DRAVAZ_CABLE_DETECT: a cable is detected or removed (R529). -/
  | dravazCableDetect (p : Fin 2) (present : Bool)
  /-- LINK_TRAINED: training ends with the peer's identity (R529). -/
  | linkTrained (p : Fin 2) (card : Fin 8) (port : Fin 2)
  /-- LINK_RETRAIN: a port loses block lock (R528). -/
  | linkRetrain (p : Fin 2)
  /-- PORT_RETRAIN: a write of MG_DV_PORT_CTL with RETRAIN (R538). -/
  | portRetrain (p : Fin 2) (v : Word)
  /-- LINK_DOWN_TIMEOUT: a port has been away from UP for LINK_DOWN_MS (R529). -/
  | linkDownTimeout (p : Fin 2)
  /-- DRAVAZ_PACKET_RECEIVED: a packet arrives (R528). -/
  | dravazPacketReceived (p : Fin 2) (pk : DvPacket)
  /-- REMOTE_WRITE_ACK: a remote write acknowledgement arrives (R532). -/
  | remoteWriteAck (p : Fin 2) (id : Nat)
  /-- REMOTE_TIMEOUT: a remote request expires (R534). -/
  | remoteTimeout (id : Nat)
  /-- SEND: a mover's SEND (R539). -/
  | send (h : Fin 4) (r : Fin 16) (seq : Nat)
  /-- MESSAGE_RECEIVED: a message arrives (R535). -/
  | messageReceived (p : Fin 2) (m : DvMessage)
  /-- MSG_RING_ENABLE: a write of MG_DV_MSG_CFG (R538). -/
  | msgRingEnable (p : Fin 2) (v : Word)
  /-- MSG_HEAD_WRITE: a write of MG_DV_MSG_HEAD (R535, R133). -/
  | msgHeadWrite (p : Fin 2) (v : Word)
  /-- WINDOW_CTL_WRITE: a write of MG_DV_WIN_CTL (R538). -/
  | windowCtlWrite (p : Fin 2) (w : Fin 64) (v : Word)
  /-- TIME_EXCHANGE: the millisecond of a TIME exchange ends, with what it measured (R536). -/
  | timeExchange (done : Option TimeStamp)
  /-- SMBUS_READ_BYTE: an SMBus Read Byte (R546). -/
  | smbusReadByte (code : Fin 256)
  /-- SMBUS_READ_WORD: an SMBus Read Word (R547). -/
  | smbusReadWord (code : Fin 256)
  /-- SMBUS_WRITE_BYTE: an SMBus Write Byte, with its PEC byte if it has one (R551). -/
  | smbusWriteByte (code : Fin 256) (v : Byte) (pec : Option Byte)
  /-- SMBUS_BLOCK_READ: an SMBus Block Read (R547). -/
  | smbusBlockRead (code : Fin 256)
  /-- SMBUS_TIMEOUT: the clock stays low for 25 to 35 ms (R546). -/
  | smbusTimeout
  /-- CLEAR_PEAK: a Write Byte of BM_CTL with CLEAR_PEAK (R551). -/
  | clearPeak (pec : Option Byte) (v : Byte)
  /-- BOARD_HUB_POLL: the board controller reads the hub's values (R548). -/
  | boardHubPoll
  /-- BOARD_SENSOR_POLL: the board controller reads its own sensors (R548). -/
  | boardSensorPoll (p : BoardSense)
  /-- IDENTIFY_TICK: a second of the identify time passes (R551). -/
  | identifyTick
  /-- AUX_3V3_LOST: slot 3.3 Vaux is lost (R551). -/
  | aux3v3Lost
  /-- DAUGHTERBOARD_REMOVED: a daughterboard is removed while powered (R566). -/
  | daughterboardRemoved
  /-- DAUGHTERBOARD_FITTED: R566. -/
  | daughterboardFitted
  /-- AUX_3V3_GOOD: slot 3.3 Vaux becomes good (R553). -/
  | aux3v3Good
  /-- SEAL_BREAK: R498. -/
  | sealBreak
  /-- SMBUS_UNSUPPORTED_TRANSACTION: any other SMBus transaction (R546). -/
  | smbusUnsupportedTransaction (code : Fin 256)
  /-- PCIE_LINK_ERROR: a link-level error of the PCIe link (R79). -/
  | pcieLinkError (e : LinkError)
  /-- TLP_ERROR_RECEIVED: a received TLP that is malformed, fails ECRC, or is an unexpected completion (R79). -/
  | tlpErrorReceived (fn : Fn) (e : TlpError) (hdr : Nat)
  /-- LOADER_BAD_COMMAND: a write of MG_LAYOUT_CTL with GO 1 and an unlisted CMD (R61). -/
  | loaderBadCommand (v : Word)
  /-- KS_BAD_COMMAND: a write of MG_KS_CTL with GO and an unlisted CMD (R500). -/
  | ksBadCommand (v : Word)
deriving DecidableEq, Repr

end Sys2Proof
end

