-- ==== Sys2Proof/Decode.lean ====
section
/-! DEFINITION. The table's bits. Every row of spec/opcode_table.json has an empty list of fields: the card's commands
are register accesses, events and packets, not words, so no word spells a command. -/

namespace Sys2Proof

/-- The command that a word spells by the table's bits: none, for the table gives bits to no row. -/
def decodeTableWord (_nbits _w : Nat) : Option Instr := none

end Sys2Proof
end

