-- ==== Sys2Proof/Machine/Bits.lean ====
section
/-! DEFINITION. Bit fields, byte order and two's complement (spec/00_scope.md R9: bit 0 is the least significant, a
range is written high:low, every multi-byte field is little-endian). -/

namespace Sys2Proof.Machine

/-- Field `hi:lo` of a number. -/
def nbits (v hi lo : Nat) : Nat := (v >>> lo) % 2 ^ (hi + 1 - lo)

/-- Bit `i` of a number. -/
def nbit (v i : Nat) : Bool := (v >>> i) % 2 == 1

/-- 1 or 0. -/
def b2n (b : Bool) : Nat := if b then 1 else 0

/-- A number with its field `hi:lo` replaced. -/
def nput (v hi lo x : Nat) : Nat :=
  (v >>> (hi + 1)) <<< (hi + 1) + (x % 2 ^ (hi + 1 - lo)) <<< lo + v % 2 ^ lo

/-- Field `hi:lo` of a register. -/
def fld (w : Word) (hi lo : Nat) : Nat := nbits w.toNat hi lo

/-- A register with its field `hi:lo` replaced. -/
def ins (w : Word) (hi lo x : Nat) : Word := BitVec.ofNat 32 (nput w.toNat hi lo x)

/-- Little-endian number of a byte list. -/
def leNat : List Byte → Nat
  | [] => 0
  | b :: t => b.toNat + 256 * leNat t

/-- The `n` little-endian bytes of a number. -/
def leBytes : Nat → Nat → List Byte
  | 0, _ => []
  | n + 1, v => BitVec.ofNat 8 v :: leBytes n (v / 256)

/-- The little-endian number of `n` bytes at offset `o` of a byte list; missing bytes read 0. -/
def leAt (bs : List Byte) (o n : Nat) : Nat := leNat ((bs.drop o).take n)

/-- Two's complement value of the low `w` bits. -/
def sint (w v : Nat) : Int :=
  let x := v % 2 ^ w
  if x < 2 ^ (w - 1) then (x : Int) else (x : Int) - (2 ^ w : Nat)

/-- The low `w` bits of an integer, two's complement. -/
def toBits (w : Nat) (i : Int) : Nat := (i % ((2 ^ w : Nat) : Int)).toNat

/-- An integer held within two limits. -/
def clampI (lo hi i : Int) : Int := if i < lo then lo else if hi < i then hi else i

/-- Saturating addition below a limit. -/
def satAdd (limit a b : Nat) : Nat := min limit (a + b)

/-- The set bits of a mask among the first `n`, rising. -/
def maskList (m n : Nat) : List Nat := (List.range n).filter (fun i => nbit m i)

/-- The number of set bits among the first `n`. -/
def popCount (m n : Nat) : Nat := (maskList m n).length

/-- `v` rounded up to a multiple, as a quotient. -/
def ceilDiv (a b : Nat) : Nat := (a + b - 1) / b

/-- Do two ranges, each a start and a length, share a point? -/
def rangesMeet (a n b m : Nat) : Bool := decide (0 < n) && decide (0 < m) && decide (a < b + m) && decide (b < a + n)

/-- Update the element at an index. -/
def modAt {α : Type} (f : α → α) : List α → Nat → List α
  | [], _ => []
  | x :: t, 0 => f x :: t
  | x :: t, n + 1 => x :: modAt f t n

/-- A count wrapped modulo 2^32 (R120: counts are modulo 2^32). -/
def wrap32 (n : Nat) : Nat := n % 2 ^ 32

/-- The distance from `b` up to `a`, modulo 2^32. -/
def diff32 (a b : Nat) : Nat := (a + 2 ^ 32 - b % 2 ^ 32) % 2 ^ 32

end Sys2Proof.Machine
end

