-- ==== Sys2Proof/Machine/Aes.lean ====
section
/-! DEFINITION. AES-128, the block cipher that ISO/IEC 23001-7 common encryption runs (spec/10 R245): FIPS 197, which the
spec names through that standard. -/

namespace Sys2Proof.Machine

/-- XOR of two byte lists. -/
def xorBytes (a b : List Byte) : List Byte := (a.zip b).map (fun x => x.1 ^^^ x.2)

/-- The product with x in the field of AES. -/
def aesTwice (a : Byte) : Byte := (a <<< 1) ^^^ (if a.msb then 0x1B else 0)

/-- The product in the field of AES. -/
def aesMul (a b : Byte) : Byte :=
  ((List.range 8).foldl (fun (x : Byte × Byte) i => (if b.getLsbD i then x.1 ^^^ x.2 else x.1, aesTwice x.2)) (0, a)).1

/-- The inverse in the field, and 0 of 0: the 254th power. -/
def aesInv (a : Byte) : Byte :=
  ((List.range 7).foldl (fun (x : Byte × Byte) _ => let q := aesMul x.2 x.2; (aesMul x.1 q, q)) (1, a)).1

/-- The substitution of a byte. -/
def aesSub (a : Byte) : Byte :=
  let b := aesInv a
  b ^^^ b.rotateLeft 1 ^^^ b.rotateLeft 2 ^^^ b.rotateLeft 3 ^^^ b.rotateLeft 4 ^^^ 0x63

/-- The inverse substitution. -/
def aesUnsub (s : Byte) : Byte := aesInv (s.rotateLeft 1 ^^^ s.rotateLeft 3 ^^^ s.rotateLeft 6 ^^^ 0x05)

/-- The round key after `k`. -/
def aesNextKey (k : List Byte) (rcon : Byte) : List Byte :=
  let last := k.drop 12
  let t := xorBytes ((last.drop 1 ++ last.take 1).map aesSub) [rcon, 0, 0, 0]
  let w0 := xorBytes (k.take 4) t
  let w1 := xorBytes ((k.drop 4).take 4) w0
  let w2 := xorBytes ((k.drop 8).take 4) w1
  w0 ++ w1 ++ w2 ++ xorBytes last w2

/-- The round keys from one on, for `n` rounds. -/
def aesKeys : Nat → Byte → List Byte → List (List Byte)
  | 0, _, k => [k]
  | n + 1, rcon, k => k :: aesKeys n (aesTwice rcon) (aesNextKey k rcon)

/-- The state's rows, row `r` turned by `r` (or, with `back`, turned back). A state is its four columns, one after another. -/
def aesShift (back : Bool) (s : List Byte) : List Byte :=
  (List.range 16).map (fun i => s.getD (4 * ((i / 4 + (if back then 16 - i % 4 else i % 4)) % 4) + i % 4) 0)

/-- The columns mixed, by the first row of the circulant matrix. -/
def aesMix (row : List Byte) (s : List Byte) : List Byte :=
  (List.range 16).map (fun i =>
    (List.range 4).foldl (fun a j => a ^^^ aesMul (row.getD ((j + 4 - i % 4) % 4) 0) (s.getD (i / 4 * 4 + j) 0)) 0)

/-- The block `b` encrypted under `key`. -/
def aesBlock (key b : List Byte) : List Byte :=
  let ks := aesKeys 10 1 key
  let s := ((ks.drop 1).take 9).foldl (fun s k => xorBytes (aesMix [2, 3, 1, 1] (aesShift false (s.map aesSub))) k) (xorBytes b key)
  xorBytes (aesShift false (s.map aesSub)) (ks.getD 10 [])

/-- The block `b` decrypted under `key`. -/
def aesUnblock (key b : List Byte) : List Byte :=
  let ks := (aesKeys 10 1 key).reverse
  let s := ((ks.drop 1).take 9).foldl (fun s k => aesMix [14, 11, 13, 9] (xorBytes ((aesShift true s).map aesUnsub) k))
    (xorBytes b (ks.getD 0 []))
  xorBytes ((aesShift true s).map aesUnsub) key

end Sys2Proof.Machine
end

