-- ==== Sys2Proof/Config.lean ====
section
/-! DEFINITION. What one implementation of the card fixes, and the FREE VALUES: constants with no body, so that no
proof can see what they are (assumption log, entry 1). Every use is applied to the plain counter `Card.fresh`, or to
the operands it depends on. -/

namespace Sys2Proof.Config

/-- A value the spec leaves open, drawn afresh at each use: the argument is the counter of draws. -/
opaque freeNat : Nat → Nat

/-- A choice the spec leaves open. -/
opaque freeBool : Nat → Bool

/-- A choice the spec leaves open about one subject (a page, a line): the counter of draws and the subject. -/
opaque freeChoice : Nat → Nat → Bool

/-- One of several things, by number, that the spec lets an access about one subject use: the draw and the subject. -/
opaque freePick : Nat → Nat → Nat

/-- A fuse word as blown at manufacture (spec/21 R493); the words the spec gives are not read from here. -/
opaque fuseWord : Nat → Word

/-- The nominal trim built into the hub for each trim word (spec/21 R494). -/
opaque nominalTrim : Nat → Word

/-- The card's own check code over one line of an ECC region (spec/08 R176): "the card's own and not defined". -/
opaque checkByte : List Byte → Nat → Byte

/-- A transcendental function of the whisk (spec/14 R335), as a function of its code and the operand's bits; R335
bounds its error and states no bits. -/
opaque whiskFn : Nat → Nat → Nat

/-- Which of two zeros of different sign a maximum or minimum yields (spec/14 R335 does not say): the first or not. -/
opaque zeroFirst : Nat → Nat → Bool

/-- The length of a scan chain in bits (spec/18 R444): the scan-map file of the stepping gives it. -/
opaque scanLength : Nat → Nat

/-- The KIND of the field that covers a bit of a scan chain (spec/18 R444): 0 CONTROL, 1 DATA, 2 KEY, 3 STAMP; another number
where no field covers it. The chain and the bit. -/
opaque scanKind : Nat → Nat → Nat

/-- The version of the board controller's firmware (spec/24 R551 BM_FW: built in). -/
opaque boardFw : Nat

end Sys2Proof.Config
end

