-- ==== Sys2Proof/Machine/Factory.lean ====
section
/-! DEFINITION. What is built into the card as shipped: the CRC-32 of stored images (spec/03 R56), the form of a keep-store image
(spec/21 R499), and the factory default layouts (spec/03 R55 to R59, R65). -/

namespace Sys2Proof.Machine

/-! ### CRC-32 (R56) -/

/-- One bit of the reflected CRC. -/
def crcBit (c : BitVec 32) : BitVec 32 := if c.getLsbD 0 then (c >>> 1) ^^^ 0xEDB88320 else c >>> 1

/-- One byte taken into the CRC. -/
def crcByte (c : BitVec 32) (b : Byte) : BitVec 32 :=
  crcBit (crcBit (crcBit (crcBit (crcBit (crcBit (crcBit (crcBit (c ^^^ b.zeroExtend 32))))))))

/-- The CRC-32 of IEEE 802.3. -/
def crc32 (l : List Byte) : Nat := (l.foldl crcByte 0xFFFFFFFF ^^^ 0xFFFFFFFF).toNat

/-- An image's CRC: over its first `n` bytes with the field at 0x3C read as 0. -/
def imageCrc (img : List Byte) (n : Nat) : Nat :=
  crc32 ((img ++ List.replicate n 0).take 0x3C ++ List.replicate 4 0 ++ ((img ++ List.replicate n 0).take n).drop 0x40)

/-! ### Keep-store images (R499) -/

/-- A section: type, index, class and payload. -/
structure KsSection where
  type : Nat
  index : Nat
  cls : Nat
  payload : List Byte
deriving DecidableEq, Repr

/-- A section's bytes: its header, and its payload padded to a multiple of 16. -/
def KsSection.bytes (s : KsSection) : List Byte :=
  let n := s.payload.length
  leBytes 1 s.type ++ leBytes 1 s.index ++ leBytes 1 s.cls ++ leBytes 1 0 ++ leBytes 4 n ++ List.replicate 8 0 ++ s.payload ++
  List.replicate ((16 - n % 16) % 16) 0

/-- An image of some sections, with a generation and its CRC. -/
def ksBuild (gen : Nat) (l : List KsSection) : List Byte :=
  let body := l.flatMap KsSection.bytes
  let img := leBytes 4 0x5045454B ++ leBytes 2 1 ++ leBytes 2 l.length ++ leBytes 4 gen ++ leBytes 4 (64 + body.length) ++
    List.replicate 48 0 ++ body
  img.take 0x3C ++ leBytes 4 (imageCrc img img.length) ++ img.drop 0x40

/-! ### The factory default layouts (R65) -/

/-- A group entry of a layout image (R58): a class, a unit mask, every ring, rotating. -/
def factoryGroup (h cls units : Nat) : List Byte :=
  leBytes 1 cls ++ leBytes 1 h ++ leBytes 2 0xFFFF ++ leBytes 4 units ++ leBytes 1 1 ++ List.replicate 7 0

/-- The region entry of a whole rank (R59, R65): module rank 0 is PICTURE and COLANDER, module rank 1 ECC and HOSTREAD. -/
def factoryRegion (r : Nat) : List Byte :=
  leBytes 1 r ++ leBytes 1 (if r % 2 = 0 then 0x06 else 0x09) ++ leBytes 1 (2 ^ (r / 2)) ++ leBytes 1 0 ++
  leBytes 2 (r % 2 * 8192) ++ leBytes 2 0 ++ leBytes 2 8192 ++ List.replicate 6 0

/-- The ranks that hamper `h`'s factory default holds spare (R65). -/
def factorySpare (h : Nat) : Nat := match h with | 0 => 2 ^ 3 | 3 => 2 ^ 13 | _ => 0

/-- The factory default layout of hamper `h`, as an image. VERSION_MINOR and BUILDER_ID, which the card ignores, are 0. -/
def factoryImage (h : Nat) : List Byte :=
  let groups := [(1, 0xFFFF), (2, 0xF), (3, 0x3), (4, 0x1), (5, 0xFF), (6, 0x1), (7, 3 * 2 ^ (2 * h)), (8, 0x1)]
  let ranks := (List.range 4).map (fun i => 4 * h + i) |>.filter (fun r => !nbit (factorySpare h) r)
  let body :=
    leBytes 1 (3 * 2 ^ (2 * h)) ++ leBytes 1 h ++ leBytes 2 (factorySpare h) ++ leBytes 2 (0xF * 2 ^ (4 * h)) ++ leBytes 1 0 ++
    leBytes 1 0 ++ leBytes 2 96 ++ leBytes 2 64 ++ leBytes 2 32 ++ leBytes 2 0 ++ leBytes 4 0xAAAA5555 ++ List.replicate 44 0 ++
    groups.flatMap (fun g => factoryGroup h g.1 g.2) ++ ranks.flatMap factoryRegion
  let head := leBytes 4 0x594C564B ++ leBytes 1 1 ++ leBytes 1 0 ++ leBytes 2 (64 + body.length) ++ leBytes 2 0x0141 ++
    leBytes 1 h ++ leBytes 1 groups.length ++ leBytes 1 ranks.length ++ List.replicate 3 0 ++ leBytes 4 (0x46400000 + h) ++
    List.replicate 40 0
  head ++ leBytes 4 (crc32 (head ++ leBytes 4 0 ++ body)) ++ body

/-- The keep-store image of a card as shipped: the four factory default layouts (DESIGN CHOICE, assumption log entry 6). -/
def factoryKeep : List Byte := ksBuild 1 ([0, 1, 2, 3].map (fun h => ⟨2, h, 2, factoryImage h⟩))

end Sys2Proof.Machine
end

