-- ==== Sys2Proof/Machine/RegMap.lean ====
section
/-! DEFINITION. The register map: every register of PF0 BAR0, of a hamper PF's BAR0 and of a VF's BAR0, with each
field's bits, access code, reset value and the check a write of it meets (spec/00 R4, R8 and the register tables of
every chapter). -/

namespace Sys2Proof.Machine

/-- The access codes of R4, and two of the model's: `own`, a writable field whose write is a command of its own in the
table of operations, so that REGISTER_WRITE leaves it; `load`, a WO field that loads a value (R4), so that it is held
and reads 0. -/
inductive Acc where
  | ro | rw | w1c | w1s | wo | rc | own | load
deriving DecidableEq, Repr

/-- The check a written field value meets; a value that fails leaves the field unchanged (R8, and the field's own
words). -/
inductive Chk where
  | any
  | nz
  | rng (lo hi : Nat)
  | mult (m : Nat)
  | among (l : List Nat)
deriving DecidableEq, Repr

/-- The state in which a field may be changed; outside it a write leaves the field unchanged. -/
inductive Lock where
  | open_
  | ringOff      -- the ring's STATE reads DISABLED (R119)
  | recOff       -- the record ring is not enabled (R397)
  | poolOff      -- the pool reads ENABLE 0 and no check runs (R162)
  | rpOff        -- the raster port reads ENABLE 0 (R276)
  | vcOff        -- the virtual channel reads ENABLE 0 (R276)
  | msgOff       -- the port's message ring reads ENABLE 0 (R538)
  | xlIdle       -- no invalidation runs (R147)
  | layoutIdle   -- no loader command runs (R71)
  | takeIdle     -- no host take runs (R164)
  | auditIdle    -- no audit runs (R164)
  | progIdle     -- no fuse programming runs (R501)
  | roIdle       -- no read-out runs (R445)
  | reinstIdle   -- no self-test of the hamper runs (R423)
  | colReinstIdle -- no self-test of a colander runs (R425)
  | dvOff        -- both ports have ENABLE 0 (R538)
  | tkIdle       -- no live track and no open batch (R369)
deriving DecidableEq, Repr

/-- One field. -/
structure Fld where
  name  : String
  hi    : Nat
  lo    : Nat
  acc   : Acc
  reset : Nat := 0
  chk   : Chk := .any
  lock  : Lock := .open_
deriving DecidableEq, Repr

/-- One register, or an array of registers: `dims` holds (count, stride), the outer index first. -/
structure Reg where
  name : String
  base : Nat
  dims : List (Nat × Nat) := []
  flds : List Fld
deriving DecidableEq, Repr

/-- A whole 32-bit counter that a read clears. -/
def rcCount (name : String) (base : Nat) (dims : List (Nat × Nat) := []) (field : String := "COUNT") : Reg :=
  ⟨name, base, dims, [⟨field, 31, 0, .rc, 0, .any, .open_⟩]⟩

/-- A whole 32-bit read-only value. -/
def roWord (name : String) (base : Nat) (dims : List (Nat × Nat) := []) : Reg :=
  ⟨name, base, dims, [⟨name, 31, 0, .ro, 0, .any, .open_⟩]⟩

/-- A whole 32-bit read-write value. -/
def rwWord (name : String) (base : Nat) (dims : List (Nat × Nat) := []) (lock : Lock := .open_) : Reg :=
  ⟨name, base, dims, [⟨name, 31, 0, .rw, 0, .any, lock⟩]⟩

/-- The four words of each entry of an MSI-X table of `n` vectors; vector control bit 0 is the mask, set at reset
(PRESUMED: the PCIe layout of R86's table, assumption log entry 9). -/
def msixTable (base n : Nat) : List Reg :=
  [ rwWord "MSIX_ADDR_LO" base [(n, 16)], rwWord "MSIX_ADDR_HI" (base + 4) [(n, 16)],
    rwWord "MSIX_DATA" (base + 8) [(n, 16)],
    ⟨"MSIX_CTRL", base + 12, [(n, 16)], [{ name := "MASK", hi := 0, lo := 0, acc := .rw, reset := 1 }]⟩ ]

/-- Identity and bring-up (spec/01 R22, spec/22 R514, R516). -/
def regsIdentity : List Reg :=
  [ ⟨"MG_ID_DEVICE", 0x0000, [], [{ name := "DEVICE", hi := 31, lo := 16, acc := .ro, reset := 0x4640 },
      { name := "VENDOR", hi := 15, lo := 0, acc := .ro, reset := 0x1F1E }]⟩,
    ⟨"MG_ID_STEPPING", 0x0004, [], [{ name := "DIGIT", hi := 15, lo := 8, acc := .ro, reset := 0x01 },
      { name := "LETTER", hi := 7, lo := 0, acc := .ro, reset := 0x41 }]⟩,
    roWord "MG_ID_SERIAL_LO" 0x0008, roWord "MG_ID_SERIAL_HI" 0x000C,
    roWord "MG_HAMPER_UNITS" 0x0010 [(4, 4)], roWord "MG_MODULE_MAP" 0x0020, roWord "MG_MEM_CAPACITY" 0x0024,
    roWord "MG_CONNECTORS" 0x0028, roWord "MG_BOOT_STATUS" 0x0030,
    ⟨"MG_BOOT_EVENTS", 0x0034, [], [{ name := "DEGRADED", hi := 1, lo := 1, acc := .w1c },
      { name := "STAGE_CHANGE", hi := 0, lo := 0, acc := .w1c }]⟩,
    rcCount "MG_BOOT_DROPS" 0x0038, roWord "MG_BOOT_POWER_ON" 0x003C,
    ⟨"MG_BOOT_STAMP", 0x0040, [(8, 4)], [{ name := "ENTRY_US", hi := 31, lo := 0, acc := .ro, reset := 0xFFFFFFFF }]⟩ ]

/-- Pace, voltage loop and card time (spec/02 R42). -/
def regsPace : List Reg :=
  [ ⟨"MG_PACE_CTL", 0x1000, [],
      [{ name := "HEADROOM", hi := 31, lo := 24, acc := .rw, reset := 0x20 },
       { name := "RELAX_WINDOWS", hi := 23, lo := 16, acc := .rw, reset := 0x10, chk := .nz },
       { name := "LOWER_STEP", hi := 11, lo := 8, acc := .rw, reset := 1, chk := .nz },
       { name := "RAISE_STEP", hi := 7, lo := 4, acc := .rw, reset := 4, chk := .nz },
       { name := "SHED_EN", hi := 1, lo := 1, acc := .rw, reset := 1 },
       { name := "LOOP_EN", hi := 0, lo := 0, acc := .rw, reset := 1 }]⟩,
    ⟨"MG_AVS_LIMITS", 0x1004, [], [{ name := "FLOOR_MV", hi := 31, lo := 16, acc := .rw, reset := 700 },
       { name := "CEIL_MV", hi := 15, lo := 0, acc := .rw, reset := 900 }]⟩,
    ⟨"MG_AVS_STATUS", 0x1008, [], [{ name := "EFF_CEIL_MV", hi := 31, lo := 16, acc := .ro, reset := 900 },
       { name := "REQUEST_MV", hi := 15, lo := 0, acc := .ro, reset := 700 }]⟩,
    ⟨"MG_AVS_EVENTS", 0x100C, [], [{ name := "REG_FAULT", hi := 2, lo := 2, acc := .w1c },
       { name := "REG_NAK", hi := 1, lo := 1, acc := .w1c }, { name := "AT_CEIL", hi := 0, lo := 0, acc := .w1c }]⟩,
    ⟨"MG_PACE_TARGET", 0x1010, [(4, 4)],
      [{ name := "TARGET_NS", hi := 15, lo := 0, acc := .rw, reset := 2000, chk := .rng 500 0xFFFF }]⟩,
    roWord "MG_PACE_STATUS" 0x1020 [(4, 4)], rcCount "MG_PACE_MISS_COUNT" 0x1030 [(4, 4)] "WINDOWS",
    roWord "MG_TIME_LO" 0x1040, roWord "MG_TIME_HI" 0x1044,
    ⟨"MG_TIME_CTL", 0x1048, [], [{ name := "PTM_INTERVAL_MS", hi := 7, lo := 0, acc := .rw, reset := 10, chk := .nz }]⟩,
    roWord "MG_TIME_STATUS" 0x104C, roWord "MG_TIME_OFFSET" 0x1050, roWord "MG_TIME_RATE" 0x1054 ]

/-- The draw governor (spec/19 R463). -/
def regsPower : List Reg :=
  [ ⟨"MG_PWR_GOV_CTL", 0x1100, [], [{ name := "SLOPE_DOWN", hi := 12, lo := 8, acc := .rw, reset := 14, chk := .rng 1 16 },
       { name := "SLOPE_UP", hi := 4, lo := 0, acc := .rw, reset := 14, chk := .rng 1 16 }]⟩,
    ⟨"MG_PWR_LIMIT", 0x1104, [], [{ name := "EFF_LIMIT_W", hi := 31, lo := 16, acc := .ro },
       { name := "LIMIT_W", hi := 15, lo := 0, acc := .rw, reset := 270, chk := .rng 60 270 }]⟩,
    roWord "MG_PWR_STATUS" 0x1108, roWord "MG_PWR_CURRENT" 0x110C, roWord "MG_PWR_EST" 0x1110,
    ⟨"MG_PWR_EVENTS", 0x1114, [], [{ name := "OUT_FAULT", hi := 7, lo := 7, acc := .w1c },
       { name := "SLOPE_EXCEEDED", hi := 5, lo := 5, acc := .w1c },
       { name := "BACKFEED_BLOCKED", hi := 4, lo := 4, acc := .w1c },
       { name := "SENSE_CHANGED", hi := 3, lo := 3, acc := .w1c }, { name := "UV_WARN", hi := 2, lo := 2, acc := .w1c },
       { name := "AUX_LOST", hi := 1, lo := 1, acc := .w1c }, { name := "CAP_HIT", hi := 0, lo := 0, acc := .w1c }]⟩,
    rcCount "MG_PWR_HOLDS" 0x1118, rcCount "MG_PWR_CAP_US" 0x111C [] "TIME", rcCount "MG_PWR_SLOPE_NS" 0x1120 [] "TIME",
    ⟨"MG_PWR_PEAK_W", 0x1124, [], [{ name := "WATTS", hi := 15, lo := 0, acc := .rc }]⟩,
    roWord "MG_PWR_ENERGY_LO" 0x1128, roWord "MG_PWR_ENERGY_HI" 0x112C, roWord "MG_PWR_CORE" 0x1130,
    ⟨"MG_PWR_OUT", 0x1134, [], [{ name := "DV_FAULT", hi := 18, lo := 17, acc := .w1c },
       { name := "DB_FAULT", hi := 16, lo := 16, acc := .w1c }, { name := "DV_ON", hi := 10, lo := 9, acc := .ro },
       { name := "DB_ON", hi := 8, lo := 8, acc := .ro }, { name := "DV_EN", hi := 2, lo := 1, acc := .own, reset := 3 },
       { name := "DB_EN", hi := 0, lo := 0, acc := .own, reset := 1 }]⟩ ]

/-- Thermal (spec/20 R481). -/
def regsThermal : List Reg :=
  [ roWord "MG_THM_STATUS" 0x2000,
    ⟨"MG_THM_CTL", 0x2004, [], [{ name := "WARM_EN", hi := 31, lo := 31, acc := .rw, reset := 1 },
       { name := "HOT_C", hi := 23, lo := 16, acc := .rw, reset := 108, chk := .rng 106 115 },
       { name := "WARN_C", hi := 15, lo := 8, acc := .rw, reset := 95, chk := .rng 80 100 }]⟩,
    ⟨"MG_THM_CEIL", 0x2008, [], [{ name := "CEIL_MV", hi := 15, lo := 0, acc := .ro, reset := 900 }]⟩,
    ⟨"MG_THM_WARM", 0x200C, [], [{ name := "WARM_TJ_C", hi := 31, lo := 24, acc := .rw, reset := 60, chk := .rng 30 80 },
       { name := "FLOOR_W", hi := 23, lo := 16, acc := .rw, reset := 100, chk := .rng 0 200 },
       { name := "MAX_SHARES", hi := 12, lo := 8, acc := .rw, reset := 20, chk := .rng 0 20 },
       { name := "SHARES", hi := 4, lo := 0, acc := .ro }]⟩,
    ⟨"MG_THM_AIR", 0x2010, [], [{ name := "AIR_FLOOR", hi := 14, lo := 8, acc := .rw, chk := .rng 0 100 },
       { name := "AIR_MIN", hi := 6, lo := 0, acc := .rw, reset := 20, chk := .rng 0 100 }]⟩,
    ⟨"MG_THM_EVENTS", 0x2014, [], [{ name := "TRIP_PREV", hi := 5, lo := 5, acc := .w1c },
       { name := "CEIL_LIMITED", hi := 4, lo := 4, acc := .w1c }, { name := "SENSOR_FAIL", hi := 3, lo := 3, acc := .w1c },
       { name := "MODULE_HOT", hi := 2, lo := 2, acc := .w1c }, { name := "HOT", hi := 1, lo := 1, acc := .w1c },
       { name := "WARN", hi := 0, lo := 0, acc := .w1c }]⟩,
    rcCount "MG_THM_STAGE_US" 0x2018 [] "TIME",
    ⟨"MG_THM_PEAK", 0x201C, [], [{ name := "PEAK_C", hi := 7, lo := 0, acc := .rc }]⟩,
    roWord "MG_THM_SENSOR" 0x2100 [(64, 4)] ]

/-- Keep store, presence and fuses (spec/21 R500, R501). -/
def regsKeep : List Reg :=
  [ ⟨"MG_KS_CTL", 0x3000, [], [{ name := "GO", hi := 31, lo := 31, acc := .wo },
       { name := "CMD", hi := 3, lo := 0, acc := .rw, reset := 1 }]⟩,
    roWord "MG_KS_STATUS" 0x3004, roWord "MG_KS_GEN" 0x3008, roWord "MG_KS_WEAR" 0x300C [(2, 4)],
    ⟨"MG_KS_STG_ADDR", 0x3014, [], [{ name := "SPACE", hi := 16, lo := 16, acc := .rw },
       { name := "OFFSET", hi := 15, lo := 0, acc := .rw, chk := .mult 4 }]⟩,
    ⟨"MG_KS_STG_DATA", 0x3018, [], [{ name := "DATA", hi := 31, lo := 0, acc := .own }]⟩,
    ⟨"MG_KS_EVENTS", 0x301C, [], [{ name := "REQ_BUSY", hi := 6, lo := 6, acc := .w1c },
       { name := "SEAL", hi := 5, lo := 5, acc := .w1c }, { name := "TIMEOUT", hi := 4, lo := 4, acc := .w1c },
       { name := "GRANTED", hi := 3, lo := 3, acc := .w1c }, { name := "INTERNAL_DONE", hi := 2, lo := 2, acc := .w1c },
       { name := "STORE_DONE", hi := 0, lo := 0, acc := .w1c }]⟩,
    roWord "MG_PP_STATUS" 0x3020, rcCount "MG_PP_BUTTON_IDLE" 0x3024,
    roWord "MG_FUSE_STATUS" 0x4000,
    ⟨"MG_FUSE_EVENTS", 0x4004, [], [{ name := "PROG_DONE", hi := 5, lo := 5, acc := .w1c },
       { name := "ID_WARM", hi := 4, lo := 4, acc := .w1c }, { name := "REPAIR_RESOLVED", hi := 3, lo := 3, acc := .w1c },
       { name := "TRIM_NOMINAL", hi := 2, lo := 2, acc := .w1c }, { name := "TRIM_SHADOW", hi := 1, lo := 1, acc := .w1c },
       { name := "MARGINAL", hi := 0, lo := 0, acc := .w1c }]⟩,
    ⟨"MG_FUSE_PROG_WORD", 0x4010, [], [{ name := "WORD", hi := 6, lo := 0, acc := .rw, lock := .progIdle }]⟩,
    rwWord "MG_FUSE_PROG_DATA" 0x4014 [] .progIdle,
    ⟨"MG_FUSE_PROG_CTL", 0x4018, [], [{ name := "GO", hi := 31, lo := 31, acc := .wo },
       { name := "BUSY", hi := 30, lo := 30, acc := .ro }, { name := "PRESENCE_WAIT", hi := 29, lo := 29, acc := .ro },
       { name := "RESULT", hi := 27, lo := 24, acc := .ro }]⟩,
    roWord "MG_FUSE_WORD" 0x4100 [(128, 4)], roWord "MG_FUSE_MARGIN" 0x4300 [(128, 4)] ]

/-- Freeze and read-out (spec/18 R445). -/
def regsFreeze : List Reg :=
  [ ⟨"MG_FRZ_CTL", 0x5000, [], [{ name := "FREEZE", hi := 31, lo := 31, acc := .wo },
       { name := "THAW", hi := 30, lo := 30, acc := .wo }, { name := "JTAG_EN", hi := 12, lo := 12, acc := .rw, reset := 1 },
       { name := "MATCH_EN", hi := 11, lo := 11, acc := .rw }, { name := "PIN_EN", hi := 10, lo := 10, acc := .rw, reset := 1 },
       { name := "LINK_IN", hi := 9, lo := 9, acc := .rw }, { name := "LINK_OUT", hi := 8, lo := 8, acc := .rw }]⟩,
    roWord "MG_FRZ_STATUS" 0x5004,
    ⟨"MG_FRZ_SOURCES", 0x5008, [], [{ name := "EARLY", hi := 7, lo := 7, acc := .w1c },
       { name := "SEEN", hi := 6, lo := 1, acc := .w1c }]⟩,
    roWord "MG_FRZ_COUNT" 0x500C, roWord "MG_FRZ_TIME_LO" 0x5010, roWord "MG_FRZ_TIME_HI" 0x5014,
    roWord "MG_THAW_TIME_LO" 0x5018, roWord "MG_THAW_TIME_HI" 0x501C, rcCount "MG_FRZ_DROPS" 0x5020 [(4, 4)],
    ⟨"MG_FRZ_MATCH_CTL", 0x5030, [], [{ name := "ARMED", hi := 31, lo := 31, acc := .rw },
       { name := "KIND", hi := 27, lo := 24, acc := .rw, chk := .rng 1 12 },
       { name := "HAMPER", hi := 19, lo := 16, acc := .rw, chk := .among [0, 1, 2, 3, 0xE, 0xF] },
       { name := "CLASS", hi := 15, lo := 8, acc := .rw, chk := .rng 0 11 }, { name := "COUNT", hi := 7, lo := 0, acc := .rw, reset := 1, chk := .nz }]⟩,
    rwWord "MG_FRZ_MATCH_TIME_LO" 0x5034, rwWord "MG_FRZ_MATCH_TIME_HI" 0x5038, roWord "MG_FRZ_MAXSTOP" 0x5040,
    ⟨"MG_RO_CTL", 0x5100, [], [{ name := "GO", hi := 31, lo := 31, acc := .wo }, { name := "BUSY", hi := 30, lo := 30, acc := .ro },
       { name := "RESULT", hi := 29, lo := 28, acc := .ro }, { name := "UE", hi := 27, lo := 27, acc := .ro },
       { name := "MASKED", hi := 26, lo := 26, acc := .ro },
       { name := "SPACE", hi := 19, lo := 16, acc := .rw, chk := .rng 0 4, lock := .roIdle },
       { name := "SEL", hi := 15, lo := 0, acc := .rw, lock := .roIdle }]⟩,
    rwWord "MG_RO_ADDR_LO" 0x5104 [] .roIdle, rwWord "MG_RO_ADDR_HI" 0x5108 [] .roIdle,
    ⟨"MG_RO_LEN", 0x510C, [], [{ name := "BYTES", hi := 11, lo := 0, acc := .rw, reset := 2048, lock := .roIdle }]⟩,
    ⟨"MG_RO_UNLOCK", 0x5110, [], [{ name := "REQUEST", hi := 31, lo := 31, acc := .wo },
       { name := "PENDING", hi := 30, lo := 30, acc := .ro }, { name := "GRANTED", hi := 29, lo := 29, acc := .ro },
       { name := "JUMPER", hi := 28, lo := 28, acc := .ro }]⟩,
    roWord "MG_RO_DATA" 0x5800 [(512, 4)] ]

/-- The layout loader (spec/03 R62). -/
def regsLayout : List Reg :=
  [ ⟨"MG_LAYOUT_CTL", 0x6000, [], [{ name := "GO", hi := 31, lo := 31, acc := .wo },
       { name := "CMD", hi := 7, lo := 4, acc := .rw, reset := 1, lock := .layoutIdle },
       { name := "HAMPER", hi := 1, lo := 0, acc := .rw, lock := .layoutIdle }]⟩,
    roWord "MG_LAYOUT_STATUS" 0x6004, rcCount "MG_LAYOUT_DROPS" 0x6008 [] "DROPS",
    roWord "MG_LAYOUT_ACTIVE" 0x6010 [(4, 4)], roWord "MG_LAYOUT_PENDING" 0x6020 [(4, 4)],
    roWord "MG_LAYOUT_STATE" 0x6030 [(4, 4)], rwWord "MG_LAYOUT_WINDOW" 0x6800 [(512, 4)] .layoutIdle ]

/-- The memory controllers (spec/08 R197, R198). -/
def regsMemory : List Reg :=
  [ ⟨"MG_MEM_CTL", 0x8000, [], [{ name := "MIGR_RATE", hi := 11, lo := 8, acc := .rw, reset := 1, chk := .rng 1 4 },
       { name := "AUTO_RETIRE", hi := 2, lo := 2, acc := .rw, reset := 1 },
       { name := "IDLE_SR_EN", hi := 1, lo := 1, acc := .rw, reset := 1 },
       { name := "AUTO_BAND", hi := 0, lo := 0, acc := .rw, reset := 1 }]⟩,
    ⟨"MG_MEM_IDLE", 0x8004, [], [{ name := "IDLE_US", hi := 15, lo := 0, acc := .rw, reset := 1000, chk := .rng 10 0xFFFF }]⟩,
    ⟨"MG_MEM_DRIFT_CFG", 0x8008, [], [{ name := "CE_LIMIT", hi := 31, lo := 16, acc := .rw, reset := 64 },
       { name := "WINDOW_MS", hi := 15, lo := 0, acc := .rw, reset := 1000, chk := .nz }]⟩,
    ⟨"MG_MEM_PANIC_CFG", 0x800C, [], [{ name := "COL_RAISE", hi := 15, lo := 12, acc := .rw, reset := 12 },
       { name := "COL_CLEAR", hi := 11, lo := 8, acc := .rw, reset := 8 },
       { name := "RAS_RAISE", hi := 7, lo := 4, acc := .rw, reset := 12 },
       { name := "RAS_CLEAR", hi := 3, lo := 0, acc := .rw, reset := 8 }]⟩,
    roWord "MG_MEM_RANK_STATE" 0x8010 [(4, 4)], roWord "MG_MEM_MIGR_STATUS" 0x8020,
    rcCount "MG_MEM_MIGR_POISON" 0x8024 [] "LINES",
    ⟨"MG_MEM_RETIRE", 0x8028, [], [{ name := "GO", hi := 31, lo := 31, acc := .wo },
       { name := "RESULT", hi := 17, lo := 16, acc := .ro }, { name := "RANK", hi := 3, lo := 0, acc := .rw }]⟩,
    ⟨"MG_MEM_EVENTS", 0x802C, [], [{ name := "MIGR_START", hi := 31, lo := 31, acc := .w1c },
       { name := "MIGR_DONE", hi := 30, lo := 30, acc := .w1c }, { name := "RANK_LOST", hi := 29, lo := 29, acc := .w1c },
       { name := "BAND_CHANGE", hi := 28, lo := 28, acc := .w1c }, { name := "DRIFT", hi := 23, lo := 16, acc := .w1c },
       { name := "UE", hi := 15, lo := 8, acc := .w1c }, { name := "CMD_FAIL", hi := 7, lo := 0, acc := .w1c }]⟩,
    ⟨"MG_MEM_RETAIN", 0x8040, [(4, 4)], [{ name := "SEGMENTS", hi := 31, lo := 0, acc := .rw, reset := 0xFFFFFFFF }]⟩,
    roWord "MG_MEM_CH_STATUS" 0x8100 [(8, 0x100)], rcCount "MG_MEM_CH_CE" 0x8104 [(8, 0x100)],
    rcCount "MG_MEM_CH_UE" 0x8108 [(8, 0x100)], rcCount "MG_MEM_CH_REPLAY" 0x810C [(8, 0x100)],
    rcCount "MG_MEM_CH_PANIC_US" 0x8110 [(8, 0x100)] "TIME", rcCount "MG_MEM_CH_ROW_HITS" 0x8114 [(8, 0x100)],
    rcCount "MG_MEM_CH_ROW_MISSES" 0x8118 [(8, 0x100)], roWord "MG_MEM_CH_ERR_ADDR" 0x8120 [(8, 0x100)],
    ⟨"MG_MEM_CH_ERR_INFO", 0x8124, [(8, 0x100)], [{ name := "VALID", hi := 31, lo := 31, acc := .w1c },
       { name := "KIND", hi := 29, lo := 28, acc := .ro }]⟩,
    ⟨"MG_MEM_DLY_SEL", 0x8130, [(8, 0x100)], [{ name := "RANK", hi := 8, lo := 8, acc := .rw },
       { name := "SUBCH", hi := 7, lo := 7, acc := .rw }, { name := "LANE", hi := 5, lo := 0, acc := .rw, chk := .rng 0 45 }]⟩,
    ⟨"MG_MEM_DLY_DATA", 0x8134, [(8, 0x100)], [{ name := "VREF", hi := 26, lo := 20, acc := .rw, chk := .rng 0 100 },
       { name := "RD_DLY", hi := 19, lo := 10, acc := .rw }, { name := "WR_DLY", hi := 9, lo := 0, acc := .rw }]⟩,
    ⟨"MG_MEM_DLY_CTL", 0x8138, [(8, 0x100)], [{ name := "APPLY", hi := 31, lo := 31, acc := .wo },
       { name := "LOAD", hi := 30, lo := 30, acc := .wo },
       { name := "BAND", hi := 29, lo := 28, acc := .rw, chk := .rng 0 2 }]⟩,
    ⟨"MG_MEM_CH_COL", 0x813C, [(8, 0x100)], [{ name := "COL_SHARE", hi := 2, lo := 0, acc := .rw, reset := 4, chk := .nz }]⟩ ]

/-- The Dravaz ports (spec/23 R538). -/
def regsDravaz : List Reg :=
  [ ⟨"MG_DV_CTL", 0xA000, [], [{ name := "TIME_UP", hi := 5, lo := 4, acc := .rw, chk := .rng 0 2 },
       { name := "CARD_ID", hi := 2, lo := 0, acc := .rw, lock := .dvOff }]⟩,
    ⟨"MG_DV_EVENTS", 0xA004, [], [{ name := "TIME_LOOP", hi := 16, lo := 16, acc := .w1c },
       { name := "PORT_EV", hi := 15, lo := 0, acc := .w1c }]⟩,
    roWord "MG_DV_TIME" 0xA008,
    ⟨"MG_DV_PORT_CTL", 0xA100, [(2, 0x100)], [{ name := "ENABLE", hi := 31, lo := 31, acc := .rw, reset := 1 },
       { name := "RETRAIN", hi := 30, lo := 30, acc := .wo }]⟩,
    roWord "MG_DV_PORT_STATUS" 0xA104 [(2, 0x100)],
    ⟨"MG_DV_TIMEOUTS", 0xA108, [(2, 0x100)], [{ name := "LINK_DOWN_MS", hi := 31, lo := 16, acc := .rw, reset := 50, chk := .nz },
       { name := "REMOTE_TIMEOUT_MS", hi := 15, lo := 0, acc := .rw, reset := 100, chk := .nz }]⟩,
    rcCount "MG_DV_REPLAYS" 0xA10C [(2, 0x100)], rcCount "MG_DV_RETRAINS" 0xA110 [(2, 0x100)],
    rcCount "MG_DV_DENIED" 0xA114 [(2, 0x100)], rcCount "MG_DV_EXPIRED" 0xA118 [(2, 0x100)],
    rcCount "MG_DV_WIN_REFUSED" 0xA11C [(2, 0x100)],
    roWord "MG_DV_TX_LO" 0xA120 [(2, 0x100)], roWord "MG_DV_TX_HI" 0xA124 [(2, 0x100)],
    roWord "MG_DV_RX_LO" 0xA128 [(2, 0x100)], roWord "MG_DV_RX_HI" 0xA12C [(2, 0x100)],
    ⟨"MG_DV_MSG_CFG", 0xA130, [(2, 0x100)], [{ name := "ENABLE", hi := 31, lo := 31, acc := .own },
       { name := "HAMPER", hi := 29, lo := 28, acc := .rw, lock := .msgOff },
       { name := "SEM", hi := 27, lo := 16, acc := .rw, lock := .msgOff },
       { name := "LOG2", hi := 4, lo := 0, acc := .rw, reset := 4, chk := .rng 2 12, lock := .msgOff }]⟩,
    ⟨"MG_DV_MSG_BASE", 0xA134, [(2, 0x100)], [{ name := "REGION", hi := 31, lo := 24, acc := .rw, lock := .msgOff },
       { name := "OFFSET_64K", hi := 23, lo := 0, acc := .rw, lock := .msgOff }]⟩,
    ⟨"MG_DV_MSG_HEAD", 0xA138, [(2, 0x100)], [{ name := "HEAD", hi := 31, lo := 0, acc := .own }]⟩,
    roWord "MG_DV_MSG_TAIL" 0xA13C [(2, 0x100)],
    ⟨"MG_DV_WIN_CTL", 0xA400, [(2, 0x400), (64, 16)], [{ name := "VALID", hi := 31, lo := 31, acc := .own },
       { name := "READ", hi := 30, lo := 30, acc := .own }, { name := "WRITE", hi := 29, lo := 29, acc := .own },
       { name := "CONTEXT", hi := 27, lo := 16, acc := .own }, { name := "REGION", hi := 7, lo := 0, acc := .own }]⟩,
    ⟨"MG_DV_WIN_OFFSET", 0xA404, [(2, 0x400), (64, 16)], [{ name := "OFFSET_2M", hi := 16, lo := 0, acc := .rw }]⟩,
    ⟨"MG_DV_WIN_SIZE", 0xA408, [(2, 0x400), (64, 16)], [{ name := "SIZE_M1", hi := 15, lo := 0, acc := .rw }]⟩ ]

/-- The fault log (spec/17 R425) and the colanders (spec/09 R222)
(DEDUCED, assumption log entry 91). -/
def regsFaultLog : List Reg :=
  [ ⟨"MG_FLT_CTL", 0xC000, [], [{ name := "CLEAR", hi := 31, lo := 31, acc := .wo },
       { name := "BAD_HEAD", hi := 1, lo := 1, acc := .w1c }, { name := "IRQ_EN", hi := 0, lo := 0, acc := .rw, reset := 1 }]⟩,
    ⟨"MG_FLT_HEAD", 0xC004, [], [{ name := "HEAD", hi := 31, lo := 0, acc := .own }]⟩,
    roWord "MG_FLT_TAIL" 0xC008, rcCount "MG_FLT_LOST" 0xC00C,
    ⟨"MG_FLT_COL_REINSTATE", 0xC010, [], [{ name := "GO", hi := 31, lo := 31, acc := .wo },
       { name := "BUSY", hi := 30, lo := 30, acc := .ro }, { name := "RESULT", hi := 29, lo := 28, acc := .ro },
       { name := "MODULE", hi := 2, lo := 0, acc := .rw, lock := .colReinstIdle }]⟩,
    rcCount "MG_FLT_CACHE_CE" 0xC014, rcCount "MG_FLT_CACHE_UE" 0xC018,
    ⟨"MG_FLT_COL_CFG", 0xC01C, [], [{ name := "BURST_COUNT", hi := 31, lo := 24, acc := .rw, reset := 4 },
       { name := "BURST_WINDOW_MS", hi := 23, lo := 0, acc := .rw, reset := 1000 }]⟩,
    roWord "MG_FLT_COL_COUNT" 0xC020 [(8, 4)], roWord "MG_FLT_LOG" 0xD000 [(1024, 4)],
    ⟨"MG_COL_CTL", 0xE000, [], [{ name := "ENABLE", hi := 7, lo := 0, acc := .rw, reset := 0xFF }]⟩,
    ⟨"MG_COL_EVENTS", 0xE004, [], [{ name := "HELD", hi := 15, lo := 8, acc := .w1c },
       { name := "FENCED", hi := 7, lo := 0, acc := .w1c }]⟩,
    roWord "MG_COL_STATUS" 0xE100 [(8, 0x40)], rcCount "MG_COL_BLOCKS" 0xE104 [(8, 0x40)],
    rcCount "MG_COL_LINES" 0xE108 [(8, 0x40)], rcCount "MG_COL_BUSY_US" 0xE10C [(8, 0x40)] "TIME" ]

/-- PF0 BAR0 (spec/04 R83). -/
def mgRegs : List Reg :=
  regsIdentity ++ regsPace ++ regsPower ++ regsThermal ++ regsKeep ++ regsFreeze ++ regsLayout ++
  msixTable 0x7000 16 ++ [roWord "MSIX_PBA" 0x7800] ++ regsMemory ++ regsDravaz ++ regsFaultLog

/-- Hamper control (spec/04 R87). -/
def regsFunction : List Reg :=
  [ roWord "HP_FN_STATUS" 0x00000, roWord "HP_FN_RESETS" 0x00004, rcCount "HP_FN_DROPS" 0x00008 [] "DROPS",
    ⟨"HP_FLUSH_HELD", 0x0000C, [], [{ name := "HELD", hi := 15, lo := 0, acc := .own }]⟩,
    roWord "HP_CARD_TIME_LO" 0x00040, roWord "HP_CARD_TIME_HI" 0x00044,
    ⟨"HP_VF_RINGS", 0x00100, [(8, 4)], [{ name := "RINGS", hi := 15, lo := 0, acc := .own }]⟩,
    ⟨"HP_VF_SEMS", 0x00120, [(8, 4)], [{ name := "COUNT", hi := 14, lo := 8, acc := .own },
       { name := "BASE", hi := 5, lo := 0, acc := .own }]⟩,
    ⟨"HP_VF_CTX", 0x00140, [(8, 4)], [{ name := "COUNT", hi := 27, lo := 16, acc := .own },
       { name := "BASE", hi := 11, lo := 0, acc := .own }]⟩ ]

/-- The ring pages (spec/05 R118) with the record ring of each (spec/16 R397). -/
def regsRing : List Reg :=
  [ ⟨"HP_RING_BASE_LO", 0x10000, [(16, 0x1000)], [{ name := "BASE", hi := 31, lo := 12, acc := .rw, lock := .ringOff }]⟩,
    rwWord "HP_RING_BASE_HI" 0x10004 [(16, 0x1000)] .ringOff,
    ⟨"HP_RING_CTL", 0x10008, [(16, 0x1000)], [{ name := "ENABLE", hi := 31, lo := 31, acc := .own },
       { name := "STOP_ERR", hi := 30, lo := 30, acc := .rw, lock := .ringOff },
       { name := "IRQ_EN", hi := 29, lo := 29, acc := .rw },
       { name := "CPL_LOG2", hi := 25, lo := 21, acc := .rw, reset := 10, chk := .rng 4 16, lock := .ringOff },
       { name := "SLOTS_LOG2", hi := 20, lo := 16, acc := .rw, reset := 8, chk := .rng 4 16, lock := .ringOff },
       { name := "MAX_INFLIGHT", hi := 8, lo := 0, acc := .rw, reset := 256, chk := .rng 1 256, lock := .ringOff }]⟩,
    rwWord "HP_SEM_WAIT_TO" 0x1000C [(16, 0x1000)] .ringOff,
    ⟨"HP_RING_CPL_LO", 0x10010, [(16, 0x1000)], [{ name := "BASE", hi := 31, lo := 12, acc := .rw, lock := .ringOff }]⟩,
    rwWord "HP_RING_CPL_HI" 0x10014 [(16, 0x1000)] .ringOff,
    ⟨"HP_RING_CPL_HEAD", 0x10018, [(16, 0x1000)], [{ name := "HEAD", hi := 31, lo := 0, acc := .own }]⟩,
    roWord "HP_RING_PROD" 0x1001C [(16, 0x1000)], roWord "HP_RING_CONS" 0x10020 [(16, 0x1000)],
    roWord "HP_RING_STATUS" 0x10024 [(16, 0x1000)],
    ⟨"HP_RING_ERR", 0x10028, [(16, 0x1000)], [{ name := "BAD_HEAD", hi := 4, lo := 4, acc := .w1c },
       { name := "CPL_FULL", hi := 3, lo := 3, acc := .w1c }, { name := "STOPPED_ERR", hi := 2, lo := 2, acc := .w1c },
       { name := "DB_DISABLED", hi := 1, lo := 1, acc := .w1c }, { name := "BAD_DOORBELL", hi := 0, lo := 0, acc := .w1c }]⟩,
    ⟨"HP_REC_BASE_LO", 0x10100, [(16, 0x1000)], [{ name := "BASE", hi := 31, lo := 12, acc := .rw, lock := .recOff }]⟩,
    rwWord "HP_REC_BASE_HI" 0x10104 [(16, 0x1000)] .recOff,
    ⟨"HP_REC_CTL", 0x10108, [(16, 0x1000)], [{ name := "ENABLE", hi := 31, lo := 31, acc := .own },
       { name := "IRQ_EN", hi := 29, lo := 29, acc := .rw },
       { name := "LOG2", hi := 20, lo := 16, acc := .rw, reset := 10, chk := .rng 6 20, lock := .recOff },
       { name := "THRESH", hi := 15, lo := 0, acc := .rw, reset := 1 }]⟩,
    ⟨"HP_REC_HEAD", 0x1010C, [(16, 0x1000)], [{ name := "HEAD", hi := 31, lo := 0, acc := .own }]⟩,
    roWord "HP_REC_TAIL" 0x10110 [(16, 0x1000)],
    ⟨"HP_REC_STATUS", 0x10114, [(16, 0x1000)], [{ name := "PENDING", hi := 31, lo := 16, acc := .ro },
       { name := "BAD_HEAD", hi := 2, lo := 2, acc := .w1c }, { name := "FULL", hi := 1, lo := 1, acc := .ro },
       { name := "BM_HELD", hi := 0, lo := 0, acc := .ro }]⟩,
    ⟨"HP_REC_HB", 0x10118, [(16, 0x1000)], [{ name := "INTERVAL_US", hi := 23, lo := 0, acc := .rw, lock := .recOff }]⟩,
    rcCount "HP_REC_HB_SKIP" 0x1011C [(16, 0x1000)] ]

/-- The semaphore registers (spec/05 R122); the window itself is state of its own. -/
def regsSem : List Reg :=
  [ ⟨"HP_SEM_EXPORT", 0x28000, [], [{ name := "HAMPERS", hi := 3, lo := 0, acc := .rw }]⟩,
    ⟨"HP_SEM_RPT_LO", 0x28008, [], [{ name := "BASE", hi := 31, lo := 15, acc := .rw },
       { name := "ENABLE", hi := 0, lo := 0, acc := .rw }]⟩,
    rwWord "HP_SEM_RPT_HI" 0x2800C,
    ⟨"HP_SEM_TO_RINGS", 0x28010, [], [{ name := "RINGS", hi := 15, lo := 0, acc := .w1c }]⟩,
    rcCount "HP_SEM_STALE" 0x28014 ]

/-- Translation (spec/06 R147). -/
def regsXlate : List Reg :=
  [ ⟨"HP_CTX_SEL", 0x40000, [], [{ name := "CTX", hi := 11, lo := 0, acc := .rw, reset := 1, chk := .nz }]⟩,
    ⟨"HP_CTX_ENTRY_LO", 0x40008, [], [{ name := "ENTRY", hi := 31, lo := 0, acc := .own }]⟩,
    ⟨"HP_CTX_ENTRY_HI", 0x4000C, [], [{ name := "ENTRY", hi := 31, lo := 0, acc := .own }]⟩,
    ⟨"HP_CTX_STATUS", 0x40010, [], [{ name := "MALFORMED", hi := 1, lo := 1, acc := .w1c },
       { name := "CONFLICT", hi := 0, lo := 0, acc := .w1c }]⟩,
    ⟨"HP_XL_INVAL", 0x40020, [], [{ name := "GO", hi := 31, lo := 31, acc := .wo },
       { name := "ALL", hi := 30, lo := 30, acc := .rw, lock := .xlIdle }, { name := "BUSY", hi := 29, lo := 29, acc := .ro },
       { name := "CTX", hi := 11, lo := 0, acc := .rw, lock := .xlIdle }]⟩,
    ⟨"HP_REGION_SEL", 0x40030, [], [{ name := "REGION", hi := 7, lo := 0, acc := .rw }]⟩,
    roWord "HP_REGION_INFO" 0x40034,
    ⟨"HP_REGION_OWNER", 0x40038, [], [{ name := "MATCH", hi := 27, lo := 16, acc := .own },
       { name := "MASK", hi := 11, lo := 0, acc := .own, reset := 0xFFF }]⟩,
    roWord "HP_REGION_DATA" 0x4003C,
    ⟨"HP_XL_FAULT_INFO", 0x40040, [], [{ name := "VALID", hi := 31, lo := 31, acc := .w1c },
       { name := "KIND", hi := 27, lo := 24, acc := .ro }, { name := "LEVEL", hi := 21, lo := 20, acc := .ro },
       { name := "RING", hi := 19, lo := 16, acc := .ro }, { name := "CTX", hi := 11, lo := 0, acc := .ro }]⟩,
    roWord "HP_XL_FAULT_VA_LO" 0x40044, roWord "HP_XL_FAULT_VA_HI" 0x40048, rcCount "HP_XL_FAULT_COUNT" 0x4004C,
    rcCount "HP_APER_MISS" 0x40050 [] "MISSES",
    ⟨"HP_APER_STATUS", 0x40054, [], [{ name := "DATA_ERRORS", hi := 31, lo := 16, acc := .rc },
       { name := "REFUSED_WRITES", hi := 15, lo := 0, acc := .rc }]⟩,
    ⟨"HP_APER_MAP_LO", 0x40100, [(64, 8)], [{ name := "MAP", hi := 31, lo := 0, acc := .own }]⟩,
    ⟨"HP_APER_MAP_HI", 0x40104, [(64, 8)], [{ name := "OFFSET_2M", hi := 16, lo := 0, acc := .own }]⟩,
    ⟨"HP_APER_MAP_LO_VF", 0x40300, [(8, 64), (8, 8)], [{ name := "MAP", hi := 31, lo := 0, acc := .own }]⟩,
    ⟨"HP_APER_MAP_HI_VF", 0x40304, [(8, 64), (8, 8)], [{ name := "OFFSET_2M", hi := 16, lo := 0, acc := .own }]⟩ ]

/-- Buffer pools (spec/07 R162, R164). -/
def regsPool : List Reg :=
  [ ⟨"HP_POOL_CFG", 0x50000, [(16, 0x40)], [{ name := "ENABLE", hi := 31, lo := 31, acc := .own },
       { name := "KIND", hi := 27, lo := 27, acc := .rw, lock := .poolOff },
       { name := "LOC", hi := 26, lo := 26, acc := .rw, lock := .poolOff },
       { name := "LADDER", hi := 25, lo := 24, acc := .rw, lock := .poolOff },
       { name := "REGION", hi := 23, lo := 16, acc := .rw, lock := .poolOff },
       { name := "SIZE_LOG2", hi := 4, lo := 0, acc := .rw, reset := 16, lock := .poolOff }]⟩,
    rwWord "HP_POOL_BASE" 0x50004 [(16, 0x40)] .poolOff,
    ⟨"HP_POOL_COUNT", 0x50008, [(16, 0x40)], [{ name := "COUNT", hi := 19, lo := 0, acc := .rw, lock := .poolOff }]⟩,
    ⟨"HP_POOL_LOW", 0x5000C, [(16, 0x40)], [{ name := "LOW", hi := 19, lo := 0, acc := .rw }]⟩,
    roWord "HP_POOL_AVAIL" 0x50010 [(16, 0x40)],
    ⟨"HP_POOL_MIN", 0x50014, [(16, 0x40)], [{ name := "MIN", hi := 19, lo := 0, acc := .rc, reset := 0xFFFFF }]⟩,
    rcCount "HP_POOL_FALLBACKS" 0x50018 [(16, 0x40)], rcCount "HP_POOL_FAILS" 0x5001C [(16, 0x40)],
    rcCount "HP_POOL_DFREES" 0x50020 [(16, 0x40)], rcCount "HP_POOL_BADFREES" 0x50024 [(16, 0x40)],
    rcCount "HP_POOL_RECLAIMS" 0x50028 [(16, 0x40)],
    ⟨"HP_POOL_EVENTS", 0x50400, [], [{ name := "DFREE", hi := 31, lo := 16, acc := .w1c },
       { name := "LOW", hi := 15, lo := 0, acc := .w1c }]⟩,
    ⟨"HP_POOL_CFG_RESULT", 0x50404, [], [{ name := "BUSY", hi := 31, lo := 31, acc := .ro },
       { name := "POOL", hi := 27, lo := 24, acc := .ro }, { name := "CODE", hi := 7, lo := 0, acc := .ro }]⟩,
    ⟨"HP_POOL_FREE_REG", 0x50408, [], [{ name := "POOL", hi := 27, lo := 24, acc := .wo },
       { name := "INDEX", hi := 19, lo := 0, acc := .wo }]⟩,
    ⟨"HP_POOL_TAKE_REQ", 0x50410, [], [{ name := "SEL", hi := 31, lo := 24, acc := .rw, lock := .takeIdle },
       { name := "RING", hi := 19, lo := 16, acc := .rw, lock := .takeIdle },
       { name := "CTX", hi := 11, lo := 0, acc := .rw, lock := .takeIdle }]⟩,
    ⟨"HP_POOL_TAKE_LEN", 0x50414, [], [{ name := "LENGTH", hi := 22, lo := 0, acc := .rw, lock := .takeIdle }]⟩,
    roWord "HP_POOL_TAKE" 0x50418,
    ⟨"HP_POOL_DFREE_INFO", 0x50420, [], [{ name := "VALID", hi := 31, lo := 31, acc := .w1c },
       { name := "POOL", hi := 27, lo := 24, acc := .ro }, { name := "INDEX", hi := 19, lo := 0, acc := .ro }]⟩,
    roWord "HP_POOL_DFREE_OWNER" 0x50424,
    ⟨"HP_AUDIT_CTL", 0x50430, [], [{ name := "GO", hi := 31, lo := 31, acc := .wo }, { name := "BUSY", hi := 30, lo := 30, acc := .ro },
       { name := "ANY_RING", hi := 29, lo := 29, acc := .rw, lock := .auditIdle },
       { name := "ALL_POOLS", hi := 28, lo := 28, acc := .rw, lock := .auditIdle },
       { name := "POOL", hi := 27, lo := 24, acc := .rw, lock := .auditIdle },
       { name := "RING", hi := 19, lo := 16, acc := .rw, lock := .auditIdle },
       { name := "CTX", hi := 11, lo := 0, acc := .rw, lock := .auditIdle }]⟩,
    roWord "HP_AUDIT_OUT" 0x50434, roWord "HP_AUDIT_PROV" 0x50438, roWord "HP_AUDIT_AGE" 0x5043C,
    roWord "HP_AUDIT_OLDEST" 0x50440 ]

/-- Intake (spec/10 R255). -/
def regsIntake : List Reg :=
  [ roWord "HP_IN_STATUS" 0x60000, roWord "HP_IN_BOOKED" 0x60004,
    ⟨"HP_IN_EVENTS_LO", 0x60008, [], [{ name := "CONTEXTS", hi := 31, lo := 0, acc := .w1c }]⟩,
    ⟨"HP_IN_EVENTS_HI", 0x6000C, [], [{ name := "CONTEXTS", hi := 31, lo := 0, acc := .w1c }]⟩,
    ⟨"HP_KEY_SEL", 0x60010, [], [{ name := "SLOT", hi := 5, lo := 0, acc := .rw }]⟩,
    ⟨"HP_KEY_CTL", 0x60014, [], [{ name := "VALID", hi := 31, lo := 31, acc := .ro }, { name := "CLEAR", hi := 30, lo := 30, acc := .wo },
       { name := "COMMIT", hi := 29, lo := 29, acc := .wo }, { name := "CTX", hi := 11, lo := 0, acc := .rw }]⟩,
    ⟨"HP_KEY_WORD", 0x60018, [(4, 4)], [{ name := "WORD", hi := 31, lo := 0, acc := .load }]⟩,
    roWord "HP_IN_CX_STATE" 0x61000 [(64, 0x40)], roWord "HP_IN_CX_DIMS" 0x61004 [(64, 0x40)],
    roWord "HP_IN_CX_DECODED" 0x61008 [(64, 0x40)], roWord "HP_IN_CX_OUTPUT" 0x6100C [(64, 0x40)],
    roWord "HP_IN_CX_PROGRESS" 0x61010 [(64, 0x40)], rcCount "HP_IN_CX_CONCEALED" 0x61014 [(64, 0x40)],
    rcCount "HP_IN_CX_DROPPED" 0x61018 [(64, 0x40)], rcCount "HP_IN_CX_RETRACTED" 0x6101C [(64, 0x40)],
    roWord "HP_IN_CX_QUEUE" 0x61020 [(64, 0x40)] ]

/-- The raster port (spec/11 R276). -/
def regsRaster : List Reg :=
  [ ⟨"HP_RP_CTL", 0x70000, [], [{ name := "ENABLE", hi := 31, lo := 31, acc := .rw }, { name := "DESKEW", hi := 30, lo := 30, acc := .rw, reset := 1, lock := .rpOff },
       { name := "LANES", hi := 17, lo := 16, acc := .rw, reset := 2, chk := .rng 0 2, lock := .rpOff }, { name := "OWNED", hi := 2, lo := 2, acc := .ro },
       { name := "PORT", hi := 1, lo := 0, acc := .ro }]⟩,
    roWord "HP_RP_LINK" 0x70004, rwWord "HP_RP_ALIGN_ORIGIN_LO" 0x70008, rwWord "HP_RP_ALIGN_ORIGIN_HI" 0x7000C,
    rwWord "HP_RP_ALIGN_PERIOD" 0x70010, rwWord "HP_RP_ALIGN_TOL" 0x70014,
    ⟨"HP_RP_EVENTS", 0x70018, [], [{ name := "LINK_CHANGE", hi := 3, lo := 3, acc := .w1c },
       { name := "OVERFLOW", hi := 2, lo := 2, acc := .w1c }, { name := "PKT_ERR", hi := 1, lo := 1, acc := .w1c },
       { name := "COMMIT_REFUSED", hi := 0, lo := 0, acc := .w1c }]⟩,
    rcCount "HP_RP_HDR_CORR" 0x70020, rcCount "HP_RP_HDR_UNCORR" 0x70024, rcCount "HP_RP_CRC_ERR" 0x70028,
    rcCount "HP_RP_DT_DROP" 0x7002C, rcCount "HP_RP_STRAY" 0x70030, rcCount "HP_RP_OVERFLOW_BYTES" 0x70034,
    ⟨"HP_RP_VC_CFG", 0x70100, [(4, 0x80)], [{ name := "ENABLE", hi := 31, lo := 31, acc := .own },
       { name := "DT", hi := 29, lo := 24, acc := .rw, reset := 0x1E, lock := .vcOff },
       { name := "DESC_LOG2", hi := 19, lo := 16, acc := .rw, reset := 4, chk := .rng 2 12, lock := .vcOff },
       { name := "CTX", hi := 11, lo := 0, acc := .rw, lock := .vcOff }]⟩,
    ⟨"HP_RP_VC_SIZE", 0x70104, [(4, 0x80)], [{ name := "HEIGHT", hi := 31, lo := 16, acc := .rw, reset := 1080, chk := .rng 16 4352, lock := .vcOff },
       { name := "WIDTH", hi := 15, lo := 0, acc := .rw, reset := 1920, chk := .rng 16 4096, lock := .vcOff }]⟩,
    ⟨"HP_RP_VC_PITCH", 0x70108, [(4, 0x80)], [{ name := "PITCH", hi := 15, lo := 0, acc := .rw, reset := 1920, lock := .vcOff }]⟩,
    ⟨"HP_RP_VC_PLANE", 0x7010C, [(4, 0x80)], [{ name := "PLANE_64K", hi := 15, lo := 0, acc := .rw, reset := 32, lock := .vcOff }]⟩,
    ⟨"HP_RP_COMMIT_LO", 0x70110, [(4, 0x80)], [{ name := "ADDR", hi := 31, lo := 0, acc := .own }]⟩,
    ⟨"HP_RP_COMMIT_HI", 0x70114, [(4, 0x80)], [{ name := "ADDR", hi := 31, lo := 0, acc := .own }]⟩,
    ⟨"HP_RP_VC_SEMS", 0x70118, [(4, 0x80)], [{ name := "ALIGN_SEM", hi := 27, lo := 16, acc := .rw, lock := .vcOff },
       { name := "FRAME_SEM", hi := 11, lo := 0, acc := .rw, lock := .vcOff }]⟩,
    rwWord "HP_RP_VC_DESC_LO" 0x7011C [(4, 0x80)] .vcOff, rwWord "HP_RP_VC_DESC_HI" 0x70120 [(4, 0x80)] .vcOff,
    ⟨"HP_RP_VC_STATUS", 0x70124, [(4, 0x80)], [{ name := "COMMIT_LATE", hi := 31, lo := 31, acc := .w1c },
       { name := "NEXT_VALID", hi := 30, lo := 30, acc := .ro }, { name := "AFTER_VALID", hi := 29, lo := 29, acc := .ro },
       { name := "STATE", hi := 18, lo := 16, acc := .ro }, { name := "LINE", hi := 12, lo := 0, acc := .ro }]⟩,
    roWord "HP_RP_VC_FRAMES" 0x70128 [(4, 0x80)], rcCount "HP_RP_VC_REPLACED" 0x7012C [(4, 0x80)],
    rcCount "HP_RP_VC_NOBUF" 0x70130 [(4, 0x80)], rcCount "HP_RP_VC_LATE" 0x70134 [(4, 0x80)],
    rcCount "HP_RP_VC_REFUSED" 0x70138 [(4, 0x80)] ]

/-- Shapers (spec/12 R300), griddles (spec/13 R323) and the whisk (spec/14 R345). -/
def regsEngines : List Reg :=
  [ roWord "HP_SH_BACKLOG" 0x80000, roWord "HP_SH_STATUS" 0x80004, rcCount "HP_SH_SAMPLES" 0x80008, rcCount "HP_SH_PADDED" 0x8000C,
    ⟨"HP_SH_THRESH", 0x80010, [], [{ name := "HIGH", hi := 31, lo := 31, acc := .ro }, { name := "THRESH_US", hi := 15, lo := 0, acc := .rw }]⟩,
    roWord "HP_SH_GROUP_BACKLOG" 0x80100 [(16, 4)],
    roWord "HP_GR_MODE" 0x90000, roWord "HP_GR_GEOMETRY" 0x90004,
    ⟨"HP_GR_EVENTS", 0x90008, [], [{ name := "BE_SET_LOST", hi := 3, lo := 3, acc := .w1c }, { name := "ZC_BAD", hi := 2, lo := 2, acc := .w1c },
       { name := "FP_EXC", hi := 1, lo := 1, acc := .w1c }, { name := "SAT", hi := 0, lo := 0, acc := .w1c }]⟩,
    rcCount "HP_GR_SAT" 0x9000C, rcCount "HP_GR_FP_EXC" 0x90010, rcCount "HP_GR_PREEMPTS" 0x90014, rcCount "HP_GR_RESTORES" 0x90018,
    rcCount "HP_GR_RELOADS" 0x9001C, roWord "HP_GR_UNIT_STATE" 0x90100 [(8, 0x10)], rcCount "HP_GR_UNIT_PASSES" 0x90104 [(8, 0x10)],
    rcCount "HP_GR_UNIT_BUSY_US" 0x90108 [(8, 0x10)] "TIME",
    roWord "HP_WK_STATUS" 0xA0000,
    ⟨"HP_WK_EVENTS", 0xA0004, [], [{ name := "ZC_SPACE", hi := 3, lo := 3, acc := .w1c }, { name := "CAPPED", hi := 2, lo := 2, acc := .w1c },
       { name := "FP_EXC", hi := 1, lo := 1, acc := .w1c }, { name := "SAT", hi := 0, lo := 0, acc := .w1c }]⟩,
    rcCount "HP_WK_SAT" 0xA0008, rcCount "HP_WK_FP_EXC" 0xA000C, rcCount "HP_WK_CAPPED" 0xA0010, rcCount "HP_WK_OPS" 0xA0014,
    rcCount "HP_WK_BUSY_US" 0xA0018 [] "TIME" ]

/-- The track scheduler (spec/15 R369), accounting (R370) and the record writer (spec/16 R398). -/
def regsTrack : List Reg :=
  [ roWord "HP_TK_STATUS" 0xB0000,
    ⟨"HP_TK_CTL", 0xB0004, [], [{ name := "PENDING", hi := 24, lo := 16, acc := .ro }, { name := "MISS_LIMIT", hi := 7, lo := 0, acc := .rw, reset := 30 }]⟩,
    rwWord "HP_TK_KV_BASE_LO" 0xB0008 [] .tkIdle, rwWord "HP_TK_KV_BASE_HI" 0xB000C [] .tkIdle,
    ⟨"HP_TK_KV_STRIDE", 0xB0010, [], [{ name := "STRIDE_4K", hi := 19, lo := 0, acc := .rw, lock := .tkIdle }]⟩,
    ⟨"HP_TK_KV_GEOM", 0xB0014, [], [{ name := "TOKEN_BYTES", hi := 31, lo := 16, acc := .rw, chk := .mult 16, lock := .tkIdle }, { name := "CAP", hi := 12, lo := 0, acc := .rw, chk := .rng 1 4096, lock := .tkIdle }]⟩,
    rwWord "HP_TK_WSET_LO" 0xB0018, rwWord "HP_TK_WSET_HI" 0xB001C, roWord "HP_TK_WSET_VER" 0xB0020,
    rcCount "HP_TK_JOIN_DROPS" 0xB0024, rcCount "HP_TK_BAD_LEAVES" 0xB0028, rcCount "HP_TK_WITHDRAWN" 0xB002C, rcCount "HP_TK_BATCHES" 0xB0030,
    roWord "HP_REC_STATE" 0xC0000, rcCount "HP_REC_WRITTEN" 0xC0004, rcCount "HP_REC_DISCARDS" 0xC0008, rcCount "HP_REC_RETRACTIONS" 0xC000C ]

/-- Fault and retry (spec/17 R423). -/
def regsFault : List Reg :=
  [ ⟨"HP_FR_CFG", 0xE0000, [], [{ name := "BURST_COUNT", hi := 31, lo := 24, acc := .rw, reset := 4 },
       { name := "BURST_WINDOW_MS", hi := 23, lo := 0, acc := .rw, reset := 1000, chk := .nz }]⟩,
    ⟨"HP_FR_WATCHDOG", 0xE0004, [], [{ name := "WATCHDOG_US", hi := 15, lo := 0, acc := .rw, reset := 100, chk := .rng 20 0xFFFF }]⟩,
    ⟨"HP_FR_EVENTS", 0xE0008, [], [{ name := "INPUT", hi := 3, lo := 3, acc := .w1c }, { name := "REINSTATED", hi := 2, lo := 2, acc := .w1c },
       { name := "FENCED", hi := 1, lo := 1, acc := .w1c }, { name := "TRANSIENT", hi := 0, lo := 0, acc := .w1c }]⟩,
    ⟨"HP_FR_REINSTATE", 0xE000C, [], [{ name := "GO", hi := 31, lo := 31, acc := .wo }, { name := "BUSY", hi := 30, lo := 30, acc := .ro },
       { name := "RESULT", hi := 29, lo := 28, acc := .ro }, { name := "CLASS", hi := 11, lo := 8, acc := .rw, chk := .among [1, 2, 3, 4, 5, 6, 8], lock := .reinstIdle },
       { name := "UNIT", hi := 4, lo := 0, acc := .rw, lock := .reinstIdle }]⟩,
    rcCount "HP_FR_SRAM_CE" 0xE0010, rcCount "HP_FR_SRAM_UE" 0xE0014, roWord "HP_FR_FENCE_SLICES" 0xE0020, roWord "HP_FR_FENCE_UNITS" 0xE0024,
    roWord "HP_FR_UNIT_COUNT" 0xE0100 [(64, 4)] ]

/-- Accounting slots (spec/15 R370): 256 slots of 0x20 bytes. -/
def regsAcc : List Reg :=
  [ ⟨"HP_ACC_CTL", 0xD0000, [], [{ name := "CLEAR_ALL", hi := 31, lo := 31, acc := .wo }, { name := "CLEAR_SLOT", hi := 30, lo := 30, acc := .wo },
       { name := "SLOT", hi := 7, lo := 0, acc := .rw }]⟩,
    ⟨"HP_ACC_SLOT_CFG", 0xD1000, [(256, 0x20)], [{ name := "VALID", hi := 31, lo := 31, acc := .own }, { name := "FN", hi := 19, lo := 16, acc := .own },
       { name := "CTX", hi := 11, lo := 0, acc := .own }]⟩,
    roWord "HP_ACC_WAIT_LO" 0xD1004 [(256, 0x20)], roWord "HP_ACC_WAIT_HI" 0xD1008 [(256, 0x20)],
    rcCount "HP_ACC_WAIT_MAX" 0xD100C [(256, 0x20)] "MAX_NS", roWord "HP_ACC_OPS" 0xD1010 [(256, 0x20)],
    roWord "HP_ACC_PREEMPTS" 0xD1014 [(256, 0x20)], roWord "HP_ACC_SHED" 0xD1018 [(256, 0x20)] ]

/-- A hamper PF's BAR0 (spec/04 R84). -/
def hpRegs : List Reg :=
  regsFunction ++ regsRing ++ regsSem ++ regsXlate ++ regsPool ++ regsIntake ++ regsRaster ++ regsEngines ++ regsTrack ++
  regsFault ++ regsAcc ++ msixTable 0xF0000 32 ++ [roWord "MSIX_PBA" 0xF8000]

/-- A VF's own part of its BAR0 (spec/04 R85); its ring pages and semaphore window are the PF's. -/
def vfRegs : List Reg :=
  [ roWord "HP_FN_STATUS" 0x00000, rcCount "HP_FN_DROPS" 0x00008 [] "DROPS",
    ⟨"HP_FLUSH_HELD", 0x0000C, [], [{ name := "HELD", hi := 15, lo := 0, acc := .own }]⟩,
    roWord "HP_CARD_TIME_LO" 0x00040, roWord "HP_CARD_TIME_HI" 0x00044 ] ++
  msixTable 0x08000 18 ++ [roWord "MSIX_PBA" 0x0C000]

/-- The register spaces: PF0, a hamper PF, a VF's own registers, and the board controller's map. -/
inductive Space where
  | mg
  | hp (h : Nat)
  | vf (h v : Nat)
  | bm
deriving DecidableEq, Repr

/-- The one number of a register: its space and its offset. -/
def Space.key : Space → Nat → Nat
  | .mg, off => off
  | .hp h, off => 0x100000 * (h + 1) + off
  | .bm, off => 0x600000 + off
  | .vf h v, off => 0x1000000 + (8 * h + v) * 0x40000 + off

/-- The space and the offset of a register's number. -/
def keySpace (k : Nat) : Space × Nat :=
  if k < 0x100000 then (.mg, k)
  else if k < 0x500000 then (.hp (k / 0x100000 - 1), k % 0x100000)
  else if k < 0x1000000 then (.bm, k - 0x600000)
  else let j := (k - 0x1000000) / 0x40000; (.vf (j / 8) (j % 8), (k - 0x1000000) % 0x40000)

/-- The registers of a space. -/
def Space.regs : Space → List Reg
  | .mg => mgRegs
  | .hp _ => hpRegs
  | .vf _ _ => vfRegs
  | .bm => []

/-- The indices of an offset in an array of registers, if it is one of its registers. -/
def regIndex : List (Nat × Nat) → Nat → Option (List Nat)
  | [], o => if o = 0 then some [] else none
  | (n, st) :: ds, o => if o / st < n then (regIndex ds (o % st)).map (fun l => o / st :: l) else none

/-- The register at an offset, with its indices. -/
def findReg : List Reg → Nat → Option (Reg × List Nat)
  | [], _ => none
  | r :: rs, off =>
    if r.base ≤ off then
      match regIndex r.dims (off - r.base) with
      | some ix => some (r, ix)
      | none => findReg rs off
    else findReg rs off

/-- The value of a register whose fields all hold their reset values. -/
def resetOf (fs : List Fld) : Word :=
  BitVec.ofNat 32 (fs.foldl (fun a f => a + (f.reset % 2 ^ (f.hi + 1 - f.lo)) <<< f.lo) 0)

/-- What register `k` holds at reset; an offset with no register reads 0 (R5)
(DESIGN CHOICE, assumption log entry 5). -/
def regReset (k : Nat) : Word :=
  match findReg (keySpace k).1.regs (keySpace k).2 with
  | some (r, _) => resetOf r.flds
  | none => 0

end Sys2Proof.Machine
end

