-- ==== Sys2Proof/Machine/State.lean ====
section
/-! DEFINITION. The state of the card, as plain data: the registers (one home each), card memory and hamper SRAM, the
rings with their operations, the contexts, pools, units, links and timers the spec names, the outputs the card has
given, and the queue of waiting commands. -/

namespace Sys2Proof.Machine

/-- The reasons for which a command would stop. No meaning raises one: every row of the table has an effect that the
spec gives, so the type is empty of reasons but for the constructor below.
`noSuchCommand`: raised by nothing; it keeps the type inhabited (safe). -/
inductive Fault where
  | noSuchCommand
deriving DecidableEq, Repr

/-- The reasons for which the model refuses a command.
`notModelled`: raised only by an arm of `exec` whose command has no meaning yet (safe: it says nothing). -/
inductive Refusal where
  | notModelled (mnemonic : String)
deriving DecidableEq, Repr

/-- What the card gives to the outside. -/
inductive Out where
  /-- Data returned to a host read of a BAR: function number, offset, bytes. -/
  | readData (fn off : Nat) (data : List Byte)
  /-- What a configuration read returns: function number and value. -/
  | cfgData (fn : Nat) (value : Nat)
  /-- A completion with poisoned data, all-ones (R584). -/
  | poisonData (fn len : Nat)
  /-- An Unsupported Request completion (R580). -/
  | unsupported (fn : Nat)
  /-- A write to host memory by a function: a record, a report or a semaphore report. -/
  | hostWrite (fn addr : Nat) (data : List Byte)
  /-- A read of host memory issued by a function, with the identity of the read. -/
  | hostRead (fn rid addr len : Nat)
  /-- An MSI-X message: function, vector, address and data of its table entry. -/
  | msix (fn vec addr : Nat) (data : Word)
  /-- A PMBus AVSBus target-voltage write in mV (R38). -/
  | avsWrite (mv : Nat)
  /-- A packet sent on a Dravaz port: a request or an answer, as a list of numbers and bytes. -/
  | link (port kind : Nat) (args : List Nat) (data : List Byte)
  /-- A freeze pulse on a Dravaz port's freeze line (R442). -/
  | freezePulse (port : Nat)
  /-- What JTAG shifts out. -/
  | jtag (bits : Nat) (data : Nat)
  /-- An SMBus answer of the board controller: acknowledged bytes, or none for a refusal. -/
  | smbus (ack : Bool) (data : List Byte)
  /-- A PTM exchange is started (R33). -/
  | ptmRequest
  /-- The PCIe link goes down: the card stops (R465, R477). -/
  | stopped
deriving DecidableEq, Repr

/-- Card time: a 64-bit count of ns held with 32 fraction bits, and its discipline (R31 to R34). -/
structure Clock where
  now    : Nat := 0      -- in units of 2^-32 ns
  rate   : Int := 0      -- ppb
  missed : Nat := 0      -- consecutive PTM intervals with no completed exchange
  open_  : Bool := false -- an exchange was started in the present interval and has not completed
deriving DecidableEq, Repr

/-- The pace monitor of one hamper, beside its registers (R35, R37). -/
structure Pace where
  busyFrac : Nat := 0        -- busy time of the window, 2^-32 ns
  records  : Nat := 0
  target   : Nat := 2000     -- the target the window is judged against (R46)
  streak   : Nat := 0
  calm     : Nat := 0
  stage3   : Nat := 0        -- windows spent in stage 3
  affected : List Nat := []  -- stream contexts with latency-critical work in the window (R40)
deriving DecidableEq, Repr

/-- The voltage loop beside its registers (R37, R38, R43). -/
structure Avs where
  pending : Option Nat := none  -- a voltage write not yet acknowledged
  held    : Bool := false       -- the request has been equal to the effective ceiling since the window began
  nak     : Bool := false       -- the applied request stands as the effective ceiling (R43)
  up      : Bool := false       -- the regulator has acknowledged since POWER_GOOD (R508, R522)
deriving DecidableEq, Repr

/-- The configuration space fields of one function that the card acts on. -/
structure Cfg where
  mse : Bool := false
  bme : Bool := false
  msixEn : Bool := false
  msixMask : Bool := false
  d3 : Bool := false
  ptmEn : Bool := false
  vfEn : Bool := false
  vfMse : Bool := false
  ari : Bool := false
  numVfs : Nat := 0
  ctoVal : Nat := 0
  ctoDis : Bool := false
  mps : Nat := 0             -- Max_Payload_Size code: 128 bytes (PRESUMED, the reset value of PCIe; assumption log entry 9)
  mrrs : Nat := 2            -- Max_Read_Request_Size code: 512 bytes (PRESUMED, likewise)
  aspmL1 : Bool := false
  bars : Tab Nat := []       -- BAR addresses, by number (R81)
  vfBars : Tab Nat := []     -- VF BAR addresses of a PF's SR-IOV capability
deriving DecidableEq, Repr

/-- The AER status of one PF (R79): uncorrectable and correctable status bits, the first header logged, and the severities
(PRESUMED, the reset value of PCIe; Uncorrectable Internal Error is fatal by R79; assumption log entry 9). -/
structure Aer where
  unc : Word := 0
  cor : Word := 0
  hdr : Nat := 0
  sev : Word := 0x00462030
deriving DecidableEq, Repr

/-- Where a function stands between reset and service (R90). -/
inductive FnPhase where
  | off          -- not started
  | draining     -- steps 1 to 3
  | held         -- steps 1 to 4 done, in D3hot
  | starting     -- step 5 done, step 6 to run
  | filling      -- layout applied, zero-fill running
  | ready
deriving DecidableEq, Repr

/-- One function's reset state beside its registers. -/
structure FnState where
  phase   : FnPhase := .off
  cause   : Nat := 0       -- LAST_CAUSE of the start that is under way
  flushed : Nat := 0
  d3      : Bool := false  -- the reset is a D3hot entry
  pend    : Bool := false  -- an FLR held while frozen (R97)
  hot     : Bool := false  -- the reset is a hot reset (R521)
  exposed : Bool := false  -- the PF has been exposed
  gone    : Nat := 0       -- VFs that a reset of their PF ended, whose BARs answer as the PF's until step 5 (R90)
deriving DecidableEq, Repr

/-- One group entry of a layout (R58). -/
structure Group where
  cls : Nat
  hamper : Nat
  rings : Nat
  units : Nat
  rotate : Nat
deriving DecidableEq, Repr

/-- One region entry of a layout (R59). -/
structure RegionEnt where
  num : Nat
  attr : Nat
  channels : Nat
  offset : Nat
  size : Nat
deriving DecidableEq, Repr

/-- A layout, read from its image (R56 to R59). -/
structure Layout where
  imageId : Nat
  hamper : Nat
  channels : Nat
  raster : Nat
  spare : Nat
  ways : Nat
  mode : Nat
  pool : Nat
  staging : Nat
  track : Nat
  ringClass : Nat
  groups : List Group
  regions : List RegionEnt
  fromDefault : Bool   -- loaded from the keep store's default (SOURCE 1)
deriving DecidableEq, Repr

/-- The running loader command (R62). -/
structure Loader where
  cmd : Nat
  hamper : Nat
deriving DecidableEq, Repr

/-- A wait unit or a signal unit (R105): semaphore, operation (signals), value. -/
structure SyncUnit where
  sem : Nat
  op  : Nat
  val : Nat
deriving DecidableEq, Repr

/-- How far an operation has come. -/
inductive OpPhase where
  | waiting    -- decoded, not yet dispatched
  | running    -- accepted: in flight
  | ran        -- its engine's effect has been applied
  | retired    -- retired, its report not yet released
deriving DecidableEq, Repr

/-- One byte of card memory as it stood before an operation wrote it: where, and the old byte. -/
structure Undo where
  key : Nat
  old : Byte
deriving DecidableEq, Repr

/-- A signal or record effect held under an epoch, or a record waiting in the store. -/
structure HostBytes where
  addr : Nat
  data : List Byte
deriving DecidableEq, Repr

/-- One command of a ring, from decoding to release. -/
structure Op where
  seq : Nat
  gen : Nat
  fnNum : Nat               -- the function that owns the ring
  ctx : Nat
  opcode : Nat
  front : Bool
  group : Nat
  cls : Nat := 0            -- the group's class, 0 for the front end
  tag : Nat
  param : Nat
  report : Bool
  mirror : Bool
  waits : List SyncUnit
  signal : Option SyncUnit
  body : List Byte
  phase : OpPhase := .waiting
  accepted : Bool := false      -- it was accepted: it holds an in-flight entry (R111)
  order : Nat := 0              -- its place in the order of acceptance (R351)
  started : Bool := false       -- it has started on its unit
  paused : Option Nat := none   -- preempted: the card time (ns) of the preemption (R316)
  held : Bool := false          -- it waits on progress (R293) or on queue room (R237)
  rest : List Byte := []        -- decrypted bytes of a FEED not yet queued (R237); what is left of a running SEARCH's list (R212);
                                -- the source table and the samples, in order, of a running PREPARE (R284)
  status : Nat := 0
  detail : Nat := 0
  ext : Nat := 0
  headAt : Option Nat := none   -- card time (ns) at which it reached the head of the ring
  waitOk : Bool := false        -- R109 was checked at the head
  unit : Nat := 0               -- the unit it runs on
  at_ : Nat := 0                -- card time (ns) from which it waits for a unit: its acceptance, or the end of a wait that is not counted
  waited : Nat := 0             -- its queue wait before that (ns; R364)
  epoch : Option Nat := none    -- the epoch it works under
  suspect : Bool := false
  stream : Option Nat := none   -- the stream context it serves
  undo : List Undo := []
  await : List (Nat × Nat × Bool) := []  -- lines that met a persisting error, by region, offset and whether written: it waits for
                                         -- their copy (R194)
  host : List HostBytes := []   -- host bytes delivered for it
  reads : List Nat := []        -- host reads outstanding for it
  records : List (List Byte) := []  -- records it has formed, in order
  recTag : Nat := 0
  passes : Nat := 0             -- progress: griddle passes, colander blocks, samples written
  prog : Option Nat := none     -- the picture (decode number) on whose progress a PREPARE waits (R293)
  wgt : Nat := 0                -- the weight block a RUN has last named (R316)
  pass : List Byte := []        -- the descriptor of a RUN's present pass; none between two passes (R320)
  next : List Byte := []        -- the descriptor of its next pass, whose weights stand in the shadow set (R313)
  due : Option Nat := none      -- the unit at whose next pass end it preempts (R316)
  adds : List Byte := []        -- the tile of an ADD as its pass found it (R327)
  tile : List Undo := []        -- what each pass of a RUN overwrote in staging, by pass * 2^32 + offset, latest first (R326)
  fails : Nat := 0              -- failed steps under the retry rule
  failUnits : List Nat := []    -- units that failed it
  retryOn : Option Nat := none  -- the equal unit for which a retry waits (R408)
  ownFence : Bool := false      -- the fence of the failing unit is this retry's own
  moved : Bool := false         -- some step needed an equal unit (R410)
  doneBy : Option Nat := none   -- the unit that completed the last retried step
  acct : Bool := false
deriving DecidableEq, Repr

/-- A completion report (R113) without its PHASE. -/
structure Report where
  seq : Nat
  gen : Nat
  status : Nat
  front : Bool
  tag : Nat
  detail : Nat
  ext : Nat
deriving DecidableEq, Repr

/-- What a ring's front end is fetching. -/
inductive Fetch where
  | idle
  | slot (rid : Nat)                              -- a slot read is outstanding
  | slotData (data : List Byte)                   -- a slot has arrived, to be decoded
  | list (ctx units addr : Nat) (card : Bool) (rids : List Nat) (got : List HostBytes)
      -- reads of a list in host memory, or of a LIST_CARD list's HOST leaves, are outstanding; what has come
  | listData (ctx units addr : Nat) (card : Bool) (got : List HostBytes)
      -- they have ended: the list is to be decoded as far as it has come (R127)
deriving DecidableEq, Repr

/-- A ring beside its registers. -/
structure Ring where
  gen : Nat := 0
  seq : Nat := 0
  pos : Nat := 0
  prod : Nat := 0
  cons : Nat := 0
  fetch : Fetch := .idle
  q : List Op := []
  flushed : List Report := []   -- FLUSHED reports held (R91)
  stopped : Bool := false
  draining : Bool := false
  msgOut : Bool := false        -- a message was sent and HP_RING_CPL_HEAD not written since (R121)
deriving DecidableEq, Repr

/-- A read of host memory that the card has issued. -/
structure HostRead where
  rid : Nat
  fnNum : Nat
  hamper : Nat
  ring : Nat
  seq : Option Nat      -- the operation it feeds; none for a fetch of the ring's front end
  addr : Nat
  len : Nat
  discard : Bool := false   -- its completion is discarded on arrival (R90)
  dead : Bool := false      -- it has timed out: a late completion is unexpected (R79)
  data : List Byte := []    -- what completions have brought of it
deriving DecidableEq, Repr

/-- A host read completion received while frozen (R436). -/
structure HeldCpl where
  rid : Nat
  poisoned : Bool
  data : List Byte
deriving DecidableEq, Repr

/-- A context: the hamper that holds it and its entry (R134, R146). -/
structure CtxEnt where
  hamper : Nat
  entry : Nat
deriving DecidableEq, Repr

/-- A region's owner mask (R136). -/
structure Owner where
  mtch : Nat := 0
  mask : Nat := 0xFFF
deriving DecidableEq, Repr

/-- The bookkeeping of one pool buffer that is not FREE (R156, R158). -/
structure Buf where
  epoch : Option Nat   -- PROVISIONAL under an epoch; OUT otherwise
  ctx : Nat
  ring : Nat
  time : Nat           -- in units of 2^20 ns
  held : Bool := false -- held under R418
deriving DecidableEq, Repr

/-- A pool check that runs (R162): the pool and whether it enables. -/
structure PoolCheck where
  pool : Nat
  enable : Bool
deriving DecidableEq, Repr

/-- A line of the memory-side cache (R181): its address above the set index, the state and the order of last use. -/
structure CacheLine where
  tag : Nat
  dirty : Bool
  used : Nat
  epoch : Option Nat := none
deriving DecidableEq, Repr

/-- A failed target of a migration (R203): it holds the `done` chunks from `start` on. -/
structure FailedTarget where
  rank : Nat
  start : Nat
  done : Nat
deriving DecidableEq, Repr

/-- A cached translation (R139): the leaf entry, whether it maps 2 MiB, and where the entry lies. -/
structure TlbEnt where
  entry : Nat
  big : Bool
  region : Nat
  off : Nat
deriving DecidableEq, Repr

/-- A rank migration that runs (R193). -/
structure Migration where
  source : Nat
  target : Nat
  start : Nat
  done : Nat            -- chunks copied
  prevs : List FailedTarget := []  -- failed targets that hold chunks copied to them, latest first (R203)
deriving DecidableEq, Repr

/-- An aperture access held on the chunk being copied (R194). -/
structure HeldAccess where
  fnNum : Nat
  hamper : Nat
  region : Nat
  off : Nat
  len : Nat
  wdata : Option (List Byte)
  addr : Nat := 0       -- the BAR2 offset of a host's access
  remote : Option (Nat × Nat) := none   -- a remote request: the port it arrived on and its identity
  fill : Bool := false  -- a zero-fill of the region's part of the chunk, its row in `off` (R204)
  wait : Bool := false  -- it met a persisting error and waits for its chunk's copy (R194)
  bell : Option (Nat × Nat) := none     -- a doorbell behind a held write of its function (R144): the ring and the index
deriving DecidableEq, Repr

/-- A signal held under an epoch (R361): hamper, epoch, semaphore, operation, value, mirror, function. -/
structure HeldSig where
  hamper : Nat
  ring : Nat
  epoch : Nat        -- 0: held only behind an earlier one of its ring
  sem : Nat
  op : Nat
  val : Nat
  mirror : Bool
  fnNum : Nat
deriving DecidableEq, Repr

/-- A card-originated record that waits in the store of R380: its 64-byte entries without PHASE. -/
structure CardRec where
  entries : List (List Byte)
  ownPos : Bool := false    -- FIRST_POS is the record's own position (R383)
  beat : Bool := false      -- a HEARTBEAT
  retract : Bool := false   -- a RETRACTION
deriving DecidableEq, Repr

/-- A record ring beside its registers (R376 to R381). -/
structure RecRing where
  store : List CardRec := []
  midOp : Bool := false     -- some but not all records of the operation at the ring's front have been written
  beats : Nat := 0          -- heartbeats since the ring was enabled
  written : Nat := 0        -- records written since then, HEARTBEAT excluded
  msgOut : Bool := false    -- a threshold message was sent and HEAD not written since
  beatAt : Nat := 0         -- card time (ns) at which the next heartbeat falls due
deriving DecidableEq, Repr

/-- A speculation epoch of a hamper (R359 to R362). -/
structure Epoch where
  state : Nat := 0          -- 0 not drawn, 1 unsettled, 2 committed, 3 withdrawn
  stream : Nat := 0xFFFF
  decodeNo : Nat := 0xFFFFFFFF
  opener : Option Nat := none        -- the opening ring of the picture's stream
  first : List (Nat × Nat) := []     -- record rings that carried a record of it, and the position of the first
deriving DecidableEq, Repr

/-- A sparse leaf backed under an epoch (R160, R361): where the entry lies. -/
structure ProvLeaf where
  hamper : Nat
  epoch : Nat
  region : Nat
  off : Nat
deriving DecidableEq, Repr

/-- Bytes that one FEED queued (R237, R253): their place in the count of bytes queued, and what the descriptor takes
from them. -/
structure FeedMark where
  start : Nat
  len : Nat
  user : Nat
  time : Nat
  auEnd : Bool := false
  disc : Bool := false
deriving DecidableEq, Repr

/-- A picture of a stream context, from its decode start until its slot is reused. -/
structure Pic where
  slot : Nat
  decodeNo : Nat
  output : Option Nat := none
  epoch : Nat := 0
  rows : Nat := 0
  decoding : Bool := true
  waiting : Bool := false     -- complete, and its turn in output order has not come
  inRef : Bool := false       -- the standard still needs it as reference
  width : Nat := 0
  height : Nat := 0
  cropX : Nat := 0
  cropY : Nat := 0
  depth : Nat := 8
  seqNo : Nat := 0            -- the sequence it belongs to
  recon : List Nat := []      -- the slices whose reconstruction stages work on it (R237)
  cut : Nat := 0              -- the queue is discarded up to this count of bytes when it completes (R240)
  units : Nat := 0            -- concealed 16 x 16 units
  damage : Option (Nat × Nat) := none   -- CAUSE and the first concealed unit
  refSubst : Bool := false
  suspect : Bool := false
  field : Bool := false
  lone : Bool := false        -- woven from a field without a partner (R231)
  grain : Option (List Byte) := none
  mono : Bool := false
  user : Nat := 0
  tIn : Nat := 0
  tDone : Nat := 0
  slice : Nat := 0
  retryOn : Option Nat := none  -- the slice for which a retry waits (R408)
  ownFence : Bool := false
deriving DecidableEq, Repr

/-- A stream context (R232 to R260), as OPEN bound it. -/
structure Stream where
  ring : Nat
  fnNum : Nat
  ctx : Nat
  lc : Bool
  codec : Nat
  mode : Nat
  depth : Nat
  maxW : Nat
  maxH : Nat
  fps : Nat
  slots : Nat
  guard : Nat
  gang : Nat
  dpb : Nat
  slotBytes : Nat
  stateVa : Nat
  state64 : Nat
  outSem : Nat
  desc : Nat
  relSem : Nat
  header : Bool := false      -- a supported sequence header is in force
  closing : Bool := false
  width : Nat := 0
  height : Nat := 0
  mono : Bool := false
  seqNo : Nat := 0            -- sequences in force since OPEN, one more at each change of dimensions (R260)
  starts : List Nat := []     -- where pictures begin, in the count of bytes queued
  head : Nat := 0             -- bytes decoded or dropped since OPEN
  tail : Nat := 0             -- bytes queued since OPEN
  feeds : List FeedMark := []
  disc : Bool := false        -- the next FEED is treated as DISCONTINUITY 1
  pics : List Pic := []
  nextDecode : Nat := 0
  nextOutput : Nat := 0
  events : Nat := 0           -- STREAM_EVENT records since OPEN
  lastSuspect : Bool := false
  paceWin : Nat := 0          -- windows ended in stage 3 since the last PACE_MISS written
deriving DecidableEq, Repr

/-- A key slot (R246). -/
structure KeySlot where
  key : List Byte
  ctx : Nat
deriving DecidableEq, Repr

/-- A track's figures that an UPDATE changes (R353, R354). -/
structure TrackNow where
  age : Nat := 0
  misses : Nat := 0
  first : Nat := 0
  len : Nat := 0
  half : Nat := 0
deriving DecidableEq, Repr

/-- A track table entry (R353): its scheduler header. -/
structure Track where
  state : Nat := 0            -- 0 FREE, 1 LIVE, 2 PROV_JOIN, 3 PROV_END
  serial : Nat := 0
  stream : Nat := 0
  ctx : Nat := 0
  fnNum : Nat := 0
  lc : Bool := false
  now : TrackNow := {}
  epoch : Nat := 0
  prov : Option TrackNow := none   -- what becomes current when the epoch commits (R361)
deriving DecidableEq, Repr

/-- An entry of a step request: KIND 1 CONT, 2 JOIN, 3 END; the track index, or the detection's 32 bytes. -/
structure StepEntry where
  kind : Nat
  idx : Nat
  det : List Byte
  id : Nat := 0      -- the TRACK_ID that the index then had
deriving DecidableEq, Repr

/-- A pending step request (R355). -/
structure StepReq where
  order : Nat
  ring : Nat
  fnNum : Nat
  ctx : Nat
  lc : Bool
  stream : Nat
  frame : Nat
  epoch : Nat
  doneSem : Nat
  entries : List StepEntry     -- not yet taken by a BATCH
  open_ : Nat                  -- entries taken and not yet updated
deriving DecidableEq, Repr

/-- A position of the open batch. -/
structure BatchPos where
  req : Nat                    -- the request's order
  kind : Nat
  idx : Nat
  det : List Byte
  frame : Nat
  stream : Nat
  ctx : Nat
  fnNum : Nat
  lc : Bool
  doneSem : Nat
deriving DecidableEq, Repr

/-- The open batch of a hamper (R356, R357). -/
structure Batch where
  pos : List BatchPos
  epoch : Nat
  withdrawn : Bool := false
  stepNo : Nat
  ver : Nat
  at_ : Nat := 0      -- card time (ns) at which it was formed
deriving DecidableEq, Repr

/-- The track scheduler of a hamper. -/
structure Tracker where
  tracks : Tab Track := []
  serials : Tab Nat := []
  reqs : List StepReq := []
  batch : Option Batch := none
  steps : Nat := 0             -- batches formed since the function started
  nextReq : Nat := 0
  pendingSigs : List (Nat × Nat × Nat) := []   -- DONE_SEM signals held under an epoch: epoch, semaphore, value
deriving DecidableEq, Repr

/-- A packet sent on a Dravaz port and not yet acknowledged (R528). -/
structure SentPacket where
  seq : Nat
  kind : Nat
  args : List Nat
  data : List Byte
  replays : Nat := 0
deriving DecidableEq, Repr

/-- A message received and held unacknowledged because the ring is full (R535). -/
structure HeldMsg where
  id : Nat
  card : Nat
  hamper : Nat
  tag : Nat
  sent : Nat
  data : List Byte
deriving DecidableEq, Repr

/-- A Dravaz port beside its registers. -/
structure Port where
  tx : Nat := 0
  rx : Nat := 0
  unacked : List SentPacket := []
  held : List HeldMsg := []
  peer : Option (Nat × Nat) := none   -- the peer that the last training reported
  leftUp : Option Nat := none         -- card time (ns) at which the port left UP
  hops : Nat := 0                     -- the peer's HOPS as last reported
  msgRegion : Option RegionEnt := none -- the placement of the message ring's region when the ring was enabled (R545)
deriving DecidableEq, Repr

/-- An outstanding remote request of this card (R532, R534): kind 0 read, 1 write, 2 message. -/
structure Remote where
  id : Nat
  port : Nat
  kind : Nat
  hamper : Nat
  ring : Nat
  gen : Nat
  seq : Nat
  va : Nat         -- the virtual address of its first byte; 0 for a message
  key : Nat        -- a read: the number under which its bytes are kept
  len : Nat
  args : List Nat
  data : List Byte
  sent : Bool := false   -- it has been issued; one that has not waits for a free place among the 64 of its port
  since : Nat := 0       -- card time (ns) of its issue
deriving DecidableEq, Repr

/-- A captured frame of a virtual channel (R270, R277). -/
structure RpFrame where
  no    : Nat
  csi   : Nat := 0
  flags : Nat := 0
  addr  : Option Nat := none            -- none: a no-buffer frame
  tFs   : Nat := 0
  align : Option (Nat × Int) := none    -- ALIGN_SLOT and PHASE_NS
  lines : Nat := 0                      -- lines received
  wrote : Nat := 0                      -- lines received by the latch event
  tLatch : Nat := 0
deriving DecidableEq, Repr

/-- A line of a CB-08's window cache (R208, R212). -/
structure WinLine where
  key  : Nat                            -- its region * 2^34 + its number in the region's data space
  data : List Byte
  used : Bool                           -- a block has used it
deriving DecidableEq, Repr

/-- Writes of one frame that stand in a raster port's write buffer (R274). -/
structure RpWrite where
  vc    : Nat
  no    : Nat                           -- the frame
  bytes : Nat
  chans : Nat                           -- the channels they target, as a mask
  ctx   : Nat
  va    : Nat
  data  : List Byte                     -- what is not yet written, from `va` on: a migration holds it (R193)
deriving DecidableEq, Repr

/-- A virtual channel of a raster port beside its registers (R268 to R271). -/
structure RpVc where
  state : Nat := 0              -- 0 OFF, 1 WAIT_FS, 2 ACTIVE, 3 GUARD, 4 BLANK
  next  : Option Nat := none
  after : Option Nat := none
  upcoming : Option Nat := none -- the address that the last latch event gave the next frame
  frameNo : Nat := 0            -- frames opened since the last enable
  cur   : Option RpFrame := none -- the frame between its Frame Start and its Frame End
  latched : Bool := false       -- its latch event has occurred
  done  : List RpFrame := []    -- latched frames whose writes are not yet complete, oldest first
  lastSlot : Option Nat := none -- the predecessor's ALIGN_SLOT
  lastAt : Nat := 0             -- card time (ns) of the last packet
deriving DecidableEq, Repr

/-- The weight sets of a griddle unit (R313, R316), as the bytes of their blocks. -/
structure GrUnit where
  active   : List Byte := []
  shadow   : Option (List Byte) := none
  shadowBe : Bool := false   -- the shadow holds a preempted best-effort set
deriving DecidableEq, Repr


/-- One bank of the keep store: its bytes and how often it was written (R487, R492). A bank being written holds nothing. -/
structure KsBank where
  data : List Byte := []
  wear : Nat := 0
deriving DecidableEq, Repr

/-- The card's own records, kept in the CARD sections (R499). -/
structure KsRecords where
  retired : Nat := 0            -- bit r: rank r is recorded retired
  tripCount : Nat := 0
  tripPowerOn : Nat := 0
  tripSensor : Nat := 0
  tripTemp : Nat := 0
  fuseNext : Nat := 0
  fuseLog : Tab (List Byte) := []
  presNext : Nat := 0
  presLog : Tab (List Byte) := []
  powerOn : Nat := 0
  sealOn : Nat := 0
deriving DecidableEq, Repr

/-- A store under way: the command (0 for an internal STORE), the staging as it was at its start, whether it waits for
presence, and the image being written with its bank. -/
structure KsJob where
  cmd : Nat
  staging : List Byte
  waiting : Bool := false
  image : Option (Nat × List Byte) := none
  clear : Nat := 0              -- the retirements that a CLEAR_RETIRE takes out of the records once it is committed
  dirty : Option Nat := none    -- the record changes that its image commits: as `Keep.dirty` and `Keep.urgent` had them
  urgent : Bool := false
deriving DecidableEq, Repr

/-- The keep store (R487 to R492). -/
structure Keep where
  banks : Tab KsBank := []
  staging : List Byte := []
  recs : KsRecords := {}
  host : Option KsJob := none        -- the host command that runs or waits
  own : Option KsJob := none         -- the internal STORE that runs
  dirty : Option Nat := none         -- card time (ns) of the first uncommitted record change
  urgent : Bool := false             -- a change to be committed at once
deriving DecidableEq, Repr

/-- An open presence window (R496): its operation (1 STORE, 2 CLEAR_RETIRE, 3 FUSE, 4 READOUT), the log's DETAIL, and the
card time (ns) at which it opened. -/
structure PresWindow where
  op : Nat
  detail : Nat
  since : Nat
deriving DecidableEq, Repr

/-- Fuse programming under way (R501). -/
structure FuseJob where
  word : Nat
  blow : Nat
deriving DecidableEq, Repr

/-- What starts under the draw governor (R454, R460, R478): a unit of a class, a warming share, or an outward supply (0 the
daughterboard's, 1 and 2 those of the Dravaz ports). -/
inductive Load where
  | unit (hamper cls index : Nat)
  | share
  | supply (i : Nat)
deriving DecidableEq, Repr

/-- A start that the governor has not acknowledged (R455, R456). -/
structure GovStart where
  load : Load
  lc : Bool
  order : Nat
  op : Option (Nat × Nat) := none   -- the ring and the sequence number of the operation that starts
  capped : Bool := false            -- it has been held under R456
deriving DecidableEq, Repr

/-- A load that draws: acknowledged and not yet stopped. -/
structure GovDraw where
  load : Load
  op : Option (Nat × Nat) := none
deriving DecidableEq, Repr

/-- The governor's settings before they were last written, and the card time (ns) of that write: they hold to the end of its 250 ns
interval (R467, R468). -/
structure GovSet where
  up : Nat
  down : Nat
  limitW : Nat
  at_ : Nat
deriving DecidableEq, Repr

/-- The draw governor (R455, R456). Currents are in units of 10 mA / 810,000, powers in such a unit times a millivolt. -/
structure Gov where
  b : Nat := 0                      -- the ballast current B as it was at `bAt`
  bAt : Nat := 0                    -- card time (ns) from which B rises while a start waits on it
  old : Option GovSet := none
  est : Nat := 0                    -- P_est
  waiting : List GovStart := []
  drawing : List GovDraw := []
  order : Nat := 0                  -- starts requested so far
  hold : Bool := false              -- every start is held (R470)
  lowCa : Nat := 0                  -- the least and the greatest input current since it became steady, and the intervals since
  highCa : Nat := 0
  steady : Nat := 0
  energyUj : Nat := 0               -- the part of a mJ not yet counted
  tripped : Nat := 0                -- bit i: supply i tripped and has not been enabled again (R460)
  offAt : Tab Nat := []             -- card time (ns) + 1 at which supply i's EN bit was last written 0
deriving DecidableEq, Repr

/-- What comes in through the power pins (R462): slot 12 V is up; the sense code of the auxiliary cable, if one is present; the
card time (ns) from which the auxiliary pins are qualified; and what the service parts sense. -/
structure PowerIn where
  slot12 : Bool := false
  cable : Option Nat := none
  qualFrom : Option Nat := none
  hot : Bool := false               -- a trip came before this bring-up (R477)
  jumper : Bool := false            -- the service jumper is fitted (R496)
  button : Bool := false            -- the bracket button is held (R500)
  sealOpen : Bool := false          -- the loop from SEAL_A to SEAL_B is open (R498)
deriving DecidableEq, Repr

/-- The TAP (R442): the instruction, what RO_ACCESS captured, and the boundary register. -/
structure Tap where
  ir : Nat := 2
  capture : Nat := 0
  boundary : Nat := 0
deriving DecidableEq, Repr

/-- The board controller (R546 to R552): its own registers, and the hub's values as it last read them. Word registers by their
code; `blocks` the Block Read registers. -/
structure Board where
  up : Bool := false
  link : Bool := false
  missed : Nat := 0                 -- hub reads in a row that had no answer
  words : Tab Nat := []
  blocks : Tab Nat := []
  inlet : Option Int := none        -- sensors 19 and 20
  outlet : Option Int := none
  nodeMv : Nat := 0
  slotCa : Nat := 0
  auxCa : Nat := 0
  peakDw : Nat := 0
  air : Nat := 0                    -- the request presented, and what it was when AIR_CHANGE was last cleared
  airBase : Nat := 0
  alert : Nat := 0
  ident : Nat := 0
  pecReq : Bool := false
  badPec : Nat := 0
  badWrites : Nat := 0
  sealBroken : Bool := false
deriving DecidableEq, Repr

/-- Everything the spec gives the card. -/
structure Card where
  clk : Clock := {}
  regs : Tab Word := []          -- every register, by `Space.key`
  caps : Tab Word := []          -- the captured upper half of a pair that was read (R7), by the key of its _LO
  holds : Tab Word := []         -- the held lower half of a pair that was written (R17), by the key of its _LO
  cfg : Tab Cfg := []            -- by function number
  aer : Tab Aer := []            -- by PF number
  fns : Tab FnState := []        -- by function number
  pace : Tab Pace := []          -- by hamper
  avs : Avs := {}
  active : Tab (Option Layout) := []   -- by hamper
  pendLay : Tab (Option Layout) := []  -- by hamper
  loader : Option Loader := none
  rings : Tab Ring := []         -- by hamper * 16 + ring
  sems : Tab Nat := []           -- by global semaphore number
  reads : List HostRead := []
  cpls : List HeldCpl := []
  nextRid : Nat := 0
  ctxs : Tab (Option CtxEnt) := []     -- by context identifier
  owners : Tab Owner := []       -- by region
  tlb : Tab (List TlbEnt) := []  -- cached leaves, oldest first, by (hamper * 4096 + context) * 2^24 + page (R139)
  xlDraw : Nat := 0              -- the MODEL's own: the draw that picks among a page's translations (entry 58)
  bufs : Tab (Option Buf) := []  -- by (hamper * 16 + pool) * 2^20 + index
  poolChk : Tab (Option PoolCheck) := []  -- by hamper
  mem : List Host.Cell := []     -- card memory, by rank * 2^34 + address within the rank
  sram : List Host.Cell := []    -- hamper SRAM, by hamper * 2^26 + offset
  rowsOpen : Tab Nat := []       -- open row + 1, by bank
  cache : Tab (Option CacheLine) := []    -- by (channel * 8192 + set) * 16 + way
  useCount : Nat := 0
  delays : Tab Word := []        -- delay words in force, by channel and lane
  staged : Tab Word := []        -- staged delay words
  lastUse : Tab Nat := []        -- card time (ns) of a channel's last access
  driftAt : Tab Nat := []        -- CE plus REPLAY counted in a channel's drift window
  migr : Option Migration := none
  redirect : Tab (Option Nat) := []  -- the rank that holds a retired rank's addresses (R195)
  migrQ : List (Nat × Nat) := [] -- ranks waiting to migrate, with the chunk to start at
  heldAcc : List HeldAccess := []
  on : Bool := false             -- the card is powered and its time base runs (R31, R508)
  timerFrac : Tab Nat := []      -- the part of a time counter's unit not yet counted, by the counter's key
  winAt : Nat := 0               -- card time (ns) at which the present pace window began (R35)
  winFrozen : Bool := false      -- the present window overlaps a freeze (R47)
  refreeze : Option Nat := none  -- a freeze source that arrived while thawing (R447)
  noRetention : Bool := false    -- some channel lost retention while frozen (R440)
  stamps : Tab Nat := []         -- stop stamps recorded at the last freeze, by chain (R433)
  fltMsg : Bool := false         -- vector 9 was raised and MG_FLT_HEAD not written since (R425)
  matchHits : Nat := 0           -- fault-log entries that matched since arming (R434)
  bursts : Tab (List Nat) := []  -- card times (ns) of a unit's transients, by hamper * 64 + index, colanders from 256 (R412)
  sramBad : Tab Bool := []       -- 8-byte words of SRAM with an uncorrectable error, by hamper * 2^23 + word (R416)
  ceLog : Tab Nat := []          -- card time (ns) + 1 of a cache slice's last CACHE_CE entry (R417)
  dlyPend : Tab Nat := []        -- subchannels at whose next refresh staged delays take effect, as a mask, by channel (R187)
  lost : List (Nat × Nat) := []  -- chunks whose contents self-refresh lost, as spans of rank * 65536 + chunk (R190)
  windows : Tab (List WinLine) := []  -- the window cache of a module's CB-08, the line loaded last first (R208)
  colPanic : Tab Bool := []      -- colander n is in panic while it runs a SEARCH (R180)
  rpBuf : Tab (List RpWrite) := []    -- a raster port's write buffer, oldest first, by hamper (R274)
  rpPanic : Tab Bool := []       -- a raster port is in panic, by hamper (R180)
  colFence : Tab Bool := []      -- colander n is fenced (R220, R411)
  rot : Tab Nat := []            -- a group's rotation point, by hamper * 16 + group (R352)
  heldSigs : List HeldSig := []  -- signals held under open epochs, in order (R361)
  acceptNo : Nat := 0            -- operations accepted so far (R351 orders by acceptance)
  recs : Tab RecRing := []       -- by hamper * 16 + ring
  epochs : Tab Epoch := []       -- by hamper * 65536 + epoch
  epochAt : Tab Nat := []        -- the epoch last drawn, by hamper (R362)
  stTag : Tab Nat := []          -- the epoch that tags a staging line, by hamper * 2^20 + line (R360)
  provLeaves : List ProvLeaf := []
  streams : Tab (Option Stream) := []   -- by hamper * 64 + stream
  slices : Tab (Option Nat) := []  -- the stream whose picture a slice decodes, by hamper * 16 + slice
  keys : Tab (Option KeySlot) := []     -- by hamper * 64 + slot
  trackers : Tab Tracker := []   -- by hamper
  ports : Tab Port := []         -- by port
  remotes : List Remote := []
  nextRemote : Nat := 0
  vcs : Tab RpVc := []           -- a raster port's virtual channels, by hamper * 4 + channel
  grSets : Tab GrUnit := []      -- a griddle unit's weight sets, by hamper * 8 + unit
  keep : Keep := {}              -- the keep store (R487)
  presence : Option PresWindow := none    -- the open presence window (R496)
  blown : Tab Word := []         -- fuse bits blown since manufacture, by word (R493)
  fuseJob : Option FuseJob := none
  gov : Gov := {}                -- the draw governor (R455)
  pin : PowerIn := {}            -- the power inputs (R462)
  freezeN : Bool := false        -- FREEZE_N is low (R432, R440)
  tap : Tap := {}                -- the JTAG port (R442)
  board : Board := {}            -- the board controller (R546)
  coldMarginal : Bool := false   -- a fuse word was marginal at the cold read (R517)
  fresh : Nat := 0               -- the MODEL's own counter of free values (assumption log, entry 1)
  out : List Out := []           -- what the card has given to the outside, oldest first (the model's own record)
deriving DecidableEq, Repr

/-- The machine: the card, and the commands that wait, first in first out. -/
structure State where
  pending : List Instr
  card : Card
deriving DecidableEq, Repr

/-- The machine right after reset: no power-good yet, every register at its reset value, both keep-store banks as shipped,
nothing waiting (DESIGN CHOICE where the spec gives no value: assumption log entries 3 to 6). -/
def State.reset : State :=
  { pending := [], card := { keep := { banks := [(0, { data := factoryKeep }), (1, { data := factoryKeep })] } } }

end Sys2Proof.Machine
end

