-- ==== Sys2Proof/Machine/Ops.lean ====
section
/-! DEFINITION. The named operations over the card's registers, outputs, interrupts, error logs and time, which every
meaning is written over. -/

namespace Sys2Proof.Machine

/-- A command's effect on the card, everything but the queue. -/
def State.run (s : State) (f : Card → Card) : Host.Outcome State Fault Refusal :=
  .next { s with card := f s.card }

/-! ### Registers -/

/-- The number of PF0 register `off`. -/
abbrev mg (off : Nat) : Nat := Space.mg.key off

/-- The number of hamper `h`'s register `off`. -/
abbrev hp (h off : Nat) : Nat := (Space.hp h).key off

/-- What register `k` holds. -/
def Card.reg (c : Card) (k : Nat) : Word := tabGet (regReset k) c.regs k

/-- Register `k` set to a value. -/
def Card.setReg (c : Card) (k : Nat) (w : Word) : Card := { c with regs := tabPut (regReset k) c.regs k w }

/-- Field `hi:lo` of register `k`. -/
def Card.f (c : Card) (k hi lo : Nat) : Nat := fld (c.reg k) hi lo

/-- Register `k` with field `hi:lo` set. -/
def Card.setF (c : Card) (k hi lo v : Nat) : Card := c.setReg k (ins (c.reg k) hi lo v)

/-- Bit `i` of register `k`. -/
def Card.bit (c : Card) (k i : Nat) : Bool := c.f k i i == 1

/-- Register `k` with bit `i` set or cleared. -/
def Card.setBit (c : Card) (k i : Nat) (b : Bool) : Card := c.setF k i i (b2n b)

/-- Register `k` set to a number's low 32 bits. -/
def Card.setN (c : Card) (k v : Nat) : Card := c.setReg k (BitVec.ofNat 32 v)

/-- A counter in field `hi:lo` raised by `n`, saturating at its largest value. -/
def Card.bumpF (c : Card) (k hi lo n : Nat) : Card :=
  c.setF k hi lo (satAdd (2 ^ (hi + 1 - lo) - 1) (c.f k hi lo) n)

/-- A whole 32-bit counter raised by `n`, saturating
(DEDUCED, assumption log entry 8). -/
def Card.bump (c : Card) (k n : Nat) : Card := c.bumpF k 31 0 n

/-- The 64-bit value of a pair of registers. -/
def Card.pair (c : Card) (lo hi : Nat) : Nat := (c.reg lo).toNat + 2 ^ 32 * (c.reg hi).toNat

/-- A pair of registers set to a 64-bit value. -/
def Card.setPair (c : Card) (lo hi v : Nat) : Card := (c.setN lo v).setN hi (v / 2 ^ 32)

/-- Every register whose number is in `[a, b)` back at its reset value, with the captures and held halves of its
pairs. -/
def Card.resetRegs (c : Card) (a b : Nat) : Card :=
  let keep := fun {α : Type} (t : Tab α) => t.filter (fun e => decide (e.1 < a) || decide (b ≤ e.1))
  { c with regs := keep c.regs, caps := keep c.caps, holds := keep c.holds }

/-! ### Free values -/

/-- The next free number. -/
def Card.freeN (c : Card) : Nat := Config.freeNat c.fresh

/-- The next free choice. -/
def Card.freeB (c : Card) : Bool := Config.freeBool c.fresh

/-- Step past the free value just used. -/
def Card.draw (c : Card) : Card := { c with fresh := c.fresh + 1 }

/-! ### Outputs -/

/-- The card gives an output
(DEDUCED, assumption log entry 121). -/
def Card.emit (c : Card) (o : Out) : Card := { c with out := c.out ++ [o] }

/-! ### Configuration space -/

/-- The configuration fields of function number `n`. -/
def Card.cfgOf (c : Card) (n : Nat) : Cfg := tabGet {} c.cfg n

/-- The configuration fields of function number `n`, set. -/
def Card.setCfg (c : Card) (n : Nat) (v : Cfg) : Card := { c with cfg := tabPut {} c.cfg n v }

/-- The PF number of function number `n` (spec/04 R74). -/
def pfOf (n : Nat) : Nat := if n < 8 then n else (n - 8) / 8 + 1

/-- The size of BAR2 (spec/04 R81, spec/06 R143): 64 apertures of a PF, 8 of a VF. -/
def bar2Size (vf : Bool) : Nat := if vf then 2 ^ 32 else 2 ^ 35

/-- The reset state of function number `n`. -/
def Card.fnOf (c : Card) (n : Nat) : FnState := tabGet {} c.fns n

/-- The reset state of function number `n`, set. -/
def Card.setFn (c : Card) (n : Nat) (v : FnState) : Card := { c with fns := tabPut {} c.fns n v }

/-- VF `v` of hamper `h` exists: VF Enable is 1 and NumVFs is above `v` (R75, R88). -/
def Card.vfExists (c : Card) (h v : Nat) : Bool := (c.cfgOf (h + 1)).vfEn && decide (v < (c.cfgOf (h + 1)).numVfs)

/-- The bits of the AER status words, as PCIe numbers them (PRESUMED, assumption log entry 9). -/
inductive AerErr where
  | dataLink | poisoned | completionTimeout | completerAbort | unexpectedCompletion | receiverOverflow | malformed
  | ecrc | unsupported | uncorrectableInternal
  | receiver | badTlp | badDllp | replayRollover | replayTimeout | correctedInternal
deriving DecidableEq, Repr

/-- The status word (uncorrectable or not) and the bit of an error. -/
def aerBit : AerErr → Bool × Nat
  | .dataLink => (true, 4)
  | .poisoned => (true, 12)
  | .completionTimeout => (true, 14)
  | .completerAbort => (true, 15)
  | .unexpectedCompletion => (true, 16)
  | .receiverOverflow => (true, 17)
  | .malformed => (true, 18)
  | .ecrc => (true, 19)
  | .unsupported => (true, 20)
  | .uncorrectableInternal => (true, 22)
  | .receiver => (false, 0)
  | .badTlp => (false, 6)
  | .badDllp => (false, 7)
  | .replayRollover => (false, 8)
  | .replayTimeout => (false, 12)
  | .correctedInternal => (false, 14)

/-- An error logged in a PF's AER capability (R79); the header log keeps the header of the first uncorrectable error
held in the status word. -/
def Card.aerLog (c : Card) (pf : Nat) (e : AerErr) (hdr : Option Nat) : Card :=
  let a := tabGet {} c.aer pf
  let a' : Aer := match aerBit e with
    | (true, b) => { a with unc := ins a.unc b b 1, hdr := if a.unc = 0 then hdr.getD a.hdr else a.hdr }
    | (false, b) => { a with cor := ins a.cor b b 1 }
  { c with aer := tabPut {} c.aer pf a' }

/-! ### MSI-X (spec/04 R86) -/

/-- A function's table: the space's number of its first register, of its pending bits, and its size. -/
def msixBase (n : Nat) : Nat × Nat × Nat :=
  if n = 0 then (mg 0x7000, mg 0x7800, 16)
  else if n < 8 then (hp (n - 1) 0xF0000, hp (n - 1) 0xF8000, 32)
  else ((Space.vf ((n - 8) / 8) ((n - 8) % 8)).key 0x8000, (Space.vf ((n - 8) / 8) ((n - 8) % 8)).key 0xC000, 18)

/-- A message of vector `v` of function `n` can be sent now. -/
def Card.msixOpen (c : Card) (n v : Nat) : Bool :=
  let f := c.cfgOf n
  (n == 0 || !c.bit (mg 0x5004) 31) && f.msixEn && !f.msixMask && f.bme && !c.bit ((msixBase n).1 + 16 * v + 12) 0

/-- The message of vector `v`, sent. -/
def Card.msixSend (c : Card) (n v : Nat) : Card :=
  let b := (msixBase n).1 + 16 * v
  c.emit (.msix n v (c.pair b (b + 4)) (c.reg (b + 8)))

/-- Vector `v` of function `n` is raised: its message is sent, or its pending bit set. -/
def Card.raise (c : Card) (n v : Nat) : Card :=
  if c.msixOpen n v then c.msixSend n v else c.setBit (msixBase n).2.1 v true

/-- The pending messages that are deliverable are sent, in increasing vector number. -/
def Card.msixRelease (c : Card) (n : Nat) : Card :=
  (List.range (msixBase n).2.2).foldl
    (fun c v => if c.bit (msixBase n).2.1 v && c.msixOpen n v then (c.setBit (msixBase n).2.1 v false).msixSend n v else c) c

/-- An event bit of a PF0 register set, raising a PF0 vector. -/
def Card.event (c : Card) (off bit vec : Nat) : Card := (c.setBit (mg off) bit true).raise 0 vec

/-- An event bit of a hamper register set, raising a vector of the hamper PF. -/
def Card.hpEvent (c : Card) (h off bit vec : Nat) : Card := (c.setBit (hp h off) bit true).raise (h + 1) vec

/-! ### Layouts, rings and semaphores -/

/-- Hamper `h`'s active layout. -/
def Card.lay (c : Card) (h : Nat) : Option Layout := tabGet none c.active h

/-- Hamper `h` is started (R62 STARTED). -/
def Card.started (c : Card) (h : Nat) : Bool := c.bit (mg (0x6030 + 4 * h)) 3

/-- Ring `r` of hamper `h`. -/
def Card.ring (c : Card) (h r : Nat) : Ring := tabGet {} c.rings (16 * h + r)

/-- Ring `r` of hamper `h`, set. -/
def Card.setRing (c : Card) (h r : Nat) (v : Ring) : Card := { c with rings := tabPut {} c.rings (16 * h + r) v }

/-- The class of ring `r`: 0 disabled, 1 latency-critical, 2 best-effort (R57). -/
def Card.ringClass (c : Card) (h r : Nat) : Nat :=
  match c.lay h with
  | some l => nbits l.ringClass (2 * r + 1) (2 * r)
  | none => 0

/-- The value of global semaphore `g`. -/
def Card.sem (c : Card) (g : Nat) : Nat := tabGet 0 c.sems g

/-- An operation is in flight: accepted, and its report not yet released (R112). -/
def Op.inFlight (o : Op) : Bool := o.accepted

/-- An operation is accepted and not yet retired (R35). -/
def Op.active (o : Op) : Bool := o.phase == .running || o.phase == .ran

/-- The operations of ring `r` in flight. -/
def Card.inFlight (c : Card) (h r : Nat) : Nat := ((c.ring h r).q.filter Op.inFlight).length

/-- The latency-critical operations of hamper `h` accepted and not yet retired: those of its latency-critical rings. R35 does
not say whether a SUSPECT operation of such a ring counts; it does here (DESIGN CHOICE, assumption log entry 124). -/
def Card.lcActive (c : Card) (h : Nat) : List Op :=
  (List.range 16).flatMap (fun r => if c.ringClass h r = 1 then (c.ring h r).q.filter Op.active else [])

/-! ### Units -/

/-- The griddle mode of hamper `h` (R57): 0 TWIN, 1 FUSED, 2 QUARTER. -/
def Card.grMode (c : Card) (h : Nat) : Nat := ((c.lay h).map (fun l => l.mode)).getD 0

/-- The physical quarters of a griddle unit in a mode (R411, R423): quarters 4g to 4g + 3 form griddle g. -/
def quartersOf (mode u : Nat) : List Nat :=
  match mode with
  | 0 => [4 * u, 4 * u + 1, 4 * u + 2, 4 * u + 3]
  | 1 => List.range 8
  | _ => [u]

/-- The bits of HP_FR_FENCE_UNITS, or of HP_FR_FENCE_SLICES for class 1, that a unit's fence holds. -/
def fenceBits (mode cls u : Nat) : List Nat :=
  match cls with
  | 1 => [u]
  | 2 => [u]
  | 3 => (quartersOf mode u).map (fun q => 4 + q)
  | 4 => [24]
  | 5 => [16 + u]
  | 6 => [25]
  | _ => [26]

/-- The fence register of a class. -/
def fenceReg (h cls : Nat) : Nat := if cls = 1 then hp h 0xE0020 else hp h 0xE0024

/-- The unit is fenced (R411): for a griddle unit, when any of its quarters is; a colander's fence is FENCED state 4 of its
STATUS (R222), held as its bit of `MG_COL_EVENTS`' own fence set. -/
def Card.fenced (c : Card) (h cls u : Nat) : Bool :=
  if cls = 7 then tabGet false c.colFence u
  else (fenceBits (c.grMode h) cls u).any (fun i => c.bit (fenceReg h cls) i)

/-- The unit is enabled (R25, MG_HAMPER_UNITS). A griddle unit is a griddle, the fused array, or a quarter. -/
def Card.unitEnabled (c : Card) (h cls u : Nat) : Bool :=
  let k := mg (0x0010 + 4 * h)
  match cls with
  | 1 => c.bit k u
  | 2 => c.bit k (16 + u)
  | 3 => match c.grMode h with
    | 0 => c.bit k (20 + u)
    | 1 => c.bit k 20 && c.bit k 21
    | _ => c.bit k (20 + u / 4)
  | 4 => c.bit k 30
  | 5 => c.bit k (22 + u)
  | _ => true

/-- Every operation of hamper `h`, with its ring. -/
def Card.allOps (c : Card) (h : Nat) : List (Nat × Op) := (List.range 16).flatMap (fun r => (c.ring h r).q.map (fun o => (r, o)))

/-- The operation waits in its group for a unit, which it has not yet been given. -/
def Op.queued (o : Op) : Bool :=
  o.phase == .running && (!o.started || o.paused.isSome) && !o.held && !o.front && o.due.isNone

/-- Unit `u` exists in the griddle mode of hamper `h`. -/
def Card.grUnit (c : Card) (h u : Nat) : Bool :=
  (c.lay h).isSome && decide (u < (if c.grMode h = 0 then 2 else if c.grMode h = 1 then 1 else 8)) && c.unitEnabled h 3 u

/-- A RUN that is to preempt on unit `u` waits for the end of a pass there (R316). -/
def Op.dueOn (o : Op) (u : Nat) : Bool := o.cls == 3 && o.phase == .running && !o.started && o.due == some u

/-- STATE of a griddle unit (R323): 0 ABSENT, 1 IDLE, 2 RUNNING, 3 PREEMPTING, 4 FENCED. A preempted RUN keeps its unit
(DEDUCED, assumption log entry 37). -/
def Card.grState (c : Card) (h u : Nat) : Nat :=
  if !c.grUnit h u then 0
  else if c.fenced h 3 u then 4
  else if (c.allOps h).any (fun x => x.2.cls == 3 && x.2.started && x.2.active && x.2.unit == u) then
    if (c.allOps h).any (fun x => x.2.dueOn u) then 3 else 2
  else 1

/-- A whisk operation runs. -/
def Card.wkBusy (c : Card) (h : Nat) : Bool := (c.allOps h).any (fun x => x.2.cls == 4 && x.2.started && x.2.active)

/-! ### Time (spec/02 R31) -/

/-- The unit of card time's fraction: 2^32 to the nanosecond. -/
def nsUnit : Nat := 2 ^ 32

/-- Card time in nanoseconds. -/
def Card.ns (c : Card) : Nat := c.clk.now / nsUnit

/-- Card time in microseconds. -/
def Card.us (c : Card) : Nat := c.ns / 1000

/-- The card is frozen (R433). -/
def Card.frozen (c : Card) : Bool := c.bit (mg 0x5004) 31

/-- The pace monitor of hamper `h`. -/
def Card.paceOf (c : Card) (h : Nat) : Pace := tabGet {} c.pace h

/-- The pace monitor of hamper `h`, set. -/
def Card.setPace (c : Card) (h : Nat) (p : Pace) : Card := { c with pace := tabPut {} c.pace h p }

/-- The four hampers. -/
def hampers : List Nat := [0, 1, 2, 3]

/-- The SEARCH operations that stand at module `m`'s colander, with their hamper and ring. -/
def Card.colOps (c : Card) (m : Nat) : List (Nat × Nat × Op) :=
  hampers.flatMap (fun h => (List.range 16).flatMap (fun r =>
    ((c.ring h r).q.filter (fun o => o.cls == 7 && o.active && (o.held || o.started) && o.unit == m)).map (fun o => (h, r, o))))

/-- STATE of module `m`'s colander (R222): 0 ABSENT, 1 IDLE, 2 RUNNING, 3 HELD, 4 FENCED, 5 DISABLED. A SEARCH that runs is
let finish whatever ENABLE reads. -/
def Card.colState (c : Card) (m : Nat) : Nat :=
  if !c.bit (mg 0x0020) (16 + m) then 0
  else
    let l := (c.colOps m).filter (fun x => x.2.2.started && x.2.2.phase == .running)
    if l.any (fun x => !x.2.2.held) then 2
    else if !l.isEmpty then 3
    else if tabGet false c.colFence m then 4 else if !c.bit (mg 0xE000) m then 5 else 1

/-- A port is in panic after its urgency, `fill` of `full`, has come to be what it is (R180). -/
def urged (was : Bool) (fill full raise_ clear : Nat) : Bool :=
  decide (raise_ * full ≤ 16 * fill) || (was && !decide (16 * fill ≤ clear * full))

/-- A panic applies to channel `ch` (R180): of a raster port, some of whose pending writes target it, or of its own colander,
while that runs a SEARCH. -/
def Card.chanPanic (c : Card) (ch : Nat) : Bool :=
  (tabGet false c.colPanic ch && c.colState ch == 2) ||
  hampers.any (fun h => tabGet false c.rpPanic h && (tabGet [] c.rpBuf h).any (fun w => nbit w.chans ch))

/-! ### Counters of time -/

/-- The counters of time that run now, each with its unit in ns. A unit's busy time runs while its state says it works;
the card's panic, capping, slope and stage times run while their condition holds. -/
def Card.timers (c : Card) : List (Nat × Nat) :=
  ((List.range 8).filter c.chanPanic).map (fun ch => (mg (0x8110 + 0x100 * ch), 1000)) ++
  ((List.range 8).filter (fun m => c.colState m == 2)).map (fun m => (mg (0xE10C + 0x40 * m), 1000)) ++
  (hampers.flatMap fun h => ((List.range 8).filter (fun u => decide (2 ≤ c.grState h u))).map (fun u => (hp h (0x90108 + 0x10 * u), 1000))) ++
  (hampers.filter c.wkBusy).map (fun h => (hp h 0xA0018, 1000)) ++
  (if c.bit (mg 0x1108) 24 then [(mg 0x111C, 1000)] else []) ++
  (if c.bit (mg 0x1108) 23 then [(mg 0x1120, 1)] else []) ++
  (if 0 < c.f (mg 0x2000) 10 8 ∧ c.f (mg 0x2000) 10 8 < 3 then [(mg 0x2018, 1000)] else [])

/-- One counter of time run on by `dt` (in 2^-32 ns). -/
def Card.runTimer (c : Card) (k unit dt : Nat) : Card :=
  let t := tabGet 0 c.timerFrac k + dt
  { c.bump k (t / (unit * nsUnit)) with timerFrac := tabPut 0 c.timerFrac k (t % (unit * nsUnit)) }

/-- Time passes: card time advances by `dt` (in 2^-32 ns), and while the card is not frozen so do the busy times of the
pace monitors (R35) and the counters of time
(DEDUCED, assumption log entry 120)
(DESIGN CHOICE, assumption log entry 122). -/
def Card.advance (c : Card) (dt : Nat) : Card :=
  let c := { c with clk := { c.clk with now := c.clk.now + dt } }
  if c.frozen then c
  else
    let c := hampers.foldl (fun c h => if (c.lcActive h).isEmpty then c
      else c.setPace h { c.paceOf h with busyFrac := (c.paceOf h).busyFrac + dt }) c
    c.timers.foldl (fun c t => c.runTimer t.1 t.2 dt) c

/-- Card time brought up to `t` ns, if it is not there yet (R31: it never decreases). -/
def Card.advanceTo (c : Card) (t : Nat) : Card :=
  if c.clk.now < t * nsUnit then c.advance (t * nsUnit - c.clk.now) else c

/-- One increment of the 125 MHz time base with its rate correction (R31), in 2^-32 ns. -/
def tickUnits (rate : Int) : Nat := (8 * (nsUnit : Int) * (1000000000 + rate) / 1000000000).toNat

/-- The time base ticks once, while the card has power. -/
def Card.tick (c : Card) : Card := if c.on then c.advance (tickUnits c.clk.rate) else c

end Sys2Proof.Machine
end

