-- ==== Sys2Proof/Machine/Views.lean ====
section
/-! DEFINITION. Access to the numbered entities of the card (record rings, epochs, stream contexts, track schedulers,
ports), and the registers that only show what these hold (spec/10 R255, spec/15 R369, spec/16 R397). -/

namespace Sys2Proof.Machine

/-- Record ring `r` of hamper `h`. -/
def Card.recRing (c : Card) (h r : Nat) : RecRing := tabGet {} c.recs (16 * h + r)

/-- Record ring `r` of hamper `h`, set. -/
def Card.setRec (c : Card) (h r : Nat) (v : RecRing) : Card := { c with recs := tabPut {} c.recs (16 * h + r) v }

/-- Epoch `e` of hamper `h`. -/
def Card.epochOf (c : Card) (h e : Nat) : Epoch := tabGet {} c.epochs (65536 * h + e)

/-- Epoch `e` of hamper `h`, set. -/
def Card.setEpoch (c : Card) (h e : Nat) (v : Epoch) : Card := { c with epochs := tabPut {} c.epochs (65536 * h + e) v }

/-- Epoch `e` of hamper `h` is unsettled. -/
def Card.unsettled (c : Card) (h e : Nat) : Bool := e != 0 && (c.epochOf h e).state == 1

/-- Stream context `s` of hamper `h`; none when CLOSED. -/
def Card.stream (c : Card) (h s : Nat) : Option Stream := tabGet none c.streams (64 * h + s)

/-- Stream context `s` of hamper `h`, set. -/
def Card.setStream (c : Card) (h s : Nat) (v : Option Stream) : Card := { c with streams := tabPut none c.streams (64 * h + s) v }

/-- The track scheduler of hamper `h`. -/
def Card.tracker (c : Card) (h : Nat) : Tracker := tabGet {} c.trackers h

/-- The track scheduler of hamper `h`, set. -/
def Card.setTracker (c : Card) (h : Nat) (v : Tracker) : Card := { c with trackers := tabPut {} c.trackers h v }

/-- Dravaz port `p`. -/
def Card.port (c : Card) (p : Nat) : Port := tabGet {} c.ports p

/-- TIME_UP of MG_DV_CTL: 0 none, else the port plus 1 (R536). -/
def Card.timeUp (c : Card) : Nat := c.f (mg 0xA000) 5 4

/-- This card's HOPS (R536): 0 with TIME_UP none, else the upstream card's plus 1. -/
def Card.hops (c : Card) : Nat := if c.timeUp = 0 then 0 else min 7 ((c.port (c.timeUp - 1)).hops + 1)

/-- Dravaz port `p`, set. -/
def Card.setPort (c : Card) (p : Nat) (v : Port) : Card := { c with ports := tabPut {} c.ports p v }

/-! ### Units -/

/-- R_A and C_A of hamper `h`'s griddle units (R307); 0 without a layout. -/
def Card.grGeometry (c : Card) (h : Nat) : Nat × Nat :=
  match c.lay h with
  | none => (0, 0)
  | some _ => if c.grMode h = 0 then (128, 128) else if c.grMode h = 1 then (256, 128) else (64, 64)

/-- The shapers that work samples of a running PREPARE (R284): its samples not yet written go round the enabled, unfenced units of
its group, the next one to `Op.unit` or the first after it. -/
def Card.shapers (c : Card) (h : Nat) (o : Op) : List Nat :=
  if o.cls != 2 || !o.started || o.held || o.phase != .running then []
  else match (c.lay h).bind (fun l => l.groups[o.group]?) with
    | none => []
    | some g =>
      let us := (maskList g.units 16).filter (fun u => c.unitEnabled h 2 u && !c.fenced h 2 u)
      let first := us.findIdx (fun u => decide (o.unit ≤ u))
      (List.range (min us.length (leAt o.body 0x20 4 - o.passes))).map (fun i => us.getD ((first + i) % us.length) 0)

/-- The operation of a class that runs on a unit now, with its ring. -/
def Card.onUnit (c : Card) (h cls u : Nat) : Option (Nat × Op) :=
  (c.allOps h).find? (fun x => x.2.cls == cls && x.2.started && x.2.paused.isNone && x.2.active && x.2.unit == u)

/-- The preempted RUN of a unit (R316). -/
def Card.pausedOn (c : Card) (h u : Nat) : Option (Nat × Op) :=
  (c.allOps h).find? (fun x => x.2.cls == 3 && x.2.unit == u && x.2.paused.isSome && x.2.phase == .running)

/-- STATE of the whisk (R345): 0 ABSENT, 1 IDLE, 2 RUNNING, 3 FENCED. -/
def Card.wkState (c : Card) (h : Nat) : Nat :=
  if (c.lay h).isNone || !c.unitEnabled h 4 0 then 0 else if c.fenced h 4 0 then 3 else if (c.onUnit h 4 0).isSome then 2 else 1

/-- The griddle unit `u` of hamper `h`: its weight sets. -/
def Card.grSet (c : Card) (h u : Nat) : GrUnit := tabGet {} c.grSets (8 * h + u)

/-- The griddle unit `u` of hamper `h`, set. -/
def Card.setGr (c : Card) (h u : Nat) (v : GrUnit) : Card := { c with grSets := tabPut {} c.grSets (8 * h + u) v }

/-- A register of the shaper, griddle or whisk block that shows state (R300, R323, R345). -/
def Card.liveEngines (c : Card) (h off : Nat) : Option Word :=
  if off = 0x80000 then
    some (ins (c.reg (hp h off)) 31 16 ((c.allOps h).filter (fun x => x.2.cls == 2 && x.2.active)).length)
  else if off = 0x80004 then
    some (BitVec.ofNat 32 ((List.range 4).foldl (fun a u => if (c.allOps h).any (fun x => (c.shapers h x.2).contains u) then a + 2 ^ u else a) 0))
  else if off = 0x80010 then
    some (if c.f (hp h off) 15 0 = 0 then 0 else c.reg (hp h off))
  else if off = 0x90000 then
    let m := fun (f : Nat → Bool) => (List.range 8).foldl (fun a u => if f u then a + 2 ^ u else a) 0
    some (BitVec.ofNat 32 (m (fun u => c.grUnit h u && c.fenced h 3 u) * 2 ^ 16 + m (fun u => c.grUnit h u) * 2 ^ 8 + c.grMode h))
  else if off = 0x90004 then
    some (BitVec.ofNat 32 ((c.grGeometry h).2 * 2 ^ 16 + (c.grGeometry h).1))
  else if 0x90100 ≤ off ∧ off < 0x90180 ∧ off % 0x10 = 0 then
    let u := (off - 0x90100) / 0x10
    let ring := (((c.onUnit h 3 u).or (c.pausedOn h u)).map (fun x => x.1)).getD 0
    some (BitVec.ofNat 32 (ring * 2 ^ 28 + b2n (c.grSet h u).shadowBe * 2 ^ 9 + b2n (c.grSet h u).shadow.isSome * 2 ^ 8 + c.grState h u))
  else if off = 0xA0000 then
    let n := ((c.allOps h).filter (fun x => x.2.cls == 4 && x.2.phase == .running && !x.2.started)).length
    some (BitVec.ofNat 32 (((c.onUnit h 4 0).map (fun x => x.1)).getD 0 * 2 ^ 28 + min 255 n * 2 ^ 8 + c.wkState h))
  else none

/-! ### Stream contexts -/

/-- Picture slot `k` of a stream may be reused (R235). -/
def Card.slotFree (c : Card) (t : Stream) (k : Nat) : Bool :=
  (t.pics.filter (fun p => p.slot == k)).all (fun p =>
    !p.decoding && !p.waiting && !p.inRef && (match p.output with | some o => decide (o + 1 ≤ c.sem t.relSem) | none => true))

/-- The lowest-numbered reusable slot (R235). -/
def Card.freeSlot (c : Card) (t : Stream) : Option Nat := (List.range t.slots).find? (fun k => c.slotFree t k)

/-- The queue holds the start of a picture (R237). -/
def Stream.holdsStart (t : Stream) : Bool := t.starts.any (fun x => decide (t.head ≤ x) && decide (x < t.tail))

/-- STATE of a stream context (R255): 1 WAIT_HEADER, 2 IDLE, 3 READY, 4 DECODING, 5 STALLED, 6 CLOSING. -/
def Card.streamState (c : Card) (t : Stream) : Nat :=
  if t.closing then 6
  else if t.pics.any (fun p => p.decoding) then 4
  else if !t.header then 1
  else if !t.holdsStart then 2
  else if (c.freeSlot t).isSome then 3 else 5

/-- The stream contexts of hamper `h` that are open, with their numbers. -/
def Card.streamsOf (c : Card) (h : Nat) : List (Nat × Stream) :=
  (List.range 64).filterMap (fun s => (c.stream h s).map (fun t => (s, t)))

/-- The pixel rate that a context books (R232), in pixels per second. -/
def Stream.booking (t : Stream) : Nat := if t.lc then t.maxW * t.maxH * t.fps else 0

/-- The hamper's booked total (R232). -/
def Card.booked (c : Card) (h : Nat) : Nat := ((c.streamsOf h).map (fun x => x.2.booking)).sum

/-- A register of the intake block that shows the state of its contexts (R255). -/
def Card.liveIntake (c : Card) (h off : Nat) : Option Word :=
  if off = 0x60000 then
    let busy := (List.range 16).foldl (fun a d =>
      if (tabGet none c.slices (16 * h + d)).isSome || (c.streamsOf h).any (fun x => x.2.pics.any (fun p => p.decoding && p.recon.contains d))
      then a + 2 ^ d else a) 0
    let ready := ((c.streamsOf h).filter (fun x => c.streamState x.2 == 3)).length
    some (BitVec.ofNat 32 (busy * 2 ^ 16 + ready * 2 ^ 8 + (c.streamsOf h).length))
  else if off = 0x60004 then some (BitVec.ofNat 32 (c.booked h / 1000))
  else if off = 0x60014 then
    some (ins (c.reg (hp h 0x60014)) 31 31 (b2n (tabGet none c.keys (64 * h + c.f (hp h 0x60010) 5 0)).isSome))
  else if 0x61000 ≤ off ∧ off < 0x62000 then
    let t? := c.stream h ((off - 0x61000) / 0x40)
    match off % 0x40, t? with
    | 0x00, some t => some (BitVec.ofNat 32 (c.streamState t * 2 ^ 29 + t.codec * 2 ^ 24 + t.mode * 2 ^ 23 + b2n t.lc * 2 ^ 22 +
        t.ring * 2 ^ 16 + t.ctx))
    | 0x04, some t => some (BitVec.ofNat 32 (t.height * 2 ^ 16 + t.width))
    | 0x10, some t =>
      match t.pics.find? (fun p => p.decoding) with
      | some p => some (BitVec.ofNat 32 (p.epoch * 2 ^ 16 + p.rows))
      | none => some 0
    | 0x20, some t => some (BitVec.ofNat 32 (t.tail - t.head))
    | 0x00, none => some 0
    | 0x04, none => some 0
    | 0x10, none => some 0
    | 0x20, none => some 0
    | _, _ => none
  else none

/-- A register of the track scheduler that shows its state (R369). -/
def Card.liveTrack (c : Card) (h off : Nat) : Option Word :=
  let t := c.tracker h
  if off = 0xB0000 then
    let limit := ((c.lay h).map (fun l => min 4096 (l.track * 0x40000 / 2048))).getD 0
    some (BitVec.ofNat 32 (b2n t.batch.isSome * 2 ^ 31 + limit * 2 ^ 16 + (t.tracks.filter (fun e => e.2.state != 0)).length))
  else if off = 0xB0004 then some (ins (c.reg (hp h 0xB0004)) 24 16 t.reqs.length)
  else none

/-! ### Raster ports -/

/-- Virtual channel `k` of hamper `h`'s raster port. -/
def Card.vc (c : Card) (h k : Nat) : RpVc := tabGet {} c.vcs (4 * h + k)

/-- Virtual channel `k` of hamper `h`'s raster port, set. -/
def Card.setVc (c : Card) (h k : Nat) (v : RpVc) : Card := { c with vcs := tabPut {} c.vcs (4 * h + k) v }

/-- The raster port that hamper `h`'s active layout names (R264). -/
def Card.portOf (c : Card) (h : Nat) : Option Nat := (c.lay h).bind (fun l => if l.raster < 4 then some l.raster else none)

/-- A register of the raster block that shows its state (R276). -/
def Card.liveRaster (c : Card) (h off : Nat) : Option Word :=
  if off = 0x70000 then
    some (ins (ins (c.reg (hp h off)) 2 2 (b2n (c.portOf h).isSome)) 1 0 ((c.portOf h).getD 0))
  else if 0x70100 ≤ off ∧ (off - 0x70100) % 0x80 = 0x24 then
    let v := c.vc h ((off - 0x70100) / 0x80)
    some (ins (ins (ins (ins (c.reg (hp h off)) 30 30 (b2n v.next.isSome)) 29 29 (b2n v.after.isSome)) 18 16 v.state) 12 0
      ((v.cur.map (fun f => f.lines)).getD 0))
  else none

/-! ### Records -/

/-- Bus Master Enable of function number `n`. -/
def Card.bme (c : Card) (n : Nat) : Bool := (c.cfgOf n).bme

/-- Register `off` of ring `r`'s page. -/
def ringReg (h r off : Nat) : Nat := hp h (0x10000 + 0x1000 * r + off)

/-- Records of ring `r` wait to be written: in its store, or of the retired operation at its front. -/
def Card.recWaits (c : Card) (h r : Nat) : Bool :=
  !(c.recRing h r).store.isEmpty ||
  (match (c.ring h r).q with | o :: _ => o.phase == .retired && !o.records.isEmpty | [] => false)

/-- The record ring has no free entry (R378). -/
def Card.recFull (c : Card) (h r : Nat) : Bool :=
  decide (2 ^ c.f (ringReg h r 0x108) 20 16 ≤ diff32 (c.reg (ringReg h r 0x110)).toNat (c.reg (ringReg h r 0x10C)).toNat)

/-- HP_REC_STATUS and HP_REC_STATE (R397, R398), given the function that owns the ring. -/
def Card.liveRec (c : Card) (h r owner : Nat) : Word :=
  let entries := ((c.recRing h r).store.map (fun x => x.entries.length)).sum
  let w := c.recWaits h r
  ins (ins (c.reg (ringReg h r 0x114)) 31 16 entries) 1 0 (b2n (w && c.recFull h r) * 2 + b2n (w && !c.bme owner))

end Sys2Proof.Machine
end

