-- ==== Sys2Proof/Machine/Regs.lean ====
section
/-! DEFINITION. Host access to registers: which accesses reach a register (spec/04 R580, R90, R101; spec/18 R436;
spec/22 R514), what a read returns and clears, what a write changes (spec/00 R4 to R8, R14 to R18). -/

namespace Sys2Proof.Machine

/-! ### Ownership -/

/-- The VF that owns ring `r` of hamper `h`: a ring named in HP_VF_RINGS belongs to the VF while the VF exists
(DEDUCED, assumption log entry 10). -/
def Card.ringVf (c : Card) (h r : Nat) : Option Nat :=
  (List.range 8).find? (fun v => c.vfExists h v && c.bit (hp h (0x100 + 4 * v)) r)

/-- The number of the function that owns ring `r`. -/
def Card.ringFn (c : Card) (h r : Nat) : Nat :=
  match c.ringVf h r with
  | some v => 8 + 8 * h + v
  | none => h + 1

/-- VF `v`'s local semaphores: first and count (R87). -/
def Card.vfSems (c : Card) (h v : Nat) : Nat × Nat :=
  let k := hp h (0x120 + 4 * v)
  (64 * c.f k 5 0, 64 * c.f k 14 8)

/-- Context `x` lies in VF `v`'s range (R87). -/
def Card.vfHasCtx (c : Card) (h v x : Nat) : Bool :=
  let k := hp h (0x140 + 4 * v)
  decide (c.f k 11 0 ≤ x) && decide (x < c.f k 11 0 + c.f k 27 16)

/-- Local semaphore `l` lies in VF `v`'s range. -/
def Card.vfHasSem (c : Card) (h v l : Nat) : Bool :=
  decide ((c.vfSems h v).1 ≤ l) && decide (l < (c.vfSems h v).1 + (c.vfSems h v).2)

/-! ### Which accesses reach a register -/

/-- The stage of bring-up (R508). -/
def Card.stage (c : Card) : Nat := c.f (mg 0x0030) 3 0

/-- The PF0 block of an offset is open at the present stage (R514). -/
def Card.bootOpen (c : Card) (off : Nat) : Bool :=
  let s := c.stage
  if off < 0x3000 then true
  else if off < 0x4000 then decide (4 ≤ s)
  else if off < 0x5000 then decide (2 ≤ s)
  else if off < 0x6000 then decide (5 ≤ s)
  else if off < 0x7000 then decide (7 ≤ s)
  else if off < 0x8000 then true
  else if off < 0xC000 then decide (5 ≤ s)
  else if off < 0xE000 then decide (2 ≤ s)
  else decide (5 ≤ s)

/-- The function claims memory requests to its BARs (R580; a hamper PF is exposed only once started, R513); the BARs of VFs that
a reset of their PF has ended answer until its step 5 (R90)
(DEDUCED, assumption log entry 109). -/
def Card.claims (c : Card) : Fn → Bool
  | .pf0 => c.on && (c.cfgOf 0).mse
  | .pf h => c.on && (c.fnOf (h.val + 1)).exposed && (c.cfgOf (h.val + 1)).mse
  | .vf h v => c.on && ((c.vfExists h.val v.val && (c.cfgOf (h.val + 1)).vfMse) || decide (v.val < (c.fnOf (h.val + 1)).gone))

/-- READY of a hamper function: bit 31 of its HP_FN_STATUS. -/
def Card.ready (c : Card) (fn : Fn) : Bool :=
  match fn with
  | .pf0 => true
  | .pf h => c.bit (hp h.val 0) 31
  | .vf h v => c.bit ((Space.vf h.val v.val).key 0) 31 && c.bit (hp h.val 0) 31

/-- A function whose reset has not yet reached step 5: every read of its BARs returns all-ones (R90 step 1). -/
def Card.dark (c : Card) (fn : Fn) : Bool :=
  let d := fun n => (c.fnOf n).phase == .draining || (c.fnOf n).phase == .held || (c.fnOf n).phase == .off
  match fn with
  | .pf0 => false
  | .pf h => d (h.val + 1)
  | .vf h v => d (h.val + 1) || (c.fnOf (8 + 8 * h.val + v.val)).phase == .draining

/-- A memory request that no function claims is logged in AER; a read completes as Unsupported Request, a write is dropped
(R580, R79)
(DESIGN CHOICE, assumption log entry 59). -/
def Card.unclaimed (c : Card) (fn : Fn) (write : Bool) (hdr : Option Nat) : Card :=
  let c := c.aerLog fn.pfNum .unsupported hdr
  if write then c else c.emit (.unsupported fn.num)

/-- A host write of a register: what keeps it from reaching the register, else the effect `k`. A write to a hamper
function is dropped and counted while frozen (R18, R436) and while READY is 0 (R87, R90, R101); a write to a PF0 block
not yet open is dropped and counted (R514). The header of a request that no function claims is a free value. -/
def Card.hostWrite (c : Card) (fn : Fn) (off : Nat) (k : Card → Card) : Card :=
  if !c.claims fn then (c.unclaimed fn true (some c.freeN)).draw
  else match fn with
    | .pf0 => if c.bootOpen off then k c else c.bump (mg 0x0038) 1
    | .pf h =>
      if c.frozen then c.bump (mg (0x5020 + 4 * h.val)) 1
      else if !c.ready fn then c.bump (hp h.val 0x8) 1
      else k c
    | .vf h v =>
      if c.frozen then c.bump (mg (0x5020 + 4 * h.val)) 1
      else if !c.ready fn then c.bump ((Space.vf h.val v.val).key 0x8) 1
      else k c

/-- The register that a function's BAR0 offset names: its own, or, through a VF, a page of a ring it owns (R85). -/
def Card.regAt (c : Card) (fn : Fn) (off : Nat) : Option Nat :=
  match fn with
  | .pf0 => if off < 0x10000 then some (mg off) else none
  | .pf h => if off < 0x100000 then some (hp h.val off) else none
  | .vf h v =>
    if off < 0x10000 then some ((Space.vf h.val v.val).key off)
    else if off < 0x20000 then
      if c.ringVf h.val ((off - 0x10000) / 0x1000) = some v.val then some (hp h.val off) else none
    else none

/-- A write by `fn` at an offset of a ring page is ignored: the PF's writes to pages of VF-owned rings (R84). -/
def Card.pageBlocked (c : Card) (fn : Fn) (off : Nat) : Bool :=
  match fn with
  | .pf h => decide (0x10000 ≤ off) && decide (off < 0x20000) && (c.ringVf h.val ((off - 0x10000) / 0x1000)).isSome
  | _ => false

/-! ### Pairs (R7) -/

/-- The offset is the _LO of a pair whose _HI is 4 above. -/
def isPairLo : Space → Nat → Bool
  | .mg, o => [0x0008, 0x1040, 0x1128, 0x5010, 0x5018, 0x5034, 0x5104, 0xA120, 0xA128, 0xA220, 0xA228].contains o
  | .hp _, o =>
    if 0x10000 ≤ o ∧ o < 0x20000 then [0x000, 0x010, 0x100].contains (o % 0x1000)
    else if 0x20000 ≤ o ∧ o < 0x28000 then o % 8 == 0
    else if 0x40100 ≤ o ∧ o < 0x40500 then o % 8 == 0
    else if 0x70100 ≤ o ∧ o < 0x70300 then [0x10, 0x1C].contains ((o - 0x70100) % 0x80)
    else if 0xD1000 ≤ o ∧ o < 0xD3000 then o % 0x20 == 4
    else [0x40, 0x28008, 0x40008, 0x40044, 0x60008, 0x70008, 0xB0008, 0xB0018].contains o
  | .vf _ _, o => o == 0x40
  | .bm, _ => false

/-- Register `k` is the _LO of a pair. -/
def keyIsLo (k : Nat) : Bool := isPairLo (keySpace k).1 (keySpace k).2

/-- Register `k` is the _HI of a pair. -/
def keyIsHi (k : Nat) : Bool := decide (4 ≤ (keySpace k).2) && isPairLo (keySpace k).1 ((keySpace k).2 - 4)

/-! ### What a register reads -/

/-- The effective ceiling: the lower of CEIL_MV and the thermal ceiling (R37), or the applied request after a write the
regulator did not acknowledge (R43). -/
def Card.effCeil (c : Card) : Nat :=
  let m := min (c.f (mg 0x1004) 15 0) (c.f (mg 0x2008) 15 0)
  if c.avs.nak then min m (c.f (mg 0x1008) 15 0) else m

/-- STATE of a ring (R118): 0 DISABLED, 1 IDLE, 2 RUNNING, 3 WAITING, 4 STOPPED, 5 DRAINING, 6 HELD. Output is held
when the next operation to release has retired and cannot be released. -/
def Card.ringState (c : Card) (h r : Nat) : Nat :=
  let g := c.ring h r
  let en := c.bit (hp h (0x10008 + 0x1000 * r)) 31
  if g.draining then 5
  else if !en then 0
  else if g.stopped then 4
  else match g.q with
    | o :: _ => if o.phase == .retired then 6
                else if (g.q.find? (fun o => o.phase == .waiting)).any (fun o =>
                  o.headAt.isSome && !o.waits.all (fun w => decide (w.val ≤ c.sem w.sem))) then 3 else 2
    | [] => if g.fetch == .idle && g.prod == g.cons then 1 else 2

/-- The declared region with a number: the hamper that declares it and its entry (R59). -/
def Card.regionOf (c : Card) (n : Nat) : Option (Nat × RegionEnt) :=
  hampers.findSome? (fun h => (c.lay h).bind (fun l => (l.regions.find? (fun e => e.num == n)).map (fun e => (h, e))))

/-- A region's data size in bytes: SIZE × 2 MiB × channels, seven eighths for an ECC region (spec/06; R54). -/
def RegionEnt.dataSize (e : RegionEnt) : Nat :=
  let s := e.size * 0x200000 * popCount e.channels 8
  if nbit e.attr 0 then s / 8 * 7 else s

/-- The pool's buffers that are not FREE. -/
def Card.poolOut (c : Card) (h p : Nat) : Nat :=
  (c.bufs.filter (fun e => e.1 / 2 ^ 20 == 16 * h + p)).length

/-- FREE buffers of an enabled pool (R162 AVAIL). -/
def Card.poolAvail (c : Card) (h p : Nat) : Nat :=
  if c.bit (hp h (0x50000 + 0x40 * p)) 31 then c.f (hp h (0x50008 + 0x40 * p)) 19 0 - c.poolOut h p else 0

/-- The staging word that MG_MEM_DLY_SEL of channel `ch` selects: lanes 0 to 35 are per subchannel and module rank,
lanes 36 to 45 per subchannel (R184). -/
def delayKey (ch rank sub lane : Nat) : Nat := ((ch * 2 + (if lane < 36 then rank else 0)) * 2 + sub) * 64 + lane

/-- A delay word as a lane holds it (R198): VREF on DQ lanes alone, RD_DLY on DQ and DQS lanes alone. -/
def laneWord (lane : Nat) (w : Word) : Word := if lane < 32 then w else if lane < 36 then w &&& 0xFFFFF else w &&& 0x3FF

/-- The selected staging word of channel `ch`. -/
def Card.delaySel (c : Card) (ch : Nat) : Nat :=
  let k := mg (0x8130 + 0x100 * ch)
  delayKey ch (c.f k 8 8) (c.f k 7 7) (c.f k 5 0)

/-- The transients of a unit, by its burst key, within the last `ms` milliseconds of card time (R412). -/
def Card.burstCount (c : Card) (k ms : Nat) : Nat :=
  ((tabGet [] c.bursts k).filter (fun t => decide (c.ns ≤ t + ms * 1000000))).length

/-- A hamper register that shows state held elsewhere. -/
def Card.liveHp (c : Card) (h off : Nat) : Option Word :=
  if off = 0x40 then some (BitVec.ofNat 32 c.ns)
  else if off = 0x44 then some (BitVec.ofNat 32 (c.ns / 2 ^ 32))
  else if off = 0xC then
    some (BitVec.ofNat 32 ((List.range 16).foldl (fun a r => if (c.ring h r).flushed.isEmpty then a else a + 2 ^ r) 0))
  else if 0x10000 ≤ off ∧ off < 0x20000 then
    let r := (off - 0x10000) / 0x1000
    let g := c.ring h r
    if off % 0x1000 = 0x1C then some (BitVec.ofNat 32 g.prod)
    else if off % 0x1000 = 0x20 then some (BitVec.ofNat 32 g.cons)
    else if off % 0x1000 = 0x114 then some (c.liveRec h r (c.ringFn h r))
    else if off % 0x1000 = 0x24 then
      some (BitVec.ofNat 32 (g.gen * 2 ^ 16 + c.ringClass h r * 2 ^ 14 + c.ringState h r * 2 ^ 9 + c.inFlight h r))
    else none
  else if 0x20000 ≤ off ∧ off < 0x28000 then
    let v := c.sem (4096 * h + (off - 0x20000) / 8)
    some (BitVec.ofNat 32 (if off % 8 = 0 then v else v / 2 ^ 32))
  else if off = 0x40008 ∨ off = 0x4000C then
    match tabGet none c.ctxs (c.f (hp h 0x40000) 11 0) with
    | some x => if x.hamper = h then some (BitVec.ofNat 32 (if off = 0x40008 then x.entry else x.entry / 2 ^ 32)) else some 0
    | none => some 0
  else if off = 0x40034 then
    match c.regionOf (c.f (hp h 0x40030) 7 0) with
    | some (g, e) => some (BitVec.ofNat 32 (2 ^ 31 + b2n (g == h) * 2 ^ 30 + g * 2 ^ 28 + (e.attr % 16) * 2 ^ 16 + e.channels))
    | none => some 0
  else if off = 0x40038 then
    let o : Owner := tabGet {} c.owners (c.f (hp h 0x40030) 7 0)
    some (BitVec.ofNat 32 (o.mtch * 2 ^ 16 + o.mask))
  else if off = 0x4003C then
    match c.regionOf (c.f (hp h 0x40030) 7 0) with
    | some (_, e) => some (BitVec.ofNat 32 (e.dataSize / 65536))
    | none => some 0
  else if 0x50000 ≤ off ∧ off < 0x50400 ∧ off % 0x40 = 0x10 then
    some (BitVec.ofNat 32 (c.poolAvail h ((off - 0x50000) / 0x40)))
  else if 0xE0100 ≤ off ∧ off < 0xE0200 then
    some (ins (c.reg (hp h off)) 31 24 (min 255 (c.burstCount (64 * h + (off - 0xE0100) / 4) (c.f (hp h 0xE0000) 23 0))))
  else if 0x60000 ≤ off ∧ off < 0x62000 then c.liveIntake h off
  else if 0xB0000 ≤ off ∧ off < 0xB0008 then c.liveTrack h off
  else if 0x70000 ≤ off ∧ off < 0x70300 then c.liveRaster h off
  else if 0x80000 ≤ off ∧ off < 0xA0004 then c.liveEngines h off
  else if off = 0xC0000 then
    some (BitVec.ofNat 32 (if c.bit (hp h 0xE0024) 26 then 3 else if !c.started h then 0
      else if (List.range 16).any (fun r => c.recWaits h r) then 2 else 1))
  else none

/-- The state of rank `k` (R197): 0 ABSENT, 1 IN_SERVICE, 2 SPARE, 3 MIGRATING, 4 RETIRED, 5 HOSTING, 6 LOST. -/
def Card.rankState (c : Card) (k : Nat) : Nat := c.f (mg (0x8010 + 4 * (k / 4))) (8 * (k % 4) + 2) (8 * (k % 4))

/-- The ranks that module `m`'s CB-08 serves (R195, R222): those whose addresses its ranks hold. -/
def Card.colRanks (c : Card) (m : Nat) : Nat :=
  if !c.bit (mg 0x0020) (16 + m) then 0
  else (List.range 16).foldl (fun a r =>
    let base := (tabGet none c.redirect r).getD r
    let gone := fun (k : Nat) => c.rankState k == 0 || c.rankState k == 6
    if !gone r && !gone base && base / 2 == m then a + 2 ^ r else a) 0

/-- AUX_CAP in watts (R450, R463). -/
def auxWatts (code : Nat) : Nat := 150 * (code + 1)

/-- The node limit that a LIMIT_W gives (R450): 0 until AUX_CAP is read. -/
def Card.nodeLimit (c : Card) (limitW : Nat) : Nat :=
  if c.f (mg 0x1108) 31 29 = 0 then 0 else min (min limitW 270) (60 + auxWatts (c.f (mg 0x1108) 27 26))

/-- EFF_LIMIT_W (R450). -/
def Card.effLimit (c : Card) : Nat := c.nodeLimit (c.f (mg 0x1104) 15 0)

/-! ### The governor's settings in force, and the ramp of B (R455, R467, R468) -/

/-- The unit of current: 10 mA is 810,000 of it, so that a weight scaled by (REQUEST_MV / 900)^2 is exact (R454). -/
abbrev caUnit : Nat := 810000

/-- A slope of 0.25 A/us raises a current by this much in 1 ns. -/
abbrev slopeUnit : Nat := 25 * caUnit / 1000

/-- The start of the 250 ns interval after the one that holds `t`. -/
def nextInterval (t : Nat) : Nat := (t / 250 + 1) * 250

/-- The settings that a write in the present 250 ns interval replaces, which still hold
(DESIGN CHOICE, assumption log entry 78). -/
def Card.govOld (c : Card) : Option GovSet := c.gov.old.filter (fun x => decide (c.ns < nextInterval x.at_))

/-- The node limit that starts are held to (R456, R467). -/
def Card.limitNow (c : Card) : Nat := ((c.govOld).map (fun x => c.nodeLimit x.limitW)).getD c.effLimit

/-- SLOPE_DOWN as it holds (R468). -/
def Card.slopeDown (c : Card) : Nat := ((c.govOld).map (fun x => x.down)).getD (c.f (mg 0x1100) 12 8)

/-- The current by which B can have risen at card time `t` (R455): at the new SLOPE_UP from the interval after its write (R468). -/
def Card.riseTo (c : Card) (t : Nat) : Nat :=
  let up := c.f (mg 0x1100) 4 0 * slopeUnit
  match c.gov.old with
  | none => (t - c.gov.bAt) * up
  | some x =>
    let e := nextInterval x.at_
    (min t e - c.gov.bAt) * (x.up * slopeUnit) + (t - max c.gov.bAt e) * up

/-- The card time at which B has risen by `d` (R455, R468). -/
def Card.risenAt (c : Card) (d : Nat) : Nat :=
  let up := c.f (mg 0x1100) 4 0 * slopeUnit
  match c.gov.old with
  | none => c.gov.bAt + ceilDiv d up
  | some x =>
    let e := nextInterval x.at_
    let first := (e - c.gov.bAt) * (x.up * slopeUnit)
    if d ≤ first then c.gov.bAt + ceilDiv d (x.up * slopeUnit) else max c.gov.bAt e + ceilDiv (d - first) up

/-- Start `x` goes before `y` (R456). -/
def GovStart.before (x y : GovStart) : Bool := (x.lc && !y.lc) || (x.lc == y.lc && decide (x.order < y.order))

/-- The waiting start that is acknowledged next. -/
def Gov.head (g : Gov) : Option GovStart :=
  g.waiting.foldl (fun (best : Option GovStart) x => match best with | none => some x | some b => if x.before b then some x else some b) none

/-- A weight at 900 mV in 10 mA (R454). -/
def classWeight (cls mode : Nat) : Nat :=
  match cls with
  | 1 => 10
  | 2 => 10
  | 3 => if mode = 0 then 120 else if mode = 1 then 240 else 30
  | 4 => 45
  | 5 => 6
  | 7 => 40
  | _ => 4

/-- The current that a load's start may add (R454, R459, R460, R478). A share and a supply are not on the core's voltage. -/
def Card.weight (c : Card) (l : Load) : Nat :=
  match l with
  | .unit h cls _ => classWeight cls (c.grMode h) * c.f (mg 0x1008) 15 0 ^ 2
  | .share => 25 * caUnit
  | .supply i => (if i = 0 then 350 else 100) * caUnit

/-- B now (R455, R463): while the first waiting start waits on it, it rises until it covers that start; it stands in a freeze. -/
def Card.ballast (c : Card) : Nat :=
  match c.gov.head with
  | some x =>
    if c.bit (mg 0x1108) 23 && !c.frozen && !c.bit (mg 0x5004) 30 then c.gov.b + min (c.riseTo c.ns) (c.weight x.load - c.gov.b) else c.gov.b
  | none => c.gov.b

/-- B brought up to the present card time. -/
def Card.settleB (c : Card) : Card := { c with gov := { c.gov with b := c.ballast, bAt := c.ns } }

/-- A write of MG_PWR_GOV_CTL or MG_PWR_LIMIT (R467, R468): what it replaces holds to the end of the interval. -/
def Card.noteGov (c : Card) : Card :=
  let c := c.settleB
  if c.govOld.isSome then c
  else { c with gov := { c.gov with old := some { up := c.f (mg 0x1100) 4 0, down := c.f (mg 0x1100) 12 8, limitW := c.f (mg 0x1104) 15 0, at_ := c.ns } } }

/-- TJ in whole degrees (R473). -/
def Card.tj (c : Card) : Int := sint 8 (c.f (mg 0x2000) 31 24)

/-- WAIT of MG_BOOT_STATUS (R516). -/
def Card.waitCode (c : Card) : Nat :=
  if !c.on then 0
  else if c.f (mg 0x2000) 10 8 = 3 then 6
  else if c.f (mg 0x1108) 31 29 = 2 then 5
  else if c.stage = 2 then 7
  else if 0 < c.stage then 0
  else if !c.bit (mg 0x0028) 0 then 1
  else if c.f (mg 0x1108) 31 29 = 0 then 2
  else if c.pin.hot ∧ 90 ≤ c.tj then 3
  else if !c.avs.up then 4
  else 0

/-- MG_PP_STATUS (R500): the open window, and what the service parts sense. -/
def Card.presStatus (c : Card) : Nat :=
  (match c.presence with
    | some w => 2 ^ 31 + w.op * 2 ^ 24 + min 30 (ceilDiv (w.since + 30000000000 - c.ns) 1000000000) * 2 ^ 16
    | none => 0) + b2n (c.bit (mg 0x41C0) 0) * 8 + b2n (!c.pin.sealOpen) * 4 + b2n c.pin.jumper * 2 + b2n c.pin.button

/-- MG_MEM_MIGR_STATUS (R197): its other fields read 0 while no migration runs
(DEDUCED, assumption log entry 70). -/
def Card.migrStatus (c : Card) : Nat :=
  (match c.migr with
    | some m => 2 ^ 31 + m.source * 2 ^ 24 + m.target % 16 * 2 ^ 20 + (m.start + m.done) % 65536
    | none => 0) + b2n (!c.migrQ.isEmpty) * 2 ^ 30

/-- A register of PF0 that shows state held elsewhere
(DESIGN CHOICE, assumption log entry 73). -/
def Card.liveMg (c : Card) (off : Nat) : Option Word :=
  if off = 0x1040 then some (BitVec.ofNat 32 c.ns)
  else if off = 0x1044 then some (BitVec.ofNat 32 (c.ns / 2 ^ 32))
  else if off = 0x1008 then some (BitVec.ofNat 32 (c.effCeil * 2 ^ 16 + c.f (mg 0x1008) 15 0))
  else if off = 0x1054 then some (BitVec.ofNat 32 (toBits 32 c.clk.rate))
  else if off = 0x0030 then some (ins (c.reg (mg off)) 11 8 c.waitCode)
  else if off = 0x3020 then some (BitVec.ofNat 32 c.presStatus)
  else if off = 0x1104 then some (BitVec.ofNat 32 (c.effLimit * 2 ^ 16 + c.f (mg 0x1104) 15 0))
  else if off = 0x1110 then
    some (BitVec.ofNat 32 (min 65535 (c.ballast / caUnit) * 2 ^ 16 + min 65535 (c.gov.est / (c.f (mg 0x1108) 15 0 * caUnit))))
  else if off = 0xA008 then some (BitVec.ofNat 32 c.hops)
  else if off = 0x8020 then some (BitVec.ofNat 32 c.migrStatus)
  else if 0x8100 ≤ off ∧ off < 0x8900 ∧ off % 0x100 = 0x34 then
    some (tabGet 0 c.staged (c.delaySel ((off - 0x8100) / 0x100)))
  else if 0x8100 ≤ off ∧ off < 0x8900 ∧ off % 0x100 = 0 then
    some (ins (c.reg (mg off)) 6 6 (b2n (c.chanPanic ((off - 0x8100) / 0x100))))
  else if 0xE100 ≤ off ∧ off < 0xE300 ∧ off % 0x40 = 0 then
    let m := (off - 0xE100) / 0x40
    let n := ((c.colOps m).filter (fun x => !x.2.2.started)).length
    some (BitVec.ofNat 32 (c.colRanks m * 2 ^ 16 + min 255 n * 256 + c.colState m))
  else if 0xC020 ≤ off ∧ off < 0xC040 then
    some (ins (c.reg (mg off)) 31 24 (min 255 (c.burstCount (256 + (off - 0xC020) / 4) (c.f (mg 0xC01C) 23 0))))
  else none

/-- The fields of a register that read 0 whatever they hold (WO, R4). -/
def woMask (fs : List Fld) (w : Word) : Word :=
  fs.foldl (fun w f => if f.acc == .wo || f.acc == .load then ins w f.hi f.lo 0 else w) w

/-- What register `k` reads now, without any effect of reading. -/
def Card.peek (c : Card) (k : Nat) : Word :=
  let so := keySpace k
  let live := match so.1 with
    | .hp h => c.liveHp h so.2
    | .mg => c.liveMg so.2
    | .vf h v =>
      if so.2 = 0xC then (c.liveHp h 0xC).map (fun w => BitVec.ofNat 32
        ((maskList w.toNat 16).foldl (fun a r => if c.ringVf h r = some v then a + 2 ^ r else a) 0))
      else if so.2 = 0x40 ∨ so.2 = 0x44 then c.liveHp h so.2 else none
    | .bm => none
  match live with
  | some w => w
  | none =>
    match findReg so.1.regs so.2 with
    | some (r, _) => woMask r.flds (c.reg k)
    | none => 0

/-- The fields of register `k` that a read clears, back at their reset values (R4 RC). -/
def Card.clearRc (c : Card) (k : Nat) : Card :=
  match findReg (keySpace k).1.regs (keySpace k).2 with
  | some (r, _) =>
    let w := r.flds.foldl (fun w f => if f.acc == .rc then ins w f.hi f.lo f.reset else w) (c.reg k)
    if r.flds.any (fun f => f.acc == .rc) then c.setReg k w else c
  | none => c

/-- The value a host read of register `k` returns: the _HI of a pair returns the upper half of the capture, when there
is one (R7). -/
def Card.hostValue (c : Card) (k : Nat) : Word :=
  if keyIsHi k then
    match c.caps.find? (fun e => e.1 == k - 4) with
    | some e => e.2
    | none => c.peek k
  else c.peek k

/-- The effect of a full aligned host read of register `k`: RC fields clear, a _LO captures the pair. -/
def Card.fullRead (c : Card) (k : Nat) : Card :=
  let c := if keyIsLo k then { c with caps := tabIns c.caps k (c.peek (k + 4)) } else c
  c.clearRc k

/-- The register that an offset of a VF's semaphore window names, if it lies in the VF's range (R85, R122). -/
def Card.vfSemKey (c : Card) (h v off : Nat) : Option Nat :=
  let l := (off - 0x20000) / 8
  if 0x20000 ≤ off ∧ off < 0x28000 ∧ l < (c.vfSems h v).2 then
    some (hp h (0x20000 + 8 * ((c.vfSems h v).1 + l) + off % 8))
  else none

/-- The register that a host access names, the semaphore window of a VF included. -/
def Card.target (c : Card) (fn : Fn) (off : Nat) : Option Nat :=
  match fn with
  | .vf h v => if 0x20000 ≤ off then c.vfSemKey h.val v.val off else c.regAt fn off
  | _ => c.regAt fn off

/-- A full aligned 32-bit read of the register at an offset: what it returns, and the card after it (R4, R6, R7). A PF0
block not yet open answers reset values (R514). -/
def Card.readWord (c : Card) (fn : Fn) (off : Nat) : Word × Card :=
  match c.target fn off with
  | none => (0, c)
  | some k => if fn == .pf0 && !c.bootOpen off then (regReset k, c) else (c.hostValue k, c.fullRead k)

/-- A host read of `size` bytes at an offset of a function's BAR0: all-ones from a hamper function while frozen (R18)
and while its reset has not reached step 5 (R90), reset values from a PF0 block not yet open (R514). A full aligned 32-bit
read clears and captures; an aligned 64-bit read is two of them, lower address first; every other read returns the
addressed bytes (R6). A 64-bit read that is not 8-byte aligned is such a one
(DESIGN CHOICE, assumption log entry 123). -/
def Card.read32 (c : Card) (fn : Fn) (off size : Nat) : Card :=
  let ones := List.replicate size (0xFF : Byte)
  if !c.claims fn then (c.unclaimed fn false (some c.freeN)).draw
  else if (fn.hamper.isSome && c.frozen) || c.dark fn then c.emit (.readData fn.num off ones)
  else if size = 8 ∧ off % 8 = 0 then
    let lo := c.readWord fn off
    let hi := lo.2.readWord fn (off + 4)
    hi.2.emit (.readData fn.num off (leBytes 4 lo.1.toNat ++ leBytes 4 hi.1.toNat))
  else
    let a := off / 4 * 4
    match c.target fn a with
    | none => c.emit (.readData fn.num off (List.replicate size 0))
    | some k =>
      if fn == .pf0 && !c.bootOpen off then
        c.emit (.readData fn.num off (leBytes size ((regReset k).toNat / 256 ^ (off - a))))
      else
        let w := (c.hostValue k).toNat +
          2 ^ 32 * (match c.target fn (a + 4) with | some k' => (c.hostValue k').toNat | none => 0)
        let c' := c.emit (.readData fn.num off (leBytes size (w / 256 ^ (off - a))))
        if size = 4 ∧ off % 4 = 0 then c'.fullRead k else c'

/-! ### What a write changes -/

/-- A field may not be changed now. -/
def Card.locked (c : Card) (sp : Space) (off : Nat) : Lock → Bool
  | .open_ => false
  | .ringOff => match sp with | .hp h => c.ringState h ((off - 0x10000) / 0x1000) != 0 | _ => false
  | .recOff => match sp with | .hp h => c.bit (hp h (0x10108 + 0x1000 * ((off - 0x10000) / 0x1000))) 31 | _ => false
  | .poolOff => match sp with
    | .hp h => c.bit (hp h (0x50000 + 0x40 * ((off - 0x50000) / 0x40))) 31 || (tabGet none c.poolChk h).isSome
    | _ => false
  | .vcOff => match sp with | .hp h => c.bit (hp h (0x70100 + 0x80 * ((off - 0x70100) / 0x80))) 31 | _ => false
  | .rpOff => match sp with | .hp h => c.bit (hp h 0x70000) 31 | _ => false
  | .msgOff => c.bit (mg (0xA130 + 0x100 * ((off - 0xA100) / 0x100))) 31
  | .xlIdle => match sp with | .hp h => c.bit (hp h 0x40020) 29 | _ => false
  | .layoutIdle => c.loader.isSome
  | .takeIdle => match sp with | .hp h => c.bit (hp h 0x50418) 30 | _ => false
  | .auditIdle => match sp with | .hp h => c.bit (hp h 0x50430) 30 | _ => false
  | .progIdle => c.bit (mg 0x4018) 30 || c.bit (mg 0x4018) 29
  | .roIdle => c.bit (mg 0x5100) 30
  | .reinstIdle => match sp with | .hp h => c.bit (hp h 0xE000C) 30 | _ => false
  | .colReinstIdle => c.bit (mg 0xC010) 30
  | .dvOff => c.bit (mg 0xA100) 31 || c.bit (mg 0xA200) 31
  | .tkIdle => match sp with | .hp h => (c.tracker h).batch.isSome || (c.tracker h).tracks.any (fun e => e.2.state != 0) | _ => false

/-- A field value that the field's encoding lists (R8)
(DEDUCED, assumption log entry 48). -/
def Chk.ok : Chk → Nat → Bool
  | .any, _ => true
  | .nz, v => v != 0
  | .rng lo hi, v => decide (lo ≤ v) && decide (v ≤ hi)
  | .mult m, v => v % m == 0
  | .among l, v => l.contains v

/-- A register after a write of `v`, field by field (R4). -/
def writeFlds (locked : Lock → Bool) (fs : List Fld) (old v : Word) : Word :=
  fs.foldl (fun w f =>
    let x := fld v f.hi f.lo
    match f.acc with
    | .rw | .load => if locked f.lock || !f.chk.ok x then w else ins w f.hi f.lo x
    | .w1c => ins w f.hi f.lo (fld w f.hi f.lo &&& (2 ^ 32 - 1 - x))
    | .w1s => ins w f.hi f.lo (fld w f.hi f.lo ||| x)
    | .ro | .wo | .rc | .own => w) old

/-- Rules that judge a written register as a whole. MG_AVS_LIMITS: both values in 700 to 900, multiples of 5, FLOOR_MV
no higher than CEIL_MV (R42). MG_RO_LEN: 4 to 2,048, a multiple of 4 (R445). -/
def wholeOk (k : Nat) (v : Word) : Bool :=
  if k = mg 0x1004 then
    let fl := fld v 31 16
    let ce := fld v 15 0
    decide (700 ≤ fl) && decide (fl ≤ ce) && decide (ce ≤ 900) && fl % 5 == 0 && ce % 5 == 0
  else if k = mg 0x510C then decide (4 ≤ fld v 11 0) && decide (fld v 11 0 ≤ 2048) && fld v 11 0 % 4 == 0
  else true

/-- The retention bits of MG_MEM_RETAIN word `i` that regions hold at 1 (R189): `held` gives them rank by rank. -/
def retainMask (held : Nat → Nat) (i : Nat) : Nat :=
  (List.range 4).foldl (fun a j => a + (held (4 * i + j) % 256) * 256 ^ j) 0

/-- The segments of rank `k` that a region of an active or pending layout touches (R189). -/
def Card.rankSegs (c : Card) (k : Nat) : Nat :=
  let ls := hampers.flatMap (fun h => (c.lay h).toList ++ (tabGet none c.pendLay h).toList)
  let es := (ls.flatMap (fun l => l.regions)).filter (fun e => nbit e.channels (k / 2))
  (List.range 8).foldl (fun a s =>
    if es.any (fun e => rangesMeet e.offset e.size (8192 * (k % 2) + 1024 * s) 1024) then a + 2 ^ s else a) 0

/-- The other rank of rank `k`'s migration (R197). -/
def Card.rankPeer (c : Card) (k : Nat) : Nat := c.f (mg (0x8010 + 4 * (k / 4))) (8 * (k % 4) + 7) (8 * (k % 4) + 4)

/-- The logical rank whose addresses a rank holds (R195): the rank redirected to it, or itself. -/
def Card.logicalOf (c : Card) (k : Nat) : Nat :=
  match c.redirect.find? (fun e => e.2 == some k) with
  | some e => e.1
  | none => k

/-- The segments of rank `k` whose retention bits read 1: its own regions', those of the rank whose addresses it holds, and, for
a HOSTING rank that is a migration's target, those of the rank that its source holds the addresses of (R189, R582). -/
def Card.retained (c : Card) (k : Nat) : Nat :=
  c.rankSegs k ||| c.rankSegs (c.logicalOf k) ||| (if c.rankState k = 5 then c.rankSegs (c.logicalOf (c.rankPeer k)) else 0)

/-- A port that is not yet trained trains from MEM_READY on, while a cable is detected and ENABLE reads 1 (R529)
(DEDUCED, assumption log entry 43). -/
def Card.trainPort (c : Card) (p : Nat) : Card :=
  let st := c.f (mg (0xA104 + 0x100 * p)) 2 0
  if (st = 0 ∨ st = 4) ∧ c.bit (mg (0xA100 + 0x100 * p)) 31 ∧ c.bit (mg 0x0028) (2 + p) ∧ 5 ≤ c.stage then
    c.setF (mg (0xA104 + 0x100 * p)) 2 0 1
  else c

/-- The present request (R37): one not yet acknowledged counts
(DEDUCED, assumption log entry 42). -/
def Card.avsRequest (c : Card) : Nat := c.avs.pending.getD (c.f (mg 0x1008) 15 0)

/-- The window is no longer held once the request differs from the effective ceiling (R37, R44). -/
def Card.judgeHeld (c : Card) : Card :=
  { c with avs := { c.avs with held := c.avs.held && c.avsRequest == c.effCeil } }

/-- The SEARCH operations queued at a colander that takes no more are refused (R222, R226): COL_UNIT_ABSENT
(DEDUCED, assumption log entry 29). -/
def Card.refuseSearches (c : Card) : Card :=
  let gone := fun (m : Nat) => !c.bit (mg 0xE000) m || tabGet false c.colFence m
  hampers.foldl (fun c h => (List.range 16).foldl (fun (c : Card) r =>
    c.setRing h r { c.ring h r with q := (c.ring h r).q.map (fun (o : Op) =>
      if o.cls = 7 ∧ o.phase = .running ∧ o.held = true ∧ o.started = false ∧ gone o.unit = true then
        { o with phase := .ran, held := false, status := 5, detail := 0xC2, ext := 0 } else o) }) c) c

/-- Host software writes `v` to register `k`: its fields by their access codes, with the registers whose value is held
elsewhere or bound by other state. -/
def Card.writeReg (c : Card) (k : Nat) (v : Word) : Card :=
  let so := keySpace k
  match findReg so.1.regs so.2 with
  | none => c
  | some (r, _) =>
    if so.1 = .mg ∧ 0x8100 ≤ so.2 ∧ so.2 < 0x8900 ∧ so.2 % 0x100 = 0x34 then
      let i := c.delaySel ((so.2 - 0x8100) / 0x100)
      { c with staged := tabPut 0 c.staged i (laneWord (i % 64) (writeFlds (fun _ => false) r.flds (tabGet 0 c.staged i) v)) }
    else if so.1 = .mg ∧ 0x8040 ≤ so.2 ∧ so.2 < 0x8050 then
      c.setReg k (v ||| BitVec.ofNat 32 (retainMask c.retained ((so.2 - 0x8040) / 4)))
    else if so.1 = .mg ∧ 0xA400 ≤ so.2 ∧ so.2 < 0xAC00 ∧ (so.2 % 16 = 4 ∨ so.2 % 16 = 8) then
      { c with holds := tabIns c.holds k (writeFlds (fun _ => false) r.flds 0 v) }
    else if so.1 = .mg ∧ (so.2 = 0x6000 ∨ (0x6800 ≤ so.2 ∧ so.2 < 0x7000)) ∧ c.loader.isSome then c.bump (mg 0x6008) 1
    else if k = mg 0xA100 ∨ k = mg 0xA200 then
      (c.setReg k (writeFlds (c.locked so.1 so.2) r.flds (c.reg k) v)).trainPort ((so.2 - 0xA100) / 0x100)
    else if so.2 = 0x80010 ∧ fld v 15 0 = 0 then c.setReg k 0     -- HIGH reads 0 while THRESH_US is 0 (R300)
    else if k = mg 0xE000 then (c.setReg k (writeFlds (c.locked so.1 so.2) r.flds (c.reg k) v)).refuseSearches
    else if k = mg 0x1004 ∧ wholeOk k v then (c.setReg k (writeFlds (c.locked so.1 so.2) r.flds (c.reg k) v)).judgeHeld
    else if k = mg 0x1100 ∨ k = mg 0x1104 then c.noteGov.setReg k (writeFlds (c.locked so.1 so.2) r.flds (c.reg k) v)
    else if wholeOk k v then
      let armed := decide (k = mg 0x5030) && fld v 31 31 == 1 && !c.bit (mg 0x5030) 31
      { c.setReg k (writeFlds (c.locked so.1 so.2) r.flds (c.reg k) v) with
        matchHits := if armed then 0 else c.matchHits }
    else c

/-- A write of the _LO of a pair is held (R17). -/
def Card.holdLo (c : Card) (k : Nat) (v : Word) : Card := { c with holds := tabIns c.holds k v }

/-- The lower half that a write of the _HI applies: the one held, else the register's own (R17). -/
def Card.loFor (c : Card) (k : Nat) : Word :=
  match c.holds.find? (fun e => e.1 == k) with
  | some e => e.2
  | none => c.peek k

/-- The held half of pair `k` has been used. -/
def Card.dropHold (c : Card) (k : Nat) : Card := { c with holds := tabDel c.holds k }

/-- A write of the _HI of a pair applies both halves (R7). `k` is the number of the _HI. -/
def Card.applyHi (c : Card) (k : Nat) (v : Word) : Card :=
  ((c.writeReg (k - 4) (c.loFor (k - 4))).writeReg k v).dropHold (k - 4)

/-- The _HI write of a pair is a command of its own: a semaphore (R122), a context entry (R134), an aperture entry
(R143), a committed address (R268). -/
def hiIsOwn (k : Nat) : Bool :=
  match keySpace k with
  | (.hp _, o) => (decide (0x20000 ≤ o) && decide (o < 0x28000)) || o == 0x4000C ||
      (decide (0x40100 ≤ o) && decide (o < 0x40500)) || (decide (0x70100 ≤ o) && decide (o < 0x70300) && (o - 0x70100) % 0x80 == 0x14)
  | _ => false

/-- A full aligned 32-bit write that has reached register `k`. -/
def Card.write32 (c : Card) (k : Nat) (v : Word) : Card :=
  if keyIsLo k then c.holdLo k v
  else if keyIsHi k then (if hiIsOwn k then c else c.applyHi k v)
  else c.writeReg k v

/-- A host write of `size` bytes at an offset of a function's BAR0: a full aligned 32-bit write, two of them for an
aligned 64-bit write, lower address first; narrower and misaligned writes are dropped (R6). A 64-bit write that is not
8-byte aligned is dropped too (DESIGN CHOICE, assumption log entry 123). -/
def Card.mmioWrite (c : Card) (fn : Fn) (off size value : Nat) : Card :=
  let one := fun (c : Card) (off : Nat) (v : Nat) => c.hostWrite fn off (fun c =>
    if c.pageBlocked fn off then c
    else match c.regAt fn off with
      | some k => c.write32 k (BitVec.ofNat 32 v)
      | none => c)
  if size = 4 ∧ off % 4 = 0 then one c off value
  else if size = 8 ∧ off % 8 = 0 then one (one c off value) (off + 4) (value / 2 ^ 32)
  else c.hostWrite fn off id

/-- A host write of `size` bytes to a BAR4 at an offset where no doorbell is rung: it follows R5, and is dropped and counted as
every write of the function's BARs is. -/
def Card.bar4Write (c : Card) (fn : Fn) (off : Nat) : Card := match fn with | .pf0 => c | _ => c.hostWrite fn off id

/-- A host read of a BAR4 (R5, R82): zeros; all-ones while frozen and while the function's reset has not reached step 5. -/
def Card.bar4Read (c : Card) (fn : Fn) (off size : Nat) : Card :=
  match fn with
  | .pf0 => c
  | _ =>
    if !c.claims fn then (c.unclaimed fn false (some c.freeN)).draw
    else c.emit (.readData fn.num off (List.replicate size (if c.frozen || c.dark fn then 0xFF else 0)))

/-- The function answers configuration requests: PF0 while the card is powered, a hamper PF once exposed, a VF while it exists. -/
def Card.fnThere (c : Card) : Fn → Bool
  | .pf0 => c.on
  | .pf h => c.on && (c.fnOf (h.val + 1)).exposed
  | .vf h v => c.on && c.vfExists h.val v.val

/-- The size and the low type bits of BAR `i` of PF number `n`, or of the VF BARs of a hamper PF (R81): 64-bit, BAR2 alone
prefetchable; 0 where the function has none. -/
def barShape (n i : Nat) (vf : Bool) : Nat × Nat :=
  match i with
  | 0 => (if vf then 2 ^ 18 else if n = 0 then 2 ^ 16 else 2 ^ 20, 0x4)
  | 2 => if n = 0 then (0, 0) else (bar2Size vf, 0xC)
  | 4 => if n = 0 then (0, 0) else (2 ^ 16, 0x4)
  | _ => (0, 0)

/-- An address as a BAR of a size holds it. -/
def barHold (size v : Nat) : Nat := if size = 0 then 0 else v / size * size

/-- What a field of configuration space reads (R74, R75, R77, R79 to R81). -/
def Card.configValue (c : Card) (fn : Fn) (fl : CfgField) : Nat :=
  let n := fn.num
  let g := c.cfgOf n
  let pf := decide (n < 8)
  let sriov := match fn with | .pf _ => true | _ => false
  let aer : Aer := tabGet {} c.aer n
  let on := fun (p : Bool) (v : Nat) => if p then v else 0
  match fl with
  | .vendorId => 0x1F1E
  | .subsystemVendorId => 0x1F1E
  | .subsystemId => 0x4640
  | .classCode => 0x120000
  | .revisionId => 0x11
  | .deviceId => match fn with | .pf0 => 0x4640 | .pf _ => 0x4641 | .vf _ _ => 0x4642
  | .interruptPin => 0
  | .flrCapable => on (n != 0) 1
  | .noSoftReset => 0
  | .memorySpaceEnable => on pf (b2n g.mse)
  | .busMasterEnable => b2n g.bme
  | .msixEnable => b2n g.msixEn
  | .msixFunctionMask => b2n g.msixMask
  | .ptmEnable => b2n g.ptmEn
  | .vfEnable => on sriov (b2n g.vfEn)
  | .vfMse => on sriov (b2n g.vfMse)
  | .ariCapable => on sriov (b2n g.ari)
  | .numVfs => on sriov g.numVfs
  | .totalVfs => on sriov 8
  | .initialVfs => on sriov 8
  | .vfStride => on sriov 1
  | .firstVfOffset => on sriov (7 * n)
  | .ariCapability => on pf 1
  | .acsPeer => 0
  | .completionTimeoutValue => on sriov g.ctoVal
  | .completionTimeoutDisable => on sriov (b2n g.ctoDis)
  | .maxPayloadSize => on pf g.mps
  | .maxReadRequestSize => on pf g.mrrs
  | .aspm => on pf (2 * b2n g.aspmL1)
  | .powerState => on pf (3 * b2n g.d3)
  | .aerUncorrectable => on pf aer.unc.toNat
  | .aerCorrectable => on pf aer.cor.toNat
  | .aerSeverity => on pf aer.sev.toNat
  | .aerHeader => on pf aer.hdr
  | .serialNumber => on (n == 0) (c.pair (mg 0x0008) (mg 0x000C))
  | .bar i => on (pf && (barShape n i false).1 != 0) (tabGet 0 g.bars i + (barShape n i false).2)
  | .vfBar i => on (sriov && (barShape n i true).1 != 0) (tabGet 0 g.vfBars i + (barShape n i true).2)

/-- A configuration read: a function that does not answer completes it as an Unsupported Request. -/
def Card.configRead (c : Card) (fn : Fn) (fl : CfgField) : Card :=
  if c.fnThere fn then c.emit (.cfgData fn.num (c.configValue fn fl)) else c.emit (.unsupported fn.num)

/-- A host write of a configuration field. Configuration requests are answered at all times (R74); a VF's own Command
register has no Memory Space Enable (R580), ARI Capable Hierarchy is PF1's alone, NumVFs keeps its value while VF
Enable is 1 or for a value above 8 (R75), and the Completion Timeout fields and PTM are where R80 and R33 put them. Clearing
ARI Capable Hierarchy leaves VFs that are enabled as they are (DESIGN CHOICE, assumption log entry 132). A Max_Payload_Size
above 512 or a Max_Read_Request_Size above 4,096 leaves the field unchanged, and L0s is no value of ASPM (R77). The hamper PFs'
entries to and exits from D3hot are rows of their own. -/
def Card.configWrite (c : Card) (fn : Fn) (fl : CfgField) (v : Nat) : Card :=
  let n := fn.num
  let g := c.cfgOf n
  let isPf := fn.hamper.isNone || n < 8
  let hasSriov := match fn with | .pf _ => true | _ => false
  if !c.fnThere fn then c
  else match fl with
  | .memorySpaceEnable => if isPf then c.setCfg n { g with mse := v % 2 == 1 } else c
  | .vfMse => if hasSriov then c.setCfg n { g with vfMse := v % 2 == 1 } else c
  | .msixEnable => c.setCfg n { g with msixEn := v % 2 == 1 }
  | .msixFunctionMask => c.setCfg n { g with msixMask := v % 2 == 1 }
  | .ptmEnable => if n = 0 ∧ v % 2 = 1 then c.setCfg n { g with ptmEn := true } else c
  | .ariCapable => if n = 1 then c.setCfg n { g with ari := v % 2 == 1 } else c
  | .numVfs => if hasSriov && !g.vfEn && decide (v ≤ 8) then c.setCfg n { g with numVfs := v } else c
  | .completionTimeoutValue => if hasSriov then c.setCfg n { g with ctoVal := v % 16 } else c
  | .completionTimeoutDisable => if hasSriov then c.setCfg n { g with ctoDis := v % 2 == 1 } else c
  | .aerUncorrectable =>
    if isPf then
      let a := tabGet {} c.aer n
      { c with aer := tabPut {} c.aer n { a with unc := a.unc &&& ~~~ (BitVec.ofNat 32 v) } }
    else c
  | .aerCorrectable =>
    if isPf then
      let a := tabGet {} c.aer n
      { c with aer := tabPut {} c.aer n { a with cor := a.cor &&& ~~~ (BitVec.ofNat 32 v) } }
    else c
  | .aerSeverity =>
    if isPf then { c with aer := tabPut {} c.aer n { (tabGet {} c.aer n : Aer) with sev := BitVec.ofNat 32 v } } else c
  | .maxPayloadSize => if isPf && decide (v ≤ 2) then c.setCfg n { g with mps := v } else c
  | .maxReadRequestSize => if isPf && decide (v ≤ 5) then c.setCfg n { g with mrrs := v } else c
  | .aspm => if isPf then c.setCfg n { g with aspmL1 := nbit v 1 } else c
  | .powerState => if n = 0 ∧ (v = 0 ∨ v = 3) then c.setCfg n { g with d3 := v == 3 } else c
  | .bar i => if isPf then c.setCfg n { g with bars := tabPut 0 g.bars i (barHold (barShape n i false).1 v) } else c
  | .vfBar i => if hasSriov then c.setCfg n { g with vfBars := tabPut 0 g.vfBars i (barHold (barShape n i true).1 v) } else c
  | .busMasterEnable | .vfEnable | .aerHeader | .vendorId | .deviceId | .subsystemVendorId | .subsystemId | .classCode
  | .revisionId | .interruptPin | .flrCapable | .noSoftReset | .totalVfs | .initialVfs | .firstVfOffset | .vfStride
  | .serialNumber | .ariCapability | .acsPeer => c

/-! ### The commands -/

/-- REGISTER_WRITE (R4 to R8). -/
def execRegisterWrite (w : RegWrite) (s : State) : Host.Outcome State Fault Refusal :=
  s.run fun c => match w with
    | .mmio fn off size v => c.mmioWrite fn off size v
    | .bar4 fn off _ _ => c.bar4Write fn off
    | .config fn f v => c.configWrite fn f v

/-- RC_FIELD_READ (R4 to R6, R15, R16, R74, R82). -/
def execRcFieldRead (fn : Fn) (r : RegRead) (size : Nat) (s : State) : Host.Outcome State Fault Refusal :=
  s.run fun c => match r with
    | .mmio off => c.read32 fn off size
    | .bar4 off => c.bar4Read fn off size
    | .config f => c.configRead fn f

/-- PAIR_LO_READ (R7): a full read of a _LO register. -/
def execPairLoRead (fn : Fn) (off : Nat) (s : State) : Host.Outcome State Fault Refusal :=
  s.run fun c => c.read32 fn off 4

/-- PAIR_LO_WRITE (R17): the value is held; nothing is applied. -/
def execPairLoWrite (fn : Fn) (off : Nat) (v : Word) (s : State) : Host.Outcome State Fault Refusal :=
  s.run fun c => c.hostWrite fn off fun c =>
    if c.pageBlocked fn off then c
    else match c.target fn off with
      | some k => if keyIsLo k then c.holdLo k v else c
      | none => c

/-- PAIR_HI_WRITE (R7, R17): both halves are applied at once. -/
def execPairHiWrite (fn : Fn) (off : Nat) (v : Word) (s : State) : Host.Outcome State Fault Refusal :=
  s.run fun c => c.hostWrite fn off fun c =>
    if c.pageBlocked fn off then c
    else match c.regAt fn off with
      | some k => if keyIsHi k && !hiIsOwn k then c.applyHi k v else c
      | none => c

/-- FROZEN_BAR_ACCESS (R18, R436): while frozen a read of a hamper BAR returns all-ones, and a write is dropped and
counted. -/
def execFrozenBarAccess (h : Fin 4) (acc : BarAccess) (s : State) : Host.Outcome State Fault Refusal :=
  s.run fun c =>
    if !c.frozen || acc.fn.hamper != some h.val then c
    else if !c.claims acc.fn then (c.unclaimed acc.fn acc.write (some c.freeN)).draw
    else if acc.write then c.bump (mg (0x5020 + 4 * h.val)) 1
    else c.emit (.readData acc.fn.num 0 (List.replicate acc.len 0xFF))

end Sys2Proof.Machine
end

