-- ==== Sys2Proof/Machine/Memory.lean ====
section
/-! DEFINITION. Card memory: channel addresses, ranks and redirection, check lines and POISON bits (spec/08 R174 to
R177, R182, R194, R582), the memory-side cache and open rows, hamper SRAM, and access to a region (spec/06 R136). -/

namespace Sys2Proof.Machine

/-- DETAIL codes of memory accesses (R148, R200). -/
abbrev dNotValid : Nat := 0x80
abbrev dBadEntry : Nat := 0x81
abbrev dWriteDenied : Nat := 0x82
abbrev dRegionDenied : Nat := 0x83
abbrev dRegionRange : Nat := 0x84
abbrev dPictureConfined : Nat := 0x85
abbrev dSparseEmpty : Nat := 0x86
abbrev dRemoteDenied : Nat := 0x87
abbrev dCtxDisabled : Nat := 0x88
abbrev dHostWrite : Nat := 0x89
abbrev dMemUncorrected : Nat := 0xB0
abbrev dRankLost : Nat := 0xB1

/-- The attributes of a region (R59). -/
def RegionEnt.ecc (e : RegionEnt) : Bool := nbit e.attr 0
def RegionEnt.picture (e : RegionEnt) : Bool := nbit e.attr 1
def RegionEnt.colander (e : RegionEnt) : Bool := nbit e.attr 2
def RegionEnt.hostread (e : RegionEnt) : Bool := nbit e.attr 3

/-- The channel and the channel address of a region's data offset (R175, R176). -/
def RegionEnt.chanAddr (e : RegionEnt) (d : Nat) : Nat × Nat :=
  let cs := maskList e.channels 8
  let g := d / 4096
  let ch := cs.getD (g % cs.length) 0
  let x := g / cs.length * 4096 + d % 4096
  if e.ecc then (ch, e.offset * 0x200000 + 512 * (x / 448) + x % 448) else (ch, e.offset * 0x200000 + x)

/-- The fields of a channel address (R174). -/
def addrRow (a : Nat) : Nat := nbits a 33 18
def addrRank (a : Nat) : Nat := nbits a 34 34
def addrSub (a : Nat) : Nat := nbits a 6 6
def addrBank (a : Nat) : Nat := nbits a 17 16
def addrBankGroup (a : Nat) : Nat := nbits a 11 9 ^^^ nbits a 20 18
def addrCol (a : Nat) : Nat := nbits a 15 12 * 4 + nbits a 8 7

/-- A chunk is among the `done` chunks copied from `start` on, in the order of R193. -/
def copied (start done chunk : Nat) : Bool := decide ((chunk + 65536 - start) % 65536 < done)

/-- The rank that holds a chunk of a migrating source: the target once redirected, else a failed target that took it,
else the source (R193, R203). -/
def Migration.holder (m : Migration) (chunk : Nat) : Nat :=
  if copied m.start m.done chunk then m.target
  else match m.prevs.find? (fun p => copied p.start p.done chunk) with
    | some p => p.rank
    | none => m.source

/-- The rank that holds a chunk of logical rank `k`: the rank its addresses are redirected to (R195), or itself; the
migration decides for its source; a LOST or ABSENT rank holds nothing (R202). -/
def Card.holderOf (c : Card) (k chunk : Nat) : Option Nat :=
  let gone := fun j => c.rankState j == 0 || c.rankState j == 6
  let base := (tabGet none c.redirect k).getD k
  if gone k || gone base then none
  else match c.migr with
    | some m => if m.source = base then some (m.holder chunk) else some base
    | none => some base



/-- Where a channel address lies: the physical rank and the number of the byte in card memory; none on a LOST or ABSENT
rank (R202). -/
def Card.phys (c : Card) (ch a : Nat) : Option (Nat × Nat) :=
  (c.holderOf (2 * ch + addrRank a) (addrRow a)).map (fun k => (k, k * 2 ^ 34 + a % 2 ^ 34))

/-- The chunk that the running migration is copying: the logical rank and its row (R193). -/
def Card.copying (c : Card) : Option (Nat × Nat) :=
  c.migr.map (fun m => (c.logicalOf m.source, (m.start + m.done) % 65536))

/-- The access falls on the chunk that a running migration is copying, and is held (R193). -/
def Card.heldChunk (c : Card) (ch a : Nat) : Bool := c.copying == some (2 * ch + addrRank a, addrRow a)

/-- An access to a region's bytes is held: some line of it lies on the chunk being copied (R193), or an earlier access to one
of its lines is held, which none overtakes (R194). -/
def Card.spanHeld (c : Card) (e : RegionEnt) (d n : Nat) : Bool :=
  decide (0 < n) &&
  ((List.range (n / 64 + 2)).any (fun i =>
    let x := e.chanAddr (min (d / 64 * 64 + 64 * i) (d + n - 1))
    c.heldChunk x.1 x.2) ||
   c.heldAcc.any (fun x => !x.fill && x.region == e.num && rangesMeet (x.off / 64 * 64) ((x.off % 64 + x.len + 63) / 64 * 64) d n))

/-- The rank that holds a line waits to be retired, or is the source or a failed target of the running migration: an access
that met a persisting error there waits until the line's chunk is held elsewhere (R194). -/
def Card.awaitsCopy (c : Card) (e : RegionEnt) (d : Nat) : Bool :=
  match c.phys (e.chanAddr d).1 (e.chanAddr d).2 with
  | some (k, _) => c.migrQ.any (fun q => q.1 == k) || c.migr.any (fun m => m.source == k || m.prevs.any (fun p => p.rank == k))
  | none => false

/-- The channel address that a byte of card memory serves, through redirection and migration. -/
def Card.servedAt (c : Card) (key : Nat) : Option (Nat × Nat) :=
  let a := key % 2 ^ 34
  ((List.range 16).find? (fun j => c.holderOf j (addrRow a) == some (key / 2 ^ 34))).map (fun j => (j / 2, (j % 2) * 2 ^ 34 + a))

/-- The physical ranks that hold chunks of logical rank `k`: the one its addresses go to, and those of its migration. -/
def Card.homes (c : Card) (k : Nat) : List Nat :=
  let base := (tabGet none c.redirect k).getD k
  base :: match c.migr with
    | some m => if m.source = base then m.target :: m.prevs.map (fun p => p.rank) else []
    | none => []

/-- The spans of a list but for `[a, b)`. -/
def cutSpan (a b : Nat) (l : List (Nat × Nat)) : List (Nat × Nat) :=
  l.flatMap (fun s => (if s.1 < min a s.2 then [(s.1, min a s.2)] else []) ++ (if max b s.1 < s.2 then [(max b s.1, s.2)] else []))

/-- The byte's chunk lost its contents in self-refresh, and nothing has filled it since (R190). -/
def Card.isLost (c : Card) (key : Nat) : Bool := c.lost.any (fun s => decide (s.1 ≤ key / 2 ^ 18) && decide (key / 2 ^ 18 < s.2))

/-- The rows of each logical rank that a region spans: rank, first row, one past the last (R59, R174). -/
def RegionEnt.rowSpans (e : RegionEnt) : List (Nat × Nat × Nat) :=
  (maskList e.channels 8).flatMap (fun ch => [0, 1].filterMap (fun j =>
    let a := max (8 * e.offset) (65536 * j)
    let b := min (8 * (e.offset + e.size)) (65536 * (j + 1))
    if a < b then some (2 * ch + j, a - 65536 * j, b - 65536 * j) else none))

/-- A channel address lies in one of some spans of rows. -/
def inRows (l : List (Nat × Nat × Nat)) (ch a : Nat) : Bool :=
  l.any (fun x => x.1 == 2 * ch + addrRank a && decide (x.2.1 ≤ addrRow a) && decide (addrRow a < x.2.2))

/-- What a byte of card memory that nothing has written reads as: 0 (DESIGN CHOICE, assumption log entry 3). -/
abbrev memDefault : Byte := 0

/-- The canonical form of card memory, and of hamper SRAM: addresses strictly rising, no entry equal to what an unlisted
address reads as. -/
def Memory.wf (m : List Host.Cell) : Bool := tabWf (fun _ => memDefault) m

/-- One byte of card memory, by its number. -/
def Card.memAt (c : Card) (key : Nat) : Byte := tabGet memDefault c.mem key

/-- One byte of card memory, set. -/
def Card.memPut (c : Card) (key : Nat) (b : Byte) : Card := { c with mem := tabPut memDefault c.mem key b }

/-- The check line's POISON byte of the block that holds an ECC channel address: its number, and the line's bit. -/
def poisonKey (key : Nat) : Nat × Nat := (key / 512 * 512 + 504, key % 512 / 64)

/-- The POISON bit of the line that holds byte `key` of an ECC region (R176). -/
def Card.poisoned (c : Card) (key : Nat) : Bool := nbit (c.memAt (poisonKey key).1).toNat (poisonKey key).2

/-- The POISON bit of that line, set or cleared. -/
def Card.setPoison (c : Card) (key : Nat) (b : Bool) : Card :=
  let p := poisonKey key
  c.memPut p.1 (BitVec.ofNat 8 (nput (c.memAt p.1).toNat p.2 p.2 (b2n b)))

/-- The result of an access: a value, or the DETAIL of what failed. -/
abbrev Res (α : Type) := Except Nat α

/-- One byte of a region: MEM_UNCORRECTED from a poisoned line of an ECC region, MEM_RANK_LOST from a LOST rank. -/
def Card.rdByte (c : Card) (e : RegionEnt) (d : Nat) : Res Byte :=
  match c.phys (e.chanAddr d).1 (e.chanAddr d).2 with
  | none => .error dRankLost
  | some (_, key) => if e.ecc && c.poisoned key then .error dMemUncorrected else .ok (c.memAt key)

/-- `n` bytes of a region from data offset `d`. -/
def Card.rdRegion (c : Card) (e : RegionEnt) : Nat → Nat → Res (List Byte)
  | _, 0 => .ok []
  | d, n + 1 => do
    let b ← c.rdByte e d
    let t ← c.rdRegion e (d + 1) n
    return b :: t

/-- The bytes of a list written from data offset `d` on; bytes on a LOST rank are dropped (R202). -/
def Card.putBytes (c : Card) (e : RegionEnt) : Nat → List Byte → Card
  | _, [] => c
  | d, b :: t =>
    match c.phys (e.chanAddr d).1 (e.chanAddr d).2 with
    | none => c.putBytes e (d + 1) t
    | some (_, key) => (c.memPut key b).putBytes e (d + 1) t

/-- A whole-line write clears the line's POISON bit (R177): every line of an ECC region wholly inside the write. -/
def Card.clearLines (c : Card) (e : RegionEnt) (d n : Nat) : Card :=
  let first := ceilDiv d 64
  if e.ecc then
    (List.range ((d + n) / 64 - first)).foldl (fun c i =>
      match c.phys (e.chanAddr (64 * (first + i))).1 (e.chanAddr (64 * (first + i))).2 with
      | some (_, key) => if c.poisoned key then c.setPoison key false else c
      | none => c) c
  else c

/-- A write of bytes to a region's data space. -/
def Card.wrRegion (c : Card) (e : RegionEnt) (d : Nat) (bs : List Byte) : Card :=
  (c.putBytes e d bs).clearLines e d bs.length

/-- Some byte of `[d, d + n)` lies on a rank that is lost. -/
def Card.anyLost (c : Card) (e : RegionEnt) (d n : Nat) : Bool :=
  (List.range (n / 64 + 2)).any (fun i =>
    let x := min (d / 64 * 64 + 64 * i) (d + n - 1)
    decide (0 < n) && (c.phys (e.chanAddr x).1 (e.chanAddr x).2).isNone)

/-- The owner check of R136. -/
def Owner.admits (o : Owner) (ctx : Nat) : Bool := ctx == 0 || ((ctx ^^^ o.mtch) &&& o.mask) == 0

/-- A request of `n` bytes with context `ctx` to a region's data space: the region's entry, or what denies it
(R136, R148, R154). -/
def Card.region (c : Card) (ctx reg d n : Nat) : Res RegionEnt :=
  match c.regionOf reg with
  | none => .error dRegionRange
  | some (_, e) =>
    if !(tabGet {} c.owners reg : Owner).admits ctx then .error dRegionDenied
    else if e.dataSize < d + n then .error dRegionRange
    else .ok e

/-! ### Hamper SRAM -/

/-- Bytes of hamper `h`'s SRAM from offset `o`. -/
def Card.sramRd (c : Card) (h o n : Nat) : List Byte := (List.range n).map (fun i => tabGet 0 c.sram (h * 2 ^ 26 + o + i))

/-- Bytes written to hamper `h`'s SRAM from offset `o`. -/
def Card.sramWr (c : Card) (h : Nat) : Nat → List Byte → Card
  | _, [] => c
  | o, b :: t => { c with sram := tabPut 0 c.sram (h * 2 ^ 26 + o) b }.sramWr h (o + 1) t

/-- The SRAM partition of hamper `h` in bytes: pool space, staging, track state, in that order from offset 0
(DEDUCED: R57 gives the three sizes; assumption log entry 12). -/
def Card.sramPart (c : Card) (h : Nat) : Nat × Nat × Nat :=
  match c.lay h with
  | some l => (l.pool * 0x40000, l.staging * 0x40000, l.track * 0x40000)
  | none => (0, 0, 0)

/-! ### Open rows and the cache -/

/-- The number of the bank that holds an address of a physical rank. -/
def bankKey (rank a : Nat) : Nat := ((rank * 2 + addrSub a) * 8 + addrBankGroup a) * 4 + addrBank a

/-- A channel is accessed: it leaves idle self-refresh (R190). -/
def Card.wakeChannel (c : Card) (ch : Nat) : Card :=
  let page := mg (0x8100 + 0x100 * ch)
  { (if c.f page 2 0 = 2 then c.setF page 2 0 1 else c) with lastUse := tabPut 0 c.lastUse ch c.ns }

/-- One DRAM access: the row is a hit or is opened, and the channel leaves idle self-refresh (R178, R190). -/
def Card.dramTouch (c : Card) (rank a : Nat) : Card :=
  let page := mg (0x8100 + 0x100 * (rank / 2))
  let hit := tabGet 0 c.rowsOpen (bankKey rank a) == addrRow a + 1
  let c := (c.bump (page + (if hit then 0x14 else 0x18)) 1).wakeChannel (rank / 2)
  { c with rowsOpen := tabPut 0 c.rowsOpen (bankKey rank a) (addrRow a + 1) }

/-- Rows `[a, b)` of physical rank `p` accessed throughout, each line once (R178): in every row each of its 64 banks is opened
and then hit for the rest of its 64 lines (DESIGN CHOICE, assumption log entry 129). -/
def Card.rowsTouch (c : Card) (p a b : Nat) : Card :=
  let page := mg (0x8100 + 0x100 * (p / 2))
  let c : Card := { c with rowsOpen := (List.range 64).foldl (fun t i => tabPut 0 t (64 * p + i) b) c.rowsOpen }
  ((c.bump (page + 0x18) (64 * (b - a))).bump (page + 0x14) (4032 * (b - a))).wakeChannel (p / 2)

/-- The cache lines that a predicate on their channel and address picks, gone. -/
def Card.dropLines (c : Card) (p : Nat → Nat → Bool) : Card :=
  { c with cache := c.cache.filter (fun e => !e.2.any (fun l => p (e.1 / 131072) (l.tag * 2 ^ 19 + e.1 / 16 % 8192 * 64))) }

/-- Rows filled with zeros, check lines with them: the cache lines over them are invalid (R182), what self-refresh had lost
there is defined again (R190). -/
def Card.zeroRows (c : Card) (l : List (Nat × Nat × Nat)) : Card :=
  let c : Card := { c.dropLines (inRows l) with
    mem := c.mem.filter (fun x => match c.servedAt x.1 with | some p => !inRows l p.1 p.2 | none => true)
    lost := l.foldl (fun t x => (c.homes x.1).foldl (fun t p => cutSpan (65536 * p + x.2.1) (65536 * p + x.2.2) t) t) c.lost }
  l.foldl (fun c x => match c.holderOf x.1 (x.2.2 - 1) with
    | some p => c.rowsTouch p x.2.1 x.2.2
    | none => c) c

/-- A way of a cache slice. -/
def Card.way (c : Card) (ch set w : Nat) : Option CacheLine := tabGet none c.cache ((ch * 8192 + set) * 16 + w)

/-- A way of a cache slice, set. -/
def Card.setWay (c : Card) (ch set w : Nat) (l : Option CacheLine) : Card :=
  { c with cache := tabPut none c.cache ((ch * 8192 + set) * 16 + w) l }

/-- The least recently used of some ways: an empty one first. -/
def Card.lruWay (c : Card) (ch set : Nat) (ws : List Nat) : Option Nat :=
  let age := fun w => match c.way ch set w with | some l => l.used + 1 | none => 0
  ws.foldl (fun best w => match best with
    | none => some w
    | some b => if age w < age b then some w else some b) none

/-- A cache access is numbered: the least recently used line is the one with the oldest number (R182). -/
def Card.countUse (c : Card) : Card := { c with useCount := c.useCount + 1 }

/-- The DRAM access of a line at a channel address, where the channel has memory there. -/
def Card.lineDram (c : Card) (ch a : Nat) : Card :=
  match c.phys ch a with
  | some (k, _) => c.dramTouch k a
  | none => c

/-- A line access at a channel address by hamper `h` (none: an agent that does not allocate): a hit is served in any
way; a miss reaches DRAM and allocates only into the hamper's ways on its own channels (R182); lines of COLANDER
regions are written through (R183). -/
def Card.lineTouch (c : Card) (h : Option Nat) (through : Bool) (ch a : Nat) (write : Bool) (ep : Option Nat) : Card :=
  let set := nbits a 18 6
  let tag := a / 2 ^ 19
  let c := c.countUse
  match (List.range 16).find? (fun w => (c.way ch set w).any (fun l => l.tag == tag)) with
  | some w =>
    let old := c.way ch set w
    let d := (old.map (fun l => l.dirty)).getD false
    let c := c.setWay ch set w (some ⟨tag, (d || write) && !through, c.useCount, if write then ep else old.bind (fun l => l.epoch)⟩)
    if write && through then c.lineDram ch a else c
  | none =>
    let c := c.lineDram ch a
    let ways := match h.bind c.lay with
      | some l => if nbit l.channels ch then maskList l.ways 16 else []
      | none => []
    match c.lruWay ch set ways with
    | none => c
    | some w =>
      let c := match c.way ch set w with
        | some l => if l.dirty then c.lineDram ch (l.tag * 2 ^ 19 + set * 64) else c
        | none => c
      c.setWay ch set w (some ⟨tag, write && !through, c.useCount, if write then ep else none⟩)

/-- The line accesses of `n` bytes of a region from data offset `d`. -/
def Card.touch (c : Card) (h : Option Nat) (e : RegionEnt) (d n : Nat) (write : Bool) (ep : Option Nat) : Card :=
  if n = 0 then c
  else (List.range ((d + n - 1) / 64 - d / 64 + 1)).foldl
    (fun c i => let x := e.chanAddr (64 * (d / 64 + i)); c.lineTouch h e.colander x.1 x.2 write ep) c

/-! ### Errors (R177, R191, R417) -/

/-- The channel counters, events and capture of an error on physical rank `rank` at a channel address of that rank
(R582): `kind` 1 an uncorrectable data error, 2 a persisting command or write-CRC error. -/
def Card.capture (c : Card) (rank a kind : Nat) : Card :=
  let ch := rank / 2
  let page := mg (0x8100 + 0x100 * ch)
  let c := if kind = 1 then (c.bump (page + 0x08) 1).event 0x802C (8 + ch) 7 else c.event 0x802C ch 7
  if c.bit (page + 0x24) 31 then c
  else ((c.setN (page + 0x20) ((rank % 2 * 2 ^ 34 + a % 2 ^ 34) / 64)).setF (page + 0x24) 29 28 kind).setBit (page + 0x24) 31 true

/-- A corrected error or a replay counted on a channel, and in its drift window (R177, R188). -/
def Card.countCe (c : Card) (ch n : Nat) (replay : Bool) : Card :=
  { c.bump (mg (0x8100 + 0x100 * ch + (if replay then 0x0C else 0x04))) n with
    driftAt := tabPut 0 c.driftAt ch (tabGet 0 c.driftAt ch + n) }

/-- The capacity register (R22, R193, R202): ranks held spare and not yet used; ranks in service, which are those whose
addresses some rank serves; 16 GiB for each. -/
def Card.setCapacity (c : Card) : Card :=
  let spare := ((List.range 16).filter (fun k => c.rankState k == 2)).length
  let serv := ((List.range 16).filter (fun k =>
    c.rankState k == 1 || (c.rankState k == 3 && c.logicalOf k == k) ||
    (c.rankState k == 4 && (tabGet none c.redirect k).isSome && (c.holderOf k 0).isSome))).length
  c.setN (mg 0x0024) (spare * 2 ^ 24 + serv * 2 ^ 16 + 16 * serv)

/-- Rank `k`'s state and peer, set. -/
def Card.setRank (c : Card) (k state peer : Nat) : Card :=
  let r := mg (0x8010 + 4 * (k / 4))
  (c.setF r (8 * (k % 4) + 2) (8 * (k % 4)) state).setF r (8 * (k % 4) + 7) (8 * (k % 4) + 4) peer

end Sys2Proof.Machine
end

