-- ==== Sys2Proof/Machine/Pools.lean ====
section
/-! DEFINITION. Buffer pools (spec/07): takes, frees, the enable and disable checks, the leak audit. -/

namespace Sys2Proof.Machine

/-- Field access of pool `p`'s page. -/
def poolReg (h p off : Nat) : Nat := hp h (0x50000 + 0x40 * p + off)

/-- A pool as its registers give it. -/
structure PoolCfg where
  ladder : Option Nat
  sram : Bool
  region : Nat
  log2 : Nat
  base : Nat     -- in bytes
  count : Nat
deriving DecidableEq, Repr

/-- Pool `p`'s configuration (R162). -/
def Card.poolCfg (c : Card) (h p : Nat) : PoolCfg :=
  let k := poolReg h p 0
  let sram := c.bit k 26
  { ladder := if c.bit k 27 then some (c.f k 25 24) else none
    sram := sram
    region := c.f k 23 16
    log2 := c.f k 4 0
    base := (c.reg (poolReg h p 4)).toNat * (if sram then 256 else 65536)
    count := c.f (poolReg h p 8) 19 0 }

/-- A pool's buffer size in bytes. -/
def PoolCfg.size (q : PoolCfg) : Nat := 2 ^ q.log2

/-- Pool `p` reads ENABLE 1. -/
def Card.poolOn (c : Card) (h p : Nat) : Bool := c.bit (poolReg h p 0) 31

/-- Pool `p` serves takes: enabled, and not under a disable check (R162). -/
def Card.poolServes (c : Card) (h p : Nat) : Bool :=
  c.poolOn h p && !(tabGet none c.poolChk h).any (fun k => k.pool == p)

/-- The number of a buffer in the bookkeeping. -/
def bufKey (h p i : Nat) : Nat := (16 * h + p) * 2 ^ 20 + i

/-- The bookkeeping of a buffer; none when FREE. -/
def Card.buf (c : Card) (h p i : Nat) : Option Buf := tabGet none c.bufs (bufKey h p i)

/-- The bookkeeping of a buffer, set. -/
def Card.setBuf (c : Card) (h p i : Nat) (b : Option Buf) : Card := { c with bufs := tabPut none c.bufs (bufKey h p i) b }

/-- The lowest index from `i` on, among `fuel`, that is FREE. -/
def Card.firstFree (c : Card) (h p : Nat) : Nat → Nat → Option Nat
  | 0, _ => none
  | fuel + 1, i => if (c.buf h p i).isNone then some i else c.firstFree h p fuel (i + 1)

/-- HP_POOL_MIN follows AVAIL after a take or a free (R162). -/
def Card.poolMin (c : Card) (h p : Nat) : Card :=
  c.setF (poolReg h p 0x14) 19 0 (min (c.f (poolReg h p 0x14) 19 0) (c.poolAvail h p))

/-- Why a pool request fails (R157), with the last pool tried. -/
inductive PoolFail where
  | exhausted (pool : Nat)
  | disabled (pool : Nat)
  | tooLarge (pool : Nat)
  | badSelector
deriving DecidableEq, Repr

/-- The DETAIL of a failing engine request (R165). -/
def PoolFail.detail : PoolFail → Nat
  | .exhausted _ => 0xA0
  | .disabled _ => 0xA1
  | .tooLarge _ => 0xA2
  | .badSelector => 0xA3

/-- Insert a pool among others in increasing size. -/
def Card.insSize (c : Card) (h p : Nat) : List Nat → List Nat
  | [] => [p]
  | q :: t => if (c.poolCfg h p).log2 < (c.poolCfg h q).log2 then p :: q :: t else q :: c.insSize h p t

/-- The serving pools of a ladder in increasing size (R155)
(DEDUCED, assumption log entry 57). -/
def Card.ladderPools (c : Card) (h l : Nat) : List Nat :=
  ((List.range 16).filter (fun p => c.poolServes h p && (c.poolCfg h p).ladder == some l)).foldl (fun t p => c.insSize h p t) []

/-- The candidates of a ladder, tried in order: smallest fit, with fallback upward (R157). -/
def Card.ladderTake (c : Card) (h : Nat) : List Nat → Card × Except PoolFail (Nat × Nat)
  | [] => (c, .error .badSelector)
  | q :: rest =>
    match c.firstFree h q (c.poolCfg h q).count 0 with
    | some i => (c, .ok (q, i))
    | none =>
      if rest.isEmpty then (c.bump (poolReg h q 0x1C) 1, .error (.exhausted q))
      else (c.bump (poolReg h q 0x18) 1).ladderTake h rest

/-- The buffer that a request for `n` bytes through a selector receives (R157). -/
def Card.poolFind (c : Card) (h sel n : Nat) : Card × Except PoolFail (Nat × Nat) :=
  if nbits sel 7 5 ≠ 0 ∨ (nbit sel 4 ∧ nbits sel 3 2 ≠ 0) then (c, .error .badSelector)
  else if !nbit sel 4 then
    let p := nbits sel 3 0
    if !c.poolServes h p || (c.poolCfg h p).ladder.isSome then (c, .error (.disabled p))
    else if (c.poolCfg h p).size < n then (c, .error (.tooLarge p))
    else match c.firstFree h p (c.poolCfg h p).count 0 with
      | some i => (c, .ok (p, i))
      | none => (c.bump (poolReg h p 0x1C) 1, .error (.exhausted p))
  else
    let ps := c.ladderPools h (nbits sel 1 0)
    let cand := ps.filter (fun p => decide (n ≤ (c.poolCfg h p).size))
    if ps.isEmpty then (c, .error (.disabled 0))
    else if cand.isEmpty then (c, .error (.tooLarge 0))
    else c.ladderTake h cand

/-- The take of a buffer found: its owner, take time and epoch are recorded, AVAIL falls, and the low-water event is
raised when AVAIL falls from LOW or above to below it (R158, R171). -/
def Card.poolTakeAt (c : Card) (h p i ctx ring : Nat) (ep : Option Nat) : Card :=
  let before := c.poolAvail h p
  let low := c.f (poolReg h p 0x0C) 19 0
  let c := (c.setBuf h p i (some { epoch := ep, ctx := ctx, ring := ring, time := c.ns / 2 ^ 20 })).poolMin h p
  if low ≤ before ∧ c.poolAvail h p < low then c.hpEvent h 0x50400 p 19 else c

/-- A take (R157, R158). -/
def Card.poolTake (c : Card) (h sel n ctx ring : Nat) (ep : Option Nat) : Card × Except PoolFail (Nat × Nat) :=
  match c.poolFind h sel n with
  | (c, .ok (p, i)) => (c.poolTakeAt h p i ctx ring ep, .ok (p, i))
  | r => r

/-- A free (R159): `host` says that it came through HP_POOL_FREE_REG, `late` that it is tagged with a withdrawn epoch. -/
def Card.poolFree (c : Card) (h p i ctx ring : Nat) (host late : Bool) : Card :=
  if late then c
  else if !c.poolOn h p || decide ((c.poolCfg h p).count ≤ i) then c.bump (poolReg h p 0x24) 1
  else match c.buf h p i with
    | some b => if b.held then c.bump (poolReg h p 0x24) 1 else (c.setBuf h p i none).poolMin h p
    | none =>
      let c := if c.bit (hp h 0x50420) 31 then c
        else (c.setN (hp h 0x50420) (2 ^ 31 + p * 2 ^ 24 + i)).setN (hp h 0x50424) (b2n host * 2 ^ 31 + ring * 2 ^ 16 + ctx)
      (c.bump (poolReg h p 0x20) 1).hpEvent h 0x50400 (16 + p) 19

/-- The pool and index of an engine's buffer address in a region, if it is a buffer start. -/
def Card.bufAt (c : Card) (h reg off : Nat) : Option (Nat × Nat) :=
  (List.range 16).findSome? (fun p =>
    let q := c.poolCfg h p
    if c.poolOn h p && !q.sram && q.region == reg && decide (q.base ≤ off) && decide (off < q.base + q.count * q.size)
        && (off - q.base) % q.size == 0
    then some (p, (off - q.base) / q.size) else none)

/-- Every buffer that satisfies a test becomes FREE; the minimum of each pool that this touches follows (R162). -/
def Card.freeWhere (c : Card) (f : Nat → Buf → Bool) : Card :=
  let pools := (c.bufs.filter (fun e => e.2.any (f e.1))).map (fun e => e.1 / 2 ^ 20)
  pools.foldl (fun (c : Card) k => c.poolMin (k / 16) (k % 16)) { c with bufs := c.bufs.filter (fun e => !(e.2.any (f e.1))) }

/-! ### Checks (R163) -/

/-- The span of a pool in bytes. -/
def PoolCfg.span (q : PoolCfg) : Nat := q.count * q.size

/-- The bookkeeping in bytes of the enabled pools and pool `p` (R156). -/
def Card.bookBytes (c : Card) (h p : Nat) : Nat :=
  16 * (((List.range 16).filter (fun q => c.poolOn h q || q == p)).map (fun q => (c.poolCfg h q).count)).sum

/-- The outcome of pool `p`'s enable check: the first failure in table order (R163). -/
def Card.poolEnableCode (c : Card) (h p : Nat) : Nat :=
  let q := c.poolCfg h p
  let space := (c.sramPart h).1
  let others := (List.range 16).filter (fun j => c.poolOn h j && j != p)
  let owned := (c.lay h).bind (fun l => l.regions.find? (fun e => e.num == q.region))
  if q.log2 < 8 ∨ 22 < q.log2 then 1
  else if q.count = 0 then 2
  else if !q.sram && owned.isNone then 3
  else if 16 ≤ q.log2 ∧ q.base % q.size ≠ 0 then 4
  else if (if q.sram then space else (owned.map RegionEnt.dataSize).getD 0) < q.base + q.span then 5
  else if others.any (fun j => let o := c.poolCfg h j
      o.sram == q.sram && (q.sram || o.region == q.region) && rangesMeet o.base o.span q.base q.span) then 6
  else if q.ladder.isSome && others.any (fun j => (c.poolCfg h j).ladder == q.ladder && (c.poolCfg h j).log2 == q.log2) then 7
  else
    let book := c.bookBytes h p
    if space < book ∨ ((p :: others).any (fun j => (c.poolCfg h j).sram &&
        decide (space < (c.poolCfg h j).base + (c.poolCfg h j).span + book))) then 8 else 0

/-- The pool check that a hamper's pool unit has in hand. -/
def Card.setPoolChk (c : Card) (h : Nat) (k : Option PoolCheck) : Card := { c with poolChk := tabPut none c.poolChk h k }

/-- POOL_ENABLE (R162): a write of HP_POOL_CFG with ENABLE 1. The other fields are applied, then the check runs. -/
def execPoolEnable (h : Fin 4) (p : Fin 16) (v : Word) (s : State) : Host.Outcome State Fault Refusal :=
  s.run fun c => c.hostWrite (.pf h) (0x50000 + 0x40 * p.val) fun c =>
    if (tabGet none c.poolChk h.val).isSome || c.poolOn h.val p.val then c
    else
      let c := c.writeReg (poolReg h.val p.val 0) v
      (c.setF (hp h.val 0x50404) 31 31 1).setPoolChk h.val (some ⟨p.val, true⟩)

/-- POOL_DISABLE (R162): a write of HP_POOL_CFG with ENABLE 0. -/
def execPoolDisable (h : Fin 4) (p : Fin 16) (v : Word) (s : State) : Host.Outcome State Fault Refusal :=
  s.run fun c => c.hostWrite (.pf h) (0x50000 + 0x40 * p.val) fun c =>
    if (tabGet none c.poolChk h.val).isSome then c
    else if c.poolOn h.val p.val then
      (c.setF (hp h.val 0x50404) 31 31 1).setPoolChk h.val (some ⟨p.val, false⟩)
    else c.writeReg (poolReg h.val p.val 0) v

/-- POOL_CHECK_DONE (R163): the outcome is reported, and ENABLE changes when it is OK. -/
def execPoolCheckDone (h : Fin 4) (s : State) : Host.Outcome State Fault Refusal :=
  s.run fun c => match tabGet none c.poolChk h.val with
    | none => c
    | some k =>
      let code := if k.enable then c.poolEnableCode h.val k.pool else if c.poolOut h.val k.pool ≠ 0 then 9 else 0
      let c := (c.setN (hp h.val 0x50404) (k.pool * 2 ^ 24 + code)).setPoolChk h.val none
      if code = 0 then
        let c := c.setBit (poolReg h.val k.pool 0) 31 k.enable
        if k.enable then c.setN (poolReg h.val k.pool 0x14) 0xFFFFF else c
      else c

/-- The context is enabled in hamper `h` (R134). -/
def Card.ctxOn (c : Card) (h ctx : Nat) : Bool :=
  (tabGet none c.ctxs ctx).any (fun x => x.hamper == h && x.entry % 2 == 1)

/-- What HP_POOL_TAKE reads after a take (R164): FAILED and REASON, or POOL and INDEX. -/
def takeResult : Except PoolFail (Nat × Nat) → Nat
  | .ok (p, i) => p * 2 ^ 24 + i
  | .error (.exhausted p) => 2 ^ 29 + 1 * 2 ^ 20 + p * 2 ^ 24
  | .error (.disabled p) => 2 ^ 29 + 2 * 2 ^ 20 + p * 2 ^ 24
  | .error (.tooLarge p) => 2 ^ 29 + 3 * 2 ^ 20 + p * 2 ^ 24
  | .error .badSelector => 2 ^ 29 + 6 * 2 ^ 20

/-- POOL_HOST_TAKE (R164). -/
def execPoolHostTake (h : Fin 4) (v : Word) (s : State) : Host.Outcome State Fault Refusal :=
  s.run fun c => c.hostWrite (.pf h) 0x50418 fun c =>
    if fld v 31 31 = 0 then c
    else
      let q := hp h.val 0x50410
      let ctx := c.f q 11 0
      let len := c.f (hp h.val 0x50414) 22 0
      if !c.ctxOn h.val ctx then c.setN (hp h.val 0x50418) (2 ^ 29 + 4 * 2 ^ 20)
      else if len = 0 ∨ 0x400000 < len then c.setN (hp h.val 0x50418) (2 ^ 29 + 5 * 2 ^ 20)
      else
        let r := c.poolTake h.val (c.f q 31 24) len ctx (c.f q 19 16) none
        r.1.setN (hp h.val 0x50418) (takeResult r.2)

/-- POOL_HOST_FREE (R159, R164): a write of HP_POOL_FREE_REG. A host free names no operation, so the captured owner of
a double free reads context 0 and ring 0. -/
def execPoolHostFree (h : Fin 4) (v : Word) (s : State) : Host.Outcome State Fault Refusal :=
  s.run fun c => c.hostWrite (.pf h) 0x50408 fun c => c.poolFree h.val (fld v 27 24) (fld v 19 0) 0 0 true false

/-- POOL_AUDIT (R161): the scan starts. -/
def execPoolAudit (h : Fin 4) (v : Word) (s : State) : Host.Outcome State Fault Refusal :=
  s.run fun c => c.hostWrite (.pf h) 0x50430 fun c =>
    if c.bit (hp h.val 0x50430) 30 then c
    else
      let c := c.writeReg (hp h.val 0x50430) v
      if fld v 31 31 = 1 then c.setBit (hp h.val 0x50430) 30 true else c

/-- The buffers an audit matches: pool, index and bookkeeping, in rising order (R161, R164); a held one has the owner context 0
(R418). -/
def Card.audited (c : Card) (h : Nat) : List (Nat × Nat × Buf) :=
  let k := hp h 0x50430
  let ctx := c.f k 11 0
  c.bufs.filterMap (fun e => match e.2 with
    | some b =>
      let p := e.1 / 2 ^ 20 % 16
      if e.1 / 2 ^ 24 == h && (c.bit k 28 || p == c.f k 27 24) && (ctx == 0 || b.ctx == ctx) &&
          (c.bit k 29 || b.ring == c.f k 19 16)
      then some (p, e.1 % 2 ^ 20, b) else none
    | none => none)

/-- The oldest of some buffers; among equals the first, which has the lowest pool and index (R161). -/
def oldest : List (Nat × Nat × Buf) → Option (Nat × Nat × Buf)
  | [] => none
  | x :: t => match oldest t with
    | some y => if y.2.2.time < x.2.2.time then some y else some x
    | none => some x

/-- AUDIT_SCAN_DONE (R161, R172). -/
def execAuditScanDone (h : Fin 4) (s : State) : Host.Outcome State Fault Refusal :=
  s.run fun c =>
    if !c.bit (hp h.val 0x50430) 30 || c.frozen then c
    else
      let l := c.audited h.val
      let c := c.setBit (hp h.val 0x50430) 30 false
      let c := c.setN (hp h.val 0x50434) (l.filter (fun x => x.2.2.epoch.isNone)).length
      let c := c.setN (hp h.val 0x50438) (l.filter (fun x => x.2.2.epoch.isSome)).length
      match oldest l with
      | some (p, i, b) => (c.setN (hp h.val 0x5043C) (min 0xFFFFFFFF (c.ns / 2 ^ 20 - b.time))).setN (hp h.val 0x50440) (2 ^ 31 + p * 2 ^ 24 + i)
      | none => (c.setN (hp h.val 0x5043C) 0).setN (hp h.val 0x50440) 0

end Sys2Proof.Machine
end

