-- ==== Sys2Proof/Machine/Xlate.lean ====
section
/-! DEFINITION. Contexts, table walks, virtual reads and writes, tile-sparse pages, owner masks and the aperture
(spec/06). -/

namespace Sys2Proof.Machine

/-! ### Table entries (R146) -/

/-- What a leaf maps to. -/
inductive LeafTo where
  | card (region off : Nat)          -- region and data offset of the page
  | host (addr : Nat)                -- bus address of the page
  | remote (port window off : Nat)   -- port, window and window offset of the page
deriving DecidableEq, Repr

/-- A leaf that a walk found: its page, whether 2 MiB, its bits, and where the entry lies. -/
structure Leaf where
  to_ : LeafTo
  big : Bool
  write : Bool
  sparse : Bool
  backed : Bool
  deep : Bool
  pool : Nat
  entry : Nat
  atRegion : Nat
  atOff : Nat
deriving DecidableEq, Repr

/-- The entry has the TABLE form (R146): bits 7:3 zero, OFFSET at 45:16, bits 63:46 zero. -/
def tableForm (e : Nat) : Bool := nbits e 2 1 == 0 && nbits e 7 3 == 0 && nbits e 63 46 == 0

/-- A pointer to a table of `al` bytes: the region and data offset, if the region is ECC, not PICTURE, declared by hamper
`h`'s layout and holds the whole table, and the offset is aligned to the table's size (R137, R138). -/
def Card.tablePtr (c : Card) (h e al : Nat) : Option (Nat × Nat) :=
  let reg := nbits e 15 8
  let off := nbits e 45 16 * 256
  if tableForm e && off % al == 0 &&
    ((c.lay h).bind (fun l => l.regions.find? (fun x => x.num == reg))).any (fun x =>
      x.ecc && !x.picture && decide (off + al ≤ x.dataSize))
  then some (reg, off) else none

/-- The pool of a sparse leaf is as R140 asks, or not enabled (then R141 speaks at the write). -/
def Card.sparsePoolOk (c : Card) (h p : Nat) : Bool :=
  let q := c.poolCfg h p
  !c.poolOn h p || (q.ladder.isNone && q.log2 == 16 && !q.sram && (c.regionOf q.region).any (fun x => x.2.picture))

/-- A leaf entry, if it is well formed at its level (R146, R140, R142). -/
def Card.leafOf (c : Card) (h e : Nat) (big : Bool) (ar ao : Nat) : Option Leaf :=
  let w := nbit e 3
  let base : Leaf := { to_ := .host 0, big := big, write := w, sparse := false, backed := false, deep := false, pool := 0,
                       entry := e, atRegion := ar, atOff := ao }
  let sub := if big then 32 else 1
  match nbits e 2 1 with
  | 1 =>
    let sparse := nbit e 4
    let off := nbits e 37 16
    if nbits e 39 38 ≠ 0 ∨ nbits e 63 44 ≠ 0 ∨ nbit e 7 then none
    else if sparse then
      if big || !c.sparsePoolOk h (nbits e 43 40) then none
      else some { base with to_ := .card (nbits e 15 8) (off * 65536), sparse := true, backed := nbit e 5, deep := nbit e 6,
                            pool := nbits e 43 40 }
    else if nbits e 6 5 ≠ 0 ∨ nbits e 43 40 ≠ 0 ∨ off % sub ≠ 0 then none
    else some { base with to_ := .card (nbits e 15 8) (off * 65536) }
  | 2 =>
    if w = true ∨ nbits e 7 4 ≠ 0 ∨ nbits e 15 8 ≠ 0 ∨ nbits e 63 16 % sub ≠ 0 then none
    else some { base with to_ := .host (nbits e 63 16 * 65536) }
  | 3 =>
    if nbits e 7 4 ≠ 0 ∨ nbits e 15 8 ≠ 0 ∨ nbits e 63 39 ≠ 0 ∨ nbits e 38 23 % sub ≠ 0 then none
    else some { base with to_ := .remote (nbits e 16 16) (nbits e 22 17) (nbits e 38 23 * 65536) }
  | _ => none

/-- A failed translation or access: the DETAIL and the level of the entry at fault, 0 when not a walk fault (R147). -/
structure XFault where
  detail : Nat
  level : Nat
  va : Nat
deriving DecidableEq, Repr

/-- One table entry read by the walker under context 0. -/
def Card.tableEntry (c : Card) (reg off : Nat) : Res Nat := do
  let e ← c.region 0 reg off 8
  let bs ← c.rdRegion e off 8
  return leNat bs

/-- The walk of R137 over the tables in memory. -/
def Card.walk (c : Card) (h ctx va : Nat) : Except XFault Leaf :=
  let err := fun (d l : Nat) => (Except.error ⟨d, l, va⟩ : Except XFault Leaf)
  if 2 ^ 40 ≤ va then err dNotValid 0
  else if !c.ctxOn h ctx then err dNotValid 0
  else
    let root := ((tabGet none c.ctxs ctx).map (fun x => x.entry)).getD 0
    match c.tablePtr h root 8192 with
    | none => err dBadEntry 0
    | some (r1, o1) =>
      match c.tableEntry r1 (o1 + 8 * nbits va 39 30) with
      | .error d => err d 1
      | .ok e1 =>
        if !nbit e1 0 then err dNotValid 1
        else match c.tablePtr h e1 4096 with
          | none => err dBadEntry 1
          | some (r2, o2) =>
            let a2 := o2 + 8 * nbits va 29 21
            match c.tableEntry r2 a2 with
            | .error d => err d 2
            | .ok e2 =>
              if !nbit e2 0 then err dNotValid 2
              else if nbits e2 2 1 ≠ 0 then
                match c.leafOf h e2 true r2 a2 with
                | some l => .ok l
                | none => err dBadEntry 2
              else match c.tablePtr h e2 256 with
                | none => err dBadEntry 2
                | some (r3, o3) =>
                  let a3 := o3 + 8 * nbits va 20 16
                  match c.tableEntry r3 a3 with
                  | .error d => err d 3
                  | .ok e3 =>
                    if !nbit e3 0 then err dNotValid 3
                    else match c.leafOf h e3 false r3 a3 with
                      | some l => .ok l
                      | none => err dBadEntry 3

/-- The key of a cached translation. -/
def tlbKey (h ctx va : Nat) : Nat := (h * 4096 + ctx) * 2 ^ 24 + va / 65536

/-- The translations cached for a page. -/
def Card.cached (c : Card) (h ctx va : Nat) : List Leaf :=
  (tabGet [] c.tlb (tlbKey h ctx va)).filterMap (fun t => c.leafOf h t.entry t.big t.region t.off)

/-- The translation of a page: the tables', or one that is still cached, which of them being free (R139). The choice for a
page stands while one operation runs: its result for the page is the old translation or the new one (R151)
(DESIGN CHOICE, assumption log entry 58). -/
def Card.translate (c : Card) (h ctx va : Nat) : Except XFault Leaf :=
  if 2 ^ 40 ≤ va ∨ !c.ctxOn h ctx then c.walk h ctx va
  else match (c.cached h ctx va)[Config.freePick c.xlDraw (tlbKey h ctx va)]? with
    | some l => .ok l
    | none => c.walk h ctx va

/-- A new choice among translations, for what runs next. -/
def Card.drawXlate (c : Card) : Card := { c with xlDraw := c.fresh, fresh := c.fresh + 1 }

/-- The places of the table entries that the walk of a page reads: region and data offset, L1 first (R137). -/
def Card.walkPath (c : Card) (h ctx va : Nat) : List (Nat × Nat) :=
  match c.tablePtr h (((tabGet none c.ctxs ctx).map (fun x => x.entry)).getD 0) 8192 with
  | none => []
  | some (r1, o1) =>
    let a1 := o1 + 8 * nbits va 39 30
    (r1, a1) :: match c.tableEntry r1 a1 with
      | .error _ => []
      | .ok e1 => match (if nbit e1 0 then c.tablePtr h e1 4096 else none) with
        | none => []
        | some (r2, o2) =>
          let a2 := o2 + 8 * nbits va 29 21
          (r2, a2) :: match c.tableEntry r2 a2 with
            | .error _ => []
            | .ok e2 => match (if nbit e2 0 && nbits e2 2 1 == 0 then c.tablePtr h e2 256 else none) with
              | none => []
              | some (r3, o3) => [(r3, o3 + 8 * nbits va 20 16)]

/-- The reads of a page's walk reach the cache and the channels (R178, R182). A page with a cached translation is not
walked. -/
def Card.touchWalk (c : Card) (h ctx va : Nat) : Card :=
  if 2 ^ 40 ≤ va ∨ !c.ctxOn h ctx ∨ !(c.cached h ctx va).isEmpty then c
  else (c.walkPath h ctx va).foldl (fun c x => match c.regionOf x.1 with
    | some (_, e) => c.touch (some h) e x.2 8 false none
    | none => c) c

/-- A page's translation is cached beside those already cached for it (R139). -/
def Card.cachePage (c : Card) (h ctx va : Nat) : Card :=
  match c.translate h ctx va with
  | .ok l =>
    let t : TlbEnt := ⟨l.entry, l.big, l.atRegion, l.atOff⟩
    let old := tabGet [] c.tlb (tlbKey h ctx va)
    if old.contains t then c else { c with tlb := tabPut [] c.tlb (tlbKey h ctx va) (old ++ [t]) }
  | .error _ => c

/-- The pages of a range, by their first address in the range. -/
def pagesOf (va n : Nat) : List Nat :=
  if n = 0 then [] else (List.range ((va + n - 1) / 65536 - va / 65536 + 1)).map (fun i => max va ((va / 65536 + i) * 65536))

/-- The translations of an access's pages are walked and cached (R139). -/
def Card.cacheXlate (c : Card) (h ctx va n : Nat) : Card :=
  (pagesOf va n).foldl (fun c p => (c.touchWalk h ctx p).cachePage h ctx p) c

/-- A range under a context, page by page: the first address in each page, its bytes there, and its leaf. -/
def Card.leaves (c : Card) (h ctx va n : Nat) : List (Nat × Nat × Leaf) :=
  (pagesOf va n).filterMap (fun p => match c.translate h ctx p with
    | .ok l => some (p, min (va + n) ((p / 65536 + 1) * 65536) - p, l)
    | .error _ => none)

/-- The offset of an address in its leaf's page. -/
def Leaf.pageOff (l : Leaf) (va : Nat) : Nat := if l.big then va % 0x200000 else va % 0x10000

/-- The bytes of a range that lie in declared regions: the region's entry, the data offset and the count. -/
def Card.spansOf (c : Card) (h ctx va n : Nat) : List (RegionEnt × Nat × Nat) :=
  (c.leaves h ctx va n).filterMap (fun x => match x.2.2.to_ with
    | .card reg off =>
      if x.2.2.sparse && !x.2.2.backed then none else (c.regionOf reg).map (fun e => (e.2, off + x.2.2.pageOff x.1, x.2.1))
    | _ => none)

/-- The reads of a range reach the cache and the channels (R178, R182, R190), and its translations are cached. -/
def Card.readDone (c : Card) (h ctx va n : Nat) : Card :=
  (c.spansOf h ctx va n).foldl (fun c x => c.touch (some h) x.1 x.2.1 x.2.2 false none) (c.cacheXlate h ctx va n)

/-- An access to a range is held (R193, R194): an entry that its walks read, its own bytes, or, for a first write to a sparse
page, the buffer and the leaf, lie on the chunk being copied or behind an access that is held. -/
def Card.heldVa (c : Card) (h ctx : Nat) (write : Bool) (va n : Nat) : Bool :=
  (c.migr.isSome || !c.heldAcc.isEmpty) &&
  ((pagesOf va n).any (fun p => (c.cached h ctx p).isEmpty && (c.walkPath h ctx p).any (fun x =>
      (c.regionOf x.1).any (fun e => c.spanHeld e.2 x.2 8))) ||
   (c.spansOf h ctx va n).any (fun x => c.spanHeld x.1 x.2.1 x.2.2) ||
   write && (c.leaves h ctx va n).any (fun x => x.2.2.sparse && !x.2.2.backed &&
      let q := c.poolCfg h x.2.2.pool
      ((c.firstFree h x.2.2.pool q.count 0).any (fun i => (c.regionOf q.region).any (fun e => c.spanHeld e.2 (q.base + i * q.size) 65536)) ||
       (c.regionOf x.2.2.atRegion).any (fun e => c.spanHeld e.2 x.2.2.atOff 8))))

/-- The bytes from an address to the end of its 64 KiB page. -/
def pageRest (va : Nat) : Nat := 65536 - va % 65536

/-! ### Reads -/

/-- Data that must come from outside before an access can end: host memory (R142), or a remote window (R145). -/
inductive Need where
  | host (addr len : Nat)
  | remote (port window off len va : Nat)
deriving DecidableEq, Repr

/-- The number under which delivered bytes are kept: a bus address, or beyond 2^64 a window's bytes. -/
def Need.at_ : Need → Nat
  | .host a _ => a
  | .remote p w o _ _ => 2 ^ 64 * (1 + 64 * p + w) + o

/-- The length of the data needed. -/
def Need.len : Need → Nat
  | .host _ n => n
  | .remote _ _ _ n _ => n

/-- The outcome of a virtual access. -/
inductive VRes (α : Type) where
  | ok (a : α)
  | fault (f : XFault)
  | need (l : List Need)
deriving DecidableEq, Repr

/-- Bytes delivered from outside, joined from what came piece by piece; `fuel` bounds the pieces. -/
def deliveredGo (host : List HostBytes) : Nat → Nat → Nat → Option (List Byte)
  | _, _, 0 => some []
  | 0, _, _ => none
  | fuel + 1, a, n =>
    match host.find? (fun b => decide (b.addr ≤ a) && decide (a < b.addr + b.data.length)) with
    | none => none
    | some b =>
      let m := min n (b.addr + b.data.length - a)
      (deliveredGo host fuel (a + m) (n - m)).map (fun t => (b.data.drop (a - b.addr)).take m ++ t)

/-- Bytes delivered from outside, if all of them have come. -/
def delivered (host : List HostBytes) (a n : Nat) : Option (List Byte) := deliveredGo host (host.length + 1) a n

/-- Concealment grey from an address on (R140): bytes 0x80, or 16-bit words 0x0200. -/
def grey (deep : Bool) (va n : Nat) : List Byte :=
  (List.range n).map (fun i => if deep then (if (va + i) % 2 = 0 then 0x00 else 0x02) else 0x80)

/-- A read of `n` bytes at `va`, all within one 64 KiB page. -/
def Card.vreadPage (c : Card) (h ctx : Nat) (host : List HostBytes) (va n : Nat) : VRes (List Byte) :=
  match c.translate h ctx va with
  | .error f => .fault f
  | .ok l =>
    match l.to_ with
    | .host a =>
      match delivered host (a + l.pageOff va) n with
      | some bs => .ok bs
      | none => .need [.host (a + l.pageOff va) n]
    | .remote p w o =>
      match delivered host (Need.at_ (.remote p w (o + l.pageOff va) n va)) n with
      | some bs => .ok bs
      | none => .need [.remote p w (o + l.pageOff va) n va]
    | .card reg off =>
      if l.sparse && !l.backed then .ok (grey l.deep va n)
      else match (do let e ← c.region ctx reg (off + l.pageOff va) n; c.rdRegion e (off + l.pageOff va) n : Res (List Byte)) with
        | .ok bs => .ok bs
        | .error d => .fault ⟨d, 0, va⟩

/-- A virtual read of `n` bytes; `fuel` bounds the pages it spans. -/
def Card.vreadGo (c : Card) (h ctx : Nat) (host : List HostBytes) : Nat → Nat → Nat → VRes (List Byte)
  | 0, _, _ => .ok []
  | fuel + 1, va, n =>
    if n = 0 then .ok []
    else
      let m := min n (pageRest va)
      match c.vreadPage h ctx host va m with
      | .fault f => .fault f
      | .need l =>
        match c.vreadGo h ctx host fuel (va + m) (n - m) with
        | .need l' => .need (l ++ l')
        | .fault f => .fault f
        | .ok _ => .need l
      | .ok bs =>
        match c.vreadGo h ctx host fuel (va + m) (n - m) with
        | .ok t => .ok (bs ++ t)
        | r => r

/-- A virtual read of `n` bytes at `va` under a context of hamper `h`. -/
def Card.vread (c : Card) (h ctx : Nat) (host : List HostBytes) (va n : Nat) : VRes (List Byte) :=
  c.vreadGo h ctx host (n / 65536 + 2) va n

/-! ### Writes -/

/-- The cached copies of the entry at a place are dropped: the card keeps its own rewrites coherent (R139). -/
def Card.dropXlate (c : Card) (reg off : Nat) : Card :=
  { c with tlb := (c.tlb.map (fun e => (e.1, e.2.filter (fun t => !(t.region == reg && t.off == off))))).filter (fun e => !e.2.isEmpty) }

/-- A leaf entry rewritten by the card. -/
def Card.rewriteLeaf (c : Card) (l : Leaf) (e : Nat) : Res Card := do
  let r ← c.region 0 l.atRegion l.atOff 8
  if c.anyLost r l.atOff 8 then .error dRankLost
  else return (c.wrRegion r l.atOff (leBytes 8 e)).dropXlate l.atRegion l.atOff

/-- The backed form of a sparse leaf (R140): BACKED 1 and the buffer's region and offset, everything else kept. -/
def backedEntry (e reg off : Nat) : Nat := nput (nput (nput e 5 5 1) 15 8 reg) 37 16 (off / 65536)

/-- A sparse leaf with BACKED 0 again (R149 UNBACK). -/
def unbackedEntry (e : Nat) : Nat := nput e 5 5 0

/-- The first write to an unbacked page (R140, R141): one buffer is taken for the writer, filled with grey, and the leaf
rewritten. `err` is the DETAIL of a memory error that the fill or the rewrite met: the buffer returns, the leaf stays
unbacked. The data offset of the page in its region, or the DETAIL of the failure. -/
def Card.sparseBack (c : Card) (h ctx ring : Nat) (ep : Option Nat) (l : Leaf) (err : Option Nat) : Card × Res (Nat × Nat) :=
  if !c.poolServes h l.pool then (c, .error dSparseEmpty)
  else
    let q := c.poolCfg h l.pool
    match c.firstFree h l.pool q.count 0 with
    | none => (c.bump (poolReg h l.pool 0x1C) 1, .error dSparseEmpty)
    | some i =>
      let off := q.base + i * q.size
      let taken := c.poolTakeAt h l.pool i ctx ring ep
      let back := fun (d : Nat) => (taken.poolFree h l.pool i ctx ring false false, (.error d : Res (Nat × Nat)))
      match err with
      | some d => back d
      | none =>
        match taken.region 0 q.region off 65536 with
        | .error d => back d
        | .ok r =>
          if taken.anyLost r off 65536 then back dRankLost
          else
            let filled := taken.wrRegion r off (grey l.deep 0 65536)
            match filled.rewriteLeaf l (backedEntry l.entry q.region off) with
            | .ok c' => (c', .ok (q.region, off))
            | .error d => back d

/-- The physical bytes that a write of a region's data space changes, with what they held (for R148: the writes made
before a fault stand). -/
def Card.undoOf (c : Card) (e : RegionEnt) (d n : Nat) : List Undo :=
  (List.range n).filterMap (fun i => (c.phys (e.chanAddr (d + i)).1 (e.chanAddr (d + i)).2).map (fun k => ⟨k.2, c.memAt k.2⟩))

/-- What a virtual write gives: the card, the old bytes of what it wrote, writes that go out over a link, and the fault
that ended it. -/
structure WRes where
  card : Card
  undo : List Undo := []
  links : List (Need × List Byte) := []
  fault : Option XFault := none

/-- A write of bytes at `va`, all within one 64 KiB page (R140, R142, R148). -/
def Card.vwritePage (c : Card) (h ctx ring : Nat) (ep : Option Nat) (va : Nat) (bs : List Byte) : WRes :=
  match c.translate h ctx va with
  | .error f => { card := c, fault := some f }
  | .ok l =>
    match l.to_ with
    | .host _ => { card := c, fault := some ⟨dHostWrite, 0, va⟩ }
    | .remote p w o =>
      if !l.write then { card := c, fault := some ⟨dWriteDenied, 0, va⟩ }
      else { card := c, links := [(.remote p w (o + l.pageOff va) bs.length va, bs)] }
    | .card reg off =>
      if !l.write then { card := c, fault := some ⟨dWriteDenied, 0, va⟩ }
      else
        let place : Card × Res (Nat × Nat) := if l.sparse && !l.backed then c.sparseBack h ctx ring ep l none else (c, .ok (reg, off))
        match place with
        | (c, .error d) => { card := c, fault := some ⟨d, 0, va⟩ }
        | (c, .ok (reg, off)) =>
          match c.region ctx reg (off + l.pageOff va) bs.length with
          | .error d => { card := c, fault := some ⟨d, 0, va⟩ }
          | .ok e =>
            let d := off + l.pageOff va
            let c' := (c.wrRegion e d bs).touch (some h) e d bs.length true (ep.map (fun x => 65536 * h + x))
            { card := c', undo := c.undoOf e d bs.length,
              fault := if c.anyLost e d bs.length then some ⟨dRankLost, 0, va⟩ else none }

/-- A virtual write of bytes at `va`; `fuel` bounds the pages it spans. It stops at its first fault. -/
def Card.vwriteGo (h ctx ring : Nat) (ep : Option Nat) : Nat → Card → Nat → List Byte → WRes
  | 0, c, _, _ => { card := c }
  | fuel + 1, c, va, bs =>
    if bs.isEmpty then { card := c }
    else
      let m := pageRest va
      let r := c.vwritePage h ctx ring ep va (bs.take m)
      match r.fault with
      | some _ => r
      | none =>
        let t := Card.vwriteGo h ctx ring ep fuel r.card (va + m) (bs.drop m)
        { card := t.card, undo := r.undo ++ t.undo, links := r.links ++ t.links, fault := t.fault }

/-- A virtual write of bytes at `va` for an operation of `ring` under a context of hamper `h`. -/
def Card.vwrite (c : Card) (h ctx ring : Nat) (ep : Option Nat) (va : Nat) (bs : List Byte) : WRes :=
  Card.vwriteGo h ctx ring ep (bs.length / 65536 + 2) c va bs

/-- A translation fault counted, captured when VALID is clear, and raised (R147, R148): vector 22 of the PF, and vector
16 of the VF whose range holds the context. Codes 0x80 to 0x8F are KINDs 1 to 15. -/
def Card.xlFault (c : Card) (h ring ctx : Nat) (f : XFault) : Card :=
  if f.detail < 0x80 ∨ 0x8F ≤ f.detail then c
  else
    let c := c.bump (hp h 0x4004C) 1
    if c.bit (hp h 0x40040) 31 then c
    else
      let c := c.setN (hp h 0x40040) (2 ^ 31 + (f.detail - 0x7F) * 2 ^ 24 + f.level * 2 ^ 20 + ring * 2 ^ 16 + ctx)
      let c := (c.setPair (hp h 0x40044) (hp h 0x40048) f.va).raise (h + 1) 22
      match (List.range 8).find? (fun v => c.vfExists h v && c.vfHasCtx h v ctx) with
      | some v => c.raise (8 + 8 * h + v) 16
      | none => c

/-! ### Commands on contexts, invalidation and owner masks -/

/-- CONTEXT_ENTRY_WRITE (R134, R146, R147): the _HI write of HP_CTX_ENTRY. Form is checked first, V 0 or 1: a malformed write
sets MALFORMED only. An entry with V 0 names no table, so R138 does not speak of it
(DEDUCED, assumption log entry 114). -/
def execContextEntryWrite (h : Fin 4) (v : Word) (s : State) : Host.Outcome State Fault Refusal :=
  s.run fun c => c.hostWrite (.pf h) 0x4000C fun c =>
    let lo := c.loFor (hp h.val 0x40008)
    let c := c.dropHold (hp h.val 0x40008)
    let e := lo.toNat + 2 ^ 32 * v.toNat
    let x := c.f (hp h.val 0x40000) 11 0
    let cur := tabGet none c.ctxs x
    if !tableForm e then c.setBit (hp h.val 0x40010) 1 true
    else if e % 2 = 1 then
      if (c.tablePtr h.val e 8192).isNone then c.setBit (hp h.val 0x40010) 1 true
      else if cur.any (fun y => y.hamper != h.val) then c.setBit (hp h.val 0x40010) 0 true
      else { c with ctxs := tabPut none c.ctxs x (some ⟨h.val, e⟩) }
    else if cur.any (fun y => y.hamper == h.val) then
      { c with ctxs := tabPut none c.ctxs x none,
               tlb := c.tlb.filter (fun t => t.1 / 2 ^ 24 != h.val * 4096 + x) }
    else c

/-- TRANSLATION_INVALIDATE (R139, R147): GO starts it; writes are dropped while BUSY. -/
def execTranslationInvalidate (h : Fin 4) (v : Word) (s : State) : Host.Outcome State Fault Refusal :=
  s.run fun c => c.hostWrite (.pf h) 0x40020 fun c =>
    if c.bit (hp h.val 0x40020) 29 then c
    else
      let c := c.writeReg (hp h.val 0x40020) v
      if fld v 31 31 = 1 then c.setBit (hp h.val 0x40020) 29 true else c

/-- INVALIDATION_DONE (R139, R151): the named context's cached translations, or every one of the hamper, are gone. -/
def execInvalidationDone (h : Fin 4) (s : State) : Host.Outcome State Fault Refusal :=
  s.run fun c =>
    if !c.bit (hp h.val 0x40020) 29 || c.frozen then c
    else
      let all := c.bit (hp h.val 0x40020) 30
      let x := c.f (hp h.val 0x40020) 11 0
      { c.setBit (hp h.val 0x40020) 29 false with
        tlb := c.tlb.filter (fun t => t.1 / 2 ^ 36 != h.val || (!all && t.1 / 2 ^ 24 % 4096 != x)) }

/-- REGION_OWNER_WRITE (R136, R147): applied only when the selected region is declared by this hamper's layout. -/
def execRegionOwnerWrite (h : Fin 4) (v : Word) (s : State) : Host.Outcome State Fault Refusal :=
  s.run fun c => c.hostWrite (.pf h) 0x40038 fun c =>
    let r := c.f (hp h.val 0x40030) 7 0
    match c.regionOf r with
    | some (g, _) => if g = h.val then { c with owners := tabPut {} c.owners r ⟨fld v 27 16, fld v 11 0⟩ } else c
    | none => c

/-! ### The aperture -/

/-- The registers of an aperture entry: PF aperture `e`, or aperture `e` of a VF (R147). -/
def aperReg (h : Nat) (vf : Option Nat) (e : Nat) : Nat :=
  match vf with
  | none => hp h (0x40100 + 8 * e)
  | some v => hp h (0x40300 + 64 * v + 8 * e)

/-- APERTURE_MAP_WRITE (R143): the _HI write of an entry checks and applies it. -/
def execApertureMapWrite (h : Fin 4) (vf : Option (Fin 8)) (e : Nat) (v : Word) (s : State) : Host.Outcome State Fault Refusal :=
  s.run fun c =>
    let k := aperReg h.val (vf.map (fun x => x.val)) e
    if (match vf with | none => 64 | some _ => 8) ≤ e then c
    else c.hostWrite (.pf h) (k - hp h.val 0 + 4) fun c =>
      let lo := (c.loFor k) &&& 0xC00FFFFF
      let c := c.dropHold k
      let ctx := fld lo 19 8
      let apply := (c.setReg k lo).setN (k + 4) (v.toNat % 2 ^ 17)
      if fld lo 31 31 = 0 then apply
      else
        let reg := (c.lay h.val).bind (fun l => l.regions.find? (fun x => x.num == fld lo 7 0))
        if reg.any (fun x => x.hostread && !x.picture) && c.ctxOn h.val ctx &&
            (match vf with | none => true | some w => c.vfHasCtx h.val w.val ctx)
        then apply
        else c.bumpF (hp h.val 0x40054) 15 0 1



/-- What one access through an aperture reaches: the region's entry, the data offset, and how many of its bytes lie
below the data size; none for a miss as a whole (R143, R154). A region that has become PICTURE is never read (R21). -/
def Card.aperHit (c : Card) (h : Nat) (vf : Option Nat) (addr len : Nat) (write : Bool) : Option (RegionEnt × Nat × Nat) :=
  let k := aperReg h vf (addr / 2 ^ 29)
  let lo := c.reg k
  if bar2Size vf.isSome < addr + len ∨ fld lo 31 31 = 0 ∨ (write ∧ fld lo 30 30 = 0) then none
  else match c.regionOf (fld lo 7 0) with
    | none => none
    | some (_, e) =>
      if e.picture || !(tabGet {} c.owners (fld lo 7 0) : Owner).admits (fld lo 19 8) then none
      else
        let d := c.f (k + 4) 16 0 * 0x200000 + addr % 2 ^ 29
        some (e, d, min len (e.dataSize - d))

/-- An access's bytes meet an error in the data (R584): a poisoned line, a LOST rank, or an error that the access's
reads found. -/
def Card.aperBad (c : Card) (e : RegionEnt) (d n : Nat) : Bool :=
  match c.rdRegion e d n with | .ok _ => false | .error _ => true

/-- The partial lines at the ends of a write to an ECC region keep a POISON bit, and gain one where the read of the
read-modify-write found an uncorrectable error (R176). `bad` names the data offsets of such errors. -/
def Card.poisonPartial (c : Card) (e : RegionEnt) (d n : Nat) (bad : List Nat) : Card :=
  bad.foldl (fun c x =>
    let l := x / 64 * 64
    if e.ecc && (decide (l < d) || decide (d + n < l + 64)) && rangesMeet l 64 d n then
      match c.phys (e.chanAddr l).1 (e.chanAddr l).2 with
      | some (_, key) => c.setPoison key true
      | none => c
    else c) c

end Sys2Proof.Machine
end

