-- ==== Sys2Proof/Machine/Feed.lean ====
section
/-! DEFINITION. The byte queue of a stream context (spec/10 R237, R240, R251, R254) and the decryption of what a FEED brings
(R245). What a coding standard makes of the bytes comes with the commands. -/

namespace Sys2Proof.Machine

/-! ### Decryption (R245) -/

/-- `n` bytes of the CTR keystream from byte `at_` on: the counter of the low 64 bits runs on from the IV. -/
def ctrStream (key iv : List Byte) (at_ n : Nat) : List Byte :=
  let lo := leNat (iv.drop 8).reverse
  (((List.range ((at_ + n + 15) / 16 - at_ / 16)).flatMap (fun i =>
    aesBlock key (iv.take 8 ++ (leBytes 8 ((lo + at_ / 16 + i) % 2 ^ 64)).reverse))).drop (at_ % 16)).take n

/-- 'cenc': the protected bytes of a sample decrypted, the counter running on across its subsamples. `at_` is the count of
protected bytes before. -/
def cencGo (key iv : List Byte) : List (Nat × Nat) → Nat → List Byte → List Byte
  | [], _, bs => bs
  | (clear, prot) :: t, at_, bs =>
    let p := (bs.drop clear).take prot
    bs.take clear ++ xorBytes p (ctrStream key iv at_ p.length) ++ cencGo key iv t (at_ + prot) (bs.drop (clear + prot))

/-- 'cbcs': one protected range, block by block, `pos` counting blocks in the pattern; a trailing partial block is clear. -/
def cbcGo (key : List Byte) (crypt skip : Nat) : Nat → Nat → List Byte → List Byte → List Byte
  | 0, _, _, bs => bs
  | fuel + 1, pos, prev, bs =>
    if bs.length < 16 then bs
    else
      let blk := bs.take 16
      if crypt + skip = 0 ∨ pos % (crypt + skip) < crypt then
        xorBytes (aesUnblock key blk) prev ++ cbcGo key crypt skip fuel (pos + 1) blk (bs.drop 16)
      else blk ++ cbcGo key crypt skip fuel (pos + 1) prev (bs.drop 16)

/-- 'cbcs' over the subsamples: the IV restarts at each. -/
def cbcsGo (key iv : List Byte) (crypt skip : Nat) : List (Nat × Nat) → List Byte → List Byte
  | [], bs => bs
  | (clear, prot) :: t, bs =>
    bs.take clear ++ cbcGo key crypt skip (prot / 16 + 1) 0 iv ((bs.drop clear).take prot) ++ cbcsGo key iv crypt skip t (bs.drop (clear + prot))

/-- A sample decrypted. -/
def decrypt (scheme : Nat) (key iv : List Byte) (ivSize crypt skip : Nat) (subs : List (Nat × Nat)) (bs : List Byte) : List Byte :=
  match scheme with
  | 1 => cencGo key (if ivSize = 8 then iv.take 8 ++ List.replicate 8 0 else iv) subs 0 bs
  | 2 => cbcsGo key iv crypt skip subs bs
  | _ => bs

/-- The subsamples of a FEED with body `b` and subsample map `map`; none listed protects the whole sample. -/
def feedSubs (b map : List Byte) : List (Nat × Nat) :=
  let count := leAt b 0x28 2
  if count = 0 then [(0, leAt b 8 4)] else (List.range count).map (fun i => (leAt map (8 * i) 2, leAt map (8 * i + 4) 4))

/-- The first bytes of a FEED's sample, in the clear. -/
def Card.feedClear (c : Card) (h : Nat) (b map bs : List Byte) : List Byte :=
  let key := tabGet none c.keys (64 * h + leAt b 0xF 1)
  decrypt (leAt b 0xE 1) ((key.map (fun k => k.key)).getD []) ((b.drop 0x10).take 16) (leAt b 0x2C 1) (leAt b 0x2A 1) (leAt b 0x2B 1)
    (feedSubs b map) bs

/-! ### The queue -/

/-- Bytes written for a context, charged to it and its opening ring (R235); a write that fails is dropped (R141). -/
def Card.ctxWrite (c : Card) (h : Nat) (t : Stream) (va : Nat) (bs : List Byte) : Card :=
  let w := c.vwrite h t.ctx t.ring none va bs
  match w.fault with
  | some f => w.card.xlFault h t.ring t.ctx f
  | none => w.card

/-- The capacity of the byte queue (R249). -/
def Stream.capacity (t : Stream) : Nat := t.state64 * 65536 - 0x40000

/-- Queued bytes have been used up. -/
def Stream.consume (t : Stream) (n : Nat) : Stream :=
  let head := min t.tail (t.head + n)
  { t with head := head, feeds := t.feeds.filter (fun m => decide (head < m.start + m.len)), starts := t.starts.filter (fun x => decide (head ≤ x)) }

/-- The bytes held from before a FEED with DISCONTINUITY 1 in which no picture begins are discarded as truncated (R240). -/
def Stream.resync (t : Stream) : Stream :=
  if t.pics.any (fun p => p.decoding) then t
  else
    (t.feeds.filter (fun m => m.disc)).foldl (fun t m =>
      if t.head < m.start ∧ !t.starts.any (fun x => decide (x < m.start)) then t.consume (m.start - t.head) else t) t

/-- Bytes put into the queue of a stream as far as there is room: they go to the state area behind the first 256 KiB, in a
circle (R237, R249). What did not fit comes back. -/
def Card.enqueue (c : Card) (h s : Nat) (t : Stream) (m : FeedMark) (bs : List Byte) : Card × List Byte :=
  let now := bs.take (t.capacity - (t.tail - t.head))
  let at_ := t.tail % t.capacity
  let q := t.stateVa + 0x40000
  let c := c.ctxWrite h t (q + at_) (now.take (t.capacity - at_))
  let c := c.ctxWrite h t q (now.drop (t.capacity - at_))
  let t' : Stream := { t with tail := t.tail + now.length,
                              feeds := t.feeds ++ [{ m with start := t.tail, len := now.length, time := c.ns, auEnd := m.auEnd && now.length == bs.length }] }
  (c.setStream h s (some t'.resync), bs.drop now.length)

/-- The descriptor fields and flags of a FEED. -/
def feedMark (b : List Byte) (disc : Bool) : FeedMark :=
  { start := 0, len := 0, user := leAt b 0x30 8, time := 0, auEnd := nbit (leAt b 0xD 1) 0, disc := disc || nbit (leAt b 0xD 1) 1 }

/-! ### A source that fails (R254) -/

/-- The bytes from a host address on that have come without a gap, at most `n`; `fuel` bounds the pieces. -/
def hostPrefix (host : List HostBytes) : Nat → Nat → Nat → List Byte
  | 0, _, _ => []
  | fuel + 1, a, n =>
    match host.find? (fun b => decide (b.addr ≤ a) && decide (a < b.addr + b.data.length)) with
    | none => []
    | some b =>
      let m := min n (b.addr + b.data.length - a)
      (b.data.drop (a - b.addr)).take m ++ (if m = n then [] else hostPrefix host fuel (a + m) (n - m))

/-- The first bytes of a range that can be read now, without a gap, page by page. -/
def Card.prefixAt (c : Card) (h ctx : Nat) (host : List HostBytes) : List Nat → Nat → List Byte
  | [], _ => []
  | p :: t, last =>
    let n := min (last - p) (pageRest p)
    let bs := match c.translate h ctx p with
      | .ok l => match l.to_, c.vreadPage h ctx host p n with
        | _, .ok bs => bs
        | .host a, _ => hostPrefix host (host.length + 1) (a + l.pageOff p) n
        | _, _ => []
      | .error _ => []
    if bs.length < n then bs else bs ++ c.prefixAt h ctx host t last

/-- A FEED whose source fails: what had come of it is queued and stands, and the next FEED is treated as DISCONTINUITY 1 (R254).
Where pictures begin in those bytes is not known
(DEDUCED, assumption log entry 47). -/
def Card.feedCut (c : Card) (h : Nat) (o : Op) (starts : List Nat) : Card :=
  let b := o.body
  let s := leAt b 0xC 1
  match c.stream h s with
  | none => c
  | some t =>
    let va := leAt b 0 8
    let bs := c.prefixAt h o.ctx o.host (pagesOf va (leAt b 8 4)) (va + leAt b 8 4)
    let count := leAt b 0x28 2
    let map := if leAt b 0xE 1 = 0 ∨ count = 0 then some [] else match c.vread h o.ctx o.host (leAt b 0x20 8) (8 * count) with
      | .ok m => some m
      | _ => none
    let clear := match map with | some m => c.feedClear h b m bs | none => []
    let t' : Stream := { t with disc := true, starts := t.starts ++ (starts.filter (fun x => decide (x < clear.length))).map (fun x => t.tail + x) }
    if clear.isEmpty then c.setStream h s (some t')
    else (c.enqueue h s t' { feedMark b t.disc with auEnd := false } clear).1

end Sys2Proof.Machine
end

