-- ==== Sys2Proof/Machine/Operands.lean ====
section
/-! DEFINITION. The forms of commands in slots and lists (spec/05 R103 to R105): which opcodes each class defines, how
long each body is, and the reading of a command's header and sync units. -/

namespace Sys2Proof.Machine

/-- The length of a command's body in 16-byte units, for each opcode that a class defines; none where the class does not
define the opcode (R115 BAD_OPCODE). -/
def bodyUnits (cls opcode : Nat) : Option Nat :=
  match cls, opcode with
  | 5, 0x01 => some 2
  | 5, 0x02 => some 2
  | 5, 0x03 => some 2
  | 5, 0x10 => some 4
  | 5, 0x11 => some 4
  | 5, 0x12 => some 4
  | 5, 0x20 => some 2
  | 5, 0x21 => some 2
  | 1, 0x01 => some 4
  | 1, 0x02 => some 4
  | 1, 0x03 => some 1
  | 1, 0x04 => some 1
  | 6, 0x01 => some 2
  | 6, 0x02 => some 2
  | 6, 0x03 => some 1
  | 6, 0x04 => some 1
  | 6, 0x05 => some 1
  | 7, 0x01 => some 4
  | 2, 0x01 => some 6
  | 3, 0x01 => some 1
  | 4, 0x01 => some 4
  | 4, 0x02 => some 4
  | 4, 0x03 => some 4
  | 4, 0x04 => some 5
  | 8, 0x01 => some 4
  | 8, 0x02 => some 2

  | _, _ => none

/-- A wait or signal unit read from its 16 bytes (R105). -/
structure SyncRead where
  sem : Nat
  op : Nat
  val : Nat
  bad : Bool    -- a reserved field is nonzero
deriving DecidableEq, Repr

/-- A wait unit. -/
def readWait (b : List Byte) : SyncRead :=
  { sem := leAt b 0 2 % 2 ^ 14, op := 0, val := leAt b 8 8, bad := leAt b 0 2 / 2 ^ 14 != 0 || leAt b 2 6 != 0 }

/-- A signal unit: an OP other than SET_MAX and ADD is reserved. -/
def readSignal (b : List Byte) : SyncRead :=
  { sem := leAt b 0 2 % 2 ^ 14, op := leAt b 2 1, val := leAt b 8 8,
    bad := leAt b 0 2 / 2 ^ 14 != 0 || leAt b 3 5 != 0 || decide (1 < leAt b 2 1) }

/-- A command header (R104). -/
structure Header where
  opcode : Nat
  group : Nat
  front : Bool
  units : Nat
  waits : Nat
  signal : Bool
  report : Bool
  mirror : Bool
  tag : Nat
  param : Nat
  bad : Bool
deriving DecidableEq, Repr

/-- A command header read from its 16 bytes. -/
def readHeader (b : List Byte) : Header :=
  let sel := leAt b 1 1
  let sync := leAt b 3 1
  { opcode := leAt b 0 1, group := sel % 16, front := nbit sel 4, units := leAt b 2 1, waits := sync % 4,
    signal := nbit sync 2, report := nbit sync 3, mirror := nbit sync 4, tag := leAt b 4 4, param := leAt b 8 8,
    bad := sel / 32 != 0 || sync / 32 != 0 || sync % 4 == 3 }

/-- The virtual address of a whisk operand, when it is used and lies in card memory (R333). -/
def wkInput (b : List Byte) (o : Nat) : List Nat := if nbit (leAt b (o + 0xD) 1) 0 ∨ leAt b o 16 = 0 then [] else [leAt b o 8]

/-- The source of a STAGE command with FLAGS byte `fl`, when it is a virtual address (R322). -/
def stageInput (b : List Byte) (fl : Nat) : List Nat := if nbit (leAt b fl 1) 0 then [] else [leAt b 0 8]

/-- The virtual addresses of an operation's picture inputs, by class and opcode; those of a PREPARE stand in its source
table. -/
def picInputs (cls opcode : Nat) (b : List Byte) : List Nat :=
  match cls, opcode with
  | 5, 0x01 => [leAt b 0 8]
  | 5, 0x10 => stageInput b 0x16
  | 5, 0x11 => stageInput b 0x18
  | 5, 0x12 => stageInput b 0x25
  | 5, 0x21 => [leAt b 0 8]
  | 7, 0x01 => [leAt b 0 8, leAt b 8 8]
  | 8, 0x01 => [leAt b 0x10 8, leAt b 0x18 8]
  | 8, 0x02 => if leAt b 8 8 = 0 then [] else [leAt b 8 8]
  | 4, 0x01 => wkInput b 0x10 ++ wkInput b 0x20
  | 4, 0x02 => wkInput b 0x10
  | 4, 0x03 => wkInput b 0x10 ++ wkInput b 0x20
  | 4, 0x04 => wkInput b 0x20 ++ wkInput b 0x30
  | _, _ => []

end Sys2Proof.Machine
end

