-- ==== Sys2Proof/Machine/Wave.lean ====
section
/-! DEFINITION. The freeze wave (spec/18 R432, R433, R442), which every freeze source and the fault log's match share. -/

namespace Sys2Proof.Machine

/-- The wave has been sent and the ramp has not ended (R445 STOPPING). -/
def Card.stopping (c : Card) : Bool := c.bit (mg 0x5004) 30

/-- A thaw is under way (R445 THAWING). -/
def Card.thawing (c : Card) : Bool := c.bit (mg 0x5004) 29

/-- The core is off after an auxiliary loss or a trip (R465, R477). -/
def Card.coreOff (c : Card) : Bool := c.f (mg 0x1108) 31 29 == 2 || c.f (mg 0x2000) 10 8 == 3

/-- The units of the core run: powered, neither stopping nor frozen. -/
def Card.live (c : Card) : Bool := c.on && !c.frozen && !c.stopping && !c.coreOff

/-- A cable is detected on Dravaz port `p` (R22). -/
def Card.cable (c : Card) (p : Nat) : Bool := c.bit (mg 0x0028) (2 + p)

/-- The enable bit of a freeze source in MG_FRZ_CTL (R432, R445); REGISTER has none. -/
def Card.sourceOn (c : Card) (src : Nat) : Bool :=
  match src with
  | 1 => c.bit (mg 0x5000) 10
  | 2 => c.bit (mg 0x5000) 12
  | 3 => true
  | 4 => c.bit (mg 0x5000) 9
  | 5 => c.bit (mg 0x5000) 9
  | 6 => c.bit (mg 0x5000) 11
  | _ => false

/-- A host's read. -/
def HeldAccess.hostRead (x : HeldAccess) : Bool := x.remote.isNone && x.wdata.isNone && !x.fill

/-- Host reads held on a chunk are completed with all-ones when the wave arrives; held writes stay (R194). -/
def Card.endHeldReads (c : Card) : Card :=
  c.heldAcc.foldl (fun (c : Card) x => if x.hostRead then c.emit (.readData x.fnNum x.addr (List.replicate x.len 0xFF)) else c)
    { c with heldAcc := c.heldAcc.filter (fun x => !x.hostRead) }

/-- The waveform windows stand frozen (R433). -/
def Card.holdWindows (c : Card) : Card := { c with winFrozen := true }

/-- The wave (R433 steps 1 to 3): card time is recorded, the card is stopping, the cause stands, and with LINK_OUT a pulse
goes out on each cabled port but the one the cause came by (R442). -/
def Card.freezeWave (c : Card) (src : Nat) : Card :=
  let c := c.endHeldReads.setPair (mg 0x5010) (mg 0x5014) c.ns
  let c := (c.setBit (mg 0x5004) 30 true).setF (mg 0x5004) 7 0 src
  let c := (c.bump (mg 0x500C) 1).holdWindows
  if c.bit (mg 0x5000) 8 then
    [0, 1].foldl (fun c p => if c.cable p && src != 4 + p then c.emit (.freezePulse p) else c) c
  else c

/-- A request of a freeze source (R432): ignored while the source is disabled, refused before MEM_READY, recorded in SEEN,
and the first to arrive starts the wave; one that arrives while thawing freezes again once the thaw is complete (R447). -/
def Card.freezeRequest (c : Card) (src : Nat) : Card :=
  if !c.on || c.coreOff || !c.sourceOn src then c
  else if c.stage < 5 then c.setBit (mg 0x5008) 7 true
  else
    let c := c.setBit (mg 0x5008) src true
    if c.thawing then { c with refreeze := some (c.refreeze.getD src) }
    else if c.stopping || c.frozen then c
    else c.freezeWave src

end Sys2Proof.Machine
end

