-- ==== Sys2Proof/Machine/Governor.lean ====
section
/-! DEFINITION. The draw governor (spec/19 R450, R454 to R456, R460, R469, R479): weights, the ballast, admission of starts,
and the outward supplies. -/

namespace Sys2Proof.Machine

/-- A power in watts, in the governor's unit
(DEDUCED, assumption log entry 75). -/
def powerUnits (w : Nat) : Nat := w * 100000 * caUnit

/-- A start of weight `d` would exceed the power limit (R456). -/
def Card.overLimit (c : Card) (d : Nat) : Bool :=
  decide (powerUnits c.limitNow < c.gov.est + (d - c.gov.b) * c.f (mg 0x1108) 15 0)

/-- A start may be acknowledged at all: not held under R470, nor a best-effort unit in thermal stage 2 (R475). -/
def Card.admits (c : Card) (x : GovStart) : Bool := !c.gov.hold && (x.lc || c.f (mg 0x2000) 10 8 != 2)

/-- CAPPED and SLOPE_WAIT as the waiting starts have them; a start newly held under R456 is counted (R463). -/
def Card.govFlags (c : Card) : Card :=
  let c := c.settleB
  match c.gov.head with
  | none => (c.setBit (mg 0x1108) 24 false).setBit (mg 0x1108) 23 false
  | some x =>
    if !c.admits x then (c.setBit (mg 0x1108) 24 false).setBit (mg 0x1108) 23 false
    else if c.overLimit (c.weight x.load) then
      let c := (c.setBit (mg 0x1108) 24 true).setBit (mg 0x1108) 23 false
      if x.capped then c
      else
        let c : Card := { c with gov := { c.gov with waiting := c.gov.waiting.map (fun (y : GovStart) => if y.order = x.order then { y with capped := true } else y) } }
        (c.bump (mg 0x1118) 1).event 0x1114 0 11
    else
      (c.setBit (mg 0x1108) 24 false).setBit (mg 0x1108) 23 true

/-- The warming shares drawn (R478). -/
def Card.sharesDrawn (c : Card) : Nat := c.f (mg 0x200C) 4 0

/-- Shares stopped: their current passes to B. -/
def Card.stopShares (c : Card) (n : Nat) : Card :=
  let m := min n c.sharesDrawn
  { c.setF (mg 0x200C) 4 0 (c.sharesDrawn - m) with gov := { c.gov with b := c.gov.b + m * 25 * caUnit } }

/-- What an acknowledged start turns on: a share is drawn, a supply is on. -/
def Card.loadOn (c : Card) (l : Load) : Card :=
  match l with
  | .unit .. => c
  | .share => c.setF (mg 0x200C) 4 0 (c.sharesDrawn + 1)
  | .supply i => c.setBit (mg 0x1134) (8 + i) true

/-- A start is acknowledged: it takes its weight from B, and what B did not cover counts in P_est (R455, R456). -/
def Card.acknowledge (c : Card) (x : GovStart) : Card :=
  let d := c.weight x.load
  let g := c.gov
  let drawing := match x.load with | .share => g.drawing | l => g.drawing ++ [⟨l, x.op⟩]
  ({ c with gov := { g with
      b := g.b - d
      est := g.est + (d - g.b) * c.f (mg 0x1108) 15 0
      waiting := g.waiting.filter (fun y => y.order != x.order)
      drawing := drawing } } : Card).loadOn x.load

/-- Shares are stopped for a unit start that waits on B or on the power limit: the fewest that cover it (R479). -/
def Card.sharesFor (c : Card) (x : GovStart) : Card :=
  match x.load with
  | .unit .. => let d := c.weight x.load; if c.gov.b < d ∧ 0 < c.sharesDrawn then c.stopShares (ceilDiv (d - c.gov.b) (25 * caUnit)) else c
  | _ => c

/-- A start is asked for (R455, R456): acknowledged at once when nothing goes before it, B covers it and no limit holds it;
else it waits. -/
def Card.govStart (c : Card) (load : Load) (lc : Bool) (op : Option (Nat × Nat)) : Card :=
  let c := c.settleB
  let x : GovStart := { load := load, lc := lc, order := c.gov.order, op := op }
  let first := c.gov.waiting.all (fun y => x.before y)
  let c : Card := { c with gov := { c.gov with order := c.gov.order + 1, waiting := c.gov.waiting ++ [x] } }
  let c := if first && c.admits x then c.sharesFor x else c
  (if first && c.admits x && !c.overLimit (c.weight load) && decide (c.weight load ≤ c.gov.b) then c.acknowledge x else c).govFlags

/-- The load draws. -/
def Card.draws (c : Card) (l : Load) : Bool := c.gov.drawing.any (fun x => x.load == l)

/-- The load's start waits
(DESIGN CHOICE, assumption log entry 77). -/
def Card.startWaits (c : Card) (l : Load) : Bool := c.gov.waiting.any (fun x => x.load == l)

/-- Loads stop (R455, R469): what they draw passes to B; starts of them that wait are withdrawn. -/
def Card.govStopAll (c : Card) (mine : Load → Option (Nat × Nat) → Bool) : Card :=
  let c := c.settleB
  let g := c.gov
  let gone := g.drawing.filter (fun x => mine x.load x.op)
  if gone.isEmpty && !g.waiting.any (fun x => mine x.load x.op) then c
  else ({ c with gov := { g with
      b := g.b + (gone.map (fun x => c.weight x.load)).sum
      waiting := g.waiting.filter (fun x => !mine x.load x.op)
      drawing := g.drawing.filter (fun x => !mine x.load x.op) } } : Card).govFlags

/-- A load stops. -/
def Card.govStop (c : Card) (l : Load) : Card := c.govStopAll (fun m _ => m == l)

/-- The load is a unit's of hamper `h`. -/
def Load.onHamper (l : Load) (h : Nat) : Bool := match l with | .unit g _ _ => g == h | _ => false

/-- The operations of a ring are gone (R469). -/
def Card.govDrop (c : Card) (h r : Nat) : Card := c.govStopAll (fun l op => l.onHamper h && op.any (fun x => x.1 == r))

/-- An operation is cancelled or stopped (R469). -/
def Card.govDropOp (c : Card) (h r seq : Nat) : Card := c.govStopAll (fun l op => l.onHamper h && op == some (r, seq))

/-- An operation's start waits in the governor, so it holds its unit and changes nothing (R455). -/
def Card.govHolds (c : Card) (h r seq : Nat) : Bool :=
  c.gov.waiting.any (fun x => x.op == some (r, seq) && x.load.onHamper h)

/-- The outward supply may be on (R460): it is enabled and not tripped, and what it supplies is there. -/
def Card.supplyWanted (c : Card) (i : Nat) : Bool :=
  c.on && !c.coreOff && c.bit (mg 0x1134) i && !nbit c.gov.tripped i && c.bit (mg 0x0028) (if i = 0 then 1 else 1 + i)

/-- Each outward supply turned on, as a governed start, or off, as its conditions have it (R460). -/
def Card.checkSupplies (c : Card) : Card :=
  [0, 1, 2].foldl (fun (c : Card) i =>
    if c.supplyWanted i then (if c.draws (.supply i) || c.startWaits (.supply i) then c else c.govStart (.supply i) false none)
    else (c.govStop (.supply i)).setBit (mg 0x1134) (8 + i) false) c

end Sys2Proof.Machine
end

