-- ==== Sys2Proof/Machine/FaultLog.lean ====
section
/-! DEFINITION. The fault log (spec/17 R425, R426), the fences and verdict counts of units (R411, R412), retirement causes
(spec/08 R191, R581), and the errors of memory, SRAM, cache and bookkeeping (R177, R191, R416 to R418). -/

namespace Sys2Proof.Machine

/-! ### The log -/

/-- What a log entry tells beside its time (R426). -/
structure LogEntry where
  hamper : Nat
  cls : Nat
  unit : Nat
  kind : Nat
  ring : Nat := 0
  ctx : Nat := 0
deriving DecidableEq, Repr

/-- A log entry's 16 bytes at card time `t` (R426). -/
def LogEntry.bytes (e : LogEntry) (t : Nat) : List Byte :=
  leBytes 8 t ++ leBytes 1 e.hamper ++ leBytes 1 e.cls ++ leBytes 1 e.unit ++ leBytes 1 e.kind ++ leBytes 1 (e.ring % 16) ++
  leBytes 1 0 ++ leBytes 2 (e.ctx % 4096)

/-- The entry matches the settings of MG_FRZ_MATCH_CTL (R434): HAMPER 0xE and CLASS 0 match any
(DEDUCED, assumption log entry 110). -/
def Card.matches_ (c : Card) (e : LogEntry) : Bool :=
  let k := mg 0x5030
  c.bit k 31 && c.bit (mg 0x5000) 11 && e.kind == c.f k 27 24 && (c.f k 19 16 == 0xE || e.hamper == c.f k 19 16) &&
    (c.f k 15 8 == 0 || e.cls == c.f k 15 8)

/-- The fault-log interrupt is outstanding (R425). -/
def Card.noteFltMsg (c : Card) : Card := { c with fltMsg := true }

/-- One more entry met the match the freeze waits for. -/
def Card.countMatch (c : Card) : Card := { c with matchHits := c.matchHits + 1 }

/-- An entry is written (R425): the oldest unread one is overwritten when the log is full, vector 9 is raised once until
MG_FLT_HEAD is written, and after it the event match is judged (R434)
(DEDUCED, assumption log entry 113). -/
def Card.log (c : Card) (e : LogEntry) : Card :=
  let head := (c.reg (mg 0xC004)).toNat
  let tail := (c.reg (mg 0xC008)).toNat
  let c := if 256 ≤ diff32 tail head then (c.setN (mg 0xC004) (head + 1)).bump (mg 0xC00C) 1 else c
  let bs := e.bytes c.ns
  let base := mg (0xD000 + 16 * (tail % 256))
  let c := [0, 1, 2, 3].foldl (fun c i => c.setN (base + 4 * i) (leAt bs (4 * i) 4)) c
  let c := c.setN (mg 0xC008) (tail + 1)
  let c := if c.bit (mg 0xC000) 0 && !c.fltMsg then (c.raise 0 9).noteFltMsg else c
  if c.matches_ e then
    let c := c.countMatch
    if c.f (mg 0x5030) 7 0 ≤ c.matchHits then (c.setBit (mg 0x5030) 31 false).freezeRequest 6 else c
  else c

/-! ### Units -/

/-- The first index of a class in HP_FR_UNIT_COUNT (R423). -/
def unitBase : Nat → Nat
  | 1 => 0
  | 2 => 16
  | 3 => 20
  | 4 => 28
  | 5 => 29
  | 6 => 37
  | _ => 38

/-- The register of a unit's verdict counts: a colander's is in PF0 (R425). -/
def countReg (h cls u : Nat) : Nat := if cls = 7 then mg (0xC020 + 4 * u) else hp h (0xE0100 + 4 * (unitBase cls + u))

/-- The key of a unit's burst window. -/
def burstKey (h cls u : Nat) : Nat := if cls = 7 then 256 + u else 64 * h + unitBase cls + u

/-- The unit's fence, set or lifted. -/
def Card.setFence (c : Card) (h cls u : Nat) (b : Bool) : Card :=
  if cls = 7 then { c with colFence := tabPut false c.colFence u b }
  else (fenceBits (c.grMode h) cls u).foldl (fun c i => c.setBit (fenceReg h cls) i b) c

/-- The transients of a unit within the last BURST_WINDOW_MS of card time (R412). -/
def Card.inWindow (c : Card) (h cls u : Nat) : Nat :=
  c.burstCount (burstKey h cls u) (if cls = 7 then c.f (mg 0xC01C) 23 0 else c.f (hp h 0xE0000) 23 0)

/-- A unit is fenced with an event: FENCED of HP_FR_EVENTS and vector 18, or of MG_COL_EVENTS and vector 10. -/
def Card.fenceUnit (c : Card) (h cls u : Nat) : Card :=
  let c := c.setFence h cls u true
  if cls = 7 then c.event 0xE004 u 10 else c.hpEvent h 0xE0008 1 18

/-- A transient counted against a unit (R412, R421): TRANSIENTS, the burst window, and a fence with verdict BURST when the
window's count reaches BURST_COUNT. -/
def Card.transient (c : Card) (h cls u ring ctx kind : Nat) : Card :=
  let c := c.log { hamper := h, cls := cls, unit := u, kind := kind, ring := ring, ctx := ctx }
  let c := c.bumpF (countReg h cls u) 15 0 1
  let c : Card := { c with bursts := tabPut [] c.bursts (burstKey h cls u) (c.ns :: tabGet [] c.bursts (burstKey h cls u)) }
  let c := if cls = 7 ∨ kind ≠ 1 then c else c.hpEvent h 0xE0008 0 18
  let lim := if cls = 7 then c.f (mg 0xC01C) 31 24 else c.f (hp h 0xE0000) 31 24
  if lim ≠ 0 ∧ lim ≤ c.inWindow h cls u ∧ !c.fenced h cls u then
    (c.fenceUnit h cls u).log { hamper := h, cls := cls, unit := u, kind := 3, ring := ring, ctx := ctx }
  else c

/-! ### Retirement causes (R191, R581) -/

/-- The chunk's retirement cause arises on a physical rank: a rank in service, or one that hosts and is not a migration's
target, is queued to migrate from the chunk on; a MIGRATING rank and any other keep their state. -/
def Card.retireCause (c : Card) (rank chunk : Nat) : Card :=
  let st := c.rankState rank
  let isTarget := c.migr.any (fun m => m.target == rank)
  if (st = 1 ∨ (st = 5 ∧ !isTarget)) ∧ !(c.migrQ.any (fun q => q.1 == rank)) then { c with migrQ := c.migrQ ++ [(rank, chunk)] }
  else c

/-- A record of the card's own has changed: an internal STORE commits it, at once for some (R491). -/
def Card.recordsChanged (c : Card) (urgent : Bool) (f : KsRecords → KsRecords) : Card :=
  { c with keep := { c.keep with recs := f c.keep.recs, dirty := some (c.keep.dirty.getD c.ns), urgent := c.keep.urgent || urgent } }

/-- Rank `k` is recorded retired (R193, R491). -/
def Card.recordRetired (c : Card) (k : Nat) : Card :=
  c.recordsChanged true (fun (r : KsRecords) => { r with retired := nput r.retired k k 1 })

/-- The target of the running migration failed (R203): it reads RETIRED and is recorded, and the source migrates again
from the chunk reached. -/
def Card.targetFailed (c : Card) : Card :=
  match c.migr with
  | none => c
  | some m =>
    let c := (c.setRank m.target 4 m.source).recordRetired m.target
    { c with migr := some { m with prevs := ⟨m.target, m.start, m.done⟩ :: m.prevs, start := (m.start + m.done) % 65536, done := 0,
                                   target := 16 } }.setCapacity

/-- A cause on a rank: the running migration's target fails, any other rank is retired (R581). -/
def Card.cause (c : Card) (rank chunk : Nat) : Card :=
  if c.migr.any (fun m => m.target == rank) then c.targetFailed else c.retireCause rank chunk

/-! ### Errors of the stores -/

/-- Where a region's data offset lies now: the holding rank and the address within it. -/
def Card.lineAt (c : Card) (reg off : Nat) : Option (RegionEnt × Nat × Nat) :=
  (c.regionOf reg).bind (fun x => (c.phys (x.2.chanAddr off).1 (x.2.chanAddr off).2).map (fun k => (x.2, k.1, k.2)))

/-- The bytes of the 64-byte line at a physical number become values the spec leaves undefined (R191). -/
def Card.scramble (c : Card) (key : Nat) : Card :=
  (((List.range 64).foldl (fun (c : Card) i => c.memPut (key / 64 * 64 + i) (BitVec.ofNat 8 (Config.freeNat (c.fresh + i)))) c :
    Card)) |> fun c' => { c' with fresh := c'.fresh + 64 }

/-- A cache line is invalidated. -/
def Card.dropLine (c : Card) (ch line : Nat) : Card :=
  let set := line % 8192
  { c with cache := c.cache.filter (fun e => !(e.1 / 16 == ch * 8192 + set && e.2.any (fun l => l.tag == line / 8192))) }

/-- An SRAM word is known to be bad. -/
def Card.markSram (c : Card) (word : Nat) : Card := { c with sramBad := tabPut false c.sramBad word true }

/-- When a channel's corrected errors were last logged (one entry a second). -/
def Card.noteCe (c : Card) (ch : Nat) : Card := { c with ceLog := tabPut 0 c.ceLog ch (c.ns + 1) }

/-- One error that accesses of hamper `h` met (ring and context for the log): its counts, captures, log entries and
retirement cause, and the DETAIL with which it ends the operation, if it does
(DEDUCED, assumption log entry 119). -/
def Card.memErr (c : Card) (h ring ctx : Nat) (e : MemErr) : Card × Option Nat :=
  match e with
  | .corrected reg off =>
    match c.lineAt reg off with
    | some (r, rank, _) => if r.ecc then (c.countCe (rank / 2) 1 false, none) else (c, none)
    | none => (c, none)
  | .uncorrectable reg off =>
    match c.lineAt reg off with
    | some (r, rank, key) =>
      if !r.ecc then (c, none)
      else
        let c := c.capture rank key 1
        (if c.bit (mg 0x8000) 2 then c.cause rank (addrRow key) else c, some dMemUncorrected)
    | none => (c, none)
  | .rmw reg off =>
    match c.lineAt reg off with
    | some (r, rank, key) =>
      if !r.ecc then (c, none)
      else
        let c := (c.capture rank key 1).setPoison key true
        (if c.bit (mg 0x8000) 2 then c.cause rank (addrRow key) else c, none)
    | none => (c, none)
  | .replayed reg off n =>
    match c.lineAt reg off with
    | some (_, rank, _) => (c.countCe (rank / 2) (min n 3) true, none)
    | none => (c, none)
  | .persist reg off write =>
    match c.lineAt reg off with
    | some (r, rank, key) =>
      let c := (c.countCe (rank / 2) 3 true).capture rank key 2
      if c.bit (mg 0x8000) 2 then (c.cause rank (addrRow key), none)
      else
        let c := if write then
            let c := c.scramble key
            if r.ecc && c.freeB then (c.setPoison key true).draw else c.draw
          else c
        (c, some dMemUncorrected)
    | none => (c, none)
  | .sramCorrected _ => (c.bump (hp h 0xE0010) 1, none)
  | .sramUncorrectable off =>
    let c := (c.bump (hp h 0xE0014) 1).markSram (h * 2 ^ 23 + off / 8)
    (c.log { hamper := h, cls := 11, unit := 0xFF, kind := 9, ring := ring, ctx := ctx }, some 0xB2)
  | .cacheCorrected ch _ =>
    let c := c.bump (mg 0xC014) 1
    if tabGet 0 c.ceLog ch.val = 0 ∨ tabGet 0 c.ceLog ch.val + 1000000000 ≤ c.ns + 1 then
      let c := c.log { hamper := 0xF, cls := 9, unit := ch.val, kind := 10 }
      ((c.aerLog 0 .correctedInternal none).noteCe ch.val, none)
    else (c, none)
  | .cacheUncorrectable ch line dirty =>
    let ecc := hampers.any (fun g => (c.lay g).any (fun l => l.regions.any (fun r => r.ecc && nbit r.channels ch.val &&
      rangesMeet (r.offset * 0x200000) (r.size * 0x200000) (line * 64) 64)))
    if dirty && ecc then
      match c.phys ch.val (line * 64) with
      | some (_, key) => ((c.setPoison key true).dropLine ch.val line, some dMemUncorrected)
      | none => (c, none)
    else
      let c := match dirty, c.phys ch.val (line * 64) with
        | true, some (_, key) => c.scramble key
        | _, _ => c
      (((c.bump (mg 0xC018) 1).log { hamper := 0xF, cls := 9, unit := ch.val, kind := 11 }).dropLine ch.val line, none)

/-- Several errors in order; the first DETAIL that ends the operation stands. -/
def Card.memErrs (c : Card) (h ring ctx : Nat) : List MemErr → Card × Option Nat
  | [] => (c, none)
  | e :: t =>
    let r := c.memErr h ring ctx e
    let r' := r.1.memErrs h ring ctx t
    (r'.1, match r.2 with | some d => some d | none => r'.2)

/-- An uncorrectable error in a buffer's bookkeeping (R418): the buffer is OUT for context 0 and ring 0 and held. -/
def Card.bookErr (c : Card) (h p i : Nat) : Card :=
  (c.setBuf h p i (some { epoch := none, ctx := 0, ring := 0, time := ((c.buf h p i).map (fun b => b.time)).getD (c.ns / 2 ^ 20), held := true })).log
    { hamper := h, cls := 10, unit := p, kind := 12 }

/-! ### The log's own commands -/

/-- FAULT_LOG_HEAD_WRITE (R133, R425). -/
def execFaultLogHeadWrite (v : Word) (s : State) : Host.Outcome State Fault Refusal :=
  s.run fun c => c.hostWrite .pf0 0xC004 fun c =>
    if 256 < diff32 (c.reg (mg 0xC008)).toNat v.toNat then c.setBit (mg 0xC000) 1 true
    else
      let c : Card := { c.setReg (mg 0xC004) v with fltMsg := false }
      if c.reg (mg 0xC008) ≠ v ∧ c.bit (mg 0xC000) 0 then (c.raise 0 9).noteFltMsg else c

/-- FAULT_LOG_CLEAR (R425): HEAD becomes TAIL. The write's other fields are applied. -/
def execFaultLogClear (v : Word) (s : State) : Host.Outcome State Fault Refusal :=
  s.run fun c => c.hostWrite .pf0 0xC000 fun c =>
    let c := c.writeReg (mg 0xC000) v
    if fld v 31 31 = 1 then { c.setReg (mg 0xC004) (c.reg (mg 0xC008)) with fltMsg := false } else c

end Sys2Proof.Machine
end

