-- ==== Sys2Proof/Machine/Records.lean ====
section
/-! DEFINITION. The record writer (spec/16): the entries of record rings, the store of card-originated records, their
order and messages, and the payloads that the card itself originates. -/

namespace Sys2Proof.Machine

/-- The record writer of hamper `h` is fenced (R403). -/
def Card.recFenced (c : Card) (h : Nat) : Bool := c.fenced h 8 0

/-- Record ring `r` is enabled. -/
def Card.recEn (c : Card) (h r : Nat) : Bool := c.bit (ringReg h r 0x108) 31

/-- An entry can be written now (R378, R381, R401). -/
def Card.recRoom (c : Card) (h r : Nat) : Bool :=
  c.live && c.recEn h r && c.bme (c.ringFn h r) && !c.recFull h r

/-- `n` records discarded (R377, R383). -/
def Card.recDiscard (c : Card) (h n : Nat) : Card := c.bump (hp h 0xC0008) n

/-- The position of a record tagged with an epoch is remembered, when it is the first on its ring (R383). -/
def Card.markFirst (c : Card) (h r e pos : Nat) : Card :=
  let x := c.epochOf h e
  if e = 0 ∨ x.state ≠ 1 ∨ x.first.any (fun y => y.1 == r) then c
  else c.setEpoch h e { x with first := x.first ++ [(r, pos)] }

/-- The threshold message (R397): raised once unconsumed entries reach THRESH, and none until HEAD is written. -/
def Card.recMessage (c : Card) (h r : Nat) : Card :=
  let n := diff32 (c.reg (ringReg h r 0x110)).toNat (c.reg (ringReg h r 0x10C)).toNat
  let g := c.recRing h r
  if c.bit (ringReg h r 0x108) 29 && !g.msgOut && decide (max 1 (c.f (ringReg h r 0x108) 15 0) ≤ n) then
    (c.setRec h r { g with msgOut := true }).raise (c.ringFn h r) (if (c.ringVf h r).isSome then r else 16)
  else c

/-- One entry written at the ring's tail (R378): byte 1 bit 7 takes PHASE. -/
def Card.recEntry (c : Card) (h r : Nat) (e : List Byte) : Card :=
  let pos := (c.reg (ringReg h r 0x110)).toNat
  let log2 := c.f (ringReg h r 0x108) 20 16
  let phase := if pos / 2 ^ log2 % 2 = 0 then 128 else 0
  let bytes := (e.take 1) ++ leBytes 1 (leAt e 1 1 % 128 + phase) ++ e.drop 2
  let base := c.pair (ringReg h r 0x100) (ringReg h r 0x104) / 4096 * 4096
  let c := c.emit (.hostWrite (c.ringFn h r) (base + 64 * (pos % 2 ^ log2)) bytes)
  let c := c.markFirst h r (leAt e 0xC 2) pos
  (c.setN (ringReg h r 0x110) (pos + 1)).recMessage h r

/-- A record other than a HEARTBEAT has been written: the counts and the pace monitor's (R35, R381, R398). -/
def Card.recCount (c : Card) (h r : Nat) : Card :=
  let c := (c.bump (hp h 0xC0004) 1).setRec h r { c.recRing h r with written := wrap32 ((c.recRing h r).written + 1) }
  c.setPace h { c.paceOf h with records := (c.paceOf h).records + 1 }

/-- FIRST_POS of a RETRACTION whose ring carried no record of the epoch is its own position (R383). -/
def ownFirstPos (e : List Byte) (pos : Nat) : List Byte := e.take 0x20 ++ leBytes 4 pos ++ e.drop 0x24

/-- The store of a ring is written as far as there is room (R379, R380); nothing of it falls between two records of one
operation. `fuel` bounds the entries. -/
def Card.flushGo (h r : Nat) : Nat → Card → Card
  | 0, c => c
  | fuel + 1, c =>
    let g := c.recRing h r
    if g.midOp then c
    else match g.store with
      | [] => c
      | x :: rest =>
        match x.entries with
        | [] => Card.flushGo h r fuel (c.setRec h r { g with store := rest })
        | e :: es =>
          if !c.recRoom h r then c
          else
            let e := if x.ownPos then ownFirstPos e (c.reg (ringReg h r 0x110)).toNat else e
            let g' := if es.isEmpty then { g with store := rest } else { g with store := { x with entries := es } :: rest }
            let c := (c.setRec h r g').recEntry h r e
            let c := if !es.isEmpty || x.beat then c else c.recCount h r
            let c := if es.isEmpty && x.retract then c.bump (hp h 0xC000C) 1 else c
            Card.flushGo h r fuel c

/-- The store of a ring is written. -/
def Card.recFlush (c : Card) (h r : Nat) : Card := Card.flushGo h r (5 * 256) c

/-- Free entries of the store (R380). -/
def Card.storeFree (c : Card) (h r : Nat) : Nat := 256 - (((c.recRing h r).store.map (fun x => x.entries.length)).sum)

/-- A card-originated record arises for a ring: discarded and counted where the ring is off or the writer fenced (R377,
R403), else stored and written; `false` when it finds no room. -/
def Card.originate (c : Card) (h r : Nat) (x : CardRec) : Card × Bool :=
  if !c.recEn h r || c.recFenced h then (c.recDiscard h 1, true)
  else if c.storeFree h r < x.entries.length then (c, false)
  else ((c.setRec h r { c.recRing h r with store := (c.recRing h r).store ++ [x] }).recFlush h r, true)

/-- An operation's records are written as far as there is room (R379, R381): what remains is held. Records bound for a
ring that is off are discarded and counted (R377). -/
def Card.opRecords (c : Card) (h r : Nat) : List (List Byte) → Card × List (List Byte)
  | [] => (c.setRec h r { c.recRing h r with midOp := false }, [])
  | e :: es =>
    if !c.recEn h r then ((c.setRec h r { c.recRing h r with midOp := false }).recDiscard h (es.length + 1), [])
    else if !c.recRoom h r then (c, e :: es)
    else
      let c := ((c.setRec h r { c.recRing h r with midOp := true }).recEntry h r e).recCount h r
      c.opRecords h r es

/-! ### Forms (R385 to R394) -/

/-- A record's header (R385). -/
def recHeader (type flags stream frame index epoch validity : Nat) : List Byte :=
  leBytes 1 type ++ leBytes 1 flags ++ leBytes 2 stream ++ leBytes 4 frame ++ leBytes 4 index ++ leBytes 2 epoch ++
  leBytes 1 validity ++ leBytes 1 0

/-- A record's entry: the header, and the payload padded with zeros to 48 bytes. -/
def recBytes (hd payload : List Byte) : List Byte := hd ++ (payload ++ List.replicate 48 0).take 48

/-- A STREAM_EVENT (R392) of stream `s`, written to the opening ring; it counts in INDEX and sets the context's bit of
HP_IN_EVENTS (R255, vector 20). One that finds no room in the store is left out. -/
def Card.streamEvent (c : Card) (h s kind frame epoch : Nat) (detail : List Byte) : Card × Bool :=
  match c.stream h s with
  | none => (c, true)
  | some t =>
    let hd := recHeader 7 0 s frame t.events epoch 255
    let pl := leBytes 2 kind ++ leBytes 2 0 ++ leBytes 8 c.ns ++ leBytes 2 t.ctx ++ leBytes 1 t.ring ++ leBytes 1 0 ++ detail
    let p := c.originate h t.ring { entries := [recBytes hd pl] }
    if p.2 then
      ((p.1.setStream h s (some { t with events := t.events + 1 })).hpEvent h (0x60008 + 4 * (s / 32)) (s % 32) 20, true)
    else (p.1, false)

/-- A RETRACTION of epoch `e` for record ring `r` (R383, R393). -/
def Card.retraction (c : Card) (h r e cause : Nat) : CardRec :=
  let x := c.epochOf h e
  let fp := (x.first.find? (fun y => y.1 == r)).map (fun y => y.2)
  { entries := [recBytes (recHeader 8 0 x.stream 0xFFFFFFFF 0 0 255)
      (leBytes 2 e ++ leBytes 1 cause ++ leBytes 1 0 ++ leBytes 4 x.decodeNo ++ leBytes 8 c.ns ++ leBytes 4 (fp.getD 0))]
    ownPos := fp.isNone, retract := true }

/-- The record rings that receive a RETRACTION of an epoch: those that carried a record of it, the opening ring of the
picture's stream, and the ring of a WITHDRAW (R383). -/
def Card.retractRings (c : Card) (h e : Nat) (by_ : Option Nat) : List Nat :=
  let x := c.epochOf h e
  (List.range 16).filter (fun r => x.first.any (fun y => y.1 == r) || x.opener == some r || by_ == some r)

/-- Every store that a RETRACTION would go to has room (R380). -/
def Card.retractRoom (c : Card) (h e : Nat) (by_ : Option Nat) : Bool :=
  (c.retractRings h e by_).all (fun r => !c.recEn h r || c.recFenced h || decide (0 < c.storeFree h r))

/-- The entries of records tagged `e` among a list, left out; with their number. -/
def dropTagged (e : Nat) (l : List (List Byte)) : List (List Byte) × Nat :=
  (l.filter (fun b => leAt b 0xC 2 != e), (l.filter (fun b => leAt b 0xC 2 == e)).length)

/-- Records tagged with a withdrawn epoch that are not yet written are discarded and counted (R383): in the stores, and
of operations. A GRAIN_PARAMS record counts once. -/
def Card.dropRecords (c : Card) (h e : Nat) : Card :=
  (List.range 16).foldl (fun c r =>
    let g := c.recRing h r
    let gone := (g.store.filter (fun (x : CardRec) => x.entries.any (fun b => leAt b 0xC 2 == e))).length
    let q := (c.ring h r).q
    let n := (q.map (fun o => (dropTagged e o.records).2)).sum
    let q' := q.map (fun (o : Op) => { o with records := (dropTagged e o.records).1 })
    let c := c.setRec h r { g with store := g.store.filter (fun (x : CardRec) => !x.entries.any (fun b => leAt b 0xC 2 == e)),
                                   midOp := g.midOp && (q'.head?).any (fun o => !o.records.isEmpty) }
    (c.setRing h r { c.ring h r with q := q' }).recDiscard h (gone + n)) c

/-- One RETRACTION to each ring that is due one (R383). -/
def Card.retract (c : Card) (h e cause : Nat) (by_ : Option Nat) : Card :=
  (c.retractRings h e by_).foldl (fun c r => (c.originate h r (c.retraction h r e cause)).1) c

/-! ### Commands -/

/-- A write to a doorbell page or ring page reaches ring `r`, and record ring `r`, only from the function that owns it
(R82, R84, R85, R376). -/
def Card.ownsRing (c : Card) (fn : Fn) (r : Nat) : Option Nat :=
  match fn with
  | .pf0 => none
  | .pf h => if (c.ringVf h.val r).isNone then some h.val else none
  | .vf h v => if c.ringVf h.val r = some v.val then some h.val else none

/-- RECORD_RING_ENABLE (R397): the write's fields, then positions, TAIL and INDEX counts restart at 0. The first
heartbeat falls due INTERVAL_US later (R394)
(DEDUCED, assumption log entry 118). -/
def execRecordRingEnable (fn : Fn) (r : Fin 16) (v : Word) (s : State) : Host.Outcome State Fault Refusal :=
  s.run fun c => c.hostWrite fn (0x10108 + 0x1000 * r.val) fun c =>
    match c.ownsRing fn r.val with
    | none => c
    | some h =>
      let on := c.recEn h r.val
      let c := c.writeReg (ringReg h r.val 0x108) v
      if on || fld v 31 31 = 0 then c
      else
        let c := ((c.setBit (ringReg h r.val 0x108) 31 true).setN (ringReg h r.val 0x110) 0).setN (ringReg h r.val 0x10C) 0
        c.setRec h r.val { store := [], beatAt := c.ns + 1000 * c.f (ringReg h r.val 0x118) 23 0 }

/-- HEARTBEAT (R380, R394): card time reaches the moment the interval ends; a heartbeat that finds no room is skipped
and counted. -/
def execHeartbeat (h : Fin 4) (r : Fin 16) (s : State) : Host.Outcome State Fault Refusal :=
  s.run fun c =>
    let i := c.f (ringReg h.val r.val 0x118) 23 0
    if !c.live || !c.recEn h.val r.val || i == 0 then c
    else
      let g := c.recRing h.val r.val
      let c := c.advanceTo g.beatAt
      let c := c.setRec h.val r.val { g with beatAt := g.beatAt + 1000 * i, beats := wrap32 (g.beats + 1) }
      let open_ := (c.epochs.filter (fun e => e.1 / 65536 == h.val && e.2.state == 1)).length
      let pl := leBytes 8 c.ns ++ leBytes 4 g.written ++ leBytes 2 (c.f (mg (0x1020 + 4 * h.val)) 31 16) ++
        leBytes 1 (c.f (mg (0x1020 + 4 * h.val)) 1 0) ++ leBytes 1 0 ++ leBytes 2 (c.f (mg 0x1008) 15 0) ++ leBytes 2 open_
      let p := c.originate h.val r.val { entries := [recBytes (recHeader 9 0 0xFFFF 0xFFFFFFFF g.beats 0 255) pl], beat := true }
      if p.2 then p.1 else c.bump (ringReg h.val r.val 0x11C) 1

end Sys2Proof.Machine
end

