-- ==== Sys2Proof/Machine/Rings.lean ====
section
/-! DEFINITION. Rings, slots and commands, waits and signals, the release of reports in ring order (spec/05), and host
fetches (spec/04 R80). -/

namespace Sys2Proof.Machine

/-- The status codes of R114. -/
abbrev stDone : Nat := 0
abbrev stRetried : Nat := 1
abbrev stFailedInput : Nat := 2
abbrev stFailedUnit : Nat := 3
abbrev stFlushed : Nat := 4
abbrev stRefused : Nat := 5
abbrev stCancelled : Nat := 6

/-- An operation with its outcome. -/
def Op.outcome (o : Op) (status detail ext : Nat) : Op := { o with status := status, detail := detail, ext := ext }

/-- Ring `r`'s ENABLE. -/
def Card.ringOn (c : Card) (h r : Nat) : Bool := c.bit (ringReg h r 8) 31

/-- Bus Master Enable of the function that owns ring `r`. -/
def Card.ringBme (c : Card) (h r : Nat) : Bool := (c.cfgOf (c.ringFn h r)).bme

/-- One operation of a ring replaced, by its sequence number. -/
def Card.setOp (c : Card) (h r : Nat) (o : Op) : Card :=
  let g := c.ring h r
  c.setRing h r { g with q := g.q.map (fun x => if x.seq = o.seq ∧ x.gen = o.gen then o else x) }

/-- The operation of a ring with a sequence number of the present generation. -/
def Card.opOf (c : Card) (h r seq : Nat) : Option Op :=
  (c.ring h r).q.find? (fun o => o.seq == seq && o.gen == (c.ring h r).gen)

/-! ### Semaphores -/

/-- A signal or host write applied to a global semaphore (R107): SET_MAX, or ADD saturating at 2^64 − 1; a SET_MAX that
does not raise the value is counted (R122 STALE). -/
def Card.semApply (c : Card) (g op val : Nat) : Card :=
  let v := c.sem g
  if op = 0 then
    if v < val then { c with sems := tabPut 0 c.sems g val } else c.bump (hp (g / 4096) 0x28014) 1
  else { c with sems := tabPut 0 c.sems g (min (2 ^ 64 - 1) (v + val)) }

/-- A semaphore report: the new value written to the mirror area (R123). -/
def Card.semReport (c : Card) (g fnNum : Nat) : Card :=
  let h := g / 4096
  if c.bit (hp h 0x28008) 0 then
    let base := c.pair (hp h 0x28008) (hp h 0x2800C) / 2 ^ 15 * 2 ^ 15
    c.emit (.hostWrite fnNum (base + 8 * (g % 4096)) (leBytes 8 (c.sem g)))
  else c

/-! ### Reports and release -/

/-- A report's 16 bytes at a position (R113, R117): PHASE is 1 on the first pass of the completion ring and alternates. -/
def Report.bytes (p : Report) (pos log2 : Nat) : List Byte :=
  leBytes 4 p.seq ++ leBytes 2 p.gen ++ leBytes 1 p.status ++
  leBytes 1 ((if pos / 2 ^ log2 % 2 = 0 then 1 else 0) + 2 * b2n p.front) ++
  leBytes 4 p.tag ++ leBytes 2 p.detail ++ leBytes 2 p.ext

/-- The report of an operation. -/
def Op.toReport (o : Op) : Report :=
  { seq := o.seq, gen := o.gen, status := o.status, front := o.front, tag := o.tag, detail := o.detail, ext := o.ext }

/-- A held FLUSHED report, as an entry to release. -/
def Report.toOp (p : Report) : Op :=
  { seq := p.seq, gen := p.gen, fnNum := 0, ctx := 0, opcode := 0, front := p.front, group := 0, tag := p.tag, param := 0,
    report := true, mirror := false, waits := [], signal := none, body := [], phase := .retired, status := p.status,
    detail := p.detail, ext := p.ext }

/-- The card writes a report for the operation (R116). -/
def Op.reports (o : Op) : Bool := o.report || (o.status != stDone && o.status != stRetried)

/-- The status gives the signal (R114). -/
def Op.signals (o : Op) : Bool := o.status == stDone || o.status == stRetried

/-- What keeps the front entry of a ring from its release: host output held while Bus Master Enable is 0 (R98), or a full
completion ring (R117); its records come first (R125). -/
inductive Hold where
  | no
  | busMaster
  | cplFull
  | records
deriving DecidableEq, Repr

/-- Why an operation is held, if it is. -/
def Card.holdOf (c : Card) (h r : Nat) (o : Op) : Hold :=
  let mirrors := o.signals && o.mirror && o.signal.isSome && c.bit (hp h 0x28008) 0
  if !o.records.isEmpty then .records
  else if (o.reports || mirrors) && !c.ringBme h r then .busMaster
  else if o.reports && decide (2 ^ c.f (ringReg h r 8) 25 21 ≤ diff32 (c.ring h r).pos (c.reg (ringReg h r 0x18)).toNat) then .cplFull
  else .no

/-- One operation released (R112, R125): its report is written, its signal applied, the semaphore report written, and its
entry freed. A signal of work under an open epoch is held with the epoch (R361). -/
def Card.releaseOp (c : Card) (h r : Nat) (o : Op) : Card :=
  let g := c.ring h r
  let log2 := c.f (ringReg h r 8) 25 21
  let c := if o.reports then
      let base := c.pair (ringReg h r 0x10) (ringReg h r 0x14) / 4096 * 4096
      c.emit (.hostWrite (c.ringFn h r) (base + 16 * (g.pos % 2 ^ log2)) (o.toReport.bytes g.pos log2))
    else c
  let stop := o.reports && !o.signals && c.bit (ringReg h r 8) 30
  let c := c.setRing h r { g with q := g.q.drop 1, pos := if o.reports then wrap32 (g.pos + 1) else g.pos, stopped := g.stopped || stop }
  let c := if stop then c.setBit (ringReg h r 0x28) 2 true else c
  match o.signal with
  | some u =>
    if o.signals then
      let e := match o.epoch with | some e => if c.unsettled h e then e else 0 | none => 0
      if e ≠ 0 ∨ c.heldSigs.any (fun x => x.hamper == h && x.ring == r) then
        { c with heldSigs := c.heldSigs ++ [⟨h, r, e, u.sem, u.op, u.val, o.mirror, c.ringFn h r⟩] }
      else
        let c := c.semApply u.sem u.op u.val
        if o.mirror then c.semReport u.sem (c.ringFn h r) else c
    else c
  | none => c

/-- The held signals whose turn has come are applied in order (R361): a held signal holds every later signal of its ring. One
whose semaphore report must wait for Bus Master Enable is held too (R98). `stuck` names the rings that still hold. -/
def Card.applySigs : List HeldSig → List (Nat × Nat) → Card → Card
  | [], _, c => c
  | x :: t, stuck, c =>
    if stuck.contains (x.hamper, x.ring) then Card.applySigs t stuck { c with heldSigs := c.heldSigs ++ [x] }
    else if c.unsettled x.hamper x.epoch || (x.mirror && c.bit (hp (x.sem / 4096) 0x28008) 0 && !c.bme x.fnNum) then
      Card.applySigs t ((x.hamper, x.ring) :: stuck) { c with heldSigs := c.heldSigs ++ [x] }
    else
      let c := c.semApply x.sem x.op x.val
      Card.applySigs t stuck (if x.mirror then c.semReport x.sem x.fnNum else c)

/-- The held signals go over once more, after an epoch has settled. -/
def Card.settleSigs (c : Card) : Card := Card.applySigs c.heldSigs [] { c with heldSigs := [] }

/-- The retired operations at the front of a ring are released one after another (R125); `wrote` says that a report has
been written. A full completion ring sets CPL_FULL. -/
def Card.releaseGo (h r : Nat) : Nat → Card → Bool → Card × Bool
  | 0, c, w => (c, w)
  | fuel + 1, c, w =>
    match (c.ring h r).q with
    | o :: _ =>
      if o.phase == .retired then
        let w' := c.opRecords h r o.records
        let o : Op := { o with records := w'.2 }
        let c := w'.1.setOp h r o
        match c.holdOf h r o with
        | .no => Card.releaseGo h r fuel (c.releaseOp h r o) (w || o.reports)
        | .cplFull => (c.setBit (ringReg h r 0x28) 3 true, w)
        | _ => (c, w)
      else (c, w)
    | [] => (c, w)

/-- The completion message (R121): once for each group of reports, with IRQ_EN at 1, and none until the head is written. -/
def Card.cplMessage (c : Card) (h r : Nat) : Card :=
  let g := c.ring h r
  if c.bit (ringReg h r 8) 29 && !g.msgOut then (c.setRing h r { g with msgOut := true }).raise (c.ringFn h r) r else c

/-- Release what can be released, then the message. -/
def Card.release (c : Card) (h r : Nat) : Card :=
  let c := c.recFlush h r
  let p := Card.releaseGo h r (c.ring h r).q.length c false
  let p := (p.1.recFlush h r, p.2)
  if p.2 then p.1.cplMessage h r else p.1

/-! ### Fetching -/

/-- The pieces of a read of host memory: none longer than Max_Read_Request_Size, none crossing a boundary of it (R77). -/
def readPieces (m : Nat) : Nat → Nat → Nat → List (Nat × Nat)
  | 0, _, _ => []
  | fuel + 1, a, n =>
    if n = 0 then [] else let k := min n (m - a % m); (a, k) :: readPieces m fuel (a + k) (n - k)

/-- A read of host memory is issued for a ring's front end or an operation. -/
def Card.issueRead (c : Card) (h r : Nat) (seq : Option Nat) (addr len : Nat) : Card × Nat :=
  let fnNum := c.ringFn h r
  ({ c.emit (.hostRead fnNum c.nextRid addr len) with
      nextRid := c.nextRid + 1,
      reads := c.reads ++ [{ rid := c.nextRid, fnNum := fnNum, hamper := h, ring := r, seq := seq, addr := addr, len := len }] },
   c.nextRid)

/-- The reads that bring `n` bytes of host memory from an address, but for what `got` holds: with their identities. A virtual
function's reads follow the setting of its PF. -/
def Card.issueReads (c : Card) (h r : Nat) (seq : Option Nat) (got : List HostBytes) (addr n : Nat) : Card × List Nat :=
  let m := 128 * 2 ^ (c.cfgOf (pfOf (c.ringFn h r))).mrrs
  (readPieces m (n / m + 2) addr n).foldl (fun (x : Card × List Nat) q =>
    if (delivered got q.1 q.2).isSome then x
    else let p := x.1.issueRead h r seq q.1 q.2; (p.1, x.2 ++ [p.2])) (c, [])

/-- The next slot is fetched when the ring runs, nothing is being fetched, no decoded command waits (DESIGN CHOICE,
assumption log entry 14), the doorbell covers a slot and Bus Master Enable is 1 (R98). -/
def Card.fetchNext (c : Card) (h r : Nat) : Card :=
  let g := c.ring h r
  if c.live && c.ringOn h r && !g.draining && !g.stopped && g.fetch == .idle && g.cons != g.prod && c.ringBme h r &&
      !(g.q.any (fun o => o.phase == .waiting)) then
    let base := c.pair (ringReg h r 0) (ringReg h r 4) / 4096 * 4096
    let p := c.issueRead h r none (base + 64 * (g.cons % 2 ^ c.f (ringReg h r 8) 20 16)) 64
    p.1.setRing h r { g with fetch := .slot p.2 }
  else c

/-- A wait on a semaphore of hamper `o` is visible to hamper `h` (R109). -/
def Card.semVisible (c : Card) (h sem : Nat) : Bool := sem / 4096 == h || c.bit (hp (sem / 4096) 0x28000) h

/-- The head command is found: it reaches the head now, and a wait that breaks R109 refuses it. -/
def Card.headGo (h r : Nat) : Nat → Card → Card
  | 0, c => c
  | fuel + 1, c =>
    match (c.ring h r).q.find? (fun o => o.phase == .waiting) with
    | none => c
    | some o =>
      if o.headAt.isSome then c
      else if o.waits.all (fun w => c.semVisible h w.sem) then c.setOp h r { o with headAt := some c.ns, waitOk := true }
      else Card.headGo h r fuel (c.setOp h r ({ o with phase := .retired }.outcome stRefused 6 0))

/-- The ring goes on: its head command, its releases, its next fetch. A ring that has stopped dispatches nothing. -/
def Card.pump (c : Card) (h r : Nat) : Card :=
  let c := if (c.ring h r).stopped || !c.ringOn h r then c else Card.headGo h r ((c.ring h r).q.length + 1) c
  (c.release h r).fetchNext h r

/-! ### Decoding (R103 to R105, R115, R126) -/

/-- A command that is not run, as an entry that has retired with its outcome. -/
def Card.deadOp (c : Card) (h r ctx : Nat) (hd : Header) (status detail : Nat) : Op :=
  { seq := (c.ring h r).seq, gen := (c.ring h r).gen, fnNum := c.ringFn h r, ctx := ctx, opcode := hd.opcode, front := hd.front,
    group := hd.group, tag := hd.tag, param := hd.param, report := hd.report, mirror := hd.mirror, waits := [], signal := none,
    body := [], phase := .retired, status := status, detail := detail }

/-- An entry appended to a ring, taking the next sequence number. -/
def Card.pushOp (c : Card) (h r : Nat) (o : Op) : Card :=
  let g := c.ring h r
  c.setRing h r { g with q := g.q ++ [o], seq := wrap32 (g.seq + 1) }

/-- The group entry a command names. -/
def Card.groupOf (c : Card) (h g : Nat) : Option Group := (c.lay h).bind (fun l => l.groups[g]?)

/-- What refuses a command other than its length: the first that applies, in the table's order (R115). `b` is the command's
bytes. -/
def Card.refuses (c : Card) (h r ctx : Nat) (hd : Header) (b : List Byte) : Option Nat :=
  let ws := (List.range hd.waits).map (fun i => readWait (b.drop (16 + 16 * i)))
  let sg := if hd.signal then some (readSignal (b.drop (16 + 16 * hd.waits))) else none
  let grp := c.groupOf h hd.group
  if hd.bad || ws.any (fun w => w.bad) || sg.any (fun w => w.bad) ||
      (hd.front && (hd.param != 0 || hd.units != 1 + hd.waits + b2n hd.signal)) then some 3
  else if hd.front && decide (2 < hd.opcode) then some 4
  else if hd.front && hd.group != 0 then some 5
  else if !hd.front && grp.isNone then some 5
  else if !hd.front && grp.any (fun g => (bodyUnits g.cls hd.opcode).isNone) then some 4
  else if !hd.front && grp.any (fun g => !nbit g.rings r) then some 5
  else if sg.any (fun w => w.sem / 4096 != h || (match c.ringVf h r with | some v => !c.vfHasSem h v (w.sem % 4096) | none => false))
    then some 7
  else if ctx == 0 || (match c.ringVf h r with | some v => !c.vfHasCtx h v ctx | none => false) then some 8
  else none

/-- A command that runs, once it is dispatched. -/
def Card.liveOp (c : Card) (h r ctx : Nat) (hd : Header) (b : List Byte) : Op :=
  let pre := 16 * (1 + hd.waits + b2n hd.signal)
  { c.deadOp h r ctx hd 0 0 with
    phase := .waiting
    cls := if hd.front then 0 else ((c.groupOf h hd.group).map (fun g => g.cls)).getD 0
    waits := (List.range hd.waits).map (fun i => let w := readWait (b.drop (16 + 16 * i)); ⟨w.sem, 0, w.val⟩)
    signal := if hd.signal then (let w := readSignal (b.drop (16 + 16 * hd.waits)); some ⟨w.sem, w.op, w.val⟩) else none
    body := b.drop pre }

/-- The body's length is that of the opcode, where the class is known and defines it. -/
def Card.bodyOk (c : Card) (h : Nat) (hd : Header) : Bool :=
  hd.front || match (c.groupOf h hd.group).bind (fun g => bodyUnits g.cls hd.opcode) with
    | some n => hd.units == 1 + hd.waits + b2n hd.signal + n
    | none => true

/-- The commands of a slot or list, one after another: a command whose length cannot be trusted ends the list with one
report (R126). `fuel` bounds the commands
(DEDUCED, assumption log entry 111). -/
def Card.decodeGo (h r ctx : Nat) : Nat → Card → List Byte → Card
  | 0, c, _ => c
  | fuel + 1, c, bs =>
    if bs.isEmpty then c
    else
      let hd := readHeader bs
      let n := 16 * hd.units
      if hd.units = 0 ∨ bs.length < n ∨ hd.units < 1 + hd.waits + b2n hd.signal ∨ !c.bodyOk h hd then
        c.pushOp h r (c.deadOp h r ctx hd stRefused 2)
      else
        let b := bs.take n
        let o := match c.refuses h r ctx hd b with
          | some d => c.deadOp h r ctx hd stRefused d
          | none => c.liveOp h r ctx hd b
        Card.decodeGo h r ctx fuel (c.pushOp h r o) (bs.drop n)

/-- One report that stands for a whole slot, or for what a failed fetch did not bring: TAG 0. -/
def Card.pushDead (c : Card) (h r ctx status detail : Nat) : Card := c.pushOp h r (c.deadOp h r ctx (readHeader []) status detail)

/-- A reserved field of the slot is nonzero (R103). A LIST_ADDR that is not 16-byte aligned counts as one
(DESIGN CHOICE, assumption log entry 134). -/
def slotReserved (b : List Byte) : Bool :=
  let kind := leAt b 0 1
  let units := leAt b 1 1
  let addr := leAt b 8 8
  leAt b 2 2 != 0 || leAt b 4 2 / 4096 != 0 || leAt b 6 2 != 0 ||
  (match kind with
   | 1 => addr != 0 || leNat (b.drop (16 + 16 * units)) != 0
   | 2 => units != 0 || addr % 16 != 0 || leAt b 0x14 44 != 0
   | 3 => units != 0 || addr % 16 != 0 || leAt b 0x14 44 != 0
   | _ => units != 0 || addr != 0)

/-- What ended a list before its end (R115, R127): a DETAIL, and the translation fault, if it was one. -/
structure ListEnd where
  detail : Nat
  fault : Option XFault := none

/-- The card reads a LIST_CARD list, from card memory and, through HOST leaves (R142), from what `got` holds of host memory: the
bytes up to the first 16 that it cannot read, and why. The front end is no mover, so a REMOTE leaf is a fault (R531)
(DESIGN CHOICE, assumption log entry 136). -/
def Card.cardList (c : Card) (h ctx : Nat) (got : List HostBytes) (va units : Nat) : List Byte × Option ListEnd :=
  (List.range units).foldl (fun (acc : List Byte × Option ListEnd) i =>
    match acc.2 with
    | some _ => acc
    | none => match c.vread h ctx got (va + 16 * i) 16 with
      | .ok bs => (acc.1 ++ bs, none)
      | .fault f => (acc.1, some { detail := 0x31, fault := some f })
      | .need l =>
        if l.any (fun x => match x with | .remote .. => true | .host .. => false) then
          (acc.1, some { detail := 0x31, fault := some ⟨dBadEntry, 0, va + 16 * i⟩ })
        else (acc.1, some { detail := 0x30 })) ([], none)

/-- The host memory that a LIST_CARD list needs through HOST leaves, up to its first fault. -/
def Card.cardNeeds (c : Card) (h ctx va units : Nat) : List (Nat × Nat) :=
  let stop := ((List.range units).find? (fun i => match c.vread h ctx [] (va + 16 * i) 16 with
    | .fault _ => true
    | .need l => l.any (fun x => match x with | .remote .. => true | .host .. => false)
    | .ok _ => false)).getD units
  match c.vread h ctx [] va (16 * stop) with
  | .need l => l.filterMap (fun x => match x with | .host a n => some (a, n) | .remote .. => none)
  | _ => []

/-- The bytes of a list in host memory that have come without a gap, and whether that is all of it (R127). -/
def hostList (got : List HostBytes) (addr units : Nat) : List Byte × Option ListEnd :=
  let n := ((List.range units).find? (fun i => (delivered got (addr + 16 * i) 16).isNone)).getD units
  ((delivered got addr (16 * n)).getD [], if n = units then none else some { detail := 0x30 })

/-- The commands of a list that came whole in `data`; `detail` is that of a fetch which failed after them (R127): the
commands decoded run, and one FAILED_INPUT report takes the next sequence number. -/
def Card.decodeList (c : Card) (h r ctx : Nat) (data : List Byte) (detail : Nat) : Card :=
  let whole := if detail = 0 then data else
    -- only whole commands of what arrived are decoded
    data.take (16 * (Nat.rec (motive := fun _ => Nat → Nat) (fun i => i) (fun _ ih i =>
      let u := leAt (data.drop (16 * i)) 2 1
      if u = 0 ∨ data.length < 16 * (i + u) then i else ih (i + u)) data.length 0))
  let c := Card.decodeGo h r ctx (whole.length / 16 + 1) c whole
  if detail = 0 then c else c.pushDead h r ctx stFailedInput detail

/-- The list that a slot points to is decoded as far as it has come; a translation fault is counted (R147). -/
def Card.decodeArrived (c : Card) (h r ctx units addr : Nat) (card : Bool) (got : List HostBytes) : Card :=
  let x := if card then c.cardList h ctx got addr units else hostList got addr units
  let c := if card then c.readDone h ctx addr (16 * units) else c
  match x.2 with
  | none => c.decodeList h r ctx x.1 0
  | some e => (match e.fault with | some f => c.xlFault h r ctx f | none => c).decodeList h r ctx x.1 e.detail

/-- The reads of a list are issued; the ring waits for them. -/
def Card.fetchList (c : Card) (h r ctx units addr : Nat) (card : Bool) (needs : List (Nat × Nat)) : Card :=
  let p := needs.foldl (fun (x : Card × List Nat) q => let y := x.1.issueReads h r none [] q.1 q.2; (y.1, x.2 ++ y.2)) (c, [])
  p.1.setRing h r { p.1.ring h r with fetch := .list ctx units addr card p.2 [] }

/-- A slot is decoded (R102, R103, R126, R135): its commands, or the list it points to. A reserved field of the slot's header
gives one report for the slot, and INLINE_UNITS or LIST_UNITS out of range is a bad length
(DESIGN CHOICE, assumption log entries 133 and 134). -/
def Card.decodeSlot (c : Card) (h r : Nat) (b : List Byte) : Card :=
  let kind := leAt b 0 1
  let ctx := leAt b 4 2 % 4096
  let units := leAt b 1 1
  let list := leAt b 0x10 4
  let inRange := ctx != 0 && (match c.ringVf h r with | some v => c.vfHasCtx h v ctx | none => true)
  if 3 < kind then c.pushDead h r ctx stRefused 1
  else if (kind = 1 ∧ (units = 0 ∨ 3 < units)) ∨ (2 ≤ kind ∧ (list = 0 ∨ 65536 < list)) then c.pushDead h r ctx stRefused 2
  else if slotReserved b then c.pushDead h r ctx stRefused 3
  else if inRange && !c.ctxOn h ctx then c.pushDead h r ctx stRefused dCtxDisabled
  else match kind with
    | 0 => c
    | 1 => c.decodeList h r ctx ((b.drop 16).take (16 * units)) 0
    | 2 => c.fetchList h r ctx list (leAt b 8 8) false [(leAt b 8 8, 16 * list)]
    | _ =>
      if !inRange then c.pushDead h r ctx stRefused 8
      else match c.cardNeeds h ctx (leAt b 8 8) list with
        | [] => c.decodeArrived h r ctx list (leAt b 8 8) true []
        | l => c.fetchList h r ctx list (leAt b 8 8) true l

/-! ### Host fetches -/

/-- An operation fails because a fetch of its input failed (R80, R115): its other reads are discarded on arrival. -/
def Card.opFetchFailed (c : Card) (h r seq : Nat) : Card :=
  match c.opOf h r seq with
  | none => c
  | some o =>
    let c := { c with reads := c.reads.map (fun (x : HostRead) => if x.hamper == h && x.ring == r && x.seq == some seq then { x with discard := true } else x) }
    let c := if o.cls = 1 ∧ o.opcode = 2 then c.feedCut h o [] else c
    c.setOp h r ({ o with phase := .ran, reads := [] }.outcome stFailedInput 0x30 0)

/-- A read is no longer outstanding. -/
def Card.endRead (c : Card) (rid : Nat) : Card := { c with reads := c.reads.filter (fun y => y.rid != rid) }

/-- The reads of a ring's front end are discarded on arrival. -/
def Card.discardFetch (c : Card) (h r : Nat) : Card :=
  { c with reads := c.reads.map (fun x => if x.hamper == h && x.ring == r && x.seq.isNone then { x with discard := true } else x) }

/-- A fetch ends as a timed-out fetch ends (R80, R127): of a list, what has come without a gap is decoded
(DEDUCED, assumption log entry 104). -/
def Card.fetchFailed (c : Card) (x : HostRead) : Card :=
  match x.seq with
  | some q => c.opFetchFailed x.hamper x.ring q
  | none =>
    let g := c.ring x.hamper x.ring
    match g.fetch with
    | .slot _ => ((c.setRing x.hamper x.ring { g with fetch := .idle, cons := wrap32 (g.cons + 1) }).pushDead x.hamper x.ring 0
        stFailedInput 0x30).pump x.hamper x.ring
    | .list ctx units addr card _ got =>
      (c.discardFetch x.hamper x.ring).setRing x.hamper x.ring { g with fetch := .listData ctx units addr card (got ++ [⟨x.addr, x.data⟩]) }
    | _ => c

/-- The data of a completed read reaches its front end or operation; several completions may bring it, in order. -/
def Card.fetchArrived (c : Card) (x : HostRead) (data : List Byte) : Card :=
  let data := x.data ++ data
  if data.length < x.len then
    { c with reads := c.reads.map (fun (y : HostRead) => if y.rid == x.rid then { y with data := data } else y) }
  else
    let c := c.endRead x.rid
    let data := data.take x.len
    match x.seq with
    | some q =>
      match c.opOf x.hamper x.ring q with
      | some o => c.setOp x.hamper x.ring { o with host := o.host ++ [⟨x.addr, data⟩], reads := o.reads.filter (fun i => i != x.rid) }
      | none => c
    | none =>
      let g := c.ring x.hamper x.ring
      match g.fetch with
      | .slot _ => c.setRing x.hamper x.ring { g with fetch := .slotData data, cons := wrap32 (g.cons + 1) }
      | .list ctx units addr card rids got =>
        let rids := rids.filter (fun i => i != x.rid)
        let got := got ++ [⟨x.addr, data⟩]
        c.setRing x.hamper x.ring { g with fetch := if rids.isEmpty then .listData ctx units addr card got else .list ctx units addr card rids got }
      | _ => c

/-- A completion applied (R79, R80, R90): one that comes after its read has timed out is unexpected; a poisoned one is logged and
ends the fetch as a timeout does; one of a read that a reset ended is discarded. Each is logged for the PF of the function that
issued the read. -/
def Card.completion (c : Card) (rid : Nat) (poisoned : Bool) (data : List Byte) : Card :=
  match c.reads.find? (fun x => x.rid == rid) with
  | none => c
  | some x =>
    let log := fun (e : AerErr) => ((c.aerLog (pfOf x.fnNum) e (some c.freeN)).draw).endRead rid
    if x.dead then log .unexpectedCompletion
    else if x.discard then (if poisoned then log .poisoned else c.endRead rid)
    else if poisoned then (log .poisoned).fetchFailed x
    else c.fetchArrived x data

/-- FETCH_COMPLETION_TIMEOUT (R80): the timeout does not run while frozen or while Completion Timeout Disable is set. -/
def execFetchCompletionTimeout (rid : Nat) (s : State) : Host.Outcome State Fault Refusal :=
  s.run fun c => match c.reads.find? (fun x => x.rid == rid) with
    | none => c
    | some x =>
      if !c.live || (c.cfgOf (pfOf x.fnNum)).ctoDis || x.discard || x.dead then c
      else
        let c : Card := { c with reads := c.reads.map (fun (y : HostRead) => if y.rid == rid then { y with dead := true } else y) }
        ((c.aerLog (pfOf x.fnNum) .completionTimeout (some c.freeN)).draw).fetchFailed x

/-- HOST_READ_COMPLETION (R80, R90, R436): delivered, or kept until the thaw while frozen; a completion of no outstanding
read is logged as unexpected. -/
def execHostReadCompletion (rid : Nat) (poisoned : Bool) (data : List Byte) (s : State) : Host.Outcome State Fault Refusal :=
  s.run fun c =>
    if !c.on then c
    else if !(c.reads.any (fun x => x.rid == rid)) then ((c.aerLog 0 .unexpectedCompletion (some c.freeN)).draw)
    else if !c.live then { c with cpls := c.cpls ++ [⟨rid, poisoned, data⟩] }
    else c.completion rid poisoned data

/-! ### The ring's commands -/

/-- The producer index of a ring advances (R101, R120). -/
def Card.ringBell (c : Card) (h r prod : Nat) : Card :=
  let g := c.ring h r
  if !c.ringOn h r || g.draining then c.setBit (ringReg h r 0x28) 1 true
  else if 2 ^ c.f (ringReg h r 8) 20 16 < diff32 prod g.cons then c.setBit (ringReg h r 0x28) 0 true
  else (c.setRing h r { g with prod := prod }).pump h r

/-- An aperture write of a function is held (R193): what the function writes to its BAR4 later takes effect after it (R144). -/
def HeldAccess.before (x : HeldAccess) (fnNum : Nat) : Bool :=
  x.fnNum == fnNum && x.wdata.isSome && x.remote.isNone && x.bell.isNone && !x.fill

/-- DOORBELL (R82, R101, R120, R144)
(DEDUCED, assumption log entry 112). -/
def execDoorbell (fn : Fn) (r : Fin 16) (prod : Word) (s : State) : Host.Outcome State Fault Refusal :=
  s.run fun c => c.hostWrite fn (0x10000 + 0x1000 * r.val) fun c =>
    match c.ownsRing fn r.val with
    | none => c
    | some h =>
      if c.heldAcc.any (fun x => x.before fn.num) then
        { c with heldAcc := c.heldAcc ++ [{ fnNum := fn.num, hamper := h, region := 0, off := 0, len := 0, wdata := some [],
                                            bell := some (r.val, prod.toNat) }] }
      else c.ringBell h r.val prod.toNat

/-- COMMAND_FETCH_DONE (R102): the slot or list that has arrived is decoded. A slot whose list lies in host memory waits
while Bus Master Enable is 0 (R98), and one whose list's bytes in card memory are held waits for them (R193). -/
def execCommandFetchDone (h : Fin 4) (r : Fin 16) (s : State) : Host.Outcome State Fault Refusal :=
  s.run fun c =>
    let g := c.ring h.val r.val
    if !c.live then c
    else match g.fetch with
      | .slotData b =>
        let ctx := leAt b 4 2 % 4096
        let va := leAt b 8 8
        let units := leAt b 0x10 4
        let card := leAt b 0 1 == 3 && decide (units ≤ 65536)
        if (leAt b 0 1 = 2 ∨ (card = true ∧ !(c.cardNeeds h.val ctx va units).isEmpty)) ∧ c.ringBme h.val r.val = false then c
        else if card && c.heldVa h.val ctx false va (16 * units) then c
        else ((c.setRing h.val r.val { g with fetch := .idle }).decodeSlot h.val r.val b).pump h.val r.val
      | .listData ctx units addr card got =>
        if card && c.heldVa h.val ctx false addr (16 * units) then c
        else ((c.setRing h.val r.val { g with fetch := .idle }).decodeArrived h.val r.val ctx units addr card got).pump h.val r.val
      | _ => c

/-- An operation ends without its engine: it retires with an outcome, and the ring goes on. -/
def Card.endOp (c : Card) (h r : Nat) (o : Op) (status detail ext : Nat) : Card :=
  (c.setOp h r ({ o with phase := .retired }.outcome status detail ext)).pump h r

/-- WAIT_TIMEOUT (R110, R129): card time reaches the moment TIMEOUT_US after the command reached the head; a wait that
holds then is dispatched instead. -/
def execWaitTimeout (h : Fin 4) (r : Fin 16) (s : State) : Host.Outcome State Fault Refusal :=
  s.run fun c =>
    let limit := (c.reg (ringReg h.val r.val 0xC)).toNat
    match (c.ring h.val r.val).q.find? (fun o => o.phase == .waiting) with
    | some o =>
      match o.headAt with
      | some t =>
        if !c.live || limit == 0 || o.waits.all (fun w => decide (w.val ≤ c.sem w.sem)) then c
        else
          let c := c.advanceTo (t + limit * 1000)
          let c := (c.setBit (hp h.val 0x28010) r.val true).raise (h.val + 1) 17
          c.endOp h.val r.val o stCancelled 0x20 0
      | none => c
    | none => c

/-- The counts of a ring restart (R119): FLUSHED reports held are written first. From here on they are reports of the ring, and
HELD reads 0 (DESIGN CHOICE, assumption log entry 130). -/
def Card.ringStart (c : Card) (h r : Nat) : Card :=
  let g := c.ring h r
  let c := (c.setBit (ringReg h r 8) 31 true).setN (ringReg h r 0x18) 0
  (c.setRing h r { gen := g.gen, q := g.flushed.map Report.toOp }).pump h r

/-- RING_ENABLE (R119): fields first; a ring of a disabled class keeps ENABLE 0; a ring that still drains starts once the
drain ends. -/
def execRingEnable (fn : Fn) (r : Fin 16) (v : Word) (s : State) : Host.Outcome State Fault Refusal :=
  s.run fun c => c.hostWrite fn (0x10008 + 0x1000 * r.val) fun c =>
    match c.ownsRing fn r.val with
    | none => c
    | some h =>
      let on := c.ringOn h r.val
      let c := c.writeReg (ringReg h r.val 8) v
      if on || c.ringClass h r.val == 0 then c
      else if (c.ring h r.val).draining then c.setBit (ringReg h r.val 8) 31 true
      else c.ringStart h r.val

/-- RING_DISABLE (R119, R131): fetching stops; commands not yet dispatched are abandoned (DEDUCED, assumption log entry 15);
the ring drains while operations or reports of it remain. -/
def execRingDisable (fn : Fn) (r : Fin 16) (v : Word) (s : State) : Host.Outcome State Fault Refusal :=
  s.run fun c => c.hostWrite fn (0x10008 + 0x1000 * r.val) fun c =>
    match c.ownsRing fn r.val with
    | none => c
    | some h =>
      let on := c.ringOn h r.val
      let c := c.writeReg (ringReg h r.val 8) v
      if !on then c
      else
        let c := (c.setBit (ringReg h r.val 8) 31 false).discardFetch h r.val
        let g := c.ring h r.val
        let q := g.q.filter (fun o => o.phase != .waiting)
        c.setRing h r.val { g with q := q, fetch := .idle, stopped := false, draining := !q.isEmpty }

/-- RING_DRAIN_DONE (R119): the last operation has retired and been released; the ring is DISABLED, or starts again. -/
def execRingDrainDone (h : Fin 4) (r : Fin 16) (s : State) : Host.Outcome State Fault Refusal :=
  s.run fun c =>
    let g := c.ring h.val r.val
    if !c.live || !g.draining || !g.q.isEmpty then c
    else
      let c := c.setRing h.val r.val { g with draining := false }
      if c.ringOn h.val r.val then c.ringStart h.val r.val else c

/-- COMPLETION_HEAD_WRITE (R121, R133). -/
def execCompletionHeadWrite (fn : Fn) (r : Fin 16) (v : Word) (s : State) : Host.Outcome State Fault Refusal :=
  s.run fun c => c.hostWrite fn (0x10018 + 0x1000 * r.val) fun c =>
    match c.ownsRing fn r.val with
    | none => c
    | some h =>
      let g := c.ring h r.val
      if 2 ^ c.f (ringReg h r.val 8) 25 21 < diff32 g.pos v.toNat then c.setBit (ringReg h r.val 0x28) 4 true
      else
        let c := (c.setReg (ringReg h r.val 0x18) v).setRing h r.val { g with msgOut := false }
        let c := if g.pos ≠ v.toNat then c.cplMessage h r.val else c
        c.pump h r.val

/-- SEMAPHORE_HOST_WRITE (R122, R130): the high word applies the 64-bit value as SET_MAX. `idx` is the semaphore's index in
the function's own window. -/
def execSemaphoreHostWrite (fn : Fn) (idx : Nat) (v : Word) (s : State) : Host.Outcome State Fault Refusal :=
  s.run fun c => c.hostWrite fn 0x20000 fun c =>
    match c.target fn (0x20000 + 8 * idx) with
    | some k =>
      if idx < 4096 ∧ fn.hamper.isSome then
        let h := (fn.hamper).getD 0
        let c' := c.dropHold k
        c'.semApply (4096 * h + (k - hp h 0x20000) / 8) 0 ((c.loFor k).toNat + 2 ^ 32 * v.toNat)
      else c
    | none => c

/-- FLUSH_HELD_DISCARD (R87, R100): the reports that the written bits name are discarded. -/
def execFlushHeldDiscard (fn : Fn) (mask : Word) (s : State) : Host.Outcome State Fault Refusal :=
  s.run fun c => c.hostWrite fn 0xC fun c =>
    match fn with
    | .pf0 => c
    | .pf h => (maskList mask.toNat 16).foldl (fun c r => c.setRing h.val r { c.ring h.val r with flushed := [] }) c
    | .vf h v => (maskList mask.toNat 16).foldl (fun c r =>
        if c.ringVf h.val r = some v.val then c.setRing h.val r { c.ring h.val r with flushed := [] } else c) c

/-- RECORD_RING_DISABLE (R400): records not yet written are discarded and counted; operations and their reports go on. -/
def execRecordRingDisable (fn : Fn) (r : Fin 16) (v : Word) (s : State) : Host.Outcome State Fault Refusal :=
  s.run fun c => c.hostWrite fn (0x10108 + 0x1000 * r.val) fun c =>
    match c.ownsRing fn r.val with
    | none => c
    | some h =>
      let on := c.recEn h r.val
      let c := c.writeReg (ringReg h r.val 0x108) v
      if !on then c
      else
        let g := c.recRing h r.val
        let q := (c.ring h r.val).q
        let n := g.store.length + (q.map (fun o => o.records.length)).sum
        let q' := q.map (fun (o : Op) => { o with records := [] })
        let c := (c.setBit (ringReg h r.val 0x108) 31 false).setRec h r.val { g with store := [], midOp := false }
        ((c.setRing h r.val { c.ring h r.val with q := q' }).recDiscard h n).pump h r.val

/-- RECORD_HEAD_WRITE (R133, R381, R397): frees entries, re-arms the threshold message, and lets held records be written. -/
def execRecordHeadWrite (fn : Fn) (r : Fin 16) (v : Word) (s : State) : Host.Outcome State Fault Refusal :=
  s.run fun c => c.hostWrite fn (0x1010C + 0x1000 * r.val) fun c =>
    match c.ownsRing fn r.val with
    | none => c
    | some h =>
      if 2 ^ c.f (ringReg h r.val 0x108) 20 16 < diff32 (c.reg (ringReg h r.val 0x110)).toNat v.toNat then
        c.setBit (ringReg h r.val 0x114) 2 true
      else
        let c := (c.setReg (ringReg h r.val 0x10C) v).setRec h r.val { c.recRing h r.val with msgOut := false }
        (c.recMessage h r.val).pump h r.val

end Sys2Proof.Machine
end

