-- ==== Sys2Proof/Machine/Sched.lean ====
section
/-! DEFINITION. Dispatch, the choice of units, and what an operation does while it runs: reads and writes under its
context and epoch, staging, and the ends of operations (spec/05 R106, R111, R125; spec/15 R351, R352, R359, R360, R364;
spec/17 R410, R413). -/

namespace Sys2Proof.Machine

/-! ### Units -/

/-- The units of a group, rising. -/
def Group.unitList (g : Group) : List Nat := maskList g.units 16

/-- A unit serves an operation that has started on it and has not yet retired, preempted or not; a shaper, one whose sample it works
(R284). -/
def Card.unitBusy (c : Card) (h cls u : Nat) : Bool :=
  (c.allOps h).any (fun x => x.2.cls == cls &&
    (if cls = 2 then (c.shapers h x.2).contains u else x.2.started && x.2.active && x.2.unit == u))

/-- A retry waits for the unit, ahead of everything that has not started (R408). -/
def Card.retryWaits (c : Card) (h cls u : Nat) : Bool :=
  if cls = 1 then (c.streamsOf h).any (fun x => x.2.pics.any (fun p => p.retryOn == some u))
  else (c.allOps h).any (fun x => x.2.cls == cls && x.2.retryOn == some u)

/-- The unit that a new operation of a group goes to (R352): rotating, the first idle, enabled, unfenced unit after the one
that received the group's previous operation, wrapping at the top; else the lowest such. -/
def Card.pickUnit (c : Card) (h gi : Nat) (g : Group) : Option Nat :=
  let us := g.unitList.filter (fun u => c.unitEnabled h g.cls u && !c.fenced h g.cls u && !c.unitBusy h g.cls u &&
    !c.retryWaits h g.cls u)
  let at_ := tabGet 0 c.rot (16 * h + gi)
  if g.rotate % 2 = 1 then (us.find? (fun u => decide (at_ ≤ u))).or us.head? else us.head?

/-- Every unit of the group is fenced (R413). -/
def Card.groupFenced (c : Card) (h : Nat) (g : Group) : Bool :=
  (g.unitList.filter (fun u => c.unitEnabled h g.cls u)).all (fun u => c.fenced h g.cls u)

/-- The precedence of a track operation (R357): UPDATE, WITHDRAW, SWAP, STEP, BATCH. -/
def trackRank : Nat → Nat
  | 0x03 => 0
  | 0x05 => 1
  | 0x04 => 2
  | 0x01 => 3
  | _ => 4

/-! ### Pictures and SUSPECT (R244) -/

/-- The stream context and the picture whose slot holds an address under a context. -/
def Card.picAt (c : Card) (h ctx va : Nat) : Option (Nat × Pic) :=
  (c.streamsOf h).findSome? (fun x =>
    let t := x.2
    if t.ctx = ctx ∧ t.dpb ≤ va ∧ va < t.dpb + t.slots * t.slotBytes then
      (t.pics.find? (fun p => p.slot == (va - t.dpb) / t.slotBytes)).map (fun p => (x.1, p))
    else none)

/-- The picture inputs of an operation; those of a PREPARE are the sources of its table, once it can be read (R294). -/
def Card.inputs (c : Card) (h : Nat) (o : Op) : List Nat :=
  if o.cls = 2 then
    match c.vread h o.ctx o.host (leAt o.body 0 8) (32 * min 16 (leAt o.body 0x24 1)) with
    | .ok bs => (List.range (bs.length / 32)).map (fun i => leAt bs (32 * i) 8)
    | _ => []
  else picInputs o.cls o.opcode o.body

/-- The operation's picture input lies in a slot whose present picture is SUSPECT
(DEDUCED, assumption log entry 54). -/
def Card.opSuspect (c : Card) (h : Nat) (o : Op) : Bool :=
  (c.inputs h o).any (fun va => (c.picAt h o.ctx va).any (fun x => x.2.suspect))

/-- The operation is SUSPECT (R244): since its acceptance, or since its table came from host memory (R294). -/
def Card.isSuspect (c : Card) (h : Nat) (o : Op) : Bool := o.suspect || (o.cls == 2 && !o.host.isEmpty && c.opSuspect h o)

/-- The operation counts as latency-critical (R351, R244): its ring's class, unless it is SUSPECT. -/
def Card.opLc (c : Card) (h r : Nat) (o : Op) : Bool := c.ringClass h r == 1 && !c.isSuspect h o

/-- Operation `y` goes before `x` in their group (R351, R357). -/
def Card.before (c : Card) (h : Nat) (y x : Nat × Op) : Bool :=
  let k := fun (z : Nat × Op) => (if z.2.cls = 6 then trackRank z.2.opcode else 0, b2n (!c.opLc h z.1 z.2), z.2.order)
  let a := k y
  let b := k x
  decide (a.1 < b.1) || (a.1 == b.1 && (decide (a.2.1 < b.2.1) || (a.2.1 == b.2.1 && decide (a.2.2 < b.2.2))))

/-- Two operations compete for the same units: they are of one group, or of a class that has one unit in a hamper (R332, R351). -/
def rivals (y x : Op) : Bool := y.cls == x.cls && (y.group == x.group || x.cls == 4 || x.cls == 6 || x.cls == 8)

/-- A STEP that finds 256 requests pending waits, and keeps nothing else from the scheduler (R369). -/
def Card.stepWaits (c : Card) (h : Nat) (o : Op) : Bool := o.cls == 6 && o.opcode == 1 && decide (256 ≤ (c.tracker h).reqs.length)

/-- Nothing that competes with the operation goes before it (R351). Operations of the DECODE class go in order within their
stream. -/
def Card.isNext (c : Card) (h r : Nat) (o : Op) : Bool :=
  let stream := fun (x : Op) => if x.opcode = 2 then leAt x.body 0x0C 1 else leAt x.body 0 1
  (c.allOps h).all (fun y =>
    !rivals y.2 o || (y.1 == r && y.2.seq == o.seq && y.2.gen == o.gen) ||
    (if o.cls = 1 then !(y.2.phase == .running && stream y.2 == stream o && decide (y.2.order < o.order))
     else !(y.2.queued && !c.stepWaits h y.2 && c.before h y (r, o))))

/-! ### Accounting (R364, R370) -/

/-- The slot that an operation of a client is charged to: the lowest VALID slot below 255 that matches, else 255. -/
def Card.accSlot (c : Card) (h fnNum ctx : Nat) : Nat :=
  let fn := if fnNum < 8 then 0 else fnNum - (8 + 8 * h) + 1
  ((List.range 255).find? (fun s =>
    let k := hp h (0xD1000 + 0x20 * s)
    c.bit k 31 && c.f k 19 16 == fn && (c.f k 11 0 == 0 || c.f k 11 0 == ctx))).getD 255

/-- A queue wait of `ns` charged to the operation's client. -/
def Card.chargeWait (c : Card) (h : Nat) (o : Op) (ns : Nat) : Card :=
  let k := hp h (0xD1000 + 0x20 * c.accSlot h o.fnNum o.ctx)
  let c := c.setPair (k + 4) (k + 8) (c.pair (k + 4) (k + 8) + ns)
  c.setN (k + 0xC) (max (c.reg (k + 0xC)).toNat (min ns 0xFFFFFFFF))

/-- A count of the client's slot raised by one: 0x10 operations started, 0x14 preemptions, 0x18 operations shed. -/
def Card.chargeCount (c : Card) (h : Nat) (o : Op) (off : Nat) : Card :=
  c.bump (hp h (0xD1000 + 0x20 * c.accSlot h o.fnNum o.ctx + off)) 1

/-- The stream context that an operation serves: that of a picture input, or the one a DECODE or STEP names (R40)
(DESIGN CHOICE, assumption log entry 127). -/
def Card.opStream (c : Card) (h : Nat) (o : Op) : Option Nat :=
  match (c.inputs h o).findSome? (fun va => c.picAt h o.ctx va) with
  | some x => some x.1
  | none =>
    if o.cls = 1 then some (if o.opcode = 2 then leAt o.body 0x0C 1 else leAt o.body 0 1)
    else if o.cls = 6 ∧ o.opcode = 1 ∧ leAt o.body 0x14 2 < 64 then some (leAt o.body 0x14 2)
    else none

/-! ### Dispatch -/

/-- The classes whose operations on SUSPECT pictures are shed in stage 2 (R39). -/
def shedClass (cls : Nat) : Bool := cls == 2 || cls == 3 || cls == 4 || cls == 7 || cls == 6

/-- The ring can take another in-flight entry (R111). -/
def Card.roomFor (c : Card) (h r : Nat) : Bool :=
  let n := fun (cls : Nat) => (((List.range 16).filter (fun q => c.ringClass h q == cls)).map (fun q => c.inFlight h q)).sum
  let all := ((List.range 16).map (fun q => c.inFlight h q)).sum
  decide (all < 256) && (c.ringClass h r != 2 || decide (n 2 < 192)) && decide (c.inFlight h r < c.f (ringReg h r 8) 8 0)

/-- Shedding stage of hamper `h` (R42). -/
def Card.shedStage (c : Card) (h : Nat) : Nat := c.f (mg (0x1020 + 4 * h)) 1 0

/-- The head command is accepted: it holds an in-flight entry and stands in its group's queue. -/
def Card.acceptOp (c : Card) (h r : Nat) (o : Op) : Card :=
  let o : Op := { o with phase := .running, accepted := true, order := c.acceptNo, at_ := c.ns, suspect := c.opSuspect h o,
                         stream := c.opStream h o }
  let c : Card := { c.setOp h r o with acceptNo := c.acceptNo + 1 }
  match o.stream with
  | some s => if c.ringClass h r = 1 ∧ !(c.paceOf h).affected.contains s then
      c.setPace h { c.paceOf h with affected := (c.paceOf h).affected ++ [s] } else c
  | none => c

/-- WAIT_SATISFIED (R105, R111, R39, R244, R413): the head command's waits hold and there is room; best-effort work, SUSPECT
work with it, is not admitted from stage 1 on, the engines' work on SUSPECT pictures is cancelled from stage 2 on, and a group
whose every unit is fenced refuses its work. -/
def execWaitSatisfied (h : Fin 4) (r : Fin 16) (s : State) : Host.Outcome State Fault Refusal :=
  s.run fun c =>
    let h := h.val
    let r := r.val
    match (c.ring h r).q.find? (fun o => o.phase == .waiting) with
    | none => c
    | some o =>
      if !c.live || !c.ringOn h r || (c.ring h r).stopped || !o.waitOk || !o.waits.all (fun w => decide (w.val ≤ c.sem w.sem)) ||
          !c.roomFor h r then c
      else
        let sus := c.opSuspect h o
        if o.front then (c.acceptOp h r o).pump h r
        else if sus && decide (2 ≤ c.shedStage h) && shedClass o.cls then
          (c.chargeCount h o 0x18).endOp h r { o with suspect := true, accepted := true } stCancelled 0x21 0
        else if decide (1 ≤ c.shedStage h) && (c.ringClass h r == 2 || sus) then c
        else if o.cls != 7 && (c.groupOf h o.group).any (fun g => c.groupFenced h g) then
          c.endOp h r { o with accepted := true } stFailedUnit 0xB5 0xFFFF
        else (c.acceptOp h r o).pump h r

/-- The front-end command at the head of what is running, with an opcode. -/
def Card.frontOp (c : Card) (h r opc : Nat) : Option Op :=
  (c.ring h r).q.find? (fun o => o.front && o.phase == .running && o.opcode == opc)

/-- FRONT_NOP (R106). -/
def execFrontNop (h : Fin 4) (r : Fin 16) (s : State) : Host.Outcome State Fault Refusal :=
  s.run fun c => match c.frontOp h.val r.val 0 with
    | some o => if c.live then c.endOp h.val r.val o stDone 0 0 else c
    | none => c

/-- FRONT_BARRIER (R106): every earlier operation of the ring has retired. -/
def execFrontBarrier (h : Fin 4) (r : Fin 16) (s : State) : Host.Outcome State Fault Refusal :=
  s.run fun c => match c.frontOp h.val r.val 1 with
    | some o =>
      let before := ((c.ring h.val r.val).q.takeWhile (fun x => !(x.seq == o.seq && x.gen == o.gen)))
      if c.live && before.all (fun x => x.phase == .retired) then c.endOp h.val r.val o stDone 0 0 else c
    | none => c

/-- FRONT_STAMP (R106): card time at retirement, bits 15:0 in DETAIL_EXT and bits 31:16 in the upper half of TAG. -/
def execFrontStamp (h : Fin 4) (r : Fin 16) (s : State) : Host.Outcome State Fault Refusal :=
  s.run fun c => match c.frontOp h.val r.val 2 with
    | some o =>
      if c.live then c.endOp h.val r.val { o with tag := o.tag % 65536 + nbits c.ns 31 16 * 65536 } stDone 0 (c.ns % 65536) else c
    | none => c

/-! ### Running -/

/-- How a running operation stops short of its end. -/
inductive Stop where
  /-- It needs data from outside. -/
  | need (l : List Need)
  /-- It ends with an outcome. -/
  | finish (status detail ext : Nat)
  /-- It meets a translation or memory fault: it ends with a status and the fault's DETAIL (R148). -/
  | fault (status : Nat) (f : XFault)
  /-- It waits: nothing changes. -/
  | stay
  /-- It waits, and what it has done so far stands. -/
  | hold
  /-- It has started, and goes on step by step. -/
  | onward
deriving Repr

/-- The card and the operation, while it runs on hamper `h` from ring `r`. -/
structure Run where
  card : Card
  op : Op
  h : Nat
  r : Nat

/-- A piece of an operation's work. -/
abbrev Eng (α : Type) := ExceptT Stop (StateM Run) α

/-- The card now. -/
def Eng.card : Eng Card := do return (← get).card

/-- The operation now. -/
def Eng.op : Eng Op := do return (← get).op

/-- The hamper. -/
def Eng.hamper : Eng Nat := do return (← get).h

/-- The ring. -/
def Eng.ring : Eng Nat := do return (← get).r

/-- The card changes. -/
def Eng.upd (f : Card → Card) : Eng Unit := modify (fun x => { x with card := f x.card })

/-- The operation changes. -/
def Eng.updOp (f : Op → Op) : Eng Unit := modify (fun x => { x with op := f x.op })

/-- The operation is refused. -/
def Eng.refuse {α : Type} (detail : Nat) : Eng α := throw (.finish stRefused detail 0)

/-- The operation is refused with a DETAIL that the spec does not state: a free value (assumption log, entry 17). -/
def Eng.refuseFree {α : Type} : Eng α := do throw (.finish stRefused ((← Eng.card).freeN % 65536) 0)

/-- The operation is refused unless a condition holds. -/
def Eng.check (ok : Bool) (detail : Nat) : Eng Unit := if ok then pure () else Eng.refuse detail

/-- The operation fails on its input. -/
def Eng.failInput {α : Type} (detail : Nat) : Eng α := throw (.finish stFailedInput detail 0)

/-- The operation works under an epoch from now on (R359); one that would carry two unsettled epochs, or one withdrawn, is
cancelled. -/
def Eng.join (e : Nat) : Eng Unit := do
  let c ← Eng.card
  let h ← Eng.hamper
  let o ← Eng.op
  if e = 0 then pure ()
  else if (c.epochOf h e).state = 3 then throw (.finish stCancelled 0x22 e)
  else if !c.unsettled h e then pure ()
  else match o.epoch with
    | some e' => if e' = e ∨ !c.unsettled h e' then Eng.updOp (fun o => { o with epoch := some e })
                 else throw (.finish stCancelled 0x22 e')
    | none => Eng.updOp (fun o => { o with epoch := some e })

/-- The epoch of the PROVISIONAL buffer that holds a card address (R158). -/
def Card.bufEpoch (c : Card) (h reg off : Nat) : Option Nat :=
  (List.range 16).findSome? (fun p =>
    let q := c.poolCfg h p
    if c.poolOn h p && !q.sram && q.region == reg && decide (q.base ≤ off) && decide (off < q.base + q.count * q.size) then
      (c.buf h p ((off - q.base) / q.size)).bind (fun b => b.epoch)
    else none)

/-- The epochs of the PROVISIONAL buffers that a range of addresses reads. -/
def Card.rangeEpochs (c : Card) (h ctx va n : Nat) : List Nat :=
  (pagesOf va n).filterMap (fun p => match c.translate h ctx p with
    | .ok l => match l.to_ with | .card reg off => c.bufEpoch h reg (off + l.pageOff p) | _ => none
    | .error _ => none)

/-- The operation reads `n` bytes at `va`: not while the access is held (R193). An engine other than a mover is refused a REMOTE
operand (R531). -/
def Eng.rd (va n : Nat) : Eng (List Byte) := do
  let c ← Eng.card
  let h ← Eng.hamper
  let o ← Eng.op
  if c.heldVa h o.ctx false va n then throw .stay
  match c.vread h o.ctx o.host va n with
  | .fault f =>
    Eng.upd (fun c => c.cacheXlate h o.ctx va n)
    throw (.fault stFailedInput f)
  | .need l =>
    if o.cls ≠ 5 ∧ l.any (fun x => match x with | .remote .. => true | .host .. => false) then Eng.refuse 0x94
    else throw (.need l)
  | .ok bs =>
    for e in c.rangeEpochs h o.ctx va n do Eng.join e
    Eng.upd (fun c => c.readDone h o.ctx va n)
    return bs

/-- A little-endian number read at `va`. -/
def Eng.rdNat (va n : Nat) : Eng Nat := do return leNat (← Eng.rd va n)

/-- A speculative write is confined (R360): to sparse pages that are unbacked, or that this epoch's own buffers back
(DEDUCED, assumption log entry 53). -/
def Card.confined (c : Card) (h ctx e va n : Nat) : Bool :=
  (pagesOf va n).all (fun p => match c.translate h ctx p with
    | .ok l => match l.to_ with
      | .card reg off => l.sparse && (!l.backed || c.bufEpoch h reg (off + l.pageOff p) == some e)
      | _ => false
    | .error _ => true)

/-- The sparse leaves that a write backs are remembered under its epoch (R361). -/
def Card.noteBacked (c c' : Card) (h ctx e va n : Nat) : Card :=
  let new := (pagesOf va n).filterMap (fun p => match c.walk h ctx p, c'.walk h ctx p with
    | .ok l, .ok l' => if l.sparse && !l.backed && l'.backed then some (⟨h, e, l.atRegion, l.atOff⟩ : ProvLeaf) else none
    | _, _ => none)
  { c' with provLeaves := c'.provLeaves ++ new }

/-- The port is up. -/
def Card.portUp (c : Card) (p : Nat) : Bool := c.f (mg (0xA104 + 0x100 * p)) 2 0 == 2

/-- The port is DOWN. -/
def Card.portDown (c : Card) (p : Nat) : Bool := c.f (mg (0xA104 + 0x100 * p)) 2 0 == 4

/-- A packet is sent on a port (R528): it takes the next sequence number, stands in the replay buffer until acknowledged,
and goes out now if the port is UP; its payload is counted (R538). -/
def Card.sendPacket (c : Card) (port kind : Nat) (args : List Nat) (data : List Byte) : Card :=
  let g := c.port port
  let c := c.setPort port { g with tx := (g.tx + 1) % 4096, unacked := g.unacked ++ [⟨g.tx, kind, args, data, 0⟩] }
  let k := mg (0xA100 + 0x100 * port)
  let c := c.setPair (k + 0x20) (k + 0x24) (c.pair (k + 0x20) (k + 0x24) + data.length)
  if c.portUp port then c.emit (.link port kind (g.tx :: args) data) else c

/-- The requests of a port that wait are issued while it has fewer than 64 outstanding (R532). -/
def Card.pumpPort (c : Card) (p : Nat) : Card :=
  let out := (c.remotes.filter (fun y => y.port == p && y.sent)).length
  ((c.remotes.filter (fun y => y.port == p && !y.sent)).take (64 - out)).foldl (fun (c : Card) y =>
    let c : Card := { c with remotes := c.remotes.map (fun (z : Remote) => if z.id == y.id then { z with sent := true, since := c.ns } else z) }
    c.sendPacket p y.kind (y.id :: y.args) y.data) c

/-- A request of an operation for a Dravaz port (R532, R534): kind 0 read, 1 write, 2 message. -/
def Card.sendRemote (c : Card) (h r : Nat) (o : Op) (port kind : Nat) (args : List Nat) (data : List Byte) (va key len : Nat) : Card :=
  let x : Remote := { id := c.nextRemote, port := port, kind := kind, hamper := h, ring := r, gen := o.gen, seq := o.seq, va := va,
                      key := key, len := len, args := args, data := data }
  ({ c with nextRemote := c.nextRemote + 1, remotes := c.remotes ++ [x] } : Card).pumpPort port

/-- The pieces of a remote transfer (R532): at most 256 bytes, none crossing a 256-byte boundary of the window offset. -/
def remotePieces : Nat → Nat → Nat → List (Nat × Nat)
  | 0, _, _ => []
  | fuel + 1, off, n =>
    if n = 0 then [] else let m := min n (256 - off % 256); (off, m) :: remotePieces fuel (off + m) (n - m)

/-- The operation writes bytes at `va`, under an epoch or none; writes made before a fault stand (R148). -/
def Eng.wrUnder (ep : Option Nat) (va : Nat) (bs : List Byte) : Eng Unit := do
  let c ← Eng.card
  let h ← Eng.hamper
  let r ← Eng.ring
  let o ← Eng.op
  if c.heldVa h o.ctx true va bs.length then throw .stay
  else if (match ep with | some e => !c.confined h o.ctx e va bs.length | none => false) then Eng.failInput 0xE8
  else
    let w := c.vwrite h o.ctx r ep va bs
    let c' := match ep with | some e => Card.noteBacked c w.card h o.ctx e va bs.length | none => w.card
    let c' := c'.cacheXlate h o.ctx va bs.length
    Eng.upd (fun _ => c')
    Eng.updOp (fun o => { o with undo := w.undo ++ o.undo })
    if o.cls ≠ 5 ∧ !w.links.isEmpty then Eng.refuse 0x94
    else
      for x in w.links do
        match x.1 with
        | .remote p win off n at_ =>
          if c.portDown p then Eng.failInput 0x96
          else for q in remotePieces (n + 1) off n do
            Eng.upd (fun c => c.sendRemote h r o p 1 [win, q.1] ((x.2.drop (q.1 - off)).take q.2) (at_ + (q.1 - off)) 0 q.2)
        | .host .. => pure ()
      match w.fault with
      | some f => throw (.fault stFailedInput f)
      | none => pure ()

/-- The operation writes bytes at `va` under the epoch that it works under (R360). -/
def Eng.wr (va : Nat) (bs : List Byte) : Eng Unit := do
  let c ← Eng.card
  let h ← Eng.hamper
  Eng.wrUnder ((← Eng.op).epoch.filter (fun e => c.unsettled h e)) va bs

/-! ### Operand staging -/

/-- The byte offset of staging in hamper `h`'s SRAM, and its size (R57). -/
def Card.staging (c : Card) (h : Nat) : Nat × Nat := ((c.sramPart h).1, (c.sramPart h).2.1)

/-- The number of the tag of a staging line. -/
def stLine (h off : Nat) : Nat := h * 2 ^ 20 + off / 64

/-- The lines of a staging range. -/
def stLines (off n : Nat) : List Nat :=
  if n = 0 then [] else (List.range ((off + n - 1) / 64 - off / 64 + 1)).map (fun i => (off / 64 + i) * 64)

/-- A word of SRAM with an uncorrectable error lies in a range of hamper `h`'s SRAM (R416). -/
def Card.sramErr (c : Card) (h o n : Nat) : Bool :=
  c.sramBad.any (fun e => e.1 / 2 ^ 23 == h && rangesMeet (e.1 % 2 ^ 23 * 8) 8 o n)

/-- Bytes of the hamper's SRAM. A word with an uncorrectable error fails the operation; that is counted and logged (R416). -/
def Eng.sram (o n : Nat) : Eng (List Byte) := do
  let c ← Eng.card
  let h ← Eng.hamper
  let r ← Eng.ring
  let ctx := (← Eng.op).ctx
  if c.sramErr h o n then
    Eng.upd (fun c => (c.bump (hp h 0xE0014) 1).log { hamper := h, cls := 11, unit := 0xFF, kind := 9, ring := r, ctx := ctx })
    Eng.failInput 0xB2
  return c.sramRd h o n

/-- The operation reads staging: lines written under an unsettled epoch make it speculative, lines of a withdrawn one
cancel it (R359, R361). -/
def Eng.stRd (off n : Nat) : Eng (List Byte) := do
  let c ← Eng.card
  let h ← Eng.hamper
  for l in stLines off n do Eng.join (tabGet 0 c.stTag (stLine h l))
  Eng.sram ((c.staging h).1 + off) n

/-- Bytes written to SRAM; a whole write of a word clears its error (R416). -/
def Card.sramPut (c : Card) (h o : Nat) (bs : List Byte) : Card :=
  let c := c.sramWr h o bs
  { c with sramBad := c.sramBad.filter (fun x =>
    !(x.1 / 2 ^ 23 == h && decide (o ≤ x.1 % 2 ^ 23 * 8) && decide (x.1 % 2 ^ 23 * 8 + 8 ≤ o + bs.length))) }

/-- Bytes written to staging, its lines tagged with an epoch, or untagged (R360). -/
def Card.stWrite (c : Card) (h off e : Nat) (bs : List Byte) : Card :=
  let c := c.sramPut h ((c.staging h).1 + off) bs
  { c with stTag := (stLines off bs.length).foldl (fun t l => tabPut 0 t (stLine h l) e) c.stTag }

/-- The operation writes staging. -/
def Eng.stWr (off : Nat) (bs : List Byte) : Eng Unit := do
  let c ← Eng.card
  let h ← Eng.hamper
  let o ← Eng.op
  let e := match o.epoch with | some e => if c.unsettled h e then e else 0 | none => 0
  Eng.upd (fun c => c.stWrite h off e bs)

/-! ### Starting and ending -/

/-- The operation starts on its unit, if it has not: its queue wait is charged and the group's rotation moves on. Each run of its
work chooses anew among a page's translations (R139). -/
def Card.startOp (c : Card) (h : Nat) (o : Op) (u : Nat) : Card × Op :=
  let c := c.drawXlate
  if o.started then (c, o)
  else
    let c := (c.chargeWait h o (o.waited + (c.ns - o.at_))).chargeCount h o 0x10
    ({ c with rot := tabPut 0 c.rot (16 * h + o.group) (u + 1) }, { o with started := true, unit := u })

/-- The unit on which a queued operation can start now; the DECODE class runs in intake, which needs no slice for a
command, and a SEARCH is pre-checked as soon as it is accepted (R220). -/
def Card.canStart (c : Card) (h r : Nat) (o : Op) : Option Nat :=
  if o.started && o.paused.isNone then some o.unit
  else if o.cls = 7 then some 0
  else if !c.isNext h r o then none
  else match c.groupOf h o.group with
    | none => none
    | some g => if g.cls = 1 then some 0 else c.pickUnit h o.group g

/-- The data that a stopped operation needs is asked for: host memory, while Bus Master Enable is 1 (R98), and remote windows
(R532). -/
def Card.askFor (c : Card) (h r : Nat) (o : Op) (l : List Need) : Card × Op :=
  l.foldl (fun (x : Card × Op) n => match n with
    | .host a k =>
      if !x.1.ringBme h r then x
      else
        let p := x.1.issueReads h r (some o.seq) x.2.host a k
        (p.1, { x.2 with reads := x.2.reads ++ p.2 })
    | .remote p w off k va =>
      if x.1.remotes.any (fun y => y.hamper == h && y.ring == r && y.seq == o.seq && y.gen == o.gen && y.kind == 0 && y.port == p) then x
      else
        (remotePieces (k + 1) off k).foldl (fun x q =>
          let key := Need.at_ (.remote p w q.1 q.2 0)
          if (delivered x.2.host key q.2).isSome then x
          else (x.1.sendRemote h r o p 0 [w, q.1, q.2] [] (va + (q.1 - off)) key q.2, x.2)) x) (c, o)

/-- An operation's work has been done, or has ended: it is to retire. -/
def Op.ran (o : Op) (status detail ext : Nat) : Op := ({ o with phase := .ran }.outcome status detail ext)

/-- The outcome of one run of an operation's work is applied. A run that needs data, or waits, leaves nothing behind but
its requests: the work is done again when the data have come. -/
def Card.applyRun (c : Card) (h r : Nat) (o : Op) (res : Except Stop Unit × Run) : Card :=
  match res.1 with
  | .ok () => res.2.card.setOp h r (res.2.op.ran res.2.op.status res.2.op.detail res.2.op.ext)
  | .error (.need l) => let p := c.askFor h r o l; p.1.setOp h r p.2
  | .error (.finish st d e) => res.2.card.setOp h r (res.2.op.ran st d e)
  | .error (.fault st f) => (res.2.card.xlFault h r o.ctx f).setOp h r (res.2.op.ran st f.detail 0)
  | .error .stay => c
  | .error .hold => res.2.card.setOp h r { res.2.op with held := true }
  | .error .onward => res.2.card.setOp h r res.2.op

/-- A part of an operation's work is run: where it ends well and is not the last one, the operation stays on its unit. -/
def Card.runStep (c : Card) (h r : Nat) (o : Op) (work : Eng Unit) (last : Op → Bool) : Card :=
  let res := (work.run).run { card := c, op := o, h := h, r := r }
  match res.1 with
  | .ok () => if last res.2.op then c.applyRun h r o res else res.2.card.setOp h r res.2.op
  | _ => c.applyRun h r o res

/-- The first part of an operation's work is run, from the card and the operation as its start leaves them: where it waits, the
operation has not started. -/
def Card.runFirst (c : Card) (h r : Nat) (p : Card × Op) (work : Eng Unit) (last : Op → Bool) : Card :=
  match ((work.run).run { card := p.1, op := p.2, h := h, r := r }).1 with
  | .error .stay => c
  | _ => p.1.runStep h r p.2 work last

/-- The operation that a command of an engine names, if it is of the class and opcode and nothing keeps it from its work: accepted,
not held, its reads delivered. -/
def Card.readyOp (c : Card) (h r seq cls opc : Nat) : Option Op :=
  match c.opOf h r seq with
  | none => none
  | some o =>
    if !c.live || o.phase != .running || o.front || o.held || o.cls != cls || o.opcode != opc || !o.reads.isEmpty || c.govHolds h r seq ||
        c.remotes.any (fun y => y.hamper == h && y.ring == r && y.seq == seq && y.gen == o.gen && y.kind == 0) then none
    else some o

/-- That operation, if its unit is free or its own
(DEDUCED, assumption log entry 7). -/
def Card.runnable (c : Card) (h r seq cls opc : Nat) : Option (Op × Nat) :=
  (c.readyOp h r seq cls opc).bind (fun o => (c.canStart h r o).map (fun u => (o, u)))

/-- A command of an engine: the operation named runs its work. An operation on a SUSPECT picture that is still queued when
stage 2 is reached is cancelled without running (R39)
(DEDUCED, assumption log entry 25). -/
def Card.engine (c : Card) (h r seq cls opc : Nat) (work : Eng Unit) : Card :=
  match c.runnable h r seq cls opc with
  | none => c
  | some (o, u) =>
    if !o.started && c.isSuspect h o && decide (2 ≤ c.shedStage h) && shedClass o.cls then
      (c.chargeCount h o 0x18).setOp h r (o.ran stCancelled 0x21 0)
    else c.runFirst h r (c.startOp h o u) work (fun _ => true)

/-! ### Retirement (R125, R360, R406, R410) -/

/-- The writes of an operation that has failed: those of a later step never happened. Which of them stand is free: a number
of the latest writes, bounded by their count, is taken back (DEDUCED, assumption log entry 16). -/
def Card.takeBack (c : Card) (o : Op) : Card :=
  ((o.undo.take (c.freeN % (o.undo.length + 1))).foldl (fun c u => c.memPut u.key u.old) c).draw

/-- An operation whose records a fenced record writer cannot write (R403): it ends FAILED_UNIT, with a DETAIL that the spec does
not state. -/
def Card.unrecorded (c : Card) (o : Op) : Op :=
  if o.status = stDone ∨ o.status = stRetried then
    { o.outcome stFailedUnit (c.freeN % 65536) (Config.freeNat (c.fresh + 1) % 65536) with records := [] }
  else { o with records := [] }

/-- The operations that wait in a group whose every unit is fenced or disabled fail (R413, R495). -/
def Card.settleGroups (c : Card) (h : Nat) : Card :=
  ((c.allOps h).filter (fun x => x.2.phase == .running && !x.2.started && !x.2.front && x.2.cls != 7 &&
    (c.groupOf h x.2.group).any (fun g => c.groupFenced h g))).foldl
      (fun (c : Card) x => c.setOp h x.1 ({ x.2 with held := false }.ran stFailedUnit 0xB5 0xFFFF)) c

/-- The outcome with which a retried operation retires (R407, R410); under an unsettled epoch DETAIL_EXT holds the
epoch (R360). -/
def Card.retireOp (c : Card) (h : Nat) (o : Op) : Op :=
  let first := o.failUnits.head?.getD 0xFF
  let o := if o.status = stDone ∧ 0 < o.fails then
      { o with status := stRetried, detail := if o.moved then 0xB7 else 0xB6, ext := first + 256 * o.doneBy.getD o.unit }
    else o
  match o.epoch with
  | some e => if c.unsettled h e then { o with ext := e } else { o with epoch := none }
  | none => o

/-- The lines of some errors at which an access waits for a migration (R194): a persisting error with AUTO_RETIRE 1. -/
def Card.awaited (c : Card) (errs : List MemErr) : List (Nat × Nat × Bool) :=
  if c.bit (mg 0x8000) 2 then
    errs.filterMap (fun x => match x with
      | .persist r off w => if (c.lineAt r off).isSome then some (r, off, w) else none
      | _ => none)
  else []

/-- An awaited line's chunk is not yet held elsewhere. -/
def Card.stillAwaits (c : Card) (a : Nat × Nat × Bool) : Bool := (c.regionOf a.1).any (fun x => c.awaitsCopy x.2 a.2.1)

/-- What an awaited access meets once its chunk is copied (R193, R202): a rank lost, or, for a read, a line that the copy
poisoned. -/
def Card.awaitFault (c : Card) (a : Nat × Nat × Bool) : Option Nat :=
  match c.regionOf a.1 with
  | none => none
  | some x => match c.phys (x.2.chanAddr a.2.1).1 (x.2.chanAddr a.2.1).2 with
    | none => some dRankLost
    | some (_, key) => if !a.2.2 && x.2.ecc && c.poisoned key then some dMemUncorrected else none

/-! ### Accounting commands (R370) -/

/-- The counters of an accounting slot, cleared. -/
def Card.accClear (c : Card) (h s : Nat) : Card := c.resetRegs (hp h (0xD1004 + 0x20 * s)) (hp h (0xD1020 + 0x20 * s))

/-- ACC_CLEAR_ALL (R370): the write's SLOT is applied too. -/
def execAccClearAll (h : Fin 4) (v : Word) (s : State) : Host.Outcome State Fault Refusal :=
  s.run fun c => c.hostWrite (.pf h) 0xD0000 fun c =>
    let c := c.writeReg (hp h.val 0xD0000) v
    if fld v 31 31 = 1 then (List.range 256).foldl (fun c i => c.accClear h.val i) c else c

/-- ACC_CLEAR_SLOT (R370). -/
def execAccClearSlot (h : Fin 4) (v : Word) (s : State) : Host.Outcome State Fault Refusal :=
  s.run fun c => c.hostWrite (.pf h) 0xD0000 fun c =>
    let c := c.writeReg (hp h.val 0xD0000) v
    if fld v 30 30 = 1 then c.accClear h.val (fld v 7 0) else c

/-- ACC_SLOT_CFG_WRITE (R370): the slot's match is set and its counters cleared. -/
def execAccSlotCfgWrite (h : Fin 4) (slot : Fin 256) (v : Word) (s : State) : Host.Outcome State Fault Refusal :=
  s.run fun c => c.hostWrite (.pf h) (0xD1000 + 0x20 * slot.val) fun c =>
    (c.setN (hp h.val (0xD1000 + 0x20 * slot.val)) (v.toNat &&& 0x800F0FFF)).accClear h.val slot.val

end Sys2Proof.Machine
end

