-- ==== Sys2Proof/Machine/Aperture.lean ====
section
/-! DEFINITION. Host accesses through BAR2 (spec/06 R143, R144, R584; spec/08 R176, R193), and the first write to a
tile-sparse page (R140, R141). -/

namespace Sys2Proof.Machine

/-- A data error of an access is counted (R584). -/
def Card.aperError (c : Card) (h : Nat) : Card := c.bumpF (hp h 0x40054) 31 16 1

/-- An access that misses is counted once (R143). -/
def Card.aperMiss (c : Card) (h : Nat) : Card := c.bump (hp h 0x40050) 1

/-- The data offsets of the lines that some errors say are uncorrectable in a region. -/
def badLines (reg : Nat) : List MemErr → List Nat
  | [] => []
  | .uncorrectable r off :: t => if r = reg then off :: badLines reg t else badLines reg t
  | _ :: t => badLines reg t

/-- A read of `m` bytes of a region for a request of `len` bytes: the bytes past `m` are all-ones; an error in the data
poisons the whole completion (R584). -/
def Card.aperRead (c : Card) (h fnNum off len : Nat) (e : RegionEnt) (d m : Nat) (errs : List MemErr) : Card :=
  let c := c.touch none e d m false none
  let p := c.memErrs h 0 0 errs
  match c.rdRegion e d m with
  | .ok bs => if p.2.isSome then (p.1.aperError h).emit (.poisonData fnNum len)
              else p.1.emit (.readData fnNum off (bs ++ List.replicate (len - m) 0xFF))
  | .error _ => (p.1.aperError h).emit (.poisonData fnNum len)

/-- A write of bytes to a region: on a LOST rank they are dropped; a partial write of a poisoned or bad line keeps its
POISON bit (R176, R584); a line whose write met a persisting error is left as R191 gives. -/
def Card.aperWrite (c : Card) (h reg : Nat) (e : RegionEnt) (d : Nat) (bs : List Byte) (errs : List MemErr) : Card :=
  let partial_ := !bs.isEmpty &&
    ((d % 64 != 0 && c.aperBad e (d / 64 * 64) 1) || ((d + bs.length) % 64 != 0 && c.aperBad e (d + bs.length - 1) 1))
  let lost := c.anyLost e d bs.length
  let c := c.touch none e d bs.length true none
  let p := ((c.wrRegion e d bs).poisonPartial e d bs.length (badLines reg errs)).memErrs h 0 0 errs
  if p.2.isSome || partial_ || lost then p.1.aperError h else p.1

/-- An error of the access is a persisting one that retires its rank: the access waits for the copy of its chunk (R194). -/
def Card.waitsOn (c : Card) (e : RegionEnt) (errs : List MemErr) : Bool :=
  c.bit (mg 0x8000) 2 && errs.any (fun x => match x with | .persist r off _ => r == e.num && (c.phys (e.chanAddr off).1 (e.chanAddr off).2).isSome | _ => false)

/-- One access to region bytes: held while its chunk is being copied or after a persisting error (R193, R194), else done. -/
def Card.aperDo (c : Card) (h fnNum off len reg : Nat) (e : RegionEnt) (d m : Nat) (wdata : Option (List Byte)) (errs : List MemErr) : Card :=
  let hold := fun (c : Card) (wait : Bool) =>
    { c with heldAcc := c.heldAcc ++ [{ fnNum := fnNum, hamper := h, region := reg, off := d, len := len, addr := off,
                                        wdata := wdata.map (fun b => b.take m), wait := wait }] }
  if c.spanHeld e d m then hold c false
  else if c.waitsOn e errs then hold (c.memErrs h 0 0 errs).1 true
  else match wdata with
    | none => c.aperRead h fnNum off len e d m errs
    | some bs => c.aperWrite h reg e d (bs.take m) errs

/-- APERTURE_ACCESS (R143, R144, R584). `addr` is the BAR2 offset; `errs` are the errors that the access's reads of
memory meet. -/
def execApertureAccess (fn : Fn) (addr len : Nat) (wdata : Option (List Byte)) (errs : List MemErr) (s : State) :
    Host.Outcome State Fault Refusal :=
  s.run fun c =>
    let ones := Out.readData fn.num addr (List.replicate len 0xFF)
    let go := fun (h : Nat) (vf : Option Nat) (drops : Nat) =>
      if c.frozen then (if wdata.isSome then c.bump (mg (0x5020 + 4 * h)) 1 else c.emit ones)
      else if c.dark fn && wdata.isNone then c.emit ones
      else if !c.ready fn && wdata.isSome then
        c.bump drops 1
      else match c.aperHit h vf addr len wdata.isSome with
        | none => if wdata.isSome then c.aperMiss h else (c.aperMiss h).emit ones
        | some (e, d, m) =>
          let c := if m < len then c.aperMiss h else c
          c.aperDo h fn.num addr len (fld (c.reg (aperReg h vf (addr / 2 ^ 29))) 7 0) e d m wdata errs
    if !c.claims fn then (c.unclaimed fn wdata.isSome (some c.freeN)).draw
    else match fn with
      | .pf0 => c
      | .pf h => go h.val none (hp h.val 0x8)
      | .vf h v => go h.val (some v.val) ((Space.vf h.val v.val).key 0x8)

/-- SPARSE_FIRST_WRITE (R140, R141): an operation in flight writes to a page whose leaf is SPARSE and unbacked. `err` is
the DETAIL of a memory error that the grey fill or the rewrite of the leaf meets. -/
def execSparseFirstWrite (h : Fin 4) (r : Fin 16) (seq va : Nat) (data : List Byte) (err : Option Nat) (s : State) :
    Host.Outcome State Fault Refusal :=
  s.run fun c =>
    let h := h.val
    let r := r.val
    match c.opOf h r seq with
    | none => c
    | some o =>
      if !c.live || o.phase != .running || o.front || decide (pageRest va < data.length) || data.isEmpty then c
      else match c.translate h o.ctx va with
        | .error _ => c
        | .ok l =>
          if !l.sparse || l.backed || !l.write || c.heldVa h o.ctx true va data.length then c
          else
            let ep := match o.epoch with | some e => if c.unsettled h e then some e else none | none => none
            match c.sparseBack h o.ctx r ep l err with
            | (c', .error d) => (c'.xlFault h r o.ctx ⟨d, 0, va⟩).setOp h r (o.ran stFailedInput d 0)
            | (c', .ok _) =>
              let c' := match ep with | some e => Card.noteBacked c c' h o.ctx e va data.length | none => c'
              let w := c'.vwrite h o.ctx r ep va data
              match w.fault with
              | some f => (w.card.xlFault h r o.ctx f).setOp h r ({ o with undo := w.undo ++ o.undo }.ran stFailedInput f.detail 0)
              | none => w.card.setOp h r { o with undo := w.undo ++ o.undo }

end Sys2Proof.Machine
end

