-- ==== Sys2Proof/Machine/Move.lean ====
section
/-! DEFINITION. The mover's own commands (spec/06 R142, R149; spec/23 R531, R539): COPY, FILL, UNBACK, SEND. -/

namespace Sys2Proof.Machine

/-- What a page of a range is, for the pre-check. -/
structure PageView where
  leaf : Leaf
  picture : Bool
deriving Repr

/-- One page of a range pre-checked for reading or writing (R149): its translation, the region's owner and extent, and
the leaf's permission
(DEDUCED, assumption log entry 115). -/
def Card.pageCheck (c : Card) (h ctx va : Nat) (write : Bool) : Except XFault PageView :=
  match c.translate h ctx va with
  | .error f => .error f
  | .ok l =>
    match l.to_ with
    | .host _ => if write then .error ⟨dHostWrite, 0, va⟩ else .ok ⟨l, false⟩
    | .remote .. => if write && !l.write then .error ⟨dWriteDenied, 0, va⟩ else .ok ⟨l, false⟩
    | .card reg off =>
      if write && !l.write then .error ⟨dWriteDenied, 0, va⟩
      else if l.sparse && !l.backed then
        .ok ⟨l, (c.regionOf (c.poolCfg h l.pool).region).any (fun x => x.2.picture)⟩
      else match c.region ctx reg (off + l.pageOff va) 1 with
        | .error d => .error ⟨d, 0, va⟩
        | .ok e => .ok ⟨l, e.picture⟩

/-- The pages of a list, each checked: a memory error ends the operation FAILED_INPUT (R148); any other fault is met by `bad`. -/
def Eng.pagesOr (ps : List Nat) (write : Bool) (bad : XFault → Eng PageView) : Eng (List PageView) := do
  let c ← Eng.card
  let h ← Eng.hamper
  let o ← Eng.op
  ps.mapM (fun p => match c.pageCheck h o.ctx p write with
    | .ok v => pure v
    | .error f => if f.detail = dMemUncorrected ∨ f.detail = dRankLost then throw (.fault stFailedInput f) else bad f)

/-- The pages of a range pre-checked, unless an access to it is held (R193): a failure moves nothing and refuses the command
(R149). Errors that a walk's own reads of memory meet end the operation on its input. -/
def Eng.precheck (va n : Nat) (write : Bool) : Eng (List PageView) := do
  let c ← Eng.card
  let h ← Eng.hamper
  let o ← Eng.op
  if c.heldVa h o.ctx write va n then throw .stay
  Eng.pagesOr (pagesOf va n) write (fun f => throw (.fault stRefused f))

/-- The leaf is REMOTE. -/
def PageView.remote (v : PageView) : Bool := match v.leaf.to_ with | .remote .. => true | _ => false

/-- The leaf is a host or remote leaf. -/
def PageView.outside (v : PageView) : Bool := match v.leaf.to_ with | .card .. => false | _ => true

/-- Everything of a range that must come from outside is asked for at once
(DEDUCED, assumption log entry 117). -/
def Eng.want (va n : Nat) : Eng Unit := do
  let c ← Eng.card
  let h ← Eng.hamper
  let o ← Eng.op
  match c.vread h o.ctx o.host va n with
  | .need l => throw (.need l)
  | _ => pure ()

/-- Everything of several ranges that must come from outside is asked for at once. -/
def Eng.wants (rs : List (Nat × Nat)) : Eng Unit := do
  let c ← Eng.card
  let h ← Eng.hamper
  let o ← Eng.op
  let needs := rs.flatMap (fun g => match c.vread h o.ctx o.host g.1 g.2 with | .need l => l | _ => [])
  if !needs.isEmpty then throw (.need needs)

/-- A mover works in chunks of 4 KiB (R404): the chunks of a length. -/
def chunks (n : Nat) : List (Nat × Nat) := (List.range (ceilDiv n 4096)).map (fun i => (4096 * i, min 4096 (n - 4096 * i)))

/-- The free bytes that stand where a copy between overlapping ranges leaves its result open
(DESIGN CHOICE, assumption log entry 44). -/
def Card.freeBytes (c : Card) (n : Nat) : List Byte := (List.range n).map (fun i => BitVec.ofNat 8 (Config.freeNat (c.fresh + i)))

/-- The first page of a range that holds PICTURE bytes (R142). -/
def Card.picturePage (c : Card) (h ctx va n : Nat) : Option Nat :=
  (pagesOf va n).find? (fun p => match c.pageCheck h ctx p false with | .ok v => v.picture | .error _ => false)

/-- Some page of a range maps to a host address or a remote window. -/
def Card.leavesCard (c : Card) (h ctx va n : Nat) : Bool :=
  (c.leaves h ctx va n).any (fun x => match x.2.2.to_ with | .card .. => false | _ => true)

/-- PICTURE bytes may not leave the card (R21, R142): the command ends with a status, PICTURE_CONFINED and the source page. -/
def Eng.confine (status src dst n : Nat) : Eng Unit := do
  let c ← Eng.card
  let h ← Eng.hamper
  let o ← Eng.op
  if c.leavesCard h o.ctx dst n then
    match c.picturePage h o.ctx src n with
    | some p => throw (.fault status ⟨dPictureConfined, 0, p⟩)
    | none => pure ()

/-- The work of COPY (R149, R531): both ranges are checked before any byte moves; a PICTURE source goes to card memory
only, whatever the destination's own permission (R142, R21), and each chunk is checked again as it moves, since the copy may
rewrite the tables it runs under. Where the ranges overlap, the spec states no result: the bytes written are free values. -/
def copyWork : Eng Unit := do
  let b := (← Eng.op).body
  let src := leAt b 0 8
  let dst := leAt b 8 8
  let n := leAt b 0x10 8
  if n = 0 ∨ 2 ^ 40 < n ∨ leAt b 0x18 8 ≠ 0 then Eng.refuseFree
  let rs ← Eng.precheck src n false
  Eng.confine stRefused src dst n
  let ws ← Eng.precheck dst n true
  if rs.any PageView.remote && ws.any PageView.remote then Eng.refuse 0x94
  Eng.want src n
  for k in chunks n do
    Eng.confine stFailedInput (src + k.1) (dst + k.1) k.2
    let bs ← Eng.rd (src + k.1) k.2
    let c ← Eng.card
    if src ≠ dst ∧ rangesMeet src n dst n then
      Eng.upd (fun c => { c with fresh := c.fresh + k.2 })
      Eng.wr (dst + k.1) (c.freeBytes k.2)
    else Eng.wr (dst + k.1) bs

/-- MOVE_COPY. -/
def execMoveCopy (h : Fin 4) (r : Fin 16) (seq : Nat) (s : State) : Host.Outcome State Fault Refusal :=
  s.run fun c => c.engine h.val r.val seq 5 0x01 copyWork

/-- The work of FILL (R149): destination byte n takes PATTERN byte n mod 4. -/
def fillWork : Eng Unit := do
  let b := (← Eng.op).body
  let dst := leAt b 0 8
  let n := leAt b 0x10 8
  let pat := (b.drop 8).take 4
  if n = 0 ∨ 2 ^ 40 < n ∨ leAt b 0xC 4 ≠ 0 ∨ leAt b 0x18 8 ≠ 0 then Eng.refuseFree
  let _ ← Eng.precheck dst n true
  for k in chunks n do
    Eng.wr (dst + k.1) ((List.range k.2).map (fun i => pat.getD (i % 4) 0))

/-- MOVE_FILL. -/
def execMoveFill (h : Fin 4) (r : Fin 16) (seq : Nat) (s : State) : Host.Outcome State Fault Refusal :=
  s.run fun c => c.engine h.val r.val seq 5 0x02 fillWork

/-- One page of a sparse range goes back to unbacked, and its buffer to the pool (R149 UNBACK, R235); an address that is no
buffer of an enabled pool is a bad free of the leaf's pool (R159). -/
def Card.unbackPage (c : Card) (h ctx ring va : Nat) : Card :=
  match c.translate h ctx va with
  | .ok l =>
    match l.to_ with
    | .card reg off =>
      if l.sparse && l.backed then
        let c' := match c.bufAt h reg off with
          | some (p, i) => c.poolFree h p i ctx ring false false
          | none => c.bump (poolReg h l.pool 0x24) 1
        match c'.rewriteLeaf l (unbackedEntry l.entry) with
        | .ok c'' => c''
        | .error _ => c'
      else c
    | _ => c
  | .error _ => c

/-- The work of UNBACK (R149): every page of the range is a SPARSE leaf; each backed one returns its buffer. -/
def unbackWork : Eng Unit := do
  let o ← Eng.op
  let b := o.body
  let dst := leAt b 0 8
  let n := leAt b 0x10 8
  if n = 0 ∨ 2 ^ 40 < n ∨ leAt b 8 8 ≠ 0 ∨ leAt b 0x18 8 ≠ 0 then Eng.refuseFree
  Eng.check (dst % 65536 == 0 && n % 65536 == 0) 0x90
  let c ← Eng.card
  let h ← Eng.hamper
  let r ← Eng.ring
  let vs ← (pagesOf dst n).mapM (fun p => match c.translate h o.ctx p with
    | .ok l => pure l
    | .error f => if f.detail = dMemUncorrected ∨ f.detail = dRankLost then throw (.fault stFailedInput f) else throw (.fault stRefused f))
  Eng.check (vs.all (fun l => l.sparse)) 0x91
  if vs.any (fun l => (c.regionOf l.atRegion).any (fun e => c.spanHeld e.2 l.atOff 8)) then throw .stay
  for p in pagesOf dst n do Eng.upd (fun c => c.unbackPage h o.ctx r p)

/-- MOVE_UNBACK. -/
def execMoveUnback (h : Fin 4) (r : Fin 16) (seq : Nat) (s : State) : Host.Outcome State Fault Refusal :=
  s.run fun c => c.engine h.val r.val seq 5 0x03 unbackWork

/-- The work of SEND (R535, R539): one message of up to 256 bytes, with the sender's card time at dispatch. -/
def sendWork : Eng Unit := do
  let o ← Eng.op
  let b := o.body
  let src := leAt b 0 8
  let port := leAt b 8 1
  let n := leAt b 0x10 8
  Eng.check (decide (port ≤ 1) && leAt b 9 7 == 0 && decide (1 ≤ n) && decide (n ≤ 256)) 0x97
  let vs ← Eng.precheck src n false
  if vs.any PageView.remote then Eng.refuse 0x94
  let c ← Eng.card
  let h ← Eng.hamper
  match c.picturePage h o.ctx src n with
  | some p => throw (.fault stRefused ⟨dPictureConfined, 0, p⟩)
  | none => pure ()
  Eng.want src n
  let bs ← Eng.rd src n
  let r ← Eng.ring
  if c.portDown port then Eng.failInput 0x96
  Eng.upd (fun c => c.sendRemote h r o port 2 [n, c.f (mg 0xA000) 2 0, h, leAt b 0x18 8, o.at_] bs 0 0 n)

/-- SEND. -/
def execSend (h : Fin 4) (r : Fin 16) (seq : Nat) (s : State) : Host.Outcome State Fault Refusal :=
  s.run fun c => c.engine h.val r.val seq 5 0x21 sendWork

end Sys2Proof.Machine
end

