-- ==== Sys2Proof/Machine/Epoch.lean ====
section
/-! DEFINITION. Speculation epochs: how one is drawn, commits and is withdrawn at every unit it has reached (spec/15 R359
to R363; spec/16 R383; spec/17 R421). -/

namespace Sys2Proof.Machine

/-- An epoch value that something of hamper `h` still carries (R362): an unsettled epoch, a buffer, a staging line, a track,
a request, the open batch or an operation. -/
def Card.carried (c : Card) (h e : Nat) : Bool :=
  c.unsettled h e ||
  c.bufs.any (fun b => b.1 / 2 ^ 24 == h && b.2.any (fun x => x.epoch == some e)) ||
  c.stTag.any (fun x => x.1 / 2 ^ 20 == h && x.2 == e) ||
  (c.tracker h).tracks.any (fun t => t.2.epoch == e) || (c.tracker h).reqs.any (fun q => q.epoch == e) ||
  (c.tracker h).batch.any (fun b => b.epoch == e) ||
  (c.allOps h).any (fun o => o.2.epoch == some e)

/-- The first value from `v` on that nothing carries, among `fuel`; the count skips 0 (R362). -/
def Card.freeEpoch (c : Card) (h : Nat) : Nat → Nat → Option Nat
  | 0, _ => none
  | fuel + 1, v =>
    let v := if v % 65536 = 0 then 1 else v % 65536
    if c.carried h v then c.freeEpoch h fuel (v + 1) else some v

/-- An epoch is drawn for a picture (R362); none when every value is still carried (R363). -/
def Card.drawEpoch (c : Card) (h stream decodeNo opener : Nat) : Card × Nat :=
  match c.freeEpoch h 65535 (tabGet 0 c.epochAt h + 1) with
  | none => (c, 0)
  | some e =>
    ({ c.setEpoch h e { state := 1, stream := stream, decodeNo := decodeNo, opener := some opener } with
        epochAt := tabPut 0 c.epochAt h e }, e)

/-- The operations of hamper `h` changed by a function of their ring and themselves. -/
def Card.mapOps (c : Card) (h : Nat) (f : Nat → Op → Op) : Card :=
  (List.range 16).foldl (fun c r => c.setRing h r { c.ring h r with q := (c.ring h r).q.map (f r) }) c

/-- The track scheduler on commit (R361): provisional changes become current, and held DONE_SEM signals apply. -/
def Card.commitTracks (c : Card) (h e : Nat) : Card :=
  let t := c.tracker h
  let tracks := (t.tracks.map (fun x => if x.2.epoch = e then
      (x.1, { x.2 with epoch := 0, now := x.2.prov.getD x.2.now, prov := none,
                       state := if x.2.state = 2 then 1 else if x.2.state = 3 then 0 else x.2.state })
    else x)).filter (fun x => x.2 != {})
  let due := t.pendingSigs.filter (fun s => s.1 == e)
  let c := c.setTracker h { t with
    tracks := tracks, pendingSigs := t.pendingSigs.filter (fun s => s.1 != e)
    reqs := t.reqs.map (fun (q : StepReq) => if q.epoch = e then { q with epoch := 0 } else q)
    batch := t.batch.map (fun (b : Batch) => if b.epoch = e then { b with epoch := 0 } else b) }
  due.foldl (fun c s => c.semApply s.2.1 0 s.2.2) c

/-- An epoch commits (R361): buffers become OUT, leaves are kept, tags are cleared, and operations run on. -/
def Card.commitEpoch (c : Card) (h e : Nat) : Card :=
  if !c.unsettled h e then c
  else
    let c := c.setEpoch h e { c.epochOf h e with state := 2 }
    let c : Card := { c with
      bufs := c.bufs.map (fun b => if b.1 / 2 ^ 24 = h then (b.1, b.2.map (fun (x : Buf) => if x.epoch = some e then { x with epoch := none } else x)) else b)
      provLeaves := c.provLeaves.filter (fun l => !(l.hamper == h && l.epoch == e))
      cache := c.cache.map (fun x => (x.1, x.2.map (fun (l : CacheLine) => if l.epoch = some (65536 * h + e) then { l with epoch := none } else l)))
      stTag := c.stTag.filter (fun x => !(x.1 / 2 ^ 20 == h && x.2 == e)) }
    let c := c.mapOps h (fun _ o => if o.epoch = some e ∧ o.phase ≠ .retired then { o with epoch := none } else o)
    (c.commitTracks h e).settleSigs

/-- A retry that is abandoned while it waits for its equal unit (R421): UNRESOLVED, counted as a transient of the failing
unit, whose fence is lifted again because no verdict LASTING was reached. -/
def Card.abandonRetry (c : Card) (h r : Nat) (o : Op) : Card :=
  match o.retryOn with
  | none => c
  | some _ =>
    let u := o.failUnits.getLast?.getD o.unit
    ((if o.ownFence then c.setFence h o.cls u false else c).transient h o.cls u r o.ctx 6).settleGroups h

/-- The retries of pictures abandoned in the same way, with the streams that a reset closes. -/
def Card.abandonPics (c : Card) (h : Nat) (mine : Stream → Bool) : Card :=
  ((c.streamsOf h).filter (fun x => mine x.2)).foldl (fun (c : Card) x =>
    (x.2.pics.filter (fun p => p.retryOn.isSome)).foldl (fun (c : Card) p =>
      ((if p.ownFence then c.setFence h 1 p.slice false else c).transient h 1 p.slice x.2.ring x.2.ctx 6).settleGroups h) c) c

/-- The reads outstanding and the remote signals of the operations in `mine` come to nothing. -/
def Card.dropTraffic (c : Card) (h : Nat) (mine : List (Nat × Op)) : Card :=
  { c with
    reads := c.reads.map (fun (x : HostRead) => if mine.any (fun y => x.hamper == h && x.ring == y.1 && x.seq == some y.2.seq) then { x with discard := true } else x)
    remotes := c.remotes.filter (fun x => !(mine.any (fun y => x.hamper == h && x.ring == y.1 && x.seq == y.2.seq && x.gen == y.2.gen))) }

/-- The operations of an epoch that have not retired are stopped or not started, and end CANCELLED (R361). -/
def Card.cancelOps (c : Card) (h e : Nat) : Card :=
  let mine := (c.allOps h).filter (fun x => x.2.epoch == some e && x.2.phase != .retired && x.2.phase != .waiting)
  let c := mine.foldl (fun c x => (c.abandonRetry h x.1 x.2).govDropOp h x.1 x.2.seq) c
  let c := c.mapOps h (fun _ o => if o.epoch = some e ∧ o.phase ≠ .retired ∧ o.phase ≠ .waiting then
      { o.ran stCancelled 0x22 e with reads := [], held := false, retryOn := none, paused := none, signal := o.signal } else o)
  c.dropTraffic h mine

/-- A PREPARE that waits on the progress of a stream context (R293). -/
def Op.waitsOn (o : Op) (s : Nat) : Bool := o.cls == 2 && o.held && o.phase == .running && leAt o.body 0x2F 1 == s

/-- The PREPAREs that wait on a context with no picture in decode wait, from now on, for the picture that begins, under its
epoch (R293). -/
def Card.bindWaiters (c : Card) (h s no e : Nat) : Card :=
  c.mapOps h (fun _ o => if o.waitsOn s ∧ o.prog.isNone then { o with prog := some no, epoch := if e = 0 then o.epoch else some e } else o)

/-- The PREPAREs that wait on a context that closes are cancelled (R293). -/
def Card.cancelWaiters (c : Card) (h s : Nat) : Card :=
  c.mapOps h (fun _ o => if o.waitsOn s then { o.ran stCancelled 0x22 0 with held := false } else o)

/-- The sparse leaves backed under an epoch return to unbacked (R361). -/
def Card.unbackLeaves (c : Card) (h e : Nat) : Card :=
  let mine := c.provLeaves.filter (fun l => l.hamper == h && l.epoch == e)
  let c := mine.foldl (fun c l => match c.tableEntry l.region l.off, c.region 0 l.region l.off 8 with
    | .ok v, .ok r => (c.wrRegion r l.off (leBytes 8 (unbackedEntry v))).dropXlate l.region l.off
    | _, _ => c) c
  { c with provLeaves := c.provLeaves.filter (fun l => !(l.hamper == h && l.epoch == e)) }

/-- The open batch closes. The time for which a BATCH has waited on it counts as no queue wait (R364). -/
def Card.closeBatch (c : Card) (h : Nat) : Card :=
  match (c.tracker h).batch with
  | none => c
  | some b =>
    (c.setTracker h { c.tracker h with batch := none }).mapOps h (fun _ o =>
      if o.cls = 6 ∧ o.opcode = 2 ∧ o.phase = .running then { o with waited := o.waited + (b.at_ - o.at_), at_ := c.ns } else o)

/-- The track scheduler on withdrawal (R361): provisional changes are undone, requests of the epoch are dropped and counted,
and a batch of it is void. -/
def Card.withdrawTracks (c : Card) (h e : Nat) : Card :=
  let t := c.tracker h
  let gone := (t.reqs.filter (fun q => q.epoch == e)).length
  let tracks := (t.tracks.map (fun x => if x.2.epoch = e then
      (x.1, { x.2 with epoch := 0, prov := none, state := if x.2.state = 2 then 0 else if x.2.state = 3 then 1 else x.2.state })
    else x)).filter (fun x => x.2.state != 0)
  let serials := (t.tracks.filter (fun x => x.2.epoch == e && x.2.state == 2)).foldl (fun s x => tabPut 0 s x.1 (tabGet 0 s x.1 - 1)) t.serials
  (c.setTracker h { t with
    tracks := tracks, serials := serials, reqs := t.reqs.filter (fun q => q.epoch != e), pendingSigs := t.pendingSigs.filter (fun s => s.1 != e)
    batch := t.batch.map (fun (b : Batch) => if b.epoch = e then { b with withdrawn := true } else b) }).bump (hp h 0xB002C) gone

/-- What an unsettled epoch still had in flight is gone: its buffers, its cache lines, its held signals. -/
def Card.dropUnsettled (c : Card) (h e : Nat) : Card :=
  { c.freeWhere (fun k x => k / 2 ^ 24 == h && x.epoch == some e && !x.held) with
    cache := c.cache.filter (fun x => !(x.2.any (fun l => l.epoch == some (65536 * h + e))))
    heldSigs := c.heldSigs.filter (fun x => !(x.hamper == h && x.epoch == e)) }

/-- An epoch is withdrawn (R361, R383): CAUSE 1 damage, 2 reference substituted, 3 WITHDRAW, with the ring of a WITHDRAW. -/
def Card.withdrawEpoch (c : Card) (h e cause : Nat) (by_ : Option Nat) : Card :=
  if !c.unsettled h e then c
  else
    let c := c.dropRecords h e
    let c := c.cancelOps h e
    let c := c.setEpoch h e { c.epochOf h e with state := 3 }
    let c := c.retract h e cause by_
    let c := c.unbackLeaves h e
    ((c.dropUnsettled h e).withdrawTracks h e).settleSigs

end Sys2Proof.Machine
end

