-- ==== Sys2Proof/Machine/Intake.lean ====
section
/-! DEFINITION. Intake (spec/10): stream contexts, the byte queue, decryption and key slots, picture slots, progress and
epochs, damage and concealment, and output. What a coding standard makes of the bytes comes with the commands. -/

namespace Sys2Proof.Machine

/-! ### Forms -/

/-- `n` rounded up to a multiple of `m`. -/
def roundUp (n m : Nat) : Nat := ceilDiv n m * m

/-- The slot layout of a stream (R233): PITCH, U_OFF, V_OFF and the least SLOT_BYTES
(DEDUCED, assumption log entry 45). -/
def slotLayout (maxW maxH depth : Nat) : Nat × Nat × Nat × Nat :=
  let b := if depth = 8 then 1 else 2
  let h16 := roundUp maxH 16
  let pitch := roundUp (roundUp maxW 16 * b) 64
  let luma := roundUp (pitch * h16) 65536
  let chroma := roundUp (pitch / 2 * (h16 / 2)) 65536
  (pitch, luma, luma + chroma, luma + 2 * chroma)

/-- Slot `k`'s first address. -/
def Stream.slotVa (t : Stream) (k : Nat) : Nat := t.dpb + k * t.slotBytes

/-- A picture is CONCEALED (R231, R241, R242). -/
def Pic.concealed (p : Pic) : Bool := p.units != 0 || p.refSubst || p.damage.isSome || p.lone

/-- The descriptor FLAGS of a picture (R253). -/
def Pic.flags (p : Pic) : Nat :=
  b2n p.concealed + 2 * b2n p.suspect + 4 * b2n p.refSubst + 8 * b2n p.field + 16 * b2n p.grain.isSome + 32 * b2n p.mono

/-- The header flags of a record derived from a picture (R382). -/
def Pic.recFlags (p : Pic) : Nat := b2n p.concealed + 2 * b2n p.suspect + 4 * b2n p.refSubst

/-- A context's pictures changed. -/
def Stream.mapPics (t : Stream) (f : Pic → Pic) : Stream := { t with pics := t.pics.map f }

/-! ### Writes of a context -/

/-- The pages of a slot go back to their pool (R235). -/
def Card.releaseSlot (c : Card) (h : Nat) (t : Stream) (k : Nat) : Card :=
  (pagesOf (t.slotVa k) t.slotBytes).foldl (fun c p => c.unbackPage h t.ctx t.ring p) c

/-- Samples written into a slot; a monochrome picture leaves both chroma planes unwritten (R233). -/
def Card.putSamples (c : Card) (h : Nat) (t : Stream) (k : Nat) (l : List Samples) : Card :=
  (l.filter (fun x => !t.mono || decide (x.off + x.data.length ≤ (slotLayout t.maxW t.maxH t.depth).2.1))).foldl (fun c x =>
    c.ctxWrite h t (t.slotVa k + x.off) x.data) c

/-! ### OPEN -/

/-- Every page of a range is a SPARSE leaf in a PICTURE region (R234). -/
def Card.sparsePicture (c : Card) (h ctx va n : Nat) : Bool :=
  (pagesOf va n).all (fun p => match c.translate h ctx p with
    | .ok l => match l.to_ with
      | .card reg _ => l.sparse && (c.regionOf (if l.backed then reg else (c.poolCfg h l.pool).region)).any (fun x => x.2.picture)
      | _ => false
    | .error _ => false)

/-- Every page of a range lies in a card region that is, or is not, PICTURE. -/
def Card.inPicture (c : Card) (h ctx va n : Nat) (pict : Bool) : Bool :=
  (pagesOf va n).all (fun p => match c.pageCheck h ctx p false with
    | .ok v => !v.outside && v.picture == pict
    | .error _ => false)

/-- The work of OPEN (R249, R250). -/
def openWork : Eng Unit := do
  let o ← Eng.op
  let h ← Eng.hamper
  let r ← Eng.ring
  let c ← Eng.card
  let b := o.body
  let f := fun (a n : Nat) => leAt b a n
  let s := f 0 1
  let lay := slotLayout (f 4 2) (f 6 2) (f 3 1)
  let inRange := decide (s < 64) && decide (1 ≤ f 1 1) && decide (f 1 1 ≤ 5) && decide (f 2 1 ≤ 1) &&
    (f 3 1 == 8 || (f 3 1 == 10 && f 1 1 != 1 && f 1 1 != 2)) &&
    decide (16 ≤ f 4 2) && decide (f 4 2 ≤ 8192) && decide (16 ≤ f 6 2) && decide (f 6 2 ≤ 4352) &&
    decide (1 ≤ f 8 1) && decide (f 8 1 ≤ 120) && decide (3 ≤ f 9 1) && decide (f 9 1 ≤ 32) &&
    decide (1 ≤ f 0xC 1) && decide (f 0xC 1 ≤ 4) && f 0xD 3 == 0 && f 0x10 8 % 65536 == 0 &&
    f 0x18 4 % 65536 == 0 && decide (lay.2.2.2 ≤ f 0x18 4) && decide (16 ≤ f 0x1C 2) && decide (f 0x1C 2 ≤ 1024) &&
    decide (f 0x1E 2 < 4096) && f 0x20 8 % 64 == 0 && f 0x28 8 % 65536 == 0 && decide (f 0x30 2 < 16384) && leNat (b.drop 0x32) == 0
  Eng.check inRange 0xD0
  Eng.check (c.stream h s).isNone 0xD2
  Eng.check (match c.ringVf h r with | some v => c.vfHasSem h v (f 0x1E 2) | none => true) 7
  Eng.check (c.semVisible h (f 0x30 2)) 6
  Eng.check (c.sparsePicture h o.ctx (f 0x10 8) (f 9 1 * f 0x18 4) && c.inPicture h o.ctx (f 0x28 8) (f 0x1C 2 * 65536) true &&
    c.inPicture h o.ctx (f 0x20 8) (64 * f 9 1) false) 0xD5
  let t : Stream := { ring := r, fnNum := o.fnNum, ctx := o.ctx, lc := c.ringClass h r == 1, codec := f 1 1, mode := f 2 1, depth := f 3 1, maxW := f 4 2, maxH := f 6 2, fps := f 8 1, slots := f 9 1, guard := f 0xA 2, gang := f 0xC 1, dpb := f 0x10 8, slotBytes := f 0x18 4, stateVa := f 0x28 8, state64 := f 0x1C 2, outSem := f 0x1E 2, desc := f 0x20 8, relSem := f 0x30 2 }
  let slices := popCount (c.f (mg (0x10 + 4 * h)) 15 0) 16
  Eng.check (!t.lc || decide (c.booked h + t.booking ≤ 2000000000 * slices / 16)) 0xD4
  Eng.upd (fun c => c.setStream h s (some t))

/-- DECODE_OPEN. -/
def execDecodeOpen (h : Fin 4) (r : Fin 16) (seq : Nat) (s : State) : Host.Outcome State Fault Refusal :=
  s.run fun c => c.engine h.val r.val seq 1 0x01 openWork

/-! ### FEED -/

/-- The stream operand of a DECODE command is open and this ring opened it (R251, R252, R257). -/
def Eng.needStream (s : Nat) : Eng Stream := do
  let c ← Eng.card
  match c.stream (← Eng.hamper) s with
  | none => Eng.refuse 0xD1
  | some t => if t.closing then Eng.refuse 0xD1 else if t.ring = (← Eng.ring) then pure t else Eng.refuse 0xD3

/-- The fields of FEED lie within R251 and R245. -/
def feedInRange (b : List Byte) : Bool :=
  let f := fun (a n : Nat) => leAt b a n
  let scheme := f 0xE 1
  decide (1 ≤ f 8 4) && decide (f 8 4 ≤ 0x4000000) && decide (f 0xC 1 < 64) && decide (f 0xD 1 < 4) && decide (scheme ≤ 2) &&
  decide (f 0xF 1 < 64) && decide (f 0x28 2 ≤ 256) && f 0x20 8 % 8 == 0 && f 0x2D 3 == 0 && f 0x38 8 == 0 &&
  (match scheme with
   | 0 => f 0xF 1 == 0 && leNat ((b.drop 0x10).take 16) == 0 && f 0x2C 1 == 0
   | 1 => (f 0x2C 1 == 8 || f 0x2C 1 == 16) && f 0x2A 1 == 0 && f 0x2B 1 == 0
   | _ => f 0x2C 1 == 16 && ((f 0x2A 1 == 0 && f 0x2B 1 == 0) || (decide (1 ≤ f 0x2A 1) && decide (f 0x2A 1 ≤ 15) && decide (f 0x2B 1 ≤ 15))))

/-- The source of a FEED translates to host memory or to a card region that is not PICTURE (R251). -/
def Card.feedSource (c : Card) (h ctx va n : Nat) : Bool :=
  (pagesOf va n).all (fun p => match c.pageCheck h ctx p false with | .ok v => !v.picture | .error _ => true)

/-- The work of FEED (R237, R245, R246, R251, R254): `starts` are the places in its decrypted bytes at which pictures begin. -/
def feedWork (starts : List Nat) : Eng Unit := do
  let o ← Eng.op
  let h ← Eng.hamper
  let c ← Eng.card
  let b := o.body
  let s := leAt b 0xC 1
  let n := leAt b 8 4
  Eng.check (feedInRange b) 0xD0
  let t ← Eng.needStream s
  Eng.check (c.feedSource h o.ctx (leAt b 0 8) n) 0xD0
  let scheme := leAt b 0xE 1
  Eng.check (scheme == 0 || (tabGet none c.keys (64 * h + leAt b 0xF 1)).any (fun k => k.ctx == o.ctx)) 0xD6
  let count := leAt b 0x28 2
  let map ← if scheme = 0 ∨ count = 0 then pure [] else do
    Eng.want (leAt b 0x20 8) (8 * count)
    Eng.rd (leAt b 0x20 8) (8 * count)
  Eng.check (scheme == 0 || (((feedSubs b map).map (fun x => x.1 + x.2)).sum == n &&
    (List.range count).all (fun i => leAt map (8 * i + 2) 2 == 0))) 0xD7
  Eng.want (leAt b 0 8) n
  match (← Eng.card).vread h o.ctx o.host (leAt b 0 8) n with
  | .fault f =>
    Eng.upd (fun c => c.feedCut h o starts)
    throw (.fault stFailedInput f)
  | _ => pure ()
  let bs ← Eng.rd (leAt b 0 8) n
  let c ← Eng.card
  let p := c.enqueue h s { t with disc := false, starts := t.starts ++ starts.map (fun x => t.tail + x) } (feedMark b t.disc) (c.feedClear h b map bs)
  Eng.upd (fun _ => p.1)
  if !p.2.isEmpty then
    Eng.updOp (fun o => { o with rest := p.2 })
    throw .hold

/-- DECODE_FEED. -/
def execDecodeFeed (h : Fin 4) (r : Fin 16) (feed : FeedScan) (s : State) : Host.Outcome State Fault Refusal :=
  s.run fun c => c.engine h.val r.val feed.seq 1 0x02 (feedWork feed.starts)

/-- FEED_BYTES_QUEUED (R237): decoding has made room; the FEED retires with its last byte. -/
def execFeedBytesQueued (h : Fin 4) (r : Fin 16) (seq : Nat) (s : State) : Host.Outcome State Fault Refusal :=
  s.run fun c =>
    match c.opOf h.val r.val seq with
    | none => c
    | some o =>
      if !c.live || o.phase != .running || !o.held || o.cls != 1 || o.opcode != 2 then c
      else match c.stream h.val (leAt o.body 0xC 1) with
        | none => c.setOp h.val r.val ({ o with held := false, rest := [] }.ran stRefused 0xD1 0)
        | some t =>
          let p := c.enqueue h.val (leAt o.body 0xC 1) t { feedMark o.body false with disc := false } o.rest
          if p.2.isEmpty then p.1.setOp h.val r.val ({ o with held := false, rest := [] }.ran stDone 0 0)
          else p.1.setOp h.val r.val { o with rest := p.2 }

/-! ### Output (R236, R253) -/

/-- A picture's descriptor. -/
def descriptor (t : Stream) (p : Pic) : List Byte :=
  let lay := slotLayout t.maxW t.maxH t.depth
  leBytes 4 (p.output.getD 0) ++ leBytes 4 p.decodeNo ++ leBytes 1 p.slot ++ leBytes 1 p.flags ++ leBytes 1 p.depth ++ leBytes 1 t.codec ++
  leBytes 2 p.width ++ leBytes 2 p.height ++ leBytes 8 p.user ++ leBytes 8 p.tIn ++ leBytes 8 p.tDone ++
  leBytes 4 lay.1 ++ leBytes 4 lay.2.1 ++ leBytes 4 lay.2.2.1 ++ leBytes 4 p.units ++ leBytes 2 p.epoch ++
  leBytes 2 p.cropX ++ leBytes 2 p.cropY ++ leBytes 2 0

/-- The GRAIN_PARAMS record of a shown picture (R247, R391): four entries. -/
def Card.grainRecord (c : Card) (h s : Nat) (t : Stream) (p : Pic) (out : Nat) : Card :=
  match p.grain with
  | none => c
  | some g =>
    let e := if c.unsettled h p.epoch then p.epoch else 0
    let part := fun (k : Nat) => recBytes (recHeader 6 p.recFlags s out k e 255) ((g.drop (48 * k)).take 48)
    (c.originate h t.ring { entries := [part 0, part 1, part 2, part 3] }).1

/-- One picture is output: its descriptor is written, OUT_SEM is raised, and only then may its epoch commit (R236, R239). -/
def Card.outputPic (c : Card) (h s decodeNo : Nat) : Card :=
  match c.stream h s with
  | none => c
  | some t =>
    match t.pics.find? (fun p => p.decodeNo == decodeNo && p.waiting) with
    | none => c
    | some p =>
      let out := t.nextOutput
      let p' : Pic := { p with output := some out, waiting := false }
      let t' : Stream := { t.mapPics (fun x => if x.decodeNo = decodeNo then p' else x) with nextOutput := out + 1 }
      let c := (c.setStream h s (some t')).grainRecord h s t p out
      let c := c.ctxWrite h t (t.desc + 64 * (out % t.slots)) (descriptor t p')
      let c := (c.semApply (4096 * h + t.outSem) 0 (out + 1)).bump (hp h (0x6100C + 0x40 * s)) 1
      if c.unsettled h p.epoch && !p.refSubst && p.damage.isNone then c.commitEpoch h p.epoch else c

/-- The pending pictures are output in an order; those that the order leaves out follow in decode order. -/
def Card.outputAll (c : Card) (h s : Nat) (order : List Nat) : Card :=
  match c.stream h s with
  | none => c
  | some t =>
    let pend := (t.pics.filter (fun p => p.waiting)).map (fun p => p.decodeNo)
    ((order.filter (fun d => pend.contains d)) ++ (pend.filter (fun d => !order.contains d)).mergeSort).foldl (fun c d => c.outputPic h s d) c

/-! ### DRAIN and CLOSE -/

/-- A picture's epoch is withdrawn, and counted for its context (R239). -/
def Card.retractPic (c : Card) (h s e cause : Nat) : Card :=
  if c.unsettled h e then (c.withdrawEpoch h e cause none).bump (hp h (0x6101C + 0x40 * s)) 1 else c

/-- The epochs of pictures that are discarded complete: OUT_SEM is never signalled for them, so they cannot commit, and are
withdrawn. The spec gives no CAUSE for it: a free value
(DESIGN CHOICE, assumption log entry 140). -/
def Card.discardEpochs (c : Card) (h s : Nat) (l : List Pic) : Card :=
  l.foldl (fun (c : Card) p => if c.unsettled h p.epoch then (c.retractPic h s p.epoch (c.freeN % 256)).draw else c) c

/-- The context is closed: the epochs of its pictures are settled, its slots' pages return, the booking ends (R252). -/
def Card.closeStream (c : Card) (h s : Nat) : Card :=
  match c.stream h s with
  | none => c
  | some t => (((List.range t.slots).foldl (fun c k => c.releaseSlot h t k) (c.discardEpochs h s t.pics)).cancelWaiters h s).setStream h s none

/-- A picture in decode is discarded, its slice free; its epoch is withdrawn. -/
def Card.freeSlices (c : Card) (h s : Nat) : Card :=
  { c with slices := c.slices.filter (fun e => !(e.1 / 16 == h && e.2 == some s)) }

/-- The work of DRAIN (R252): with DISCARD, queued bytes and pending pictures go without output; else it waits until all is
decoded and outputs what is pending
(DEDUCED, assumption log entry 47). -/
def drainWork (order : List Nat) : Eng Unit := do
  let o ← Eng.op
  let h ← Eng.hamper
  let s := leAt o.body 0 1
  Eng.check (decide (s < 64) && decide (leAt o.body 1 1 < 2) && leNat (o.body.drop 2) == 0) 0xD0
  let t ← Eng.needStream s
  if t.pics.any (fun p => p.decoding) then throw .stay
  if leAt o.body 1 1 = 1 then
    let gone := t.pics.filter (fun p => p.output.isNone)
    Eng.upd (fun c => c.discardEpochs h s gone)
    for p in gone do Eng.upd (fun c => c.releaseSlot h t p.slot)
    Eng.upd (fun c => c.setStream h s (some { t with
      head := t.tail, feeds := [], starts := [], header := false, pics := (t.pics.filter (fun p => p.output.isSome)).map (fun (p : Pic) => { p with inRef := false }) }))
  else
    if t.tail ≠ t.head then throw .stay
    Eng.upd (fun c => c.outputAll h s order)

/-- DECODE_DRAIN: `order` is the standard's output order of the pending pictures. -/
def execDecodeDrain (h : Fin 4) (r : Fin 16) (seq : Nat) (order : List Nat) (s : State) : Host.Outcome State Fault Refusal :=
  s.run fun c => c.engine h.val r.val seq 1 0x03 (drainWork order)

/-- The work of CLOSE (R252): queued bytes go; a picture in decode is let finish and then discarded. -/
def closeWork : Eng Unit := do
  let o ← Eng.op
  let h ← Eng.hamper
  let s := leAt o.body 0 1
  Eng.check (decide (s < 64) && leNat (o.body.drop 1) == 0) 0xD0
  let t ← Eng.needStream s
  if t.pics.any (fun p => p.decoding) then
    Eng.upd (fun c => c.setStream h s (some { t with closing := true, head := t.tail, feeds := [], starts := [] }))
    throw .hold
  Eng.upd (fun c => c.closeStream h s)

/-- DECODE_CLOSE. -/
def execDecodeClose (h : Fin 4) (r : Fin 16) (seq : Nat) (s : State) : Host.Outcome State Fault Refusal :=
  s.run fun c => c.engine h.val r.val seq 1 0x04 closeWork

/-- The CLOSE that waits for a stream's picture ends with it. -/
def Card.endClose (c : Card) (h s : Nat) : Card :=
  c.mapOps h (fun _ o => if o.cls = 1 ∧ o.opcode = 4 ∧ o.held ∧ leAt o.body 0 1 = s then ({ o with held := false } : Op).ran stDone 0 0 else o)

/-! ### Key slots (R246, R255) -/

/-- A slot of a hamper's stream keys. -/
def Card.setKey (c : Card) (h slot : Nat) (k : Option KeySlot) : Card := { c with keys := tabPut none c.keys (64 * h + slot) k }

/-- KEY_COMMIT: the write's CTX is applied, the staged words are stored with it and VALID set; staging is then erased. -/
def execKeyCommit (h : Fin 4) (v : Word) (s : State) : Host.Outcome State Fault Refusal :=
  s.run fun c => c.hostWrite (.pf h) 0x60014 fun c =>
    let c := c.writeReg (hp h.val 0x60014) v
    if fld v 29 29 = 0 then c
    else
      let key := (List.range 4).flatMap (fun k => leBytes 4 (c.reg (hp h.val (0x60018 + 4 * k))).toNat)
      let c := c.setKey h.val (c.f (hp h.val 0x60010) 5 0) (some ⟨key, c.f (hp h.val 0x60014) 11 0⟩)
      (List.range 4).foldl (fun c k => c.setReg (hp h.val (0x60018 + 4 * k)) 0) c

/-- KEY_CLEAR: the slot's key is erased. -/
def execKeyClear (h : Fin 4) (v : Word) (s : State) : Host.Outcome State Fault Refusal :=
  s.run fun c => c.hostWrite (.pf h) 0x60014 fun c =>
    let c := c.writeReg (hp h.val 0x60014) v
    if fld v 30 30 = 0 then c else c.setKey h.val (c.f (hp h.val 0x60010) 5 0) none

/-! ### Pictures -/

/-- The oldest undecoded byte of a context arrived at this time. -/
def Stream.oldest (t : Stream) : Nat := ((t.feeds.find? (fun m => decide (t.head < m.start + m.len))).map (fun m => m.time)).getD 0

/-- No ready context goes before context `s` (R237): latency-critical first, then the oldest undecoded byte. -/
def Card.nextContext (c : Card) (h s : Nat) (t : Stream) : Bool :=
  (c.streamsOf h).all (fun x => x.1 == s || c.streamState x.2 != 3 || decide (c.storeFree h x.2.ring < 16) ||
    !((x.2.lc && !t.lc) || (x.2.lc == t.lc && decide (x.2.oldest < t.oldest))))

/-- The most recently decoded picture of a context. -/
def Stream.latest (t : Stream) : Option Pic :=
  (t.pics.filter (fun p => !p.decoding)).foldl (fun b p => match b with
    | none => some p
    | some q => if q.decodeNo < p.decodeNo then some p else some q) none

/-- The reconstruction stages that take a picture of entropy stage `d` (R237): up to GANG of those that are free, `d`'s own first and
then from the lowest number; with none free, `d`'s own
(DESIGN CHOICE, assumption log entry 139). -/
def Card.pickGang (c : Card) (h d gang : Nat) : List Nat :=
  let used := (c.streamsOf h).flatMap (fun x => (x.2.pics.filter (fun p => p.decoding)).flatMap (fun p => p.recon))
  let free := (d :: (List.range 16).filter (fun u => u != d)).filter (fun u => c.unitEnabled h 1 u && !c.fenced h 1 u && !used.contains u)
  if free.isEmpty then [d] else free.take gang

/-- Pictures dropped and units skipped are counted for their context (R255). -/
def Card.countDropped (c : Card) (h s n : Nat) : Card := c.bump (hp h (0x61018 + 0x40 * s)) n

/-- Intake slice `d` takes an entropy stage's work for a context. -/
def Card.takeSlice (c : Card) (h d s : Nat) : Card := { c with slices := tabPut none c.slices (16 * h + d) (some s) }

/-- The epoch of a context's next picture: one is drawn in sub-frame mode only (R238). -/
def Card.picEpoch (c : Card) (h s : Nat) (t : Stream) : Card × Nat := if t.mode = 1 then c.drawEpoch h s t.nextDecode t.ring else (c, 0)

/-- The decode of a picture begins in slot `k` of a context on slice `d`: its epoch is drawn in sub-frame mode, the operations that
wait for its rows join it (R363), and each reference it misses is told (R242). -/
def Card.beginPic (c : Card) (h s : Nat) (t : Stream) (k d : Nat) (missing : List MissingRef) : Card :=
  let ep := c.picEpoch h s t
  let near := t.latest.bind (fun p => if t.nextDecode ≤ p.decodeNo + 8 then some p else none)
  let first := t.starts.headD t.head
  let user := ((t.feeds.find? (fun m => decide (first < m.start + m.len))).map (fun m => m.user)).getD 0
  let p : Pic := { slot := k, decodeNo := t.nextDecode, epoch := ep.2, refSubst := !missing.isEmpty, user := user, slice := d,
                   depth := t.depth, mono := t.mono, seqNo := t.seqNo, recon := ep.1.pickGang h d t.gang }
  let t' : Stream := { t with pics := (t.pics.filter (fun x => x.slot != k)) ++ [p], nextDecode := t.nextDecode + 1 }
  let c := ((ep.1.setStream h s (some t')).bindWaiters h s t.nextDecode ep.2).takeSlice h d s
  let c := missing.foldl (fun c m => (c.streamEvent h s 6 0xFFFFFFFF 0 (leBytes 4 m.refId ++ leBytes 4 m.orderHint ++
    leBytes 1 (if near.isSome then 1 else 2) ++ leBytes 4 ((near.bind (fun p => p.output)).getD 0xFFFFFFFF))).1) c
  if missing.isEmpty then c else c.retractPic h s ep.2 2

/-- PICTURE_DECODE_START (R235, R237, R242, R362, R363, R380): entropy stage `d` takes context `st`, if the slice is free and
the context is the next; the pictures before it that are not decoded are dropped, and a picture begins in the lowest
reusable slot, wholly unbacked
(DEDUCED, assumption log entry 46). -/
def execPictureDecodeStart (h : Fin 4) (d : Fin 16) (st : Fin 64) (ps : PicStart) (s : State) : Host.Outcome State Fault Refusal :=
  s.run fun c =>
    let h := h.val
    let s := st.val
    match c.stream h s with
    | none => c
    | some t =>
      match c.freeSlot t with
      | none => c
      | some k =>
        if !c.live || c.streamState t != 3 || !c.unitEnabled h 1 d.val || c.fenced h 1 d.val ||
            (tabGet none c.slices (16 * h + d.val)).isSome || c.retryWaits h 1 d.val || !c.nextContext h s t || decide (c.storeFree h t.ring < 16) then c
        else
          let t := t.consume ps.bytes
          let c := (c.setStream h s (some t)).countDropped h s ps.dropped
          if !t.holdsStart then c
          else (c.releaseSlot h t k).beginPic h s t k d.val ps.missing

/-- The profiles that are decoded of each codec (R229). -/
def profileOk : Nat → VideoProfile → Bool
  | 1, p => p == .main
  | 2, p => p == .constrainedBaseline || p == .main || p == .high
  | 3, p => p == .main || p == .main10 || p == .mainStill
  | 4, p => p == .profile0 || p == .profile2
  | _, p => p == .main

/-- The highest level of each codec (R229), in the form of `SeqHeader.rank`. -/
def topLevel : Nat → Nat
  | 1 => 4
  | 2 => 52
  | 3 => 52
  | 4 => 62
  | _ => 53

/-- The sequence's profile, level and tools are decoded (R229, R230). -/
def headerOk (hd : SeqHeader) (codec : Nat) : Bool :=
  profileOk codec hd.form && decide (hd.rank ≤ topLevel codec) && decide (hd.depth ≤ 10) && !hd.largeScale

/-- SEQUENCE_HEADER (R230, R236, R243, R260): the sequence before it ends and its pending pictures are output; the header is
refused as UNSUPPORTED, DIM_OVER or DPB_OVER with its STREAM_EVENT, or in force from now on. -/
def execSequenceHeader (h : Fin 4) (st : Fin 64) (hd : SeqHeader) (s : State) : Host.Outcome State Fault Refusal :=
  s.run fun c =>
    let h := h.val
    let s := st.val
    match c.stream h s with
    | none => c
    | some t =>
      if !c.live || t.closing || t.pics.any (fun p => p.decoding) then c
      else
        let c := ((c.setStream h s (some (t.consume hd.bytes))).countDropped h s hd.skipped).outputAll h s hd.flush
        let set := fun (c : Card) (f : Stream → Stream) => c.setStream h s ((c.stream h s).map f)
        let refuse := fun (kind : Nat) (detail : List Byte) =>
          set (c.streamEvent h s kind 0xFFFFFFFF 0 detail).1 (fun t => { t with header := false })
        if !headerOk hd t.codec then refuse 1 (leBytes 1 t.codec ++ leBytes 1 hd.profile ++ leBytes 1 hd.level)
        else if t.maxW < hd.width ∨ t.maxH < hd.height ∨ roundUp t.maxW 16 < hd.codedW ∨ roundUp t.maxH 16 < hd.codedH then
          refuse 4 (leBytes 2 hd.width ++ leBytes 2 hd.height ++ leBytes 2 t.maxW ++ leBytes 2 t.maxH)
        else if t.slots - 1 < hd.needed then refuse 5 (leBytes 1 hd.needed ++ leBytes 1 t.slots)
        else set c (fun t => { t with header := true, width := hd.width, height := hd.height, mono := hd.mono,
                                      seqNo := if t.width = hd.width ∧ t.height = hd.height then t.seqNo else t.seqNo + 1 })

/-- PARTITION_RECONSTRUCTED (R238, R258): the samples are written; in sub-frame mode PROGRESS rises to the rows complete from
the top, unless the epoch has been withdrawn. Once the picture's last byte has been entropy-decoded the entropy stage is free
(R237). -/
def execPartitionReconstructed (h : Fin 4) (st : Fin 64) (data : List Samples) (part : PartEnd) (s : State) : Host.Outcome State Fault Refusal :=
  s.run fun c =>
    let h := h.val
    let s := st.val
    match c.stream h s with
    | none => c
    | some t =>
      match t.pics.find? (fun p => p.decoding) with
      | none => c
      | some p =>
        if !c.live then c
        else
          let c := c.putSamples h t p.slot data
          let c := if part.parsed then c.freeSlices h s else c
          if t.mode = 1 ∧ c.unsettled h p.epoch then
            c.setStream h s ((c.stream h s).map (fun t => t.mapPics (fun q => if q.decoding then { q with rows := max q.rows part.rows } else q)))
          else c

/-- The bytes of a block of a plane: rows of `w` bytes from byte column `x` and row `y`. -/
def Card.copyBlock (c : Card) (h : Nat) (t : Stream) (from_ to_ off pitch x y w rows : Nat) : Card :=
  (List.range rows).foldl (fun c i =>
    let o := off + (y + i) * pitch + x
    match c.vread h t.ctx [] (t.slotVa from_ + o) w with
    | .ok bs => c.ctxWrite h t (t.slotVa to_ + o) bs
    | _ => c) c

/-- A 16 x 16 unit is filled from the collocated area of another slot (R241); of a monochrome picture only its luma (R233). -/
def Card.concealUnit (c : Card) (h : Nat) (t : Stream) (from_ to_ u : Nat) : Card :=
  let lay := slotLayout t.maxW t.maxH t.depth
  let b := if t.depth = 8 then 1 else 2
  let cols := ceilDiv t.width 16
  let x := u % cols
  let y := u / cols
  let c := c.copyBlock h t from_ to_ 0 lay.1 (16 * b * x) (16 * y) (16 * b) 16
  if t.mono then c
  else
    let c := c.copyBlock h t from_ to_ lay.2.1 (lay.1 / 2) (8 * b * x) (8 * y) (8 * b) 8
    c.copyBlock h t from_ to_ lay.2.2.1 (lay.1 / 2) (8 * b * x) (8 * y) (8 * b) 8

/-- The rows of a plane that a field without a partner has are repeated in place of the other field's (R231). -/
def Card.weavePlane (c : Card) (h : Nat) (t : Stream) (k off pitch w rows : Nat) (bottom : Bool) : Card :=
  (List.range (rows / 2)).foldl (fun c i =>
    let at_ := fun (b : Bool) => t.slotVa k + off + (2 * i + b2n b) * pitch
    match c.vread h t.ctx [] (at_ bottom) w with
    | .ok bs => c.ctxWrite h t (at_ !bottom) bs
    | _ => c) c

/-- A field without a partner woven with its own lines (R231). -/
def Card.weave (c : Card) (h : Nat) (t : Stream) (k rows : Nat) (bottom : Bool) : Card :=
  let lay := slotLayout t.maxW t.maxH t.depth
  let c := c.weavePlane h t k 0 lay.1 lay.1 rows bottom
  if t.mono then c else (c.weavePlane h t k lay.2.1 (lay.1 / 2) (lay.1 / 2) (rows / 2) bottom).weavePlane h t k lay.2.2.1 (lay.1 / 2) (lay.1 / 2) (rows / 2) bottom

/-- The most recently decoded picture of the context's present dimensions, since they last changed (R241, R260). -/
def Stream.concealFrom (t : Stream) : Option Pic :=
  ({ t with pics := t.pics.filter (fun p => p.width == t.width && p.height == t.height && p.seqNo == t.seqNo) } : Stream).latest

/-- DAMAGE_DETECTED (R239 to R241, R258): the area is concealed, the epoch withdrawn at once, the damage remembered for the
picture's DAMAGE record; a framing error (CAUSE 4) discards the rest of the FEED as well. An invalid parameter set writes
PARAM_BAD; with an invalid sequence header the pictures that follow are dropped until a valid one arrives. -/
def execDamageDetected (h : Fin 4) (st : Fin 64) (dmg : Damage) (s : State) : Host.Outcome State Fault Refusal :=
  s.run fun c =>
    let h := h.val
    let s := st.val
    match c.stream h s with
    | none => c
    | some t =>
      if !c.live then c
      else match dmg with
        | .paramBad kind id =>
          let c := (c.streamEvent h s 3 0xFFFFFFFF 0 (leBytes 1 kind ++ leBytes 1 id)).1
          if kind = 1 then c.setStream h s ((c.stream h s).map (fun t => { t with header := false })) else c
        | .area cause units =>
          match t.pics.find? (fun p => p.decoding) with
          | none => c
          | some p =>
            let cut := if cause = 4 then ((t.feeds.find? (fun m => decide (t.starts.headD t.head < m.start + m.len))).map (fun m => m.start + m.len)).getD 0 else 0
            let c := c.setStream h s (some (t.mapPics (fun q => if q.decoding then
              { q with cut := max q.cut cut, units := q.units + units.length, damage := some (q.damage.getD (cause, units.headD 0)) } else q)))
            let c := match t.concealFrom with
              | some q => units.foldl (fun (c : Card) u => c.concealUnit h t q.slot p.slot u) c
              | none => c
            c.retractPic h s p.epoch 1

/-- The end of the picture in decode is known (R238, R240): of a byte-stream codec its last partition ends at a FEED with AU_END, at
the next picture's start, at a FEED with DISCONTINUITY 1, or at a DRAIN that waits; a VP9 or AV1 FEED holds it whole. -/
def Card.endKnown (c : Card) (h s : Nat) (t : Stream) (bytes : Nat) : Bool :=
  decide (4 ≤ t.codec) || t.closing ||
  t.feeds.any (fun m => (m.auEnd && m.start + m.len == t.head + bytes) || (m.disc && decide (t.starts.headD t.head < m.start))) ||
  (t.starts.drop 1).any (fun x => decide (x < t.tail)) ||
  (c.allOps h).any (fun x => x.2.cls == 1 && x.2.opcode == 3 && x.2.phase == .running && x.1 == t.ring && leAt x.2.body 0 1 == s)

/-- The parameters of a shown frame's grain, those inherited resolved from the named reference, in the form of R391 (R247). -/
def Stream.grainOf (t : Stream) : Grain → List Byte
  | .params bs => bs
  | .inherit_ ref seed =>
    let g := ((t.pics.find? (fun p => p.decodeNo == ref)).bind (fun p => p.grain)).getD (List.replicate 192 0)
    leBytes 2 seed ++ (g.drop 2).take 3 ++ leBytes 1 (leAt g 5 1 ||| 8) ++ g.drop 6

/-- PICTURE_COMPLETE (R231, R236, R238 to R240, R244, R247, R373): the picture's end is known and its form recorded, its events and
records are written, pictures are output in their order, and its epoch commits unless it was withdrawn. A context that is
closing discards it. -/
def execPictureComplete (h : Fin 4) (st : Fin 64) (pe : PicEnd) (s : State) : Host.Outcome State Fault Refusal :=
  s.run fun c =>
    let h := h.val
    let s := st.val
    match c.stream h s with
    | none => c
    | some t =>
      match t.pics.find? (fun p => p.decoding) with
      | none => c
      | some p =>
        if !c.live || !c.endKnown h s t pe.bytes then c
        else
          let c := (c.putSamples h t p.slot pe.last).freeSlices h s
          let c := match pe.lone with
            | some b => c.weave h t p.slot (roundUp (pe.cropY + pe.height) 2) b
            | none => c
          if t.closing then (c.closeStream h s).endClose h s
          else
            let disc := t.feeds.find? (fun m => m.disc && decide (t.starts.headD t.head < m.start))
            let used := match disc with | some m => min pe.bytes (m.start - t.head) | none => pe.bytes
            let used := max used (p.cut - t.head)
            let tIn := ((t.feeds.find? (fun m => decide (t.head + used ≤ m.start + m.len))).map (fun m => m.time)).getD c.ns
            let sus := t.guard != 0 && decide (t.guard * pe.bytes < pe.width * pe.height)
            let p' : Pic := { p with decoding := false, waiting := pe.number.isSome, width := pe.width, height := pe.height, cropX := pe.cropX, cropY := pe.cropY, depth := pe.depth, field := pe.field, lone := pe.lone.isSome, grain := pe.grain.map t.grainOf, suspect := sus, tIn := tIn, tDone := c.ns, recon := [] }
            let t' := ((t.mapPics (fun q => if q.decodeNo = p.decodeNo then p' else q)).consume used).resync
            let t' := t'.mapPics (fun q => { q with inRef := pe.refs.contains q.decodeNo })
            let c := c.setStream h s (some { t' with lastSuspect := sus })
            let c := c.bump (hp h (0x61008 + 0x40 * s)) 1
            let c := if p'.concealed then c.bump (hp h (0x61014 + 0x40 * s)) 1 else c
            let out := pe.number.getD 0xFFFFFFFF
            let c := match p.damage with
              | some (cause, first) => (c.streamEvent h s 2 out 0 (leBytes 4 p.decodeNo ++ leBytes 4 first ++ leBytes 4 p.units ++ leBytes 1 cause)).1
              | none => c
            let c := if sus && !t.lastSuspect then
                (c.streamEvent h s 7 out 0 (leBytes 4 (if pe.bytes = 0 then 0xFFFFFFFF else pe.width * pe.height / pe.bytes) ++ leBytes 4 pe.bytes)).1 else c
            let c := pe.outputs.foldl (fun c d => c.outputPic h s d) c
            let c := if pe.number.isNone && c.unsettled h p.epoch && !p.refSubst && p.damage.isNone then c.commitEpoch h p.epoch else c
            c

end Sys2Proof.Machine
end

