-- ==== Sys2Proof/Machine/Emit.lean ====
section
/-! DEFINITION. The RECORD class (spec/16 R382, R395, R396): EMIT_MOTION and EMIT. -/

namespace Sys2Proof.Machine

/-- RC_BAD_PARAM, RC_CONFINED and RC_BAD_IMAGE (R396). -/
abbrev rcBadParam : Nat := 0xC8
abbrev rcConfined : Nat := 0xC9
abbrev rcBadImage : Nat := 0xCA

/-- The source ranges of a record command (R396): a translation that fails is counted (R147) and refuses it as RC_BAD_PARAM, a
REMOTE operand as DV_ENGINE (R531), and a range in a PICTURE region as RC_CONFINED. -/
def Eng.recSources (l : List (Nat × Nat)) : Eng Unit := do
  let c ← Eng.card
  let h ← Eng.hamper
  let r ← Eng.ring
  let o ← Eng.op
  if l.any (fun x => c.heldVa h o.ctx false x.1 x.2) then throw .stay
  let vs ← Eng.pagesOr (l.flatMap (fun x => pagesOf x.1 x.2)) false (fun f => do
    Eng.upd (fun c => c.xlFault h r o.ctx f)
    Eng.refuse rcBadParam)
  Eng.check (!vs.any PageView.remote) 0x94
  Eng.check (!vs.any (fun v => v.picture)) rcConfined
  Eng.wants l

/-- The epoch that a record of the operation carries: its own while unsettled (R360). -/
def Eng.recEpoch : Eng Nat := do
  let c ← Eng.card
  let h ← Eng.hamper
  match (← Eng.op).epoch with
  | some e => return if c.unsettled h e then e else 0
  | none => return 0

/-- The header flags of the picture at an address (R382), 0 where no slot holds one
(DEDUCED, assumption log entry 31). -/
def Card.picFlags (c : Card) (h ctx va : Nat) : Nat := ((c.picAt h ctx va).map (fun x => x.2.recFlags)).getD 0

/-- A candidate's displacement in 1/16 pixel, in 2 bytes (R395); a product outside the field saturates (DEDUCED, assumption
log entry 18). -/
def sixteenth (v : Nat) : List Byte := leBytes 2 (toBits 16 (clampI (-32768) 32767 (16 * sint 16 v)))

/-- One MOTION_TILE (R386): from a result entry and its block, on a plane of the given size. -/
def motionTile (flags stream frame refFrame epoch width height bs : Nat) (subst : Bool) (res blk : List Byte) : List Byte :=
  let x := leAt blk 0 2
  let y := leAt blk 2 2
  let w := min bs (width - x)
  let t := min bs (height - y)
  let cnt := leAt res 4 1
  let cfl := leAt res 5 1
  let validity := if cnt = 0 ∨ nbit cfl 2 ∨ nbit cfl 4 ∨ subst ∨ w * t = 0 then 0
    else 255 - min 255 (8 * leAt res 0xC 4 / (w * t))
  let cand := fun (k : Nat) => if k < cnt then sixteenth (leAt res (8 + 8 * k) 2) ++ sixteenth (leAt res (10 + 8 * k) 2) ++ leBytes 4 (leAt res (12 + 8 * k) 4)
    else List.replicate 8 0
  recBytes (recHeader 1 flags stream frame (leAt res 0 4) epoch validity)
    (leBytes 2 x ++ leBytes 2 y ++ leBytes 2 w ++ leBytes 2 t ++ leBytes 4 refFrame ++ leBytes 1 cnt ++ leBytes 1 cfl ++
      leBytes 2 (leAt res 6 2) ++ cand 0 ++ cand 1 ++ cand 2)

/-- The work of EMIT_MOTION (R382, R395): one MOTION_TILE per result entry, in list order. -/
def emitMotionWork : Eng Unit := do
  let o ← Eng.op
  let b := o.body
  let cnt := leAt b 0x28 4
  let wd := leAt b 0x2E 2
  let ht := leAt b 0x30 2
  let st := leAt b 0x2C 2
  Eng.check (decide (1 ≤ cnt) && decide (cnt ≤ 65536) && (decide (st < 64) || (decide (0x100 ≤ st) && decide (st < 0x110)) || st == 0xFFFF) && decide (16 ≤ wd) && decide (wd ≤ 8192) &&
    decide (16 ≤ ht) && decide (ht ≤ 8192) && decide (3 ≤ leAt b 0x32 1) && decide (leAt b 0x32 1 ≤ 6)) rcBadParam
  Eng.recSources [(leAt b 0 8, 32 * cnt), (leAt b 8 8, 16 * cnt)]
  let res ← Eng.rd (leAt b 0 8) (32 * cnt)
  let blk ← Eng.rd (leAt b 8 8) (16 * cnt)
  let c ← Eng.card
  let h ← Eng.hamper
  let f := c.picFlags h o.ctx (leAt b 0x10 8) ||| c.picFlags h o.ctx (leAt b 0x18 8)
  let e ← Eng.recEpoch
  Eng.updOp (fun o => { o with records := (List.range cnt).map (fun i =>
    motionTile f st (leAt b 0x20 4) (leAt b 0x24 4) e wd ht (2 ^ leAt b 0x32 1) (nbit f 2) (res.drop (32 * i)) (blk.drop (16 * i))) })

/-- EMIT_MOTION. -/
def execEmitMotion (h : Fin 4) (r : Fin 16) (seq : Nat) (s : State) : Host.Outcome State Fault Refusal :=
  s.run fun c => c.engine h.val r.val seq 8 0x01 emitMotionWork

/-- A record image is one that EMIT passes on (R396). -/
def imageOk (b : List Byte) : Bool :=
  decide (3 ≤ leAt b 0 1) && decide (leAt b 0 1 ≤ 5) && decide (leAt b 1 1 < 8) && leAt b 0xF 1 == 0

/-- The work of EMIT (R382, R395): the images with EPOCH and, with a picture named, its flags. -/
def emitWork : Eng Unit := do
  let o ← Eng.op
  let b := o.body
  let cnt := leAt b 0x10 4
  Eng.check (leAt b 0 8 % 64 == 0 && decide (1 ≤ cnt) && decide (cnt ≤ 4096)) rcBadParam
  Eng.recSources [(leAt b 0 8, 64 * cnt)]
  let src ← Eng.rd (leAt b 0 8) (64 * cnt)
  Eng.check ((List.range cnt).all (fun i => imageOk (src.drop (64 * i)))) rcBadImage
  let c ← Eng.card
  let h ← Eng.hamper
  let pic := leAt b 8 8
  let e ← Eng.recEpoch
  Eng.updOp (fun o => { o with records := (List.range cnt).map (fun i =>
    let x := (src.drop (64 * i)).take 64
    x.take 1 ++ leBytes 1 (if pic = 0 then leAt x 1 1 else c.picFlags h o.ctx pic) ++ (x.drop 2).take 10 ++ leBytes 2 e ++ x.drop 14) })

/-- EMIT. -/
def execEmit (h : Fin 4) (r : Fin 16) (seq : Nat) (s : State) : Host.Outcome State Fault Refusal :=
  s.run fun c => c.engine h.val r.val seq 8 0x02 emitWork

end Sys2Proof.Machine
end

