-- ==== Sys2Proof/Machine/Colander.lean ====
section
/-! DEFINITION. The colanders (spec/09): the pre-check of a SEARCH, the queue of each CB-08, the search patterns with
their ranking, and the result entries. -/

namespace Sys2Proof.Machine

/-! ### The pre-check (R217, R220) -/

/-- The body's fields lie within R217. -/
def searchInRange (b : List Byte) : Bool :=
  let f := fun (a n : Nat) => leAt b a n
  let px := 1 + f 0x2F 1
  f 0 8 % 64 == 0 && f 8 8 % 64 == 0 && f 0x10 8 % 16 == 0 && f 0x18 8 % 32 == 0 &&
  decide (16 ≤ f 0x20 2) && decide (f 0x20 2 ≤ 8192) && decide (16 ≤ f 0x22 2) && decide (f 0x22 2 ≤ 8192) &&
  f 0x24 4 % 64 == 0 && decide (f 0x20 2 * px ≤ f 0x24 4) && decide (f 0x24 4 ≤ 32768) &&
  decide (1 ≤ f 0x28 4) && decide (f 0x28 4 ≤ 65536) && decide (3 ≤ f 0x2C 1) && decide (f 0x2C 1 ≤ 6) && decide (f 0x2D 1 ≤ 2) &&
  decide (1 ≤ f 0x2E 1) && decide (f 0x2E 1 ≤ 3) && decide (f 0x2F 1 ≤ 1) && decide (1 ≤ f 0x30 1) && decide (f 0x30 1 ≤ 128) &&
  decide (1 ≤ f 0x31 1) && decide (f 0x31 1 ≤ 64) &&
  (if f 0x2D 1 = 1 then decide (1 ≤ f 0x32 1) && decide (f 0x32 1 ≤ 32) else f 0x32 1 == 0) && leNat (b.drop 0x33) == 0

/-- The length of a plane (R220). -/
def planeLen (b : List Byte) : Nat := leAt b 0x24 4 * (leAt b 0x22 2 - 1) + leAt b 0x20 2 * (1 + leAt b 0x2F 1)

/-- The region a plane's page counts under, and the first and last byte of it that say where it lies: the page's own; for an
unbacked page, of its pool's buffers (R220). -/
def Card.planePage (c : Card) (h ctx va : Nat) : Option (RegionEnt × List Nat) :=
  match c.translate h ctx va with
  | .ok l => match l.to_ with
    | .card reg off =>
      if l.sparse && !l.backed then
        let q := c.poolCfg h l.pool
        (c.regionOf q.region).map (fun x => (x.2, [q.base, q.base + q.count * q.size - 1]))
      else (c.regionOf reg).map (fun x => (x.2, [off + l.pageOff va]))
    | _ => none
  | .error _ => none

/-- The pages of both planes. -/
def Card.planePages (c : Card) (h : Nat) (o : Op) : List (Option (RegionEnt × List Nat)) :=
  (pagesOf (leAt o.body 0 8) (planeLen o.body) ++ pagesOf (leAt o.body 8 8) (planeLen o.body)).map (fun p => c.planePage h o.ctx p)

/-- The ranks that serve the planes: those that the addresses of their pages are redirected to (R195). A migration changes them
when it ends. -/
def Card.searchRanks (c : Card) (h : Nat) (o : Op) : List Nat :=
  ((c.planePages h o).flatMap (fun p => match p with
    | some x => x.2.map (fun d =>
        let k := 2 * (x.1.chanAddr d).1 + addrRank (x.1.chanAddr d).2
        (tabGet none c.redirect k).getD k)
    | none => [])).eraseDups

/-- The channels of the planes' regions. -/
def Card.searchChannels (c : Card) (h : Nat) (o : Op) : List Nat :=
  ((c.planePages h o).filterMap (fun p => p.map (fun x => (maskList x.1.channels 8).headD 0))).eraseDups

/-- The module whose CB-08 serves a SEARCH (R209, R220 step 4, R224); none when the planes are split. -/
def Card.searchModule (c : Card) (h : Nat) (o : Op) : Option Nat :=
  match c.searchChannels h o, ((c.searchRanks h o).map (fun k => k / 2)).eraseDups with
  | [_], [m] => some m
  | _, _ => none

/-- The CB-08 of a module takes SEARCH operations (R220 step 5). -/
def Card.colTakes (c : Card) (m : Nat) : Bool :=
  c.bit (mg 0xE000) m && c.bit (mg 0x0020) (16 + m) && !tabGet false c.colFence m

/-- The pre-check of a SEARCH (R220), which ends with the operation queued for its module. The group's mask is that of the
layout less the units on channels without a CB-08 (R52, R209)
(DEDUCED, assumption log entry 26). -/
def searchCheck : Eng Unit := do
  let o ← Eng.op
  let b := o.body
  Eng.check (searchInRange b) 0xC3
  let _ ← Eng.precheck (leAt b 0 8) (planeLen b) false
  let _ ← Eng.precheck (leAt b 8 8) (planeLen b) false
  let c ← Eng.card
  let h ← Eng.hamper
  Eng.check ((c.planePages h o).all (fun p => p.any (fun x => x.1.colander))) 0xC0
  match c.searchModule h o with
  | none => Eng.refuse 0xC1
  | some m =>
    let ch := (c.searchChannels h o).headD 0
    Eng.check (c.bit (mg 0x0020) (16 + ch) && (c.groupOf h o.group).any (fun g => nbit g.units ch) && c.colTakes m) 0xC2
    Eng.updOp (fun o => { o with unit := m })
    throw .hold

/-- SEARCH (R220): pre-checked, and queued for the module's CB-08. It is not started, so nothing is charged yet. -/
def execSearch (h : Fin 4) (r : Fin 16) (seq : Nat) (s : State) : Host.Outcome State Fault Refusal :=
  s.run fun c => match c.runnable h.val r.val seq 7 0x01 with
    | none => c
    | some (o, _) =>
      if o.started then c
      else if o.suspect && decide (2 ≤ c.shedStage h.val) then (c.chargeCount h.val o 0x18).setOp h.val r.val (o.ran stCancelled 0x21 0)
      else c.runStep h.val r.val o searchCheck (fun _ => true)

/-! ### One block (R214 to R216) -/

/-- A plane as a SEARCH sees it: its address, and its figures. -/
structure Plane where
  va : Nat
  width : Nat
  height : Nat
  pitch : Nat
  px : Nat
deriving DecidableEq, Repr

/-- A position and its SAD. -/
structure Cand where
  dx : Int
  dy : Int
  sad : Nat
deriving DecidableEq, Repr

/-- The sum of absolute differences of a block and an equal rectangle of an area. -/
def sadOf (blk area : List (List Nat)) (x y w : Nat) : Nat :=
  ((blk.zip (area.drop y)).map (fun r => ((r.1.zip ((r.2.drop x).take w)).map (fun v => if v.1 < v.2 then v.2 - v.1 else v.1 - v.2)).sum)).sum

/-- The absolute value. -/
def iabs (i : Int) : Nat := i.natAbs

/-- Position `a` ranks before `b` (R215). -/
def ranksBefore (pdx pdy : Int) (a b : Cand) : Bool :=
  let d := fun (x : Cand) => iabs (x.dx - pdx) + iabs (x.dy - pdy)
  decide (a.sad < b.sad) || (a.sad == b.sad && (decide (d a < d b) || (d a == d b &&
    (decide (a.dy < b.dy) || (a.dy == b.dy && decide (a.dx < b.dx))))))

/-- A position put into a ranking. -/
def rankIn (pdx pdy : Int) (x : Cand) : List Cand → List Cand
  | [] => [x]
  | y :: t => if ranksBefore pdx pdy x y then x :: y :: t else y :: rankIn pdx pdy x t

/-- What has been evaluated: the ranking, and whether a position was skipped. -/
structure Search where
  ranked : List Cand := []
  skipped : Bool := false
deriving DecidableEq, Repr

/-- What a block's search works with. -/
structure Field where
  pdx : Int
  pdy : Int
  inside : Int → Int → Bool     -- the position is evaluable
  sad : Int → Int → Nat

/-- Positions evaluated, none twice; those not evaluable are skipped. -/
def Search.try_ (k : Field) (s : Search) (l : List (Int × Int)) : Search :=
  l.foldl (fun (s : Search) p =>
    if !k.inside p.1 p.2 then { s with skipped := true }
    else if s.ranked.any (fun y => y.dx == p.1 && y.dy == p.2) then s
    else { s with ranked := rankIn k.pdx k.pdy ⟨p.1, p.2, k.sad p.1 p.2⟩ s.ranked }) s

/-- DIAMOND (R214): the search, its last centre, and whether the steps ran out. With nothing evaluated there is no best: the
loop is left. -/
def diamond (k : Field) : Nat → Int × Int → Search → Search × (Int × Int) × Bool
  | 0, ce, s => (s, ce, true)
  | fuel + 1, ce, s =>
    let at_ := fun (x y : Int) => (ce.1 + x, ce.2 + y)
    let s := s.try_ k [at_ 0 0, at_ (-2) 0, at_ 2 0, at_ 0 (-2), at_ 0 2, at_ (-1) (-1), at_ 1 (-1), at_ (-1) 1, at_ 1 1]
    match s.ranked.head? with
    | none => (s, ce, false)
    | some b =>
      if b.dx = ce.1 ∧ b.dy = ce.2 then (s, ce, false)
      else if fuel = 0 then (s, (b.dx, b.dy), true)
      else diamond k fuel (b.dx, b.dy) s

/-- Every integer of `[a, b]`. -/
def intRange (a b : Int) : List Int := (List.range (b + 1 - a).toNat).map (fun (i : Nat) => a + (i : Int))

/-- The search of one block by a pattern; `steps` is MAX_STEPS
(DEDUCED, assumption log entry 27). -/
def searchBlock (k : Field) (pattern steps : Nat) (rx ry : Int) : Search × Bool :=
  if pattern = 0 then
    (({} : Search).try_ k ((intRange (k.pdy - ry) (k.pdy + ry)).flatMap (fun y => (intRange (k.pdx - rx) (k.pdx + rx)).map (fun x => (x, y)))), false)
  else if pattern = 1 then
    let d := diamond k steps (k.pdx, k.pdy) {}
    let b := d.2.1
    (d.1.try_ k [(b.1 - 1, b.2), (b.1 + 1, b.2), (b.1, b.2 - 1), (b.1, b.2 + 1)], d.2.2)
  else
    (({} : Search).try_ k ((intRange (k.pdy - 1) (k.pdy + 1)).flatMap (fun y => (intRange (k.pdx - 1) (k.pdx + 1)).map (fun x => (x, y)))), false)

/-- A result entry (R219). -/
def resultEntry (id : Nat) (flags evaluated : Nat) (cs : List Cand) : List Byte :=
  let one := fun (c : Cand) => leBytes 2 (toBits 16 c.dx) ++ leBytes 2 (toBits 16 c.dy) ++ leBytes 4 c.sad
  (leBytes 4 id ++ leBytes 1 cs.length ++ leBytes 1 flags ++ leBytes 2 (min 65535 evaluated) ++ cs.flatMap one ++ List.replicate 24 0).take 32

/-! ### The window cache (R208, R211, R212) -/

/-- The 64-byte lines of a rectangle, by address. -/
def rectLines (p : Plane) (x y w n : Nat) : List Nat :=
  if w = 0 then []
  else (List.range n).flatMap (fun i =>
    let a := p.va + (y + i) * p.pitch + x * p.px
    (List.range ((a + w * p.px - 1) / 64 - a / 64 + 1)).map (fun j => (a / 64 + j) * 64))

/-- The window cache of module `m`'s CB-08, set: 512 KiB, of which the line loaded longest ago goes. -/
def Card.setWindow (c : Card) (m : Nat) (l : List WinLine) : Card := { c with windows := tabPut [] c.windows m (l.take 8192) }

/-- The prefetched lines that no block has used. -/
def Card.ahead (c : Card) (m : Nat) : Nat := ((tabGet [] c.windows m).filter (fun x => !x.used)).length

/-- The panic of module `m`'s colander follows the prefetched, unused part of its window cache (R180). -/
def Card.colUrge (c : Card) (m : Nat) : Card :=
  let p := urged (tabGet false c.colPanic m) (8192 - c.ahead m) 8192 (c.f (mg 0x800C) 15 12) (c.f (mg 0x800C) 11 8)
  { c with colPanic := tabPut false c.colPanic m p }

/-- A line that a near-read brings (R211): it reaches DRAM beside the memory-side cache, opens its row, and is counted. -/
def Card.nearTouch (c : Card) (m : Nat) (e : RegionEnt) (d : Nat) : Card :=
  let c := c.bump (mg (0xE108 + 0x40 * m)) 1
  match c.phys (e.chanAddr d).1 (e.chanAddr d).2 with
  | some (k, _) => c.dramTouch k (e.chanAddr d).2
  | none => c

/-- The line at `va` for the running SEARCH: resident, or near-read into the window cache. An unbacked page reads as grey
without a near-read (R216). A page that has stopped being card memory since the pre-check ends the SEARCH as not plain
(DESIGN CHOICE, assumption log entry 28). -/
def Eng.nearLine (use : Bool) (va : Nat) : Eng (List Byte) := do
  let c ← Eng.card
  let h ← Eng.hamper
  let o ← Eng.op
  if c.heldVa h o.ctx false va 64 then throw .stay
  let w := tabGet [] c.windows o.unit
  match c.spansOf h o.ctx va 64, c.vread h o.ctx [] va 64 with
  | x :: _, res =>
    let key := x.1.num * 2 ^ 34 + x.2.1 / 64
    match w.find? (fun y => y.key == key), res with
    | some y, _ =>
      if use && !y.used then
        Eng.upd (fun c => c.setWindow o.unit (w.map (fun z => if z.key = key then { z with used := true } else z)))
      return y.data
    | none, .ok bs =>
      for e in c.rangeEpochs h o.ctx va 64 do Eng.join e
      Eng.upd (fun c => ((c.cacheXlate h o.ctx va 64).nearTouch o.unit x.1 x.2.1).setWindow o.unit (⟨key, bs, use⟩ :: w))
      return bs
    | none, .fault f => throw (.fault stFailedInput f)
    | none, .need _ => Eng.refuse 0xC0
  | [], .ok bs => return bs
  | [], .fault f => throw (.fault stFailedInput f)
  | [], .need _ => Eng.refuse 0xC0

/-- The rows of a rectangle of a plane, through the window cache. -/
def Eng.rect (p : Plane) (x y w n : Nat) : Eng (List (List Nat)) :=
  (List.range n).mapM (fun i => do
    let a := p.va + (y + i) * p.pitch + x * p.px
    let bs := (← (rectLines p x (y + i) w 1).mapM (Eng.nearLine true)).flatten.drop (a % 64)
    return (List.range w).map (fun j => leAt bs (j * p.px) p.px))

/-! ### The blocks of a SEARCH -/

/-- A block of the list, in its plane: what is inside of it, its predictor, the displacements from `x0`, `y0` to `x1`, `y1` at
which the reference block lies inside the plane, and the search area they span (R212, R214, R216). -/
structure Block where
  x : Nat
  y : Nat
  w : Nat
  n : Nat
  pdx : Int
  pdy : Int
  x0 : Int
  x1 : Int
  y0 : Int
  y1 : Int
  ax : Nat
  ay : Nat
  aw : Nat
  an : Nat
deriving DecidableEq, Repr

/-- The block of list entry `e` of a SEARCH with body `b`; none for one that lies outside the plane. -/
def blockOf (p : Plane) (b e : List Byte) : Option Block :=
  let x := leAt e 0 2
  let y := leAt e 2 2
  if p.width ≤ x ∨ p.height ≤ y then none
  else
    let w := min (2 ^ leAt b 0x2C 1) (p.width - x)
    let n := min (2 ^ leAt b 0x2C 1) (p.height - y)
    let pdx := sint 16 (leAt e 4 2)
    let pdy := sint 16 (leAt e 6 2)
    let sx : Int := if leAt b 0x2D 1 = 2 then 1 else leAt b 0x30 1
    let sy : Int := if leAt b 0x2D 1 = 2 then 1 else leAt b 0x31 1
    let x0 := max (pdx - sx) (-(x : Int))
    let x1 := min (pdx + sx) ((p.width : Int) - w - x)
    let y0 := max (pdy - sy) (-(y : Int))
    let y1 := min (pdy + sy) ((p.height : Int) - n - y)
    let some_ := decide (x0 ≤ x1) && decide (y0 ≤ y1)
    some { x, y, w, n, pdx, pdy, x0, x1, y0, y1, ax := (x0 + x).toNat, ay := (y0 + y).toNat,
           aw := if some_ then (x1 - x0).toNat + w else 0, an := if some_ then (y1 - y0).toNat + n else 0 }

/-- The current block's lines and those of its search area (R212). -/
def Block.lines (k : Block) (cur ref : Plane) : List Nat := rectLines cur k.x k.y k.w k.n ++ rectLines ref k.ax k.ay k.aw k.an

/-- The planes of a SEARCH: current and reference. -/
def planesOf (b : List Byte) : Plane × Plane :=
  let p : Plane := { va := leAt b 0 8, width := leAt b 0x20 2, height := leAt b 0x22 2, pitch := leAt b 0x24 4, px := 1 + leAt b 0x2F 1 }
  (p, { p with va := leAt b 8 8 })

/-- An unbacked page, which reads as grey without a near-read (R216). -/
def Card.greyAt (c : Card) (h ctx va : Nat) : Bool :=
  match c.translate h ctx va with | .ok l => l.sparse && !l.backed | .error _ => false

/-- The result entry of a block (R214 to R216, R219). -/
def blockWork (b e : List Byte) : Eng (List Byte) := do
  let cur := (planesOf b).1
  let ref := (planesOf b).2
  match blockOf cur b e with
  | none => return resultEntry (leAt e 8 4) 16 0 []
  | some k =>
    let c ← Eng.card
    let h ← Eng.hamper
    let o ← Eng.op
    let grey := (k.lines cur ref).any (fun a => c.greyAt h o.ctx a)
    let blk ← Eng.rect cur k.x k.y k.w k.n
    let area ← Eng.rect ref k.ax k.ay k.aw k.an
    let rx : Int := leAt b 0x30 1
    let ry : Int := leAt b 0x31 1
    let fd : Field := {
      pdx := k.pdx
      pdy := k.pdy
      inside := fun dx dy => decide (k.pdx - rx ≤ dx) && decide (dx ≤ k.pdx + rx) && decide (k.pdy - ry ≤ dy) && decide (dy ≤ k.pdy + ry) &&
        decide (k.x0 ≤ dx) && decide (dx ≤ k.x1) && decide (k.y0 ≤ dy) && decide (dy ≤ k.y1)
      sad := fun dx dy => sadOf blk area (dx - k.x0).toNat (dy - k.y0).toNat k.w }
    let s := searchBlock fd (leAt b 0x2D 1) (leAt b 0x32 1) rx ry
    let bs := 2 ^ leAt b 0x2C 1
    let flags := b2n (k.w != bs || k.n != bs) + 2 * b2n s.1.skipped + 4 * b2n grey + 8 * b2n s.2
    return resultEntry (leAt e 8 4) flags s.1.ranked.length (s.1.ranked.take (leAt b 0x2E 1))

/-- The lines of the blocks to come, prefetched in list order while the unused part is below 256 KiB (R212). A page that does
not translate is left to its block. -/
def prefetch (b : List Byte) : List (List Byte) → Eng Unit
  | [] => pure ()
  | e :: t => do
    let h ← Eng.hamper
    let o ← Eng.op
    match blockOf (planesOf b).1 b e with
    | none => pure ()
    | some k =>
      for a in k.lines (planesOf b).1 (planesOf b).2 do
        let c ← Eng.card
        if decide (c.ahead o.unit < 4096) && !(c.spansOf h o.ctx a 64).isEmpty &&
            (match c.vread h o.ctx [] a 64 with | .ok _ => true | _ => false) && !c.heldVa h o.ctx false a 64 then
          let _ ← Eng.nearLine false a
    if (← Eng.card).ahead o.unit < 4096 then prefetch b t

/-- The entries of a list of blocks. -/
def entriesOf (l : List Byte) : List (List Byte) := (List.range (l.length / 16)).map (fun i => (l.drop (16 * i)).take 16)

/-- The next block of a running SEARCH: evaluated, its entry written, counted; one result line is read for every two blocks
(R211); then the front end prefetches. `Op.rest` is what is left of the list, `Op.passes` the blocks completed. -/
def searchStep : Eng Unit := do
  let o ← Eng.op
  let i := o.passes
  let bs ← blockWork o.body (o.rest.take 16)
  Eng.wr (leAt o.body 0x18 8 + 32 * i) bs
  Eng.upd (fun c => c.bump (mg (0xE104 + 0x40 * o.unit)) 1)
  if i % 2 = 1 ∨ o.rest.length ≤ 16 then Eng.upd (fun c => c.bump (mg (0xE108 + 0x40 * o.unit)) 1)
  Eng.updOp (fun o => { o with passes := i + 1, rest := o.rest.drop 16 })
  prefetch o.body (entriesOf (o.rest.drop 16))
  Eng.upd (fun c => c.colUrge o.unit)

/-- The front end takes a SEARCH: its list is read, and the window cache is empty. -/
def searchOpen : Eng Unit := do
  let o ← Eng.op
  let list ← Eng.rd (leAt o.body 0x10 8) (16 * leAt o.body 0x28 4)
  Eng.updOp (fun o => { o with rest := list, passes := 0 })
  Eng.upd (fun c => (c.setWindow o.unit []).colUrge o.unit)

/-- The SEARCH that a CB-08 runs. -/
def Card.running (c : Card) (m : Nat) : Option (Nat × Nat × Op) :=
  if c.live then (c.colOps m).find? (fun x => x.2.2.started && !x.2.2.held && x.2.2.phase == .running) else none

/-- A running SEARCH goes on by one block; after its last one it is done. -/
def Card.searchBlock (c : Card) (m : Nat) : Card :=
  match c.running m with
  | none => c
  | some (h, r, o) => c.drawXlate.runStep h r o searchStep (fun o => o.rest.isEmpty)

/-- A running SEARCH goes on by at most `n` blocks. -/
def Card.searchBlocks (m : Nat) : Nat → Card → Card
  | 0, c => c
  | n + 1, c => if (c.running m).isNone then c else Card.searchBlocks m n (c.searchBlock m)

/-- A running SEARCH goes on to its end. -/
def Card.searchEnd (c : Card) (m : Nat) : Card :=
  match c.running m with
  | some (_, _, o) => Card.searchBlocks m (o.rest.length / 16) c
  | none => c

/-! ### The queue (R210) -/

/-- The queued SEARCH of module `m` that starts next: latency-critical before best-effort, each in order of acceptance;
those whose planes lie on a rank that migrates wait (R224). -/
def Card.nextSearch (c : Card) (m : Nat) : Option (Nat × Nat × Op) :=
  let l := (c.colOps m).filter (fun x => !x.2.2.started && x.2.2.reads.isEmpty && x.2.2.phase == .running && !c.govHolds x.1 x.2.1 x.2.2.seq &&
    !(c.searchRanks x.1 x.2.2).any (fun k => c.rankState k == 3))
  let k := fun (x : Nat × Nat × Op) => (b2n (!c.opLc x.1 x.2.1 x.2.2), x.2.2.order)
  l.foldl (fun best x => match best with
    | none => some x
    | some y => if (k x).1 < (k y).1 ∨ ((k x).1 = (k y).1 ∧ (k x).2 < (k y).2) then some x else some y) none

/-- A SEARCH that a migration held goes on at its next block, on the CB-08 of the hosting module (R224), once that one runs no
other; one whose planes have come to lie on two modules, or whose CB-08 is fenced, ends
(DEDUCED, assumption log entry 30). -/
def Card.resumeSearch (c : Card) (h r : Nat) (o : Op) : Card :=
  if (c.searchRanks h o).any (fun k => c.rankState k == 3) then c
  else match c.searchModule h o with
    | none => c.setOp h r ({ o with held := false }.ran stRefused 0xC1 0)
    | some m =>
      if tabGet false c.colFence m then c.setOp h r ({ o with held := false }.ran stRefused 0xC2 0)
      else if (c.running m).isSome then c.setOp h r { o with unit := m }
      else (if m = o.unit then c else c.setWindow m []).setOp h r { o with held := false, unit := m }

/-- COLANDER_SEARCH_START (R210): module `m`'s CB-08 becomes free, its present SEARCH at its end; one that waits to resume there
goes on, else the next queued SEARCH starts. A SEARCH whose planes have come to lie on two modules is refused as split (R225);
one on a SUSPECT picture is cancelled from stage 2 on (R39). When in between the blocks are evaluated is the time base's:
`Card.tickWork` (DESIGN CHOICE, assumption log entry 138). -/
def execColanderSearchStart (m : Fin 8) (s : State) : Host.Outcome State Fault Refusal :=
  s.run fun c =>
    let m := m.val
    let c := c.searchEnd m
    match (c.colOps m).find? (fun x => x.2.2.started) with
    | some (h, r, o) => if c.live && o.held then c.resumeSearch h r o else c
    | none =>
      if !c.live || c.colState m != 1 then c
      else match c.nextSearch m with
        | none => c
        | some (h, r, o) =>
          if c.isSuspect h o && decide (2 ≤ c.shedStage h) then
            (c.chargeCount h o 0x18).setOp h r ({ o with held := false }.ran stCancelled 0x21 0)
          else match c.searchModule h o with
            | none => c.setOp h r ({ o with held := false }.ran stRefused 0xC1 0)
            | some m' =>
              if m' ≠ m then c.setOp h r { o with unit := m' }
              else
                let c' := ((c.drawXlate).chargeWait h o (c.ns - o.at_)).chargeCount h o 0x10
                let o' : Op := { o with started := true, held := false }
                match ((searchOpen.run).run { card := c', op := o', h := h, r := r }).1 with
                | .error (.need l) => let p := c.askFor h r o l; p.1.setOp h r p.2
                | _ => c.runFirst h r (c', o') searchOpen (fun _ => false)

end Sys2Proof.Machine
end

