-- ==== Sys2Proof/Machine/Float.lean ====
section
/-! DEFINITION. Floating-point numbers (spec/13 R309, R310; spec/14 R334): the encodings, exact values, and rounding to
nearest, ties to even. An FP32 value is held as the number of its 32 bits. -/

namespace Sys2Proof.Machine

/-- The value of an encoding: a NaN, an infinity, or a sign, an integer and a power of two. -/
inductive Flt where
  | nan
  | inf (neg : Bool)
  | fin (neg : Bool) (m : Nat) (e : Int)
deriving DecidableEq, Repr

/-- An IEEE-like encoding: the bits of its significand below the hidden one, the bits of its exponent, and the exponent of
its smallest subnormal. -/
structure FpForm where
  mant : Nat
  exp  : Nat
  qmin : Int
deriving DecidableEq, Repr

def formFp32 : FpForm := ⟨23, 8, -149⟩
def formFp16 : FpForm := ⟨10, 5, -24⟩
def formBf16 : FpForm := ⟨7, 8, -133⟩
def formE5m2 : FpForm := ⟨2, 5, -16⟩
def formE4m3 : FpForm := ⟨3, 4, -9⟩

/-- The canonical NaN (R310). -/
abbrev nan32 : Nat := 0x7FC00000

/-- The value of an encoding with infinities; E4M3 has none, and one NaN of each sign (R310). -/
def fpDecode (f : FpForm) (v : Nat) : Flt :=
  let neg := nbit v (f.mant + f.exp)
  let e := nbits v (f.mant + f.exp - 1) f.mant
  let m := v % 2 ^ f.mant
  if f = formE4m3 then
    if v % 128 = 127 then .nan
    else if e = 0 then .fin neg m f.qmin else .fin neg (m + 2 ^ f.mant) (f.qmin + (e : Int) - 1)
  else if e = 2 ^ f.exp - 1 then (if m = 0 then .inf neg else .nan)
  else if e = 0 then .fin neg m f.qmin else .fin neg (m + 2 ^ f.mant) (f.qmin + (e : Int) - 1)

/-- `m × 2^-s`, rounded to the nearest integer, ties to even. -/
def rneShift (m s : Nat) : Nat :=
  let q := m >>> s
  let r := m % 2 ^ s
  if 2 * r > 2 ^ s ∨ (2 * r = 2 ^ s ∧ q % 2 = 1) then q + 1 else q

/-- The magnitude bits of `m × 2^e` rounded to a form, as if its exponent had no upper limit. -/
def fpMag (f : FpForm) (m : Nat) (e : Int) : Nat :=
  if m = 0 then 0
  else
    let q := max (e + (Nat.log2 m : Int) - (f.mant : Int)) f.qmin
    let n := if q ≤ e then m * 2 ^ (e - q).toNat else rneShift m (q - e).toNat
    (q - f.qmin).toNat * 2 ^ f.mant + n

/-- A value rounded to FP32 (R310, R334): overflow gives an infinity, a NaN the canonical one. -/
def fp32Of : Flt → Nat
  | .nan => nan32
  | .inf neg => b2n neg * 2 ^ 31 + 0x7F800000
  | .fin neg m e => b2n neg * 2 ^ 31 + min (fpMag formFp32 m e) 0x7F800000

/-- The value of an FP32 number. -/
def val32 (v : Nat) : Flt := fpDecode formFp32 v

/-- The value is not finite. -/
def Flt.odd : Flt → Bool
  | .fin .. => false
  | _ => true

/-- An FP32 number is a NaN. -/
def isNan32 (v : Nat) : Bool := val32 v == .nan

/-- An FP32 number is finite. -/
def isFin32 (v : Nat) : Bool := !(val32 v).odd

/-- The exact sum of two values, before rounding; infinity minus infinity is a NaN. -/
def Flt.add : Flt → Flt → Flt
  | .nan, _ => .nan
  | _, .nan => .nan
  | .inf a, .inf b => if a = b then .inf a else .nan
  | .inf a, _ => .inf a
  | _, .inf b => .inf b
  | .fin a m e, .fin b n g =>
    let k := min e g
    let x : Int := (if a then -1 else 1) * (m * 2 ^ (e - k).toNat : Nat)
    let y : Int := (if b then -1 else 1) * (n * 2 ^ (g - k).toNat : Nat)
    let s := x + y
    if s = 0 then .fin (a && b) 0 0 else .fin (decide (s < 0)) s.natAbs k

/-- The exact product of two values; zero times an infinity is a NaN. -/
def Flt.mul : Flt → Flt → Flt
  | .nan, _ => .nan
  | _, .nan => .nan
  | .inf a, .inf b => .inf (a != b)
  | .inf a, .fin b n _ => if n = 0 then .nan else .inf (a != b)
  | .fin a m _, .inf b => if m = 0 then .nan else .inf (a != b)
  | .fin a m e, .fin b n g => .fin (a != b) (m * n) (e + g)

/-- The quotient of two values to far more bits than FP32 holds, its last bit telling whether a remainder was left. -/
def Flt.div : Flt → Flt → Flt
  | .nan, _ => .nan
  | _, .nan => .nan
  | .inf _, .inf _ => .nan
  | .inf a, .fin b _ _ => .inf (a != b)
  | .fin a _ _, .inf b => .fin (a != b) 0 0
  | .fin a m e, .fin b n g =>
    if n = 0 then (if m = 0 then .nan else .inf (a != b))
    else
      let k := Nat.log2 n + 66
      let q := (m <<< k) / n
      let r := (m <<< k) % n
      .fin (a != b) (2 * q + (if r = 0 then 0 else 1)) (e - g - (k : Int) - 1)

/-- The opposite of a value. -/
def Flt.neg : Flt → Flt
  | .nan => .nan
  | .inf a => .inf (!a)
  | .fin a m e => .fin (!a) m e

/-- An integer's value. -/
def Flt.ofInt (i : Int) : Flt := .fin (decide (i < 0)) i.natAbs 0

/-- `a < b` of two values; a NaN compares with nothing. -/
def Flt.lt (a b : Flt) : Bool :=
  match a, b with
  | .nan, _ => false
  | _, .nan => false
  | a, b => match a.add b.neg with
    | .fin neg m _ => neg && m != 0
    | .inf neg => neg
    | .nan => false

/-! ### FP32 arithmetic: each operation rounds -/

def add32 (a b : Nat) : Nat := fp32Of ((val32 a).add (val32 b))
def sub32 (a b : Nat) : Nat := fp32Of ((val32 a).add (val32 b).neg)
def mul32 (a b : Nat) : Nat := fp32Of ((val32 a).mul (val32 b))
def div32 (a b : Nat) : Nat := fp32Of ((val32 a).div (val32 b))
def int32f (i : Int) : Nat := fp32Of (Flt.ofInt i)
def lt32 (a b : Nat) : Bool := (val32 a).lt (val32 b)
def abs32 (a : Nat) : Nat := if isNan32 a then a else a % 2 ^ 31

/-- The FP32 number nearest a fraction. -/
def frac32 (n : Int) (d : Nat) : Nat := fp32Of ((Flt.ofInt n).div (Flt.ofInt d))

/-- The larger; a NaN yields the other (R335). -/
def max32 (a b : Nat) : Nat := if isNan32 a then b else if isNan32 b then a else if lt32 a b then b else a

/-- The smaller; a NaN yields the other (R335). -/
def min32 (a b : Nat) : Nat := if isNan32 a then b else if isNan32 b then a else if lt32 b a then b else a

/-- A value as an integer and whether it was exact: the greatest integer not above it. -/
def Flt.floor : Flt → Int
  | .fin neg m e =>
    let x : Int := if neg then -(m : Int) else m
    if 0 ≤ e then x * (2 ^ e.toNat : Nat) else x.fdiv (2 ^ (-e).toNat : Nat)
  | _ => 0

/-- A finite value rounded to the nearest integer, ties to even. -/
def rneInt (neg : Bool) (m : Nat) (e : Int) : Int :=
  let n : Nat := if 0 ≤ e then m * 2 ^ e.toNat else rneShift m (-e).toNat
  if neg then -(n : Int) else n

/-! ### Conversion to a stored format -/

/-- What a conversion gives: the stored number, whether it saturated, and whether it counts as an exception. -/
structure Conv where
  bits : Nat
  sat  : Bool := false
  exc  : Bool := false
deriving DecidableEq, Repr

/-- To a two's complement integer of `w` bits (R334). -/
def toInt (w : Nat) (v : Flt) : Conv :=
  let lo : Int := -((2 ^ (w - 1) : Nat) : Int)
  let hi : Int := ((2 ^ (w - 1) : Nat) : Int) - 1
  match v with
  | .nan => { bits := 0, exc := true }
  | .inf neg => { bits := toBits w (if neg then lo else hi), sat := true }
  | .fin neg m e =>
    let i := rneInt neg m e
    { bits := toBits w (clampI lo hi i), sat := decide (i < lo) || decide (hi < i) }

/-- To a floating-point format that saturates at its largest finite magnitude (R334). -/
def toFp (f : FpForm) (largest nan : Nat) (v : Flt) : Conv :=
  match v with
  | .nan => { bits := nan }
  | .inf neg => { bits := b2n neg * 2 ^ (f.mant + f.exp) + largest, sat := true }
  | .fin neg m e =>
    let g := fpMag f m e
    { bits := b2n neg * 2 ^ (f.mant + f.exp) + min g largest, sat := decide (largest < g) }

def toFp16 (v : Flt) : Conv := toFp formFp16 0x7BFF 0x7E00 v
def toBf16 (v : Flt) : Conv := toFp formBf16 0x7F7F 0x7FC0 v
def toE5m2 (v : Flt) : Conv := toFp formE5m2 0x7B 0x7E v
def toE4m3 (v : Flt) : Conv := toFp formE4m3 0x7E 0x7F v

/-- To FP32: an infinity or a NaN counts as an exception (R334). -/
def toFp32 (v : Flt) : Conv :=
  let b := fp32Of v
  { bits := b, exc := (val32 b).odd }

end Sys2Proof.Machine
end

