-- ==== Sys2Proof/Machine/Raster.lean ====
section
/-! DEFINITION. The raster ports (spec/11): the frame cycle, commits, the storage of lines, completion and alignment. -/

namespace Sys2Proof.Machine

/-! ### Forms -/

/-- Register `off` of virtual channel `k`'s page. -/
def vcReg (h k off : Nat) : Nat := hp h (0x70100 + 0x80 * k + off)

/-- The hamper that receives port `p` (R264). -/
def Card.portHamper (c : Card) (p : Nat) : Option Nat := hampers.find? (fun h => c.portOf h == some p)

/-- The receiver of port `p` runs, for the hamper that owns it: the card is live, a daughterboard is seated (R27) and
ENABLE reads 1. -/
def Card.receiver (c : Card) (p : Nat) : Option Nat :=
  match c.portHamper p with
  | some h => if c.live && c.bit (mg 0x0028) 1 && c.bit (hp h 0x70000) 31 then some h else none
  | none => none

/-- An event bit of the port (R276). -/
def Card.rpEvent (c : Card) (h b : Nat) : Card := c.hpEvent h 0x70018 b 21

/-- The flag bits of a frame descriptor (R277). -/
abbrev fNoBuffer : Nat := 0
abbrev fTruncated : Nat := 1
abbrev fShortLine : Nat := 2
abbrev fLongLine : Nat := 3
abbrev fExtraLines : Nat := 4
abbrev fCrcErr : Nat := 5
abbrev fHdrErr : Nat := 6
abbrev fDtMismatch : Nat := 7
abbrev fOverflow : Nat := 8
abbrev fNoFe : Nat := 9
abbrev fWriteFault : Nat := 10
abbrev fAlignDup : Nat := 11
abbrev fAlignGap : Nat := 12
abbrev fAlignOff : Nat := 13

/-- A frame with a flag set. -/
def RpFrame.flag (f : RpFrame) (b : Nat) : RpFrame := { f with flags := f.flags ||| 2 ^ b }

/-- The accepted data types (R265). -/
def dtOk (dt : Nat) : Bool := dt == 0x2B || dt == 0x2C || dt == 0x1E || dt == 0x1F || dt == 0x24

/-- The bytes of a stored sample (R267). -/
def dtBytes (dt : Nat) : Nat := if dt = 0x1E ∨ dt = 0x24 then 1 else 2

/-- The data type is a YUV422 one. -/
def dtYuv (dt : Nat) : Bool := dt == 0x1E || dt == 0x1F

/-- The planes of a data type (R267). -/
def dtPlanes (dt : Nat) : Nat := if dt = 0x2B ∨ dt = 0x2C then 1 else 3

/-- The mid-scale value of padding (R267). -/
def dtMid (dt : Nat) : Nat := if dt = 0x2C then 0x800 else if dtBytes dt = 2 then 0x200 else 0x80

/-- Samples of four in five bytes: the high eight bits of each, then the low two bits together (PRESUMED, CSI-2's packing of
10-bit data; assumption log entry 19). -/
def unpack10 : Nat → List Byte → List Nat
  | 0, _ => []
  | fuel + 1, bs =>
    if bs.length < 5 then []
    else (List.range 4).map (fun i => leAt bs i 1 * 4 + nbits (leAt bs 4 1) (2 * i + 1) (2 * i)) ++ unpack10 fuel (bs.drop 5)

/-- Samples of two in three bytes (PRESUMED, as above). -/
def unpack12 : Nat → List Byte → List Nat
  | 0, _ => []
  | fuel + 1, bs =>
    if bs.length < 3 then []
    else [leAt bs 0 1 * 16 + leAt bs 2 1 % 16, leAt bs 1 1 * 16 + leAt bs 2 1 / 16] ++ unpack12 fuel (bs.drop 3)

/-- Every `n`-th sample from the `k`-th on. -/
def strided (n k : Nat) (l : List Nat) : List Nat := (List.range (l.length / n)).map (fun i => l.getD (n * i + k) 0)

/-- A payload's planes, each a list of samples (R267). YUV422 arrives as Cb, Y, Cr, Y; RGB888 as B, G, R (PRESUMED). -/
def dtSplit (dt : Nat) (bs : List Byte) : List (List Nat) :=
  let n := bs.length
  let raw := if dt = 0x2B ∨ dt = 0x1F then unpack10 n bs else if dt = 0x2C then unpack12 n bs else bs.map BitVec.toNat
  if dtYuv dt then
    [(List.range (raw.length / 4)).flatMap (fun i => [raw.getD (4 * i + 1) 0, raw.getD (4 * i + 3) 0]), strided 4 0 raw, strided 4 2 raw]
  else if dt = 0x24 then [strided 3 2 raw, strided 3 1 raw, strided 3 0 raw]
  else [raw]

/-- What a virtual channel's registers say. -/
structure VcCfg where
  dt : Nat
  log2 : Nat
  ctx : Nat
  height : Nat
  width : Nat
  pitch : Nat
  plane : Nat
  desc : Nat
deriving DecidableEq, Repr

/-- The configuration of virtual channel `k`. -/
def Card.vcCfg (c : Card) (h k : Nat) : VcCfg :=
  { dt := c.f (vcReg h k 0) 29 24, log2 := c.f (vcReg h k 0) 19 16, ctx := c.f (vcReg h k 0) 11 0,
    height := c.f (vcReg h k 4) 31 16, width := c.f (vcReg h k 4) 15 0, pitch := c.f (vcReg h k 8) 15 0,
    plane := c.f (vcReg h k 0xC) 15 0 * 65536, desc := c.pair (vcReg h k 0x1C) (vcReg h k 0x20) }

/-- A plane's address, row bytes and samples in a row. -/
def VcCfg.planeOf (g : VcCfg) (addr i : Nat) : Nat × Nat × Nat :=
  (addr + i * g.plane, if dtYuv g.dt ∧ i ≠ 0 then g.pitch / 2 else g.pitch, if dtYuv g.dt ∧ i ≠ 0 then g.width / 2 else g.width)

/-- Every page of a frame buffer is a plain writable CARD leaf in a PICTURE region, and the descriptor array lies in one
that is not (R268). -/
def Card.bufferOk (c : Card) (h : Nat) (g : VcCfg) (addr : Nat) : Bool :=
  addr % 65536 == 0 &&
  ((List.range (dtPlanes g.dt)).flatMap (fun i => pagesOf (g.planeOf addr i).1 ((g.planeOf addr i).2.1 * g.height))).all (fun p =>
    match c.pageCheck h g.ctx p true with
    | .ok v => !v.outside && v.picture && !v.leaf.sparse
    | .error _ => false) &&
  (pagesOf g.desc (64 * 2 ^ g.log2)).all (fun p => match c.pageCheck h g.ctx p true with
    | .ok v => !v.outside && !v.picture
    | .error _ => false)

/-! ### Writing -/

/-- A frame of virtual channel `k`, by its number, takes a flag. -/
def Card.flagNo (c : Card) (h k no b : Nat) : Card :=
  let v := c.vc h k
  let on := fun (f : RpFrame) => if f.no = no then f.flag b else f
  c.setVc h k { v with cur := v.cur.map on, done := v.done.map on }

/-- Captured bytes written under the channel's context; a write that meets a fault is dropped, counted (R148) and flags the
frame. -/
def Card.rpPut (c : Card) (h k no ctx va : Nat) (bs : List Byte) : Card :=
  let w := c.vwrite h ctx 0 none va bs
  match w.fault with
  | some f => (w.card.xlFault h 0 ctx f).flagNo h k no fWriteFault
  | none => w.card

/-- The channels that a range of addresses lies on, as a mask (R180). -/
def Card.chansOf (c : Card) (h ctx va n : Nat) : Nat :=
  (c.spansOf h ctx va n).foldl (fun a x => (List.range ((x.2.1 + x.2.2 - 1) / 4096 - x.2.1 / 4096 + 1)).foldl (fun a i =>
    a ||| 2 ^ (x.1.chanAddr ((x.2.1 / 4096 + i) * 4096)).1) a) 0

/-- The bytes in the port's write buffer. -/
def Card.rpFill (c : Card) (h : Nat) : Nat := ((tabGet [] c.rpBuf h).map (fun w => w.bytes)).sum

/-- The port's write buffer, set: its panic follows its fill (R180). -/
def Card.setRpBuf (c : Card) (h : Nat) (l : List RpWrite) : Card :=
  let fill := (l.map (fun w => w.bytes)).sum
  let p := urged (tabGet false c.rpPanic h) fill 262144 (c.f (mg 0x800C) 7 4) (c.f (mg 0x800C) 3 0)
  { c with rpBuf := tabPut [] c.rpBuf h l, rpPanic := tabPut false c.rpPanic h p }

/-- Bytes gone from the oldest writes of a buffer; one that a migration holds stays, and all behind it. -/
def drained : Nat → List RpWrite → List RpWrite
  | _, [] => []
  | n, w :: t => if !w.data.isEmpty then w :: t else if n < w.bytes then { w with bytes := w.bytes - n } :: t else drained (n - w.bytes) t

/-- The writes that a migration held go to memory, oldest first, as far as it lets them. -/
def Card.rpRelease (h : Nat) : List RpWrite → Card → Card × List RpWrite
  | [], c => (c, [])
  | w :: t, c =>
    if w.data.isEmpty then let x := Card.rpRelease h t c; (x.1, w :: x.2)
    else if c.heldVa h w.ctx true w.va w.data.length then (c, w :: t)
    else let x := Card.rpRelease h t (c.rpPut h w.vc w.no w.ctx w.va w.data); (x.1, { w with data := [] } :: x.2)

/-- The port's write buffer drains by `n` bytes. -/
def Card.rpDrain (c : Card) (h n : Nat) : Card :=
  let x := Card.rpRelease h (tabGet [] c.rpBuf h) c
  x.1.setRpBuf h (drained n x.2)

/-- A captured piece of a frame: written, its bytes standing in the buffer until it drains; or, where a migration holds it or
an earlier one, kept there (R193, R274). A migration apart, memory takes the bytes as they arrive
(DESIGN CHOICE, assumption log entry 137). -/
def Card.rpWrite (c : Card) (h k no ctx va bytes : Nat) (bs : List Byte) : Card :=
  let l := tabGet [] c.rpBuf h
  let w : RpWrite := { vc := k, no := no, bytes := bytes, chans := c.chansOf h ctx va bs.length, ctx := ctx, va := va, data := [] }
  if bs.isEmpty then c
  else if c.heldVa h ctx true va bs.length || l.any (fun x => !x.data.isEmpty) then c.setRpBuf h (l ++ [{ w with data := bs }])
  else
    let c := c.rpPut h k no ctx va bs
    if bytes = 0 then c else c.setRpBuf h (l ++ [w])

/-- Samples in their stored form. -/
def sampleBytes (dt : Nat) (l : List Nat) : List Byte := l.flatMap (fun v => leBytes (dtBytes dt) v)

/-- A row's samples from a start on, written to each plane; `bytes` of the payload stand for them in the buffer. -/
def Card.rpRow (c : Card) (h k : Nat) (g : VcCfg) (no addr line bytes : Nat) (rows : List (Nat × List Nat)) : Card :=
  (rows.zipIdx).foldl (fun (c : Card) y =>
    let pl := g.planeOf addr y.2
    c.rpWrite h k no g.ctx (pl.1 + line * pl.2.1 + y.1.1 * dtBytes g.dt) (if y.2 = 0 then bytes else 0) (sampleBytes g.dt y.1.2)) c

/-- A row padded from given samples on with mid-scale (R267). -/
def VcCfg.padding (g : VcCfg) (from_ : Nat → Nat) : List (Nat × List Nat) :=
  (List.range (dtPlanes g.dt)).map (fun i =>
    let n := (g.planeOf 0 i).2.2
    (from_ i, List.replicate (n - from_ i) (dtMid g.dt)))

/-- The lines not received, padded (R281). -/
def Card.rpPad (c : Card) (h k : Nat) (g : VcCfg) (no addr first : Nat) : Card :=
  (List.range (g.height - first)).foldl (fun (c : Card) i => c.rpRow h k g no addr (first + i) 0 (g.padding (fun _ => 0))) c

/-! ### The latch event (R270) -/

/-- The latch event of the frame in progress, with the flags its cause gives: the frame stops, the shadows move on, and its
completion begins. A frame cut short is padded. A no-buffer frame has written no line (R271, R277). -/
def Card.latch (c : Card) (h k : Nat) (flags : List Nat) : Card :=
  let v := c.vc h k
  match v.cur with
  | none => c
  | some f =>
    if v.latched then c
    else
      let g := c.vcCfg h k
      let f := flags.foldl RpFrame.flag { f with wrote := if f.addr.isSome then min f.lines g.height else 0, tLatch := c.ns }
      let c := c.setVc h k { v with state := 4, cur := some f, latched := true, done := v.done ++ [f], upcoming := v.next,
                                    next := v.after, after := none }
      match f.addr with
      | some a => if f.lines < g.height then c.rpPad h k g f.no a f.lines else c
      | none => c

/-- The frame in progress takes a flag: before its latch event, and after it as long as its descriptor is not written
(DEDUCED, assumption log entry 32). -/
def Card.flagFrame (c : Card) (h k b : Nat) : Card :=
  match (c.vc h k).cur with
  | none => c
  | some f => c.flagNo h k f.no b

/-- The header of a packet (R282): a corrected one is counted; an uncorrectable one drops the packet. -/
def Card.rpHeader (c : Card) (h k : Nat) (hdr : PktHeader) (go : Card → Card) : Card :=
  let c := c.setVc h k { c.vc h k with lastAt := c.ns }
  match hdr with
  | .good => go c
  | .corrected => go (c.bump (hp h 0x70020) 1)
  | .bad => ((c.bump (hp h 0x70024) 1).rpEvent h 1).flagFrame h k fHdrErr

/-! ### Alignment (R273) -/

/-- ALIGN_SLOT and PHASE_NS of a Frame Start at `t`; none with P 0. -/
def Card.alignOf (c : Card) (h t : Nat) : Option (Nat × Int) :=
  let p := (c.reg (hp h 0x70010)).toNat
  if p = 0 then none
  else
    let d : Int := (t : Int) - (c.pair (hp h 0x70008) (hp h 0x7000C) : Nat)
    let slot := (d + (p / 2 : Nat)).fdiv p
    some (toBits 32 slot, d - slot * p)

/-- The alignment flags of a frame (R273). -/
def alignFlags (prev : Option Nat) (a : Option (Nat × Int)) (tol : Nat) : List Nat :=
  match a with
  | none => []
  | some (slot, ph) =>
    (match prev with | some q => (if slot = q then [fAlignDup] else if q + 1 < slot then [fAlignGap] else []) | none => []) ++
    (if tol ≠ 0 ∧ tol < ph.natAbs then [fAlignOff] else [])

/-- A frame opened at a Frame Start. The first frame after the enable takes NEXT then; a later one has the address that the
last latch event gave it (DEDUCED, assumption log entry 20). -/
def Card.openFrame (c : Card) (h k num : Nat) : Card :=
  let v := c.vc h k
  let first := v.state == 1
  let addr := if first then v.next else v.upcoming
  let al := c.alignOf h c.ns
  let f : RpFrame := { no := v.frameNo, csi := num % 65536, addr := addr, tFs := c.ns, align := al }
  let f := (alignFlags v.lastSlot al (c.reg (hp h 0x70014)).toNat).foldl RpFrame.flag (if addr.isNone then f.flag fNoBuffer else f)
  c.setVc h k { v with state := if first then 2 else v.state, cur := some f, latched := false, frameNo := wrap32 (v.frameNo + 1),
                       next := if first then v.after else v.next, after := if first then none else v.after, upcoming := none,
                       lastSlot := al.map (fun x => x.1) }

/-! ### Packets -/

/-- A packet on a virtual channel that is not enabled, or of another data type, is dropped and counted (R265, R266). -/
def Card.dtDrop (c : Card) (h : Nat) : Card := c.bump (hp h 0x7002C) 1

/-- FRAME_START (R273, R281): a frame still open latches first. -/
def execFrameStart (p vc : Fin 4) (num : Nat) (hdr : PktHeader) (s : State) : Host.Outcome State Fault Refusal :=
  s.run fun c => match c.receiver p.val with
    | none => c
    | some h => c.rpHeader h vc.val hdr fun c =>
      if (c.vc h vc.val).state = 0 then c.dtDrop h
      else
        let v := c.vc h vc.val
        let c := if v.cur.isSome && !v.latched then c.latch h vc.val [fTruncated, fNoFe] else c
        c.openFrame h vc.val num

/-- FRAME_END (R281): an early one latches the frame. -/
def execFrameEnd (p vc : Fin 4) (hdr : PktHeader) (s : State) : Host.Outcome State Fault Refusal :=
  s.run fun c => match c.receiver p.val with
    | none => c
    | some h => c.rpHeader h vc.val hdr fun c =>
      if (c.vc h vc.val).state = 0 then c.dtDrop h
      else
        let c := c.latch h vc.val [fTruncated]
        c.setVc h vc.val { c.vc h vc.val with cur := none, latched := false }

/-- LINE_MARKER (R265): a marker only; it counts nothing that a register shows but a corrected header. -/
def execLineMarker (p vc : Fin 4) (hdr : PktHeader) (s : State) : Host.Outcome State Fault Refusal :=
  s.run fun c => match c.receiver p.val with
    | none => c
    | some h => c.rpHeader h vc.val hdr fun c => if (c.vc h vc.val).state = 0 then c.dtDrop h else c

/-- One line of the frame in progress: written, padded or cut, flagged and counted (R267, R282). What finds the write buffer
full is lost (R274). -/
def Card.rpLine (c : Card) (h k : Nat) (f : RpFrame) (pk : CsiPacket) : Card :=
  let g := c.vcCfg h k
  let room := if f.addr.isSome then 262144 - c.rpFill h else pk.data.length
  let lost := pk.data.length - room
  let full := dtSplit g.dt pk.data
  let got := dtSplit g.dt (pk.data.take room)
  let n := (full.headD []).length
  let f := if n < g.width then f.flag fShortLine else if g.width < n then f.flag fLongLine else f
  let f := if pk.crcOk then f else f.flag fCrcErr
  let f := { if lost = 0 then f else f.flag fOverflow with lines := f.lines + 1 }
  let c := c.setVc h k { c.vc h k with cur := some f, state := if f.lines + 1 < g.height then 2 else 3 }
  let c := match f.addr with
    | none => c
    | some a =>
      (c.rpRow h k g f.no a (f.lines - 1) (pk.data.length - lost)
        ((List.range (dtPlanes g.dt)).map (fun i => (0, (got.getD i []).take (g.planeOf 0 i).2.2)))).rpRow h k g f.no a (f.lines - 1) 0
          (g.padding (fun i => (full.getD i []).length))
  let c := if pk.crcOk then c else (c.bump (hp h 0x70028) 1).rpEvent h 1
  let c := if lost = 0 then c else (c.bump (hp h 0x70034) lost).rpEvent h 2
  if g.height ≤ f.lines then c.latch h k [] else c

/-- LONG_PACKET (R265, R266, R270, R274, R281, R282): the port's write buffer has drained by `pk.drained` bytes since the last one. -/
def execLongPacket (p vc : Fin 4) (pk : CsiPacket) (hdr : PktHeader) (s : State) : Host.Outcome State Fault Refusal :=
  s.run fun c => match c.receiver p.val with
    | none => c
    | some h => (c.rpDrain h pk.drained).rpHeader h vc.val hdr fun c =>
      let v := c.vc h vc.val
      if v.state = 0 then c.dtDrop h
      else if pk.dt ≠ (c.vcCfg h vc.val).dt then (c.dtDrop h).flagFrame h vc.val fDtMismatch
      else match v.cur with
        | none => c.bump (hp h 0x70030) 1
        | some f =>
          if v.latched then
            let c := if (c.vcCfg h vc.val).height ≤ f.lines then c.flagFrame h vc.val fExtraLines else c
            let v := c.vc h vc.val
            c.setVc h vc.val { v with cur := v.cur.map (fun (f : RpFrame) => { f with lines := f.lines + 1 }) }
          else c.rpLine h vc.val f pk

/-- RASTER_PACKET_TIMEOUT (R281): card time reaches the end of 1 ms without a packet in a frame not yet latched. -/
def execRasterPacketTimeout (p vc : Fin 4) (s : State) : Host.Outcome State Fault Refusal :=
  s.run fun c => match c.receiver p.val with
    | none => c
    | some h =>
      let v := c.vc h vc.val
      if v.cur.isSome && !v.latched then (c.advanceTo (v.lastAt + 1000000)).latch h vc.val [fTruncated] else c

/-- A port's link falls: the frames not yet latched latch (R281). -/
def Card.linkFall (c : Card) (h : Nat) : Card := (List.range 4).foldl (fun c k => c.latch h k [fTruncated]) c

/-- HP_RP_LINK takes what the receiver sees (R276): a change of LINK is an event, and its fall ends frames. -/
def Card.setLink (c : Card) (h : Nat) (up hs : Bool) (rate : Nat) : Card :=
  let was := c.bit (hp h 0x70004) 31
  let c := c.setN (hp h 0x70004) (b2n up * 2 ^ 31 + b2n hs * 2 ^ 30 + rate % 65536)
  let c := if was = up then c else c.rpEvent h 3
  if was && !up then c.linkFall h else c

/-- RASTER_LINK_CHANGE (R281). -/
def execRasterLinkChange (p : Fin 4) (up hs : Bool) (rate : Nat) (s : State) : Host.Outcome State Fault Refusal :=
  s.run fun c => match c.receiver p.val with
    | none => c
    | some h => c.setLink h up hs rate

/-! ### Completion (R271, R277) -/

/-- A frame's descriptor. -/
def frameDesc (f : RpFrame) (k : Nat) (g : VcCfg) : List Byte :=
  leBytes 4 f.no ++ leBytes 2 f.csi ++ leBytes 1 k ++ leBytes 1 g.dt ++ leBytes 4 f.flags ++ leBytes 2 g.width ++ leBytes 2 f.wrote ++
  leBytes 8 (f.addr.getD 0) ++ leBytes 8 f.tFs ++ leBytes 8 f.tLatch ++ leBytes 4 ((f.align.map (fun x => x.1)).getD 0) ++
  leBytes 4 (toBits 32 ((f.align.map (fun x => x.2)).getD 0)) ++ leBytes 4 g.pitch ++ leBytes 4 (g.plane / 65536) ++ leBytes 8 0

/-- FRAME_WRITES_COMPLETE (R271): the write buffer holds nothing of the frame any more, unless a migration holds it (R193); the
descriptor, FRAME_SEM, ALIGN_SEM, in this order. -/
def execFrameWritesComplete (h vc : Fin 4) (s : State) : Host.Outcome State Fault Refusal :=
  s.run fun c =>
    let h := h.val
    let k := vc.val
    let v := c.vc h k
    match v.done with
    | [] => c
    | f :: _ =>
      let mine := fun (w : RpWrite) => w.vc == k && w.no == f.no
      if !c.live then c
      else
        let c := c.rpDrain h 0
        if (tabGet [] c.rpBuf h).any (fun w => mine w && !w.data.isEmpty) then c
        else
          let c := c.setRpBuf h ((tabGet [] c.rpBuf h).filter (fun w => !mine w))
          let v := c.vc h k
          let f := v.done.headD f
          let g := c.vcCfg h k
          let c := c.setVc h k { v with done := v.done.drop 1 }
          let c := c.rpPut h k f.no g.ctx (g.desc + 64 * (f.no % 2 ^ g.log2)) (frameDesc f k g)
          let c := c.bump (vcReg h k 0x28) 1
          let c := if f.addr.isNone then c.bump (vcReg h k 0x30) 1 else c
          let c := c.semApply (4096 * h + c.f (vcReg h k 0x18) 11 0) 0 (f.no + 1)
          match f.align with
          | some x => c.semApply (4096 * h + c.f (vcReg h k 0x18) 27 16) 0 (x.1 + 1)
          | none => c

/-! ### Commits (R268, R269) -/

/-- A late commit: COMMIT_LATE, counted, with vector 21
(DEDUCED, assumption log entry 33). -/
def Card.commitLate (c : Card) (h k : Nat) : Card := ((c.setBit (vcReg h k 0x24) 31 true).bump (vcReg h k 0x34) 1).raise (h + 1) 21

/-- A commit applied (R269). Address 0 is a withdrawal. -/
def Card.commit (c : Card) (h k addr : Nat) : Card :=
  let v := c.vc h k
  let a := if addr = 0 then none else some addr
  let late := v.state == 3 || v.state == 4
  let old := if v.state = 3 then v.after else v.next
  let c := if old.isSome && a.isSome then c.bump (vcReg h k 0x2C) 1 else c
  let c := if v.state = 3 then c.setVc h k { v with after := a } else c.setVc h k { v with next := a }
  if late then c.commitLate h k else c

/-- RASTER_COMMIT_WRITE (R7, R269, R276): the _HI write of HP_RP_COMMIT. -/
def execRasterCommitWrite (h vc : Fin 4) (v : Word) (s : State) : Host.Outcome State Fault Refusal :=
  s.run fun c => c.hostWrite (.pf h) (0x70114 + 0x80 * vc.val) fun c =>
    let k := vcReg h.val vc.val 0x10
    let lo := c.loFor k
    let c := ((c.setReg k lo).setReg (k + 4) v).dropHold k
    let addr := lo.toNat + 2 ^ 32 * v.toNat
    if addr = 0 ∨ c.bufferOk h.val (c.vcCfg h.val vc.val) addr then c.commit h.val vc.val addr
    else (c.bump (vcReg h.val vc.val 0x38) 1).rpEvent h.val 0

/-- The work of COMMIT (R278). -/
def commitWork : Eng Unit := do
  let o ← Eng.op
  let b := o.body
  let addr := leAt b 0 8
  let k := leAt b 8 1
  let c ← Eng.card
  let h ← Eng.hamper
  if leNat (b.drop 9) ≠ 0 then Eng.refuseFree
  Eng.check ((c.portOf h).isSome && c.bit (mg 0x0028) 1) 0xE0
  Eng.check (decide (k < 4) && c.bit (vcReg h k 0) 31 && (c.vcCfg h k).ctx == o.ctx) 0xE1
  Eng.check (addr == 0 || c.bufferOk h (c.vcCfg h k) addr) 0xE2
  Eng.upd (fun c => c.commit h k addr)

/-- MOVE_COMMIT. -/
def execMoveCommit (h : Fin 4) (r : Fin 16) (seq : Nat) (s : State) : Host.Outcome State Fault Refusal :=
  s.run fun c => c.engine h.val r.val seq 5 0x20 commitWork

/-! ### Enabling (R276) -/

/-- The checks that setting ENABLE runs (R265 to R267). Every local semaphore is ownable by the hamper (R108). -/
def VcCfg.ok (g : VcCfg) : Bool :=
  dtOk g.dt && g.pitch % (if dtYuv g.dt then 128 else 64) == 0 && decide (g.width * dtBytes g.dt ≤ g.pitch) &&
  decide (g.pitch * g.height ≤ g.plane) && (!dtYuv g.dt || g.width % 2 == 0)

/-- A virtual channel at rest: OFF, its frame abandoned, its shadows empty. -/
def Card.vcOff (c : Card) (h k : Nat) : Card := (c.setRpBuf h ((tabGet [] c.rpBuf h).filter (fun w => w.vc != k))).setVc h k {}

/-- RASTER_VC_ENABLE (R276): a write of HP_RP_VC_CFG. Fields first; then ENABLE is set if the checks pass. ENABLE written 0
turns the channel off and abandons its frame (DESIGN CHOICE, assumption log entry 21). -/
def execRasterVcEnable (h vc : Fin 4) (v : Word) (s : State) : Host.Outcome State Fault Refusal :=
  s.run fun c => c.hostWrite (.pf h) (0x70100 + 0x80 * vc.val) fun c =>
    let k := vcReg h.val vc.val 0
    let on := c.bit k 31
    let c := c.writeReg k v
    if fld v 31 31 = 0 then (if on then (c.setBit k 31 false).vcOff h.val vc.val else c)
    else if on || !(c.vcCfg h.val vc.val).ok then c
    else (c.setBit k 31 true).setVc h.val vc.val { state := 1, lastAt := c.ns }

end Sys2Proof.Machine
end

