-- ==== Sys2Proof/Machine/Shaper.lean ====
section
/-! DEFINITION. The shapers (spec/12): the pre-check of a PREPARE, sampling, filters, colour and normalisation in FP32, the
output layouts, sample order, progress and the backlog. Where the spec gives a formula and no order of its roundings, each
operation rounds in the formula's own order (DEDUCED, assumption log entry 22). -/

namespace Sys2Proof.Machine

/-! ### The command (R296, R297) -/

/-- A source-table entry. -/
structure Src where
  base : Nat
  pitch : Nat
  width : Nat
  height : Nat
  p1 : Nat
  p2 : Nat
  fmt : Nat
  matrix : Nat
  full : Bool
  ok : Bool       -- the reserved bits and bytes are zero
deriving DecidableEq, Repr

/-- A source-table entry read. -/
def readSrc (b : List Byte) : Src :=
  { base := leAt b 0 8, pitch := leAt b 8 4, width := leAt b 0xC 2, height := leAt b 0xE 2, p1 := leAt b 0x10 4, p2 := leAt b 0x14 4,
    fmt := leAt b 0x18 1, matrix := leAt b 0x19 1 % 4, full := nbit (leAt b 0x19 1) 7,
    ok := nbits (leAt b 0x19 1) 6 2 == 0 && leAt b 0x1A 6 == 0 }

/-- A sample-list entry. -/
structure Smp where
  id : Nat
  src : Nat
  aug : Nat
  bright : Int
  contrast : Nat
  x : Int
  y : Int
  w : Nat
  h : Nat
deriving DecidableEq, Repr

/-- A sample-list entry read. -/
def readSmp (b : List Byte) : Smp :=
  { id := leAt b 0 4, src := leAt b 4 1, aug := leAt b 5 1, bright := sint 8 (leAt b 6 1), contrast := leAt b 7 1,
    x := sint 16 (leAt b 8 2), y := sint 16 (leAt b 0xA 2), w := leAt b 0xC 2, h := leAt b 0xE 2 }

/-- A PREPARE: its body, the bytes of its source table and of its sample list. -/
structure Prep where
  b : List Byte
  ts : List Byte
  ls : List Byte
deriving DecidableEq, Repr

def Prep.src (p : Prep) : List Src := (List.range (leAt p.b 0x24 1)).map (fun i => readSrc (p.ts.drop (32 * i)))
def Prep.smp (p : Prep) : List Smp := (List.range (leAt p.b 0x20 4)).map (fun i => readSmp (p.ls.drop (16 * i)))

def Prep.dst (p : Prep) : Nat := leAt p.b 0x10 8
def Prep.idVa (p : Prep) : Nat := leAt p.b 0x18 8
def Prep.count (p : Prep) : Nat := leAt p.b 0x20 4
def Prep.staged (p : Prep) : Bool := leAt p.b 0x25 1 == 1
def Prep.layout (p : Prep) : Nat := leAt p.b 0x26 1
def Prep.elem (p : Prep) : Nat := leAt p.b 0x27 1
def Prep.ow (p : Prep) : Nat := leAt p.b 0x28 2
def Prep.oh (p : Prep) : Nat := leAt p.b 0x2A 2
def Prep.chans (p : Prep) : Nat := leAt p.b 0x2C 1
def Prep.filter (p : Prep) : Nat := leAt p.b 0x2D 1
def Prep.shuffle (p : Prep) : Bool := leAt p.b 0x2E 1 == 1

/-- The channel count C, the bytes of an element and those of a sample (R289). -/
def Prep.c (p : Prep) : Nat := if p.chans = 1 then 1 else 3
def Prep.e (p : Prep) : Nat := if p.elem = 0 then 1 else 2
def Prep.bytes (p : Prep) : Nat := p.ow * p.oh * (if p.layout = 2 then 32 else p.c) * p.e

/-- The body's fields lie within R296. -/
def prepInRange (b : List Byte) : Bool :=
  let f := fun (a n : Nat) => leAt b a n
  let prog := f 0x2F 1
  f 0 8 % 32 == 0 && f 8 8 % 16 == 0 && f 0x10 8 % 64 == 0 && f 0x18 8 % 4 == 0 && (f 0x2E 1 == 1 || f 0x18 8 != 0) &&
  decide (1 ≤ f 0x20 4) && decide (f 0x20 4 ≤ 4096) && decide (1 ≤ f 0x24 1) && decide (f 0x24 1 ≤ 16) && decide (f 0x25 1 ≤ 1) &&
  decide (f 0x26 1 ≤ 2) && decide (f 0x27 1 ≤ 2) && decide (1 ≤ f 0x28 2) && decide (f 0x28 2 ≤ 4096) && decide (1 ≤ f 0x2A 2) &&
  decide (f 0x2A 2 ≤ 4096) && decide (f 0x2C 1 ≤ 2) && decide (f 0x2D 1 ≤ 2) && decide (f 0x2E 1 ≤ 1) &&
  (if prog = 0xFF then f 0x3C 2 == 0 else decide (prog < 64) && decide (1 ≤ f 0x3C 2) && decide (f 0x3C 2 ≤ 4352)) &&
  f 0x3E 2 == 0 && f 0x58 8 == 0 && (f 0x2C 1 != 1 || f 0x44 8 == 0)

/-- A source entry lies within R296 and fits the CHANNELS (R285). -/
def srcInRange (chans : Nat) (s : Src) : Bool :=
  s.ok && s.base % 64 == 0 && decide (16 ≤ s.width) && decide (s.width ≤ 8192) && decide (16 ≤ s.height) && decide (s.height ≤ 8192) &&
  decide (s.fmt ≤ 8) && decide (s.matrix ≤ 2) &&
  (if s.fmt = 4 then chans != 2 else if s.fmt = 5 ∨ s.fmt = 6 ∨ s.fmt = 7 then chans == 1 else true)

/-- A sample entry lies within R297, with the form that a TENSOR source asks for (R285). -/
def smpInRange (p : Prep) (s : Smp) : Bool :=
  decide (s.src < p.src.length) && decide (s.aug < 4) && decide (1 ≤ s.contrast) && decide (1 ≤ s.w) && decide (s.w ≤ 8192) &&
  decide (1 ≤ s.h) && decide (s.h ≤ 8192) &&
  ((p.src[s.src]?).any (fun q => q.fmt != 8) ||
    (s.x == 0 && s.y == 0 && s.w == p.ow && s.h == p.oh && s.aug == 0 && s.bright == 0 && s.contrast == 128))

/-! ### Sources -/

/-- The bytes of a stored sample of a source format. -/
def Src.px (s : Src) : Nat := if s.fmt = 1 ∨ s.fmt = 3 ∨ s.fmt = 5 ∨ s.fmt = 6 then 2 else 1

/-- The planes of a source: offset from BASE_VA, pitch, width and height in samples. -/
def Src.planes (s : Src) : List (Nat × Nat × Nat × Nat) :=
  let main := (0, s.pitch, s.width, s.height)
  if s.fmt ≤ 1 then
    let g := (s.pitch / 2, (s.width + 1) / 2, (s.height + 1) / 2)
    [main, (s.p1, g), (s.p2, g)]
  else if s.fmt ≤ 3 then
    let g := (s.pitch / 2, (s.width + 1) / 2, s.height)
    [main, (s.p1, g), (s.p2, g)]
  else if s.fmt = 4 then [main, (s.p1, s.pitch, s.width, s.height), (s.p2, s.pitch, s.width, s.height)]
  else [main]

/-- The ranges of addresses that a source covers; a TENSOR's rows hold OUT_W elements of every channel. -/
def Prep.srcRanges (p : Prep) (s : Src) : List (Nat × Nat) :=
  if s.fmt = 8 then [(s.base, s.pitch * (p.oh - 1) + p.ow * p.c * p.e)]
  else s.planes.map (fun g => (s.base + g.1, g.2.1 * (g.2.2.2 - 1) + g.2.2.1 * s.px))

/-- The mid-scale value of a plane (R267). -/
def Src.mid (s : Src) : Nat := if s.fmt = 6 then 0x800 else if s.px = 2 then 0x200 else 0x80

/-- One source sample; outside its plane, and on an unbacked page, it reads mid-scale (R286). -/
def Eng.srcAt (s : Src) (plane : Nat) (x y : Int) : Eng Nat := do
  let g := s.planes.getD plane (0, 0, 0, 0)
  let va := s.base + g.1 + y.toNat * g.2.1 + x.toNat * s.px
  if x < 0 ∨ y < 0 ∨ (g.2.2.1 : Int) ≤ x ∨ (g.2.2.2 : Int) ≤ y then return s.mid
  else if (← Eng.card).greyAt (← Eng.hamper) (← Eng.op).ctx va then return s.mid
  else Eng.rdNat va s.px

/-- A luma sample, an RGB sample or a RAW sample mapped to the range 0 to 1 (R287). -/
def Src.luma (s : Src) (v : Nat) : Nat :=
  let k : Nat := if s.px = 2 then 4 else 1
  if s.fmt = 5 then div32 (int32f v) (int32f 1023)
  else if s.fmt = 6 then div32 (int32f v) (int32f 4095)
  else if s.full then div32 (int32f v) (int32f (255 * k : Nat))
  else div32 (sub32 (int32f v) (int32f (16 * k : Nat))) (int32f (219 * k : Nat))

/-- A chroma sample mapped (R287). -/
def Src.chroma (s : Src) (v : Nat) : Nat :=
  let k : Nat := if s.px = 2 then 4 else 1
  div32 (sub32 (int32f v) (int32f (128 * k : Nat))) (int32f ((if s.full then 255 else 224) * k : Nat))

/-! ### Sampling (R286, R287) -/

/-- One axis of an output position's sampling: the crop's start and length, the output length, the index, the flip, and
whether the plane has half the samples on this axis. -/
structure Axis where
  crop : Int
  len : Nat
  out : Nat
  i : Nat
  flip : Bool
  half : Bool
deriving DecidableEq, Repr

/-- The number one half. -/
abbrev half32 : Nat := 0x3F000000

/-- The position sampled, in FP32: s, or the chroma centre (s + 0.5) ÷ 2 − 0.5. -/
def Axis.pos (a : Axis) : Nat :=
  let k := div32 (mul32 (add32 (int32f a.i) half32) (int32f a.len)) (int32f a.out)
  let s := if a.flip then sub32 (sub32 (add32 (int32f a.crop) (int32f a.len)) k) half32 else sub32 (add32 (int32f a.crop) k) half32
  if a.half then sub32 (div32 (add32 s half32) (int32f 2)) half32 else s

/-- The samples of the axis whose centres lie within the footprint, first and last (R287)
(DEDUCED, assumption log entry 35). -/
def Axis.area (a : Axis) : Int × Int :=
  let i : Int := if a.flip then (a.out : Int) - 1 - a.i else a.i
  let lo : Int := a.crop * a.out + i * a.len
  let hi : Int := lo + a.len
  -- centre (j + 1/2) of a full sample, or (2 j + 1) of a half one, scaled by `out`
  let d : Int := if a.half then 2 * a.out else a.out
  let h : Int := if a.half then a.out else 0
  if a.half then ((lo - h + d - 1).fdiv d, (hi - h + d - 1).fdiv d - 1)
  else ((2 * lo - d + 2 * d - 1).fdiv (2 * d), (2 * hi - d + 2 * d - 1).fdiv (2 * d) - 1)

/-- The footprint is narrower than one sample. -/
def Axis.narrow (a : Axis) : Bool := decide (a.len < a.out * (if a.half then 2 else 1))

/-- The samples that an axis reads for one output position under a filter, first and last. -/
def Axis.reads (filter : Nat) (bil : Bool) (a : Axis) : Int × Int :=
  if filter = 0 then let n := (val32 (add32 a.pos half32)).floor; (n, n)
  else if filter = 1 ∨ bil then let n := (val32 a.pos).floor; (n, n + 1)
  else a.area

/-- One plane sampled at one output position, its samples mapped by `map`. -/
def Eng.sampleAt (s : Src) (plane filter : Nat) (map : Nat → Nat) (ax ay : Axis) : Eng Nat := do
  let bil := filter == 1 || (filter == 2 && (ax.narrow || ay.narrow))
  let rx := ax.reads filter bil
  let ry := ay.reads filter bil
  if filter = 0 then return map (← Eng.srcAt s plane rx.1 ry.1)
  else if bil then
    let fx := sub32 ax.pos (int32f rx.1)
    let fy := sub32 ay.pos (int32f ry.1)
    let one := int32f 1
    let v00 := map (← Eng.srcAt s plane rx.1 ry.1)
    let v10 := map (← Eng.srcAt s plane rx.2 ry.1)
    let v01 := map (← Eng.srcAt s plane rx.1 ry.2)
    let v11 := map (← Eng.srcAt s plane rx.2 ry.2)
    let top := add32 (mul32 v00 (sub32 one fx)) (mul32 v10 fx)
    let bot := add32 (mul32 v01 (sub32 one fx)) (mul32 v11 fx)
    return add32 (mul32 top (sub32 one fy)) (mul32 bot fy)
  else
    let xs := intRange rx.1 rx.2
    let ys := intRange ry.1 ry.2
    let vs ← (ys.flatMap (fun y => xs.map (fun x => (x, y)))).mapM (fun p => Eng.srcAt s plane p.1 p.2)
    return div32 ((vs.map map).foldl add32 0) (int32f vs.length)

/-- KR and KB of a MATRIX, in ten-thousandths (PRESUMED, the coefficients of BT.601, BT.709 and BT.2020 that R287 names; assumption
log entry 145). -/
def matrixK (m : Nat) : Int × Int := if m = 0 then (2990, 1140) else if m = 1 then (2126, 722) else (2627, 593)

/-- YCbCr to RGB. -/
def toRgb (m y cb cr : Nat) : List Nat :=
  let k := matrixK m
  let kg := 10000 - k.1 - k.2
  let r := add32 y (mul32 (frac32 (2 * (10000 - k.1)) 10000) cr)
  let b := add32 y (mul32 (frac32 (2 * (10000 - k.2)) 10000) cb)
  let g := sub32 (sub32 y (mul32 (frac32 (2 * k.2 * (10000 - k.2)) (10000 * kg).toNat) cb))
    (mul32 (frac32 (2 * k.1 * (10000 - k.1)) (10000 * kg).toNat) cr)
  [r, g, b]

/-- RGB to Y. -/
def toY (m r g b : Nat) : Nat :=
  let k := matrixK m
  add32 (add32 (mul32 (frac32 k.1 10000) r) (mul32 (frac32 (10000 - k.1 - k.2) 10000) g)) (mul32 (frac32 k.2 10000) b)

/-- The channel values of one output position (R285, R287). -/
def Eng.pixel (p : Prep) (s : Src) (q : Smp) (x y : Nat) : Eng (List Nat) := do
  let ax : Axis := { crop := q.x, len := q.w, out := p.ow, i := x, flip := nbit q.aug 0, half := false }
  let ay : Axis := { crop := q.y, len := q.h, out := p.oh, i := y, flip := nbit q.aug 1, half := false }
  let one := fun (plane : Nat) => Eng.sampleAt s plane p.filter s.luma ax ay
  if s.fmt ≤ 3 then
    let l ← one 0
    if p.chans = 1 then return [l]
    else
      let cx := { ax with half := true }
      let cy := { ay with half := decide (s.fmt ≤ 1) }
      let cb ← Eng.sampleAt s 1 p.filter s.chroma cx cy
      let cr ← Eng.sampleAt s 2 p.filter s.chroma cx cy
      return if p.chans = 2 then [l, cb, cr] else toRgb s.matrix l cb cr
  else if s.fmt = 4 then
    let r ← one 0
    let g ← one 1
    let b ← one 2
    return if p.chans = 1 then [toY s.matrix r g b] else [r, g, b]
  else return [← one 0]

/-- A sample reads outside a plane of its source (R286). -/
def Prep.pads (p : Prep) (s : Src) (q : Smp) : Bool :=
  s.fmt != 8 && (List.range p.oh).any (fun y => (List.range p.ow).any (fun x =>
    let ax : Axis := { crop := q.x, len := q.w, out := p.ow, i := x, flip := nbit q.aug 0, half := false }
    let ay : Axis := { crop := q.y, len := q.h, out := p.oh, i := y, flip := nbit q.aug 1, half := false }
    let outp := fun (plane : Nat) (ax ay : Axis) =>
      let g := s.planes.getD plane (0, 0, 0, 0)
      let bil := p.filter == 1 || (p.filter == 2 && (ax.narrow || ay.narrow))
      let rx := ax.reads p.filter bil
      let ry := ay.reads p.filter bil
      decide (rx.1 < 0) || decide ((g.2.2.1 : Int) ≤ rx.2) || decide (ry.1 < 0) || decide ((g.2.2.2 : Int) ≤ ry.2)
    outp 0 ax ay || (decide (s.fmt ≤ 3) && p.chans != 1 && outp 1 { ax with half := true } { ay with half := decide (s.fmt ≤ 1) })))

/-- A channel value augmented, normalised and converted (R288): the element's number. -/
def Prep.finish (p : Prep) (q : Smp) (c v : Nat) : Nat :=
  let t := add32 (div32 (mul32 v (int32f q.contrast)) (int32f 128)) (div32 (int32f q.bright) (int32f 256))
  let t := mul32 (sub32 t (leAt p.b (0x40 + 4 * c) 4)) (leAt p.b (0x4C + 4 * c) 4)
  if isNan32 t then 0
  else if p.elem = 0 then (toInt 8 (val32 t)).bits else if p.elem = 1 then (toFp16 (val32 t)).bits else (toBf16 (val32 t)).bits

/-- The elements of one output position. -/
def Eng.elems (p : Prep) (s : Src) (q : Smp) (x y : Nat) : Eng (List Nat) := do
  if s.fmt = 8 then
    let bs ← Eng.rd (s.base + y * s.pitch + x * p.c * p.e) (p.c * p.e)
    return (List.range p.c).map (fun c => leAt bs (c * p.e) p.e)
  else
    let vs ← Eng.pixel p s q x y
    return vs.zipIdx.map (fun v => p.finish q v.2 v.1)

/-- A sample's bytes in its layout (R289), from the elements of each position in raster order. -/
def Prep.laidOut (p : Prep) (px : List (List Nat)) : List Byte :=
  let el := fun (v : Nat) => leBytes p.e v
  if p.layout = 0 then (List.range p.c).flatMap (fun c => px.flatMap (fun v => el (v.getD c 0)))
  else if p.layout = 1 then px.flatMap (fun v => v.flatMap el)
  else px.flatMap (fun v => (List.range 32).flatMap (fun c => el (v.getD c 0)))

/-! ### Sample order (R291, R292) -/

/-- The mixing function of R292. -/
def mix64 (z : Nat) : Nat :=
  let m := 2 ^ 64
  let z := (z + 0x9E3779B97F4A7C15) % m
  let z := ((z ^^^ (z >>> 30)) * 0xBF58476D1CE4E5B9) % m
  let z := ((z ^^^ (z >>> 27)) * 0x94D049BB133111EB) % m
  z ^^^ (z >>> 31)

/-- Two places of a list exchanged. -/
def swapAt (l : List Nat) (i j : Nat) : List Nat := (l.set i (l.getD j 0)).set j (l.getD i 0)

/-- The permutation of R292. -/
def permOf (seed epoch : Nat) : Nat → List Nat → List Nat
  | 0, l => l
  | k + 1, l =>
    permOf seed epoch k (swapAt l (k + 1) (mix64 (seed ^^^ (epoch * 2 ^ 32 % 2 ^ 64) ^^^ (k + 1)) % (k + 2)))

/-- The list index of the sample at each position: the permutation, or the order of completion, which the command brings
(R291: "The order can differ between runs"); an order that is no permutation counts as list order. -/
def Prep.order (p : Prep) (done : List Nat) : List Nat :=
  let n := p.count
  if p.shuffle then permOf (leAt p.b 0x30 8) (leAt p.b 0x38 4) (n - 1) (List.range n)
  else if (List.range n).all (fun i => done.contains i) ∧ done.length = n then done else List.range n

/-! ### The pre-check (R298) -/

/-- The picture that a PREPARE waits on (R293), by decode number: the one in decode, from when there is one. -/
def Card.progNo (c : Card) (h : Nat) (o : Op) : Option Nat :=
  o.prog.or (((c.stream h (leAt o.body 0x2F 1)).bind (fun t => t.pics.find? (fun p => p.decoding))).map (fun p => p.decodeNo))

/-- That picture, while its slot is not reused. -/
def Card.progPic (c : Card) (h : Nat) (o : Op) : Option Pic :=
  (c.progNo h o).bind (fun n => (c.stream h (leAt o.body 0x2F 1)).bind (fun t => t.pics.find? (fun p => p.decodeNo == n)))

/-- The progress asked for has been reached, or the picture is complete (R293). -/
def Card.progressed (c : Card) (h : Nat) (o : Op) : Bool :=
  (c.progNo h o).isSome && (c.progPic h o).all (fun p => !p.decoding || decide (leAt o.body 0x3C 2 ≤ p.rows))

/-- A PREPARE that waits: it holds no shaper and has not started; it carries the epoch of the picture it waits for (R293)
(DESIGN CHOICE, assumption log entry 34). -/
def Card.progHold (c : Card) (h r : Nat) (o : Op) : Card :=
  let e := ((c.progPic h o).map (fun p => p.epoch)).getD 0
  c.setOp h r { o with held := true, waited := o.waited + (c.ns - o.at_), prog := c.progNo h o, suspect := o.suspect || c.opSuspect h o,
                       epoch := if c.unsettled h e then some e else o.epoch }

/-- The checks of a PREPARE in order, and what it works on. -/
def prepCheck : Eng Prep := do
  let b := (← Eng.op).body
  Eng.check (prepInRange b) 0xF0
  let n := leAt b 0x20 4
  let k := leAt b 0x24 1
  let _ ← Eng.precheck (leAt b 0 8) (32 * k) false
  let _ ← Eng.precheck (leAt b 8 8) (16 * n) false
  Eng.want (leAt b 0 8) (32 * k)
  Eng.want (leAt b 8 8) (16 * n)
  let ts ← Eng.rd (leAt b 0 8) (32 * k)
  let ls ← Eng.rd (leAt b 8 8) (16 * n)
  let p : Prep := { b := b, ts := ts, ls := ls }
  Eng.check (p.src.all (srcInRange p.chans) && p.smp.all (smpInRange p)) 0xF0
  let pages ← (p.src.flatMap p.srcRanges).mapM (fun g => Eng.precheck g.1 g.2 false)
  if pages.flatten.any PageView.remote then Eng.refuse 0x94
  let dst ← if p.staged then pure [] else Eng.precheck p.dst (n * p.bytes) true
  let idt ← if p.idVa = 0 then pure [] else Eng.precheck p.idVa (4 * n) true
  if (dst ++ idt).any PageView.remote then Eng.refuse 0x94
  if pages.flatten.any (fun v => v.picture) && !p.staged && !dst.all (fun v => v.picture) then Eng.refuse 0xF1
  let c ← Eng.card
  let h ← Eng.hamper
  let o ← Eng.op
  Eng.check (!p.staged || decide (p.dst + n * p.bytes ≤ (c.staging h).2)) 0xF2
  if leAt b 0x2F 1 ≠ 0xFF then
    Eng.check ((c.stream h (leAt b 0x2F 1)).any (fun t => t.mode == 1 && t.ctx == o.ctx && !t.closing)) 0xF3
  Eng.wants (p.src.flatMap p.srcRanges)
  return p

/-! ### The work -/

/-- One sample made and written at its position, with its identifier. -/
def sampleWork (p : Prep) (pos idx : Nat) : Eng Unit := do
  match p.smp[idx]? with
  | none => pure ()
  | some q =>
    match p.src[q.src]? with
    | none => pure ()
    | some s =>
      let px ← ((List.range p.oh).flatMap (fun y => (List.range p.ow).map (fun x => (x, y)))).mapM (fun g => Eng.elems p s q g.1 g.2)
      let bs := p.laidOut px
      if p.staged then Eng.stWr (p.dst + pos * p.bytes) bs else Eng.wr (p.dst + pos * p.bytes) bs
      if p.idVa ≠ 0 then Eng.wr (p.idVa + 4 * pos) (leBytes 4 q.id)
      let h ← Eng.hamper
      Eng.upd (fun c => (c.bump (hp h 0x80008) 1).bumpF (hp h 0x8000C) 31 0 (b2n (p.pads s q)))

/-- The batch that a running PREPARE has read: its samples stand in their order. -/
def Op.prep (o : Op) : Prep :=
  let k := 32 * leAt o.body 0x24 1
  { b := o.body, ts := o.rest.take k, ls := o.rest.drop k }

/-- The unit that takes a group's sample after unit `u` did (R284). -/
def Card.shaperAfter (c : Card) (h : Nat) (o : Op) (u : Nat) : Nat :=
  ((c.shapers h { o with unit := u + 1 }).head?).getD u

/-- The next sample of a running PREPARE: made, and written at its position (R284). `Op.passes` counts the samples written. -/
def sampleStep : Eng Unit := do
  let o ← Eng.op
  let h ← Eng.hamper
  sampleWork o.prep o.passes o.passes
  let u := ((← Eng.card).shapers h o).headD o.unit
  Eng.upd (fun c => { c with rot := tabPut 0 c.rot (16 * h + o.group) (u + 1) })
  let next := (← Eng.card).shaperAfter h o u
  Eng.updOp (fun o => { o with passes := o.passes + 1, unit := next })

/-- The work of PREPARE: checked, then held until its progress, then started under the picture's epoch. The samples are taken
in the order of their positions, which in order ANY is the order of their completion. -/
def prepareWork (done : List Nat) : Eng Unit := do
  let p ← prepCheck
  let c ← Eng.card
  let h ← Eng.hamper
  let o ← Eng.op
  if leAt p.b 0x2F 1 ≠ 0xFF then
    if !c.progressed h o then throw .hold
    match c.progPic h o with
    | some g => Eng.join g.epoch
    | none => pure ()
  Eng.updOp (fun o => { o with rest := p.ts ++ (p.order done).flatMap (fun i => (p.ls.drop (16 * i)).take 16), passes := 0 })
  throw .onward

/-- PREPARE (R284, R293, R298): it is checked and starts; its samples follow one by one. -/
def execPrepare (h : Fin 4) (r : Fin 16) (seq : Nat) (order : List Nat) (s : State) : Host.Outcome State Fault Refusal :=
  s.run fun c =>
    match c.opOf h.val r.val seq with
    | none => c
    | some o =>
      let c' := c.engine h.val r.val seq 2 0x01 (if o.started then throw .stay else prepareWork order)
      if (c'.opOf h.val r.val seq).any (fun x => x.cls == 2 && x.held && !o.held) then c.progHold h.val r.val o else c'

/-- PREPARE_PROGRESS_RELEASE (R293): the wait is over; where the context has closed meanwhile, the operation is
cancelled. -/
def execPrepareProgressRelease (h : Fin 4) (r : Fin 16) (seq : Nat) (order : List Nat) (s : State) : Host.Outcome State Fault Refusal :=
  s.run fun c => match c.opOf h.val r.val seq with
    | some o =>
      if !c.live || o.cls != 2 || !o.held || o.phase != .running then c
      else if (c.stream h.val (leAt o.body 0x2F 1)).all (fun t => t.closing) then
        c.setOp h.val r.val ({ o with held := false }.ran stCancelled 0x22 0)
      else if !c.progressed h.val o then c
      else (c.setOp h.val r.val { o with held := false, at_ := c.ns, prog := c.progNo h.val o }).engine h.val r.val seq 2 0x01 (prepareWork order)
    | none => c

/-! ### Backlog (R295) -/

/-- The estimate of some samples in thirds of a nanosecond: for each the larger of its read and output times, and 0.4 us. -/
def estimateOf (b : List Byte) (l : List Smp) : Nat :=
  let out := leAt b 0x28 2 * leAt b 0x2A 2 * (if leAt b 0x2C 1 = 1 then 1 else 3)
  (l.map (fun q => max (4 * q.w * q.h) (3 * out) + 1200)).sum

/-- The estimate that a PREPARE carries, for every sample not yet written. One that its checks refuse adds nothing (R299); while
what they read has not come, the figure is free (DESIGN CHOICE, assumption log entry 141). -/
def Card.estimate (c : Card) (h r : Nat) (o : Op) : Nat :=
  if o.started then estimateOf o.body (o.prep.smp.drop o.passes)
  else match ((prepCheck.run).run { card := c, op := o, h := h, r := r }).1 with
    | .ok p => estimateOf o.body p.smp
    | .error (.need _) => Config.freePick c.fresh o.order
    | .error .stay => Config.freePick c.fresh o.order
    | .error _ => 0

/-- A group's backlog in us: its sum divided by its enabled, unfenced shapers, rounded up
(DEDUCED, assumption log entry 36). -/
def Card.groupBacklog (c : Card) (h gi : Nat) (g : Group) : Nat :=
  if g.cls ≠ 2 then 0
  else
    let ops := (c.allOps h).filter (fun x => x.2.cls == 2 && x.2.group == gi && x.2.phase == .running)
    let n := (g.unitList.filter (fun u => c.unitEnabled h 2 u && !c.fenced h 2 u)).length
    let t := (ops.map (fun x => c.estimate h x.1 x.2)).sum
    if t = 0 then 0 else if n = 0 then 65535 else ceilDiv t (3000 * n)

/-- BACKLOG_REFRESH (R295, R305): the figures, and HIGH against THRESH_US; held while frozen. -/
def execBacklogRefresh (h : Fin 4) (s : State) : Host.Outcome State Fault Refusal :=
  s.run fun c =>
    let h := h.val
    match c.lay h with
    | none => c
    | some l =>
      if !c.live then c
      else
        let us := (List.range 16).map (fun i => match l.groups[i]? with | some g => min 65535 (c.groupBacklog h i g) | none => 0)
        let c := us.zipIdx.foldl (fun (c : Card) x => c.setN (hp h (0x80100 + 4 * x.2)) x.1) c
        let top := us.foldl max 0
        let c := (c.setF (hp h 0x80000) 15 0 top).draw
        let th := c.f (hp h 0x80010) 15 0
        if th = 0 then c.setBit (hp h 0x80010) 31 false
        else if th ≤ top then c.setBit (hp h 0x80010) 31 true
        else if 2 * top ≤ th then c.setBit (hp h 0x80010) 31 false
        else c

end Sys2Proof.Machine
end

