-- ==== Sys2Proof/Machine/Griddle.lean ====
section
/-! DEFINITION. The griddles (spec/13): the RUN command and its passes, the formats and their sums, weight changes, and
preemption at pass boundaries. A RUN starts with its first pass's weights; each end of a pass writes its tile and begins
the next. -/

namespace Sys2Proof.Machine

/-! ### Formats (R309, R310) -/

/-- The bytes of a staged element. -/
def fmtBytes (f : Nat) : Nat := if f = 4 ∨ f = 5 then 2 else 1

/-- The format is a floating-point one. -/
def fmtFloat (f : Nat) : Bool := decide (2 ≤ f)

/-- The pairing is one of R309. -/
def pairOk (a w : Nat) : Bool :=
  decide (a ≤ 5) && decide (w ≤ 5) && (a == w || ((a == 2 || a == 3) && (w == 2 || w == 3)))

/-- The integers that a byte of an integer format holds: one, or two in order of K. -/
def intLanes (f v : Nat) : List Int := if f = 1 then [sint 4 (v % 16), sint 4 (v / 16)] else [sint 8 v]

/-- The value of a floating-point element. -/
def fltLane (f v : Nat) : Flt :=
  fpDecode (if f = 2 then formE4m3 else if f = 3 then formE5m2 else if f = 4 then formBf16 else formFp16) v

/-- The exact integer sum of the lanes. -/
def intDot (f : Nat) (l : List (Nat × Nat)) : Int :=
  (l.map (fun x => (((intLanes f x.1).zip (intLanes f x.2)).map (fun p => p.1 * p.2)).sum)).sum

/-- The floating-point sum of the lanes in order, rounded to FP32 at each cell. -/
def fltDot (fa fw : Nat) (l : List (Nat × Nat)) : Nat :=
  l.foldl (fun acc x => fp32Of ((val32 acc).add ((fltLane fa x.1).mul (fltLane fw x.2)))) 0

/-- One element of a tile: what is written, whether it saturated, whether it is an exception (R310). `old` is the tile's
value, for ADD. -/
def tileElem (fa fw : Nat) (add : Bool) (old : Nat) (l : List (Nat × Nat)) : Conv :=
  if fmtFloat fa then
    let s := fltDot fa fw l
    toFp32 (val32 (if add then add32 s old else s))
  else
    let s := intDot fa l + (if add then sint 32 old else 0)
    let k := clampI (-(2 ^ 31)) (2 ^ 31 - 1) s
    { bits := toBits 32 k, sat := decide (k ≠ s) }

/-! ### Descriptors (R319, R320) -/

/-- A pass descriptor. -/
structure Pass where
  act : Nat
  wgt : Nat
  out : Nat
  pitch : Nat
  m : Nat
  outW : Nat
  wchg : Nat
  acc : Nat
  ok : Bool    -- the reserved bytes are zero
deriving DecidableEq, Repr

/-- A pass descriptor read. -/
def readPass (b : List Byte) : Pass :=
  { act := leAt b 0 4, wgt := leAt b 4 4, out := leAt b 8 4, pitch := leAt b 0xC 4, m := leAt b 0x10 2, outW := leAt b 0x12 2,
    wchg := leAt b 0x14 1, acc := leAt b 0x15 1, ok := leAt b 0x16 10 == 0 }

/-- The pass runs on the active set. -/
def Pass.keep (p : Pass) : Bool := p.wgt == 0xFFFFFFFF

/-- The formats and TRANSPOSE of a RUN body. -/
def runA (b : List Byte) : Nat := leAt b 0xA 1
def runW (b : List Byte) : Nat := leAt b 0xB 1
def runT (b : List Byte) : Bool := nbit (leAt b 0xC 1) 0

/-- The body's fields lie within R319 and pair under R309. -/
def runInRange (b : List Byte) : Bool :=
  leAt b 0 8 % 32 == 0 && decide (1 ≤ leAt b 8 2) && pairOk (runA b) (runW b) && decide (leAt b 0xC 1 < 2) && leAt b 0xD 3 == 0 &&
  !(runT b && runA b == 1)

/-- The lanes of an activation block: R_A, or C_A for a transposed pass (R311). -/
def runLanes (b : List Byte) (g : Nat × Nat) : Nat := if runT b then g.2 else g.1

/-- A descriptor's fields lie within R320. -/
def passInRange (b : List Byte) (g : Nat × Nat) (first : Bool) (p : Pass) : Bool :=
  p.ok && p.act % 64 == 0 && (p.keep || p.wgt % 64 == 0) && p.out % 64 == 0 && p.pitch % 4 == 0 && decide (4 * p.outW ≤ p.pitch) &&
  decide (1 ≤ p.m) && decide (p.m ≤ 4096) && decide (1 ≤ p.outW) && decide (p.outW ≤ (if runT b then g.1 else g.2)) &&
  decide (p.wchg ≤ 1) && (!p.keep || p.wchg == 0) && decide (p.acc ≤ 1) && !(first && p.keep)

/-- A pass's blocks and tile lie in the staging. -/
def passFits (b : List Byte) (g : Nat × Nat) (size : Nat) (p : Pass) : Bool :=
  let l := runLanes b g
  decide (p.act + (p.m + l - 1) * l * fmtBytes (runA b) ≤ size) && (p.keep || decide (p.wgt + g.1 * g.2 * fmtBytes (runW b) ≤ size)) &&
  decide (p.out + (p.m - 1) * p.pitch + 4 * p.outW ≤ size)

/-- Descriptor `i` of a RUN, fetched and checked (R321): a bad first one refuses the RUN, a bad later one fails it; so does one
that does not lie in card memory (R319). A fault in reading it fails the RUN, which is no mover (R148). -/
def Eng.passAt (i : Nat) : Eng (List Byte) := do
  let o ← Eng.op
  let b := o.body
  let va := leAt b 0 8 + 32 * i
  let c ← Eng.card
  let h ← Eng.hamper
  let bad := fun (d : Nat) => (if i = 0 then Eng.refuse d else Eng.failInput d : Eng Unit)
  if c.heldVa h o.ctx false va 32 then throw .stay
  match c.translate h o.ctx va with
  | .ok l => match l.to_ with
    | .card .. => pure ()
    | .host _ => bad 0xF4
    | .remote .. => bad 0x94
  | .error _ => pure ()
  let bs ← Eng.rd va 32
  if !passInRange b (c.grGeometry h) (i == 0) (readPass bs) then bad 0xF4
  if !passFits b (c.grGeometry h) (c.staging h).2 (readPass bs) then bad 0xF5
  return bs

/-! ### A pass -/

/-- The pass before whose write a line of staging is read; none for the line as it is now. Which of the passes that wrote it is
free (R326). -/
def Card.lineVersion (c : Card) (t : List Undo) (line : Nat) : Option Nat :=
  let ps := ((t.filter (fun u => u.key % 2 ^ 32 / 64 == line)).map (fun u => u.key / 2 ^ 32)).eraseDups
  ps[Config.freePick c.fresh line % (ps.length + 1)]?

/-- A byte of staging as it stood before a pass wrote it. -/
def byteBefore (t : List Undo) (off now : Nat) (v : Option Nat) : Nat :=
  match v with
  | none => now
  | some p => (((t.filter (fun u => u.key % 2 ^ 32 == off && decide (p ≤ u.key / 2 ^ 32))).getLast?).map (fun u => u.old.toNat)).getD now

/-- A pass reads a block of staging; each line that earlier passes of the RUN have written reads as it was before one of these
writes, or after them (R326). -/
def Eng.blockRd (off n : Nat) : Eng (List Byte) := do
  let bs ← Eng.stRd off n
  let c ← Eng.card
  let t := (← Eng.op).tile
  if t.isEmpty then return bs
  Eng.upd Card.draw
  return bs.zipIdx.map (fun x => BitVec.ofNat 8 (byteBefore t (off + x.2) x.1.toNat (c.lineVersion t ((off + x.2) / 64))))

/-- The weight block of a pass. -/
def Eng.weights (p : Pass) : Eng (List Byte) := do
  let g := (← Eng.card).grGeometry (← Eng.hamper)
  Eng.blockRd p.wgt (g.1 * g.2 * fmtBytes (runW (← Eng.op).body))

/-- A set is loaded into a unit's shadow registers; a preempted set that they hold is lost (R316 step 3). -/
def Card.loadShadow (c : Card) (h u : Nat) (w : List Byte) : Card :=
  let s := c.grSet h u
  let c := c.setGr h u { s with shadow := some w, shadowBe := false }
  if s.shadowBe then c.setBit (hp h 0x90008) 3 true else c

/-- The active and shadow sets of a unit are exchanged. -/
def Card.swapSets (c : Card) (h u : Nat) (be : Bool) : Card :=
  let s := c.grSet h u
  c.setGr h u { active := s.shadow.getD [], shadow := some s.active, shadowBe := be }

/-- A range of staging can be read now under the operation's epoch, and has no error. -/
def Card.stReady (c : Card) (h : Nat) (o : Op) (off n : Nat) : Bool :=
  !c.sramErr h ((c.staging h).1 + off) n &&
  (stLines off n).all (fun l => let e := tabGet 0 c.stTag (stLine h l); e == 0 || (c.epochOf h e).state == 2 || o.epoch == some e)

/-- The next pass's weights begin to be loaded, if it has WCHG SHADOW (R313). One whose descriptor or weights cannot be read now
is left until its turn. -/
def loadAhead (i : Nat) : Eng Unit := do
  let o ← Eng.op
  let c ← Eng.card
  let h ← Eng.hamper
  let g := c.grGeometry h
  let va := leAt o.body 0 8 + 32 * i
  if leAt o.body 8 2 ≤ i ∨ c.heldVa h o.ctx false va 32 then return ()
  match c.vread h o.ctx [] va 32 with
  | .ok bs =>
    let p := readPass bs
    if p.wchg = 1 ∧ passInRange o.body g false p ∧ passFits o.body g (c.staging h).2 p ∧
        c.stReady h o p.wgt (g.1 * g.2 * fmtBytes (runW o.body)) then
      Eng.upd (fun c => c.readDone h o.ctx va 32)
      let w ← Eng.weights p
      Eng.upd (fun c => c.loadShadow h o.unit w)
      Eng.updOp (fun o => { o with next := bs })
  | _ => pure ()

/-- Pass `i` runs: its descriptor is held, the tile of an ADD stands as found (R327), and the next pass's load begins. -/
def openPass (i : Nat) (bs : List Byte) : Eng Unit := do
  let p := readPass bs
  let c ← Eng.card
  let h ← Eng.hamper
  let tile := if p.acc = 1 then (List.range p.m).flatMap (fun m => c.sramRd h ((c.staging h).1 + p.out + m * p.pitch) (4 * p.outW)) else []
  Eng.updOp (fun o => { o with pass := bs, next := [], adds := tile, wgt := if p.keep then o.wgt else p.wgt })
  loadAhead (i + 1)

/-- Pass `i` begins, its weights brought in (R313): MOVING_FRONT leaves the shadow set alone; SHADOW exchanges the two sets
(DEDUCED, assumption log entry 38). -/
def beginPass (i : Nat) : Eng Unit := do
  let o ← Eng.op
  let h ← Eng.hamper
  let bs ← if o.next.isEmpty then Eng.passAt i else pure o.next
  let p := readPass bs
  if p.keep then pure ()
  else if p.wchg = 0 then
    let w ← Eng.weights p
    Eng.upd (fun c => c.setGr h o.unit { c.grSet h o.unit with active := w })
  else
    if o.next.isEmpty then
      let w ← Eng.weights p
      Eng.upd (fun c => c.loadShadow h o.unit w)
    Eng.upd (fun c => c.swapSets h o.unit false)
  openPass i bs

/-- The sums of one row of a pass: for each output, its lanes' elements and weights (R308, R315). -/
def rowLanes (b : List Byte) (g : Nat × Nat) (act w : List Byte) (m j : Nat) : List (Nat × Nat) :=
  let l := runLanes b g
  let ea := fmtBytes (runA b)
  let ew := fmtBytes (runW b)
  (List.range l).map (fun k =>
    (leAt act (((m + k) * l + k) * ea) ea, leAt w ((if runT b then j * g.2 + k else k * g.2 + j) * ew) ew))

/-- The bytes that pass `i` overwrites, remembered. -/
def noteTile (t : List Undo) (i off : Nat) (old : List Byte) : List Undo :=
  old.zipIdx.map (fun x => ⟨i * 2 ^ 32 + (off + x.2), x.1⟩) ++ t

/-- The tile's bytes that an ADD adds to: where another RUN has changed a line since the pass began, the line then or the line now
is read, which is free, so that one contribution only may stand (R327). -/
def Card.addsTo (c : Card) (off : Nat) (found now : List Byte) : List Byte :=
  now.zipIdx.map (fun x =>
    let was := found.getD x.2 x.1
    if was = x.1 then x.1 else if Config.freeChoice c.fresh ((off + x.2) / 64) then was else x.1)

/-- One row of a tile, written (R308, R310). -/
def tileRow (p : Pass) (g : Nat × Nat) (act w : List Byte) (m : Nat) : Eng Unit := do
  let o ← Eng.op
  let b := o.body
  let h ← Eng.hamper
  let off := p.out + m * p.pitch
  let now ← if p.acc = 1 then Eng.stRd off (4 * p.outW) else pure []
  let old := (← Eng.card).addsTo off ((o.adds.drop (m * (4 * p.outW))).take (4 * p.outW)) now
  let l := (List.range p.outW).map (fun j => tileElem (runA b) (runW b) (p.acc == 1) (leAt old (4 * j) 4) (rowLanes b g act w m j))
  let c ← Eng.card
  Eng.updOp (fun o => { o with tile := noteTile o.tile o.passes off (c.sramRd h ((c.staging h).1 + off) (4 * p.outW)) })
  Eng.stWr off (l.flatMap (fun x => leBytes 4 x.bits))
  let sat := (l.filter (fun x => x.sat)).length
  let exc := (l.filter (fun x => x.exc)).length
  if sat ≠ 0 then Eng.upd (fun c => (c.bump (hp h 0x9000C) sat).setBit (hp h 0x90008) 0 true)
  if exc ≠ 0 then Eng.upd (fun c => (c.bump (hp h 0x90010) exc).setBit (hp h 0x90008) 1 true)

/-- The rows of a tile in order. -/
def tileRows (p : Pass) (g : Nat × Nat) (act w : List Byte) : List Nat → Eng Unit
  | [] => pure ()
  | m :: t => do
    tileRow p g act w m
    tileRows p g act w t

/-- The present pass of a RUN ends: its tile is written and the unit counts it. -/
def endPass : Eng Unit := do
  let o ← Eng.op
  let b := o.body
  let h ← Eng.hamper
  let p := readPass o.pass
  let c ← Eng.card
  let g := c.grGeometry h
  let l := runLanes b g
  let act ← Eng.blockRd p.act ((p.m + l - 1) * l * fmtBytes (runA b))
  tileRows p g act (c.grSet h o.unit).active (List.range p.m)
  Eng.upd (fun c => (if p.acc = 1 then c.draw else c).bump (hp h (0x90104 + 0x10 * o.unit)) 1)
  Eng.updOp (fun o => { o with passes := o.passes + 1, pass := [], adds := [] })

/-! ### Commands -/

/-- The outcome of a part of a RUN: where it ends well the RUN stays on its unit. -/
def Card.runPart (c : Card) (h r : Nat) (o : Op) (work : Eng Unit) : Card :=
  c.runStep h r o work (fun _ => false)

/-- The body of a RUN checked and its first pass begun. -/
def runStart : Eng Unit := do
  Eng.check (runInRange (← Eng.op).body) 0xF4
  beginPass 0

/-- The body and the first pass of a latency-critical RUN checked, and its first weights loaded into the shadow set of the unit on
which it is to preempt (R316 step 1). -/
def runAhead (u : Nat) : Eng Unit := do
  Eng.check (runInRange (← Eng.op).body) 0xF4
  let bs ← Eng.passAt 0
  let w ← Eng.weights (readPass bs)
  let h ← Eng.hamper
  Eng.upd (fun c => c.loadShadow h u w)
  Eng.updOp (fun o => { o with next := bs, due := some u })

/-- The best-effort RUN that runs a pass on a unit, on which nothing is to preempt yet. -/
def Card.preemptible (c : Card) (h u : Nat) : Option (Nat × Op) :=
  if (c.allOps h).any (fun x => x.2.dueOn u) then none
  else (c.onUnit h 3 u).filter (fun x => !c.opLc h x.1 x.2 && x.2.phase == .running)

/-- The units of an operation's group that are enabled and not fenced. -/
def Card.liveUnits (c : Card) (h : Nat) (o : Op) : List Nat :=
  match c.groupOf h o.group with
  | none => []
  | some g => g.unitList.filter (fun u => c.unitEnabled h g.cls u && !c.fenced h g.cls u)

/-- The unit on which a latency-critical RUN preempts, when every enabled, unfenced unit of its group runs best-effort work (R316):
the one whose pass is due to end first. Which one that is, is free (DESIGN CHOICE, assumption log entry 142). -/
def Card.preemptUnit (c : Card) (h r : Nat) (o : Op) : Option Nat :=
  let us := c.liveUnits h o
  let be := us.filter (fun u => (c.preemptible h u).isSome)
  if c.opLc h r o && c.isNext h r o && us.all (fun u => (c.onUnit h 3 u).any (fun x => !c.opLc h x.1 x.2)) then
    if be.length ≤ 1 then be.head? else be[c.freeN % be.length]?
  else none

/-- A RUN is to preempt on a unit: the best-effort RUN there loses what it had loaded ahead. -/
def Card.makeDue (c : Card) (h r : Nat) (o : Op) (u : Nat) : Card :=
  match c.preemptible h u with
  | none => c
  | some (r', be) =>
    let c' := (c.draw.drawXlate).runPart h r { o with due := none } (runAhead u)
    if (c'.opOf h r o.seq).any (fun x => x.due == some u) then c'.setOp h r' { be with next := [] } else c'

/-- A RUN still waits for the end of a best-effort pass. -/
def Card.stillDue (c : Card) (h : Nat) (o : Op) : Bool :=
  o.due.any (fun u => (c.onUnit h 3 u).any (fun x => !c.opLc h x.1 x.2))

/-- GRIDDLE_RUN (R316, R321): the RUN starts on a unit of its group, or, latency-critical, takes one to preempt. -/
def execGriddleRun (h : Fin 4) (r : Fin 16) (seq : Nat) (s : State) : Host.Outcome State Fault Refusal :=
  s.run fun c => match c.readyOp h.val r.val seq 3 0x01 with
    | none => c
    | some o =>
      if o.started || c.stillDue h.val o then c
      else match c.canStart h.val r.val o with
        | some u =>
          if c.isSuspect h.val o && decide (2 ≤ c.shedStage h.val) then (c.chargeCount h.val o 0x18).setOp h.val r.val (o.ran stCancelled 0x21 0)
          else c.runFirst h.val r.val (c.startOp h.val { o with due := none, next := [] } u) runStart (fun _ => false)
        | none => match c.preemptUnit h.val r.val { o with due := none } with
          | some u => c.makeDue h.val r.val o u
          | none => c

/-- The preempted RUN of a unit resumes at its next pass (R316 step 4): a swap restores its set, or its present block is
reloaded; the wait is charged (R364). A set whose RUN is gone is no longer held. -/
def Card.resumePaused (c : Card) (h u : Nat) : Card :=
  match c.pausedOn h u with
  | none => if (c.grSet h u).shadowBe then c.setGr h u { c.grSet h u with shadowBe := false } else c
  | some (r, o) =>
    let c := c.chargeWait h o (c.ns - o.paused.getD c.ns)
    let o : Op := { o with paused := none }
    let s := c.grSet h u
    let c := if s.shadowBe then (c.swapSets h u false).bump (hp h 0x90018) 1
      else
        let g := c.grGeometry h
        (c.setGr h u { s with active := c.sramRd h ((c.staging h).1 + o.wgt) (g.1 * g.2 * fmtBytes (runW o.body)) }).bump (hp h 0x9001C) 1
    (c.setOp h r o).runPart h r o (beginPass o.passes)

/-- The latency-critical RUN that preempts at the end of a pass on a unit. -/
def Card.preemptor (c : Card) (h u : Nat) : Option (Nat × Op) :=
  (c.allOps h).find? (fun x => x.2.dueOn u && !x.2.held && !c.govHolds h x.1 x.2.seq && c.opLc h x.1 x.2)

/-- A best-effort RUN is preempted on its unit (R316 step 2): the other's first set becomes active and its own goes to the shadow
registers. -/
def Card.preempt (c : Card) (h r : Nat) (be : Op) (r' : Nat) (lc : Op) : Card :=
  let u := be.unit
  let c := (c.setOp h r { be with paused := some c.ns, next := [] }).swapSets h u true
  let p := ((c.bump (hp h 0x90014) 1).chargeCount h be 0x14).startOp h { lc with due := none } u
  p.1.runPart h r' p.2 (openPass 0 lc.next)

/-- The next pass of a RUN begins; where the RUN ends instead, a preempted one resumes. -/
def Card.nextPass (c : Card) (h r : Nat) (o : Op) : Card :=
  let c := c.runPart h r o (beginPass o.passes)
  match c.opOf h r o.seq with
  | some x => if x.phase ≠ .running then c.resumePaused h o.unit else c
  | none => c

/-- GRIDDLE_PASS_END (R313, R314, R316): the running pass of a unit ends. After the last one the RUN ends, and a preempted
RUN resumes; else the next pass begins, or a waiting latency-critical RUN preempts. A RUN between two passes goes on. -/
def execGriddlePassEnd (h : Fin 4) (u : Fin 8) (s : State) : Host.Outcome State Fault Refusal :=
  s.run fun c =>
    let h := h.val
    match (c.allOps h).find? (fun x => x.2.cls == 3 && x.2.started && x.2.paused.isNone && x.2.phase == .running && x.2.unit == u.val &&
        !x.2.held && x.2.reads.isEmpty) with
    | none => if c.live && (c.onUnit h 3 u.val).isNone then c.resumePaused h u.val else c
    | some (r, o) =>
      if !c.live || o.retryOn.isSome then c
      else if o.pass.isEmpty then c.drawXlate.nextPass h r o
      else
        let c := c.runPart h r o endPass
        match c.opOf h r o.seq with
        | none => c
        | some o' =>
          if o'.phase ≠ .running then c.resumePaused h u.val
          else if leAt o.body 8 2 ≤ o'.passes then (c.setOp h r (o'.ran o'.status o'.detail o'.ext)).resumePaused h u.val
          else match (if c.opLc h r o' then none else c.preemptor h u.val) with
            | some (r', lc) => c.preempt h r o' r' lc
            | none => c.drawXlate.nextPass h r o'

end Sys2Proof.Machine
end

