-- ==== Sys2Proof/Machine/Timing.lean ====
section
/-! DEFINITION. Card time and its discipline (spec/02 R31 to R34, R48), the pace windows, shedding stages and the voltage
loop (R35 to R47). -/

namespace Sys2Proof.Machine

/-! ### Card time -/

/-- SYNC of MG_TIME_STATUS: 0 FREE_RUN, 1 LOCKED, 2 HOLDOVER. -/
def Card.setSync (c : Card) (v : Nat) : Card := c.setF (mg 0x104C) 1 0 v

/-- The rate correction that removes an offset (ns) over the next 64 exchanges, `ms` apart, limited to ±500 ppm (R33), in
ppb; a remainder is dropped toward zero
(DEDUCED, assumption log entry 41). -/
def slewRate (offset : Int) (ms : Nat) : Int := clampI (-500000) 500000 ((offset * 1000).tdiv (64 * (ms : Int)))

/-- A completed exchange measured an offset (R33): slew, step or slew out at −500 ppm. -/
def Card.discipline (c : Card) (offset : Int) (ms : Nat) : Card :=
  let c := c.setN (mg 0x1050) (toBits 32 (clampI (-(2 ^ 31 - 1)) (2 ^ 31 - 1) offset))
  let c : Card := { c.setSync 1 with clk := { c.clk with missed := 0, open_ := false } }
  if 1000000 < offset then
    let c : Card := { c with clk := { c.clk with now := c.clk.now + offset.toNat * nsUnit } }
    (c.bumpF (mg 0x104C) 31 16 1).setBit (mg 0x104C) 2 false
  else if offset < -1000000 then
    { c.setBit (mg 0x104C) 2 true with clk := { c.clk with rate := -500000 } }
  else { c.setBit (mg 0x104C) 2 false with clk := { c.clk with rate := slewRate offset ms } }

/-- An interval ended with no completed exchange: after four in a row a LOCKED state becomes HOLDOVER, keeping the last
rate correction (R34)
(DESIGN CHOICE, assumption log entry 55). -/
def Card.missedInterval (c : Card) : Card :=
  let n := c.clk.missed + 1
  let c : Card := { c with clk := { c.clk with missed := n } }
  if 4 ≤ n ∧ c.f (mg 0x104C) 1 0 = 1 then c.setSync 2 else c

/-- PTM_INTERVAL_EXPIRY (R33, R34, R536): none while card time is disciplined over a Dravaz port. -/
def execPtmIntervalExpiry (s : State) : Host.Outcome State Fault Refusal :=
  s.run fun c =>
    if !c.on || !(c.cfgOf 0).ptmEn || c.timeUp != 0 then c
    else
      let c := if c.clk.open_ then c.missedInterval else c
      { c.emit .ptmRequest with clk := { c.clk with open_ := true } }

/-- PTM_EXCHANGE_DONE (R33): `offset` is the master time less the card time, in ns. -/
def execPtmExchangeDone (offset : Int) (s : State) : Host.Outcome State Fault Refusal :=
  s.run fun c => if !c.on || !(c.cfgOf 0).ptmEn || !c.clk.open_ then c else c.discipline offset (c.f (mg 0x1048) 7 0)

/-- PTM_DISABLE (R34, R48): FREE_RUN, and the last rate correction is kept. -/
def execPtmDisable (s : State) : Host.Outcome State Fault Refusal :=
  s.run fun c =>
    if !c.on then c
    else { (c.setCfg 0 { c.cfgOf 0 with ptmEn := false }).setSync 0 with clk := { c.clk with missed := 0, open_ := false } }

/-! ### The pace monitor -/

/-- The pace figure of a window (R35). -/
def paceFigure (busyNs records : Nat) : Nat :=
  if busyNs = 0 then 0 else if records = 0 then 65535 else min 65535 (ceilDiv busyNs records)

/-- What the window of one hamper came to: its figure, and whether it slipped or had headroom (R35, R36). -/
def Card.window (c : Card) (h : Nat) : Nat × Bool × Bool :=
  let p := c.paceOf h
  let fig := paceFigure (p.busyFrac / nsUnit) p.records
  let hr := c.f (mg 0x1000) 31 24
  (fig, decide (p.target < fig), decide (fig ≤ p.target - p.target * hr / 256))

/-- One hamper's part of the procedure of R37: its new stage, streak and calm count. -/
def judgeWindow (slip headroom held shedEn : Bool) (relax stage streak calm : Nat) : Nat × Nat × Nat :=
  if slip && held && shedEn then
    if stage = 0 ∨ streak + 1 = 2 then (min (stage + 1) 3, 0, 0) else (stage, streak + 1, 0)
  else if slip && held then (3, streak, 0)
  else if headroom then
    if calm + 1 = relax ∧ 0 < stage then (stage - 1, 0, 0) else (stage, 0, calm + 1)
  else (stage, 0, 0)

/-- PACE_MISS records of a hamper for its affected streams (R40, R392): one that finds no room is skipped, and its windows
stay counted
(DEDUCED, assumption log entry 56). -/
def Card.paceMiss (c : Card) (h fig : Nat) : Card :=
  (c.paceOf h).affected.foldl (fun c s => match c.stream h s with
    | none => c
    | some t =>
      let r := c.streamEvent h s 8 0xFFFFFFFF 0 (leBytes 2 fig ++ leBytes 1 3 ++ leBytes 4 t.paceWin)
      if r.2 then r.1.setStream h s ((r.1.stream h s).map (fun u => { u with paceWin := 0 })) else r.1) c

/-- The streams of a hamper count a window that ended in stage 3. -/
def Card.countPaceWin (c : Card) (h : Nat) : Card :=
  (c.streamsOf h).foldl (fun c x => c.setStream h x.1 (some { x.2 with paceWin := x.2.paceWin + 1 })) c

/-- The end of one hamper's window: figure, stage, PACE_MISS; a change of stage raises vector 1. -/
def Card.endWindow (c : Card) (h : Nat) (held : Bool) : Card :=
  let k := mg (0x1020 + 4 * h)
  let w := c.window h
  let p := c.paceOf h
  let stage := c.f k 1 0
  let j := judgeWindow w.2.1 w.2.2 held (c.bit (mg 0x1000) 1) (c.f (mg 0x1000) 23 16) stage p.streak p.calm
  let c := c.setN k (w.1 * 2 ^ 16 + b2n w.2.1 * 4 + j.1)
  let n3 := if j.1 = 3 then (if stage = 3 then p.stage3 + 1 else 1) else 0
  let c := c.setPace h { p with streak := j.2.1, calm := j.2.2, stage3 := n3 }
  let c := if j.1 = 3 then (c.bump (mg (0x1030 + 4 * h)) 1).countPaceWin h else c
  let c := if j.1 = 3 ∧ n3 % 64 = 1 then c.paceMiss h w.1 else c
  if j.1 ≠ stage then c.raise 0 1 else c

/-- A new request is written to the regulator (R38): at most one write a window, and none while one is not acknowledged. -/
def Card.avsSend (c : Card) (mv : Nat) : Card :=
  if c.avs.pending.isSome ∨ mv = c.avsRequest then c
  else
    let old := c.f (mg 0x1008) 15 0
    { c.emit (.avsWrite mv) with avs := { c.avs with pending := some mv }, gov := { c.gov with est := c.gov.est * mv ^ 2 / old ^ 2 } }

/-- The voltage step at a window's end (R37, R44): a request above the effective ceiling comes down by 20 mV, and in such a
window R37's own lowering is not made as well, so the calm counts stand (DESIGN CHOICE, assumption log entry 126). -/
def Card.voltageStep (c : Card) (slipped : Bool) : Card :=
  let req := c.avsRequest
  let ceil := c.effCeil
  let loop := c.bit (mg 0x1000) 0
  let started := hampers.filter (fun h => c.started h)
  if ceil < req then c.avsSend (max ceil (req - 20))
  else if loop && slipped && decide (req < ceil) then c.avsSend (min ceil (req + 5 * c.f (mg 0x1000) 7 4))
  else if loop && started.all (fun h => c.f (mg (0x1020 + 4 * h)) 1 0 == 0 && decide (c.f (mg 0x1000) 23 16 ≤ (c.paceOf h).calm)) then
    hampers.foldl (fun c h => c.setPace h { c.paceOf h with calm := 0 }) (c.avsSend (max (c.f (mg 0x1004) 31 16) (req - 5 * c.f (mg 0x1000) 11 8)))
  else c

/-- The next pace window opens where the one before ended, or, after a longer stay, at the latest multiple of 256,000 ns. It
overlaps a freeze if one lasts, or lasted beyond its start (R47). -/
def Card.openWindow (c : Card) (fin : Nat) : Card :=
  let at_ := max fin (c.ns / 256000 * 256000)
  { c with winAt := at_, winFrozen := c.frozen || c.stopping || decide (at_ < c.pair (mg 0x5018) (mg 0x501C)) }

/-- Whether the rail is at the ceiling now, for the window that follows. -/
def Card.notePoint (c : Card) : Card := { c with avs := { c.avs with held := c.avsRequest == c.effCeil } }

/-- PACE_WINDOW_END (R35 to R40, R44 to R47): card time reaches the end of the window. A window that overlaps a freeze is
not judged. -/
def execPaceWindowEnd (s : State) : Host.Outcome State Fault Refusal :=
  s.run fun c =>
    if !c.on || decide (c.stage < 7) then c
    else
      let fin := (c.winAt / 256000 + 1) * 256000
      let c := c.advanceTo fin
      let started := hampers.filter (fun h => c.started h)
      let held := c.avs.held && c.avsRequest == c.effCeil
      let c :=
        if c.winFrozen || c.frozen || c.stopping then c
        else
          let slipped := started.any (fun h => (c.window h).2.1)
          let c := started.foldl (fun c h => c.endWindow h held) c
          let c := if slipped && c.f (mg 0x1008) 15 0 == c.effCeil then c.event 0x100C 0 1 else c
          c.voltageStep slipped
      let c := hampers.foldl (fun c h => c.setPace h { c.paceOf h with
        busyFrac := 0, records := 0, affected := (((c.lcActive h).filterMap (fun o => o.stream)).eraseDups),
        target := c.f (mg (0x1010 + 4 * h)) 15 0 }) c
      (c.openWindow fin).notePoint

/-- AVS_WRITE_ACK (R38, R43): the request counts as applied; the regulator's own effective ceiling is lifted. -/
def execAvsWriteAck (s : State) : Host.Outcome State Fault Refusal :=
  s.run fun c => match c.avs.pending with
    | none => c
    | some mv => (({ c with avs := { c.avs with pending := none, nak := false, up := true } } : Card).setF (mg 0x1008) 15 0 mv).judgeHeld

/-- AVS_WRITE_TIMEOUT (R43): REG_NAK; the last applied request stands as the effective ceiling. -/
def execAvsWriteTimeout (s : State) : Host.Outcome State Fault Refusal :=
  s.run fun c =>
    if c.avs.pending.isNone then c
    else if !c.avs.up then c.event 0x100C 1 1
    else (({ c with avs := { c.avs with pending := none, nak := true, held := false } } : Card).event 0x100C 1 1)

end Sys2Proof.Machine
end

