-- ==== Sys2Proof/Machine/Dravaz.lean ====
section
/-! DEFINITION. The Dravaz ports (spec/23): training, packets, remote requests both ways, message rings, windows and time
over the link. -/

namespace Sys2Proof.Machine

/-- Register `off` of port `p`'s page. -/
def portReg (p off : Nat) : Nat := mg (0xA100 + 0x100 * p + off)

/-- The state of port `p` (R529): 0 NO_CABLE, 1 TRAINING, 2 UP, 3 RETRAINING, 4 DOWN. -/
def Card.portState (c : Card) (p : Nat) : Nat := c.f (portReg p 4) 2 0

/-- An event of port `p` (R538): bit `b` of its byte, vector 8. -/
def Card.portEvent (c : Card) (p b : Nat) : Card := c.event 0xA004 (8 * p + b) 8

/-! ### This card's requests -/

/-- The operation of a remote request. -/
def Card.remoteOp (c : Card) (x : Remote) : Option Op :=
  (c.ring x.hamper x.ring).q.find? (fun o => o.seq == x.seq && o.gen == x.gen)

/-- A request is over: its place on the port is free, and one that waits is issued. -/
def Card.remoteDone (c : Card) (x : Remote) : Card :=
  ({ c with remotes := c.remotes.filter (fun y => y.id != x.id) } : Card).pumpPort x.port

/-- A request fails: its operation ends on its input with a DETAIL, and its other requests are forgotten (R534, R145). -/
def Card.remoteFail (c : Card) (x : Remote) (detail : Nat) : Card :=
  let c := c.remoteDone x
  match c.remoteOp x with
  | none => c
  | some o =>
    let c : Card := { c with remotes := c.remotes.filter (fun y =>
      !(y.hamper == x.hamper && y.ring == x.ring && y.seq == x.seq && y.gen == x.gen)) }
    let c := if detail = dRemoteDenied then c.xlFault x.hamper x.ring o.ctx ⟨detail, 0, x.va⟩ else c
    if o.phase == .retired then c
    else c.setOp x.hamper x.ring { o with phase := .ran, status := stFailedInput, detail := detail, ext := 0, reads := [] }

/-- Every request on a port fails (R534). -/
def Card.portFail (c : Card) (p : Nat) : Card :=
  (c.remotes.filter (fun x => x.port == p)).foldl (fun c x => c.remoteFail x 0x96) c

/-- REMOTE_WRITE_ACK (R532): a frozen card takes it at the thaw like any arrival; the slot is freed. -/
def execRemoteWriteAck (p : Fin 2) (id : Nat) (s : State) : Host.Outcome State Fault Refusal :=
  s.run fun c => match c.remotes.find? (fun x => x.id == id && x.port == p.val && x.kind == 1 && x.sent) with
    | some x => c.remoteDone x
    | none => c

/-- REMOTE_TIMEOUT (R534): card time reaches the moment REMOTE_TIMEOUT_MS after the issue; the timer stands still while
the card is frozen. -/
def execRemoteTimeout (id : Nat) (s : State) : Host.Outcome State Fault Refusal :=
  s.run fun c => match c.remotes.find? (fun x => x.id == id && x.sent) with
    | some x =>
      if !c.live then c
      else
        let c := c.advanceTo (x.since + 1000000 * c.f (portReg x.port 8) 15 0)
        (c.bump (portReg x.port 0x18) 1).remoteFail x 0x95
    | none => c

/-! ### The link -/

/-- DRAVAZ_CABLE_DETECT (R529): training starts, or the port has no cable; one that was UP has left it. -/
def execDravazCableDetect (p : Fin 2) (present : Bool) (s : State) : Host.Outcome State Fault Refusal :=
  s.run fun c =>
    let c := (c.setBit (mg 0x0028) (2 + p.val) present).checkSupplies
    if present then c.trainPort p.val
    else
      let g := c.port p.val
      let left := if c.portState p.val == 2 then some c.ns else g.leftUp
      (c.setPort p.val { g with leftUp := left }).setF (portReg p.val 4) 2 0 0

/-- The packets of the replay buffer from a sequence number on go out again (R528). -/
def Card.replayFrom (c : Card) (p : Nat) (from_ : Nat) : Card :=
  let g := c.port p
  let again := g.unacked.dropWhile (fun x => x.seq != from_)
  let g' := { g with unacked := g.unacked.map (fun (x : SentPacket) => if again.any (fun y => y.seq == x.seq) then { x with replays := x.replays + 1 } else x) }
  again.foldl (fun c x => (c.emit (.link p x.kind (x.seq :: x.args) x.data)).bump (portReg p 0xC) 1) (c.setPort p g')

/-- The port retrains (R528): RETRAINING, counted, with its event. -/
def Card.retrain (c : Card) (p : Nat) : Card :=
  if c.portState p = 2 then
    (((c.setPort p { c.port p with leftUp := some c.ns }).setF (portReg p 4) 2 0 3).bump (portReg p 0x10) 1).portEvent p 2
  else c

/-- LINK_TRAINED (R529, R541): a peer with this card's own CARD_ID keeps the port in TRAINING; a port that comes UP
replays what was not acknowledged. -/
def execLinkTrained (p : Fin 2) (card : Fin 8) (port : Fin 2) (s : State) : Host.Outcome State Fault Refusal :=
  s.run fun c =>
    let st := c.portState p.val
    if !c.on || !(st == 1 || st == 3 || st == 4) || !c.cable p.val || !c.bit (portReg p.val 0) 31 then c
    else if card.val = c.f (mg 0xA000) 2 0 then (c.setF (portReg p.val 4) 2 0 1).portEvent p.val 5
    else
      let g := c.port p.val
      let changed := g.peer.any (fun x => x != (card.val, port.val))
      let c := (c.setN (portReg p.val 4) (port.val * 2 ^ 12 + card.val * 2 ^ 8 + 2)).setPort p.val
        { g with peer := some (card.val, port.val), leftUp := none }
      let c := c.portEvent p.val 0
      let c := if changed then c.portEvent p.val 4 else c
      let c := match g.unacked with | x :: _ => c.replayFrom p.val x.seq | [] => c
      c.pumpPort p.val

/-- LINK_RETRAIN (R528). -/
def execLinkRetrain (p : Fin 2) (s : State) : Host.Outcome State Fault Refusal := s.run fun c => c.retrain p.val

/-- PORT_RETRAIN (R538): a write of MG_DV_PORT_CTL; RETRAIN retrains now. -/
def execPortRetrain (p : Fin 2) (v : Word) (s : State) : Host.Outcome State Fault Refusal :=
  s.run fun c => c.hostWrite .pf0 (0xA100 + 0x100 * p.val) fun c =>
    let c := c.writeReg (portReg p.val 0) v
    if fld v 30 30 = 1 then c.retrain p.val else c

/-- LINK_DOWN_TIMEOUT (R529, R534): the port enters DOWN and fails its requests; with its cable still detected it trains
again. -/
def execLinkDownTimeout (p : Fin 2) (s : State) : Host.Outcome State Fault Refusal :=
  s.run fun c =>
    let g := c.port p.val
    match g.leftUp with
    | none => c
    | some t =>
      let c := c.advanceTo (t + 1000000 * c.f (portReg p.val 8) 31 16)
      let c := ((c.setPort p.val { g with leftUp := none }).setF (portReg p.val 4) 2 0 4).portEvent p.val 1
      c.portFail p.val

/-- The effect of a packet's body on the upper layer. -/
def Card.dvBody (c : Card) (p : Nat) : DvBody → Card
  | .empty => c
  | .other _ => c
  | .readData id data =>
    match c.remotes.find? (fun x => x.id == id && x.port == p && x.kind == 0) with
    | none => c
    | some x =>
      let c := c.remoteDone x
      match c.remoteOp x with
      | some o => c.setOp x.hamper x.ring { o with host := o.host ++ [⟨x.key, (data ++ List.replicate x.len 0).take x.len⟩] }
      | none => c
  | .denied id =>
    match c.remotes.find? (fun x => x.id == id && x.port == p) with
    | none => c
    | some x => c.remoteFail x dRemoteDenied
  | .messageAck id =>
    match c.remotes.find? (fun x => x.id == id && x.port == p && x.kind == 2) with
    | none => c
    | some x => c.remoteDone x
  | .timeAsk t => c.sendPacket p 11 [t, c.ns, c.ns, c.hops] []

/-- The payload bytes of a body. -/
def dvBytes : DvBody → Nat
  | .readData _ data => data.length
  | .other n => n
  | _ => 0

/-- DRAVAZ_PACKET_RECEIVED (R528): acknowledgements release the replay buffer; a bad packet, and one before which a packet is
missing, makes the receiver ask for a replay; a good one in sequence is acknowledged and passes up; a repeated one is acknowledged
and dropped. A packet replayed four times makes the port retrain. -/
def execDravazPacketReceived (p : Fin 2) (pk : DvPacket) (s : State) : Host.Outcome State Fault Refusal :=
  s.run fun c =>
    if !c.on || !c.portUp p.val then c
    else if !pk.good then c.emit (.link p.val 9 [(c.port p.val).rx] [])
    else
      let g := c.port p.val
      let c := match pk.ack with
        | some n => if g.unacked.any (fun x => x.seq == n) then
            c.setPort p.val { g with unacked := (g.unacked.dropWhile (fun (x : SentPacket) => x.seq != n)).drop 1 } else c
        | none => c
      let c := match pk.replay with | some n => c.replayFrom p.val n | none => c
      let c := if (c.port p.val).unacked.any (fun x => decide (4 ≤ x.replays)) then
          (c.setPort p.val { c.port p.val with unacked := (c.port p.val).unacked.map (fun (x : SentPacket) => { x with replays := 0 }) }).retrain p.val
        else c
      let g := c.port p.val
      if pk.seq % 4096 = g.rx then
        let c := (c.setPort p.val { g with rx := (g.rx + 1) % 4096 }).emit (.link p.val 8 [pk.seq % 4096] [])
        let k := portReg p.val 0x28
        let c := c.setPair k (k + 4) (c.pair k (k + 4) + dvBytes pk.body)
        c.dvBody p.val pk.body
      else if (g.rx + 4096 - pk.seq % 4096) % 4096 ≤ 64 then c.emit (.link p.val 8 [pk.seq % 4096] [])
      else c.emit (.link p.val 9 [g.rx] [])

/-! ### Requests from the peer (R145, R533) -/

/-- Window `w` of port `p`: its control, offset and size registers. -/
def winReg (p w : Nat) : Nat := mg (0xA400 + 0x400 * p + 16 * w)

/-- A denied arrival is counted and answered (R145, R535)
(DEDUCED, assumption log entry 52). -/
def Card.denyRemote (c : Card) (p id : Nat) : Card :=
  ((c.bump (portReg p 0x14) 1).portEvent p 3).sendPacket p 4 [id] []

/-- The region and data offset that a request through a window reaches, if it passes the checks of R145. -/
def Card.windowHit (c : Card) (p w off len : Nat) (write : Bool) : Option (RegionEnt × Nat) :=
  let k := winReg p w
  if !c.bit k 31 || !(if write then c.bit k 29 else c.bit k 30) || decide ((c.f (k + 8) 15 0 + 1) * 65536 < off + len) then none
  else match c.regionOf (c.f k 7 0) with
    | none => none
    | some (_, e) =>
      let d := c.f (k + 4) 16 0 * 0x200000 + off
      if e.picture || !(tabGet {} c.owners e.num : Owner).admits (c.f k 27 16) || decide (e.dataSize < d + len) then none
      else some (e, d)

/-- A request that passed its checks is served. An error in the data denies the read. -/
def Card.serveRemote (c : Card) (p id : Nat) (e : RegionEnt) (d len : Nat) (wdata : Option (List Byte)) : Card :=
  match wdata with
  | some bs => ((c.touch none e d bs.length true none).wrRegion e d bs).sendPacket p 5 [id] []
  | none => match (c.touch none e d len false none).rdRegion e d len with
    | .ok bs => (c.touch none e d len false none).sendPacket p 3 [id] bs
    | .error _ => c.denyRemote p id

/-- REMOTE_REQUEST_RECEIVED (R145, R533): a frozen card answers none (R534). A request on a chunk being copied is held. -/
def execRemoteRequestReceived (p : Fin 2) (q : RemoteReq) (s : State) : Host.Outcome State Fault Refusal :=
  s.run fun c =>
    if !c.live then c
    else
      let n := match q.wdata with | some b => b.length | none => q.len
      match c.windowHit p.val q.window.val q.off n q.wdata.isSome with
      | none => c.denyRemote p.val q.id
      | some (e, d) =>
        if c.spanHeld e d n then
          { c with heldAcc := c.heldAcc ++ [{ fnNum := 0, hamper := 0, region := e.num, off := d, len := n, wdata := q.wdata,
                                              remote := some (p.val, q.id) }] }
        else c.serveRemote p.val q.id e d n q.wdata

/-- A held access goes on: what keeps it held keeps it in its order; a region that has become PICTURE, or is no longer
declared, denies it (R21, R154); a doorbell follows the writes of its function (R144). -/
def Card.releaseOne (c : Card) (x : HeldAccess) : Card :=
  match x.bell with
  | some (r, prod) =>
    if c.heldAcc.any (fun y => y.before x.fnNum) then { c with heldAcc := c.heldAcc ++ [x] } else c.ringBell x.hamper r prod
  | none =>
  match c.regionOf x.region with
  | some (_, e) =>
    let keep : Card := { c with heldAcc := c.heldAcc ++ [x] }
    let n := min x.len (e.dataSize - x.off)
    if x.fill then
      match e.rowSpans.filter (fun s => decide (s.2.1 ≤ x.off) && decide (x.off < s.2.2)) with
      | [] => c
      | l => if c.copying.any (fun q => q.2 == x.off && l.any (fun s => s.1 == q.1)) then keep
             else c.zeroRows (l.map (fun s => (s.1, x.off, x.off + 1)))
    else if c.spanHeld e x.off n || (x.wait && c.awaitsCopy e x.off) then keep
    else match x.remote with
      | some (p, id) => if e.picture then c.denyRemote p id else c.serveRemote p id e x.off x.len x.wdata
      | none =>
        if e.picture then (if x.wdata.isSome then c else c.emit (.readData x.fnNum x.addr (List.replicate x.len 0xFF)))
        else c.aperDo x.hamper x.fnNum x.addr x.len x.region e x.off n x.wdata []
  | none => match x.remote with
    | some (p, id) => c.denyRemote p id
    | none => if x.wdata.isSome || x.fill then c else c.emit (.readData x.fnNum x.addr (List.replicate x.len 0xFF))

/-- The accesses that a chunk's copy held, from the host and from peers, are done in order (R193, R194). -/
def Card.releaseAll (c : Card) : Card := c.heldAcc.foldl Card.releaseOne { c with heldAcc := [] }

/-! ### Messages (R535, R545) -/

/-- The message ring of port `p` has no free entry. -/
def Card.msgFull (c : Card) (p : Nat) : Bool :=
  decide (2 ^ c.f (portReg p 0x30) 4 0 ≤ diff32 (c.reg (portReg p 0x3C)).toNat (c.reg (portReg p 0x38)).toNat)

/-- A message written to the ring: the entry, TAIL, the semaphore, the acknowledgement, in this order (R535, R539). -/
def Card.putMessage (c : Card) (p : Nat) (m : HeldMsg) : Card :=
  let tail := (c.reg (portReg p 0x3C)).toNat
  let cfg := portReg p 0x30
  let entry := leBytes 4 tail ++ leBytes 2 m.data.length ++ leBytes 1 m.card ++ leBytes 1 m.hamper ++ leBytes 8 m.tag ++
    leBytes 8 m.sent ++ List.replicate 40 0 ++ (m.data ++ List.replicate 256 0).take 256
  let d := c.f (portReg p 0x34) 23 0 * 65536 + 320 * (tail % 2 ^ c.f cfg 4 0)
  let c := match c.regionOf (c.f (portReg p 0x34) 31 24) with
    | some (_, e) => (c.touch none e d 320 true none).wrRegion e d entry
    | none => c
  let c := c.setN (portReg p 0x3C) (tail + 1)
  let c := c.semApply (4096 * c.f cfg 29 28 + c.f cfg 27 16) 1 1
  c.sendPacket p 6 [m.id] []

/-- The messages held on a full ring are written while there is room; `fuel` bounds them. -/
def Card.pumpMsgs (p : Nat) : Nat → Card → Card
  | 0, c => c
  | fuel + 1, c =>
    match (c.port p).held with
    | [] => c
    | m :: t =>
      if c.msgFull p then c
      else Card.pumpMsgs p fuel ((c.setPort p { c.port p with held := t }).putMessage p m)

/-- MESSAGE_RECEIVED (R535): a port whose ring is not enabled denies it, a full ring holds it unacknowledged. -/
def execMessageReceived (p : Fin 2) (m : DvMessage) (s : State) : Host.Outcome State Fault Refusal :=
  s.run fun c =>
    let x : HeldMsg := { id := m.id, card := m.card.val, hamper := m.hamper.val, tag := m.tag, sent := m.sent, data := m.data.take 256 }
    if !c.live then c
    else if !c.bit (portReg p.val 0x30) 31 then c.denyRemote p.val m.id
    else if c.msgFull p.val || !(c.port p.val).held.isEmpty then
      c.setPort p.val { c.port p.val with held := (c.port p.val).held ++ [x] }
    else c.putMessage p.val x

/-- The region of a message ring is as R538 asks: declared by the named hamper, ECC and not PICTURE, and it holds the whole
ring. -/
def Card.msgRegionOk (c : Card) (p : Nat) : Option RegionEnt :=
  let cfg := portReg p 0x30
  let d := c.f (portReg p 0x34) 23 0 * 65536
  ((c.lay (c.f cfg 29 28)).bind (fun l => l.regions.find? (fun e => e.num == c.f (portReg p 0x34) 31 24))).bind (fun e =>
    if e.ecc && !e.picture && decide (d + 320 * 2 ^ c.f cfg 4 0 ≤ e.dataSize) then some e else none)

/-- The messages held for a ring that is no longer enabled are denied (R535, R545)
(DEDUCED, assumption log entry 52). -/
def Card.denyHeld (c : Card) (p : Nat) : Card :=
  (c.port p).held.foldl (fun (c : Card) m => c.denyRemote p m.id) (c.setPort p { c.port p with held := [], msgRegion := none })

/-- MSG_RING_ENABLE (R538): the fields, then the check; on success HEAD and TAIL restart at 0. A write of ENABLE 0 stops
the ring. -/
def execMsgRingEnable (p : Fin 2) (v : Word) (s : State) : Host.Outcome State Fault Refusal :=
  s.run fun c => c.hostWrite .pf0 (0xA130 + 0x100 * p.val) fun c =>
    let k := portReg p.val 0x30
    let on := c.bit k 31
    let c := c.writeReg k v
    if fld v 31 31 = 0 then (c.setBit k 31 false).denyHeld p.val
    else if on then c
    else match c.msgRegionOk p.val with
      | none => c
      | some e => (((c.setBit k 31 true).setN (portReg p.val 0x38) 0).setN (portReg p.val 0x3C) 0).setPort p.val
          { c.port p.val with msgRegion := some e }

/-- MSG_HEAD_WRITE (R535, R133). -/
def execMsgHeadWrite (p : Fin 2) (v : Word) (s : State) : Host.Outcome State Fault Refusal :=
  s.run fun c => c.hostWrite .pf0 (0xA138 + 0x100 * p.val) fun c =>
    if 2 ^ c.f (portReg p.val 0x30) 4 0 < diff32 (c.reg (portReg p.val 0x3C)).toNat v.toNat then
      c.setBit (mg 0xA004) (8 * p.val + 7) true
    else Card.pumpMsgs p.val (c.port p.val).held.length (c.setReg (portReg p.val 0x38) v)

/-- The message ring of a port is checked again at a function start of its hamper (R545). -/
def Card.recheckMsg (c : Card) (h p : Nat) : Card :=
  let k := portReg p 0x30
  if !c.bit k 31 || c.f k 29 28 != h then c
  else
    let place := fun (x : Option RegionEnt) => x.map (fun e => (e.channels, e.offset))
    if (c.msgRegionOk p).isSome && place (c.msgRegionOk p) == place (c.port p).msgRegion then c
    else ((c.setBit k 31 false).portEvent p 6).denyHeld p

/-- WINDOW_CTL_WRITE (R538, R146): the three registers are checked and applied together; an entry that names a PICTURE
region or one that no active layout declares is refused and counted, whatever its VALID. -/
def execWindowCtlWrite (p : Fin 2) (w : Fin 64) (v : Word) (s : State) : Host.Outcome State Fault Refusal :=
  s.run fun c => c.hostWrite .pf0 (0xA400 + 0x400 * p.val + 16 * w.val) fun c =>
    let k := winReg p.val w.val
    let pick := fun (j : Nat) => match c.holds.find? (fun e => e.1 == j) with | some e => e.2 | none => c.reg j
    if !((c.regionOf (fld v 7 0)).any (fun x => !x.2.picture)) then c.bump (portReg p.val 0x1C) 1
    else
      let lo := pick (k + 4)
      let hi := pick (k + 8)
      ((((c.setN k (v.toNat &&& 0xEFFF00FF)).setReg (k + 4) lo).setReg (k + 8) hi).dropHold (k + 4)).dropHold (k + 8)

/-! ### Time (R536) -/

/-- TIME_EXCHANGE (R536): each millisecond with TIME_UP named. No correction is made while the port is not UP, the exchange
does not complete, or the upstream card reports HOPS of 7 or more; after four such intervals the state is HOLDOVER. -/
def execTimeExchange (done : Option TimeStamp) (s : State) : Host.Outcome State Fault Refusal :=
  s.run fun c =>
    if !c.on || c.timeUp == 0 then c
    else
      let p := c.timeUp - 1
      let c := if c.portUp p then c.sendPacket p 10 [c.ns] [] else c
      match done with
      | none => c.missedInterval
      | some t =>
        if !c.portUp p then c.missedInterval
        else
          let c := c.setPort p { c.port p with hops := t.hops }
          if 7 ≤ t.hops then (c.event 0xA004 16 8).missedInterval else c.discipline t.offset 1

end Sys2Proof.Machine
end

