-- ==== Sys2Proof/Machine/Image.lean ====
section
/-! DEFINITION. The two stored forms read: layout images (spec/03 R55 to R60) and keep-store images (spec/21 R488, R499). -/

namespace Sys2Proof.Machine

/-! ### Layout images -/

/-- GROUP_COUNT, REGION_COUNT and LENGTH of a layout image. -/
def imgGroups (img : List Byte) : Nat := leAt img 0xB 1
def imgRegions (img : List Byte) : Nat := leAt img 0xC 1
def imgLength (img : List Byte) : Nat := 128 + 16 * (imgGroups img + imgRegions img)

/-- The reserved bits of byte `o` of an image with `n` groups (R56 to R59). -/
def reservedMask (n o : Nat) : Nat :=
  if o < 0x40 then (if (0xD ≤ o ∧ o < 0x10) ∨ (0x18 ≤ o ∧ o < 0x3C) then 0xFF else 0)
  else if o < 0x80 then (if o = 0x47 ∨ o = 0x4E ∨ o = 0x4F ∨ 0x54 ≤ o then 0xFF else 0)
  else if o < 0x80 + 16 * n then (if o % 16 = 8 then 0xFE else if 9 ≤ o % 16 then 0xFF else 0)
  else match o % 16 with
    | 1 => 0xF0
    | 3 => 0xFF
    | 6 => 0xFF
    | 7 => 0xFF
    | 0 => 0
    | 2 => 0
    | 4 => 0
    | 5 => 0
    | 8 => 0
    | 9 => 0
    | _ => 0xFF

/-- The first of rules 0x01 to 0x08 that an image fails, with the offset of the field (R60, R583). -/
def formFault (img : List Byte) (h stepping : Nat) : Option (Nat × Nat) :=
  let g := imgGroups img
  if leAt img 0 4 ≠ 0x594C564B then some (0x01, 0x00)
  else if leAt img 4 1 ≠ 1 then some (0x02, 0x04)
  else if g = 0 ∨ 16 < g then some (0x03, 0x0B)
  else if 64 < imgRegions img then some (0x03, 0x0C)
  else if leAt img 6 2 ≠ imgLength img then some (0x04, 0x06)
  else if leAt img 0x3C 4 ≠ imageCrc img (imgLength img) then some (0x05, 0x3C)
  else if leAt img 8 2 ≠ stepping then some (0x06, 0x08)
  else if leAt img 0xA 1 ≠ h then some (0x07, 0x0A)
  else ((List.range (imgLength img)).find? (fun o => leAt img o 1 &&& reservedMask g o != 0)).map (fun o => (0x08, o))

/-- A group entry read (R58). -/
def readGroup (img : List Byte) (i : Nat) : Group :=
  let e := 0x80 + 16 * i
  { cls := leAt img e 1, hamper := leAt img (e + 1) 1, rings := leAt img (e + 2) 2, units := leAt img (e + 4) 4, rotate := leAt img (e + 8) 1 }

/-- A region entry read (R59). -/
def readRegion (img : List Byte) (i : Nat) : RegionEnt :=
  let e := 0x80 + 16 * imgGroups img + 16 * i
  { num := leAt img e 1, attr := leAt img (e + 1) 1, channels := leAt img (e + 2) 1, offset := leAt img (e + 4) 2, size := leAt img (e + 8) 2 }

/-- A layout image read (R56 to R59). -/
def readLayout (img : List Byte) (fromDefault : Bool) : Layout :=
  { imageId := leAt img 0x10 4, hamper := leAt img 0xA 1, channels := leAt img 0x40 1, raster := leAt img 0x41 1,
    spare := leAt img 0x42 2, ways := leAt img 0x44 2, mode := leAt img 0x46 1, pool := leAt img 0x48 2, staging := leAt img 0x4A 2,
    track := leAt img 0x4C 2, ringClass := leAt img 0x50 4, groups := (List.range (imgGroups img)).map (readGroup img),
    regions := (List.range (imgRegions img)).map (readRegion img), fromDefault := fromDefault }

/-! ### Keep-store images (R499) -/

/-- The class and the lengths of a section's payload that its type allows; none for a type or index that the table does not
list. -/
def ksTypeOk (type index : Nat) : Option (Nat × (Nat → Bool)) :=
  match type with
  | 0x01 => if index < 32 ∧ index % 4 < 3 then some (2, fun n => n == 672) else none
  | 0x02 => if index < 4 then some (2, fun n => decide (1 ≤ n)) else none
  | 0x03 => if 4 ≤ index ∧ index < 36 then some (2, fun n => n == 4) else none
  | 0x10 => if index = 0 then some (1, fun n => decide (1 ≤ n) && decide (n ≤ 8192)) else none
  | 0x20 => if index = 0 then some (3, fun n => n == 4) else none
  | 0x21 => if index = 0 then some (3, fun n => n == 16) else none
  | 0x22 => if index = 0 then some (3, fun n => n == 528) else none
  | 0x23 => if index = 0 then some (3, fun n => n == 528) else none
  | 0x24 => if index = 0 then some (3, fun n => n == 16) else none
  | _ => none

/-- What the sections of an image come to. -/
inductive KsParse where
  | ok (l : List KsSection)
  | fault (off : Nat)
deriving DecidableEq, Repr

/-- The sections of an image from an offset up to `stop`, `n` of them, in increasing (TYPE, INDEX) from `last` on; else the
offset of the first fault. -/
def ksSections (img : List Byte) (stop : Nat) : Nat → Nat → Option (Nat × Nat) → List KsSection → KsParse
  | 0, o, _, acc => if o = stop then .ok acc.reverse else .fault 0xC
  | n + 1, o, last, acc =>
    let type := leAt img o 1
    let index := leAt img (o + 1) 1
    let len := leAt img (o + 4) 4
    let pad := ceilDiv len 16 * 16
    if stop < o + 16 then .fault o
    else match ksTypeOk type index with
      | none => .fault (if [0x01, 0x02, 0x03, 0x10, 0x20, 0x21, 0x22, 0x23, 0x24].contains type then o + 1 else o)
      | some (cls, lenOk) =>
        if (match last with | some l => decide (type < l.1) || (type == l.1 && decide (index ≤ l.2)) | none => false) then .fault o
        else if leAt img (o + 2) 1 ≠ cls then .fault (o + 2)
        else if leAt img (o + 3) 1 ≠ 0 then .fault (o + 3)
        else if !lenOk len || decide (stop < o + 16 + pad) then .fault (o + 4)
        else match (List.range 8).find? (fun i => leAt img (o + 8 + i) 1 != 0) with
          | some i => .fault (o + 8 + i)
          | none => match (List.range (pad - len)).find? (fun i => leAt img (o + 16 + len + i) 1 != 0) with
            | some i => .fault (o + 16 + len + i)
            | none => ksSections img stop n (o + 16 + pad) (some (type, index)) (⟨type, index, cls, (img.drop (o + 16)).take len⟩ :: acc)

/-- A staging image checked against R499 but for GENERATION and CRC: its sections, or the offset of the first fault. -/
def ksParse (img : List Byte) : KsParse :=
  let len := leAt img 0xC 4
  if leAt img 0 4 ≠ 0x5045454B then .fault 0
  else if leAt img 4 2 ≠ 1 then .fault 4
  else if len % 16 ≠ 0 ∨ len < 64 ∨ 65536 < len then .fault 0xC
  else match (List.range 44).find? (fun i => leAt img (0x10 + i) 1 != 0) with
    | some i => .fault (0x10 + i)
    | none => ksSections (img ++ List.replicate (len - img.length) 0) len (leAt img 6 2) 0x40 none []

/-- The sections of an image, as far as it can be read. -/
def ksList (img : List Byte) : List KsSection := match ksParse img with | .ok l => l | .fault _ => []

/-- The section of a type and index. -/
def ksFind (img : List Byte) (type index : Nat) : Option (List Byte) :=
  ((ksList img).find? (fun s => s.type == type && s.index == index)).map (fun s => s.payload)

/-- A section put in its place among others in rising order, replacing one of its own type and index. -/
def ksPut (s : KsSection) : List KsSection → List KsSection
  | [] => [s]
  | x :: t =>
    if s.type < x.type ∨ (s.type = x.type ∧ s.index < x.index) then s :: x :: t
    else if s.type = x.type ∧ s.index = x.index then s :: t
    else x :: ksPut s t

/-- A bank is valid (R488): MAGIC, VERSION, LENGTH and CRC are correct. -/
def bankValid (img : List Byte) : Bool :=
  let len := leAt img 0xC 4
  leAt img 0 4 == 0x5045454B && leAt img 4 2 == 1 && len % 16 == 0 && decide (64 ≤ len) && decide (len ≤ 65536) &&
  leAt img 0x3C 4 == imageCrc img len

end Sys2Proof.Machine
end

