-- ==== Sys2Proof/Machine/Layout.lean ====
section
/-! DEFINITION. Layouts (spec/03): the rule checker, the loader's commands, and the application of a layout when a hamper
function starts. -/

namespace Sys2Proof.Machine

/-! ### The rule checker (R50 to R52, R60, R583) -/

/-- The active and pending layouts of the other hampers (R50). -/
def Card.otherLayouts (c : Card) (h : Nat) : List Layout :=
  (hampers.filter (fun g => g != h)).flatMap (fun g => (c.lay g).toList ++ (tabGet none c.pendLay g).toList)

/-- A unit of a class is enabled under a griddle mode: by the repair map, and a colander by its bit of MG_MODULE_MAP (R52). -/
def Card.unitOk (c : Card) (h mode cls u : Nat) : Bool :=
  let k := mg (0x0010 + 4 * h)
  match cls with
  | 3 => if mode = 0 then c.bit k (20 + u) else if mode = 1 then c.bit k 20 && c.bit k 21 else c.bit k (20 + u / 4)
  | 7 => c.bit (mg 0x0020) (16 + u)
  | _ => c.unitEnabled h cls u

/-- The valid bits of a group's UNITS (R58). -/
def validUnits (cls mode : Nat) : Nat :=
  match cls with
  | 1 => 0xFFFF
  | 2 => 0xF
  | 3 => if mode = 0 then 3 else if mode = 1 then 1 else 0xFF
  | 5 => 0xFF
  | 7 => 0xFF
  | _ => 1

/-- The channels that carry a rank of a mask. -/
def rankChannels (ranks : Nat) : Nat := ((List.range 8).filter (fun ch => nbits ranks (2 * ch + 1) (2 * ch) != 0)).foldl (fun a ch => a + 2 ^ ch) 0

/-- A region touches a rank. -/
def RegionEnt.onRank (e : RegionEnt) (k : Nat) : Bool := nbit e.channels (k / 2) && rangesMeet e.offset e.size (8192 * (k % 2)) 8192

/-- Two regions overlap on some channel. -/
def RegionEnt.meets (a b : RegionEnt) : Bool := a.channels &&& b.channels != 0 && rangesMeet a.offset a.size b.offset b.size

/-- The first group, with its number, for which a rule fails, as an offset of the image. -/
def groupFault (code field : Nat) (l : List Group) (bad : Nat → Group → Bool) : Option (Nat × Nat) :=
  (l.zipIdx.find? (fun x => bad x.2 x.1)).map (fun x => (code, 0x80 + 16 * x.2 + field))

/-- The first region for which a rule fails. -/
def regionFault (code field groups : Nat) (l : List RegionEnt) (bad : Nat → RegionEnt → Bool) : Option (Nat × Nat) :=
  (l.zipIdx.find? (fun x => bad x.2 x.1)).map (fun x => (code, 0x80 + 16 * groups + 16 * x.2 + field))

/-- A layout may name the channel: its module is accepted, and bring-up did not leave it out of service (R24, R184, R509)
(DEDUCED, assumption log entry 107). -/
def Card.chanUsable (c : Card) (ch : Nat) : Bool :=
  let st := c.f (mg (0x8100 + 0x100 * ch)) 2 0
  c.bit (mg 0x0020) ch && st != 0 && st != 4

/-- Rules 0x10 to 0x1D, on the resource block. -/
def Card.resourceFault (c : Card) (h : Nat) (l : Layout) : Option (Nat × Nat) :=
  let others := c.otherLayouts h
  let ranks := maskList l.spare 16
  let k := mg (0x0010 + 4 * h)
  if l.channels = 0 then some (0x10, 0x40)
  else if (maskList l.channels 8).any (fun ch => !c.chanUsable ch) then some (0x11, 0x40)
  else if ranks.any (fun r => !nbit l.channels (r / 2)) then some (0x12, 0x42)
  else if (List.range 8).any (fun ch => nbits l.spare (2 * ch + 1) (2 * ch) == 3) then some (0x13, 0x42)
  else if others.any (fun o => rankChannels l.spare &&& o.channels != 0) then some (0x14, 0x42)
  else if others.any (fun o => rankChannels o.spare &&& l.channels != 0) then some (0x14, 0x40)
  else if ranks.any (fun r => c.rankState r != 1 && c.rankState r != 2) then some (0x15, 0x42)
  else if 4 ≤ l.raster ∧ l.raster ≠ 0xFF then some (0x16, 0x41)
  else if l.raster < 4 ∧ others.any (fun o => o.raster == l.raster) = true then some (0x17, 0x41)
  else if 2 < l.mode ∨ (l.mode = 1 ∧ (c.bit k 20 && c.bit k 21) = false) then some (0x18, 0x46)
  else if l.pool + l.staging + l.track ≠ 192 then some (0x19, 0x48)
  else if l.staging < 32 then some (0x1A, 0x4A)
  else if l.pool < 16 then some (0x1B, 0x48)
  else if (List.range 16).any (fun r => nbits l.ringClass (2 * r + 1) (2 * r) == 3) then some (0x1C, 0x50)
  else if l.ringClass = 0 then some (0x1D, 0x50)
  else none

/-- Rules 0x20 to 0x26, on the groups. -/
def Card.groupsFault (c : Card) (h : Nat) (l : Layout) : Option (Nat × Nat) :=
  let ringOff := fun (r : Nat) => nbits l.ringClass (2 * r + 1) (2 * r) == 0
  (groupFault 0x20 0 l.groups (fun _ g => g.cls == 0 || decide (8 < g.cls)))
  <|> (groupFault 0x21 1 l.groups (fun _ g => g.hamper != h))
  <|> (groupFault 0x22 4 l.groups (fun _ g => g.units &&& (0xFFFFFFFF - validUnits g.cls l.mode) != 0))
  <|> (groupFault 0x23 4 l.groups (fun i g => [1, 2, 3, 5].contains g.cls &&
        (l.groups.take i).any (fun e => e.cls == g.cls && e.units &&& g.units != 0)))
  <|> (groupFault 0x24 4 l.groups (fun _ g => !(maskList g.units 16).any (fun u => c.unitOk h l.mode g.cls u)))
  <|> (groupFault 0x25 2 l.groups (fun _ g => g.rings == 0 || (maskList g.rings 16).any ringOff))
  <|> (groupFault 0x26 4 l.groups (fun _ g => g.cls == 7 && g.units &&& (0xFF - l.channels) != 0))

/-- Rules 0x30 to 0x38, on the regions. -/
def Card.regionsFault (c : Card) (h : Nat) (l : Layout) : Option (Nat × Nat) :=
  let others := c.otherLayouts h
  let n := l.groups.length
  let spares := (l :: others).flatMap (fun o => maskList o.spare 16)
  let fault := fun (code field : Nat) (bad : Nat → RegionEnt → Bool) => regionFault code field n l.regions bad
  (fault 0x30 0 (fun i e => (l.regions.take i).any (fun x => x.num == e.num)))
  <|> (fault 0x31 0 (fun _ e => others.any (fun o => o.regions.any (fun x => x.num == e.num))))
  <|> (fault 0x32 2 (fun _ e => e.channels == 0 || e.channels &&& (0xFF - l.channels) != 0))
  <|> (fault 0x33 8 (fun _ e => e.size == 0 || decide (16384 < e.offset + e.size)))
  <|> (fault 0x34 4 (fun _ e => spares.any (fun k => e.onRank k)))
  <|> (fault 0x35 4 (fun i e => (l.regions.take i).any (fun x => e.meets x) || others.any (fun o => o.regions.any (fun x => e.meets x))))
  <|> (fault 0x36 1 (fun _ e => e.colander && e.ecc))
  <|> (fault 0x37 2 (fun _ e => e.colander && popCount e.channels 8 != 1))
  <|> (fault 0x38 1 (fun _ e => e.picture && e.hostread))

/-- The first of rules 0x10 to 0x38 that a layout fails now, with the offset of the field. -/
def Card.rulesFault (c : Card) (h : Nat) (l : Layout) : Option (Nat × Nat) :=
  c.resourceFault h l <|> c.groupsFault h l <|> c.regionsFault h l

/-- The card's stepping, as an image names it. -/
def Card.stepping (c : Card) : Nat := c.f (mg 0x0004) 15 0

/-- An image checked as a whole for hamper `h`: the layout, or the code and offset of the first rule that fails. -/
def Card.checkImage (c : Card) (h : Nat) (img : List Byte) (fromDefault : Bool) : Except (Nat × Nat) Layout :=
  match formFault img h c.stepping with
  | some f => .error f
  | none =>
    let l := readLayout img fromDefault
    match c.rulesFault h l with
    | some f => .error f
    | none => .ok l

/-- Some unit of the layout is removed from its group (R52 MASKED). -/
def Card.masked (c : Card) (h : Nat) (l : Layout) : Bool :=
  l.groups.any (fun g => (maskList g.units 16).any (fun u => !c.unitOk h l.mode g.cls u))

/-- Some channel of the layout is named by another hamper's layout (R51 SHARED). -/
def Card.shares (c : Card) (h : Nat) (l : Layout) : Bool := (c.otherLayouts h).any (fun o => o.channels &&& l.channels != 0)

/-- MASKED and SHARED after a check of a layout, whatever the check found (R51, R52). -/
def Card.noteCheck (c : Card) (h : Nat) (l : Layout) : Card :=
  (c.setBit (mg 0x6004) 30 (c.masked h l)).setBit (mg 0x6004) 29 (c.shares h l)

/-- The same for an image: one that fails a rule of form (0x01 to 0x08) has no groups that R52 could mask
(DEDUCED, assumption log entry 13). -/
def Card.noteImage (c : Card) (h : Nat) (img : List Byte) : Card :=
  let l := readLayout img false
  if (formFault img h c.stepping).isSome then (c.setBit (mg 0x6004) 30 false).setBit (mg 0x6004) 29 (c.shares h l)
  else c.noteCheck h l

/-! ### The loader (R61, R62, R71, R73) -/

/-- MG_LAYOUT_STATE of hamper `h`. -/
def layState (h : Nat) : Nat := mg (0x6030 + 4 * h)

/-- RESULT and FAULT_OFFSET of a completed command, BUSY 0, and vector 6. -/
def Card.loaderResult (c : Card) (code off : Nat) : Card :=
  let k := mg 0x6004
  ((((c.setBit k 31 false).setF k 23 16 code).setF k 10 0 off).raise 0 6)

/-- LAST_RESULT of hamper `h`
(DEDUCED, assumption log entry 66). -/
def Card.lastResult (c : Card) (h code : Nat) : Card := c.setF (layState h) 15 8 code

/-- The current keep-store image; an empty image holds no section (R488). -/
def Card.keepImage (c : Card) : List Byte :=
  match c.f (mg 0x3004) 21 20 with
  | 1 => (tabGet {} c.keep.banks 0 : KsBank).data
  | 2 => (tabGet {} c.keep.banks 1 : KsBank).data
  | _ => []

/-- A DEFAULT_LAYOUT section put into the staging image
(DEDUCED, assumption log entry 65). -/
def stageDefault (staging : List Byte) (h : Nat) (img : List Byte) : List Byte :=
  ksBuild (leAt staging 8 4) (ksPut ⟨2, h, 2, img⟩ (ksList staging))

/-- Retention bits that regions of active and pending layouts hold at 1 (R189). -/
def Card.holdRetain (c : Card) : Card :=
  (List.range 4).foldl (fun c i => c.setReg (mg (0x8040 + 4 * i)) (c.reg (mg (0x8040 + 4 * i)) ||| BitVec.ofNat 32 (retainMask c.retained i))) c

/-- The window's bytes (R62). -/
def Card.layoutWindow (c : Card) : List Byte := (List.range 512).flatMap (fun i => leBytes 4 (c.reg (mg (0x6800 + 4 * i))).toNat)

/-- Bytes copied into the window from its start; the rest of it stays. -/
def Card.fillWindow (c : Card) (img : List Byte) : Card :=
  let w := img.take 2048 ++ c.layoutWindow.drop img.length
  (List.range 512).foldl (fun c i => c.setN (mg (0x6800 + 4 * i)) (leAt w (4 * i) 4)) c

/-- A write of MG_LAYOUT_CTL with GO 1 and one of the commands (R62): dropped while a command runs. -/
def Card.loaderGo (c : Card) (cmd h : Nat) (go : Card → Card) : Card :=
  if c.loader.isSome then c.bump (mg 0x6008) 1
  else
    let c := (c.setF (mg 0x6000) 7 4 cmd).setF (mg 0x6000) 1 0 h
    if c.frozen then c.loaderResult 0x40 0 else go c

/-- A command of hamper `h` begins. -/
def Card.loaderStart (c : Card) (cmd h : Nat) : Card := { c.setBit (mg 0x6004) 31 true with loader := some ⟨cmd, h⟩ }

/-- The loader has no job. -/
def Card.loaderIdle (c : Card) : Card := { c with loader := none }

/-- A hamper's default layout is written into the keep store's staging area (R61, SET_DEFAULT). -/
def Card.stageImage (c : Card) (h : Nat) (img : List Byte) : Card :=
  { c with keep := { c.keep with staging := stageDefault c.keep.staging h img } }

/-- A command ends at once with an outcome that LAST_RESULT records too (R61). -/
def Card.loaderEnd (c : Card) (h code : Nat) : Card := (c.lastResult h code).loaderResult code 0

/-- LAYOUT_CHECK (R62). -/
def execLayoutCheck (h : Fin 4) (s : State) : Host.Outcome State Fault Refusal :=
  s.run fun c => c.hostWrite .pf0 0x6000 fun c => c.loaderGo 1 h.val fun c => c.loaderStart 1 h.val

/-- LAYOUT_LOAD (R62, R73). -/
def execLayoutLoad (h : Fin 4) (s : State) : Host.Outcome State Fault Refusal :=
  s.run fun c => c.hostWrite .pf0 0x6000 fun c => c.loaderGo 2 h.val fun c =>
    if c.bit (mg (0x0010 + 4 * h.val)) 31 then c.loaderStart 2 h.val else c.loaderEnd h.val 0x43

/-- SET_DEFAULT (R62): while a keep-store command runs it is dropped (R504). -/
def execSetDefault (h : Fin 4) (s : State) : Host.Outcome State Fault Refusal :=
  s.run fun c => c.hostWrite .pf0 0x6000 fun c =>
    if c.bit (mg 0x3004) 31 then c.bump (mg 0x6008) 1
    else c.loaderGo 3 h.val fun c => c.loaderStart 3 h.val

/-- LOAD_DEFAULT (R61, R62): the stored default goes into the window. -/
def execLoadDefault (h : Fin 4) (s : State) : Host.Outcome State Fault Refusal :=
  s.run fun c => c.hostWrite .pf0 0x6000 fun c => c.loaderGo 4 h.val fun c =>
    if !c.bit (mg (0x0010 + 4 * h.val)) 31 then c.loaderEnd h.val 0x43
    else match ksFind c.keepImage 2 h.val with
      | none => c.loaderEnd h.val 0x41
      | some img => (c.fillWindow img).loaderStart 4 h.val

/-- LOADER_BAD_COMMAND (R61): an unlisted CMD completes at once and changes no LAST_RESULT. The field holds what was written
(DEDUCED, assumption log entry 84). -/
def execLoaderBadCommand (v : Word) (s : State) : Host.Outcome State Fault Refusal :=
  s.run fun c => c.hostWrite .pf0 0x6000 fun c =>
    if fld v 31 31 = 0 ∨ (1 ≤ fld v 7 4 ∧ fld v 7 4 ≤ 4) then c
    else if c.loader.isSome then c.bump (mg 0x6008) 1
    else
      let c := (c.setF (mg 0x6000) 7 4 (fld v 7 4)).setF (mg 0x6000) 1 0 (fld v 1 0)
      if c.frozen then c.loaderResult 0x40 0 else c.loaderResult 0x42 0

/-- A layout is held pending (R62, R67); a hamper that is not started starts at once (R68). A LOAD that passes while the
hamper's start is under way waits for the next start (DESIGN CHOICE, assumption log entry 128). -/
def Card.makePending (c : Card) (h : Nat) (l : Layout) : Card :=
  let c : Card := { c with pendLay := tabPut none c.pendLay h (some l) }
  let c := ((c.setN (mg (0x6020 + 4 * h)) l.imageId).setBit (layState h) 2 true).holdRetain
  let f := c.fnOf (h + 1)
  if f.phase = .off then c.setFn (h + 1) { f with phase := .starting, cause := 5 } else c

/-- LAYOUT_COMMAND_DONE (R60 to R62): the image in the window is checked, and what the command asks for is done when it
passes. A freeze suspends the check (R71). -/
def execLayoutCommandDone (s : State) : Host.Outcome State Fault Refusal :=
  s.run fun c => match c.loader with
    | none => c
    | some j =>
      if !c.live then c
      else
        let h := j.hamper
        let img := c.layoutWindow
        let c := c.loaderIdle.noteImage h img
        match c.checkImage h img (j.cmd == 4) with
        | .error f => (c.lastResult h f.1).loaderResult f.1 f.2
        | .ok l =>
          let c := (c.lastResult h 0).loaderResult 0 0
          if j.cmd = 2 ∨ j.cmd = 4 then c.makePending h l
          else if j.cmd = 3 then c.stageImage h (img.take (imgLength img))
          else c

/-! ### Application (R63, R90 steps 6 and 7) -/

/-- A region's span holds a channel address. -/
def RegionEnt.spans (e : RegionEnt) (ch a : Nat) : Bool :=
  nbit e.channels ch && decide (e.offset * 0x200000 ≤ a) && decide (a < (e.offset + e.size) * 0x200000)

/-- Hamper `h`'s regions filled with zeros, check lines with them (R63). The part on the chunk that a migration is copying is
held until the chunk is copied (R204). -/
def Card.zeroFill (c : Card) (h : Nat) (l : List RegionEnt) : Card :=
  let now := (l.flatMap RegionEnt.rowSpans).flatMap (fun x => match c.copying with
    | some q => if q.1 = x.1 then (cutSpan q.2 (q.2 + 1) [x.2]).map (fun s => (x.1, s)) else [x]
    | none => [x])
  let held := l.filter (fun e => match c.copying with
    | some q => e.rowSpans.any (fun x => x.1 == q.1 && decide (x.2.1 ≤ q.2) && decide (q.2 < x.2.2))
    | none => false)
  { c.zeroRows now with heldAcc := c.heldAcc ++ held.map (fun e =>
      { fnNum := 0, hamper := h, region := e.num, off := (c.copying.map (fun q => q.2)).getD 0, len := 0, wdata := none, fill := true }) }

/-- The regions of a layout that are new, or differ in placement or attributes from the active layout's. -/
def newRegions (old : Option Layout) (l : Layout) : List RegionEnt :=
  l.regions.filter (fun e => !(old.any (fun o => o.regions.contains e)))

/-- Aperture entries of every function that name a region which no active layout declares read VALID 0 (R154). -/
def Card.dropAperture (c : Card) : Card :=
  let ks := hampers.flatMap (fun h => (List.range 64).map (fun e => aperReg h none e) ++
    (List.range 8).flatMap (fun v => (List.range 8).map (fun e => aperReg h (some v) e)))
  ks.foldl (fun c k => if c.bit k 31 && (c.regionOf (c.f k 7 0)).isNone then c.setBit k 31 false else c) c

/-- The spares of a layout taken, those of the old one that it leaves given back (R57). -/
def Card.applySpares (c : Card) (old : Option Layout) (l : Layout) : Card :=
  (List.range 16).foldl (fun c k =>
    if nbit l.spare k then (if c.rankState k = 1 then c.setRank k 2 (c.rankPeer k) else c)
    else if old.any (fun o => nbit o.spare k) && c.rankState k == 2 then c.setRank k 1 (c.rankPeer k)
    else c) c

/-- The function has started (R63, R90 step 7): STARTED and READY are 1, each ring's generation has advanced, but not at
bring-up and not at a start by LOAD, and vector 23 is raised. -/
def Card.fnReady (c : Card) (h : Nat) : Card :=
  let f := c.fnOf (h + 1)
  let k := hp h 0
  let c := if f.cause = 1 ∨ f.cause = 3 then
      (List.range 16).foldl (fun (c : Card) r => c.setRing h r { c.ring h r with gen := ((c.ring h r).gen + 1) % 65536 }) c else c
  let c := if (f.cause = 1 ∨ f.cause = 3) ∧ f.hot = false then c.bumpF (hp h 4) 15 0 1 else c
  let c := (c.setBit (layState h) 3 true).setBit (mg 0x0030) (16 + h) true
  let c := ((c.setF k 31 30 2).setF k 23 16 f.cause).setFn (h + 1) { phase := .ready, exposed := true }
  c.raise (h + 1) 23

/-- The verdict counts of the griddle units return to 0 when the mode changes (R423). -/
def Card.clearGriddleCounts (c : Card) (h : Nat) (old : Option Layout) (l : Layout) : Card :=
  if old.all (fun o => o.mode == l.mode) then c
  else { c.resetRegs (hp h 0xE0150) (hp h 0xE0170) with
    bursts := c.bursts.filter (fun e => decide (e.1 < 64 * h + 20) || decide (64 * h + 28 ≤ e.1)) }

/-- A layout applied to hamper `h`. -/
def Card.applyLayout (c : Card) (h : Nat) (l : Layout) : Card :=
  let old := c.lay h
  let fill := newRegions old l
  let c : Card := { c with active := tabPut none c.active h (some l), rot := c.rot.filter (fun e => e.1 / 16 != h) }
  let gone := (old.map (fun o => o.regions)).getD []
  let c : Card := { c with owners := c.owners.filter (fun e => !(gone.any (fun r => r.num == e.1) || l.regions.any (fun r => r.num == e.1))) }
  let c := (c.setN (mg (0x6010 + 4 * h)) l.imageId).setF (layState h) 1 0 (if l.fromDefault then 1 else 2)
  -- units that the repair map or the module map takes out of the groups show in MASKED (R52)
  let c := if c.masked h l then c.setBit (mg 0x6004) 30 true else c
  let c := (((c.clearGriddleCounts h old l).applySpares old l).holdRetain.zeroFill h fill).dropAperture
  let c := [0, 1].foldl (fun c p => c.recheckMsg h p) c
  if fill.isEmpty then c.fnReady h else c.setFn (h + 1) { c.fnOf (h + 1) with phase := .filling }

/-- LAYOUT_APPLICATION (R63, R90 step 6): the pending layout is checked again; the active one is applied again without a
check. The start waits for a loader command of this hamper. -/
def execLayoutApplication (h : Fin 4) (s : State) : Host.Outcome State Fault Refusal :=
  s.run fun c =>
    let h := h.val
    if !c.live || (c.fnOf (h + 1)).phase != .starting || c.loader.any (fun j => j.hamper == h) then c
    else
      let keepOld := fun (c : Card) => match c.lay h with
        | some l => c.applyLayout h l
        | none => c.setFn (h + 1) { c.fnOf (h + 1) with phase := .off }
      match tabGet none c.pendLay h with
      | none => keepOld c
      | some l =>
        let c : Card := { c with pendLay := tabPut none c.pendLay h none }
        let c := ((c.setBit (layState h) 2 false).setN (mg (0x6020 + 4 * h)) 0).noteCheck h l
        match c.rulesFault h l with
        | some f => keepOld (c.lastResult h f.1)
        | none => (c.lastResult h 0).applyLayout h l

/-- ZERO_FILL_DONE (R63, R90 step 7). -/
def execZeroFillDone (h : Fin 4) (s : State) : Host.Outcome State Fault Refusal :=
  s.run fun c =>
    if c.live && (c.fnOf (h.val + 1)).phase == .filling && !c.heldAcc.any (fun x => x.fill && x.hamper == h.val) then c.fnReady h.val
    else c

end Sys2Proof.Machine
end

