-- ==== Sys2Proof/Machine/Track.lean ====
section
/-! DEFINITION. The track scheduler (spec/15 R353 to R358, R365 to R375): step requests, continuous batching, updates, the
weight set, and WITHDRAW. -/

namespace Sys2Proof.Machine

/-! ### The table -/

/-- The live-track limit (R53). -/
def Card.trackLimit (c : Card) (h : Nat) : Nat := min 4096 ((c.sramPart h).2.2 / 2048)

/-- The offset of a track's state half in SRAM (R353): the track state lies behind pool space and staging. -/
def Card.halfAt (c : Card) (h idx half : Nat) : Nat :=
  (c.sramPart h).1 + (c.sramPart h).2.1 + 2048 * idx + (if half = 0 then 0x40 else 0x420)

/-- Track `idx`. -/
def Tracker.track (t : Tracker) (idx : Nat) : Track := tabGet {} t.tracks idx

/-- TRACK_ID (R353): the index and the 20-bit SERIAL. -/
def trackId (idx serial : Nat) : Nat := idx + 4096 * (serial % 2 ^ 20)

/-- KV_BASE, KV_STRIDE, TOKEN_BYTES and CAP (R369). -/
def Card.kvGeom (c : Card) (h : Nat) : Nat × Nat × Nat × Nat :=
  (c.pair (hp h 0xB0008) (hp h 0xB000C), c.f (hp h 0xB0010) 19 0 * 4096, c.f (hp h 0xB0014) 31 16, c.f (hp h 0xB0014) 12 0)

/-- The track commands' common checks (R368): the KV fields are set, and the hamper has track capacity. -/
def Eng.trackReady (ok : Bool) : Eng Unit := do
  let c ← Eng.card
  let h ← Eng.hamper
  let kv := c.kvGeom h
  Eng.check (ok && kv.1 != 0 && kv.2.1 != 0 && kv.2.2.2 != 0) 0xE9
  Eng.check (c.trackLimit h != 0) 0xEA

/-- A range lies in a region that is not PICTURE (and, where asked, is ECC). -/
def Card.plainRange (c : Card) (h ctx va n : Nat) (ecc : Bool) : Bool :=
  (pagesOf va n).all (fun p => match c.translate h ctx p with
    | .ok l => match l.to_ with
      | .card reg _ => (c.regionOf reg).all (fun x => !x.2.picture && (!ecc || x.2.ecc))
      | _ => !ecc
    | .error _ => true)

/-! ### STEP (R355, R365, R374) -/

/-- The fields of STEP lie within R365. -/
def stepInRange (b : List Byte) : Bool :=
  let f := fun (a n : Nat) => leAt b a n
  let dets := f 0x16 2
  let leaves := f 0x18 2
  decide (dets ≤ 1024) && decide (leaves ≤ 1024) && f 0 8 % 32 == 0 && f 8 8 % 4 == 0 && (dets != 0 || f 0 8 == 0) &&
  (leaves != 0 || f 8 8 == 0) && (decide (f 0x14 2 < 64) || (decide (0x100 ≤ f 0x14 2) && decide (f 0x14 2 ≤ 0x10F))) &&
  (decide (f 0x1C 2 < 4096) || f 0x1C 2 == 0xFFFF) && f 0x1E 2 == 0

/-- The entries of a step request: CONT and END in rising track index, then JOIN in list order; with the number of leave
entries that name no LIVE track of the request. -/
def Card.stepEntries (c : Card) (h ctx stream : Nat) (leaves : List Nat) (dets : List (List Byte)) : List StepEntry × Nat :=
  let t := c.tracker h
  let live := (List.range (c.trackLimit h)).filter (fun i =>
    (t.track i).state == 1 && (t.track i).stream == stream && (t.track i).ctx == ctx)
  let id := fun (i : Nat) => trackId i (t.track i).serial
  let miss := c.f (hp h 0xB0004) 7 0
  let old := live.map (fun i => ({ id := id i, kind := if leaves.contains (id i) || (miss != 0 && decide (miss ≤ (t.track i).now.misses)) then 3 else 1,
                                   idx := i, det := [] } : StepEntry))
  (old ++ dets.map (fun d => ({ kind := 2, idx := 0, det := d } : StepEntry)),
   (leaves.filter (fun l => !(live.any (fun i => id i == l)))).length)

/-- The requests that have no entry left are finished, with their DONE_SEM (R357, R360). -/
def Card.settleReqs (c : Card) (h : Nat) : Card :=
  let t := c.tracker h
  let done_ := fun (q : StepReq) => q.entries.isEmpty && q.open_ == 0
  (t.reqs.filter done_).foldl (fun c q =>
    if q.doneSem = 0xFFFF then c
    else if c.unsettled h q.epoch then
      c.setTracker h { c.tracker h with pendingSigs := (c.tracker h).pendingSigs ++ [(q.epoch, 4096 * h + q.doneSem, q.frame + 1)] }
    else c.semApply (4096 * h + q.doneSem) 0 (q.frame + 1)) (c.setTracker h { t with reqs := t.reqs.filter (fun q => !done_ q) })

/-- The work of STEP: the request is registered; with 256 pending it waits (R369)
(DEDUCED, assumption log entry 49). -/
def stepWork : Eng Unit := do
  let o ← Eng.op
  let h ← Eng.hamper
  let r ← Eng.ring
  let c ← Eng.card
  let b := o.body
  let f := fun (a n : Nat) => leAt b a n
  let e := f 0x1A 2
  let st := (c.epochOf h e).state
  Eng.trackReady (stepInRange b && c.plainRange h o.ctx (f 0 8) (32 * f 0x16 2) false && (e == 0 || st == 1 || st == 3))
  if e ≠ 0 ∧ st = 3 then throw (.finish stCancelled 0xEC e)
  Eng.check (f 0x1C 2 == 0xFFFF || (match c.ringVf h r with | some v => c.vfHasSem h v (f 0x1C 2) | none => true)) 7
  if c.stepWaits h o then throw .stay
  Eng.join e
  Eng.wants [(f 0 8, 32 * f 0x16 2), (f 8 8, 4 * f 0x18 2)]
  let dets ← Eng.rd (f 0 8) (32 * f 0x16 2)
  Eng.check ((List.range (f 0x16 2)).all (fun i => let k := leAt dets (32 * i + 0x10) 4
    k % 64 == 0 && decide (k + 992 ≤ (c.staging h).2) && leNat ((dets.drop (32 * i + 0x14)).take 12) == 0)) 0xE9
  let leaves ← Eng.rd (f 8 8) (4 * f 0x18 2)
  let es := c.stepEntries h o.ctx (f 0x14 2) ((List.range (f 0x18 2)).map (fun i => leAt leaves (4 * i) 4))
    ((List.range (f 0x16 2)).map (fun i => (dets.drop (32 * i)).take 32))
  Eng.upd (fun c =>
    let t := c.tracker h
    let q : StepReq := { order := t.nextReq, ring := r, fnNum := o.fnNum, ctx := o.ctx, lc := c.ringClass h r == 1, stream := f 0x14 2, frame := f 0x10 4, epoch := e, doneSem := f 0x1C 2, entries := es.1, open_ := 0 }
    ((c.setTracker h { t with nextReq := t.nextReq + 1, reqs := t.reqs ++ [q] }).bump (hp h 0xB0028) es.2).settleReqs h)

/-- TRACK_STEP. -/
def execTrackStep (h : Fin 4) (r : Fin 16) (seq : Nat) (s : State) : Host.Outcome State Fault Refusal :=
  s.run fun c => c.engine h.val r.val seq 6 0x01 stepWork

/-! ### BATCH (R355, R356, R367, R372) -/

/-- The pending requests in the order of R355. -/
def reqOrder (l : List StepReq) : List StepReq := l.filter (fun q => q.lc) ++ l.filter (fun q => !q.lc)

/-- What a BATCH has taken while it goes through the entries. -/
structure Taking where
  pos : List BatchPos := []
  epoch : Option Nat := none
  stopped : Bool := false
  gone : List (Nat × Nat) := []            -- entries whose track has ended since, by request and index
  drops : Nat := 0
  dropped : List (Nat × List Byte) := []   -- detections dropped because the table was full, by request

/-- The lowest FREE index that the batch has not yet given out (R353). -/
def Card.joinIndex (c : Card) (h : Nat) (k : Taking) : Option Nat :=
  (List.range (c.trackLimit h)).find? (fun i => ((c.tracker h).track i).state == 0 && !(k.pos.any (fun p => p.idx == i)))

/-- The track of an entry has ended since the STEP that made it: the entry is dropped (DESIGN CHOICE, assumption log entry 143). -/
def Card.entryGone (c : Card) (h : Nat) (e : StepEntry) : Bool :=
  let t := (c.tracker h).track e.idx
  e.kind != 2 && (t.state == 0 || trackId e.idx t.serial != e.id)

/-- One entry: not eligible, dropped, taken, or the end of the batch. -/
def Card.takeEntry (c : Card) (h maxN : Nat) (q : StepReq) (k : Taking) (e : StepEntry) : Taking :=
  let t := c.tracker h
  let ep := if c.unsettled h q.epoch then q.epoch else 0
  let busy := e.kind != 2 && (k.pos.any (fun p => p.idx == e.idx) || c.unsettled h (t.track e.idx).epoch ||
    t.reqs.any (fun q' => decide (q'.order < q.order) && q'.entries.any (fun x => x.kind != 2 && x.idx == e.idx)))
  if k.stopped then k
  else if c.entryGone h e then { k with gone := k.gone ++ [(q.order, e.idx)] }
  else if busy then k
  else if maxN ≤ k.pos.length ∨ k.epoch.any (fun x => x != ep) then { k with stopped := true }
  else
    let add := fun (i : Nat) => { k with epoch := some ep, pos := k.pos ++ [({ req := q.order, kind := e.kind, idx := i, det := e.det, frame := q.frame, stream := q.stream, ctx := q.ctx, fnNum := q.fnNum, lc := q.lc, doneSem := q.doneSem } : BatchPos)] }
    if e.kind = 2 then
      match c.joinIndex h k with
      | some i => add i
      | none => { k with drops := k.drops + 1, dropped := k.dropped ++ [(q.order, e.det)] }
    else add e.idx

/-- Everything a BATCH takes. -/
def Card.takeAll (c : Card) (h maxN : Nat) : Taking :=
  (reqOrder (c.tracker h).reqs).foldl (fun k q => q.entries.foldl (fun k e => c.takeEntry h maxN q k e) k) {}

/-- The bucket of a count (R356). -/
def bucketOf (n : Nat) : Nat :=
  if n = 0 then 0 else ([8, 16, 32, 64, 128, 256, 512, 1024].find? (fun b => decide (n ≤ b))).getD 1024

/-- An entry of a request has been taken or dropped. -/
def Taking.has (k : Taking) (q : StepReq) (e : StepEntry) : Bool :=
  if e.kind = 2 then k.pos.any (fun p => p.req == q.order && p.kind == 2 && p.det == e.det) || k.dropped.contains (q.order, e.det)
  else k.pos.any (fun p => p.req == q.order && p.kind != 2 && p.idx == e.idx) || k.gone.contains (q.order, e.idx)

/-- An entry of the batch table (R367). -/
def Card.tableRow (c : Card) (h : Nat) (p : BatchPos) : List Byte :=
  let t := c.tracker h
  let serial := if p.kind = 2 then tabGet 0 t.serials p.idx + 1 else (t.track p.idx).serial
  leBytes 4 (trackId p.idx serial) ++ leBytes 2 p.idx ++ leBytes 1 p.kind ++ leBytes 1 (if p.lc then 1 else 2) ++
  leBytes 2 p.stream ++ leBytes 2 (if p.kind = 2 then 0 else (t.track p.idx).now.len) ++ leBytes 4 p.frame ++
  leBytes 4 (if p.kind = 2 then leAt p.det 0xC 4 else 0) ++ List.replicate 12 0

/-- Staging written by a BATCH, its lines tagged with the batch's epoch. -/
def Eng.stPut (e off : Nat) (bs : List Byte) : Eng Unit := do
  let h ← Eng.hamper
  Eng.upd (fun c => c.stWrite h off e bs)

/-- Staging that a BATCH gathers from: what its own epoch wrote does not bind it (R360); what another did, does (R359). -/
def Eng.stGather (e off n : Nat) : Eng (List Byte) := do
  let c ← Eng.card
  let h ← Eng.hamper
  for l in stLines off n do
    let tag := tabGet 0 c.stTag (stLine h l)
    if tag ≠ e then
      if e ≠ 0 ∧ c.unsettled h tag then throw (.finish stCancelled 0x22 e)
      Eng.join tag
  Eng.sram ((c.staging h).1 + off) n

/-- The state, cache and mask of position `i` gathered into staging (R356). -/
def gatherPos (e stateOff kvOff maskOff i : Nat) (p : Option BatchPos) : Eng Unit := do
  let h ← Eng.hamper
  let c ← Eng.card
  let (base, stride, tok, cap) := c.kvGeom h
  let kvp := roundUp (cap * tok) 64
  let mp := roundUp (2 * cap) 64
  let t := c.tracker h
  let pad := fun (n : Nat) (bs : List Byte) => (bs ++ List.replicate n 0).take n
  match p with
  | none =>
    Eng.stPut e (stateOff + 1024 * i) (List.replicate 1024 0)
    Eng.stPut e (kvOff + kvp * i) (List.replicate kvp 0)
    Eng.stPut e (maskOff + mp * i) (List.replicate mp 0)
  | some p =>
    let now := (t.track p.idx).now
    let len := if p.kind = 2 then 0 else now.len
    let st ← if p.kind = 2 then Eng.stGather e (leAt p.det 0x10 4) 992 else Eng.sram (c.halfAt h p.idx now.half) 992
    let toks ← (List.range len).mapM (fun j => Eng.rd (base + p.idx * stride + (now.first + j) % cap * tok) tok)
    Eng.stPut e (stateOff + 1024 * i) (pad 1024 st)
    Eng.stPut e (kvOff + kvp * i) (pad kvp toks.flatten)
    Eng.stPut e (maskOff + mp * i) (pad mp ((List.range cap).flatMap (fun j => leBytes 2 (if j < len then 0 else 0xFBFF))))

/-- A power of two from 8 to 1,024. -/
def pow2ok (n : Nat) : Bool := [8, 16, 32, 64, 128, 256, 512, 1024].contains n

/-- The work of BATCH: with a batch open it waits (R357)
(DEDUCED, assumption log entry 50). -/
def batchWork : Eng Unit := do
  let o ← Eng.op
  let h ← Eng.hamper
  let c ← Eng.card
  let b := o.body
  let f := fun (a n : Nat) => leAt b a n
  if (c.tracker h).batch.isSome then throw .stay
  let k := c.takeAll h (f 0x14 2)
  let n := k.pos.length
  let bucket := bucketOf n
  let (_, _, tok, cap) := c.kvGeom h
  let fits := fun (off pitch : Nat) => decide (off + bucket * pitch ≤ (c.staging h).2)
  Eng.trackReady (f 0 8 % 64 == 0 && f 8 4 % 64 == 0 && f 0xC 4 % 64 == 0 && f 0x10 4 % 64 == 0 && pow2ok (f 0x14 2) &&
    leNat (b.drop 0x16) == 0 && c.plainRange h o.ctx (f 0 8) (64 + 32 * bucket) false &&
    fits (f 8 4) 1024 && fits (f 0xC 4) (roundUp (cap * tok) 64) && fits (f 0x10 4) (roundUp (2 * cap) 64))
  let e := k.epoch.getD 0
  let t := c.tracker h
  let stepNo := t.steps + 1
  let ver := (c.reg (hp h 0xB0020)).toNat
  let count := fun (kind : Nat) => (k.pos.filter (fun p => p.kind == kind)).length
  let head := leBytes 2 n ++ leBytes 2 bucket ++ leBytes 2 (count 1) ++ leBytes 2 (count 3) ++ leBytes 2 (count 2) ++ leBytes 2 e ++
    leBytes 4 (if n = 0 then t.steps else stepNo) ++ leBytes 4 ver ++ leBytes 2 cap ++ List.replicate 42 0
  for i in List.range bucket do gatherPos e (f 8 4) (f 0xC 4) (f 0x10 4) i k.pos[i]?
  let rows := (List.range bucket).flatMap (fun i => match k.pos[i]? with | some p => c.tableRow h p | none => List.replicate 32 0)
  Eng.wr (f 0 8) (head ++ rows)
  Eng.upd (fun c =>
    let t := c.tracker h
    let reqs := t.reqs.map (fun (q : StepReq) => { q with
      entries := q.entries.filter (fun e => !k.has q e), open_ := q.open_ + (k.pos.filter (fun p => p.req == q.order)).length })
    let c := ((c.setTracker h { t with reqs := reqs }).bump (hp h 0xB0024) k.drops).settleReqs h
    if n = 0 then c
    else (c.setTracker h { c.tracker h with steps := stepNo, batch := some { pos := k.pos, epoch := e, stepNo := stepNo, ver := ver, at_ := c.ns } }).bump (hp h 0xB0030) 1)
  Eng.updOp (fun o => { o with ext := bucket, epoch := none })

/-- TRACK_BATCH. -/
def execTrackBatch (h : Fin 4) (r : Fin 16) (seq : Nat) (s : State) : Host.Outcome State Fault Refusal :=
  s.run fun c => c.engine h.val r.val seq 6 0x02 batchWork

/-! ### UPDATE (R357, R360, R366, R387) -/

/-- The header flags of a TRACK record: those of the picture of the stream with the frame's output number (R382)
(DEDUCED, assumption log entry 51). -/
def Card.frameFlags (c : Card) (h stream frame : Nat) : Nat :=
  if stream < 64 then
    ((c.stream h stream).bind (fun t => (t.pics.find? (fun p => p.output == some frame)).map (fun p => p.recFlags))).getD 0
  else 0

/-- A TRACK record (R387). -/
def trackRecord (flags epoch id : Nat) (p : BatchPos) (res : List Byte) (now : TrackNow) (ver stepNo : Nat) : List Byte :=
  let lost := nbit (leAt res 0x10 1) 0
  recBytes (recHeader 2 (flags + (if p.kind = 3 then 8 else 0)) p.stream p.frame id epoch (if lost then 0 else leAt res 0xC 2 / 257))
    (res.take 16 ++ leBytes 4 now.age ++ leBytes 1 now.misses ++ leBytes 1 p.kind ++ leBytes 1 (b2n lost) ++ leBytes 1 0 ++
     leBytes 4 (if p.kind = 2 then leAt p.det 0xC 4 else 0) ++ leBytes 4 ver ++ leBytes 4 stepNo)

/-- One position updated: the new half and token, the track's figures (R354, R357), and its record. -/
def updatePos (b : Batch) (resOff stateOff kvOff i : Nat) (p : BatchPos) : Eng Unit := do
  let h ← Eng.hamper
  let c ← Eng.card
  let (base, stride, tok, cap) := c.kvGeom h
  let res ← Eng.stRd (resOff + 32 * i) 32
  let st ← Eng.stRd (stateOff + 1024 * i) 992
  let kv ← Eng.stRd (kvOff + roundUp tok 64 * i) tok
  let t := c.tracker h
  let old := t.track p.idx
  let join := p.kind == 2
  let serial := if join then tabGet 0 t.serials p.idx + 1 else old.serial
  let lost := nbit (leAt res 0x10 1) 0
  let before : TrackNow := if join then { half := 1 } else old.now
  let full := decide (cap ≤ before.len)
  let now : TrackNow := { age := if join then 0 else old.now.age + 1, misses := if join then 0 else if lost then min 255 (old.now.misses + 1) else 0, first := if full then (before.first + 1) % cap else before.first, len := if full then cap else before.len + 1, half := 1 - before.half }
  let spec := c.unsettled h b.epoch
  let tr : Track :=
    if join then { state := if spec then 2 else 1, serial := serial, stream := p.stream, ctx := p.ctx, fnNum := p.fnNum, lc := p.lc, now := if spec then {} else now, epoch := if spec then b.epoch else 0, prov := if spec then some now else none }
    else if spec then { old with state := if p.kind = 3 then 3 else old.state, epoch := b.epoch, prov := some now }
    else if p.kind = 3 then { serial := serial } else { old with now := now }
  let slot := (before.first + before.len) % cap
  Eng.wrUnder none (base + p.idx * stride + slot * tok) kv
  Eng.upd (fun c => c.sramPut h (c.halfAt h p.idx now.half) st)
  Eng.upd (fun c =>
    let t := c.tracker h
    c.setTracker h { t with tracks := tabPut {} t.tracks p.idx (if tr.state = 0 then {} else tr), serials := if join then tabPut 0 t.serials p.idx serial else t.serials })
  let rec_ := trackRecord (c.frameFlags h p.stream p.frame) (if spec then b.epoch else 0) (trackId p.idx serial) p res now b.ver b.stepNo
  Eng.updOp (fun o => { o with records := o.records ++ [rec_] })

/-- The open batch is done: its entries have been updated. -/
def Card.finishBatch (c : Card) (h : Nat) (b : Batch) : Card :=
  let t := c.tracker h
  ((c.setTracker h { t with reqs := t.reqs.map (fun (q : StepReq) =>
    { q with open_ := q.open_ - (b.pos.filter (fun p => p.req == q.order)).length }) }).closeBatch h).settleReqs h

/-- The work of UPDATE. -/
def updateWork : Eng Unit := do
  let o ← Eng.op
  let h ← Eng.hamper
  let c ← Eng.card
  let b := o.body
  let f := fun (a n : Nat) => leAt b a n
  match (c.tracker h).batch with
  | none =>
    Eng.trackReady (f 0xC 4 == 0)
    Eng.refuse 0xEB
  | some k =>
    let (_, _, tok, _) := c.kvGeom h
    let n := k.pos.length
    let fits := fun (off pitch : Nat) => decide (off + n * pitch ≤ (c.staging h).2)
    Eng.trackReady (f 0xC 4 == 0 && fits (f 0 4) 32 && fits (f 4 4) 1024 && fits (f 8 4) (roundUp tok 64))
    if k.withdrawn then
      Eng.upd (fun c => c.closeBatch h)
      throw (.finish stCancelled 0xEC k.epoch)
    Eng.join k.epoch
    for x in k.pos.zipIdx do updatePos k (f 0 4) (f 4 4) (f 8 4) x.2 x.1
    Eng.upd (fun c => c.finishBatch h k)

/-- TRACK_UPDATE. -/
def execTrackUpdate (h : Fin 4) (r : Fin 16) (seq : Nat) (s : State) : Host.Outcome State Fault Refusal :=
  s.run fun c => c.engine h.val r.val seq 6 0x03 updateWork

/-! ### SWAP and WITHDRAW -/

/-- The work of SWAP (R358): the copy happens with no batch open, and WSET_VER rises. -/
def swapWork : Eng Unit := do
  let o ← Eng.op
  let h ← Eng.hamper
  let c ← Eng.card
  let src := leAt o.body 0 8
  let n := leAt o.body 8 4
  Eng.trackReady (n % 64 == 0 && decide (n ≤ 0x4000000) && leAt o.body 0xC 4 == 0 && c.plainRange h o.ctx src n true)
  if (c.tracker h).batch.isSome then throw .stay
  let dst := c.pair (hp h 0xB0018) (hp h 0xB001C)
  Eng.want src n
  for k in chunks n do
    let bs ← Eng.rd (src + k.1) k.2
    Eng.wr (dst + k.1) bs
  Eng.upd (fun c => c.setN (hp h 0xB0020) ((c.reg (hp h 0xB0020)).toNat + 1))

/-- TRACK_SWAP. -/
def execTrackSwap (h : Fin 4) (r : Fin 16) (seq : Nat) (s : State) : Host.Outcome State Fault Refusal :=
  s.run fun c => c.engine h.val r.val seq 6 0x04 swapWork

/-- The work of WITHDRAW (R361, R365, R373, R380): a settled epoch refuses it; it waits while a RETRACTION finds no room. -/
def withdrawWork : Eng Unit := do
  let o ← Eng.op
  let h ← Eng.hamper
  let r ← Eng.ring
  let c ← Eng.card
  let e := leAt o.body 0 2
  Eng.trackReady (e != 0 && leNat (o.body.drop 2) == 0)
  Eng.check (c.unsettled h e) 0xED
  if !c.retractRoom h e (some r) then throw .stay
  let s := (c.epochOf h e).stream
  Eng.upd (fun c => (c.withdrawEpoch h e 3 (some r)))
  if s < 64 then Eng.upd (fun c => c.bump (hp h (0x6101C + 0x40 * s)) 1)

/-- TRACK_WITHDRAW. -/
def execTrackWithdraw (h : Fin 4) (r : Fin 16) (seq : Nat) (s : State) : Host.Outcome State Fault Refusal :=
  s.run fun c => c.engine h.val r.val seq 6 0x05 withdrawWork

end Sys2Proof.Machine
end

