-- ==== Sys2Proof/Machine/Reset.lean ====
section
/-! DEFINITION. Per-function reset (spec/04 R89 to R100): Function Level Reset of a hamper PF and of a VF, D3hot, and what
each clears (R91, R92; R47, R153, R170, R262, R283, R330, R375, R402). -/

namespace Sys2Proof.Machine

/-! ### Flushing rings -/

/-- A ring flushed: its operations in flight become FLUSHED reports that the ring holds after those it held already; a retry
under way is abandoned (R99, R421). Gives the number flushed
(DEDUCED, assumption log entry 68). -/
def Card.flushRing (c : Card) (h r : Nat) : Card × Nat :=
  let q := (c.ring h r).q
  let c := (q.filter (fun o => o.accepted && o.active)).foldl (fun c o => c.abandonRetry h r o) c
  let g := c.ring h r
  let older := (g.q.filter (fun o => !o.accepted && o.status == stFlushed)).map Op.toReport
  let mine := (g.q.filter Op.inFlight).map (fun o => (o.outcome stFlushed 0 0).toReport)
  let c := c.setRing h r { gen := g.gen, flushed := g.flushed ++ older ++ mine }
  let c := c.resetRegs (hp h (0x10000 + 0x1000 * r)) (hp h (0x11000 + 0x1000 * r))
  let c := (c.setRec h r {}).govDrop h r
  ({ c with
      reads := c.reads.map (fun (x : HostRead) => if x.hamper == h && x.ring == r then { x with discard := true } else x)
      remotes := c.remotes.filter (fun x => !(x.hamper == h && x.ring == r))
      heldSigs := c.heldSigs.filter (fun x => !(x.hamper == h && x.ring == r)) }, mine.length)

/-- Several rings flushed, with the number of operations. -/
def Card.flushRings (c : Card) (h : Nat) (rs : List Nat) : Card × Nat :=
  rs.foldl (fun (x : Card × Nat) r => let p := x.1.flushRing h r; (p.1, x.2 + p.2)) (c, 0)

/-- The running RUNs of some rings end at their next pass boundary (R330): the present pass's tile is written. -/
def Card.endPasses (c : Card) (h : Nat) (rs : List Nat) : Card :=
  ((c.allOps h).filter (fun x => rs.contains x.1 && x.2.cls == 3 && x.2.started && x.2.paused.isNone && x.2.phase == .running &&
    x.2.retryOn.isNone && !x.2.pass.isEmpty)).foldl (fun c x => c.runPart h x.1 x.2 endPass) c

/-- The preempted sets of flushed operations are no longer held (R330), and a unit whose latency-critical RUN was flushed goes back to
the RUN that it preempted (R316 step 4). -/
def Card.dropShadows (c : Card) (h : Nat) : Card :=
  (List.range 8).foldl (fun c u => if (c.pausedOn h u).isSome && (c.onUnit h 3 u).isSome then c else c.resumePaused h u) c

/-! ### A VF's state -/

/-- The provisional leaves of an epoch are forgotten. -/
def Card.dropProv (c : Card) (h e : Nat) : Card :=
  { c with provLeaves := c.provLeaves.filter (fun l => !(l.hamper == h && l.epoch == e)) }

/-- A sub-frame epoch that a reset cancels (R262, R402): its operations end and its buffers are freed, without a RETRACTION. -/
def Card.cancelEpoch (c : Card) (h e : Nat) : Card :=
  if !c.unsettled h e then c
  else
    let c := (c.dropRecords h e).cancelOps h e
    let c := c.setEpoch h e { c.epochOf h e with state := 3 }
    (((c.dropUnsettled h e).dropProv h e).withdrawTracks h e).settleSigs

/-- The streams of a VF closed: the epochs of their pictures are cancelled, their slices are free (R92, R262). -/
def Card.closeVfStreams (c : Card) (h n : Nat) : Card :=
  let mine := (c.streamsOf h).filter (fun x => x.2.fnNum == n)
  let c := c.abandonPics h (fun t => t.fnNum == n)
  let c := mine.foldl (fun c x => (x.2.pics.foldl (fun c p => c.cancelEpoch h p.epoch) c).cancelWaiters h x.1) c
  { c with
    streams := c.streams.filter (fun e => !(e.1 / 64 == h && mine.any (fun x => x.1 == e.1 % 64)))
    slices := c.slices.filter (fun e => !(e.1 / 16 == h && e.2.any (fun s => mine.any (fun x => x.1 == s)))) }

/-- Tracks, requests and batch positions of a VF ended without records (R375). -/
def Card.endVfTracks (c : Card) (h v n : Nat) : Card :=
  let t := c.tracker h
  let his := fun (fn ctx : Nat) => fn == n || c.vfHasCtx h v ctx
  let batch := t.batch.bind (fun b =>
    let ps := b.pos.filter (fun p => !his p.fnNum p.ctx)
    if ps.isEmpty then none else some { b with pos := ps })
  c.setTracker h { t with tracks := t.tracks.filter (fun x => !his x.2.fnNum x.2.ctx), reqs := t.reqs.filter (fun q => !his q.fnNum q.ctx),
                          batch := batch }

/-- The buffers of a VF's rings and contexts become FREE and are counted in RECLAIMS (R170); a buffer held under R418 stays. -/
def Card.reclaimVf (c : Card) (h v : Nat) (rs : List Nat) : Card :=
  let mine := fun (k : Nat) (b : Buf) => k / 2 ^ 24 == h && !b.held && (rs.contains b.ring || c.vfHasCtx h v b.ctx)
  let n := fun (p : Nat) => (c.bufs.filter (fun e => e.1 / 2 ^ 20 % 16 == p && e.2.any (mine e.1))).length
  let c' := (List.range 16).foldl (fun c p => if n p = 0 then c else c.bump (poolReg h p 0x28) (n p)) c
  c'.freeWhere mine

/-- The number of VF `v` of hamper `h`. -/
def vfNum (h v : Nat) : Nat := 8 + 8 * h + v

/-- The stream keys and cached translations of a virtual function's contexts are gone. -/
def Card.dropVfTables (c : Card) (h v : Nat) : Card :=
  { c with
    keys := c.keys.filter (fun e => !(e.1 / 64 == h && e.2.any (fun k => c.vfHasCtx h v k.ctx)))
    tlb := c.tlb.filter (fun e => !(e.1 / 2 ^ 36 == h && c.vfHasCtx h v (e.1 / 2 ^ 24 % 4096))) }

/-- What the reset of a VF clears (R92), with its rings flushed; gives the number flushed. -/
def Card.resetVf (c : Card) (h v : Nat) : Card × Nat :=
  let rs := (List.range 16).filter (fun r => c.ringVf h r == some v)
  let p := (c.endPasses h rs).flushRings h rs
  let c := ((p.1.dropShadows h).reclaimVf h v rs).closeVfStreams h (vfNum h v)
  let c := c.endVfTracks h v (vfNum h v)
  ((c.dropVfTables h v).resetRegs ((Space.vf h v).key 0x8000) ((Space.vf h v).key 0x10000), p.2)

/-! ### A PF's state -/

/-- A virtual channel after a PF reset (R91, R283): its frame is abandoned and its committed addresses are gone; an enabled one
waits for a Frame Start. -/
def Card.resetVc (c : Card) (h k : Nat) : Card :=
  let v := c.vc h k
  c.setVc h k (if v.state = 0 then v else { state := 1, frameNo := v.frameNo, lastAt := c.ns })

/-- The tables of a hamper's physical function are emptied; `declared` are the region numbers of its layout. -/
def Card.dropPfTables (c : Card) (h : Nat) (declared : Option (List Nat)) : Card :=
  { c with
    heldSigs := c.heldSigs.filter (fun x => x.hamper != h)
    epochs := c.epochs.filter (fun e => e.1 / 65536 != h)
    stTag := c.stTag.filter (fun e => e.1 / 2 ^ 20 != h)
    provLeaves := c.provLeaves.filter (fun l => l.hamper != h)
    cache := c.cache.filter (fun x => !(x.2.any (fun l => l.epoch.any (fun e => e / 65536 == h))))
    bufs := c.bufs.filter (fun e => e.1 / 2 ^ 24 != h)
    poolChk := tabPut none c.poolChk h none
    streams := c.streams.filter (fun e => e.1 / 64 != h)
    slices := c.slices.filter (fun e => e.1 / 16 != h)
    keys := c.keys.filter (fun e => e.1 / 64 != h)
    rpBuf := tabPut [] c.rpBuf h []
    rpPanic := tabPut false c.rpPanic h false
    ctxs := c.ctxs.filter (fun e => !(e.2.any (fun x => x.hamper == h)))
    tlb := c.tlb.filter (fun e => e.1 / 2 ^ 36 != h)
    owners := c.owners.filter (fun e => !((declared.getD []).contains e.1)) }

/-- What the reset of a hamper PF clears, with every ring flushed (R90 step 3, R91); gives the number flushed
(DEDUCED, assumption log entry 105). -/
def Card.resetPf (c : Card) (h : Nat) : Card × Nat :=
  let rs := List.range 16
  let p := (c.endPasses h rs).flushRings h rs
  let c := (p.1.dropShadows h).abandonPics h (fun _ => true)
  let c := c.dropPfTables h ((c.lay h).map (fun l => l.regions.map (fun e => e.num)))
  let c := c.setTracker h {}
  let c := (List.range 4).foldl (fun c k => c.resetVc h k) c
  let blocks := [(0x100, 0x160), (0x28000, 0x30000), (0x40100, 0x40500), (0x50000, 0x60000), (0xB0000, 0xC0000), (0xD0000, 0xE0000)]
  let c := blocks.foldl (fun c b => c.resetRegs (hp h b.1) (hp h b.2)) c
  -- the pace state (R47)
  let c := (c.setPace h { c.paceOf h with streak := 0, calm := 0, stage3 := 0 }).setF (mg (0x1020 + 4 * h)) 1 0 0
  (c, p.2)

/-- The hamper's VFs cease to exist: their registers, configuration and reset state are gone (R90 step 2)
(DEDUCED, assumption log entry 69). -/
def Card.dropVfs (c : Card) (h : Nat) : Card :=
  (List.range 8).foldl (fun (c : Card) v =>
    ((c.resetRegs ((Space.vf h v).key 0) ((Space.vf h v).key 0x40000)).setCfg (vfNum h v) {}).setFn (vfNum h v) {}) c

/-- Steps 1 to 3 of the reset of a hamper PF (R90): `d3` when it enters D3hot, `hot` for a hot reset (R521)
(DEDUCED, assumption log entry 67). -/
def Card.beginPfReset (c : Card) (h cause : Nat) (d3 hot : Bool) : Card :=
  let p := c.resetPf h
  let c := p.1.dropVfs h
  let g := c.cfgOf (h + 1)
  let c := c.setCfg (h + 1) { g with vfEn := false, vfMse := false, numVfs := 0, ari := false, vfBars := [] }
  let c := c.resetRegs (hp h 0xF0000) (hp h 0x100000)
  let c := (c.setF (hp h 0) 31 30 1).setBit (layState h) 3 false
  c.setFn (h + 1) { phase := .draining, cause := cause, flushed := p.2, d3 := d3, hot := hot, exposed := true,
                    gone := if g.vfEn && g.vfMse then g.numVfs else 0 }

/-- A reset asked for now: held while the card is frozen, stopping or thawing (R97), and absorbed by one that runs (R96). -/
def Card.askPfReset (c : Card) (h cause : Nat) (d3 hot : Bool) : Card :=
  let f := c.fnOf (h + 1)
  if f.phase = .off then c
  else if c.live = false then c.setFn (h + 1) { f with pend := true, d3 := f.d3 || d3, hot := f.hot || hot }
  else if f.phase = .ready then c.beginPfReset h cause d3 hot
  else if f.phase = .draining then c.setFn (h + 1) { f with d3 := f.d3 || d3 }
  else if d3 ∧ f.phase ≠ .held then c.beginPfReset h 3 true false
  else c

/-- Steps 1 to 3 of the reset of a VF (R92). -/
def Card.beginVfReset (c : Card) (h v : Nat) : Card :=
  let p := c.resetVf h v
  (p.1.setF ((Space.vf h v).key 0) 31 30 1).setFn (vfNum h v) { phase := .draining, cause := 2, flushed := p.2 }

/-- A VF reset asked for now: held while frozen, absorbed by its own or its PF's reset (R96, R97). -/
def Card.askVfReset (c : Card) (h v : Nat) : Card :=
  let f := c.fnOf (vfNum h v)
  if !c.vfExists h v || (c.fnOf (h + 1)).phase != .ready then c
  else if !c.live then c.setFn (vfNum h v) { f with pend := true }
  else if f.phase == .draining then c
  else c.beginVfReset h v

/-- The resets held during a freeze run at the thaw (R97). -/
def Card.heldResets (c : Card) : Card :=
  hampers.foldl (fun (c : Card) h =>
    let f := c.fnOf (h + 1)
    let c := if f.pend then (c.setFn (h + 1) { f with pend := false }).askPfReset h (if f.d3 then 3 else 1) f.d3 f.hot else c
    (List.range 8).foldl (fun (c : Card) v =>
      let g := c.fnOf (vfNum h v)
      if g.pend then (c.setFn (vfNum h v) { g with pend := false }).askVfReset h v else c) c) c

/-! ### The commands -/

/-- PF_FLR (R90, R96, R97). -/
def execPfFlr (h : Fin 4) (s : State) : Host.Outcome State Fault Refusal := s.run fun c => c.askPfReset h.val 1 false false

/-- VF_FLR (R92, R96, R97). -/
def execVfFlr (h : Fin 4) (v : Fin 8) (s : State) : Host.Outcome State Fault Refusal := s.run fun c => c.askVfReset h.val v.val

/-- Step 5 of a PF reset: the control block becomes readable, LAST_FLUSHED shows the number flushed; step 6 follows. -/
def Card.pfReadable (c : Card) (h : Nat) : Card :=
  let f := c.fnOf (h + 1)
  (c.setF (hp h 0) 8 0 f.flushed).setFn (h + 1) { f with phase := .starting, gone := 0 }

/-- FLR_DRAIN_DONE (R90 steps 4 and 5, R92): configuration space returns to reset, and the reset goes on: a PF in D3hot stays
there, a VF is READY. -/
def execFlrDrainDone (h : Fin 4) (v : Option (Fin 8)) (s : State) : Host.Outcome State Fault Refusal :=
  s.run fun c =>
    let h := h.val
    match v with
    | none =>
      let f := c.fnOf (h + 1)
      if !c.live || f.phase != .draining then c
      else
        let c := c.setCfg (h + 1) { d3 := (c.cfgOf (h + 1)).d3 }
        if f.d3 then c.setFn (h + 1) { f with phase := .held } else c.pfReadable h
    | some v =>
      let n := vfNum h v.val
      let f := c.fnOf n
      if !c.live || f.phase != .draining then c
      else
        let k := (Space.vf h v.val).key 0
        let c := ((c.setF k 8 0 f.flushed).setF k 23 16 2).setF k 31 30 2
        let c := (List.range 16).foldl (fun (c : Card) r =>
          if c.ringVf h r = some v.val then c.setRing h r { c.ring h r with gen := ((c.ring h r).gen + 1) % 65536 } else c) c
        let c := ((c.setCfg n {}).bumpF (hp h 4) 31 16 1).setFn n { phase := .ready }
        c.raise n 17

/-- PF_D3HOT_ENTRY (R90): steps 1 to 4 run. -/
def execPfD3hotEntry (h : Fin 4) (s : State) : Host.Outcome State Fault Refusal :=
  s.run fun c =>
    if (c.fnOf (h.val + 1)).phase = .off ∨ (c.cfgOf (h.val + 1)).d3 = true then c
    else (c.setCfg (h.val + 1) { c.cfgOf (h.val + 1) with d3 := true }).askPfReset h.val 3 true false

/-- PF_D3HOT_EXIT (R90): steps 5 to 7 run, once step 4 is done
(DEDUCED, assumption log entry 106). -/
def execPfD3hotExit (h : Fin 4) (s : State) : Host.Outcome State Fault Refusal :=
  s.run fun c =>
    let g := c.cfgOf (h.val + 1)
    let f := c.fnOf (h.val + 1)
    if !g.d3 then c
    else
      let c := (c.setCfg (h.val + 1) { g with d3 := false }).setFn (h.val + 1) { f with d3 := f.pend && f.d3, cause := 3 }
      if f.phase = .held then c.pfReadable h.val else c

end Sys2Proof.Machine
end

