-- ==== Sys2Proof/Machine/MemCtl.lean ====
section
/-! DEFINITION. The memory controllers (spec/08): refresh and interface delays, drift, idle self-refresh, and the retirement
and migration of ranks. -/

namespace Sys2Proof.Machine

/-- The register page of channel `ch` (R198). -/
def chPage (ch : Nat) : Nat := mg (0x8100 + 0x100 * ch)

/-! ### Interface delays (R184 to R187, R198) -/

/-- The word of a calibration set, for a lane of a subchannel and module rank (R499). -/
def calIndex (sub rank lane : Nat) : Nat := if lane < 36 then (2 * sub + rank) * 36 + lane else 144 + 10 * sub + (lane - 36)

/-- The calibration set of channel `ch` and band `b`, if the keep store holds a valid one: its payload. -/
def Card.calSet (c : Card) (ch b : Nat) : Option (List Byte) :=
  (ksFind c.keepImage 1 (4 * ch + b)).bind (fun p => if leAt p 0 4 = 1 then some p else none)

/-- The set used for a band: its own, else the nearest valid one, the lower of two equally near (R184). -/
def Card.calNear (c : Card) (ch b : Nat) : Option (List Byte) :=
  ((match b with | 0 => [0, 1, 2] | 1 => [1, 0, 2] | _ => [2, 1, 0] : List Nat)).findSome? (fun x => c.calSet ch x)

/-- The places of a channel's delay words: subchannel, module rank, lane. -/
def delayLanes : List (Nat × Nat × Nat) :=
  [0, 1].flatMap (fun sub => [0, 1].flatMap (fun rank => (List.range 46).map (fun lane => (sub, rank, lane))))

/-- A set copied into a channel's staging registers. -/
def Card.stageSet (c : Card) (ch : Nat) (p : List Byte) : Card :=
  delayLanes.foldl (fun (c : Card) x =>
    let w := laneWord x.2.2 (BitVec.ofNat 32 (leAt p (16 + 4 * calIndex x.1 x.2.1 x.2.2) 4 % 2 ^ 27))
    { c with staged := tabPut 0 c.staged (delayKey ch x.2.1 x.1 x.2.2) w }) c

/-- The staged words of a channel take effect at the next refresh of each subchannel (R187)
(DEDUCED, assumption log entry 71). -/
def Card.applyDelays (c : Card) (ch : Nat) : Card :=
  { c.setBit (chPage ch) 5 true with dlyPend := tabPut 0 c.dlyPend ch 3 }

/-- The staged words of one subchannel in force. -/
def Card.enforce (c : Card) (ch sub : Nat) : Card :=
  delayLanes.foldl (fun (c : Card) x =>
    if x.1 = sub then
      let k := delayKey ch x.2.1 sub x.2.2
      { c with delays := tabPut 0 c.delays k (tabGet 0 c.staged k) }
    else c) c

/-- A write of MG_MEM_DLY_CTL: BAND, then LOAD, then APPLY. -/
def Card.delayCtl (c : Card) (ch : Nat) (v : Word) : Card :=
  let c := c.writeReg (chPage ch + 0x38) v
  let c := if fld v 30 30 = 1 then
      match c.calNear ch (c.f (chPage ch + 0x38) 29 28) with | some p => c.stageSet ch p | none => c
    else c
  if fld v 31 31 = 1 then c.applyDelays ch else c

/-- DELAY_APPLY (R187). -/
def execDelayApply (ch : Fin 8) (v : Word) (s : State) : Host.Outcome State Fault Refusal :=
  s.run fun c => c.hostWrite .pf0 (0x8138 + 0x100 * ch.val) fun c => c.delayCtl ch.val v

/-- DELAY_LOAD (R198). -/
def execDelayLoad (ch : Fin 8) (v : Word) (s : State) : Host.Outcome State Fault Refusal :=
  s.run fun c => c.hostWrite .pf0 (0x8138 + 0x100 * ch.val) fun c =>
    c.delayCtl ch.val v

/-- REFRESH (R178, R179, R187): an all-bank refresh of one subchannel closes its rows, and staged delays take effect at it. -/
def execRefresh (ch : Fin 8) (sub : Fin 2) (s : State) : Host.Outcome State Fault Refusal :=
  s.run fun c =>
    let ch := ch.val
    let sub := sub.val
    if !c.live || c.f (chPage ch) 2 0 != 1 then c
    else
      let c : Card := { c with rowsOpen := c.rowsOpen.filter (fun e => !(e.1 / 128 == ch && e.1 / 32 % 2 == sub)) }
      let p := tabGet 0 c.dlyPend ch
      if nbit p sub then
        let c : Card := { c.enforce ch sub with dlyPend := tabPut 0 c.dlyPend ch (nput p sub sub 0) }
        c.setBit (chPage ch) 5 (tabGet 0 c.dlyPend ch != 0)
      else c

/-- The band of a temperature, in eighths of a degree, after band `b` (R184, R185): up past an edge, down only 3 degrees below
one. -/
def bandAfter (b : Nat) (t : Int) : Nat :=
  let raw := if t < 400 then 0 else if t ≤ 640 then 1 else 2
  if b ≤ raw then raw
  else if b = 2 then (if t ≤ 376 then 0 else if t ≤ 616 then 1 else 2)
  else if t ≤ 376 then 0 else 1

/-- A module's temperature read (R185): the channel shows it, and with AUTO_BAND the band follows from MEM_READY on (R509). -/
def Card.bandSample (c : Card) (ch : Nat) (t : Int) : Card :=
  let c := c.setF (chPage ch) 31 24 (toBits 8 (t / 8))
  let b := c.f (chPage ch) 9 8
  let b' := bandAfter b t
  if c.bit (mg 0x8000) 0 && decide (5 ≤ c.stage) && b' != b && c.f (chPage ch) 2 0 != 0 then
    let c := (c.setF (chPage ch) 9 8 b').event 0x802C 28 7
    match c.calNear ch b' with
    | some p => (c.stageSet ch p).applyDelays ch
    | none => c
  else c

/-- The drift counts of a window start again. -/
def Card.restartDrift (c : Card) : Card := { c with driftAt := [] }

/-- DRIFT_WINDOW_END (R188). -/
def execDriftWindowEnd (s : State) : Host.Outcome State Fault Refusal :=
  s.run fun c =>
    if !c.on || decide (c.stage < 5) then c
    else
      let c := (List.range 8).foldl (fun (c : Card) ch =>
        if c.f (mg 0x8008) 31 16 < tabGet 0 c.driftAt ch then c.event 0x802C (16 + ch) 7 else c) c
      c.restartDrift

/-! ### Self-refresh (R189, R190) -/

/-- A channel's ranks keep only their retained segments (R190): the others' contents, 8,192 rows each, become undefined
(DESIGN CHOICE, assumption log entry 74). -/
def Card.loseSegments (c : Card) (ch : Nat) : Card :=
  let gone := [2 * ch, 2 * ch + 1].flatMap (fun k =>
    ((List.range 8).filter (fun s => !c.bit (mg (0x8040 + 4 * (k / 4))) (8 * (k % 4) + s))).map (fun s =>
      (65536 * k + 8192 * s, 65536 * k + 8192 * (s + 1))))
  { c with mem := c.mem.filter (fun e => !gone.any (fun g => decide (g.1 ≤ e.1 / 2 ^ 18) && decide (e.1 / 2 ^ 18 < g.2))),
           lost := gone ++ gone.foldl (fun t g => cutSpan g.1 g.2 t) c.lost }

/-- No row of a channel is open. -/
def Card.closeRows (c : Card) (ch : Nat) : Card := { c with rowsOpen := c.rowsOpen.filter (fun e => e.1 / 128 != ch) }

/-- IDLE_SELF_REFRESH (R190): a channel without access for IDLE_US. -/
def execIdleSelfRefresh (ch : Fin 8) (s : State) : Host.Outcome State Fault Refusal :=
  s.run fun c =>
    let ch := ch.val
    if !c.live || !c.bit (mg 0x8000) 1 || c.f (chPage ch) 2 0 != 1 then c
    else
      let c := c.advanceTo (tabGet 0 c.lastUse ch + c.f (mg 0x8004) 15 0 * 1000)
      ((c.setF (chPage ch) 2 0 2).loseSegments ch).closeRows ch

/-! ### Retirement and migration (R191 to R196, R202 to R205) -/

/-- RANK_RETIRE (R191 cause 3, R205). -/
def execRankRetire (v : Word) (s : State) : Host.Outcome State Fault Refusal :=
  s.run fun c => c.hostWrite .pf0 0x8028 fun c =>
    let c := c.writeReg (mg 0x8028) v
    if fld v 31 31 = 0 then c
    else
      let k := fld v 3 0
      let st := c.rankState k
      if c.frozen then c.setF (mg 0x8028) 17 16 2
      else if st = 1 ∨ (st = 5 ∧ !(c.migr.any (fun m => m.target == k))) then (c.retireCause k 0).setF (mg 0x8028) 17 16 0
      else c.setF (mg 0x8028) 17 16 1

/-- The target of a migration of `source` among the SPARE ranks (R192); `lays` are the layouts that hold spares. -/
def Card.pickTarget (c : Card) (lays : List Layout) (source : Nat) : Option Nat :=
  let cand := (List.range 16).filter (fun k => c.rankState k == 2 && k / 2 != source / 2)
  (cand.find? (fun k => lays.any (fun l => nbit l.spare k && nbit l.channels (source / 2)))).or cand.head?

/-- A rank becomes LOST (R202). -/
def Card.loseRank (c : Card) (k : Nat) : Card :=
  (((c.setRank k 6 (c.rankPeer k)).event 0x802C 29 7).aerLog 0 .uncorrectableInternal none).setCapacity

/-- A running SEARCH whose planes lie on a rank that migrates is held; HELD is set for its module (R224). -/
def Card.holdSearches (c : Card) (source : Nat) : Card :=
  (List.range 8).foldl (fun (c : Card) m => (c.colOps m).foldl (fun (c : Card) x =>
    if x.2.2.started && !x.2.2.held && (c.searchRanks x.1 x.2.2).contains source then
      (c.setOp x.1 x.2.1 { x.2.2 with held := true }).event 0xE004 (8 + m) 10
    else c) c) c

/-- Held searches resume once no rank of theirs migrates (R224). -/
def Card.resumeSearches (c : Card) : Card :=
  (List.range 8).foldl (fun (c : Card) m => ((c.colOps m).filter (fun x => x.2.2.started && x.2.2.held)).foldl (fun (c : Card) x =>
    c.resumeSearch x.1 x.2.1 x.2.2) c) c

/-- A migration cannot go on: the source is LOST, and what was held is let go. -/
def Card.abandonMigration (c : Card) (source : Nat) : Card :=
  (({ c with migr := none } : Card).loseRank source).releaseAll.resumeSearches

/-- A migration from one rank to another begins (R193): both ranks take their states, the retention bits go to the target, and
the target leaves self-refresh. -/
def Card.beginMigration (c : Card) (source target : Nat) : Card :=
  let seg := c.f (mg (0x8040 + 4 * (source / 4))) (8 * (source % 4) + 7) (8 * (source % 4))
  let c := (c.setRank source 3 target).setRank target 5 source
  let c := c.setF (mg (0x8040 + 4 * (target / 4))) (8 * (target % 4) + 7) (8 * (target % 4)) seg
  ((c.wakeChannel (target / 2)).event 0x802C 31 7).holdSearches source

/-- The migration that is under way. -/
def Card.setMigr (c : Card) (m : Option Migration) : Card := { c with migr := m }

/-- The migrations that wait for their turn. -/
def Card.setMigrQ (c : Card) (q : List (Nat × Nat)) : Card := { c with migrQ := q }

/-- MIGRATION_START (R192, R193 steps 1 and 2): the rank first in the queue, or the source of a migration whose target failed
(R203). -/
def execMigrationStart (s : State) : Host.Outcome State Fault Refusal :=
  s.run fun c =>
    if !c.live then c
    else
      let lays := hampers.filterMap c.lay
      match c.migr with
      | some m =>
        if m.target < 16 then c
        else match c.pickTarget lays m.source with
          | none => c.abandonMigration m.source
          | some t => (c.beginMigration m.source t).setMigr (some { m with target := t })
      | none => match c.migrQ with
        | [] => c
        | (k, chunk) :: rest =>
          let c := c.setMigrQ rest
          match c.pickTarget lays k with
          | none => c.abandonMigration k
          | some t => (c.beginMigration k t).setMigr (some { source := k, target := t, start := chunk, done := 0 })

/-- A chunk of one rank copied to another, check lines with it (R193 step 3): every listed byte of it; its row is read on the
source and written on the target (R178). -/
def Card.copyChunk (c : Card) (src dst chunk : Nat) : Card :=
  let lo := fun (k : Nat) => k * 2 ^ 34 + chunk * 2 ^ 18
  let inside := fun (k key : Nat) => decide (lo k ≤ key) && decide (key < lo k + 2 ^ 18)
  let moved := c.mem.filter (fun e => inside src e.1)
  let c : Card := { c with mem := c.mem.filter (fun e => !inside dst e.1) }
  let c := moved.foldl (fun (c : Card) e => c.memPut (e.1 - lo src + lo dst) e.2) c
  let at_ := 65536 * dst + chunk
  let c : Card := { c with lost := (if c.isLost (lo src) then [(at_, at_ + 1)] else []) ++ cutSpan at_ (at_ + 1) c.lost }
  (c.rowsTouch src chunk (chunk + 1)).rowsTouch dst chunk (chunk + 1)

/-- The byte at a physical number lies in an ECC region. -/
def Card.eccAt (c : Card) (key : Nat) : Bool :=
  match c.servedAt key with
  | some p => hampers.any (fun h => (c.lay h).any (fun l => l.regions.any (fun e => e.ecc && e.spans p.1 p.2)))
  | none => false

/-- A line that could not be read or corrected is written with POISON 1 and counted (R193). -/
def Card.poisonLine (c : Card) (key : Nat) : Card :=
  if c.eccAt key then ((c.scramble key).setPoison key true).bump (mg 0x8024) 1 else c

/-- The migration has ended (R193 step 4, R195, R581): the target serves the source's addresses. -/
def Card.endMigration (c : Card) (m : Migration) : Card :=
  let l := c.logicalOf m.source
  let c : Card := { c with migr := none, redirect := tabPut none c.redirect l (some m.target) }
  let c := ((c.setRank m.source 4 m.target).setRank m.target 5 l).recordRetired m.source
  let c := if l = m.source then c else c.setRank l (c.rankState l) m.target
  (c.setCapacity.event 0x802C 30 7).resumeSearches

/-- MIGRATION_CHUNK_DONE (R193 steps 3 and 4, R203): `bad` lists the lines of the chunk that could not be read or corrected,
`ce` how many were corrected, `fails` that the target failed instead. -/
def execMigrationChunkDone (bad : List Nat) (ce : Nat) (fails : Bool) (s : State) : Host.Outcome State Fault Refusal :=
  s.run fun c => match c.migr with
    | none => c
    | some m =>
      if !c.live || decide (16 ≤ m.target) then c
      else if fails then c.targetFailed
      else
        let chunk := (m.start + m.done) % 65536
        let src := m.holder chunk
        let c := if 0 < ce then c.countCe (src / 2) ce false else c
        let m' : Migration := { m with done := m.done + 1 }
        let c := (c.copyChunk src m.target chunk).setMigr (some m')
        let c := (bad.filter (fun i => decide (i < 4096))).foldl (fun (c : Card) i => c.poisonLine (m.target * 2 ^ 34 + chunk * 2 ^ 18 + 64 * i)) c
        (if m'.done = 65536 then c.endMigration m' else c).releaseAll

end Sys2Proof.Machine
end

