-- ==== Sys2Proof/Machine/Retry.lean ====
section
/-! DEFINITION. The retry rule, fencing and reinstatement (spec/17 R404 to R415, R420 to R422, R428 to R431; spec/09 R226,
spec/13 R329, spec/14 R349, spec/16 R403). -/

namespace Sys2Proof.Machine

/-! ### Equal units (R408) -/

/-- The number of units of a class that has equal units; none has one in another class, nor in FUSED. -/
def equalUnits (cls mode : Nat) : Nat :=
  match cls with
  | 1 => 16
  | 2 => 4
  | 3 => if mode = 0 then 2 else if mode = 1 then 0 else 8
  | 5 => 8
  | _ => 0

/-- The unit on which a step that failed on `u` is retried: the next enabled and unfenced one of the group after `u`, wrapping,
else the lowest such that no group of the class binds. -/
def Card.equalUnit (c : Card) (h cls u : Nat) (g : Option Group) : Option Nat :=
  let n := equalUnits cls (c.grMode h)
  let ok := fun (v : Nat) => decide (v < n) && v != u && c.unitEnabled h cls v && !c.fenced h cls v
  let us := (g.map Group.unitList).getD []
  let bound := ((c.lay h).map (fun l => l.groups)).getD []
  (((us.filter (fun v => decide (u < v))) ++ us.filter (fun v => decide (v < u))).find? ok).or
    ((List.range n).find? (fun v => ok v && !bound.any (fun b => b.cls == cls && b.unitList.contains v)))

/-- The group of a decoder slice. -/
def Card.sliceGroup (c : Card) (h d : Nat) : Option Group :=
  (c.lay h).bind (fun l => l.groups.find? (fun g => g.cls == 1 && g.unitList.contains d))

/-! ### Verdicts (R407, R412, R426) -/

/-- A log entry of a verdict. -/
def Card.logVerdict (c : Card) (h cls u kind ring ctx : Nat) : Card :=
  c.log { hamper := h, cls := cls, unit := u, kind := kind, ring := ring, ctx := ctx }

/-- The verdict INPUT on one unit: logged and counted. -/
def Card.inputVerdict (c : Card) (h cls u ring ctx : Nat) : Card :=
  let c := (c.logVerdict h cls u 5 ring ctx).bumpF (countReg h cls u) 23 16 1
  if cls = 7 then c else c.hpEvent h 0xE0008 3 18

/-- The records that a fenced record writer does not write (R403): those of the card's own are discarded and counted, and the
operations that wait to write theirs end FAILED_UNIT. -/
def Card.dropRecs (c : Card) (h : Nat) : Card :=
  if !c.recFenced h then c
  else (List.range 16).foldl (fun (c : Card) r =>
    let g := c.recRing h r
    let c := (c.recDiscard h g.store.length).setRec h r { g with store := [], midOp := false }
    ((c.ring h r).q.filter (fun o => o.phase == .retired && !o.records.isEmpty)).foldl (fun (c : Card) o =>
      (c.setOp h r (c.unrecorded o)).draw.draw) c) c

/-- An operation fails under the retry rule (R407, R410): with verdict INPUT, or without an equal unit. A RUN that fails leaves
its unit; what later steps of another operation would have written is not written. -/
def Card.stepFails (c : Card) (h r : Nat) (o : Op) (input : Bool) : Card :=
  let first := o.failUnits.head?.getD 0xFF
  let c := if o.phase = .ran then c.takeBack o else c
  let o' := { o with held := false, retryOn := none, reads := [] }.ran (if input then stFailedInput else stFailedUnit)
    (if input then 0xB4 else 0xB3) (first + 0xFF00)
  let c := (c.setOp h r o').govDropOp h r o.seq
  if o.cls = 3 then c.resumePaused h o.unit else c

/-! ### What a fence makes others do (R408, R413, R428) -/

/-- The retries that wait for a unit which has been fenced, or disabled in the repair map (R25), wait for another candidate, or,
with none, end with verdict NO_EQUAL and the failing unit's fence kept (R408). -/
def Card.settleRetries (c : Card) (h : Nat) : Card :=
  let off := fun (cls v : Nat) => c.fenced h cls v || !c.unitEnabled h cls v
  let c := ((c.allOps h).filter (fun x => x.2.retryOn.any (off x.2.cls))).foldl (fun (c : Card) x =>
    let o := x.2
    let u := o.failUnits.getLast?.getD o.unit
    match c.equalUnit h o.cls u (c.groupOf h o.group) with
    | some v => c.setOp h x.1 { o with retryOn := some v }
    | none => (c.logVerdict h o.cls u 4 x.1 o.ctx).stepFails h x.1 o false) c
  (c.streamsOf h).foldl (fun (c : Card) x =>
    (x.2.pics.filter (fun p => p.retryOn.any (off 1))).foldl (fun (c : Card) p =>
      let next := c.equalUnit h 1 p.slice (c.sliceGroup h p.slice)
      let c := c.setStream h x.1 ((c.stream h x.1).map (fun (t : Stream) => t.mapPics (fun q =>
        if q.decodeNo = p.decodeNo then { q with retryOn := next } else q)))
      if next.isNone then c.logVerdict h 1 p.slice 4 x.2.ring x.2.ctx else c) c) c

/-- Everything that follows from fences on hamper `h`. -/
def Card.settleFences (c : Card) (h : Nat) : Card := (((c.settleRetries h).settleGroups h).dropRecs h).refuseSearches

/-! ### The rule for an operation (R407, R428) -/

/-- An operation continues on unit `v` (R329, R407): a RUN brings in the weights of its pass. -/
def Card.moveOp (c : Card) (h r : Nat) (o : Op) (v : Nat) : Card :=
  let u := o.unit
  let o : Op := { o with unit := if o.cls = 2 then o.unit else v, moved := true, doneBy := some v, retryOn := none, ownFence := false, next := [] }
  let c := c.setOp h r o
  if o.cls = 3 then
    let g := c.grGeometry h
    let w := c.sramRd h ((c.staging h).1 + o.wgt) (g.1 * g.2 * fmtBytes (runW o.body))
    (c.setGr h v { c.grSet h v with active := w }).resumePaused h u
  else c

/-- The step runs on the equal unit `v` and succeeds, with verdict LASTING on `u`, or fails, with verdict INPUT on both and the
fence of `u` lifted if this retry set it. -/
def Card.retryOnEqual (c : Card) (h r : Nat) (o : Op) (u v : Nat) (ok : Bool) : Card :=
  if ok then (c.logVerdict h o.cls u 2 r o.ctx).moveOp h r o v
  else
    let c := if o.ownFence then c.setFence h o.cls u false else c
    ((c.inputVerdict h o.cls u r o.ctx).inputVerdict h o.cls v r o.ctx).stepFails h r o true

/-- The unit `v` is busy with another operation. -/
def Card.busyFor (c : Card) (h : Nat) (o : Op) (v : Nat) : Bool :=
  (c.allOps h).any (fun x => x.2.cls == o.cls && x.2.order != o.order &&
    (if o.cls = 2 then (c.shapers h x.2).contains v else x.2.started && x.2.active && x.2.unit == v))

/-- A step of an operation on unit `u` fails. One on a unit that another verdict has fenced goes directly to the equal unit
(R428). -/
def Card.opStepFails (c : Card) (h r : Nat) (o : Op) (u : Nat) (again equal : Bool) : Card :=
  let was := c.fenced h o.cls u
  let o : Op := { o with fails := o.fails + 1, failUnits := o.failUnits ++ [u] }
  if again && !was then
    let c := c.setOp h r { o with doneBy := some u }
    c.transient h o.cls u r o.ctx 1
  else
    let c := if was then c else c.fenceUnit h o.cls u
    let o : Op := { o with ownFence := !was }
    match c.equalUnit h o.cls u (c.groupOf h o.group) with
    | none => (c.logVerdict h o.cls u 4 r o.ctx).stepFails h r o false
    | some v =>
      if c.busyFor h o v then c.setOp h r { o with retryOn := some v } else c.retryOnEqual h r o u v equal

/-! ### The rule for a picture on a decoder slice, and for the record writer -/

/-- A picture continues on slice `v`. -/
def Card.moveSlice (c : Card) (h s u v : Nat) : Card :=
  let c : Card := { c with slices := tabPut none (tabPut none c.slices (16 * h + u) none) (16 * h + v) (some s) }
  c.setStream h s ((c.stream h s).map (fun (t : Stream) => t.mapPics (fun q =>
    if q.decoding then { q with slice := v, retryOn := none, ownFence := false } else q)))

/-- A picture's step runs on the equal slice `v`. What becomes of a picture whose step fails there is left to what intake finds
next. -/
def Card.sliceOnEqual (c : Card) (h s : Nat) (t : Stream) (own : Bool) (u v : Nat) (ok : Bool) : Card :=
  if ok then (c.logVerdict h 1 u 2 t.ring t.ctx).moveSlice h s u v
  else
    let c := if own then c.setFence h 1 u false else c
    let c := (c.inputVerdict h 1 u t.ring t.ctx).inputVerdict h 1 v t.ring t.ctx
    c.setStream h s ((c.stream h s).map (fun (t : Stream) => t.mapPics (fun q => if q.decoding then { q with retryOn := none, ownFence := false } else q)))

/-- A step of the picture on slice `u` fails. -/
def Card.sliceFails (c : Card) (h u : Nat) (again equal : Bool) : Card :=
  match tabGet none c.slices (16 * h + u) with
  | none => c
  | some s => match c.stream h s with
    | none => c
    | some t =>
      let was := c.fenced h 1 u
      if t.pics.any (fun p => p.decoding && p.retryOn.isSome) then c
      else if again && !was then c.transient h 1 u t.ring t.ctx 1
      else
        let c := if was then c else c.fenceUnit h 1 u
        match c.equalUnit h 1 u (c.sliceGroup h u) with
        | none => c.logVerdict h 1 u 4 t.ring t.ctx
        | some v =>
          if (tabGet none c.slices (16 * h + v)).isSome then
            c.setStream h s (some (t.mapPics (fun q => if q.decoding then { q with retryOn := some v, ownFence := !was } else q)))
          else c.sliceOnEqual h s t (!was) u v equal

/-- The write of a record of the card's own fails (R403). -/
def Card.recStepFails (c : Card) (h : Nat) (again : Bool) : Card :=
  if c.fenced h 8 0 then c
  else if again then c.transient h 8 0 0 0 1
  else (c.fenceUnit h 8 0).logVerdict h 8 0 4 0 0

/-- The write of a retired operation's record fails (R403). -/
def Card.opRecFails (c : Card) (h r : Nat) (o : Op) (again : Bool) : Card :=
  if c.fenced h 8 0 then c
  else
    let o : Op := { o with fails := o.fails + 1, failUnits := o.failUnits ++ [0], doneBy := some (o.doneBy.getD 0) }
    if again then (c.setOp h r { c.retireOp h o with phase := .retired }).transient h 8 0 r o.ctx 1
    else
      let c := (c.setOp h r { o.outcome stFailedUnit 0xB3 (o.failUnits.headD 0 + 0xFF00) with records := [] }).setRec h r { c.recRing h r with midOp := false }
      (c.fenceUnit h 8 0).logVerdict h 8 0 4 r o.ctx

/-- A step fails on a unit (R404, R407)
(DEDUCED, assumption log entry 100). -/
def Card.stepFault (c : Card) (f : StepFault) : Card :=
  let h := f.hamper.val
  let cls := f.cls.val
  if !c.live then c
  else if cls = 1 then (c.sliceFails h f.unit f.again f.equal).settleFences h
  else match f.op with
    | none => if cls = 8 then ((c.recStepFails h f.again).settleFences h) else c
    | some (r, seq) =>
      match c.opOf h r.val seq with
      | none => c
      | some o =>
        if cls = 8 ∧ o.phase = .retired ∧ o.records.isEmpty = false then ((c.opRecFails h r.val o f.again).settleFences h).pump h r.val
        else
          let mine := if o.cls = 2 then (c.shapers h o).contains f.unit else o.unit == f.unit
          if o.cls ≠ cls ∨ o.started = false ∨ o.active = false ∨ o.held = true ∨ o.paused.isSome ∨ o.retryOn.isSome ∨ mine = false ∨
              (cls = 3 ∧ o.phase = .ran) then c
          else (c.opStepFails h r.val o f.unit f.again f.equal).settleFences h

/-! ### The commands -/

/-- UNIT_STEP_FAILURE (R407). -/
def execUnitStepFailure (f : StepFault) (s : State) : Host.Outcome State Fault Refusal := s.run fun c => c.stepFault f

/-- The unit waits for bytes that the operation has asked for, so its watchdog stands still (R405). -/
def Card.awaitsInput (c : Card) (f : StepFault) : Bool :=
  match f.op with
  | some (r, seq) => (c.opOf f.hamper.val r.val seq).any (fun o => !o.reads.isEmpty ||
      c.remotes.any (fun y => y.hamper == f.hamper.val && y.ring == r.val && y.seq == seq && y.gen == o.gen))
  | none => false

/-- WATCHDOG_EXPIRY (R405): the step fails as one that fails its check does
(DEDUCED, assumption log entry 108). -/
def execWatchdogExpiry (f : StepFault) (s : State) : Host.Outcome State Fault Refusal :=
  s.run fun c => if c.awaitsInput f then c else c.stepFault f

/-- EQUAL_UNIT_RETRY_START (R408): unit `u` of the class is free, and the oldest retry that waits for it runs there. -/
def execEqualUnitRetryStart (h : Fin 4) (cls : Fin 9) (u : Nat) (ok : Bool) (s : State) : Host.Outcome State Fault Refusal :=
  s.run fun c =>
    let h := h.val
    if !c.live || !c.unitEnabled h cls.val u then c
    else if cls.val = 1 then
      match (c.streamsOf h).find? (fun x => x.2.pics.any (fun p => p.retryOn == some u)) with
      | none => c
      | some (s, t) =>
        match t.pics.find? (fun p => p.retryOn == some u) with
        | none => c
        | some p =>
          if (tabGet none c.slices (16 * h + u)).isSome then c else (c.sliceOnEqual h s t p.ownFence p.slice u ok).settleFences h
    else
      let l := (c.allOps h).filter (fun x => x.2.cls == cls.val && x.2.retryOn == some u)
      match l.find? (fun x => l.all (fun y => decide (x.2.order ≤ y.2.order))) with
      | none => c
      | some (r, o) =>
        if c.busyFor h o u then c
        else (c.retryOnEqual h r { o with retryOn := none } (o.failUnits.getLast?.getD o.unit) u ok).settleFences h

/-- A unit of a class exists, counted in the present griddle mode, and is enabled. -/
def Card.unitThere (c : Card) (h cls u : Nat) : Bool :=
  (match cls with
    | 1 => decide (u < 16)
    | 2 => decide (u < 4)
    | 3 => decide (u < (if c.grMode h = 0 then 2 else if c.grMode h = 1 then 1 else 8))
    | 5 => decide (u < 8)
    | 4 => u == 0
    | 6 => u == 0
    | 8 => u == 0
    | _ => false) && c.unitEnabled h cls u

/-- UNIT_REINSTATE (R415, R423): a write of HP_FR_REINSTATE; while a self-test runs it is dropped
(DEDUCED, assumption log entry 101). -/
def execUnitReinstate (h : Fin 4) (v : Word) (s : State) : Host.Outcome State Fault Refusal :=
  s.run fun c => c.hostWrite (.pf h) 0xE000C fun c =>
    let k := hp h.val 0xE000C
    if c.bit k 30 then c
    else
      let c := c.writeReg k v
      if fld v 31 31 = 0 then c
      else
        let cls := c.f k 11 8
        let u := c.f k 4 0
        if c.unitThere h.val cls u && c.fenced h.val cls u then (c.setF k 29 28 0).setBit k 30 true else c.setF k 29 28 3

/-- COLANDER_REINSTATE (R425). -/
def execColanderReinstate (v : Word) (s : State) : Host.Outcome State Fault Refusal :=
  s.run fun c => c.hostWrite .pf0 0xC010 fun c =>
    let k := mg 0xC010
    if c.bit k 30 then c
    else
      let c := c.writeReg k v
      if fld v 31 31 = 0 then c
      else
        let m := c.f k 2 0
        if c.bit (mg 0x0020) (16 + m) && c.fenced 0 7 m then (c.setF k 29 28 0).setBit k 30 true else c.setF k 29 28 3

/-- A self-test has passed: the fence is lifted and the unit's counts return to 0. -/
def Card.reinstated (c : Card) (h cls u : Nat) : Card :=
  let c := (c.setFence h cls u false).setN (countReg h cls u) 0
  { c with bursts := tabPut [] c.bursts (burstKey h cls u) [] }

/-- SELF_TEST_DONE (R415, R425): the self-test of hamper `h`'s unit ends, or, with none, that of the colander. -/
def execSelfTestDone (h : Option (Fin 4)) (passed : Bool) (s : State) : Host.Outcome State Fault Refusal :=
  s.run fun c =>
    let kind := if passed then 7 else 8
    match h with
    | some h =>
      let k := hp h.val 0xE000C
      if !c.live || !c.bit k 30 then c
      else
        let cls := c.f k 11 8
        let u := c.f k 4 0
        let c := (c.setBit k 30 false).setF k 29 28 (if passed then 1 else 2)
        let c := if passed then c.reinstated h.val cls u else c
        (c.logVerdict h.val cls u kind 0 0).hpEvent h.val 0xE0008 2 18
    | none =>
      let k := mg 0xC010
      if !c.live || !c.bit k 30 then c
      else
        let m := c.f k 2 0
        let c := (c.setBit k 30 false).setF k 29 28 (if passed then 1 else 2)
        let c := if passed then (c.reinstated 0 7 m).setBit (mg 0xE004) m false else c
        c.logVerdict 0xF 7 m kind 0 0

end Sys2Proof.Machine
end

