-- ==== Sys2Proof/Machine/Power.lean ====
section
/-! DEFINITION. Power (spec/19): the commands of the draw governor and the ballast, the arrival and the loss of power, and the
outward supplies. -/

namespace Sys2Proof.Machine

/-- An event of the power block (R463). -/
def Card.pwrEvent (c : Card) (b : Nat) : Card := c.event 0x1114 b 11

/-! ### What goes when the core turns off (R465, R477) -/

/-- The core regulator and the modules are off: card memory, hub state and fences are lost; PF0, configuration space, the keep
store, the fuses, the board controller, the TAP and card time stay. A store that runs is abandoned (R485). The PF0 blocks that
show the lost state are at reset
(DEDUCED, assumption log entry 79). -/
def Card.coreDown (c : Card) : Card :=
  let stay := fun (k : Nat) => (decide (k < 0x6000) || (decide (0x7000 ≤ k) && decide (k < 0x8000)) ||
    (decide (0xC000 ≤ k) && decide (k < 0xE000)))
  let ks := c.keep
  let c := if ks.host.isSome then ((c.setBit (mg 0x3004) 31 false).setBit (mg 0x3004) 30 false).setF (mg 0x3004) 27 24 6 else c
  let c : Card := {
    clk := c.clk
    regs := c.regs.filter (fun e => stay e.1)
    caps := c.caps.filter (fun e => stay e.1)
    holds := c.holds.filter (fun e => stay e.1)
    cfg := c.cfg
    aer := c.aer
    fns := (c.fns.filter (fun e => e.2.exposed)).map (fun e => (e.1, { exposed := true }))
    avs := c.avs
    on := c.on
    winAt := c.winAt
    fltMsg := c.fltMsg
    keep := { ks with host := none, own := none }
    presence := c.presence
    blown := c.blown
    fuseJob := c.fuseJob
    gov := { tripped := c.gov.tripped, offAt := c.gov.offAt, energyUj := c.gov.energyUj }
    pin := c.pin
    freezeN := c.freezeN
    tap := c.tap
    board := c.board
    fresh := c.fresh
    out := c.out ++ [.stopped] }
  let c := (List.range 19).foldl (fun (c : Card) i => c.setBit (mg (0x2100 + 4 * i)) 31 false) c
  let c := ((c.setF (mg 0x5004) 31 29 0).setF (mg 0x200C) 4 0 0).setF (mg 0x1134) 10 8 0
  c.setF (mg 0x1108) 24 23 0

/-- The card has lost all its power (R471): only what is stored stays, and the board controller, which has its own supply. A
record change not yet committed is lost (R491)
(DEDUCED, assumption log entry 80). -/
def Card.powerDown (c : Card) : Card :=
  let d : Card := {
    keep := { banks := c.keep.banks }
    blown := c.blown
    pin := { cable := c.pin.cable, jumper := c.pin.jumper, button := c.pin.button, sealOpen := c.pin.sealOpen }
    freezeN := c.freezeN
    board := c.board
    fresh := c.fresh
    out := if c.on then c.out ++ [.stopped] else c.out }
  d.setF (mg 0x0028) 3 1 (c.f (mg 0x0028) 3 1)

/-! ### The governor (R455, R456, R470) -/

/-- UNIT_START_REQUEST (R455, R456). -/
def execUnitStartRequest (l : UnitLoad) (s : State) : Host.Outcome State Fault Refusal :=
  s.run fun c =>
    let x : Load := .unit l.hamper.val l.cls.val l.index
    if !c.live || c.draws x || c.startWaits x then c
    else
      let op := l.op.map (fun p => (p.1.val, p.2))
      let lc := match op with
        | some (r, seq) => (c.opOf l.hamper.val r seq).any (fun o => c.opLc l.hamper.val r o)
        | none => l.lc
      c.govStart x lc op

/-- UNIT_STOP (R455). -/
def execUnitStop (l : UnitLoad) (s : State) : Host.Outcome State Fault Refusal :=
  s.run fun c => if c.live && c.draws (.unit l.hamper.val l.cls.val l.index) then c.govStop (.unit l.hamper.val l.cls.val l.index) else c

/-- START_ACKNOWLEDGED (R455, R456): the waiting start first in the order of admission, once B has risen to cover it. -/
def execStartAcknowledged (s : State) : Host.Outcome State Fault Refusal :=
  s.run fun c =>
    let c := c.settleB
    match c.gov.head with
    | none => c
    | some x =>
      let c := if c.live && c.admits x then c.sharesFor x else c
      if !c.live || !c.admits x || c.overLimit (c.weight x.load) then c.govFlags
      else
        let d := c.weight x.load
        let c := if c.gov.b < d then c.advanceTo (c.risenAt (d - c.gov.b)) else c
        (c.settleB.acknowledge x).govFlags

/-- The sensed current has been steady within 0.1 A for 10 us, which is 40 intervals (R470). -/
def Gov.sensed (g : Gov) (ca : Nat) : Gov :=
  let lo := min g.lowCa ca
  let hi := max g.highCa ca
  let g := if hi - lo ≤ 10 then { g with lowCa := lo, highCa := hi, steady := g.steady + 1 } else { g with lowCa := ca, highCa := ca, steady := 1 }
  { g with hold := g.hold && decide (g.steady < 40) }

/-- BALLAST_DECAY_TICK (R455, R456): an interval of 250 ns ends with its sensed currents; with no start waiting on B, B falls at
SLOPE_DOWN
(DESIGN CHOICE, assumption log entry 78). -/
def execBallastDecayTick (p : PowerSense) (s : State) : Host.Outcome State Fault Refusal :=
  s.run fun c =>
    if !c.on || c.coreOff then c
    else
      let c := (c.setN (mg 0x110C) (min 65535 p.auxCa * 2 ^ 16 + min 65535 p.slotCa)).setF (mg 0x1108) 15 0 (min 65535 p.nodeMv)
      let c := c.settleB
      let g := c.gov.sensed (p.slotCa + p.auxCa)
      let b := if c.bit (mg 0x1108) 23 || c.frozen then g.b else g.b - c.slopeDown * 250 * slopeUnit
      let g := { g with est := p.powerMw * 100 * caUnit, b := b, old := none }
      ({ c with gov := g } : Card).govFlags

/-- SLOPE_EXCEEDED (R470): every start is held until the current is steady. -/
def execSlopeExceeded (s : State) : Host.Outcome State Fault Refusal :=
  s.run fun c =>
    if !c.on || c.coreOff then c
    else ({ c.pwrEvent 5 with gov := { c.gov with hold := true, lowCa := 0, highCa := 0, steady := 0 } } : Card).govFlags

/-- BACKFEED_BLOCKED (R453). -/
def execBackfeedBlocked (s : State) : Host.Outcome State Fault Refusal := s.run fun c => if c.on then c.pwrEvent 4 else c

/-- UV_WARN (R463): NODE_MV has fallen to `mv`. -/
def execUvWarn (mv : Nat) (s : State) : Host.Outcome State Fault Refusal :=
  s.run fun c => if c.on && decide (mv < 11400) then (c.setF (mg 0x1108) 15 0 mv).pwrEvent 2 else c

/-! ### The inputs (R450, R462, R465, R466, R471, R519) -/

/-- The qualification of the auxiliary pins runs from the later of POWER_GOOD and the connection (R516). -/
def Card.startQual (c : Card) : Card :=
  if c.on && c.pin.cable.isSome && decide (c.stage = 0) && c.f (mg 0x1108) 31 29 == 0 then
    { c with pin := { c.pin with qualFrom := some c.ns } }
  else c

/-- AUX_CABLE_CONNECT (R450, R462): CARD_CBL_PRES# goes low; the sense pins are read now. A card that lost its auxiliary input
stays as it is (R465). -/
def execAuxCableConnect (sense : Fin 4) (s : State) : Host.Outcome State Fault Refusal :=
  s.run fun c =>
    if c.pin.cable.isSome then c
    else
      let c : Card := { c with pin := { c.pin with cable := some sense.val } }
      if c.on then ((c.setBit (mg 0x0028) 0 true).setBit (mg 0x1108) 25 true).startQual else c

/-- The write of a target voltage to the regulator at bring-up (R508): 700 mV, after the transition rate. -/
def Card.bootVoltage (c : Card) : Card := { c.emit (.avsWrite 700) with avs := { c.avs with pending := some 700 } }

/-- No auxiliary input is under qualification. -/
def Card.endQual (c : Card) : Card := { c with pin := { c.pin with qualFrom := none } }

/-- AUX_QUALIFY_EXPIRY (R462): the auxiliary path turns on, AUX_CAP is read, and the regulator is asked for 700 mV (R508). -/
def execAuxQualifyExpiry (s : State) : Host.Outcome State Fault Refusal :=
  s.run fun c => match c.pin.qualFrom, c.pin.cable with
    | some t, some cap =>
      if !c.on then c
      else
        let c := (c.advanceTo (t + 100000000)).endQual
        ((c.setF (mg 0x1108) 31 29 1).setF (mg 0x1108) 27 26 cap).bootVoltage
    | _, _ => c

/-- AUX_POWER_LOST (R465, R519): `gone` when the cable has left, false when its pins stayed below 10.8 V. While bring-up still
waits for it, there is only no auxiliary input. -/
def execAuxPowerLost (gone : Bool) (s : State) : Host.Outcome State Fault Refusal :=
  s.run fun c =>
    if c.pin.cable.isNone then c
    else
      let c : Card := if gone then { c with pin := { c.pin with cable := none, qualFrom := none } } else { c with pin := { c.pin with qualFrom := none } }
      if !c.on then c
      else
        let c := if gone then (c.setBit (mg 0x0028) 0 false).setBit (mg 0x1108) 25 false else c
        match c.f (mg 0x1108) 31 29 with
        | 1 => if c.coreOff then c else (c.pwrEvent 1).coreDown.setF (mg 0x1108) 31 29 2
        | 0 => if gone then c else c.startQual
        | _ => c

/-- SENSE_CHANGED (R466). -/
def execSenseChanged (s : State) : Host.Outcome State Fault Refusal :=
  s.run fun c => if c.on && c.pin.cable.isSome then c.pwrEvent 3 else c

/-- SLOT_12V_RISE (R462). -/
def execSlot12vRise (s : State) : Host.Outcome State Fault Refusal :=
  s.run fun c => { c with pin := { c.pin with slot12 := true } }

/-- SLOT_POWER_LOST (R471). -/
def execSlotPowerLost (s : State) : Host.Outcome State Fault Refusal := s.run fun c => c.powerDown

/-! ### Outward supplies (R460) -/

/-- SUPPLY_LIMITER_TRIP (R460): supply 0 is the daughterboard's, 1 and 2 those of the Dravaz ports. -/
def execSupplyLimiterTrip (i : Fin 3) (s : State) : Host.Outcome State Fault Refusal :=
  s.run fun c =>
    if !c.bit (mg 0x1134) (8 + i.val) then c
    else
      let c : Card := { c with gov := { c.gov with tripped := nput c.gov.tripped i.val i.val 1 } }
      (c.checkSupplies.setBit (mg 0x1134) (16 + i.val) true).pwrEvent 7

/-- An EN bit written (R460): a 1 within 100 ms of the last 0 is ignored; one that counts after a 0 lifts the trip. -/
def Card.writeEn (c : Card) (i : Nat) (on : Bool) : Card :=
  if !on then
    let c := c.setBit (mg 0x1134) i false
    { c with gov := { c.gov with offAt := tabPut 0 c.gov.offAt i (c.ns + 1) } }
  else if c.bit (mg 0x1134) i then c
  else if c.ns + 1 < tabGet 0 c.gov.offAt i + 100000000 then c
  else
    let c := c.setBit (mg 0x1134) i true
    { c with gov := { c.gov with tripped := nput c.gov.tripped i i 0 } }

/-- OUTWARD_SUPPLY_ENABLE_WRITE (R460): a write of MG_PWR_OUT
(DEDUCED, assumption log entry 76). -/
def execOutwardSupplyEnableWrite (v : Word) (s : State) : Host.Outcome State Fault Refusal :=
  s.run fun c => c.hostWrite .pf0 0x1134 fun c =>
    ([0, 1, 2].foldl (fun (c : Card) i => c.writeEn i (fld v i i == 1)) (c.writeReg (mg 0x1134) v)).checkSupplies

/-- DAUGHTERBOARD_FITTED (R566). -/
def execDaughterboardFitted (s : State) : Host.Outcome State Fault Refusal :=
  s.run fun c => (c.setBit (mg 0x0028) 1 true).checkSupplies

end Sys2Proof.Machine
end

