-- ==== Sys2Proof/Machine/Thermal.lean ====
section
/-! DEFINITION. Temperature (spec/20): the sensors, the junction temperature and the thermal stages, the trip, warming, and the
airflow request. -/

namespace Sys2Proof.Machine

/-- An event of the thermal block (R481). -/
def Card.thmEvent (c : Card) (b : Nat) : Card := c.event 0x2014 b 2

/-- The register of sensor `i` (R481). -/
def sensorReg (i : Nat) : Nat := mg (0x2100 + 4 * i)

/-- A sensor's reading in 1/8 degree, while it is valid. -/
def Card.sensor (c : Card) (i : Nat) : Option Int :=
  if c.bit (sensorReg i) 31 then some (sint 16 (c.f (sensorReg i) 15 0)) else none

/-- A sensor's reading, or that it is not valid (R472); one from 0 to 18 that stops being valid sets SENSOR_FAIL (R483). -/
def Card.setSensor (c : Card) (i : Nat) (t : Option Int) : Card :=
  match t with
  | some v => c.setN (sensorReg i) (2 ^ 31 + toBits 16 v)
  | none =>
    let was := c.bit (sensorReg i) 31
    let c := c.setBit (sensorReg i) 31 false
    if was && decide (i < 19) then c.thmEvent 3 else c

/-- A hub sensor's reading is valid from -40 to 150 degrees (R472). -/
def hubValid (t : Option Int) : Option Int := t.bind (fun v => if -320 ≤ v ∧ v ≤ 1200 then some v else none)

/-- The HOT pin is asserted. -/
def Card.pinHot (c : Card) : Card := { c with pin := { c.pin with hot := true } }

/-- The card trips (R477): it is recorded, and the core turns off as at an auxiliary loss. -/
def Card.trip (c : Card) (sensor : Nat) (t : Int) : Card :=
  let on := c.keep.recs.powerOn
  let c := c.recordsChanged true (fun (r : KsRecords) => { r with tripCount := min 0xFFFFFFFF (r.tripCount + 1), tripPowerOn := on, tripSensor := sensor, tripTemp := toBits 8 (t / 8) })
  (c.coreDown.setF (mg 0x2000) 10 8 3).pinHot

/-- The index and reading of the highest valid hub sensor; the lowest index of equal ones. -/
def Card.hottest (c : Card) : Option (Nat × Int) :=
  (List.range 10).foldl (fun (best : Option (Nat × Int)) i => match c.sensor i, best with
    | some v, some b => if b.2 < v then some (i, v) else some b
    | some v, none => some (i, v)
    | none, b => b) none

/-- TJ in 1/8 degree (R473): the highest valid hub reading, 10 degrees more while one of them is not valid. -/
def Card.junction (c : Card) : Option (Nat × Int) :=
  c.hottest.map (fun x => (x.1, if (List.range 10).all (fun i => (c.sensor i).isSome) then x.2 else x.2 + 80))

/-- The stage after a sample (R475), from the present stage, TJ in whole degrees, WARN_C and HOT_C. -/
def nextStage (stage : Nat) (tj warn hot : Int) : Nat :=
  if hot ≤ tj ∨ (stage = 2 ∧ hot - 3 < tj) then 2
  else if warn ≤ tj ∨ (1 ≤ stage ∧ warn - 3 < tj) then 1
  else 0

/-- The thermal ceiling of a stage in mV (R475)
(DEDUCED, assumption log entry 81). -/
def thermalCeil (stage : Nat) (tj warn : Int) : Nat :=
  if stage = 0 then 900 else if stage = 1 then ((max 700 (900 - 20 * (tj - warn))) / 5 * 5).toNat else 700

/-- The stage and the ceiling recomputed for TJ (R475, R481). -/
def Card.stageFor (c : Card) (tj : Int) : Card :=
  let k := mg 0x2000
  let old := c.f k 10 8
  let new := nextStage old tj (c.f (mg 0x2004) 15 8) (c.f (mg 0x2004) 23 16)
  let c := c.setF k 10 8 new
  let c := if old = 0 ∧ new = 1 then c.thmEvent 0 else c
  let c := if old < 2 ∧ new = 2 then c.thmEvent 1 else c
  let limit := c.f (mg 0x1004) 15 0
  let before := c.f (mg 0x2008) 15 0
  let ceil := thermalCeil new tj (c.f (mg 0x2004) 15 8)
  let c := (c.setF (mg 0x2008) 15 0 ceil).judgeHeld
  let c := if limit ≤ before ∧ ceil < limit then c.thmEvent 4 else c
  c.govFlags

/-- HUB_SENSOR_SAMPLE (R473, R475, R477, R483): with every hub sensor failed, which sensor and temperature
the trip records is free. `ts` holds the readings of sensors 0 to 9, none where one fails its
self-check. -/
def execHubSensorSample (ts : List (Option Int)) (s : State) : Host.Outcome State Fault Refusal :=
  s.run fun c =>
    if !c.on || c.coreOff then c
    else
      let c := (List.range 10).foldl (fun (c : Card) i => c.setSensor i (hubValid (ts.getD i none))) c
      match c.junction with
      | none => (c.trip (c.freeN % 256) (8 * ((Config.freeNat (c.fresh + 1) % 256 : Nat) : Int))).draw.draw
      | some (i, t8) =>
        let tj : Int := -((-t8) / 8)
        let k := mg 0x2000
        let c := (c.setF k 31 24 (toBits 8 tj)).setF k 23 16 i
        let c := if sint 8 (c.f (mg 0x201C) 7 0) < tj then c.setF (mg 0x201C) 7 0 (toBits 8 tj) else c
        match c.hottest with
        | some (j, v) => if 960 ≤ v then c.trip j v else c.stageFor tj
        | none => c

/-- MODULE_TEMP_SAMPLE (R185, R472, R477, R484): the temperature of the module on channel `ch` in 1/8 degree, none when its
sensor does not answer. A module at 95 degrees trips the card, or, while frozen, loses its channel's retention. -/
def execModuleTempSample (ch : Fin 8) (t : Option Int) (s : State) : Host.Outcome State Fault Refusal :=
  s.run fun c =>
    if !c.on || c.coreOff then c
    else
      let old := c.sensor (10 + ch.val)
      let c := c.setSensor (10 + ch.val) t
      match t with
      | none => c
      | some v =>
        let c := if 720 ≤ v ∧ old.all (fun x => decide (x < 720)) then c.thmEvent 2 else c
        if 760 ≤ v then (if c.frozen then { c.bandSample ch.val v with noRetention := true } else c.trip (10 + ch.val) v)
        else c.bandSample ch.val v

/-- AVS_POLL (R461, R477): the regulator's telemetry; a fault status sets REG_FAULT, and 125 degrees trips the card. -/
def execAvsPoll (p : AvsPoll) (s : State) : Host.Outcome State Fault Refusal :=
  s.run fun c =>
    if !c.on || c.coreOff then c
    else
      let c := c.setN (mg 0x1130) (min 65535 p.coreDa * 2 ^ 16 + min 255 p.temp * 2 ^ 8)
      let c := c.setSensor 18 (some (8 * (p.temp : Int)))
      let c := if p.fault then c.event 0x100C 2 1 else c
      if 125 ≤ p.temp then c.trip 18 (8 * (p.temp : Int)) else c

/-- WARMING_TICK (R463, R478): a millisecond ends, with the node power in mW averaged over it. One share is started or stopped
from HAMPERS_READY on, and not while frozen (R479). -/
def execWarmingTick (mw : Nat) (s : State) : Host.Outcome State Fault Refusal :=
  s.run fun c =>
    if !c.on then c
    else
      let uj := c.gov.energyUj + mw
      let c : Card := { c with gov := { c.gov with energyUj := uj % 1000 } }
      let c := c.setPair (mg 0x1128) (mg 0x112C) ((c.pair (mg 0x1128) (mg 0x112C) + uj / 1000) % 2 ^ 64)
      let c := c.setF (mg 0x1124) 15 0 (max (c.f (mg 0x1124) 15 0) (min 65535 (mw / 1000)))
      if !c.live || decide (c.stage < 7) || !c.bit (mg 0x2004) 31 then c
      else
        let floor := c.f (mg 0x200C) 23 16
        let warmTj : Int := c.f (mg 0x200C) 31 24
        let st := c.f (mg 0x2000) 10 8
        if st = 0 ∧ c.tj < warmTj ∧ mw + 3000 < floor * 1000 ∧ c.sharesDrawn < c.f (mg 0x200C) 12 8 then
          (if c.startWaits .share then c else c.govStart .share false none)
        else if 0 < c.sharesDrawn ∧ (floor * 1000 + 3000 < mw ∨ warmTj ≤ c.tj ∨ 0 < st) then (c.stopShares 1).govFlags
        else c

/-- The percent that a valid sensor asks for (R480): 100 x (T - LOW) / (HIGH - LOW), rounded up, from 0 to 100. -/
def airOf (lo hi : Int) (t8 : Int) : Nat := (clampI 0 100 (-((-(100 * (t8 - 8 * lo))) / (8 * (hi - lo))))).toNat

/-- The airflow request (R480). -/
def Card.airRequest (c : Card) : Nat :=
  let st := c.f (mg 0x2000) 10 8
  if 2 ≤ st ∨ (List.range 19).any (fun i => (c.sensor i).isNone) then 100
  else
    let vals := (List.range 21).map (fun i => match c.sensor i with
      | none => 0
      | some t => if i < 10 then airOf 60 95 t else if i < 18 then airOf 60 85 t else if i = 18 then airOf 70 110 t
                  else if i = 20 then airOf 45 65 t else 0)
    vals.foldl max (max (c.f (mg 0x2010) 6 0) (c.f (mg 0x2010) 14 8))

/-- AIRFLOW_UPDATE (R480). -/
def execAirflowUpdate (s : State) : Host.Outcome State Fault Refusal :=
  s.run fun c => if c.on then c.setF (mg 0x2000) 6 0 c.airRequest else c

end Sys2Proof.Machine
end

