-- ==== Sys2Proof/Machine/Keep.lean ====
section
/-! DEFINITION. The keep store, physical presence and the fuse array (spec/21). -/

namespace Sys2Proof.Machine

/-! ### The card's own records (R499) -/

/-- A log of 32 entries of 16 bytes as a section's payload. -/
def logPayload (next : Nat) (l : Tab (List Byte)) : List Byte :=
  leBytes 4 next ++ List.replicate 12 0 ++ (List.range 32).flatMap (fun i => (tabGet [] l i ++ List.replicate 16 (0 : Byte)).take 16)

/-- The CARD sections of the records, with some retirements taken out. -/
def KsRecords.sections (r : KsRecords) (clear : Nat) : List KsSection :=
  [ ⟨0x20, 0, 3, leBytes 4 (r.retired &&& (0xFFFFFFFF - clear))⟩,
    ⟨0x21, 0, 3, leBytes 4 r.tripCount ++ leBytes 4 r.tripPowerOn ++ leBytes 1 r.tripSensor ++ leBytes 1 r.tripTemp ++ List.replicate 6 0⟩,
    ⟨0x22, 0, 3, logPayload r.fuseNext r.fuseLog⟩,
    ⟨0x23, 0, 3, logPayload r.presNext r.presLog⟩,
    ⟨0x24, 0, 3, leBytes 4 r.powerOn ++ leBytes 4 r.sealOn ++ List.replicate 8 0⟩ ]

/-- A log read from a section's payload. -/
def readLog (p : List Byte) : Tab (List Byte) :=
  (List.range 32).foldl (fun t i => tabPut [] t i (if leAt p (16 + 16 * i) 16 = 0 then [] else (p.drop (16 + 16 * i)).take 16)) []

/-- The records as an image holds them. -/
def readRecords (img : List Byte) : KsRecords :=
  let p := fun (t : Nat) => (ksFind img t 0).getD []
  { retired := leAt (p 0x20) 0 4, tripCount := leAt (p 0x21) 0 4, tripPowerOn := leAt (p 0x21) 4 4, tripSensor := leAt (p 0x21) 8 1,
    tripTemp := leAt (p 0x21) 9 1, fuseNext := leAt (p 0x22) 0 4, fuseLog := readLog (p 0x22), presNext := leAt (p 0x23) 0 4,
    presLog := readLog (p 0x23), powerOn := leAt (p 0x24) 0 4, sealOn := leAt (p 0x24) 4 4 }

/-- The keep store is loaded (R488, R508). -/
def Card.keepLoaded (c : Card) : Bool := c.on && decide (3 ≤ c.stage)

/-- An entry of PRESENCE_LOG (R497, R499). -/
def Card.presenceLog (c : Card) (op means result detail : Nat) : Card :=
  if !c.keepLoaded then c
  else
    let on := c.keep.recs.powerOn
    let e := leBytes 4 on ++ leBytes 1 op ++ leBytes 1 means ++ leBytes 1 result ++ leBytes 1 0 ++ leBytes 4 detail ++ List.replicate 4 0
    c.recordsChanged false (fun (r : KsRecords) => { r with presNext := wrap32 (r.presNext + 1), presLog := tabPut [] r.presLog (r.presNext % 32) e })

/-- An entry of FUSE_LOG (R494, R499). -/
def Card.fuseLog (c : Card) (w cls phase action mask value : Nat) : Card :=
  let on := c.keep.recs.powerOn
  let e := leBytes 4 on ++ leBytes 1 w ++ leBytes 1 cls ++ leBytes 1 phase ++ leBytes 1 action ++ leBytes 4 mask ++ leBytes 4 value
  c.recordsChanged false (fun (r : KsRecords) => { r with fuseNext := wrap32 (r.fuseNext + 1), fuseLog := tabPut [] r.fuseLog (r.fuseNext % 32) e })

/-! ### Stores (R490, R491) -/

/-- An event of the keep store block. -/
def Card.ksEvent (c : Card) (b : Nat) : Card := c.event 0x301C b 3

/-- The current image; with none, an empty image with no sections (R488). -/
def Card.currentImage (c : Card) : List Byte := if c.f (mg 0x3004) 21 20 = 0 then ksBuild 0 [] else c.keepImage

/-- The bank that a store writes: the one that does not hold the current image. -/
def Card.otherBank (c : Card) : Nat := if c.f (mg 0x3004) 21 20 = 1 then 1 else 0

/-- The record changes of a STORE that did not commit are uncommitted as before (R491). -/
def Card.giveBack (c : Card) (j : KsJob) : Card :=
  { c with keep := { c.keep with dirty := j.dirty.or c.keep.dirty, urgent := c.keep.urgent || j.urgent } }

/-- The host's command ends with a RESULT (R500). -/
def Card.ksEnd (c : Card) (result : Nat) : Card :=
  let c := match c.keep.host with | some j => if result = 0 then c else c.giveBack j | none => c
  let c : Card := { c with keep := { c.keep with host := none } }
  (((c.setBit (mg 0x3004) 31 false).setBit (mg 0x3004) 30 false).setF (mg 0x3004) 27 24 result).ksEvent 0

/-- The generation of the next image. -/
def Card.nextGen (c : Card) : Nat := wrap32 ((c.reg (mg 0x3008)).toNat + 1)

/-- A bank is being written: it holds nothing until the write is verified, and the write is counted (R492). -/
def Card.writeBank (c : Card) (n : Nat) : Card :=
  let b : KsBank := tabGet {} c.keep.banks n
  let c : Card := { c with keep := { c.keep with banks := tabPut {} c.keep.banks n { data := [], wear := min 0xFFFFFFFF (b.wear + 1) } } }
  c.setN (mg (0x300C + 4 * n)) (min 0xFFFFFFFF (b.wear + 1))

/-- The sections that the host's command stores beside the card's own: staging's, or the current image's (R490, R500)
(DEDUCED, assumption log entry 82). -/
def Card.jobSections (c : Card) (j : KsJob) : List KsSection :=
  (ksList (if j.cmd = 1 then j.staging else c.currentImage)).filter (fun s => s.cls != 3)

/-- The host's command writes its image (R490 step 4). -/
def Card.hostWriteBank (c : Card) (j : KsJob) : Card :=
  match j.image with
  | some x =>
    let c := (c.setBit (mg 0x3004) 30 false).writeBank x.1
    { c with keep := { c.keep with host := some { j with waiting := false } } }
  | none => c

/-- A presence request (R496): granted at once with the jumper, refused while another window is open, else a window opens. -/
def Card.askPresence (c : Card) (op detail : Nat) (granted refused opened : Card → Card) : Card :=
  if c.pin.jumper then granted ((c.presenceLog op 2 1 detail).ksEvent 3)
  else if c.presence.isSome then refused c
  else
    let c := opened { c with presence := some ⟨op, detail, c.ns⟩ }
    if c.board.up then { c with board := { c.board with alert := nput c.board.alert 4 4 1 } } else c

/-- The PROTECTED sections of some sections. -/
def protectedOf (l : List KsSection) : List KsSection := l.filter (fun s => s.cls == 2)

/-- A STORE or CLEAR_RETIRE starts (R490 steps 1 to 3, R500). -/
def Card.startHostStore (c : Card) (j : KsJob) : Card :=
  let go := fun (c : Card) (clear : Nat) =>
    let secs := (c.keep.recs.sections clear).foldl (fun l s => ksPut s l) (c.jobSections j)
    let img := ksBuild c.nextGen secs
    if 65536 < img.length then (c.setF (mg 0x3004) 15 0 (c.freeN % 65536)).draw.ksEnd 1
    else
      let j' : KsJob := { j with image := some (c.otherBank, img), clear := clear, dirty := c.keep.dirty, urgent := c.keep.urgent }
      let c : Card := { c with keep := { c.keep with host := some j', dirty := none, urgent := false } }
      if j.cmd = 1 ∧ protectedOf (c.jobSections j) = protectedOf (ksList c.currentImage) then c.hostWriteBank j'
      else
        c.askPresence (if j.cmd = 1 then 1 else 2) c.nextGen (fun c => c.hostWriteBank j') (fun c => c.ksEnd 4) (fun c =>
          { c.setBit (mg 0x3004) 30 true with keep := { c.keep with host := some { j' with waiting := true } } })
  if j.cmd = 1 then
    match ksParse j.staging with
    | .fault o => (c.setF (mg 0x3004) 15 0 o).ksEnd 1
    | .ok l => if l.any (fun s => s.type == 2 && (formFault s.payload s.index c.stepping).isSome) then c.ksEnd 2 else go c 0
  else go c c.keep.recs.retired

/-- A write of MG_KS_CTL with GO (R500): GO is dropped while a command runs, but for an ABANDON of an open window. -/
def Card.ksGo (c : Card) (v : Word) (cmd : Nat) (run : Card → Card) : Card :=
  let c := c.writeReg (mg 0x3000) v
  if fld v 31 31 = 0 ∨ fld v 3 0 ≠ cmd then c
  else if c.bit (mg 0x3004) 31 && !(cmd == 4 && c.bit (mg 0x3004) 30) then c
  else run c

/-- A host command that writes a bank begins; it waits for a running internal STORE (R491). -/
def Card.beginHostStore (c : Card) (cmd : Nat) : Card :=
  let j : KsJob := { cmd := cmd, staging := c.keep.staging }
  let c : Card := { c.setBit (mg 0x3004) 31 true with keep := { c.keep with host := some j } }
  if c.keep.own.isSome then c else c.startHostStore j

/-- KEEP_STORE (R490). -/
def execKeepStore (v : Word) (s : State) : Host.Outcome State Fault Refusal :=
  s.run fun c => c.hostWrite .pf0 0x3000 fun c => c.ksGo v 1 fun c => c.beginHostStore 1

/-- RESTAGE (R500). -/
def execRestage (v : Word) (s : State) : Host.Outcome State Fault Refusal :=
  s.run fun c => c.hostWrite .pf0 0x3000 fun c => c.ksGo v 2 fun c =>
    ({ c with keep := { c.keep with staging := c.currentImage } } : Card).ksEnd 0

/-- CLEAR_RETIRE (R500)
(DEDUCED, assumption log entry 85). -/
def execClearRetire (v : Word) (s : State) : Host.Outcome State Fault Refusal :=
  s.run fun c => c.hostWrite .pf0 0x3000 fun c => c.ksGo v 3 fun c => c.beginHostStore 3

/-- ABANDON (R500): the block's open window closes and its command ends ABANDONED; with none open it ends OK
(DEDUCED, assumption log entry 84). -/
def execAbandon (v : Word) (s : State) : Host.Outcome State Fault Refusal :=
  s.run fun c => c.hostWrite .pf0 0x3000 fun c => c.ksGo v 4 fun c =>
    if c.presence.any (fun w => w.op == 1 || w.op == 2) then ({ c with presence := none } : Card).ksEnd 6 else c.ksEnd 0

/-- KS_BAD_COMMAND (R500). -/
def execKsBadCommand (v : Word) (s : State) : Host.Outcome State Fault Refusal :=
  s.run fun c => c.hostWrite .pf0 0x3000 fun c =>
    if 1 ≤ fld v 3 0 ∧ fld v 3 0 ≤ 4 then c else c.ksGo v (fld v 3 0) fun c => c.ksEnd 7

/-- INTERNAL_STORE (R487, R491): the records are committed over the current image; it waits for a running host command. -/
def execInternalStore (s : State) : Host.Outcome State Fault Refusal :=
  s.run fun c =>
    if !c.keepLoaded || c.keep.dirty.isNone || c.keep.own.isSome || c.keep.host.isSome then c
    else
      let secs := (c.keep.recs.sections 0).foldl (fun l s => ksPut s l) (ksList c.currentImage)
      let n := c.otherBank
      let j : KsJob := { cmd := 0, staging := [], image := some (n, ksBuild c.nextGen secs), dirty := c.keep.dirty, urgent := c.keep.urgent }
      let c := c.writeBank n
      { c with keep := { c.keep with own := some j, dirty := none, urgent := false } }

/-- A bank's write has been read back (R490 step 5): on a match it is current. -/
def Card.commitBank (c : Card) (n : Nat) (img : List Byte) (ok : Bool) : Card :=
  let k := mg 0x3004
  if ok then
    let b : KsBank := tabGet {} c.keep.banks n
    let c : Card := { c with keep := { c.keep with banks := tabPut {} c.keep.banks n { b with data := img } } }
    ((c.setF k 21 20 (n + 1)).setBit k (16 + n) true).setN (mg 0x3008) (leAt img 8 4)
  else c.setBit k (16 + n) false

/-- STORE_COMMIT (R490, R491): the write under way ends; `ok` when the bank read back equals what was written. A host command
that waited for an internal STORE starts. -/
def execStoreCommit (ok : Bool) (s : State) : Host.Outcome State Fault Refusal :=
  s.run fun c =>
    if !c.on then c
    else match c.keep.own, c.keep.host with
      | some j, h =>
        let c := match j.image with | some x => c.commitBank x.1 x.2 ok | none => c
        let c : Card := { c with keep := { c.keep with own := none } }
        let c := if ok then c.ksEvent 2 else c.giveBack j
        match h with
        | some y => if y.image.isNone then c.startHostStore y else c
        | none => c
      | none, some j =>
        match j.image with
        | some x =>
          if j.waiting then c
          else
            let c := c.commitBank x.1 x.2 ok
            let c : Card := if ok then { c with keep := { c.keep with recs := { c.keep.recs with retired := c.keep.recs.retired &&& (0xFFFFFFFF - j.clear) } } } else c
            c.ksEnd (if ok then 0 else 5)
        | none => c
      | none, none => c

/-! ### The staging window (R500) -/

/-- Four bytes of an image at an offset; missing ones read 0. -/
def imgWord (img : List Byte) (o : Nat) : Nat := leAt img o 4

/-- Four bytes of an image replaced. -/
def imgPut (img : List Byte) (o : Nat) (w : Word) : List Byte :=
  let img := img ++ List.replicate (o + 4 - img.length) 0
  img.take o ++ leBytes 4 w.toNat ++ img.drop (o + 4)

/-- OFFSET goes on by 4. -/
def Card.stgStep (c : Card) : Card := c.setF (mg 0x3014) 15 0 ((c.f (mg 0x3014) 15 0 + 4) % 65536)

/-- KS_STAGING_ACCESS (R500, R504): a read, or a write of `w`. A dropped write leaves OFFSET. -/
def execKsStagingAccess (w : Option Word) (s : State) : Host.Outcome State Fault Refusal :=
  s.run fun c =>
    let o := c.f (mg 0x3014) 15 0
    match w with
    | some v => c.hostWrite .pf0 0x3018 fun c =>
      if c.bit (mg 0x3014) 16 || c.bit (mg 0x3004) 31 then c
      else ({ c with keep := { c.keep with staging := imgPut c.keep.staging o v } } : Card).stgStep
    | none =>
      if !c.claims .pf0 then (c.unclaimed .pf0 false (some c.freeN)).draw
      else if !c.bootOpen 0x3018 then c.emit (.readData 0 0x3018 (List.replicate 4 0))
      else (c.emit (.readData 0 0x3018 (leBytes 4 (imgWord (if c.bit (mg 0x3014) 16 then c.currentImage else c.keep.staging) o)))).stgStep

/-! ### Presence (R496, R497) -/

/-- Fuse programming begins (R501). -/
def Card.startFuse (c : Card) : Card :=
  match c.fuseJob with
  | some _ => (c.setBit (mg 0x4018) 29 false).setBit (mg 0x4018) 30 true
  | none => c

/-- Fuse programming ends with a RESULT (R501). -/
def Card.fuseEnd (c : Card) (result : Nat) : Card :=
  let c : Card := { c with fuseJob := none }
  (((c.setBit (mg 0x4018) 30 false).setBit (mg 0x4018) 29 false).setF (mg 0x4018) 27 24 result).event 0x4004 5 4

/-- A read-out is granted (R438, R445): by the jumper or by the button. -/
def Card.grantReadout (c : Card) (jumper : Bool) : Card :=
  ((c.setBit (mg 0x5110) 30 false).setBit (mg 0x5110) 29 true).setBit (mg 0x5110) 28 jumper

/-- The open window's request is granted by some means, and the window closes (R496, R497). -/
def Card.grantWindow (c : Card) (means : Nat) : Card :=
  match c.presence with
  | none => c
  | some w =>
    let c := (({ c with presence := none } : Card).presenceLog w.op means 1 w.detail).ksEvent 3
    if w.op = 3 then c.startFuse
    else if w.op = 4 then c.grantReadout (means == 2)
    else match c.keep.host with | some j => c.hostWriteBank j | none => c

/-- BUTTON_PRESS (R496): the bracket button has been held for 50 ms, or is let go
(DESIGN CHOICE, assumption log entry 88). -/
def execButtonPress (down : Bool) (s : State) : Host.Outcome State Fault Refusal :=
  s.run fun c =>
    let c : Card := { c with pin := { c.pin with button := down } }
    if !c.on || !down then c
    else if c.presence.isSome then c.grantWindow 1
    else c.bump (mg 0x3024) 1

/-- JUMPER_FITTED (R507): the service jumper is fitted, or taken off. -/
def execJumperFitted (fitted : Bool) (s : State) : Host.Outcome State Fault Refusal :=
  s.run fun c =>
    let c : Card := { c with pin := { c.pin with jumper := fitted } }
    if c.on && fitted then c.grantWindow 2 else c

/-- No presence demand is open. -/
def Card.endPresence (c : Card) : Card := { c with presence := none }

/-- PRESENCE_TIMEOUT (R496): card time reaches the end of the window, 30 s after it opened. -/
def execPresenceTimeout (s : State) : Host.Outcome State Fault Refusal :=
  s.run fun c => match c.presence with
    | none => c
    | some w =>
      if !c.on then c
      else
        let c := c.advanceTo (w.since + 30000000000)
        let c := (c.endPresence.presenceLog w.op 0 2 w.detail).ksEvent 4
        if w.op = 3 then c.fuseEnd 3 else if w.op = 4 then c.setBit (mg 0x5110) 30 false else c.ksEnd 3

/-! ### Fuses (R493 to R495, R501) -/

/-- The class code of a fuse word (R493). -/
def fuseClass (w : Nat) : Nat :=
  if w < 4 then 1 else if w < 36 then 2 else if w < 48 then 3 else if w = 48 then 4 else if w < 64 then 5 else 6

/-- A fuse word as it left manufacture: the contents that R493 gives, no unit disabled (R25), the owner's words blank. -/
def fuseMade (w : Nat) : Word :=
  if w = 2 then 0x46400141 else if w < 36 then Config.fuseWord w else 0

/-- A fuse word with what has been blown since. -/
def Card.fuseBits (c : Card) (w : Nat) : Word := fuseMade w ||| tabGet 0 c.blown w

/-- Bits of a fuse word blown. -/
def Card.blow (c : Card) (w : Nat) (bits : Word) : Card :=
  { c with blown := tabPut 0 c.blown w (tabGet 0 c.blown w ||| bits) }

/-- The register of a fuse word's resolved value, and that of its marginal bits. -/
def fuseReg (w : Nat) : Nat := mg (0x4100 + 4 * w)
def marginReg (w : Nat) : Nat := mg (0x4300 + 4 * w)

/-- The value to which a word with marginal bits resolves (R494): `solid` holds the other bits. -/
def Card.resolve (c : Card) (w : Nat) (solid mask low : Word) : Word :=
  match fuseClass w with
  | 2 => match ksFind c.keepImage 3 w with
    | some p => BitVec.ofNat 32 (leAt p 0 4)
    | none => Config.nominalTrim w
  | 3 => solid ||| mask
  | 4 => solid ||| mask
  | 6 => solid
  | _ => solid ||| (low &&& mask)

/-- The ACTION of a marginal word's log entry (R499). -/
def Card.fuseAction (c : Card) (w phase : Nat) : Nat :=
  match fuseClass w with
  | 1 => if phase = 1 then 4 else 5
  | 2 => if (ksFind c.keepImage 3 w).isSome then 2 else 3
  | 3 => if w < 40 then 1 else 5
  | _ => 5

/-- The events of a marginal word (R494, R501). -/
def Card.fuseEvents (c : Card) (w phase : Nat) : Card :=
  let c := c.event 0x4004 0 4
  match fuseClass w with
  | 1 => if phase = 2 then c.event 0x4004 4 4 else c
  | 2 => c.event 0x4004 (if (ksFind c.keepImage 3 w).isSome then 1 else 2) 4
  | 3 => c.event 0x4004 3 4
  | _ => c

/-- The number of marginal words shown (R501). -/
def Card.countMargins (c : Card) : Card :=
  c.setF (mg 0x4000) 7 0 ((List.range 128).filter (fun w => c.reg (marginReg w) != 0)).length

/-- MG_HAMPER_UNITS from the repair words (R22, R25, R493). -/
def Card.setUnits (c : Card) : Card :=
  hampers.foldl (fun (c : Card) h =>
    let w := (c.reg (fuseReg (36 + h))).toNat
    let u := (0x7FFFFFFF - w % 2 ^ 31)
    let full := nbits u 15 0 != 0 && nbits u 19 16 != 0 && nbits u 21 20 != 0 && nbits u 29 22 != 0 && nbit u 30
    c.setN (mg (0x0010 + 4 * h)) (u + b2n (full && !nbit w 31) * 2 ^ 31)) c

/-- WARM_RECHECK (R494, R495, R505): the first time TJ reaches 85 degrees; `ms` gives the bits found marginal now, or read
otherwise than cold
(DEDUCED, assumption log entry 86). -/
def execWarmRecheck (ms : List FuseMargin) (s : State) : Host.Outcome State Fault Refusal :=
  s.run fun c =>
    if !c.on || c.coreOff || !c.bit (mg 0x4000) 31 || c.bit (mg 0x4000) 30 || c.bit (mg 0x4000) 29 || decide (c.tj < 85) then c
    else
      let c := ms.foldl (fun (c : Card) m =>
        let w := m.word.val
        let old := c.reg (marginReg w)
        let mask := old ||| m.mask
        if mask = old then c
        else
          let solid := c.fuseBits w &&& ~~~ mask
          let low := (m.low &&& m.mask) ||| (c.reg (fuseReg w) &&& old)
          let v := if fuseClass w = 1 then c.reg (fuseReg w) else c.resolve w solid mask low
          let c := (c.setReg (marginReg w) mask).setReg (fuseReg w) v
          (c.fuseLog w (fuseClass w) 2 (c.fuseAction w 2) mask.toNat v.toNat).fuseEvents w 2) c
      hampers.foldl (fun (c : Card) h => (c.settleRetries h).settleGroups h) (c.setBit (mg 0x4000) 30 true).countMargins.setUnits

/-- The words that host software may program (R493, R501). -/
def programmable (w : Nat) : Bool := (decide (36 ≤ w) && decide (w ≤ 39)) || (decide (49 ≤ w) && decide (w ≤ 63))

/-- FUSE_PROGRAM (R497, R501, R506): a write of MG_FUSE_PROG_CTL; GO is dropped while programming runs or waits
(DEDUCED, assumption log entry 87). -/
def execFuseProgram (v : Word) (s : State) : Host.Outcome State Fault Refusal :=
  s.run fun c => c.hostWrite .pf0 0x4018 fun c =>
    if fld v 31 31 = 0 ∨ c.bit (mg 0x4018) 30 = true ∨ c.bit (mg 0x4018) 29 = true then c
    else
      let w := c.f (mg 0x4010) 6 0
      if c.stage = 2 then c.fuseEnd 2
      else if !programmable w then c.fuseEnd 1
      else
        let c : Card := { c with fuseJob := some ⟨w, (c.reg (mg 0x4014)).toNat⟩ }
        c.askPresence 3 w (fun c => c.startFuse) (fun c => c.fuseEnd 4) (fun c => c.setBit (mg 0x4018) 29 true)

/-- FUSE_PROGRAM_DONE (R501): the word's margin read finds the bits of `solid` solid-1. -/
def execFuseProgramDone (solid : Word) (s : State) : Host.Outcome State Fault Refusal :=
  s.run fun c => match c.fuseJob with
    | none => c
    | some j =>
      if !c.on || !c.bit (mg 0x4018) 30 then c
      else
        let bits := BitVec.ofNat 32 j.blow
        (c.blow j.word bits).fuseEnd (if bits &&& ~~~ solid = 0 then 0 else 5)

/-! ### The seal (R498) -/

/-- A broken seal is found while the keep store is loaded: SEAL_BROKEN is blown, and its power-on recorded the first time
(DEDUCED, assumption log entry 89). -/
def Card.recordSeal (c : Card) : Card :=
  let new := !c.bit (fuseReg 48) 0
  let on := c.keep.recs.powerOn
  let c := (c.blow 48 1).setBit (fuseReg 48) 0 true
  let c := if new then c.recordsChanged false (fun (r : KsRecords) => { r with sealOn := on }) else c
  c.ksEvent 5

/-- SEAL_BREAK (R498): the loop opens; found at POWER_GOOD, or now once the keep store is loaded. -/
def execSealBreak (s : State) : Host.Outcome State Fault Refusal :=
  s.run fun c =>
    if c.pin.sealOpen then c
    else
      let c : Card := { c with pin := { c.pin with sealOpen := true } }
      let c : Card := if c.board.up then { c with board := { c.board with alert := nput c.board.alert 5 5 1 } } else c
      if c.keepLoaded then c.recordSeal else c

end Sys2Proof.Machine
end

