-- ==== Sys2Proof/Machine/Boot.lean ====
section
/-! DEFINITION. Bring-up (spec/22): the stages from power to ready, the conventional reset and the hot reset. -/

namespace Sys2Proof.Machine

/-- A stage is entered (R508, R516): its stamp, and the event
(DEDUCED, assumption log entry 93). -/
def Card.enterStage (c : Card) (n : Nat) : Card :=
  ((c.setF (mg 0x0030) 3 0 n).setN (mg (0x0040 + 4 * n)) (min 0xFFFFFFFE c.us)).event 0x0034 0 0

/-- POWER_GOOD is reached (R508, R516): the time base starts at 0, the auxiliary input is sensed and its qualification begins. -/
def Card.powerUp (c : Card) : Card :=
  let c : Card := { c with on := true, clk := {} }
  let c := (c.setBit (mg 0x0028) 0 c.pin.cable.isSome).setBit (mg 0x1108) 25 c.pin.cable.isSome
  ((c.enterStage 0).startQual).checkSupplies

/-- POWER_GOOD (R462, R508): the node has reached 11.0 V. -/
def execPowerGood (s : State) : Host.Outcome State Fault Refusal :=
  s.run fun c => if c.on || !c.pin.slot12 then c else c.powerUp

/-- REGULATOR_RETRY (R522): another 10 ms without the regulator's acknowledgement. -/
def execRegulatorRetry (s : State) : Host.Outcome State Fault Refusal :=
  s.run fun c =>
    if !c.on || decide (c.stage ≠ 0) || c.f (mg 0x1108) 31 29 != 1 || c.avs.up then c
    else (c.event 0x100C 1 1).bootVoltage

/-- After a trip the card waits while TJ is at or above 90 degrees (R477, R523). -/
def Card.tooHot (c : Card) : Bool := c.pin.hot && (decide (90 ≤ c.tj) || c.hottest.isNone)

/-- FUSE_READ (R508): the regulator has acknowledged 700 mV and the core has soft-started. -/
def execFuseRead (s : State) : Host.Outcome State Fault Refusal :=
  s.run fun c =>
    if !c.on || decide (c.stage ≠ 0) || c.f (mg 0x1108) 31 29 != 1 || !c.avs.up || c.tooHot then c
    else ({ c with pin := { c.pin with hot := false } } : Card).enterStage 1

/-! ### The cold fuse read and the keep store (R488, R494, R508) -/

/-- The marginal bits of a word, and what the word reads at the low current. -/
def marginOf (ms : List FuseMargin) (w : Nat) : Word × Word :=
  (ms.filter (fun m => m.word.val == w)).foldl (fun (p : Word × Word) m => (p.1 ||| m.mask, p.2 ||| (m.low &&& m.mask))) (0, 0)

/-- The banks read: the current image is the valid one of higher generation; staging takes a copy of it. -/
def Card.loadBanks (c : Card) : Card :=
  let b := fun (n : Nat) => (tabGet {} c.keep.banks n : KsBank)
  let v0 := bankValid (b 0).data
  let v1 := bankValid (b 1).data
  let cur := if v0 && v1 then (if leAt (b 0).data 8 4 < leAt (b 1).data 8 4 then 2 else 1) else if v0 then 1 else if v1 then 2 else 0
  let k := mg 0x3004
  let c := ((c.setF k 23 22 (if v0 && v1 then 0 else if v0 || v1 then 1 else 2)).setF k 21 20 cur).setF k 17 16 (b2n v0 + 2 * b2n v1)
  let c := (c.setN (mg 0x300C) (b 0).wear).setN (mg 0x3010) (b 1).wear
  let c := c.setN (mg 0x3008) (if cur = 0 then 0 else leAt c.keepImage 8 4)
  { c with keep := { c.keep with staging := c.currentImage, recs := readRecords c.keepImage, dirty := none, urgent := false } }

/-- A fuse word's resolved value and marginal bits set. -/
def Card.readFuse (c : Card) (ms : List FuseMargin) (w : Nat) : Card :=
  let m := marginOf ms w
  let solid := c.fuseBits w &&& ~~~ m.1
  let v := if m.1 = 0 then solid else c.resolve w solid m.1 m.2
  (c.setReg (fuseReg w) v).setReg (marginReg w) m.1

/-- KEEP_LOAD (R488, R494, R498, R508): the cold fuse read ends with the marginal bits `ms`. With a marginal identity word the
card holds at FUSE_HOLD; else both banks are read, the power-on count rises by 1, and the marginal words and a broken seal are
recorded
(DEDUCED, assumption log entry 83)
(DEDUCED, assumption log entry 92). -/
def execKeepLoad (ms : List FuseMargin) (s : State) : Host.Outcome State Fault Refusal :=
  s.run fun c =>
    if !c.on || c.coreOff || decide (c.stage ≠ 1) then c
    else
      let marginal := (List.range 128).filter (fun w => (marginOf ms w).1 != 0)
      let hold := marginal.any (fun w => fuseClass w == 1)
      let c : Card := { c with coldMarginal := !marginal.isEmpty }
      let c := if hold then c.enterStage 2
        else (c.enterStage 3).loadBanks.recordsChanged false (fun (r : KsRecords) => { r with powerOn := wrap32 (r.powerOn + 1) })
      let c := (List.range 128).foldl (fun (c : Card) w => c.readFuse ms w) c
      let c := marginal.foldl (fun (c : Card) w =>
        let c := if hold then c else c.fuseLog w (fuseClass w) 1 (c.fuseAction w 1) (c.reg (marginReg w)).toNat (c.reg (fuseReg w)).toNat
        c.fuseEvents w 1) c
      let c := (c.setBit (mg 0x4000) 31 true).countMargins
      if hold then c.setBit (mg 0x4000) 29 true
      else
        let c := ((c.setReg (mg 0x0008) (c.reg (fuseReg 0))).setReg (mg 0x000C) (c.reg (fuseReg 1))).setUnits
        if c.pin.sealOpen then c.recordSeal else c

/-! ### Memory (R184, R509, R511) -/

/-- One channel at MEM_DELAYS (R24, R184, R509): its module's result; in service with a calibration set for some band and its
DDR5 initialisation done. -/
def Card.bringChannel (c : Card) (ch : Nat) (m : ModuleResult) : Card :=
  let k := mg 0x0020
  match m.seat with
  | .absent => c
  | .refused => (c.setBit k (8 + ch) true).setF (chPage ch) 2 0 4
  | .accepted =>
    let band := bandAfter 0 m.temp
    let c := (c.setBit k ch true).setF (chPage ch) 31 24 (toBits 8 (m.temp / 8))
    match c.calNear ch band with
    | none => c
    | some p =>
      if !m.initOk then c
      else
        let c := (((c.setF (chPage ch) 9 8 band).stageSet ch p).enforce ch 0).enforce ch 1
        (c.setF (chPage ch) 2 0 1).setBit k (16 + ch) m.colander

/-- MEM_DELAYS (R509): KEEP_LOAD has ended, so the power-on count and TRIP_PREV (R523) are shown; the module results are
published and each channel takes its calibration set. `rs` gives the channels' results, channel 0 first. -/
def execMemDelays (rs : List ModuleResult) (s : State) : Host.Outcome State Fault Refusal :=
  s.run fun c =>
    if !c.on || c.coreOff || decide (c.stage ≠ 3) then c
    else
      let r := c.keep.recs
      let c := (c.enterStage 4).setN (mg 0x003C) r.powerOn
      let c := if 0 < r.tripCount ∧ r.powerOn = wrap32 (r.tripPowerOn + 1) then c.thmEvent 5 else c
      (List.range 8).foldl (fun (c : Card) ch => match rs[ch]? with
        | some m => c.bringChannel ch m
        | none => c) c

/-- The stored default of hamper `h`, if it passes rules 0x01 to 0x08 (R511). -/
def Card.storedDefault (c : Card) (h : Nat) : Option Layout :=
  (ksFind c.keepImage 2 h).bind (fun p => if (formFault p h c.stepping).isNone then some (readLayout p true) else none)

/-- The last-level cache is empty. -/
def Card.emptyCache (c : Card) : Card := { c with cache := [] }

/-- The accesses to a rank go to another. -/
def Card.redirectRank (c : Card) (k t : Nat) : Card := { c with redirect := tabPut none c.redirect k (some t) }

/-- MEM_READY (R196, R511): the caches are invalidated and the rank states settled. -/
def execMemReady (s : State) : Host.Outcome State Fault Refusal :=
  s.run fun c =>
    if !c.on || c.coreOff || decide (c.stage ≠ 4) then c
    else
      let c := (c.enterStage 5).emptyCache
      let defs := hampers.filterMap c.storedDefault
      let serves := fun (k : Nat) => c.f (chPage (k / 2)) 2 0 == 1
      let recorded := fun (k : Nat) => nbit c.keep.recs.retired k
      let c := (List.range 16).foldl (fun (c : Card) k =>
        if !serves k || recorded k then c
        else c.setRank k (if defs.any (fun l => nbit l.spare k) then 2 else 1) 0) c
      let c := (List.range 16).foldl (fun (c : Card) k =>
        if !serves k || !recorded k then c
        else match c.pickTarget defs k with
          | some t => ((c.setRank k 4 t).setRank t 5 k).redirectRank k t
          | none => c.loseRank k) c
      (c.setCapacity.trainPort 0).trainPort 1

/-! ### Layouts and service (R510, R512, R515, R517) -/

/-- A stored default as it is checked at bring-up: the SPARE bits of HOSTING, RETIRED and LOST ranks read 0 (R512). -/
def Card.maskSpares (c : Card) (l : Layout) : Layout :=
  { l with spare := (maskList l.spare 16).foldl (fun a k => if 4 ≤ c.rankState k then a else a + 2 ^ k) 0 }

/-- A default that failed or is missing: LAST_RESULT holds the code (R69). -/
def Card.defaultFailed (c : Card) (h code : Nat) : Card := (c.lastResult h code).setBit (mg 0x0030) (24 + h) true

/-- Hamper `h`'s default checked (R69, R515); one that passes waits for its application as bring-up's start. -/
def Card.checkDefault (c : Card) (h : Nat) : Card :=
  match ksFind c.keepImage 2 h with
  | none => c.defaultFailed h 0x41
  | some img =>
    match formFault img h c.stepping with
    | some f => (c.noteImage h img).defaultFailed h f.1
    | none =>
      let l := c.maskSpares (readLayout img true)
      let c := c.noteCheck h l
      match c.rulesFault h l with
      | some f => c.defaultFailed h f.1
      | none =>
        if c.bit (mg (0x0010 + 4 * h)) 31 then
          let c := (c.lastResult h 0).makePending h l
          c.setFn (h + 1) { c.fnOf (h + 1) with cause := 4 }
        else c.lastResult h 0x43

/-- LAYOUT_DEFAULT (R512, R515)
(DEDUCED, assumption log entry 90). -/
def execLayoutDefault (s : State) : Host.Outcome State Fault Refusal :=
  s.run fun c =>
    if !c.live || decide (c.stage ≠ 5) then c
    else hampers.foldl (fun (c : Card) h => c.checkDefault h) (c.enterStage 6)

/-- What makes the card DEGRADED as bring-up ends (R517). -/
def Card.degraded (c : Card) : Bool :=
  (List.range 8).any (fun ch => c.f (chPage ch) 2 0 == 0 || c.f (chPage ch) 2 0 == 4) ||
  hampers.any (fun h => c.bit (mg (0x0010 + 4 * h)) 31 && !c.started h) ||
  (List.range 16).any (fun k => c.rankState k == 6) || c.f (mg 0x3004) 23 22 != 0 || c.coldMarginal

/-- The first pace window and the turn of the hampers start. The window runs to the next multiple of 256,000 ns and is judged
like any other (DESIGN CHOICE, assumption log entry 125). -/
def Card.startWindows (c : Card) : Card :=
  { c with winAt := c.ns, winFrozen := false, rot := [], avs := { c.avs with held := c.avsRequest == c.effCeil } }

/-- HAMPERS_READY (R510, R517): every passing default has been applied; one whose second check failed counts as failed. The
pace windows start. -/
def execHampersReady (s : State) : Host.Outcome State Fault Refusal :=
  s.run fun c =>
    let under := hampers.any (fun h => [FnPhase.starting, FnPhase.filling].contains (c.fnOf (h + 1)).phase && (c.fnOf (h + 1)).cause == 4)
    if !c.live || decide (c.stage ≠ 6) || under then c
    else
      let c := c.enterStage 7
      let c := hampers.foldl (fun (c : Card) h =>
        if (c.fnOf (h + 1)).phase = .off ∧ c.f (layState h) 15 8 ≠ 0 ∧ c.f (layState h) 15 8 ≠ 0x43 then c.setBit (mg 0x0030) (24 + h) true else c) c
      let c := hampers.foldl (fun (c : Card) h => c.setPace h { target := c.f (mg (0x1010 + 4 * h)) 15 0 }) c
      let c := c.startWindows
      if c.degraded then (c.setBit (mg 0x0030) 31 true).event 0x0034 1 0 else c

/-! ### Resets of the card (R503, R520, R521) -/

/-- CONVENTIONAL_RESET (R503, R520): PERST# discards everything but what is stored, what the pins and the service parts sense,
and the board controller; the card is at POWER_GOOD again. A keep-store window that was open closes with RESULT ABANDONED. -/
def execConventionalReset (s : State) : Host.Outcome State Fault Refusal :=
  s.run fun c =>
    if !c.on then c
    else
      let d : Card := {
        keep := { banks := c.keep.banks }
        blown := c.blown
        pin := { c.pin with qualFrom := none }
        freezeN := c.freezeN
        tap := c.tap
        board := c.board
        fresh := c.fresh
        out := c.out }
      let d := d.setF (mg 0x0028) 3 1 (c.f (mg 0x0028) 3 1)
      let d := if c.presence.any (fun w => w.op == 1 || w.op == 2) then d.setF (mg 0x3004) 27 24 6 else d
      d.powerUp

/-- No PTM dialogue is open and none was missed. -/
def Card.restartPtm (c : Card) : Card := { c with clk := { c.clk with missed := 0, open_ := false } }

/-- Every function's configuration space is as at reset. -/
def Card.clearCfg (c : Card) : Card := { c with cfg := [] }

/-- HOT_RESET (R90, R97, R521): every function's configuration space returns to reset, but the sticky AER bits; every started
hamper takes a PF reset
(DEDUCED, assumption log entry 95). -/
def execHotReset (s : State) : Host.Outcome State Fault Refusal :=
  s.run fun c =>
    if !c.on then c
    else
      let c := if (c.cfgOf 0).ptmEn then (c.setSync 0).restartPtm else c
      let held := hampers.filter (fun h => (c.fnOf (h + 1)).phase == .held)
      let ready := hampers.filter (fun h => (c.fnOf (h + 1)).phase == .ready)
      let c := ready.foldl (fun (c : Card) h => c.askPfReset h 1 false true) c
      let c := hampers.foldl (fun (c : Card) h =>
        let f := c.fnOf (h + 1)
        if f.phase = .draining then c.setFn (h + 1) { f with d3 := false } else c) c
      let c := c.clearCfg
      held.foldl (fun (c : Card) h => (c.setFn (h + 1) { c.fnOf (h + 1) with d3 := false, cause := 1, hot := true }).pfReadable h) c

end Sys2Proof.Machine
end

