-- ==== Sys2Proof/Machine/Pcie.lean ====
section
/-! DEFINITION. What host software and the link do to a function beside its registers (spec/04): unclaimed and poisoned
requests, VF Enable, Bus Master Enable, pending MSI-X messages, the resources of VFs, and errors logged in AER. -/

namespace Sys2Proof.Machine

/-- UNCLAIMED_MEMORY_REQUEST (R580, R79). -/
def execUnclaimedMemoryRequest (fn : Fn) (write : Bool) (hdr : Nat) (s : State) : Host.Outcome State Fault Refusal :=
  s.run fun c => if !c.on || c.claims fn then c else c.unclaimed fn write (some hdr)

/-- POISONED_WRITE_RECEIVED (R79): the write is dropped. -/
def execPoisonedWriteReceived (fn : Fn) (hdr : Nat) (s : State) : Host.Outcome State Fault Refusal :=
  s.run fun c => if !c.on then c else c.aerLog fn.pfNum .poisoned (some hdr)

/-- PCIE_LINK_ERROR (R79): logged in PF0 only. -/
def execPcieLinkError (e : LinkError) (s : State) : Host.Outcome State Fault Refusal :=
  s.run fun c => if !c.on then c else c.aerLog 0 (match e with
    | .receiver => .receiver
    | .badTlp => .badTlp
    | .badDllp => .badDllp
    | .replayTimeout => .replayTimeout
    | .replayRollover => .replayRollover
    | .dataLinkProtocol => .dataLink
    | .receiverOverflow => .receiverOverflow) none

/-- TLP_ERROR_RECEIVED (R79): logged by the function concerned, or by its PF for a VF. -/
def execTlpErrorReceived (fn : Fn) (e : TlpError) (hdr : Nat) (s : State) : Host.Outcome State Fault Refusal :=
  s.run fun c => if !c.on then c else c.aerLog fn.pfNum (match e with
    | .malformed => .malformed
    | .ecrc => .ecrc
    | .unexpectedCompletion => .unexpectedCompletion) (some hdr)

/-- The VFs of a hamper come into existence (R75): each is READY when its PF is, and one enabled before its PF is READY stays not
READY until its own reset (DESIGN CHOICE, assumption log entry 131). -/
def Card.startVfs (c : Card) (h : Nat) : Card :=
  (List.range (c.cfgOf (h + 1)).numVfs).foldl (fun (c : Card) v =>
    (c.setFn (vfNum h v) { phase := .ready }).setBit ((Space.vf h v).key 0) 31 (c.bit (hp h 0) 31)) (c.dropVfs h)

/-- VF_ENABLE_WRITE (R75): NumVFs first, unchanged while VF Enable is 1 and by a value above 8; then VF Enable, which stays 0
while ARI Capable Hierarchy is 0. VFs that cease have their work ended as by a reset of each
(DEDUCED, assumption log entry 11). -/
def execVfEnableWrite (h : Fin 4) (en : Bool) (num : Option Nat) (s : State) : Host.Outcome State Fault Refusal :=
  s.run fun c =>
    let h := h.val
    if !c.on || !(c.fnOf (h + 1)).exposed then c
    else
      let g := c.cfgOf (h + 1)
      let g : Cfg := match num with
        | some n => if !g.vfEn && decide (n ≤ 8) then { g with numVfs := n } else g
        | none => g
      let c := c.setCfg (h + 1) g
      if en = g.vfEn then c
      else if en then
        if (c.cfgOf 1).ari then (c.setCfg (h + 1) { g with vfEn := true }).startVfs h else c
      else
        let c := ((List.range 8).filter (fun v => c.vfExists h v)).foldl (fun (c : Card) v => (c.resetVf h v).1) c
        (c.setCfg (h + 1) { g with vfEn := false }).dropVfs h

/-- The rings of a function go on. -/
def Card.pumpFn (c : Card) (n : Nat) : Card :=
  if !c.live then c
  else hampers.foldl (fun c h => (List.range 16).foldl (fun (c : Card) r => if c.ringFn h r = n then c.pump h r else c) c) c

/-- BUS_MASTER_ENABLE_WRITE (R98): output held while it was 0 resumes in its original order. -/
def execBusMasterEnableWrite (fn : Fn) (en : Bool) (s : State) : Host.Outcome State Fault Refusal :=
  s.run fun c =>
    if !c.on then c
    else
      let n := fn.num
      let c := c.setCfg n { c.cfgOf n with bme := en }
      let c := if en then c.msixRelease n else c
      if en then (if c.live then c.settleSigs else c).pumpFn n else c

/-- MSIX_MESSAGE_RELEASE (R86). -/
def execMsixMessageRelease (fn : Fn) (s : State) : Host.Outcome State Fault Refusal :=
  s.run fun c => if c.on then c.msixRelease fn.num else c

/-- The VFs of a hamper other than one. -/
def otherVfs (v : Nat) : List Nat := (List.range 8).filter (fun w => w != v)

/-- The new value of a VF's resource register passes R88. -/
def Card.vfResourceOk (c : Card) (h v : Nat) (kind : VfResource) (w : Word) : Bool :=
  match kind with
  | .rings => (otherVfs v).all (fun u => c.reg (hp h (0x100 + 4 * u)) &&& w &&& 0xFFFF == 0)
  | .sems =>
    let b := 64 * fld w 5 0
    let n := 64 * fld w 14 8
    decide (b + n ≤ 4096) && (otherVfs v).all (fun u => !rangesMeet b n (c.vfSems h u).1 (c.vfSems h u).2)
  | .ctx =>
    let b := fld w 11 0
    let n := fld w 27 16
    decide (b + n ≤ 4096) && (n == 0 || b != 0) &&
      (otherVfs v).all (fun u => !rangesMeet b n (c.f (hp h (0x140 + 4 * u)) 11 0) (c.f (hp h (0x140 + 4 * u)) 27 16))

/-- VF_RESOURCE_WRITE (R88): the register is unchanged while the VF is enabled or where the value fails a check
(DEDUCED, assumption log entry 116). -/
def execVfResourceWrite (h : Fin 4) (v : Fin 8) (kind : VfResource) (val : Word) (s : State) : Host.Outcome State Fault Refusal :=
  let p := match kind with
    | .rings => (0x100, 0xFFFF)
    | .sems => (0x120, 0x7F3F)
    | .ctx => (0x140, 0x0FFF0FFF)
  s.run fun c => c.hostWrite (.pf h) (p.1 + 4 * v.val) fun c =>
    if c.vfExists h.val v.val || !c.vfResourceOk h.val v.val kind val then c
    else c.setN (hp h.val (p.1 + 4 * v.val)) (val.toNat &&& p.2)

end Sys2Proof.Machine
end

