-- ==== Sys2Proof/Machine/Freeze.lean ====
section
/-! DEFINITION. Freeze, read-out and thaw (spec/18 R432 to R448). -/

namespace Sys2Proof.Machine

/-! ### Thaw requests and the control register (R440, R445) -/

/-- A thaw is requested (R440): refused with a code, or the card begins to resume. One that arrives while thawing changes
nothing. -/
def Card.thawRequest (c : Card) : Card :=
  let k := mg 0x5004
  if !c.on then c
  else if !c.frozen then c.setF k 23 16 1
  else if c.thawing then c
  else if c.freezeN then c.setF k 23 16 2
  else if c.noRetention then c.setF k 23 16 3
  else if c.bit (mg 0x5100) 30 then c.setF k 23 16 4
  else (c.setF k 23 16 0).setBit k 29 true

/-- A write that has reached MG_FRZ_CTL: its fields, then FREEZE, then THAW. -/
def Card.frzCtl (c : Card) (v : Word) : Card :=
  let c := c.writeReg (mg 0x5000) v
  let c := if fld v 31 31 = 1 then c.freezeRequest 3 else c
  if fld v 30 30 = 1 then c.thawRequest else c

/-! ### The sources (R432, R434, R442) -/

/-- FREEZE_PIN (R432, R440): a falling edge held low for 1 us requests a freeze; a rising edge only lets the pin go. -/
def execFreezePin (low : Bool) (s : State) : Host.Outcome State Fault Refusal :=
  s.run fun c =>
    let was := c.freezeN
    let c : Card := { c with freezeN := low }
    if low && !was then c.freezeRequest 1 else c

/-- FREEZE_REGISTER (R432)
(DEDUCED, assumption log entry 94). -/
def execFreezeRegister (v : Word) (s : State) : Host.Outcome State Fault Refusal :=
  s.run fun c => c.hostWrite .pf0 0x5000 fun c => c.frzCtl v

/-- FREEZE_LINK_PULSE (R432, R442). -/
def execFreezeLinkPulse (p : Fin 2) (s : State) : Host.Outcome State Fault Refusal :=
  s.run fun c => if c.cable p.val then c.freezeRequest (4 + p.val) else c

/-- FREEZE_MATCH_TIME (R434): card time reaches the match time, while it is not 0, the match is armed and its source enabled;
firing disarms it. -/
def execFreezeMatchTime (s : State) : Host.Outcome State Fault Refusal :=
  s.run fun c =>
    let t := c.pair (mg 0x5034) (mg 0x5038)
    if !c.on || !c.bit (mg 0x5030) 31 || !c.bit (mg 0x5000) 11 || t == 0 then c
    else ((c.advanceTo t).setBit (mg 0x5030) 31 false).freezeRequest 6

/-! ### Settling (R433) -/

/-- The chains, in order (R443). -/
def chains : List Nat := List.range 21 ++ [0, 1, 2, 3].flatMap (fun h => (List.range 44).map (fun i => 32 + 64 * h + i))

/-- Each unit's stop stamp: it has completed some number of handshakes since the last. -/
def Card.stampUnits (c : Card) : Card :=
  let n := c.fresh
  { c with stamps := chains.foldl (fun t k => tabPut 0 t k ((tabGet 0 t k + Config.freeNat (n + k)) % 2 ^ 64)) c.stamps, fresh := n + 512 }

/-- A frozen card has no open row, and its governor measures nothing. -/
def Card.settleStop (c : Card) : Card := { c with rowsOpen := [], gov := { c.gov with b := 0 } }

/-- FREEZE_SETTLED (R433 steps 2 to 5, R458, R484): every unit has stopped, the current of B and of the warming shares has
ramped down, the channels are in self-refresh with every segment retained. -/
def execFreezeSettled (s : State) : Host.Outcome State Fault Refusal :=
  s.run fun c =>
    if !c.stopping then c
    else
      let c := (c.stampUnits.setN (mg 0x5040) (c.freeN % 201)).draw
      let c := (List.range 8).foldl (fun (c : Card) ch =>
        let st := c.f (chPage ch) 2 0
        if st = 1 ∨ st = 2 then c.setF (chPage ch) 2 0 3 else c) c
      let c := (c.stopShares c.sharesDrawn).settleStop
      ((c.setBit (mg 0x5004) 30 false).setBit (mg 0x5004) 31 true).raise 0 5

/-! ### Thaw (R440, R447) -/

/-- THAW (R440)
(DEDUCED, assumption log entry 98). -/
def execThaw (v : Word) (s : State) : Host.Outcome State Fault Refusal :=
  s.run fun c => c.hostWrite .pf0 0x5000 fun c => c.frzCtl v

/-- The timers that stood still for `dt` ns (R435): waits at a ring's head, heartbeats, requests over a link, links that are
down. -/
def Card.shiftTimers (c : Card) (dt : Nat) : Card :=
  { c with
    rings := c.rings.map (fun (e : Nat × Ring) =>
      (e.1, { e.2 with q := e.2.q.map (fun (o : Op) => { o with headAt := o.headAt.map (fun t => t + dt) }) }))
    recs := c.recs.map (fun (e : Nat × RecRing) => (e.1, { e.2 with beatAt := e.2.beatAt + dt }))
    remotes := c.remotes.map (fun (x : Remote) => { x with since := x.since + dt })
    ports := c.ports.map (fun (e : Nat × Port) => (e.1, { e.2 with leftUp := e.2.leftUp.map (fun t => t + dt) }))
    gov := { c.gov with bAt := c.ns, old := none } }

/-- The raster port's frame in progress latches TRUNCATED, and capture resumes at the next Frame Start (R283). -/
def Card.thawRaster (c : Card) (h k : Nat) : Card :=
  if (c.vc h k).cur.isSome && !(c.vc h k).latched then
    let c := c.latch h k [fTruncated]
    c.setVc h k { c.vc h k with cur := none, latched := false, lastAt := c.ns }
  else c

/-- Every unit goes on: what arrived and was kept is delivered, what was held is released, and the held resets run. -/
def Card.resume (c : Card) : Card :=
  let l := c.cpls
  let c := l.foldl (fun (c : Card) x => c.completion x.rid x.poisoned x.data) { c with cpls := [] }
  let c := hampers.foldl (fun (c : Card) h => (List.range 4).foldl (fun (c : Card) k => c.thawRaster h k) c) c
  let c := c.releaseAll
  let c := (List.range 40).foldl (fun (c : Card) n => c.msixRelease n) c
  let c := c.heldResets
  let c := hampers.foldl (fun (c : Card) h => (List.range 16).foldl (fun (c : Card) r => c.pump h r) c) c
  (c.pumpPort 0).pumpPort 1

/-- Memory kept nothing over the freeze. -/
def Card.loseRetention (c : Card) : Card := { c with noRetention := true, refreeze := none }

/-- No freeze waits for the thaw to end. -/
def Card.endRefreeze (c : Card) : Card := { c with refreeze := none }

/-- THAW_COMPLETE (R440, R447): with a failed self-refresh exit the card stays frozen, for good. Else every unit resumes; a
source that arrived while thawing then freezes the card again
(DEDUCED, assumption log entry 97). -/
def execThawComplete (exitFailed : Bool) (s : State) : Host.Outcome State Fault Refusal :=
  s.run fun c =>
    let k := mg 0x5004
    if !c.thawing then c
    else if exitFailed then ((c.setBit k 29 false).setF k 23 16 3).loseRetention
    else
      let dt := c.ns - c.pair (mg 0x5010) (mg 0x5014)
      let c := (List.range 8).foldl (fun (c : Card) ch => if c.f (chPage ch) 2 0 = 3 then c.setF (chPage ch) 2 0 1 else c) c
      let c := ((c.shiftTimers dt).setF k 31 29 0).setPair (mg 0x5018) (mg 0x501C) c.ns
      let c := (c.setF (mg 0x5110) 29 28 0).raise 0 5
      let c := c.resume.govFlags
      match c.refreeze with
      | some src => c.endRefreeze.freezeWave src
      | none => c

/-! ### Read-out (R437 to R439, R445, R448) -/

/-- The presence grant of a read-out (R438). -/
def Card.roGranted (c : Card) : Bool := c.bit (mg 0x5110) 29

/-- The result of a read-out asked for: what refuses it, if anything (R437, R438, R445, R448). -/
def Card.roRefused (c : Card) (space sel addr len : Nat) : Option Nat :=
  if !c.frozen || c.thawing then some 1
  else match space with
    | 0 => if sel ≠ 0 ∨ 16 * chains.length < addr + len then some 3 else none
    | 1 => if !chains.contains sel || addr % 32 != 0 || decide (Config.scanLength sel < addr + 8 * len) then some 3 else none
    | 2 => match c.regionOf sel with
      | none => some 3
      | some x => if x.2.picture && !c.roGranted then some 2 else if x.2.dataSize < addr + len then some 3 else none
    | 3 => if !c.roGranted then some 2 else if 8 ≤ sel ∨ 2 ^ 35 < addr + len then some 3 else none
    | 4 => if !c.roGranted then some 2 else if 4 ≤ sel ∨ 48 * 2 ^ 20 < addr + len then some 3 else none
    | _ => some 3

/-- Bytes put into the window from its start. -/
def Card.fillRo (c : Card) (bs : List Byte) : Card :=
  (List.range (ceilDiv bs.length 4)).foldl (fun (c : Card) i => c.setN (mg (0x5800 + 4 * i)) (leAt bs (4 * i) 4)) c

/-- A write that has reached MG_RO_CTL (R445): with GO a read-out starts, or reports why not. While one runs the write is
dropped
(DEDUCED, assumption log entry 96). -/
def Card.roCtl (c : Card) (v : Word) : Card :=
  let k := mg 0x5100
  if c.bit k 30 then c
  else
    let c := c.writeReg k v
    if fld v 31 31 = 0 then c
    else
      let c := c.setF k 29 26 0
      match c.roRefused (c.f k 19 16) (c.f k 15 0) (c.pair (mg 0x5104) (mg 0x5108)) (c.f (mg 0x510C) 11 0) with
      | some code =>
        let c := if code = 2 then c.fillRo (List.replicate 2048 0) else c
        c.setF k 29 28 code
      | none => c.setBit k 30 true

/-- READOUT_START (R437). -/
def execReadoutStart (v : Word) (s : State) : Host.Outcome State Fault Refusal :=
  s.run fun c => c.hostWrite .pf0 0x5100 fun c => c.roCtl v

/-- Byte `i` of a stop-stamp table (R439): STOPPED is 1, IDLE is free. -/
def Card.stampByte (c : Card) (i : Nat) : Byte :=
  let ch := chains.getD (i / 16) 0
  let idle := Config.freeChoice c.fresh ch
  let e := leBytes 2 ch ++ leBytes 1 (1 + 2 * b2n idle) ++ List.replicate 5 0 ++ leBytes 8 (tabGet 0 c.stamps ch)
  e.getD (i % 16) 0

/-- Bit `b` of a scan chain as the read-out gives it (R438, R444): a KEY field and what no field covers read 0, a DATA field
reads 0 without a grant; the contents are the unit's own, a free value. -/
def Card.scanBit (c : Card) (ch b : Nat) : Nat :=
  match Config.scanKind ch b with
  | 0 => Config.freeNat (c.fresh + b) % 2
  | 1 => if c.roGranted then Config.freeNat (c.fresh + b) % 2 else 0
  | 3 => Config.freeNat (c.fresh + b) % 2
  | _ => 0

/-- A byte of a scan chain, from bit `b`. -/
def Card.scanByte (c : Card) (ch b : Nat) : Byte :=
  BitVec.ofNat 8 ((List.range 8).foldl (fun a j => a + c.scanBit ch (b + j) * 2 ^ j) 0)

/-- A byte of card memory as the channel gives it raw (R176, R437); of a check line only byte 56 has a defined meaning, and
what a segment lost, or no rank holds, is free. -/
def Card.rawByte (c : Card) (ch a : Nat) : Byte :=
  let free := BitVec.ofNat 8 (Config.freeNat (c.fresh + a % 4096))
  match c.phys ch a with
  | none => free
  | some (_, key) =>
    if c.isLost key then free
    else if c.eccAt key && decide (448 ≤ key % 512) && decide (key % 512 ≠ 504) then
      Config.checkByte ((List.range 448).map (fun i => c.memAt (key / 512 * 512 + i))) (key % 64)
    else c.memAt key

/-- A byte of a region (R437): corrected, or, on a line found uncorrectable, as read. -/
def Card.regionByte (c : Card) (e : RegionEnt) (d i : Nat) (bad : List Nat) : Byte :=
  let free := BitVec.ofNat 8 (Config.freeNat (c.fresh + i))
  match c.phys (e.chanAddr (d + i)).1 (e.chanAddr (d + i)).2 with
  | none => free
  | some (_, key) => if e.ecc && bad.contains ((d + i) / 64 - d / 64) then free else c.memAt key

/-- An uncorrectable line is met (R437): one found so now, or one that is poisoned. -/
def Card.regionUe (c : Card) (e : RegionEnt) (d n : Nat) (bad : List Nat) : Bool :=
  e.ecc && (bad.any (fun l => decide (l ≤ (d + n - 1) / 64 - d / 64)) ||
    (List.range n).any (fun i => (c.phys (e.chanAddr (d + i)).1 (e.chanAddr (d + i)).2).any (fun x => c.poisoned x.2)))

/-- A byte of hamper SRAM as it is read out (R156, R437): the pool bookkeeping at the top of the pool space is the card's own, a
free value, and so is the scheduler's header of a track entry (R353). -/
def Card.sramByte (c : Card) (h a : Nat) : Byte :=
  let top := (c.sramPart h).1
  let book := 16 * (((List.range 16).filter (fun p => c.poolOn h p)).map (fun p => (c.poolCfg h p).count)).sum
  let tracks := top + (c.sramPart h).2.1
  if (top - book ≤ a ∧ a < top) ∨ (tracks ≤ a ∧ a < tracks + (c.sramPart h).2.2 ∧ (a - tracks) % 2048 < 64) then BitVec.ofNat 8 (Config.freeNat (c.fresh + a)) else tabGet 0 c.sram (h * 2 ^ 26 + a)

/-- What a read-out gives: its bytes, UE and MASKED. -/
def Card.roData (c : Card) (space sel addr len : Nat) (bad : List Nat) : List Byte × Bool × Bool :=
  match space with
  | 0 => ((List.range len).map (fun i => c.stampByte (addr + i)), false, false)
  | 1 => ((List.range len).map (fun i => c.scanByte sel (addr + 8 * i)), false,
      !c.roGranted && (List.range (8 * len)).any (fun j => Config.scanKind sel (addr + j) == 1))
  | 2 => match c.regionOf sel with
    | none => ([], false, false)
    | some x => ((List.range len).map (fun i => c.regionByte x.2 addr i bad), c.regionUe x.2 addr len bad, false)
  | 3 => ((List.range len).map (fun i => c.rawByte sel (addr + i)), false, false)
  | _ => ((List.range len).map (fun i => c.sramByte sel (addr + i)), (List.range len).any (fun i => tabGet false c.sramBad (sel * 2 ^ 23 + (addr + i) / 8)), false)

/-- READOUT_DONE (R437, R445): the window holds what was read; `bad` numbers the 64-byte lines of the read that could not be
corrected. Nothing is counted, written back or retired. -/
def execReadoutDone (bad : List Nat) (s : State) : Host.Outcome State Fault Refusal :=
  s.run fun c =>
    let k := mg 0x5100
    if !c.frozen || !c.bit k 30 then c
    else
      let x := c.roData (c.f k 19 16) (c.f k 15 0) (c.pair (mg 0x5104) (mg 0x5108)) (c.f (mg 0x510C) 11 0) bad
      let c : Card := { c.fillRo x.1 with fresh := c.fresh + 2 ^ 32 }
      ((c.setBit k 30 false).setBit k 27 x.2.1).setBit k 26 x.2.2

/-- A write that has reached MG_RO_UNLOCK (R438, R496): presence is asked for; while another window is open the request is
ignored and sets REQ_BUSY, and with the grant held it has no effect. -/
def Card.roUnlock (c : Card) (v : Word) : Card :=
  if fld v 31 31 = 0 || c.roGranted then c
  else c.askPresence 4 (c.f (mg 0x5100) 19 16) (fun c => c.grantReadout true) (fun c => c.ksEvent 6) (fun c => c.setBit (mg 0x5110) 30 true)

/-- READOUT_UNLOCK_REQUEST (R438). -/
def execReadoutUnlockRequest (v : Word) (s : State) : Host.Outcome State Fault Refusal :=
  s.run fun c => c.hostWrite .pf0 0x5110 fun c => c.roUnlock v

end Sys2Proof.Machine
end

