-- ==== Sys2Proof/Machine/Jtag.lean ====
section
/-! DEFINITION. The JTAG port (spec/18 R442, spec/25 R562). -/

namespace Sys2Proof.Machine

/-- An instruction reaches Update-IR; the TAP lies in the always-on island. -/
def Card.jtagIr (c : Card) (code : Nat) : Card := { c with tap := { c.tap with ir := code } }

/-- A scan through the one-bit bypass register: what is shifted in comes out one bit later. -/
def Card.jtagShift (c : Card) (dr len : Nat) : Card := c.emit (.jtag len (2 * dr % 2 ^ len))

/-- JTAG_FREEZE (R432, R442). -/
def execJtagFreeze (s : State) : Host.Outcome State Fault Refusal :=
  s.run fun c => if c.on then (c.jtagIr 0x10).freezeRequest 2 else c

/-- JTAG_THAW (R440, R442). -/
def execJtagThaw (s : State) : Host.Outcome State Fault Refusal :=
  s.run fun c => if c.on then (c.jtagIr 0x11).thawRequest else c

/-- A write of the freeze block by its offset, as a register write of that offset acts (R445). -/
def Card.frzWrite (c : Card) (off : Nat) (v : Word) : Card :=
  if off % 4 ≠ 0 then c
  else if off = 0 then c.frzCtl v
  else if off = 0x100 then c.roCtl v
  else if off = 0x110 then c.roUnlock v
  else c.write32 (mg (0x5000 + off)) v

/-- JTAG_RO_ACCESS (R442): the scan shifts out what the last access left to Capture-DR, and Update-DR performs this one. A read
has no effect of reading; before MEM_READY the block reads its reset values and drops writes (R514). The bits of a capture
beside the read data are free
(DEDUCED, assumption log entry 99). -/
def execJtagRoAccess (dr : BitVec 48) (s : State) : Host.Outcome State Fault Refusal :=
  s.run fun c =>
    if !c.on then c
    else
      let c := (c.jtagIr 0x12).emit (.jtag 48 c.tap.capture)
      let off := nbits dr.toNat 43 32
      let k := mg (0x5000 + off / 4 * 4)
      let top := c.freeN % 2 ^ 16 * 2 ^ 32
      let data := if nbit dr.toNat 47 then Config.freeNat (c.fresh + 1) % 2 ^ 32
        else if c.bootOpen 0x5000 then (c.peek k).toNat else (regReset k).toNat
      let c : Card := { c.draw.draw with tap := { c.tap with capture := top + data } }
      if nbit dr.toNat 47 then
        if c.bootOpen 0x5000 then c.frzWrite off (BitVec.ofNat 32 dr.toNat) else c.bump (mg 0x0038) 1
      else c

/-- What the boundary register captures of the pins. -/
def Card.jtagPins (c : Card) (len : Nat) : Card := (c.emit (.jtag len (c.freeN % 2 ^ len))).draw

/-- JTAG_EXTEST (R442): the boundary register drives its pins only while the card is frozen; else it acts as BYPASS. -/
def execJtagExtest (dr len : Nat) (s : State) : Host.Outcome State Fault Refusal :=
  s.run fun c =>
    if !c.on then c
    else if !c.frozen then (c.jtagIr 0).jtagShift dr len
    else
      let c := (c.jtagIr 0).jtagPins len
      { c with tap := { c.tap with boundary := dr % 2 ^ len } }

/-- JTAG_SAMPLE_PRELOAD (R442): the pins are sampled and the boundary register is loaded. -/
def execJtagSamplePreload (dr len : Nat) (s : State) : Host.Outcome State Fault Refusal :=
  s.run fun c =>
    if !c.on then c
    else
      let c := (c.jtagIr 1).jtagPins len
      { c with tap := { c.tap with boundary := dr % 2 ^ len } }

/-- JTAG_IDCODE (R442): version 1, part number 0x4640, manufacturer 0x09E. -/
def execJtagIdcode (s : State) : Host.Outcome State Fault Refusal :=
  s.run fun c => if c.on then (c.jtagIr 2).emit (.jtag 32 0x1464013D) else c

/-- JTAG_BYPASS (R442). -/
def execJtagBypass (dr len : Nat) (s : State) : Host.Outcome State Fault Refusal :=
  s.run fun c => if c.on then (c.jtagIr 0xFF).jtagShift dr len else c

/-- TAP_RESET (R442, R562): Test-Logic-Reset selects IDCODE. -/
def execTapReset (s : State) : Host.Outcome State Fault Refusal := s.run fun c => c.jtagIr 2

end Sys2Proof.Machine
end

