-- ==== Sys2Proof/Machine/Board.lean ====
section
/-! DEFINITION. The board controller and its SMBus registers (spec/24), slot 3.3 Vaux, and the removal of a daughterboard
(spec/25 R566). -/

namespace Sys2Proof.Machine

/-! ### The hub's values (R548, R551) -/

/-- What a hub-sourced word register reads while the hub's link is down. -/
def boardAbsent (code : Nat) : Nat :=
  if code = 0x08 then 0xF else if code = 0x0A ∨ (0x10 ≤ code ∧ code < 0x25) then 0x8000 else if code = 0x31 then 3 else 0

/-- A hub-sourced word as last read. -/
def Board.word (b : Board) (code : Nat) : Nat := tabGet (boardAbsent code) b.words code

/-- A hub-sourced word taken in. -/
def Board.take (b : Board) (code v : Nat) : Board := { b with words := tabPut (boardAbsent code) b.words code v }

/-- A hub-sourced block as last read. -/
def Board.block (b : Board) (code : Nat) : Nat := tabGet 0 b.blocks code

/-- A temperature in 1/8 degree as a word; 0x8000 when there is none. -/
def boardTemp (t : Option Int) : Nat := (t.map (toBits 16)).getD 0x8000

/-- BM_STATE without HUB_LINK. -/
def Card.boardState (c : Card) : Nat :=
  b2n c.frozen * 2 ^ 14 + b2n (c.bit (mg 0x0030) 31) * 2 ^ 13 + b2n (c.bit (mg 0x1108) 24) * 2 ^ 12 + c.f (mg 0x2000) 10 8 * 2 ^ 8 +
  c.waitCode % 16 * 16 + c.stage

/-- The part of BM_PRESENCE that the hub gives: WINDOW, OP and REMAINING_S. -/
def Card.boardPresence (c : Card) : Nat :=
  nbits c.presStatus 31 31 * 2 ^ 15 + nbits c.presStatus 26 24 * 2 ^ 12 + nbits c.presStatus 20 16 * 16

/-- BM_KEEP. -/
def Card.boardKeep (c : Card) : Nat :=
  c.f (mg 0x3004) 31 31 * 128 + b2n (c.bit (mg 0x2014) 5) * 64 + c.f (mg 0x3004) 21 20 * 16 + c.f (mg 0x3004) 23 22

/-- BM_MEM. -/
def Card.boardMem (c : Card) : Nat :=
  c.f (mg 0x0024) 23 16 * 256 + min 15 (c.f (mg 0x0024) 31 24) * 16 + min 15 ((List.range 16).filter (fun k => c.rankState k == 6)).length

/-- The hub's values read over the internal link, with no effect of reading. Codes 0x100 and 0x101 hold what only the LED and the
airflow request use: a thaw refused with NO_RETENTION, and AIR_PCT. -/
def Card.boardRead (c : Card) (b : Board) : Board :=
  let b := ((b.take 0x08 c.boardState).take 0x0A (boardTemp (c.junction.map (fun x => x.2)))).take 0x30 c.boardPresence
  let b := (List.range 19).foldl (fun (b : Board) i => b.take (0x10 + i) (boardTemp (c.sensor i))) b
  let b := ((b.take 0x2D (c.f (mg 0x1108) 27 26 * 2 ^ 14 + c.effLimit)).take 0x31 c.boardKeep).take 0x34 c.boardMem
  let b := (b.take 0x100 (b2n (c.f (mg 0x5004) 23 16 == 3))).take 0x101 (c.f (mg 0x2000) 6 0)
  let t := tabPut 0 (tabPut 0 b.blocks 0x04 (c.pair (mg 0x0008) (mg 0x000C))) 0x2E (c.pair (mg 0x1128) (mg 0x112C))
  { b with
    blocks := tabPut 0 (tabPut 0 t 0x32 (c.reg (mg 0x3008)).toNat) 0x33 (c.reg (mg 0x003C)).toNat
    sealBroken := c.bit (mg 0x41C0) 0 }

/-- A bit of BM_ALERT set when a condition holds. -/
def Board.alertIf (b : Board) (i : Nat) (cond : Bool) : Board := if cond then { b with alert := nput b.alert i i 1 } else b

/-- The airflow request presented (R549); a change of 10 or more since AIR_CHANGE was last cleared sets it. -/
def Board.airflow (b : Board) : Board :=
  let a := if b.link then b.word 0x101 else if 11000 ≤ b.nodeMv then 100 else 0
  ({ b with air := a } : Board).alertIf 7 (decide (10 ≤ (max a b.airBase) - (min a b.airBase)))

/-- The alerts of what rose between two readings (R551). -/
def Board.edges (b old : Board) : Board :=
  let x := b.word 0x08
  let y := old.word 0x08
  let gone := fun (v : Nat) => nbits v 7 4 == 5 || nbits v 7 4 == 6
  let b := (b.alertIf 0 (decide (nbits y 10 8 < nbits x 10 8))).alertIf 1 (nbit x 12 && !nbit y 12)
  let b := (b.alertIf 2 (gone x && !gone y)).alertIf 3 (nbit x 13 && !nbit y 13)
  b.alertIf 5 (b.sealBroken && !old.sealBroken)

/-- BOARD_HUB_POLL (R548): the hub answers while PF0 has power; after 30 ms without an answer HUB_LINK falls, and every field
sourced from the hub reads its absent value. -/
def execBoardHubPoll (s : State) : Host.Outcome State Fault Refusal :=
  s.run fun c =>
    if !c.board.up then c
    else if c.on then { c with board := ((c.boardRead { c.board with link := true, missed := 0 }).edges c.board).airflow }
    else
      let b : Board := { c.board with missed := min 3 (c.board.missed + 1) }
      let b : Board := if 3 ≤ b.missed then ({ b with link := false, words := [], blocks := [] } : Board).alertIf 6 b.link else b
      { c with board := b.airflow }

/-- BOARD_SENSOR_POLL (R472, R548, R549): sensors 19 and 20, which the hub takes from here too, the node's voltage and currents,
and the node power. -/
def execBoardSensorPoll (p : BoardSense) (s : State) : Host.Outcome State Fault Refusal :=
  s.run fun c =>
    if !c.board.up then c
    else
      let dw := min 65535 (p.nodeMv * (p.slotCa + p.auxCa) / 10000)
      let b : Board := { c.board with inlet := p.inlet, outlet := p.outlet, nodeMv := min 65535 p.nodeMv, slotCa := min 65535 p.slotCa,
                                      auxCa := min 65535 p.auxCa, peakDw := max c.board.peakDw dw }
      let c : Card := { c with board := b.airflow }
      if c.on && !c.coreOff then (c.setSensor 19 p.inlet).setSensor 20 p.outlet else c

/-- IDENTIFY_TICK (R551). -/
def execIdentifyTick (s : State) : Host.Outcome State Fault Refusal :=
  s.run fun c => if c.board.up then { c with board := { c.board with ident := c.board.ident - 1 } } else c

/-! ### What the registers read (R551, R552) -/

/-- BM_NODE_DW. -/
def Board.nodeDw (b : Board) : Nat := min 65535 (b.nodeMv * (b.slotCa + b.auxCa) / 10000)

/-- The STATUS pattern
(DEDUCED, assumption log entry 103). -/
def Board.status (b : Board) : Nat :=
  let x := b.word 0x08
  let stage := nbits x 3 0
  let wait := nbits x 7 4
  if !b.link then 0
  else if stage = 2 ∨ wait = 5 ∨ wait = 6 ∨ b.word 0x100 = 1 then 1
  else if nbit x 14 then 2
  else if wait = 1 ∨ wait = 3 ∨ wait = 4 then 3
  else if stage < 7 then 4
  else if nbit x 13 ∨ 1 ≤ nbits x 10 8 then 5
  else 6

/-- The ATTENTION pattern. -/
def Board.attention (b : Board) : Nat :=
  let w := b.word 0x30
  if nbit w 15 then (if nbits w 8 4 ≤ 5 then 1 else 2) else if 0 < b.ident then 3 else 0

/-- The form of a register: a byte, a word or a block of some bytes. -/
inductive BoardReg where
  | byte (v : Nat)
  | word (v : Nat)
  | block (n v : Nat)
deriving DecidableEq, Repr

/-- The register of a code, if it is listed, with what it reads now. -/
def Card.boardReg (c : Card) (code : Nat) : Option BoardReg :=
  let b := c.board
  if 0x10 ≤ code ∧ code < 0x25 then
    some (.word (if code = 0x23 then boardTemp b.inlet else if code = 0x24 then boardTemp b.outlet else b.word code))
  else match code with
    | 0x00 => some (.word 0x4640)
    | 0x01 => some (.word 0x1F1E)
    | 0x02 => some (.word 0x0141)
    | 0x03 => some (.byte (Config.boardFw % 256))
    | 0x04 => some (.block 8 (b.block 0x04))
    | 0x08 => some (.word (b2n b.link * 2 ^ 15 + b.word 0x08))
    | 0x09 => some (.byte b.air)
    | 0x0A => some (.word (b.word 0x0A))
    | 0x28 => some (.word b.nodeMv)
    | 0x29 => some (.word b.slotCa)
    | 0x2A => some (.word b.auxCa)
    | 0x2B => some (.word b.nodeDw)
    | 0x2C => some (.word b.peakDw)
    | 0x2D => some (.word (b.word 0x2D))
    | 0x2E => some (.block 8 (b.block 0x2E))
    | 0x30 => some (.word (b.word 0x30 + b2n b.sealBroken * 8 + b2n (!c.pin.sealOpen) * 4 + b2n c.pin.jumper * 2 + b2n c.pin.button))
    | 0x31 => some (.word (b.word 0x31))
    | 0x32 => some (.block 4 (b.block 0x32))
    | 0x33 => some (.block 4 (b.block 0x33))
    | 0x34 => some (.word (b.word 0x34))
    | 0x38 => some (.byte (b.attention * 8 + b.status))
    | 0x39 => some (.byte b.ident)
    | 0x40 => some (.byte b.alert)
    | 0x41 => some (.byte (b2n b.pecReq))
    | 0x42 => some (.byte (b.badPec * 16 + b.badWrites))
    | _ => none

/-! ### SMBus (R546, R547) -/

/-- One byte taken into the packet error code: CRC-8 with the polynomial x^8 + x^2 + x + 1 (PRESUMED, assumption log entry 23). -/
def pecByte (c b : Nat) : Nat :=
  (List.range 8).foldl (fun (x : Nat) _ => if nbit x 7 then (2 * x % 256) ^^^ 7 else 2 * x) ((c ^^^ b) % 256)

/-- The packet error code of a transaction's bytes, the addresses with their direction bits among them. -/
def pecOf (l : List Byte) : Nat := l.foldl (fun a b => pecByte a b.toNat) 0

/-- An answered read: its bytes and the packet error code, which is sent when the master clocks it
(DESIGN CHOICE, assumption log entry 102). -/
def Card.smbusAnswer (c : Card) (code : Nat) (data : List Byte) : Card :=
  c.emit (.smbus true (data ++ leBytes 1 (pecOf (leBytes 1 0xB4 ++ leBytes 1 code ++ leBytes 1 0xB5 ++ data))))

/-- SMBUS_READ_BYTE (R546, R551): a word's low byte; an unlisted code reads 0; BM_ERRORS clears. The byte of a block register is
free. -/
def execSmbusReadByte (code : Fin 256) (s : State) : Host.Outcome State Fault Refusal :=
  s.run fun c =>
    if !c.board.up then c.emit (.smbus false [])
    else
      let v := match c.boardReg code.val with
        | some (.byte v) => v
        | some (.word v) => v
        | some (.block _ _) => c.freeN
        | none => 0
      let c := (c.smbusAnswer code.val (leBytes 1 v)).draw
      if code.val = 0x42 then { c with board := { c.board with badPec := 0, badWrites := 0 } } else c

/-- SMBUS_READ_WORD (R547, R551): the upper byte of a byte register, and the word of a block register, are free. -/
def execSmbusReadWord (code : Fin 256) (s : State) : Host.Outcome State Fault Refusal :=
  s.run fun c =>
    if !c.board.up then c.emit (.smbus false [])
    else
      let v := match c.boardReg code.val with
        | some (.byte v) => v + c.freeN % 256 * 256
        | some (.word v) => v
        | some (.block _ _) => c.freeN
        | none => 0
      (c.smbusAnswer code.val (leBytes 2 v)).draw

/-- SMBUS_BLOCK_READ (R547, R551): a count byte and the value; an unlisted code reads 0, and what a register of another form
gives is free. -/
def execSmbusBlockRead (code : Fin 256) (s : State) : Host.Outcome State Fault Refusal :=
  s.run fun c =>
    if !c.board.up then c.emit (.smbus false [])
    else
      let data := match c.boardReg code.val with
        | some (.block n v) => leBytes 1 n ++ leBytes n v
        | some _ => let n := c.freeN % 33; leBytes 1 n ++ leBytes n (Config.freeNat (c.fresh + 1))
        | none => [0]
      (c.smbusAnswer code.val data).draw.draw

/-- A Write Byte that counts (R551). -/
def Card.boardWrite (c : Card) (code v : Nat) : Card :=
  let b := c.board
  match code with
  | 0x39 => { c with board := { b with ident := v } }
  | 0x40 => { c with board := { b with alert := b.alert &&& (255 - v), airBase := if nbit v 7 then b.air else b.airBase } }
  | 0x41 => { c with board := { b with pecReq := nbit v 0, peakDw := if nbit v 7 then b.nodeDw else b.peakDw } }
  | _ => { c with board := { b with badWrites := min 15 (b.badWrites + 1) } }

/-- A Write Byte (R546): one whose PEC does not match, or lacks it under PEC_REQ, is dropped and counted. -/
def Card.smbusWrite (c : Card) (code : Nat) (v : Byte) (pec : Option Byte) : Card :=
  if !c.board.up then c.emit (.smbus false [])
  else
    let good := match pec with
      | some p => p.toNat == pecOf (leBytes 1 0xB4 ++ leBytes 1 code ++ [v])
      | none => !c.board.pecReq
    let c := c.emit (.smbus true [])
    if good then c.boardWrite code v.toNat
    else { c with board := { c.board with badPec := min 15 (c.board.badPec + 1) } }

/-- SMBUS_WRITE_BYTE (R546, R551). -/
def execSmbusWriteByte (code : Fin 256) (v : Byte) (pec : Option Byte) (s : State) : Host.Outcome State Fault Refusal :=
  s.run fun c => c.smbusWrite code.val v pec

/-- CLEAR_PEAK (R551): a Write Byte of BM_CTL whose bit 7 makes BM_PEAK_DW BM_NODE_DW. -/
def execClearPeak (pec : Option Byte) (v : Byte) (s : State) : Host.Outcome State Fault Refusal :=
  s.run fun c => c.smbusWrite 0x41 v pec

/-- SMBUS_TIMEOUT (R546): the bus is released and the transaction discarded, so it has no effect. -/
def execSmbusTimeout (s : State) : Host.Outcome State Fault Refusal := s.run fun c => c

/-- SMBUS_UNSUPPORTED_TRANSACTION (R546): its command byte is answered with a NACK. -/
def execSmbusUnsupportedTransaction (_code : Fin 256) (s : State) : Host.Outcome State Fault Refusal :=
  s.run fun c => c.emit (.smbus false [])

/-! ### Slot 3.3 Vaux and the daughterboard -/

/-- AUX_3V3_LOST (R551): every register of the board controller is at reset, and it does not answer. -/
def execAux3v3Lost (s : State) : Host.Outcome State Fault Refusal := s.run fun c => { c with board := {} }

/-- AUX_3V3_GOOD (R553): the board controller runs, its registers at reset. -/
def execAux3v3Good (s : State) : Host.Outcome State Fault Refusal :=
  s.run fun c => if c.board.up then c else { c with board := { up := true } }

/-- DAUGHTERBOARD_REMOVED (R566): DAUGHTER falls, 3V3_DB turns off, and every port loses LINK, so its frames end. -/
def execDaughterboardRemoved (s : State) : Host.Outcome State Fault Refusal :=
  s.run fun c =>
    let c := hampers.foldl (fun (c : Card) h => if (c.portOf h).isSome && c.bit (mg 0x0028) 1 then c.setLink h false false 0 else c) c
    (c.setBit (mg 0x0028) 1 false).checkSupplies

end Sys2Proof.Machine
end

