-- ==== Sys2Proof/Machine/Retire.lean ====
section
/-! DEFINITION. What goes on without a command of its own: the samples of a PREPARE and the blocks of a SEARCH, one by one;
retirement (spec/05 R125); the tick. -/

namespace Sys2Proof.Machine

/-! ### Steps -/

/-- The operation goes on step by step: a SEARCH by blocks (R212), a PREPARE by samples (R284). -/
def Op.stepping (o : Op) : Bool :=
  (o.cls == 2 || o.cls == 7) && o.started && !o.held && o.phase == .running && o.retryOn.isNone

/-- The steps that it has left. -/
def Op.left (o : Op) : Nat := if o.cls = 7 then o.rest.length / 16 else leAt o.body 0x20 4 - o.passes

/-- The next sample of a PREPARE; after its last one it is done. -/
def Card.sampleNext (c : Card) (h r : Nat) (o : Op) : Card :=
  c.drawXlate.runStep h r o sampleStep (fun o => o.left == 0)

/-- An operation goes on by one step. -/
def Card.stepOp (c : Card) (h r seq : Nat) : Card :=
  match c.opOf h r seq with
  | some o => if c.live && o.stepping then (if o.cls = 7 then c.searchBlock o.unit else c.sampleNext h r o) else c
  | none => c

/-- An operation goes on by some steps. -/
def Card.stepsOp (h r seq : Nat) : Nat → Card → Card
  | 0, c => c
  | n + 1, c => Card.stepsOp h r seq n (c.stepOp h r seq)

/-! ### Retirement (R125) -/

/-- The steps that an operation comes to before it retires: all that are left, or, with an error in its data, some of them; how many
is free, and the steps written stand (R220, R302). -/
def Card.lastSteps (c : Card) (h r : Nat) (o : Op) (bad : Bool) : Card :=
  if !o.stepping then c
  else
    let c := Card.stepsOp h r o.seq (if bad then c.freeN % (o.left + 1) else o.left) c.draw
    if bad then c.mapOps h (fun q x => if q = r ∧ x.seq = o.seq ∧ x.gen = o.gen ∧ x.stepping then { x with phase := .ran } else x) else c

/-- The errors in an operation's data end it FAILED_INPUT, its later writes taken back (R177, R406, R302). -/
def Card.failData (c : Card) (o : Op) (bad : Option Nat) : Card × Op :=
  match bad with
  | some d => if o.status = stDone ∨ o.status = stRetried then
      (if o.cls = 2 ∨ o.cls = 7 then c else c.takeBack o, o.outcome stFailedInput d 0) else (c, o)
  | none => (c, o)

/-- An operation that has run retires: one whose record writer is fenced writes none (R403), a whisk operation is counted (HP_WK_OPS),
and the ring's next work follows. -/
def Card.retireRan (c : Card) (h r : Nat) (o : Op) : Card :=
  let o : Op := { o with await := [] }
  let o := if !o.records.isEmpty && c.recFenced h then c.unrecorded o else o
  let c := c.draw.draw
  let c := if o.cls = 4 then c.bump (hp h 0xA0014) 1 else c
  (c.setOp h r { c.retireOp h o with phase := .retired }).pump h r

/-- OPERATION_RETIRE (R125): the errors its data met end it FAILED_INPUT (R177, R406), else its own outcome stands. An
operation that met a persisting error of a rank now to be retired waits until the line's chunk is copied (R194); the errors
are told once. One with remote writes not yet acknowledged does not retire (R532), nor does a SEARCH held by a migration
(R224). -/
def execOperationRetire (h : Fin 4) (r : Fin 16) (seq : Nat) (errs : List MemErr) (s : State) : Host.Outcome State Fault Refusal :=
  s.run fun c =>
    let h := h.val
    let r := r.val
    match c.opOf h r seq with
    | none => c
    | some o =>
      if !c.live || c.remotes.any (fun y => y.hamper == h && y.ring == r && y.seq == seq && y.gen == o.gen) then c
      else
        let c := c.lastSteps h r o ((c.memErrs h r o.ctx errs).2.isSome && (c.awaited errs).isEmpty)
        match c.opOf h r seq with
        | none => c
        | some o =>
          if o.phase != .ran || o.held || o.retryOn.isSome || o.await.any c.stillAwaits then c
          else
            let m := if o.await.isEmpty then c.memErrs h r o.ctx errs else (c, o.await.findSome? c.awaitFault)
            let p := m.1.failData o m.2
            if o.await.isEmpty && !(c.awaited errs).isEmpty then p.1.setOp h r { p.2 with await := c.awaited errs }
            else p.1.retireRan h r p.2

/-! ### The tick -/

/-- What goes on in the time of a tick, beside the counters of time: a running SEARCH may come to the end of a block (R212), a
running PREPARE to that of a sample but its last (R284), and a raster port's write buffer drains by some bytes (R274).
Whether, and how many, is free (DESIGN CHOICE, assumption log entry 138). -/
def Card.tickWork (c : Card) : Card :=
  let c := (List.range 8).foldl (fun (c : Card) m =>
    if (c.running m).isNone then c else if c.freeN % 2 = 1 then c.draw.searchBlock m else c.draw) c
  hampers.foldl (fun (c : Card) h =>
    let c := ((c.allOps h).filter (fun x => x.2.cls == 2 && x.2.stepping && decide (1 < x.2.left))).foldl (fun (c : Card) x =>
      if c.freeN % 2 = 1 then c.draw.stepOp h x.1 x.2.seq else c.draw) c
    if !c.live || (tabGet [] c.rpBuf h).isEmpty then c else (c.rpDrain h (c.freeN % (c.rpFill h + 1))).draw) c

/-- The step on an empty queue. -/
def State.tick (s : State) : State := { s with card := s.card.tick.tickWork }

end Sys2Proof.Machine
end

