-- ==== Sys2Proof/Machine/Stage.lean ====
section
/-! DEFINITION. Operand staging by the movers (spec/13 R311, R312, R317, R318, R322): STAGE_ROWS, STAGE_WEIGHTS,
STAGE_CONV, and the reading of zero-compressed maps. -/

namespace Sys2Proof.Machine

/-- GR_STAGE_PARAM and GR_ZC_FORMAT (R322). -/
abbrev grStageParam : Nat := 0xF6
abbrev grZcFormat : Nat := 0xF7

/-- The lanes of a skewed block and of the arrays (R307)
(DEDUCED, assumption log entry 40). -/
def lanesOk (n : Nat) : Bool := n == 64 || n == 128 || n == 256

/-- Bit 0 SRC_STAGING and bit 2 WIDE of a STAGE command's FLAGS. -/
def stSrc (flags : Nat) : Bool := nbit flags 0
def stElem (flags : Nat) : Nat := if nbit flags 2 then 2 else 1

/-- The source ranges that a command reads are checked before any byte moves (R322): their pages translate, none to a remote
window (R531), or they lie in the staging; everything that must come from outside is asked for. -/
def Eng.stageSource (staged : Bool) (rs : List (Nat × Nat)) : Eng Unit := do
  let c ← Eng.card
  let h ← Eng.hamper
  if staged then Eng.check (rs.all (fun g => decide (g.1 + g.2 ≤ (c.staging h).2))) grStageParam
  else
    let vs ← rs.mapM (fun g => Eng.precheck g.1 g.2 false)
    Eng.check (!vs.flatten.any PageView.remote) 0x94
    Eng.wants rs

/-- Bytes of a source: of the staging, or at a virtual address. -/
def Eng.srcRd (staged : Bool) (src n : Nat) : Eng (List Byte) := if staged then Eng.stRd src n else Eng.rd src n

/-- A destination range lies in the staging and is aligned. -/
def Eng.stageDest (dst n : Nat) : Eng Unit := do
  let c ← Eng.card
  let h ← Eng.hamper
  Eng.check (dst % 64 == 0 && decide (dst + n ≤ (c.staging h).2)) grStageParam

/-- A skewed block from its rows (R311): lane k of line w holds element k of row w − k, and zero where there is none. -/
def skewed (e lanes m : Nat) (rows : List (List Byte)) : List Byte :=
  (List.range (m + lanes - 1)).flatMap (fun w => (List.range lanes).flatMap (fun k =>
    if k ≤ w ∧ w - k < m then leBytes e (leAt (rows.getD (w - k) []) (k * e) e) else leBytes e 0))

/-- The work of STAGE_ROWS (R322). -/
def stageRowsWork : Eng Unit := do
  let b := (← Eng.op).body
  let src := leAt b 0 8
  let dst := leAt b 8 4
  let pitch := leAt b 0xC 4
  let m := leAt b 0x10 2
  let k := leAt b 0x12 2
  let lanes := leAt b 0x14 2
  let fl := leAt b 0x16 1
  let e := stElem fl
  Eng.check (decide (1 ≤ m) && decide (m ≤ 4096) && lanesOk lanes && decide (1 ≤ k) && decide (k ≤ lanes) && fl &&& 0xFA == 0 && leNat (b.drop 0x17) == 0)
    grStageParam
  Eng.stageDest dst ((m + lanes - 1) * lanes * e)
  let rs := (List.range m).map (fun i => (src + i * pitch, k * e))
  Eng.stageSource (stSrc fl) rs
  let rows ← rs.mapM (fun g => Eng.srcRd (stSrc fl) g.1 g.2)
  Eng.stWr dst (skewed e lanes m rows)

/-- STAGE_ROWS. -/
def execStageRows (h : Fin 4) (r : Fin 16) (seq : Nat) (s : State) : Host.Outcome State Fault Refusal :=
  s.run fun c => c.engine h.val r.val seq 5 0x10 stageRowsWork

/-- The work of STAGE_WEIGHTS (R312, R322): a weight block, zero outside K_LEN × N. -/
def stageWeightsWork : Eng Unit := do
  let b := (← Eng.op).body
  let src := leAt b 0 8
  let dst := leAt b 8 4
  let pitch := leAt b 0xC 4
  let k := leAt b 0x10 2
  let n := leAt b 0x12 2
  let ra := leAt b 0x14 2
  let ca := leAt b 0x16 2
  let fl := leAt b 0x18 1
  let e := stElem fl
  Eng.check (lanesOk ra && (ca == 64 || ca == 128) && decide (1 ≤ k) && decide (k ≤ ra) && decide (1 ≤ n) && decide (n ≤ ca) &&
    fl &&& 0xFA == 0 && leNat (b.drop 0x19) == 0) grStageParam
  Eng.stageDest dst (ra * ca * e)
  let rs := (List.range k).map (fun i => (src + i * pitch, n * e))
  Eng.stageSource (stSrc fl) rs
  let rows ← rs.mapM (fun g => Eng.srcRd (stSrc fl) g.1 g.2)
  Eng.stWr dst ((List.range ra).flatMap (fun i => (rows.getD i [] ++ List.replicate (ca * e) 0).take (ca * e)))

/-- STAGE_WEIGHTS. -/
def execStageWeights (h : Fin 4) (r : Fin 16) (seq : Nat) (s : State) : Host.Outcome State Fault Refusal :=
  s.run fun c => c.engine h.val r.val seq 5 0x11 stageWeightsWork

/-! ### Convolutions (R317) -/

/-- A convolution's figures. -/
structure Conv2d where
  h : Nat
  w : Nat
  c : Nat
  rk : Nat
  sk : Nat
  stride : Nat
  pad : Nat
  layout : Nat
deriving DecidableEq, Repr

/-- P and Q: the rows and columns of the output. -/
def Conv2d.p (v : Conv2d) : Nat := if v.rk ≤ v.h + 2 * v.pad then (v.h + 2 * v.pad - v.rk) / v.stride + 1 else 0
def Conv2d.q (v : Conv2d) : Nat := if v.sk ≤ v.w + 2 * v.pad then (v.w + 2 * v.pad - v.sk) / v.stride + 1 else 0

/-- C_K: C rounded up to a multiple of 32 for layout 2. -/
def Conv2d.ck (v : Conv2d) : Nat := if v.layout = 2 then ceilDiv v.c 32 * 32 else v.c

/-- The fields lie within R322 (R343 gives the same ranges). -/
def Conv2d.ok (v : Conv2d) : Bool :=
  decide (1 ≤ v.h) && decide (v.h ≤ 8192) && decide (1 ≤ v.w) && decide (v.w ≤ 8192) && decide (1 ≤ v.c) && decide (v.c ≤ 8192) &&
  decide (1 ≤ v.rk) && decide (v.rk ≤ 15) && decide (1 ≤ v.sk) && decide (v.sk ≤ 15) && decide (1 ≤ v.stride) && decide (v.stride ≤ 8) &&
  decide (v.pad ≤ 7) && decide (v.layout ≤ 2)

/-- The element offset of X[c][y][x] in a layout. -/
def mapOffset (layout c h w ch y x : Nat) : Nat :=
  if layout = 2 then ((ch / 32 * h + y) * w + x) * 32 + ch % 32
  else if layout = 1 then (y * w + x) * c + ch
  else (ch * h + y) * w + x

/-- The input position of tap (r, s) at output (p, q), if it lies inside the input. -/
def Conv2d.at_ (v : Conv2d) (p q r s : Nat) : Option (Nat × Nat) :=
  let y : Int := (p : Int) * v.stride - v.pad + r
  let x : Int := (q : Int) * v.stride - v.pad + s
  if y < 0 ∨ x < 0 ∨ (v.h : Int) ≤ y ∨ (v.w : Int) ≤ x then none else some (y.toNat, x.toNat)

/-- What lane k of the row m of a block reads: channel, y and x of an input element, or nothing. -/
def Conv2d.lane (v : Conv2d) (kappa i : Nat) : Option (Nat × Nat × Nat) :=
  let tap := kappa / v.ck
  let c := kappa % v.ck
  if v.c ≤ c then none
  else (v.at_ (i / v.q) (i % v.q) (tap / v.sk) (tap % v.sk)).map (fun g => (c, g.1, g.2))

/-- The row of a zero-compressed map decoded (R318): its blocks, which end exactly at the end of its words. -/
def zcBlocks : Nat → List Byte → Option (List Byte)
  | 0, bs => if bs.isEmpty then some [] else none
  | n + 1, bs =>
    if bs.length < 8 then none
    else
      let bits := leAt bs 0 8
      let k := popCount bits 64
      let len := 8 * (1 + ceilDiv k 8)
      if bs.length < len then none
      else
        let data := (bs.drop 8).take k
        let one := (List.range 64).map (fun i => if nbit bits i then data.getD (popCount bits i) 0 else (0 : Byte))
        (zcBlocks n (bs.drop len)).map (fun t => one ++ t)

/-- Word offsets that never decrease and never pass the total. -/
def indexOk : List Nat → Bool
  | a :: b :: t => decide (a ≤ b) && indexOk (b :: t)
  | _ => true

/-- The work of STAGE_CONV with its source read as a whole: lanes from plain elements, or from decoded rows; `row` is the
decoded row (b, y) of a compressed map, none when it is malformed
(DEDUCED, assumption log entry 39). -/
def convLine (v : Conv2d) (e ks kl ms ml lanes : Nat) (elem : Nat → Nat → Nat → Option Nat) (w : Nat) : Option (List Byte) :=
  (List.range lanes).foldl (fun (acc : Option (List Byte)) k =>
    match acc with
    | none => none
    | some bs =>
      if k ≤ w ∧ w - k < ml ∧ k < kl then
        match v.lane (ks + k) (ms + (w - k)) with
        | some g => (elem g.1 g.2.1 g.2.2).map (fun x => bs ++ leBytes e x)
        | none => some (bs ++ leBytes e 0)
      else some (bs ++ leBytes e 0)) (some [])

/-- The element offsets that a block reads, each once: those of the lanes in use. -/
def Conv2d.reads (v : Conv2d) (ks kl ms ml : Nat) : List Nat :=
  ((List.range ml).flatMap (fun m => (List.range kl).filterMap (fun k =>
    (v.lane (ks + k) (ms + m)).map (fun g => mapOffset v.layout v.c v.h v.w g.1 g.2.1 g.2.2)))).eraseDups

/-- The lines of a block up to the first that cannot be made. -/
def takeLines : List (Option (List Byte)) → List (List Byte)
  | some l :: t => l :: takeLines t
  | _ => []

/-- The work of STAGE_CONV (R317, R318, R322). A malformed stream, wherever it is malformed, fails the command; how many of the
lines before the first that cannot be made were staged is free. -/
def stageConvWork : Eng Unit := do
  let b := (← Eng.op).body
  let f := fun (a n : Nat) => leAt b a n
  let src := f 0 8
  let dst := f 8 4
  let ks := f 0xC 4
  let ms := f 0x10 4
  let ml := f 0x1A 2
  let kl := f 0x1C 2
  let lanes := f 0x1E 2
  let fl := f 0x25 1
  let e := stElem fl
  let zc := nbit fl 1
  let v : Conv2d := { h := f 0x14 2, w := f 0x16 2, c := f 0x18 2, rk := f 0x20 1, sk := f 0x21 1, stride := f 0x22 1, pad := f 0x23 1, layout := f 0x24 1 }
  Eng.check (v.ok && lanesOk lanes && decide (1 ≤ ml) && decide (ml ≤ 4096) && decide (1 ≤ kl) && decide (kl ≤ lanes) && fl &&& 0xF8 == 0 &&
    (!zc || (v.layout == 2 && e == 1)) && leNat (b.drop 0x26) == 0 && decide (ms + ml ≤ v.p * v.q) && decide (ks + kl ≤ v.rk * v.sk * v.ck)) grStageParam
  let total := (ml + lanes - 1) * lanes * e
  Eng.stageDest dst total
  let st := stSrc fl
  if !zc then
    let offs := v.reads ks kl ms ml
    let rs := offs.map (fun k => (src + k * e, e))
    Eng.stageSource st rs
    let x ← rs.mapM (fun g => Eng.srcRd st g.1 g.2)
    let elem := fun (ch y xx : Nat) => (offs.zip (x.map leNat)).lookup (mapOffset v.layout v.c v.h v.w ch y xx)
    Eng.stWr dst (takeLines ((List.range (ml + lanes - 1)).map (convLine v e ks kl ms ml lanes elem))).flatten
  else
    let rows := v.ck / 32 * v.h
    Eng.stageSource st [(src, 4 * (rows + 1))]
    let ix ← Eng.srcRd st src (4 * (rows + 1))
    let at_ := fun (i : Nat) => leAt ix (4 * i) 4
    let words := at_ rows
    let data := roundUp (src + 4 * (rows + 1)) 64
    Eng.stageSource st [(data, 8 * words)]
    let x ← Eng.srcRd st data (8 * words)
    let row := fun (i : Nat) => zcBlocks (ceilDiv v.w 2) ((x.drop (8 * at_ i)).take (8 * (at_ (i + 1) - at_ i)))
    let good := indexOk ((List.range (rows + 1)).map at_) && (List.range rows).all (fun i => (row i).isSome)
    let elem := fun (ch y xx : Nat) => (row (ch / 32 * v.h + y)).map (fun l => (l.getD (32 * xx + ch % 32) 0).toNat)
    let lines := takeLines ((List.range (ml + lanes - 1)).map (convLine v e ks kl ms ml lanes elem))
    if good then Eng.stWr dst lines.flatten
    else
      let h ← Eng.hamper
      let k := (← Eng.card).freeN % (lines.length + 1)
      Eng.stWr dst (lines.take k).flatten
      Eng.upd (fun c => c.draw.setBit (hp h 0x90008) 2 true)
      Eng.failInput grZcFormat

/-- STAGE_CONV. -/
def execStageConv (h : Fin 4) (r : Fin 16) (seq : Nat) (s : State) : Host.Outcome State Fault Refusal :=
  s.run fun c => c.engine h.val r.val seq 5 0x12 stageConvWork

end Sys2Proof.Machine
end

