-- ==== Sys2Proof/Machine/Whisk.lean ====
section
/-! DEFINITION. The whisk (spec/14 R332 to R350): MAP, REDUCE, NORM and DWCONV, operand descriptors, conversions, narrow
rows and zero-compressed output. An FP32 value is held as the number of its 32 bits. -/

namespace Sys2Proof.Machine

/-! ### The bounded functions (R334, R335)

EXP, SIGMOID, TANH, GELU, RSQRT and RECIP are within 2 units in the last place of FP32, and are fixed functions: each is
its value computed far beyond FP32, rounded, and moved by up to 2 units by a free function of its operand. -/

/-- The fraction bits of a fixed-point value. -/
abbrev fixBits : Nat := 320

/-- A finite value in fixed point. -/
def fixOf (v : Flt) : Int := (match v with | .fin neg m e => Flt.fin neg m (e + fixBits) | x => x).floor

/-- The sum of a power series: the terms from `t` on, each the last times `y` over its number. -/
def expSeries (y : Int) : Nat → Nat → Int → Int
  | 0, _, _ => 0
  | n + 1, i, t => t + expSeries y n (i + 1) (t * y / ((2 : Int) ^ fixBits * ((i : Int) + 1)))

/-- e to the power of a fixed-point value of at most 0. -/
def expNeg (x : Int) : Int :=
  if x < -(200 * 2 ^ fixBits) then 0
  else (List.range 8).foldl (fun z _ => z * z / 2 ^ fixBits) (expSeries (x / 256) 64 0 (2 ^ fixBits))

/-- A fraction as a value. -/
def ratio (n d : Int) : Flt := (Flt.ofInt n).div (Flt.ofInt d)

/-- 1 ÷ (1 + e^−x) of a fixed-point value. -/
def sigmoidOf (x : Int) : Flt :=
  let t := expNeg (-(x.natAbs : Int))
  if x < 0 then ratio t (2 ^ fixBits + t) else ratio (2 ^ fixBits) (2 ^ fixBits + t)

/-- The integer square root, by bits from the top. -/
def isqrt (n : Nat) : Nat → Nat → Nat
  | 0, r => r
  | k + 1, r => isqrt n k (if (r + 2 ^ k) * (r + 2 ^ k) ≤ n then r + 2 ^ k else r)

/-- 1 ÷ √(m × 2^e). -/
def rsqrtOf (m : Nat) (e : Int) : Flt :=
  let m' := if e % 2 = 0 then m else 2 * m
  let e' := if e % 2 = 0 then e else e - 1
  .fin false (isqrt (2 ^ 160 / m') 81 0) (-(e' / 2) - 80)

/-- A bounded function's value before rounding; none where the spec states no result. -/
def boundedVal (fn : Nat) (v : Flt) : Option Flt :=
  match fn, v with
  | _, .nan => some .nan
  | 9, .inf neg => some (if neg then .fin false 0 0 else .inf false)
  | 9, .fin neg m e =>
    let x := fixOf (.fin neg m e)
    if 150 * 2 ^ fixBits < x then some (.inf false)
    else if neg then some (.fin false (expNeg x).toNat (-fixBits))
    else some (ratio (2 ^ fixBits) (max 1 (expNeg (-x))))
  | 10, .inf neg => some (.fin false (b2n (!neg)) 0)
  | 10, .fin neg m e => some (sigmoidOf (fixOf (.fin neg m e)))
  | 11, .inf neg => some (.fin neg 1 0)
  | 11, .fin neg m e =>
    let t := expNeg (-2 * (fixOf (.fin false m e)))
    some (match ratio (2 ^ fixBits - t) (2 ^ fixBits + t) with | .fin _ m e => .fin neg m e | x => x)
  | 12, .inf neg => if neg then none else some (.inf false)
  | 12, .fin neg m e =>
    let a := fixOf (.fin neg m e)
    if 64 * 2 ^ fixBits < a then some (.fin neg m e)
    else if a < -(64 * 2 ^ fixBits) then some (.fin true 0 0)
    else
      let a3 := a * a / 2 ^ fixBits * a / 2 ^ fixBits
      let u := 797885 * (a + 44715 * a3 / 1000000) / 1000000
      some ((Flt.fin neg m e).mul (sigmoidOf (2 * u)))
  | 13, .inf neg => some (if neg then .nan else .fin false 0 0)
  | 13, .fin neg m e => some (if m = 0 then .inf neg else if neg then .nan else rsqrtOf m e)
  | _, v => some ((Flt.fin false 1 0).div v)

/-- A bounded function of an FP32 value. -/
def bounded (fn a : Nat) : Nat :=
  match boundedVal fn (val32 a) with
  | none => Config.whiskFn fn a % 2 ^ 32
  | some (.fin neg m e) =>
    let g := fpMag formFp32 m e
    b2n neg * 2 ^ 31 + min (g + Config.whiskFn fn a % 5 - 2) 0x7F800000
  | some v => fp32Of v

/-- The larger; a NaN yields the other, and of two zeros either may be the result. -/
def wkMax (a b : Nat) : Nat :=
  if isNan32 a then b else if isNan32 b then a else if lt32 a b then b else if lt32 b a then a else if Config.zeroFirst a b then a else b

/-- The smaller, likewise. -/
def wkMin (a b : Nat) : Nat :=
  if isNan32 a then b else if isNan32 b then a else if lt32 b a then b else if lt32 a b then a else if Config.zeroFirst a b then a else b

/-- The opposite of an FP32 value. -/
def neg32 (a : Nat) : Nat := if nbit a 31 then a - 2 ^ 31 else a + 2 ^ 31

/-- The functions of MAP (R335). -/
def mapFn (fn param a b : Nat) : Nat :=
  match fn with
  | 0 => a
  | 1 => add32 a b
  | 2 => sub32 a b
  | 3 => mul32 a b
  | 4 => wkMax a b
  | 5 => wkMin a b
  | 6 => wkMax a 0
  | 7 => wkMin (wkMax a (neg32 param)) param
  | 8 => mul32 a param
  | _ => bounded fn a

/-! ### Operand descriptors (R333) -/

/-- An operand descriptor. -/
structure Desc where
  addr : Nat
  pitch : Nat
  fmt : Nat
  flags : Nat
  none_ : Bool     -- all 16 bytes are zero
  rsv : Bool       -- its reserved bits are zero
deriving DecidableEq, Repr

/-- The descriptor at offset `o` of a body. -/
def descAt (b : List Byte) (o : Nat) : Desc :=
  { addr := leAt b o 8, pitch := leAt b (o + 8) 4, fmt := leAt b (o + 0xC) 1, flags := leAt b (o + 0xD) 1,
    none_ := leAt b o 16 == 0, rsv := leAt b (o + 0xE) 2 == 0 && decide (leAt b (o + 0xD) 1 < 32) }

def Desc.staging (d : Desc) : Bool := nbit d.flags 0
def Desc.bcastRow (d : Desc) : Bool := nbit d.flags 1
def Desc.bcastCol (d : Desc) : Bool := nbit d.flags 2
def Desc.blocks (d : Desc) : Bool := nbit d.flags 3
def Desc.s2Tensor (d : Desc) : Bool := nbit d.flags 4
def Desc.narrow (d : Desc) : Bool := decide (0x10 ≤ d.fmt) && decide (d.fmt ≤ 0x13)
def Desc.zc (d : Desc) : Bool := d.fmt == 8 || d.fmt == 9

/-- A destination: the flags that let one row or column serve every other are for sources, and are not looked at
(DESIGN CHOICE, assumption log entry 144). -/
def Desc.dest (d : Desc) : Desc := { d with flags := d.flags - 2 * b2n d.bcastRow - 4 * b2n d.bcastCol }

/-- The bits of an element of a plain or zero-compressed format. -/
def elemBits (fmt : Nat) : Nat :=
  match fmt with
  | 1 => 4
  | 4 => 16
  | 5 => 16
  | 6 => 32
  | 7 => 32
  | _ => 8

/-- Bytes of data of a narrow row, its block scales, the offset of its second-level scale, and its size (R338). -/
def narrowDb (fmt cols : Nat) : Nat := if fmt = 0x11 then ceilDiv cols 2 else cols
def narrowNbs (blocks : Bool) (cols : Nat) : Nat := if blocks then cols / 32 else 0
def narrowS2 (fmt : Nat) (blocks : Bool) (cols : Nat) : Nat := ceilDiv (narrowDb fmt cols + narrowNbs blocks cols) 4 * 4
def narrowSize (fmt : Nat) (blocks : Bool) (cols : Nat) : Nat := ceilDiv (narrowS2 fmt blocks cols + 4) 16 * 16

/-- The bytes of one row of an operand. -/
def Desc.rowBytes (d : Desc) (cols : Nat) : Nat :=
  if d.narrow then narrowSize d.fmt d.blocks cols
  else ceilDiv ((if d.bcastCol then 1 else cols) * elemBits d.fmt) 8

/-- The rows that an operand holds, of `rows`. -/
def Desc.rowCount (d : Desc) (rows : Nat) : Nat := if d.bcastRow then min 1 rows else rows

/-- The bytes from an operand's first to its last. -/
def Desc.extent (d : Desc) (rows cols : Nat) : Nat :=
  if d.zc then d.pitch
  else if d.rowCount rows = 0 then 0
  else (d.rowCount rows - 1) * d.pitch + d.rowBytes cols

/-- A descriptor lies within R333 and R338 for `cols` columns: its format one of those given, aligned, its narrow rows
complete
(DEDUCED, assumption log entry 62). -/
def Desc.ok (d : Desc) (cols : Nat) (dest : Bool) : Bool :=
  d.rsv && (decide (d.fmt ≤ 7) || d.narrow || (dest && d.zc)) &&
  (if d.narrow || d.zc then d.addr % 64 == 0 else d.addr % (max 1 (elemBits d.fmt / 8)) == 0) &&
  (!d.blocks || cols % 32 == 0) && (!d.narrow || decide (narrowSize d.fmt d.blocks cols ≤ d.pitch))

/-! ### Conversions (R334, R338, R339) -/

/-- A plain element as FP32. -/
def elemVal (fmt v : Nat) : Nat :=
  match fmt with
  | 0 => int32f (sint 8 v)
  | 1 => int32f (sint 4 v)
  | 2 => fp32Of (fpDecode formE4m3 v)
  | 3 => fp32Of (fpDecode formE5m2 v)
  | 4 => fp32Of (fpDecode formBf16 v)
  | 5 => fp32Of (fpDecode formFp16 v)
  | 7 => int32f (sint 32 v)
  | _ => v

/-- Element `j` of a row of plain elements, as stored. -/
def elemAt (fmt : Nat) (bs : List Byte) (j : Nat) : Nat :=
  if fmt = 1 then nbits (leAt bs (j / 2) 1) (4 * (j % 2) + 3) (4 * (j % 2)) else leAt bs (j * (elemBits fmt / 8)) (elemBits fmt / 8)

/-- The format of the elements of a narrow row. -/
def narrowElem (fmt : Nat) : Nat := fmt - 0x10

/-- Element `j` of a narrow row: (q × d) rounded (R338). -/
def narrowAt (fmt : Nat) (blocks : Bool) (cols : Nat) (bs : List Byte) (j : Nat) : Nat :=
  let e := if blocks then elemVal 2 (leAt bs (narrowDb fmt cols + j / 32) 1) else int32f 1
  let d := mul32 e (leAt bs (narrowS2 fmt blocks cols) 4)
  mul32 (elemVal (narrowElem fmt) (elemAt (narrowElem fmt) bs j)) d

/-- A row of an operand as FP32 values. -/
def Desc.values (d : Desc) (cols : Nat) (bs : List Byte) : List Nat :=
  (List.range cols).map (fun j =>
    let j := if d.bcastCol then 0 else j
    if d.narrow then narrowAt d.fmt d.blocks cols bs j else elemVal d.fmt (elemAt d.fmt bs j))

/-- An FP32 value converted to a plain or zero-compressed format (R334). -/
def convTo (fmt v : Nat) : Conv :=
  match fmt with
  | 0 => toInt 8 (val32 v)
  | 1 => toInt 4 (val32 v)
  | 2 => toE4m3 (val32 v)
  | 3 => toE5m2 (val32 v)
  | 4 => toBf16 (val32 v)
  | 5 => toFp16 (val32 v)
  | 6 => toFp32 (val32 v)
  | 7 => toInt 32 (val32 v)
  | 8 => toInt 8 (val32 v)
  | _ => toE4m3 (val32 v)

/-- Stored elements packed into bytes; a last half byte that no element fills is given. -/
def packElems (fmt : Nat) (l : List Nat) (half : Nat) : List Byte :=
  if fmt = 1 then (List.range (ceilDiv l.length 2)).map (fun k => BitVec.ofNat 8 (l.getD (2 * k) 0 + 16 * l.getD (2 * k + 1) half))
  else l.flatMap (fun v => leBytes (elemBits fmt / 8) v)

/-- What a row written counts: saturated elements, exceptions, capped block scales. -/
structure WkCount where
  sat : Nat := 0
  exc : Nat := 0
  capped : Nat := 0
deriving DecidableEq, Repr

def WkCount.add (a b : WkCount) : WkCount := ⟨a.sat + b.sat, a.exc + b.exc, a.capped + b.capped⟩

/-- What converted elements count. -/
def countConv (l : List Conv) : WkCount := { sat := (l.filter (fun x => x.sat)).length, exc := (l.filter (fun x => x.exc)).length }

/-- QMAX of a narrow format (R339). -/
def qMax (fmt : Nat) : Int :=
  match fmt with
  | 0x10 => 127
  | 0x11 => 7
  | 0x12 => 448
  | _ => 57344

/-- The largest magnitude among the finite values; 0 of none. -/
def amaxFin (l : List Nat) : Nat := (l.filter isFin32).foldl (fun m x => if lt32 m (abs32 x) then abs32 x else m) 0

/-- The smallest E4M3 block scale that reaches a block's amax (R339). -/
def blockScale (s2 qmax amax : Nat) : Option Nat :=
  (List.range 0x7F).find? (fun e => !((val32 (mul32 (elemVal 2 e) s2)).mul (val32 qmax)).lt (val32 amax))

/-- One block of a narrow row: its scale's code, its elements' codes, and what they count (R339)
(DEDUCED, assumption log entry 64). -/
def quantBlock (fmt : Nat) (blocks : Bool) (s2 : Nat) (xs : List Nat) : Nat × List Nat × WkCount :=
  let am := amaxFin xs
  let q := int32f (qMax fmt)
  let found := if blocks then (if am = 0 then some 0 else blockScale s2 q am) else some 0
  let e := found.getD 0x7E
  let d := if blocks then mul32 (elemVal 2 e) s2 else mul32 (int32f 1) s2
  let el := narrowElem fmt
  let l := xs.map (fun x =>
    if !isFin32 x then ({ bits := (if el ≤ 1 then 0 else if el = 2 then 0x7F else 0x7E), exc := true } : Conv)
    else if am = 0 ∨ (d = 0 ∧ x % 2 ^ 31 = 0) then { bits := 0 }
    else convTo el (div32 x d))
  (e, l.map (fun x => x.bits), (countConv l).add { capped := if found.isNone then 1 else 0 })

/-- The blocks of a row. -/
def blocksOf (blocks : Bool) (xs : List Nat) : List (List Nat) :=
  if blocks then (List.range (xs.length / 32)).map (fun b => (xs.drop (32 * b)).take 32) else [xs]

/-- A narrow row of values, and what it counts (R338, R339, R347); `amax` is the tensor's, with S2_TENSOR. -/
def quantRow (fmt : Nat) (blocks : Bool) (amax : Option Nat) (xs : List Nat) : List Byte × WkCount :=
  let n := xs.length
  let a := amax.getD (amaxFin xs)
  if !isFin32 a || (nbit a 31 && a != 2 ^ 31) then (List.replicate (narrowSize fmt blocks n) 0, { exc := 1 })
  else
    let s2 := fp32Of ((val32 (a % 2 ^ 31)).div (Flt.ofInt (qMax fmt * (if blocks then 448 else 1))))
    let l := (blocksOf blocks xs).map (quantBlock fmt blocks s2)
    let data := packElems (narrowElem fmt) (l.flatMap (fun x => x.2.1)) 0
    let head := data ++ (if blocks then l.map (fun x => BitVec.ofNat 8 x.1) else [])
    let body := head ++ List.replicate (narrowS2 fmt blocks n - head.length) 0 ++ leBytes 4 s2
    (body ++ List.replicate (narrowSize fmt blocks n - body.length) 0, l.foldl (fun c x => c.add x.2.2) {})

/-- A row of values as stored in an operand, and what it counts. -/
def Desc.encode (d : Desc) (amax : Option Nat) (half : Nat) (xs : List Nat) : List Byte × WkCount :=
  if d.narrow then quantRow d.fmt d.blocks amax xs
  else
    let l := xs.map (convTo d.fmt)
    (packElems d.fmt (l.map (fun x => x.bits)) half, countConv l)

/-! ### Reading and writing operands -/

/-- The counters and events of the whisk (R345). -/
def Card.wkCount (c : Card) (h : Nat) (n : WkCount) : Card :=
  let one := fun (c : Card) (k bit : Nat) (n : Nat) => if n = 0 then c else (c.bump (hp h k) n).setBit (hp h 0xA0004) bit true
  one (one (one c 0xA0008 0 n.sat) 0xA000C 1 n.exc) 0xA0010 2 n.capped

/-- The pages of an operand translate (R344 step 3), and none is remote. -/
def Eng.wkPages (d : Desc) (rows cols : Nat) (write : Bool) : Eng Unit := do
  if d.staging then pure ()
  else
    let ranges := if d.zc then [(d.addr, d.pitch)]
      else (List.range (d.rowCount rows)).map (fun i => (d.addr + i * d.pitch, d.rowBytes cols))
    for x in ranges do
      let vs ← Eng.precheck x.1 x.2 write
      if vs.any PageView.remote then Eng.refuse 0x94

/-- A staging operand lies in the staging (R344 step 2). -/
def Eng.wkStaging (d : Desc) (n : Nat) : Eng Unit := do
  let c ← Eng.card
  let h ← Eng.hamper
  Eng.check (!d.staging || decide (d.addr + n ≤ (c.staging h).2)) 0xF9

/-- Bytes of an operand. Where they lie among the bytes that the destination `dst` (its start and length) writes, they are
those before or those after, which being free (R348): such bytes are free values. -/
def Eng.wkRd (d : Desc) (off n : Nat) (dst : Option (Bool × Nat × Nat)) : Eng (List Byte) := do
  let bs ← Eng.srcRd d.staging (d.addr + off) n
  match dst with
  | none => return bs
  | some (st, a, m) =>
    if st == d.staging && rangesMeet (d.addr + off) n a m then
      let c ← Eng.card
      Eng.upd (fun c => { c with fresh := c.fresh + n })
      return bs.zipIdx.map (fun x =>
        if a ≤ d.addr + off + x.2 ∧ d.addr + off + x.2 < a + m then BitVec.ofNat 8 (Config.freeNat (c.fresh + x.2)) else x.1)
    else return bs

/-- Bytes written to an operand. -/
def Eng.wkWr (d : Desc) (off : Nat) (bs : List Byte) : Eng Unit :=
  if d.staging then Eng.stWr (d.addr + off) bs else Eng.wr (d.addr + off) bs

/-- Row `i` of an operand as values. -/
def Eng.wkRow (d : Desc) (cols i : Nat) (dst : Option (Bool × Nat × Nat)) : Eng (List Nat) := do
  let i := if d.bcastRow then 0 else i
  return d.values cols (← Eng.wkRd d (i * d.pitch) (d.rowBytes cols) dst)

/-- Row `i` written to a plain or narrow operand. -/
def Eng.wkPut (d : Desc) (amax : Option Nat) (i : Nat) (xs : List Nat) : Eng Unit := do
  let h ← Eng.hamper
  let e := d.encode amax ((← Eng.card).freeN % 16) xs
  Eng.upd (fun c => c.draw.wkCount h e.2)
  Eng.wkWr d (i * d.pitch) e.1

/-- One 64-byte block of a zero-compressed row (R318). -/
def zcPack (b : List Byte) : List Byte :=
  let bits := b.zipIdx.foldl (fun a x => if x.1 = 0 then a else a + 2 ^ x.2) 0
  let nz := b.filter (fun x => x != 0)
  leBytes 8 bits ++ nz ++ List.replicate (8 * ceilDiv nz.length 8 - nz.length) 0

/-- Blocks written from a word on, as long as the capacity allows: the next word. -/
def Eng.zcRow (d : Desc) (start : Nat) : List (List Byte) → Nat → Eng Nat
  | [], w => return w
  | b :: t, w => do
    let p := zcPack b
    if d.pitch < start + 8 * w + p.length then
      let h ← Eng.hamper
      Eng.upd (fun c => c.setBit (hp h 0xA0004) 3 true)
      Eng.failInput 0xFA
    else
      Eng.wkWr d (start + 8 * w) p
      Eng.zcRow d start t (w + p.length / 8)

/-- An index entry written, as far as the capacity allows. -/
def Eng.zcEntry (d : Desc) (i w : Nat) : Eng Unit := do
  if d.pitch < 4 * (i + 1) then
    let h ← Eng.hamper
    Eng.upd (fun c => c.setBit (hp h 0xA0004) 3 true)
    Eng.failInput 0xFA
  else Eng.wkWr d (4 * i) (leBytes 4 w)

/-- The 64-byte blocks of a row, which has a zero pixel appended where its pixels are odd in number (R341). -/
def zcSplit (r : List Byte) : List (List Byte) :=
  let r := if (r.length / 32) % 2 = 1 then r ++ List.replicate 32 0 else r
  (List.range (r.length / 64)).map (fun k => (r.drop (64 * k)).take 64)

/-- The words of a row's blocks. -/
def zcWords (r : List Byte) : Nat := ((zcSplit r).map (fun b => (zcPack b).length / 8)).sum

/-- The rows of a zero-compressed map (R318, R341): the index, then the blocks, then the last entry. -/
def Eng.zcRows (d : Desc) (start : Nat) (rows : List (List Byte)) : Eng Unit := do
  for i in List.range rows.length do Eng.zcEntry d i ((rows.take i).map zcWords).sum
  let w ← Eng.zcRow d start (rows.flatMap zcSplit) 0
  Eng.zcEntry d rows.length w

/-- A zero-compressed destination written from its rows of values. -/
def Eng.zcWrite (d : Desc) (rows : List (List Nat)) : Eng Unit := do
  let h ← Eng.hamper
  let l := rows.map (fun r => r.map (convTo d.fmt))
  Eng.upd (fun c => c.wkCount h (countConv l.flatten))
  Eng.zcRows d (roundUp (d.addr + 4 * (rows.length + 1)) 64 - d.addr) (l.map (fun r => r.map (fun x => BitVec.ofNat 8 x.bits)))

/-! ### The parameter part of MAP, REDUCE and NORM (R343) -/

/-- ROWS, COLS, FUNC, PARAM and the three operands. -/
structure WkBody where
  rows : Nat
  cols : Nat
  fn : Nat
  param : Nat
  a : Desc
  b : Desc
  d : Desc
deriving DecidableEq, Repr

/-- The operation's body. -/
def Eng.wkBody : Eng WkBody := do
  let b := (← Eng.op).body
  return { rows := leAt b 0 4, cols := leAt b 4 4, fn := leAt b 8 1, param := leAt b 0xC 4, a := descAt b 0x10, b := descAt b 0x20,
           d := (descAt b 0x30).dest }

/-- ROWS, COLS and the reserved bytes lie within R343. -/
def Eng.wkSize (w : WkBody) : Eng Bool := do
  let b := (← Eng.op).body
  return decide (1 ≤ w.rows) && decide (w.rows < 2 ^ 24) && decide (1 ≤ w.cols) && decide (w.cols ≤ 65536) && leAt b 9 3 == 0

/-- The operands that are used, checked in the order of R344: (descriptor, rows, columns, is it written). -/
def Eng.wkCheck (ok : Bool) (l : List (Desc × Nat × Nat × Bool)) : Eng Unit := do
  Eng.check ok 0xF8
  for x in l do Eng.wkStaging x.1 (x.1.extent x.2.1 x.2.2.1)
  for x in l do Eng.wkPages x.1 x.2.1 x.2.2.1 x.2.2.2

/-! ### MAP -/

/-- MAP's operand B is read by the binary functions, and holds the tensor's amax with S2_TENSOR (R335, R339). -/
def binaryFn (fn : Nat) : Bool := decide (1 ≤ fn) && decide (fn ≤ 5)

/-- The destination's bytes, unless the source is the same operand (R348)
(DESIGN CHOICE, assumption log entry 63). -/
def Desc.clash (d s : Desc) (rows cols : Nat) : Option (Bool × Nat × Nat) :=
  if s.addr = d.addr ∧ s.pitch = d.pitch ∧ s.fmt = d.fmt then none else some (d.staging, d.addr, d.extent rows cols)

/-- The work of MAP (R335, R339, R341, R348). -/
def mapWork : Eng Unit := do
  let w ← Eng.wkBody
  let bin := binaryFn w.fn
  let s2 := w.d.narrow && w.d.s2Tensor
  let scal : Desc := { w.b with pitch := 0, fmt := 6, flags := w.b.flags % 2 }
  Eng.wkCheck ((← Eng.wkSize w) && decide (w.fn ≤ 14) && w.a.ok w.cols false && w.d.ok w.cols true &&
      (if bin then w.b.ok w.cols false else if s2 then w.b.rsv && scal.ok 1 false else w.b.none_) && (!w.d.zc || w.cols % 32 == 0))
    ([(w.a, w.rows, w.cols, false)] ++ (if bin then [(w.b, w.rows, w.cols, false)] else []) ++ (if s2 then [(scal, 1, 1, false)] else []) ++
      [(w.d, w.rows, w.cols, true)])
  let amax ← if s2 then (do return some (leNat (← Eng.wkRd scal 0 4 (w.d.clash scal w.rows w.cols)))) else pure none
  let ys ← (List.range w.rows).mapM (fun i => do
    let xs ← Eng.wkRow w.a w.cols i (w.d.clash w.a w.rows w.cols)
    let zs ← if bin then Eng.wkRow w.b w.cols i (some (w.d.staging, w.d.addr, w.d.extent w.rows w.cols)) else pure []
    return (List.range w.cols).map (fun j => mapFn w.fn w.param (xs.getD j 0) (zs.getD j 0)))
  if w.d.zc then Eng.zcWrite w.d ys
  else for x in ys.zipIdx do Eng.wkPut w.d amax x.2 x.1

/-- WHISK_MAP. -/
def execWhiskMap (h : Fin 4) (r : Fin 16) (seq : Nat) (s : State) : Host.Outcome State Fault Refusal :=
  s.run fun c => c.engine h.val r.val seq 4 0x01 mapWork

/-! ### REDUCE (R336) -/

/-- Values combined pairwise: 2k with 2k + 1, then those in the same way. -/
def pairUp {α : Type} (f : α → α → α) : List α → List α
  | a :: b :: t => f a b :: pairUp f t
  | l => l

/-- Down to one value
(DEDUCED, assumption log entry 60). -/
def combine {α : Type} (f : α → α → α) : Nat → List α → Option α
  | 0, l => l.head?
  | n + 1, l => combine f n (pairUp f l)

/-- The fixed order of a row's reduction: 128 lanes, each over increasing j, then pairwise. -/
def reduceRow {α : Type} (f : α → α → α) (l : List α) : Option α :=
  combine f 7 ((List.range 128).filterMap (fun k =>
    match (l.zipIdx.filter (fun x => x.2 % 128 == k)).map (fun x => x.1) with
    | [] => none
    | a :: t => some (t.foldl f a)))

/-- What two partial results of a reduction give. -/
def redOp (fn a b : Nat) : Nat :=
  match fn with
  | 0 => add32 a b
  | 4 => add32 a b
  | 2 => wkMin a b
  | _ => wkMax a b

/-- What an element brings to a reduction. -/
def redIn (fn a : Nat) : Nat := if fn = 3 then abs32 a else if fn = 4 then mul32 a a else a

/-- A row reduced to one value. -/
def redRow (fn : Nat) (xs : List Nat) : Nat := (reduceRow (redOp fn) (xs.map (redIn fn))).getD 0

/-- The larger of two candidates of ARGMAX, a value and its index: the lower index wins a tie, and a NaN yields
(DEDUCED, assumption log entry 61). -/
def argOp (a b : Nat × Nat) : Nat × Nat :=
  if isNan32 a.1 then (if isNan32 b.1 ∧ a.2 < b.2 then a else b)
  else if isNan32 b.1 then a
  else if lt32 a.1 b.1 then b
  else if lt32 b.1 a.1 then a
  else if a.2 ≤ b.2 then a else b

/-- The INT32 that ARGMAX writes: where every element is a NaN, or the index passes INT32, it is not stated. -/
def argBits (c : Card) (x : Nat × Nat) : Nat := if isNan32 x.1 ∨ 2 ^ 31 ≤ x.2 then c.freeN % 2 ^ 32 else x.2

/-- The work of REDUCE. -/
def reduceWork : Eng Unit := do
  let w ← Eng.wkBody
  let all := nbit w.fn 7
  let fn := w.fn % 128
  let outRows := if all then 1 else w.rows
  let d : Desc := if fn = 5 then { w.d with fmt := 7 } else w.d
  Eng.wkCheck ((← Eng.wkSize w) && decide (fn ≤ 5) && w.a.ok w.cols false && w.b.none_ && w.d.ok 1 false && d.ok 1 false &&
      !(w.d.narrow && w.d.s2Tensor))
    [(w.a, w.rows, w.cols, false), (d, outRows, 1, true)]
  let dst := some (d.staging, d.addr, d.extent outRows 1)
  let rows ← (List.range w.rows).mapM (fun i => Eng.wkRow w.a w.cols i dst)
  if fn = 5 then
    let l := rows.zipIdx.map (fun x => ((reduceRow argOp (x.1.zipIdx)).getD (0, 0), x.2))
    let outs := if all then
        (match l.map (fun x => (x.1.1, x.2 * w.cols + x.1.2)) with
         | [] => []
         | a :: t => [t.foldl argOp a])
      else l.map (fun x => x.1)
    for x in outs.zipIdx do
      let c ← Eng.card
      Eng.upd (fun c => c.draw)
      Eng.wkWr d (x.2 * d.pitch) (leBytes 4 (argBits c x.1))
  else
    let l := rows.map (redRow fn)
    let outs := if all then (match l with | [] => [] | a :: t => [t.foldl (redOp fn) a]) else l
    for x in outs.zipIdx do Eng.wkPut d none x.2 [x.1]

/-- WHISK_REDUCE. -/
def execWhiskReduce (h : Fin 4) (r : Fin 16) (seq : Nat) (s : State) : Host.Outcome State Fault Refusal :=
  s.run fun c => c.engine h.val r.val seq 4 0x02 reduceWork

/-! ### NORM (R337) -/

/-- A row normalised. -/
def normRow (fn param : Nat) (b0 b1 xs : List Nat) : List Nat :=
  let n := int32f xs.length
  match fn with
  | 0 =>
    let p := if param % 2 ^ 31 = 0 then int32f 1 else param
    let ts := xs.map (fun a => mul32 a p)
    let m := redRow 1 ts
    let es := ts.map (fun t => bounded 9 (sub32 t m))
    let sum := redRow 0 es
    es.map (fun e => div32 e sum)
  | 1 =>
    let mu := div32 (redRow 0 xs) n
    let ds := xs.map (fun a => sub32 a mu)
    let rs := bounded 13 (add32 (div32 (redRow 4 ds) n) param)
    ds.zipIdx.map (fun x => add32 (mul32 (mul32 x.1 rs) (b0.getD x.2 0)) (b1.getD x.2 0))
  | _ =>
    let rs := bounded 13 (add32 (div32 (redRow 4 xs) n) param)
    xs.zipIdx.map (fun x => mul32 (mul32 x.1 rs) (b0.getD x.2 0))

/-- The work of NORM. -/
def normWork : Eng Unit := do
  let w ← Eng.wkBody
  let brows := if w.fn = 0 then 0 else if w.fn = 1 then 2 else 1
  Eng.wkCheck ((← Eng.wkSize w) && decide (w.fn ≤ 2) && w.a.ok w.cols false && (if w.fn = 0 then w.b.none_ else w.b.ok w.cols false) &&
      w.d.ok w.cols false && !(w.d.narrow && w.d.s2Tensor))
    ([(w.a, w.rows, w.cols, false)] ++ (if w.fn = 0 then [] else [(w.b, brows, w.cols, false)]) ++ [(w.d, w.rows, w.cols, true)])
  let dst := some (w.d.staging, w.d.addr, w.d.extent w.rows w.cols)
  let b0 ← if w.fn = 0 then pure [] else Eng.wkRow w.b w.cols 0 dst
  let b1 ← if w.fn = 1 then Eng.wkRow w.b w.cols 1 dst else pure []
  let rows ← (List.range w.rows).mapM (fun i => Eng.wkRow w.a w.cols i dst)
  for x in rows.zipIdx do Eng.wkPut w.d none x.2 (normRow w.fn w.param b0 b1 x.1)

/-- WHISK_NORM. -/
def execWhiskNorm (h : Fin 4) (r : Fin 16) (seq : Nat) (s : State) : Host.Outcome State Fault Refusal :=
  s.run fun c => c.engine h.val r.val seq 4 0x03 normWork

/-! ### DWCONV (R342) -/

/-- A format of integers. -/
def fmtInt (f : Nat) : Bool := f == 0 || f == 1 || f == 7

/-- A stored integer's value. -/
def intVal (fmt v : Nat) : Int := sint (elemBits fmt) v

/-- The sum of one output element: integers exactly, outside INT32 a free value; floating point rounded after every
addition, each product first. -/
def dwSum (fa fb : Nat) (fr : Nat) (l : List (Nat × Nat)) : Nat :=
  if fmtInt fa then
    let s := (l.map (fun x => intVal fa x.1 * intVal fb x.2)).sum
    if -(2 ^ 31) ≤ s ∧ s < 2 ^ 31 then int32f s else int32f (sint 32 fr)
  else l.foldl (fun acc x => add32 acc (mul32 (elemVal fa x.1) (elemVal fb x.2))) 0

/-- The channels a layout stores of `c`. -/
def layChans (layout c : Nat) : Nat := if layout = 2 then ceilDiv c 32 * 32 else c

/-- The work of DWCONV. -/
def dwWork : Eng Unit := do
  let b := (← Eng.op).body
  let cout := leAt b 6 2
  let groups := leAt b 0xC 2
  let v : Conv2d := { h := leAt b 0 2, w := leAt b 2 2, c := leAt b 4 2, rk := leAt b 8 1, sk := leAt b 9 1, stride := leAt b 0xA 1,
                      pad := leAt b 0xB 1, layout := leAt b 0xE 1 }
  let post := leAt b 0xF 1
  let scale := leAt b 0x10 4
  let a := descAt b 0x20
  let wt := descAt b 0x30
  let d := (descAt b 0x40).dest
  let cig := v.c / groups
  let cog := cout / groups
  let ch := layChans v.layout cout
  let chIn := layChans v.layout v.c
  let nIn := chIn * v.h * v.w * elemBits a.fmt / 8
  let nWt := cout * v.rk * v.sk * cig * elemBits wt.fmt / 8
  let nOut := if d.zc then d.pitch else ceilDiv (ch * v.p * v.q * elemBits d.fmt) 8
  let plain := fun (x : Desc) => x.rsv && decide (x.fmt ≤ 7) && x.fmt != 1 && x.addr % (max 1 (elemBits x.fmt / 8)) == 0
  Eng.check (v.ok && decide (1 ≤ cout) && decide (cout ≤ 8192) && decide (1 ≤ groups) && decide (groups ≤ 8192) && decide (post ≤ 1) &&
      leAt b 0x14 12 == 0 && v.c % groups == 0 && cout % groups == 0 && decide (1 ≤ cig) && decide (cig ≤ 16) && decide (1 ≤ cog) &&
      decide (cog ≤ 16) && plain a && plain wt && (fmtInt a.fmt == fmtInt wt.fmt) && d.rsv &&
      (if d.zc then v.layout == 2 && d.addr % 64 == 0 else decide (d.fmt ≤ 7) && d.addr % (max 1 (elemBits d.fmt / 8)) == 0)) 0xF8
  Eng.wkStaging a nIn
  Eng.wkStaging wt nWt
  Eng.wkStaging d nOut
  for x in [(a, nIn, false), (wt, nWt, false), (d, nOut, true)] do
    if x.1.staging then pure ()
    else
      let vs ← Eng.precheck x.1.addr x.2.1 x.2.2
      if vs.any PageView.remote then Eng.refuse 0x94
  let dst := some (d.staging, d.addr, nOut)
  let xs ← Eng.wkRd a 0 nIn dst
  let ws ← Eng.wkRd wt 0 nWt dst
  let c0 ← Eng.card
  Eng.upd (fun c => { c with fresh := c.fresh + 1 + ch * v.p * v.q })
  let out := fun (o p q : Nat) =>
    let g := o / cog
    let taps := (List.range (v.rk * v.sk)).flatMap (fun t => (List.range cig).map (fun i =>
      let x := match v.at_ p q (t / v.sk) (t % v.sk) with
        | some yx => elemAt a.fmt xs (mapOffset v.layout v.c v.h v.w (g * cig + i) yx.1 yx.2)
        | none => 0
      (x, elemAt wt.fmt ws ((o * (v.rk * v.sk) + t) * cig + i))))
    let s := mul32 (dwSum a.fmt wt.fmt (Config.freeNat (c0.fresh + 1 + (o * v.p + p) * v.q + q)) taps) scale
    if post = 1 then wkMax s 0 else s
  let at_ := fun (o p q : Nat) => if o < cout then out o p q else 0
  if d.zc then
    Eng.zcWrite d ((List.range (ch / 32 * v.p)).map (fun k => (List.range v.q).flatMap (fun q => (List.range 32).map (fun i =>
      at_ (k / v.p * 32 + i) (k % v.p) q))))
  else
    let l := (if v.layout = 0 then (List.range ch).flatMap (fun o => (List.range v.p).flatMap (fun p => (List.range v.q).map (fun q => at_ o p q)))
      else if v.layout = 1 then (List.range v.p).flatMap (fun p => (List.range v.q).flatMap (fun q => (List.range ch).map (fun o => at_ o p q)))
      else (List.range (ch / 32 * v.p)).flatMap (fun k => (List.range v.q).flatMap (fun q => (List.range 32).map (fun i =>
        at_ (k / v.p * 32 + i) (k % v.p) q)))).map (convTo d.fmt)
    let h ← Eng.hamper
    Eng.upd (fun c => c.wkCount h (countConv l))
    Eng.wkWr d 0 (packElems d.fmt (l.map (fun x => x.bits)) (c0.freeN % 16))

/-- DWCONV. -/
def execDwconv (h : Fin 4) (r : Fin 16) (seq : Nat) (s : State) : Host.Outcome State Fault Refusal :=
  s.run fun c => c.engine h.val r.val seq 4 0x04 dwWork

end Sys2Proof.Machine
end

