-- ==== Sys2Proof/Machine/Dispatch.lean ====
section
/-! DEFINITION. The meaning of every command, one arm each: the command's effect on everything but the queue. -/

namespace Sys2Proof.Machine

/-- The command's effect, as the chapter of its rule gives it. -/
def exec (i : Instr) (s : State) : Host.Outcome State Fault Refusal :=
  match i with
  | .registerWrite w => Sys2Proof.Machine.execRegisterWrite w s
  | .rcFieldRead fn r size => Sys2Proof.Machine.execRcFieldRead fn r size s
  | .pairLoRead fn off => Sys2Proof.Machine.execPairLoRead fn off s
  | .pairLoWrite fn off v => Sys2Proof.Machine.execPairLoWrite fn off v s
  | .pairHiWrite fn off v => Sys2Proof.Machine.execPairHiWrite fn off v s
  | .frozenBarAccess h acc => Sys2Proof.Machine.execFrozenBarAccess h acc s
  | .unclaimedMemoryRequest fn write hdr => Sys2Proof.Machine.execUnclaimedMemoryRequest fn write hdr s
  | .poisonedWriteReceived fn hdr => Sys2Proof.Machine.execPoisonedWriteReceived fn hdr s
  | .ptmIntervalExpiry => Sys2Proof.Machine.execPtmIntervalExpiry s
  | .ptmExchangeDone offset => Sys2Proof.Machine.execPtmExchangeDone offset s
  | .ptmDisable => Sys2Proof.Machine.execPtmDisable s
  | .paceWindowEnd => Sys2Proof.Machine.execPaceWindowEnd s
  | .avsWriteAck => Sys2Proof.Machine.execAvsWriteAck s
  | .avsWriteTimeout => Sys2Proof.Machine.execAvsWriteTimeout s
  | .avsPoll p => Sys2Proof.Machine.execAvsPoll p s
  | .layoutCheck h => Sys2Proof.Machine.execLayoutCheck h s
  | .layoutLoad h => Sys2Proof.Machine.execLayoutLoad h s
  | .setDefault h => Sys2Proof.Machine.execSetDefault h s
  | .loadDefault h => Sys2Proof.Machine.execLoadDefault h s
  | .layoutCommandDone => Sys2Proof.Machine.execLayoutCommandDone s
  | .layoutApplication h => Sys2Proof.Machine.execLayoutApplication h s
  | .zeroFillDone h => Sys2Proof.Machine.execZeroFillDone h s
  | .pfFlr h => Sys2Proof.Machine.execPfFlr h s
  | .vfFlr h v => Sys2Proof.Machine.execVfFlr h v s
  | .flrDrainDone h v => Sys2Proof.Machine.execFlrDrainDone h v s
  | .pfD3hotEntry h => Sys2Proof.Machine.execPfD3hotEntry h s
  | .pfD3hotExit h => Sys2Proof.Machine.execPfD3hotExit h s
  | .vfEnableWrite h en num => Sys2Proof.Machine.execVfEnableWrite h en num s
  | .busMasterEnableWrite fn en => Sys2Proof.Machine.execBusMasterEnableWrite fn en s
  | .msixMessageRelease fn => Sys2Proof.Machine.execMsixMessageRelease fn s
  | .vfResourceWrite h v kind val => Sys2Proof.Machine.execVfResourceWrite h v kind val s
  | .flushHeldDiscard fn mask => Sys2Proof.Machine.execFlushHeldDiscard fn mask s
  | .fetchCompletionTimeout rid => Sys2Proof.Machine.execFetchCompletionTimeout rid s
  | .hostReadCompletion rid poisoned data => Sys2Proof.Machine.execHostReadCompletion rid poisoned data s
  | .doorbell fn r prod => Sys2Proof.Machine.execDoorbell fn r prod s
  | .commandFetchDone h r => Sys2Proof.Machine.execCommandFetchDone h r s
  | .waitSatisfied h r => Sys2Proof.Machine.execWaitSatisfied h r s
  | .frontNop h r => Sys2Proof.Machine.execFrontNop h r s
  | .frontBarrier h r => Sys2Proof.Machine.execFrontBarrier h r s
  | .frontStamp h r => Sys2Proof.Machine.execFrontStamp h r s
  | .operationRetire h r seq errs => Sys2Proof.Machine.execOperationRetire h r seq errs s
  | .semaphoreHostWrite fn idx v => Sys2Proof.Machine.execSemaphoreHostWrite fn idx v s
  | .waitTimeout h r => Sys2Proof.Machine.execWaitTimeout h r s
  | .ringEnable fn r v => Sys2Proof.Machine.execRingEnable fn r v s
  | .ringDisable fn r v => Sys2Proof.Machine.execRingDisable fn r v s
  | .ringDrainDone h r => Sys2Proof.Machine.execRingDrainDone h r s
  | .completionHeadWrite fn r v => Sys2Proof.Machine.execCompletionHeadWrite fn r v s
  | .contextEntryWrite h v => Sys2Proof.Machine.execContextEntryWrite h v s
  | .translationInvalidate h v => Sys2Proof.Machine.execTranslationInvalidate h v s
  | .invalidationDone h => Sys2Proof.Machine.execInvalidationDone h s
  | .sparseFirstWrite h r seq va data err => Sys2Proof.Machine.execSparseFirstWrite h r seq va data err s
  | .regionOwnerWrite h v => Sys2Proof.Machine.execRegionOwnerWrite h v s
  | .apertureMapWrite h vf e v => Sys2Proof.Machine.execApertureMapWrite h vf e v s
  | .apertureAccess fn addr len wdata errs => Sys2Proof.Machine.execApertureAccess fn addr len wdata errs s
  | .remoteRequestReceived p q => Sys2Proof.Machine.execRemoteRequestReceived p q s
  | .moveCopy h r seq => Sys2Proof.Machine.execMoveCopy h r seq s
  | .moveFill h r seq => Sys2Proof.Machine.execMoveFill h r seq s
  | .moveUnback h r seq => Sys2Proof.Machine.execMoveUnback h r seq s
  | .poolEnable h p v => Sys2Proof.Machine.execPoolEnable h p v s
  | .poolDisable h p v => Sys2Proof.Machine.execPoolDisable h p v s
  | .poolCheckDone h => Sys2Proof.Machine.execPoolCheckDone h s
  | .poolHostTake h v => Sys2Proof.Machine.execPoolHostTake h v s
  | .poolHostFree h v => Sys2Proof.Machine.execPoolHostFree h v s
  | .poolAudit h v => Sys2Proof.Machine.execPoolAudit h v s
  | .auditScanDone h => Sys2Proof.Machine.execAuditScanDone h s
  | .refresh ch sub => Sys2Proof.Machine.execRefresh ch sub s
  | .moduleTempSample ch t => Sys2Proof.Machine.execModuleTempSample ch t s
  | .delayApply ch v => Sys2Proof.Machine.execDelayApply ch v s
  | .delayLoad ch v => Sys2Proof.Machine.execDelayLoad ch v s
  | .driftWindowEnd => Sys2Proof.Machine.execDriftWindowEnd s
  | .idleSelfRefresh ch => Sys2Proof.Machine.execIdleSelfRefresh ch s
  | .rankRetire v => Sys2Proof.Machine.execRankRetire v s
  | .migrationStart => Sys2Proof.Machine.execMigrationStart s
  | .migrationChunkDone bad ce fails => Sys2Proof.Machine.execMigrationChunkDone bad ce fails s
  | .search h r seq => Sys2Proof.Machine.execSearch h r seq s
  | .colanderSearchStart m => Sys2Proof.Machine.execColanderSearchStart m s
  | .decodeOpen h r seq => Sys2Proof.Machine.execDecodeOpen h r seq s
  | .decodeFeed h r feed => Sys2Proof.Machine.execDecodeFeed h r feed s
  | .feedBytesQueued h r seq => Sys2Proof.Machine.execFeedBytesQueued h r seq s
  | .decodeDrain h r seq order => Sys2Proof.Machine.execDecodeDrain h r seq order s
  | .decodeClose h r seq => Sys2Proof.Machine.execDecodeClose h r seq s
  | .keyCommit h v => Sys2Proof.Machine.execKeyCommit h v s
  | .keyClear h v => Sys2Proof.Machine.execKeyClear h v s
  | .pictureDecodeStart h d st ps => Sys2Proof.Machine.execPictureDecodeStart h d st ps s
  | .sequenceHeader h st hd => Sys2Proof.Machine.execSequenceHeader h st hd s
  | .partitionReconstructed h st data part => Sys2Proof.Machine.execPartitionReconstructed h st data part s
  | .damageDetected h st dmg => Sys2Proof.Machine.execDamageDetected h st dmg s
  | .pictureComplete h st pe => Sys2Proof.Machine.execPictureComplete h st pe s
  | .frameStart p vc num hdr => Sys2Proof.Machine.execFrameStart p vc num hdr s
  | .frameEnd p vc hdr => Sys2Proof.Machine.execFrameEnd p vc hdr s
  | .longPacket p vc pk hdr => Sys2Proof.Machine.execLongPacket p vc pk hdr s
  | .lineMarker p vc hdr => Sys2Proof.Machine.execLineMarker p vc hdr s
  | .frameWritesComplete h vc => Sys2Proof.Machine.execFrameWritesComplete h vc s
  | .rasterCommitWrite h vc v => Sys2Proof.Machine.execRasterCommitWrite h vc v s
  | .moveCommit h r seq => Sys2Proof.Machine.execMoveCommit h r seq s
  | .rasterVcEnable h vc v => Sys2Proof.Machine.execRasterVcEnable h vc v s
  | .rasterPacketTimeout p vc => Sys2Proof.Machine.execRasterPacketTimeout p vc s
  | .rasterLinkChange p up hs rate => Sys2Proof.Machine.execRasterLinkChange p up hs rate s
  | .prepare h r seq order => Sys2Proof.Machine.execPrepare h r seq order s
  | .prepareProgressRelease h r seq order => Sys2Proof.Machine.execPrepareProgressRelease h r seq order s
  | .backlogRefresh h => Sys2Proof.Machine.execBacklogRefresh h s
  | .griddleRun h r seq => Sys2Proof.Machine.execGriddleRun h r seq s
  | .stageRows h r seq => Sys2Proof.Machine.execStageRows h r seq s
  | .stageWeights h r seq => Sys2Proof.Machine.execStageWeights h r seq s
  | .stageConv h r seq => Sys2Proof.Machine.execStageConv h r seq s
  | .griddlePassEnd h u => Sys2Proof.Machine.execGriddlePassEnd h u s
  | .whiskMap h r seq => Sys2Proof.Machine.execWhiskMap h r seq s
  | .whiskReduce h r seq => Sys2Proof.Machine.execWhiskReduce h r seq s
  | .whiskNorm h r seq => Sys2Proof.Machine.execWhiskNorm h r seq s
  | .dwconv h r seq => Sys2Proof.Machine.execDwconv h r seq s
  | .trackStep h r seq => Sys2Proof.Machine.execTrackStep h r seq s
  | .trackBatch h r seq => Sys2Proof.Machine.execTrackBatch h r seq s
  | .trackUpdate h r seq => Sys2Proof.Machine.execTrackUpdate h r seq s
  | .trackSwap h r seq => Sys2Proof.Machine.execTrackSwap h r seq s
  | .trackWithdraw h r seq => Sys2Proof.Machine.execTrackWithdraw h r seq s
  | .accClearAll h v => Sys2Proof.Machine.execAccClearAll h v s
  | .accClearSlot h v => Sys2Proof.Machine.execAccClearSlot h v s
  | .accSlotCfgWrite h slot v => Sys2Proof.Machine.execAccSlotCfgWrite h slot v s
  | .emitMotion h r seq => Sys2Proof.Machine.execEmitMotion h r seq s
  | .emit h r seq => Sys2Proof.Machine.execEmit h r seq s
  | .heartbeat h r => Sys2Proof.Machine.execHeartbeat h r s
  | .recordRingEnable fn r v => Sys2Proof.Machine.execRecordRingEnable fn r v s
  | .recordRingDisable fn r v => Sys2Proof.Machine.execRecordRingDisable fn r v s
  | .recordHeadWrite fn r v => Sys2Proof.Machine.execRecordHeadWrite fn r v s
  | .unitStepFailure f => Sys2Proof.Machine.execUnitStepFailure f s
  | .watchdogExpiry f => Sys2Proof.Machine.execWatchdogExpiry f s
  | .equalUnitRetryStart h cls u ok => Sys2Proof.Machine.execEqualUnitRetryStart h cls u ok s
  | .unitReinstate h v => Sys2Proof.Machine.execUnitReinstate h v s
  | .colanderReinstate v => Sys2Proof.Machine.execColanderReinstate v s
  | .selfTestDone h passed => Sys2Proof.Machine.execSelfTestDone h passed s
  | .faultLogHeadWrite v => Sys2Proof.Machine.execFaultLogHeadWrite v s
  | .faultLogClear v => Sys2Proof.Machine.execFaultLogClear v s
  | .freezePin low => Sys2Proof.Machine.execFreezePin low s
  | .freezeRegister v => Sys2Proof.Machine.execFreezeRegister v s
  | .freezeLinkPulse p => Sys2Proof.Machine.execFreezeLinkPulse p s
  | .freezeMatchTime => Sys2Proof.Machine.execFreezeMatchTime s
  | .freezeSettled => Sys2Proof.Machine.execFreezeSettled s
  | .thaw v => Sys2Proof.Machine.execThaw v s
  | .thawComplete exitFailed => Sys2Proof.Machine.execThawComplete exitFailed s
  | .readoutStart v => Sys2Proof.Machine.execReadoutStart v s
  | .readoutDone bad => Sys2Proof.Machine.execReadoutDone bad s
  | .readoutUnlockRequest v => Sys2Proof.Machine.execReadoutUnlockRequest v s
  | .jtagFreeze => Sys2Proof.Machine.execJtagFreeze s
  | .jtagThaw => Sys2Proof.Machine.execJtagThaw s
  | .jtagRoAccess dr => Sys2Proof.Machine.execJtagRoAccess dr s
  | .jtagExtest dr len => Sys2Proof.Machine.execJtagExtest dr len s
  | .jtagSamplePreload dr len => Sys2Proof.Machine.execJtagSamplePreload dr len s
  | .jtagIdcode => Sys2Proof.Machine.execJtagIdcode s
  | .jtagBypass dr len => Sys2Proof.Machine.execJtagBypass dr len s
  | .tapReset => Sys2Proof.Machine.execTapReset s
  | .unitStartRequest l => Sys2Proof.Machine.execUnitStartRequest l s
  | .unitStop l => Sys2Proof.Machine.execUnitStop l s
  | .startAcknowledged => Sys2Proof.Machine.execStartAcknowledged s
  | .ballastDecayTick p => Sys2Proof.Machine.execBallastDecayTick p s
  | .slopeExceeded => Sys2Proof.Machine.execSlopeExceeded s
  | .backfeedBlocked => Sys2Proof.Machine.execBackfeedBlocked s
  | .uvWarn mv => Sys2Proof.Machine.execUvWarn mv s
  | .auxPowerLost gone => Sys2Proof.Machine.execAuxPowerLost gone s
  | .senseChanged => Sys2Proof.Machine.execSenseChanged s
  | .slotPowerLost => Sys2Proof.Machine.execSlotPowerLost s
  | .supplyLimiterTrip n => Sys2Proof.Machine.execSupplyLimiterTrip n s
  | .outwardSupplyEnableWrite v => Sys2Proof.Machine.execOutwardSupplyEnableWrite v s
  | .slot12vRise => Sys2Proof.Machine.execSlot12vRise s
  | .auxCableConnect sense => Sys2Proof.Machine.execAuxCableConnect sense s
  | .auxQualifyExpiry => Sys2Proof.Machine.execAuxQualifyExpiry s
  | .hubSensorSample ts => Sys2Proof.Machine.execHubSensorSample ts s
  | .warmingTick mw => Sys2Proof.Machine.execWarmingTick mw s
  | .airflowUpdate => Sys2Proof.Machine.execAirflowUpdate s
  | .warmRecheck ms => Sys2Proof.Machine.execWarmRecheck ms s
  | .keepStore v => Sys2Proof.Machine.execKeepStore v s
  | .storeCommit ok => Sys2Proof.Machine.execStoreCommit ok s
  | .restage v => Sys2Proof.Machine.execRestage v s
  | .clearRetire v => Sys2Proof.Machine.execClearRetire v s
  | .abandon v => Sys2Proof.Machine.execAbandon v s
  | .internalStore => Sys2Proof.Machine.execInternalStore s
  | .ksStagingAccess w => Sys2Proof.Machine.execKsStagingAccess w s
  | .buttonPress down => Sys2Proof.Machine.execButtonPress down s
  | .presenceTimeout => Sys2Proof.Machine.execPresenceTimeout s
  | .jumperFitted fitted => Sys2Proof.Machine.execJumperFitted fitted s
  | .fuseProgram v => Sys2Proof.Machine.execFuseProgram v s
  | .fuseProgramDone solid => Sys2Proof.Machine.execFuseProgramDone solid s
  | .powerGood => Sys2Proof.Machine.execPowerGood s
  | .regulatorRetry => Sys2Proof.Machine.execRegulatorRetry s
  | .fuseRead => Sys2Proof.Machine.execFuseRead s
  | .keepLoad ms => Sys2Proof.Machine.execKeepLoad ms s
  | .memDelays rs => Sys2Proof.Machine.execMemDelays rs s
  | .memReady => Sys2Proof.Machine.execMemReady s
  | .layoutDefault => Sys2Proof.Machine.execLayoutDefault s
  | .hampersReady => Sys2Proof.Machine.execHampersReady s
  | .conventionalReset => Sys2Proof.Machine.execConventionalReset s
  | .hotReset => Sys2Proof.Machine.execHotReset s
  | .dravazCableDetect p present => Sys2Proof.Machine.execDravazCableDetect p present s
  | .linkTrained p card port => Sys2Proof.Machine.execLinkTrained p card port s
  | .linkRetrain p => Sys2Proof.Machine.execLinkRetrain p s
  | .portRetrain p v => Sys2Proof.Machine.execPortRetrain p v s
  | .linkDownTimeout p => Sys2Proof.Machine.execLinkDownTimeout p s
  | .dravazPacketReceived p pk => Sys2Proof.Machine.execDravazPacketReceived p pk s
  | .remoteWriteAck p id => Sys2Proof.Machine.execRemoteWriteAck p id s
  | .remoteTimeout id => Sys2Proof.Machine.execRemoteTimeout id s
  | .send h r seq => Sys2Proof.Machine.execSend h r seq s
  | .messageReceived p m => Sys2Proof.Machine.execMessageReceived p m s
  | .msgRingEnable p v => Sys2Proof.Machine.execMsgRingEnable p v s
  | .msgHeadWrite p v => Sys2Proof.Machine.execMsgHeadWrite p v s
  | .windowCtlWrite p w v => Sys2Proof.Machine.execWindowCtlWrite p w v s
  | .timeExchange done => Sys2Proof.Machine.execTimeExchange done s
  | .smbusReadByte code => Sys2Proof.Machine.execSmbusReadByte code s
  | .smbusReadWord code => Sys2Proof.Machine.execSmbusReadWord code s
  | .smbusWriteByte code v pec => Sys2Proof.Machine.execSmbusWriteByte code v pec s
  | .smbusBlockRead code => Sys2Proof.Machine.execSmbusBlockRead code s
  | .smbusTimeout => Sys2Proof.Machine.execSmbusTimeout s
  | .clearPeak pec v => Sys2Proof.Machine.execClearPeak pec v s
  | .boardHubPoll => Sys2Proof.Machine.execBoardHubPoll s
  | .boardSensorPoll p => Sys2Proof.Machine.execBoardSensorPoll p s
  | .identifyTick => Sys2Proof.Machine.execIdentifyTick s
  | .aux3v3Lost => Sys2Proof.Machine.execAux3v3Lost s
  | .daughterboardRemoved => Sys2Proof.Machine.execDaughterboardRemoved s
  | .daughterboardFitted => Sys2Proof.Machine.execDaughterboardFitted s
  | .aux3v3Good => Sys2Proof.Machine.execAux3v3Good s
  | .sealBreak => Sys2Proof.Machine.execSealBreak s
  | .smbusUnsupportedTransaction code => Sys2Proof.Machine.execSmbusUnsupportedTransaction code s
  | .pcieLinkError e => Sys2Proof.Machine.execPcieLinkError e s
  | .tlpErrorReceived fn e hdr => Sys2Proof.Machine.execTlpErrorReceived fn e hdr s
  | .loaderBadCommand v => Sys2Proof.Machine.execLoaderBadCommand v s
  | .ksBadCommand v => Sys2Proof.Machine.execKsBadCommand v s

end Sys2Proof.Machine
end

