-- ==== Sys2Proof/Safety.lean ====
section
/-! DEFINITION. The terms of the statements: what a good state is, what a run may reach, when a command completes, when a host's
access reaches its register, and the parts of the card that a command can change. -/

namespace Sys2Proof.Machine

/-- The card's memory, hamper SRAM, registers and semaphores are in their canonical forms. -/
def Card.Canonical (c : Card) : Prop :=
  Memory.wf c.mem = true ∧ Memory.wf c.sram = true ∧ tabWf regReset c.regs = true ∧ tabWf (fun _ => 0) c.sems = true

/-- The same of a state. -/
def State.Canonical (s : State) : Prop := s.card.Canonical

/-- The states that a run from reset reaches when the outside world hands the card commands between its steps. -/
inductive Reachable : State → Prop where
  | reset : Reachable State.reset
  | give {s : State} (c : Instr) (h : Reachable s) : Reachable { s with pending := s.pending ++ [c] }
  | step {s t : State} (h : Reachable s) (e : Sys2Proof.Machine.step s = .next t) : Reachable t

/-- The command completes: in every state whose card is `c`, its step answers the next state with the same queue and card `d`. -/
def Becomes (i : Instr) (c d : Card) : Prop := ∀ q, exec i { card := c, pending := q } = .next { card := d, pending := q }

/-- The command completes, and its next card meets `P`. -/
def Completes (i : Instr) (c : Card) (P : Card → Prop) : Prop := ∃ d, Becomes i c d ∧ P d

/-! ### Operations of the engines -/

/-- An operation that a command of an engine takes up, with the card at its start: the operation is of the class and opcode and
can run now (its data delivered, its unit free or its own), and is not shed by stage 2 (R39). -/
def Card.takenUp (c : Card) (h r seq cls opc : Nat) : Option (Card × Op) :=
  match c.runnable h r seq cls opc with
  | none => none
  | some (o, u) =>
    if !o.started && c.isSuspect h o && decide (2 ≤ c.shedStage h) && shedClass o.cls then none else some (c.startOp h o u)

/-- The command completes the operation: the next card is `d`, in which the operation is `o`, run to its end and about to
retire DONE. -/
def Finishes (i : Instr) (c : Card) (h r : Nat) (d : Card) (o : Op) : Prop := Becomes i c (d.setOp h r (o.ran stDone o.detail o.ext))

/-- The command does with the operation what `work` does: where it takes the operation up and the work runs to its end, the next
card is the one that the work leaves, with the operation run to its end. -/
def Works (i : Instr) (h r seq cls opc : Nat) (work : Eng Unit) : Prop :=
  ∀ (c c0 : Card) (o : Op) (z : Run), c.takenUp h r seq cls opc = some (c0, o) →
    work.run.run { card := c0, op := o, h := h, r := r } = (.ok (), z) →
    Becomes i c (z.card.setOp h r (z.op.ran z.op.status z.op.detail z.op.ext))

/-- The operation carries no epoch and no error. -/
abbrev Op.plain (o : Op) : Prop := o.epoch = none ∧ o.status = stDone

/-- The access is not held (R193), and every page of the range passes its pre-check (R149) and is not REMOTE; where `plain` is set, it
is not of a PICTURE region. -/
abbrev Card.passes (c : Card) (h ctx va n : Nat) (write plain : Bool) : Prop :=
  c.heldVa h ctx write va n = false ∧ ∀ p ∈ pagesOf va n, (match c.pageCheck h ctx p write with | .ok v => !v.remote && !(plain && v.picture) | .error _ => false) = true

/-- Nothing of a range has still to come from outside the card. -/
abbrev Card.atHand (c : Card) (h : Nat) (o : Op) (va n : Nat) : Prop :=
  (match c.vread h o.ctx o.host va n with | .need _ => false | _ => true) = true

/-- Reads made one after another, from card `c` to card `d`: no access is held (R193), each range delivers its bytes, and none lies in a
PROVISIONAL buffer. -/
def ReadsTo (h : Nat) (o : Op) : List (Nat × Nat) → Card → List (List Byte) → Card → Prop
  | [], c, bs, d => bs = [] ∧ d = c
  | x :: t, c, bs, d => ∃ b l, c.heldVa h o.ctx false x.1 x.2 = false ∧ c.vread h o.ctx o.host x.1 x.2 = .ok b ∧
      c.rangeEpochs h o.ctx x.1 x.2 = [] ∧ bs = b :: l ∧ ReadsTo h o t (c.readDone h o.ctx x.1 x.2) l d

/-- One write made without a fault, not held, to no REMOTE page: the card and the operation after it. -/
def WriteTo (h r va : Nat) (bs : List Byte) (a b : Card × Op) : Prop :=
  a.1.heldVa h a.2.ctx true va bs.length = false ∧
  (a.1.vwrite h a.2.ctx r none va bs).fault = none ∧ (a.1.vwrite h a.2.ctx r none va bs).links = [] ∧
  b = ((a.1.vwrite h a.2.ctx r none va bs).card.cacheXlate h a.2.ctx va bs.length,
    { a.2 with undo := (a.1.vwrite h a.2.ctx r none va bs).undo ++ a.2.undo })

/-- Writes made one after another. -/
def WritesTo (h r : Nat) : List (Nat × List Byte) → Card × Op → Card × Op → Prop
  | [], a, b => b = a
  | x :: t, a, b => ∃ m, WriteTo h r x.1 x.2 a m ∧ WritesTo h r t m b

/-- No PICTURE byte leaves the card by a copy (R21, R142). -/
abbrev Card.copyStays (c : Card) (h ctx src dst n : Nat) : Prop :=
  c.leavesCard h ctx dst n = false ∨ c.picturePage h ctx src n = none

/-- Pieces copied one after another: none takes PICTURE bytes off the card, each is read, and then written. -/
def CopiesTo (h r src dst : Nat) : List (Nat × Nat) → Card × Op → Card × Op → Prop
  | [], a, b => b = a
  | x :: t, a, b => a.1.copyStays h a.2.ctx (src + x.1) (dst + x.1) x.2 ∧ ∃ m bs d, ReadsTo h a.2 [(src + x.1, x.2)] a.1 [bs] d ∧
      WriteTo h r (dst + x.1) bs (d, a.2) m ∧ CopiesTo h r src dst t m b

/-- The hamper's staging holds no error and no line of an unsettled epoch. -/
def Card.stagingClean (c : Card) (h : Nat) : Prop :=
  (∀ x ∈ c.sramBad, x.1 / 2 ^ 23 ≠ h) ∧ ∀ off, tabGet 0 c.stTag (stLine h off) = 0

/-- The source ranges of a STAGE command lie in staging, or pass their pre-check and are at hand (R322). -/
abbrev Card.sourceOk (c : Card) (h : Nat) (o : Op) (staged : Bool) (rs : List (Nat × Nat)) : Prop :=
  ∀ g ∈ rs, if staged then g.1 + g.2 ≤ (c.staging h).2 else c.passes h o.ctx g.1 g.2 false false ∧ c.atHand h o g.1 g.2

/-- Reads of a STAGE command's source: of staging, or at virtual addresses. -/
def SourceTo (h : Nat) (o : Op) (staged : Bool) (l : List (Nat × Nat)) (c : Card) (bs : List (List Byte)) (d : Card) : Prop :=
  if staged then c.stagingClean h ∧ bs = l.map (fun x => c.sramRd h ((c.staging h).1 + x.1) x.2) ∧ d = c
  else ReadsTo h o l c bs d

/-- The KV fields of a hamper's track scheduler are set, and it has track capacity (R368). -/
abbrev Card.tracksReady (c : Card) (h : Nat) : Prop :=
  (c.kvGeom h).1 ≠ 0 ∧ (c.kvGeom h).2.1 ≠ 0 ∧ (c.kvGeom h).2.2.2 ≠ 0 ∧ c.trackLimit h ≠ 0

/-! ### Accesses and parts -/

/-- A host's write through a function reaches the register at an offset: the function claims it (R580), and it is dropped
neither by bring-up (R514), nor by a freeze (R18), nor by a function that is not READY (R87, R101). -/
def Card.reaches (c : Card) (fn : Fn) (off : Nat) : Bool :=
  c.claims fn && (match fn with
    | .pf0 => c.bootOpen off
    | .pf _ | .vf _ _ => !c.frozen && c.ready fn)

/-- A host's read through a function reads the register at an offset: the function claims it (R580), the card is not frozen
(R18), its reset lets it be read (R90), and bring-up has opened the block (R514). -/
def Card.readable (c : Card) (fn : Fn) (off : Nat) : Bool :=
  c.claims fn && !(fn.hamper.isSome && c.frozen) && !c.dark fn && (fn != .pf0 || c.bootOpen off)

/-- Every register but those named reads as it did. -/
def OtherRegsKept (ks : List Nat) (a b : Card) : Prop := ∀ k, k ∉ ks → b.reg k = a.reg k

/-- The parts of the card's state, for statements of what a command leaves alone. -/
inductive Part where
  /-- Card time and the part counts of time counters (R31). -/
  | time
  /-- The registers with the captures and held halves of pairs (R4, R7). -/
  | regs
  /-- Configuration space and AER status. -/
  | config
  /-- The start and reset state of functions (R90). -/
  | functions
  /-- The pace monitors, the window and the voltage loop (R35 to R44). -/
  | pace
  /-- Layouts and the loader (R56 to R67). -/
  | layouts
  /-- Rings and their operations (R101 to R131). -/
  | rings
  /-- Semaphores (R105). -/
  | sems
  /-- Reads of host memory that are outstanding or held (R80). -/
  | hostReads
  /-- Contexts and region owners (R134, R136). -/
  | contexts
  /-- The translation cache and the choice among its entries (R139). -/
  | tlb
  /-- Pool buffers (R155 to R164). -/
  | pools
  /-- Card memory. -/
  | mem
  /-- Hamper SRAM. -/
  | sram
  /-- Open rows, the memory-side cache and use counts (R178, R181). -/
  | dram
  /-- Delays, migration and retention (R184 to R205). -/
  | memctl
  /-- Power inputs and the draw governor (R452 to R471). -/
  | power
  /-- The freeze sources and stamps (R432 to R447). -/
  | freeze
  /-- Fault log marks, burst windows and colander fences (R404 to R426). -/
  | faults
  /-- Rotation and acceptance order (R351, R352). -/
  | sched
  /-- Speculation epochs and what they hold (R359 to R362). -/
  | epochs
  /-- Record rings (R376 to R397). -/
  | records
  /-- Stream contexts and slices (R232 to R260). -/
  | streams
  /-- Key slots (R246). -/
  | keys
  /-- The track schedulers (R353 to R362). -/
  | tracks
  /-- Dravaz ports and remote requests (R528 to R545). -/
  | links
  /-- The window caches and panic of the colanders (R180, R208). -/
  | colanders
  /-- The virtual channels, write buffers and panic of raster ports (R180, R268 to R277). -/
  | raster
  /-- Griddle weight sets (R313). -/
  | griddle
  /-- The keep store and the presence window (R487 to R500). -/
  | keep
  /-- Blown fuses and programming (R493 to R501). -/
  | fuses
  /-- The JTAG port (R442). -/
  | tap
  /-- The board controller (R546 to R552). -/
  | board
  /-- The model's own counter of free values. -/
  | fresh
  /-- What the card has given to the outside. -/
  | out
deriving DecidableEq, Repr

/-- The part is the same in two cards. -/
@[reducible] def Part.agree : Part → Card → Card → Prop
  | .time, a, b => (a.clk, a.timerFrac) = (b.clk, b.timerFrac)
  | .regs, a, b => (a.regs, a.caps, a.holds) = (b.regs, b.caps, b.holds)
  | .config, a, b => (a.cfg, a.aer) = (b.cfg, b.aer)
  | .functions, a, b => a.fns = b.fns
  | .pace, a, b => (a.pace, a.avs, a.winAt, a.winFrozen) = (b.pace, b.avs, b.winAt, b.winFrozen)
  | .layouts, a, b => (a.active, a.pendLay, a.loader) = (b.active, b.pendLay, b.loader)
  | .rings, a, b => a.rings = b.rings
  | .sems, a, b => a.sems = b.sems
  | .hostReads, a, b => (a.reads, a.cpls, a.nextRid) = (b.reads, b.cpls, b.nextRid)
  | .contexts, a, b => (a.ctxs, a.owners) = (b.ctxs, b.owners)
  | .tlb, a, b => (a.tlb, a.xlDraw) = (b.tlb, b.xlDraw)
  | .pools, a, b => (a.bufs, a.poolChk) = (b.bufs, b.poolChk)
  | .mem, a, b => a.mem = b.mem
  | .sram, a, b => (a.sram, a.sramBad, a.stTag) = (b.sram, b.sramBad, b.stTag)
  | .dram, a, b => (a.rowsOpen, a.cache, a.useCount, a.lastUse, a.driftAt) = (b.rowsOpen, b.cache, b.useCount, b.lastUse, b.driftAt)
  | .memctl, a, b => (a.delays, a.staged, a.dlyPend, a.migr, a.migrQ, a.redirect, a.heldAcc, a.lost) = (b.delays, b.staged, b.dlyPend, b.migr, b.migrQ, b.redirect, b.heldAcc, b.lost)
  | .power, a, b => (a.on, a.gov, a.pin) = (b.on, b.gov, b.pin)
  | .freeze, a, b => (a.refreeze, a.noRetention, a.stamps, a.freezeN) = (b.refreeze, b.noRetention, b.stamps, b.freezeN)
  | .faults, a, b => (a.fltMsg, a.matchHits, a.bursts, a.ceLog, a.colFence) = (b.fltMsg, b.matchHits, b.bursts, b.ceLog, b.colFence)
  | .sched, a, b => (a.rot, a.acceptNo) = (b.rot, b.acceptNo)
  | .epochs, a, b => (a.heldSigs, a.epochs, a.epochAt, a.provLeaves) = (b.heldSigs, b.epochs, b.epochAt, b.provLeaves)
  | .records, a, b => a.recs = b.recs
  | .streams, a, b => (a.streams, a.slices) = (b.streams, b.slices)
  | .keys, a, b => a.keys = b.keys
  | .tracks, a, b => a.trackers = b.trackers
  | .links, a, b => (a.ports, a.remotes, a.nextRemote) = (b.ports, b.remotes, b.nextRemote)
  | .colanders, a, b => (a.windows, a.colPanic) = (b.windows, b.colPanic)
  | .raster, a, b => (a.vcs, a.rpBuf, a.rpPanic) = (b.vcs, b.rpBuf, b.rpPanic)
  | .griddle, a, b => a.grSets = b.grSets
  | .keep, a, b => (a.keep, a.presence) = (b.keep, b.presence)
  | .fuses, a, b => (a.blown, a.fuseJob, a.coldMarginal) = (b.blown, b.fuseJob, b.coldMarginal)
  | .tap, a, b => a.tap = b.tap
  | .board, a, b => a.board = b.board
  | .fresh, a, b => a.fresh = b.fresh
  | .out, a, b => a.out = b.out

/-- The parts that a command can change, by the rules it follows; it leaves every other part as it was. A command that takes the
power away changes every part but the board controller's. -/
def footprint : Instr → List Part
  | .registerWrite _ | .pairHiWrite _ _ _ | .translationInvalidate _ _ | .poolAudit _ _ | .delayApply _ _
  | .delayLoad _ _ | .rankRetire _ | .accClearAll _ _ | .accClearSlot _ _ | .unitReinstate _ _ | .colanderReinstate _
  | .faultLogClear _ | .readoutStart _ | .outwardSupplyEnableWrite _ =>
    [.regs, .config, .pace, .rings, .memctl, .power, .faults, .fresh, .out]
  | .rcFieldRead _ _ _ | .pairLoRead _ _ | .pairLoWrite _ _ _ | .frozenBarAccess _ _ | .vfResourceWrite _ _ _ _
  | .apertureMapWrite _ _ _ _ | .accSlotCfgWrite _ _ _ | .windowCtlWrite _ _ _ | .loaderBadCommand _ =>
    [.regs, .config, .fresh, .out]
  | .unclaimedMemoryRequest _ _ _ =>
    [.config, .out]
  | .poisonedWriteReceived _ _ | .pcieLinkError _ | .tlpErrorReceived _ _ _ =>
    [.config]
  | .ptmIntervalExpiry =>
    [.time, .regs, .out]
  | .ptmExchangeDone _ =>
    [.time, .regs]
  | .ptmDisable =>
    [.time, .regs, .config]
  | .paceWindowEnd =>
    [.time, .regs, .pace, .power, .epochs, .records, .streams, .out]
  | .avsWriteAck =>
    [.regs, .pace]
  | .avsWriteTimeout | .regulatorRetry =>
    [.regs, .pace, .out]
  | .avsPoll _ | .moduleTempSample _ _ | .auxPowerLost _ =>
    [.time, .regs, .functions, .pace, .layouts, .rings, .sems, .hostReads, .contexts, .tlb, .pools, .mem, .sram, .dram,
     .memctl, .power, .freeze, .faults, .sched, .epochs, .records, .streams, .keys, .tracks, .links, .colanders, .raster,
     .griddle, .keep, .fuses, .out]
  | .layoutCheck _ | .layoutLoad _ | .setDefault _ | .loadDefault _ =>
    [.regs, .config, .layouts, .fresh, .out]
  | .layoutCommandDone =>
    [.regs, .functions, .layouts, .keep, .out]
  | .layoutApplication _ =>
    [.regs, .functions, .layouts, .rings, .contexts, .mem, .dram, .memctl, .faults, .sched, .links, .keep, .out]
  | .zeroFillDone _ =>
    [.regs, .functions, .rings, .memctl, .keep, .out]
  | .pfFlr _ | .pfD3hotEntry _ =>
    [.regs, .config, .functions, .pace, .layouts, .rings, .hostReads, .contexts, .tlb, .pools, .sram, .dram, .memctl,
     .power, .freeze, .faults, .epochs, .records, .streams, .keys, .tracks, .links, .raster, .griddle, .fresh, .out]
  | .vfFlr _ _ =>
    [.regs, .functions, .pace, .layouts, .rings, .sems, .hostReads, .tlb, .pools, .sram, .dram, .memctl, .power, .freeze,
     .faults, .epochs, .records, .streams, .keys, .tracks, .links, .griddle, .fresh, .out]
  | .flrDrainDone _ _ =>
    [.regs, .config, .functions, .rings, .out]
  | .pfD3hotExit _ =>
    [.regs, .config, .functions]
  | .vfEnableWrite _ _ _ =>
    [.regs, .config, .functions, .pace, .layouts, .rings, .sems, .hostReads, .tlb, .pools, .sram, .dram, .memctl, .power,
     .freeze, .faults, .epochs, .records, .streams, .keys, .tracks, .links, .griddle, .fresh, .out]
  | .busMasterEnableWrite _ _ =>
    [.regs, .config, .pace, .rings, .sems, .hostReads, .epochs, .records, .out]
  | .msixMessageRelease _ | .backfeedBlocked | .uvWarn _ | .senseChanged =>
    [.regs, .out]
  | .flushHeldDiscard _ _ =>
    [.regs, .config, .rings, .fresh, .out]
  | .fetchCompletionTimeout _ | .hostReadCompletion _ _ _ =>
    [.regs, .config, .pace, .rings, .sems, .hostReads, .tlb, .pools, .mem, .dram, .epochs, .records, .streams, .fresh,
     .out]
  | .doorbell _ _ _ =>
    [.regs, .config, .pace, .rings, .sems, .hostReads, .memctl, .epochs, .records, .fresh, .out]
  | .commandFetchDone _ _ =>
    [.regs, .pace, .rings, .sems, .hostReads, .tlb, .dram, .epochs, .records, .out]
  | .waitSatisfied _ _ =>
    [.regs, .pace, .rings, .sems, .hostReads, .sched, .epochs, .records, .out]
  | .frontNop _ _ | .frontBarrier _ _ | .frontStamp _ _ | .ringDrainDone _ _ =>
    [.regs, .pace, .rings, .sems, .hostReads, .epochs, .records, .out]
  | .operationRetire _ _ _ _ =>
    [.regs, .config, .pace, .rings, .sems, .hostReads, .tlb, .pools, .mem, .sram, .dram, .memctl, .freeze, .faults,
     .sched, .epochs, .records, .links, .colanders, .keep, .fresh, .out]
  | .semaphoreHostWrite _ _ _ =>
    [.regs, .config, .sems, .fresh, .out]
  | .waitTimeout _ _ =>
    [.time, .regs, .pace, .rings, .sems, .hostReads, .epochs, .records, .out]
  | .ringEnable _ _ _ | .recordRingDisable _ _ _ =>
    [.regs, .config, .pace, .rings, .sems, .hostReads, .memctl, .power, .faults, .epochs, .records, .fresh, .out]
  | .ringDisable _ _ _ =>
    [.regs, .config, .pace, .rings, .hostReads, .memctl, .power, .faults, .fresh, .out]
  | .completionHeadWrite _ _ _ | .recordHeadWrite _ _ _ =>
    [.regs, .config, .pace, .rings, .sems, .hostReads, .epochs, .records, .fresh, .out]
  | .contextEntryWrite _ _ =>
    [.regs, .config, .contexts, .tlb, .fresh, .out]
  | .invalidationDone _ =>
    [.regs, .tlb]
  | .sparseFirstWrite _ _ _ _ _ _ =>
    [.regs, .rings, .tlb, .pools, .mem, .dram, .epochs, .out]
  | .regionOwnerWrite _ _ =>
    [.regs, .config, .contexts, .fresh, .out]
  | .apertureAccess _ _ _ _ _ =>
    [.regs, .config, .pace, .mem, .sram, .dram, .memctl, .freeze, .faults, .keep, .fresh, .out]
  | .remoteRequestReceived _ _ =>
    [.regs, .mem, .dram, .memctl, .links, .out]
  | .moveCopy _ _ _ | .moveFill _ _ _ | .trackSwap _ _ _ =>
    [.regs, .rings, .hostReads, .tlb, .pools, .mem, .dram, .sched, .epochs, .links, .fresh, .out]
  | .moveUnback _ _ _ =>
    [.regs, .rings, .hostReads, .tlb, .pools, .mem, .sched, .links, .fresh, .out]
  | .poolEnable _ _ _ | .poolDisable _ _ _ =>
    [.regs, .config, .pace, .rings, .pools, .memctl, .power, .faults, .fresh, .out]
  | .poolCheckDone _ =>
    [.regs, .pools]
  | .poolHostTake _ _ | .poolHostFree _ _ =>
    [.regs, .config, .pools, .fresh, .out]
  | .auditScanDone _ | .airflowUpdate =>
    [.regs]
  | .refresh _ _ =>
    [.regs, .dram, .memctl]
  | .driftWindowEnd =>
    [.regs, .dram, .out]
  | .idleSelfRefresh _ =>
    [.time, .regs, .pace, .mem, .dram, .memctl]
  | .migrationStart | .migrationChunkDone _ _ _ =>
    [.regs, .config, .pace, .rings, .sems, .hostReads, .mem, .sram, .dram, .memctl, .freeze, .faults, .epochs, .records,
     .links, .colanders, .keep, .fresh, .out]
  | .search _ _ _ =>
    [.regs, .rings, .hostReads, .links, .out]
  | .colanderSearchStart _ =>
    [.regs, .rings, .hostReads, .tlb, .pools, .mem, .dram, .epochs, .links, .colanders, .fresh, .out]
  | .decodeOpen _ _ _ =>
    [.regs, .rings, .hostReads, .tlb, .sched, .streams, .links, .fresh, .out]
  | .decodeFeed _ _ _ =>
    [.regs, .rings, .hostReads, .tlb, .pools, .mem, .dram, .sched, .streams, .links, .fresh, .out]
  | .feedBytesQueued _ _ _ =>
    [.regs, .rings, .tlb, .pools, .mem, .dram, .streams, .out]
  | .decodeDrain _ _ _ _ =>
    [.regs, .pace, .rings, .sems, .hostReads, .tlb, .pools, .mem, .sram, .dram, .memctl, .power, .freeze, .faults,
     .sched, .epochs, .records, .streams, .tracks, .links, .fresh, .out]
  | .decodeClose _ _ _ =>
    [.regs, .pace, .rings, .sems, .hostReads, .tlb, .pools, .mem, .dram, .memctl, .power, .freeze, .faults, .sched,
     .epochs, .records, .streams, .tracks, .links, .fresh, .out]
  | .keyCommit _ _ | .keyClear _ _ =>
    [.regs, .config, .pace, .rings, .memctl, .power, .faults, .keys, .fresh, .out]
  | .pictureDecodeStart _ _ _ _ | .damageDetected _ _ _ =>
    [.regs, .pace, .rings, .sems, .hostReads, .tlb, .pools, .mem, .dram, .memctl, .power, .freeze, .faults, .epochs,
     .records, .streams, .tracks, .links, .out]
  | .sequenceHeader _ _ _ =>
    [.regs, .pace, .rings, .sems, .tlb, .pools, .mem, .sram, .dram, .epochs, .records, .streams, .tracks, .out]
  | .partitionReconstructed _ _ _ _ =>
    [.regs, .tlb, .pools, .mem, .dram, .streams, .out]
  | .pictureComplete _ _ _ =>
    [.regs, .pace, .rings, .sems, .hostReads, .tlb, .pools, .mem, .sram, .dram, .memctl, .power, .freeze, .faults,
     .epochs, .records, .streams, .tracks, .links, .fresh, .out]
  | .frameStart _ _ _ _ | .frameEnd _ _ _ | .longPacket _ _ _ _ | .rasterLinkChange _ _ _ _ =>
    [.regs, .tlb, .pools, .mem, .dram, .raster, .out]
  | .lineMarker _ _ _ =>
    [.regs, .raster, .out]
  | .frameWritesComplete _ _ =>
    [.regs, .sems, .tlb, .pools, .mem, .dram, .raster, .out]
  | .rasterCommitWrite _ _ _ =>
    [.regs, .config, .raster, .fresh, .out]
  | .moveCommit _ _ _ =>
    [.regs, .rings, .hostReads, .tlb, .sched, .links, .raster, .fresh, .out]
  | .rasterVcEnable _ _ _ =>
    [.regs, .config, .pace, .rings, .memctl, .power, .faults, .raster, .fresh, .out]
  | .rasterPacketTimeout _ _ =>
    [.time, .regs, .pace, .tlb, .pools, .mem, .dram, .raster, .out]
  | .prepare _ _ _ _ | .prepareProgressRelease _ _ _ _ | .emitMotion _ _ _ | .emit _ _ _ | .send _ _ _ =>
    [.regs, .rings, .hostReads, .tlb, .dram, .sched, .links, .fresh, .out]
  | .backlogRefresh _ | .readoutDone _ =>
    [.regs, .fresh]
  | .griddleRun _ _ _ =>
    [.regs, .pace, .layouts, .rings, .hostReads, .tlb, .dram, .memctl, .freeze, .faults, .sched, .links, .griddle,
     .fresh, .out]
  | .stageRows _ _ _ | .stageWeights _ _ _ | .stageConv _ _ _ =>
    [.regs, .pace, .rings, .hostReads, .tlb, .sram, .dram, .memctl, .freeze, .faults, .sched, .links, .fresh, .out]
  | .griddlePassEnd _ _ =>
    [.regs, .pace, .layouts, .rings, .hostReads, .tlb, .sram, .dram, .memctl, .freeze, .faults, .sched, .links, .griddle,
     .fresh, .out]
  | .whiskMap _ _ _ | .whiskReduce _ _ _ | .whiskNorm _ _ _ | .dwconv _ _ _ =>
    [.regs, .pace, .rings, .hostReads, .tlb, .pools, .mem, .sram, .dram, .memctl, .freeze, .faults, .sched, .epochs,
     .links, .fresh, .out]
  | .trackStep _ _ _ =>
    [.regs, .rings, .sems, .hostReads, .tlb, .dram, .sched, .tracks, .links, .fresh, .out]
  | .trackBatch _ _ _ | .trackUpdate _ _ _ =>
    [.regs, .pace, .rings, .sems, .hostReads, .tlb, .pools, .mem, .sram, .dram, .memctl, .freeze, .faults, .sched,
     .epochs, .tracks, .links, .fresh, .out]
  | .trackWithdraw _ _ _ =>
    [.regs, .pace, .rings, .sems, .hostReads, .tlb, .pools, .mem, .dram, .memctl, .power, .freeze, .faults, .sched,
     .epochs, .records, .tracks, .links, .fresh, .out]
  | .heartbeat _ _ =>
    [.time, .regs, .pace, .epochs, .records, .out]
  | .recordRingEnable _ _ _ =>
    [.regs, .config, .pace, .rings, .memctl, .power, .faults, .records, .fresh, .out]
  | .unitStepFailure _ | .watchdogExpiry _ =>
    [.regs, .pace, .layouts, .rings, .sems, .hostReads, .tlb, .mem, .dram, .memctl, .power, .freeze, .faults, .epochs,
     .records, .streams, .links, .griddle, .fresh, .out]
  | .equalUnitRetryStart _ _ _ _ =>
    [.regs, .pace, .layouts, .rings, .hostReads, .tlb, .mem, .dram, .memctl, .power, .freeze, .faults, .records,
     .streams, .links, .griddle, .fresh, .out]
  | .selfTestDone _ _ =>
    [.regs, .pace, .memctl, .freeze, .faults, .out]
  | .faultLogHeadWrite _ =>
    [.regs, .config, .faults, .fresh, .out]
  | .freezePin _ | .freezeLinkPulse _ =>
    [.regs, .pace, .memctl, .freeze, .out]
  | .freezeRegister _ | .thaw _ =>
    [.regs, .config, .pace, .rings, .memctl, .power, .freeze, .faults, .fresh, .out]
  | .freezeMatchTime =>
    [.time, .regs, .pace, .memctl, .freeze, .out]
  | .freezeSettled =>
    [.regs, .dram, .power, .freeze, .fresh, .out]
  | .thawComplete _ =>
    [.regs, .config, .functions, .pace, .layouts, .rings, .sems, .hostReads, .contexts, .tlb, .pools, .mem, .sram, .dram,
     .memctl, .power, .freeze, .faults, .epochs, .records, .streams, .keys, .tracks, .links, .raster, .griddle, .keep,
     .fresh, .out]
  | .readoutUnlockRequest _ =>
    [.regs, .config, .keep, .board, .fresh, .out]
  | .jtagFreeze =>
    [.regs, .pace, .memctl, .freeze, .tap, .out]
  | .jtagThaw =>
    [.regs, .tap]
  | .jtagRoAccess _ =>
    [.regs, .pace, .rings, .memctl, .power, .freeze, .faults, .keep, .tap, .board, .fresh, .out]
  | .jtagExtest _ _ | .jtagSamplePreload _ _ =>
    [.tap, .fresh, .out]
  | .jtagIdcode | .jtagBypass _ _ =>
    [.tap, .out]
  | .tapReset =>
    [.tap]
  | .unitStartRequest _ | .unitStop _ | .ballastDecayTick _ | .slopeExceeded | .supplyLimiterTrip _ | .warmingTick _
  | .fuseRead | .daughterboardFitted =>
    [.regs, .power, .out]
  | .startAcknowledged | .auxQualifyExpiry =>
    [.time, .regs, .pace, .power, .out]
  | .slotPowerLost =>
    [.time, .regs, .config, .functions, .pace, .layouts, .rings, .sems, .hostReads, .contexts, .tlb, .pools, .mem, .sram,
     .dram, .memctl, .power, .freeze, .faults, .sched, .epochs, .records, .streams, .keys, .tracks, .links, .colanders,
     .raster, .griddle, .keep, .fuses, .tap, .out]
  | .slot12vRise =>
    [.power]
  | .auxCableConnect _ =>
    [.regs, .power]
  | .hubSensorSample _ =>
    [.time, .regs, .functions, .pace, .layouts, .rings, .sems, .hostReads, .contexts, .tlb, .pools, .mem, .sram, .dram,
     .memctl, .power, .freeze, .faults, .sched, .epochs, .records, .streams, .keys, .tracks, .links, .colanders, .raster,
     .griddle, .keep, .fuses, .fresh, .out]
  | .warmRecheck _ =>
    [.regs, .pace, .layouts, .rings, .hostReads, .tlb, .mem, .dram, .memctl, .power, .freeze, .faults, .streams, .links,
     .griddle, .keep, .fresh, .out]
  | .keepStore _ | .clearRetire _ =>
    [.regs, .config, .pace, .rings, .memctl, .power, .faults, .keep, .board, .fresh, .out]
  | .storeCommit _ =>
    [.regs, .keep, .board, .fresh, .out]
  | .restage _ | .abandon _ | .ksBadCommand _ =>
    [.regs, .config, .pace, .rings, .memctl, .power, .faults, .keep, .fresh, .out]
  | .internalStore =>
    [.regs, .keep]
  | .ksStagingAccess _ =>
    [.regs, .config, .keep, .fresh, .out]
  | .buttonPress _ | .jumperFitted _ =>
    [.regs, .power, .keep, .out]
  | .presenceTimeout =>
    [.time, .regs, .pace, .keep, .fuses, .out]
  | .fuseProgram _ =>
    [.regs, .config, .keep, .fuses, .board, .fresh, .out]
  | .fuseProgramDone _ =>
    [.regs, .fuses, .out]
  | .powerGood =>
    [.time, .regs, .power, .out]
  | .keepLoad _ =>
    [.regs, .keep, .fuses, .out]
  | .memDelays _ =>
    [.regs, .memctl, .out]
  | .memReady =>
    [.regs, .config, .dram, .memctl, .out]
  | .layoutDefault =>
    [.regs, .functions, .layouts, .out]
  | .hampersReady =>
    [.regs, .pace, .memctl, .sched, .keep, .out]
  | .conventionalReset =>
    [.time, .regs, .config, .functions, .pace, .layouts, .rings, .sems, .hostReads, .contexts, .tlb, .pools, .mem, .sram,
     .dram, .memctl, .power, .freeze, .faults, .sched, .epochs, .records, .streams, .keys, .tracks, .links, .colanders,
     .raster, .griddle, .keep, .fuses, .out]
  | .hotReset =>
    [.time, .regs, .config, .functions, .pace, .layouts, .rings, .hostReads, .contexts, .tlb, .pools, .sram, .dram,
     .memctl, .power, .freeze, .faults, .epochs, .records, .streams, .keys, .tracks, .links, .raster, .griddle, .fresh,
     .out]
  | .dravazCableDetect _ _ =>
    [.regs, .power, .links, .out]
  | .linkTrained _ _ _ | .linkRetrain _ | .remoteWriteAck _ _ =>
    [.regs, .links, .out]
  | .portRetrain _ _ | .msgRingEnable _ _ =>
    [.regs, .config, .pace, .rings, .memctl, .power, .faults, .links, .fresh, .out]
  | .linkDownTimeout _ | .remoteTimeout _ =>
    [.time, .regs, .pace, .rings, .links, .out]
  | .dravazPacketReceived _ _ =>
    [.regs, .rings, .links, .out]
  | .messageReceived _ _ =>
    [.regs, .sems, .mem, .dram, .links, .out]
  | .msgHeadWrite _ _ =>
    [.regs, .config, .sems, .mem, .dram, .links, .fresh, .out]
  | .timeExchange _ =>
    [.time, .regs, .links, .out]
  | .smbusReadByte _ =>
    [.board, .fresh, .out]
  | .smbusReadWord _ | .smbusBlockRead _ =>
    [.fresh, .out]
  | .smbusWriteByte _ _ _ | .clearPeak _ _ =>
    [.board, .out]
  | .smbusTimeout =>
    []
  | .boardHubPoll | .identifyTick | .aux3v3Lost | .aux3v3Good =>
    [.board]
  | .boardSensorPoll _ =>
    [.regs, .board, .out]
  | .daughterboardRemoved =>
    [.regs, .tlb, .pools, .mem, .dram, .power, .raster, .out]
  | .sealBreak =>
    [.regs, .power, .keep, .fuses, .board, .out]
  | .smbusUnsupportedTransaction _ =>
    [.out]

/-! ### Host writes with rows of their own -/

/-- The function and the offset of its BAR0 or BAR4 that a command writes, for the commands that are one host write. -/
def hostWriteOf : Instr → Option (Fn × Nat)
  | .registerWrite (.mmio fn off size _) => if size = 8 ∧ off % 8 = 0 then none else some (fn, off)
  | .registerWrite (.bar4 fn off _ _) => if fn = .pf0 then none else some (fn, off)
  | .pairLoWrite fn off _ => some (fn, off)
  | .pairHiWrite fn off _ => some (fn, off)
  | .layoutCheck _ => some (.pf0, 0x6000)
  | .layoutLoad _ => some (.pf0, 0x6000)
  | .setDefault _ => some (.pf0, 0x6000)
  | .loadDefault _ => some (.pf0, 0x6000)
  | .vfResourceWrite h v kind _ => some (.pf h, (match kind with | .rings => 0x100 | .sems => 0x120 | .ctx => 0x140) + 4 * v.val)
  | .flushHeldDiscard fn _ => some (fn, 0xC)
  | .doorbell fn r _ => some (fn, (0x10000 + 0x1000 * r.val))
  | .semaphoreHostWrite fn _ _ => some (fn, 0x20000)
  | .ringEnable fn r _ => some (fn, (0x10008 + 0x1000 * r.val))
  | .ringDisable fn r _ => some (fn, (0x10008 + 0x1000 * r.val))
  | .completionHeadWrite fn r _ => some (fn, (0x10018 + 0x1000 * r.val))
  | .contextEntryWrite h _ => some ((.pf h), 0x4000C)
  | .translationInvalidate h _ => some ((.pf h), 0x40020)
  | .regionOwnerWrite h _ => some ((.pf h), 0x40038)
  | .poolEnable h p _ => some ((.pf h), (0x50000 + 0x40 * p.val))
  | .poolDisable h p _ => some ((.pf h), (0x50000 + 0x40 * p.val))
  | .poolHostTake h _ => some ((.pf h), 0x50418)
  | .poolHostFree h _ => some ((.pf h), 0x50408)
  | .poolAudit h _ => some ((.pf h), 0x50430)
  | .delayApply ch _ => some (.pf0, (0x8138 + 0x100 * ch.val))
  | .delayLoad ch _ => some (.pf0, (0x8138 + 0x100 * ch.val))
  | .rankRetire _ => some (.pf0, 0x8028)
  | .keyCommit h _ => some ((.pf h), 0x60014)
  | .keyClear h _ => some ((.pf h), 0x60014)
  | .rasterCommitWrite h vc _ => some ((.pf h), (0x70114 + 0x80 * vc.val))
  | .rasterVcEnable h vc _ => some ((.pf h), (0x70100 + 0x80 * vc.val))
  | .accClearAll h _ => some ((.pf h), 0xD0000)
  | .accClearSlot h _ => some ((.pf h), 0xD0000)
  | .accSlotCfgWrite h slot _ => some ((.pf h), (0xD1000 + 0x20 * slot.val))
  | .recordRingEnable fn r _ => some (fn, (0x10108 + 0x1000 * r.val))
  | .recordRingDisable fn r _ => some (fn, (0x10108 + 0x1000 * r.val))
  | .recordHeadWrite fn r _ => some (fn, (0x1010C + 0x1000 * r.val))
  | .unitReinstate h _ => some ((.pf h), 0xE000C)
  | .colanderReinstate _ => some (.pf0, 0xC010)
  | .faultLogHeadWrite _ => some (.pf0, 0xC004)
  | .faultLogClear _ => some (.pf0, 0xC000)
  | .freezeRegister _ => some (.pf0, 0x5000)
  | .thaw _ => some (.pf0, 0x5000)
  | .readoutStart _ => some (.pf0, 0x5100)
  | .readoutUnlockRequest _ => some (.pf0, 0x5110)
  | .outwardSupplyEnableWrite _ => some (.pf0, 0x1134)
  | .keepStore _ => some (.pf0, 0x3000)
  | .restage _ => some (.pf0, 0x3000)
  | .clearRetire _ => some (.pf0, 0x3000)
  | .abandon _ => some (.pf0, 0x3000)
  | .fuseProgram _ => some (.pf0, 0x4018)
  | .portRetrain p _ => some (.pf0, (0xA100 + 0x100 * p.val))
  | .msgRingEnable p _ => some (.pf0, (0xA130 + 0x100 * p.val))
  | .msgHeadWrite p _ => some (.pf0, (0xA138 + 0x100 * p.val))
  | .windowCtlWrite p w _ => some (.pf0, (0xA400 + 0x400 * p.val + 16 * w.val))
  | .loaderBadCommand _ => some (.pf0, 0x6000)
  | .ksBadCommand _ => some (.pf0, 0x3000)
  | _ => none

end Sys2Proof.Machine
end

