-- ==== Sys2Proof/Certificates/Slice0/Obligations.lean ====
section
/-! DEFINITION. The statements for the provers: what every step and every command keeps, what the spec's numbered rules say of
the card, and, command by command, that each completes with the effect the rules give it. -/

open Sys2Proof Sys2Proof.Machine

/-- For every command i and state s, the step of s with i at the front of its queue is exec of i on s with the queue's rest. (R4) -/
def Obligations.StepRunsTheFrontCommand : Prop :=
  ∀ (i : Instr) (s : State), step { s with pending := i :: s.pending } = exec i s

/-- On an empty queue the step answers a next state whose queue is empty and whose card time is no earlier. That an idle step is a
tick of the time base is the model's own choice: assumption log entry 2. (R31) -/
def Obligations.IdleStepTicks : Prop :=
  ∀ s : State, s.pending = [] → ∃ c : Card, step s = .next { card := c, pending := [] } ∧ s.card.clk.now ≤ c.clk.now

/-- For every command and state, exec answers a next state with the same queue: no command ends in a fault or a refusal. (R4) -/
def Obligations.CommandsAnswerNext : Prop :=
  ∀ (i : Instr) (s : State), ∃ c : Card, exec i s = .next { card := c, pending := s.pending }

/-- For each command of an engine but PREPARE (MOVE_COPY, MOVE_FILL, MOVE_UNBACK, SEND, the STAGE rows, DECODE_OPEN, DECODE_FEED,
DECODE_DRAIN, DECODE_CLOSE, MOVE_COMMIT, the WHISK rows, DWCONV, the TRACK rows, EMIT, EMIT_MOTION): wherever the operation
named can run and its work, begun from the card at its start, runs to its end, the next card is the one that the work leaves,
with the operation run to its end. (R111, R149, R249, R319, R355, R382) -/
def Obligations.EngineRowsApplyTheirWork : Prop :=
  ∀ (h : Fin 4) (r : Fin 16) (seq : Nat) (order starts : List Nat),
    Works (.moveCopy h r seq) h r seq 5 1 copyWork ∧ Works (.moveFill h r seq) h r seq 5 2 fillWork ∧
    Works (.moveUnback h r seq) h r seq 5 3 unbackWork ∧ Works (.send h r seq) h r seq 5 0x21 sendWork ∧
    Works (.stageRows h r seq) h r seq 5 0x10 stageRowsWork ∧ Works (.stageWeights h r seq) h r seq 5 0x11 stageWeightsWork ∧
    Works (.stageConv h r seq) h r seq 5 0x12 stageConvWork ∧ Works (.moveCommit h r seq) h r seq 5 0x20 commitWork ∧
    Works (.decodeOpen h r seq) h r seq 1 1 openWork ∧ Works (.decodeFeed h r ⟨seq, starts⟩) h r seq 1 2 (feedWork starts) ∧
    Works (.decodeDrain h r seq order) h r seq 1 3 (drainWork order) ∧ Works (.decodeClose h r seq) h r seq 1 4 closeWork ∧
    Works (.whiskMap h r seq) h r seq 4 1 mapWork ∧ Works (.whiskReduce h r seq) h r seq 4 2 reduceWork ∧
    Works (.whiskNorm h r seq) h r seq 4 3 normWork ∧ Works (.dwconv h r seq) h r seq 4 4 dwWork ∧
    Works (.trackStep h r seq) h r seq 6 1 stepWork ∧ Works (.trackBatch h r seq) h r seq 6 2 batchWork ∧
    Works (.trackUpdate h r seq) h r seq 6 3 updateWork ∧ Works (.trackSwap h r seq) h r seq 6 4 swapWork ∧
    Works (.trackWithdraw h r seq) h r seq 6 5 withdrawWork ∧ Works (.emitMotion h r seq) h r seq 8 1 emitMotionWork ∧
    Works (.emit h r seq) h r seq 8 2 emitWork

/-- At reset memory, SRAM, registers and semaphores are in their canonical forms, the queue is empty, every register reads its
reset value, no fuse is blown, and card time reads 0. The values that the spec does not give are the model's choice:
assumption log entries 3 to 6. (R31) -/
def Obligations.ResetCanonical : Prop :=
  State.reset.Canonical ∧ State.reset.pending = [] ∧ (∀ k, State.reset.card.reg k = regReset k) ∧
  State.reset.card.clk.now = 0 ∧ State.reset.card.blown = []

/-- From every state whose memory, SRAM, registers and semaphores are in canonical form, whatever command stands in front, a step
that answers a next state answers one in canonical form. The canonical form is the model's own representation. (R4, R107,
R175) -/
def Obligations.StepsKeepCanonical : Prop :=
  ∀ s t : State, s.Canonical → step s = .next t → t.Canonical

/-- Every state that a run from reset reaches, the outside handing the card any commands between its steps, is in canonical form.
(R4, R107, R175) -/
def Obligations.ReachableCanonical : Prop :=
  ∀ s : State, Reachable s → s.Canonical

/-- From every state, whatever command stands in front: each bit of each fuse word that is blown before a step is blown after it.
(R493, R501) -/
def Obligations.BlownFusesStayBlown : Prop :=
  ∀ (s t : State), step s = .next t → ∀ w i : Nat, (tabGet 0 s.card.blown w : Word).getLsbD i = true →
    (tabGet 0 t.card.blown w : Word).getLsbD i = true

/-- From every state, a step leaves card time no earlier than it was, unless the command in front is POWER_GOOD,
CONVENTIONAL_RESET or SLOT_POWER_LOST, after which R31 lets it start again from 0. (R31, R465) -/
def Obligations.TimeNeverGoesBack : Prop :=
  ∀ s t : State, step s = .next t →
    (∀ i, s.pending.head? = some i → (match i with | .powerGood | .conventionalReset | .slotPowerLost => False | _ => True)) →
    s.card.clk.now ≤ t.card.clk.now

/-- The frame of all 224 commands. For every command, card and part of the card that the command's footprint does not list, the
part is the same after the command: registers, configuration, functions, layouts, rings, semaphores, contexts, translation
cache, pools, card memory, SRAM, streams, keys, tracks, epochs, records, ports, raster channels, griddle sets, keep store,
fuses, TAP, board controller and the rest. (R4, R7, R31, R105, R134, R155, R175, R359, R376, R443, R487, R546) -/
def Obligations.CommandsTouchOnlyTheirFootprint : Prop :=
  ∀ (i : Instr) (c d : Card), Becomes i c d → ∀ part : Part, part ∉ footprint i → part.agree c d

/-- While the card is frozen, every command that is one host write through a hamper function which claims it only raises the
MG_FRZ_DROPS of the function's hamper, VFs included, and a host read returns all-ones and changes nothing else. (R18, R436) -/
def Obligations.FrozenHamperAccesses : Prop :=
  ∀ (c : Card) (fn : Fn) (h : Nat), c.frozen = true → c.claims fn = true → fn.hamper = some h →
    (∀ (i : Instr) (off : Nat), hostWriteOf i = some (fn, off) → Becomes i c (c.bump (mg (0x5020 + 4 * h)) 1)) ∧
    (∀ off size : Nat, Becomes (.rcFieldRead fn (.mmio off) size) c (c.emit (.readData fn.num off (List.replicate size 0xFF))) ∧
      Becomes (.rcFieldRead fn (.bar4 off) size) c (c.emit (.readData fn.num off (List.replicate size 0xFF))))

/-- While the card is not frozen and a hamper function which claims the write is not READY, every command that is one host write
through it only raises the function's DROPS: the PF's, or the VF's own. (R87, R90) -/
def Obligations.NotReadyWritesDropped : Prop :=
  ∀ (i : Instr) (c : Card) (off : Nat), c.frozen = false →
    (∀ h : Fin 4, hostWriteOf i = some (.pf h, off) → c.claims (.pf h) = true → c.ready (.pf h) = false →
      Becomes i c (c.bump (hp h.val 8) 1)) ∧
    (∀ (h : Fin 4) (v : Fin 8), hostWriteOf i = some (.vf h v, off) → c.claims (.vf h v) = true → c.ready (.vf h v) = false →
      Becomes i c (c.bump ((Space.vf h.val v.val).key 8) 1))

/-- A doorbell through a hamper PF that is not READY raises the PF's DROPS by one, saturating, and leaves every ring and the STATE
of every ring of every hamper as they were; one through a VF raises the VF's DROPS likewise. (R101) -/
def Obligations.DoorbellBeforeReadyDropped : Prop :=
  ∀ (c : Card) (h : Fin 4) (r : Fin 16) (v : Word), c.frozen = false →
    (c.claims (.pf h) = true → c.ready (.pf h) = false → ∃ d, Becomes (.doorbell (.pf h) r v) c d ∧
      (d.reg (hp h.val 8)).toNat = satAdd (2 ^ 32 - 1) (c.reg (hp h.val 8)).toNat 1 ∧
      ∀ (g : Fin 4) (q : Fin 16), d.ring g q = c.ring g q ∧ d.ringState g q = c.ringState g q) ∧
    (∀ u : Fin 8, c.claims (.vf h u) = true → c.ready (.vf h u) = false → ∃ d, Becomes (.doorbell (.vf h u) r v) c d ∧
      (d.reg ((Space.vf h.val u.val).key 8)).toNat = satAdd (2 ^ 32 - 1) (c.reg ((Space.vf h.val u.val).key 8)).toNat 1 ∧
      ∀ (g : Fin 4) (q : Fin 16), d.ring g q = c.ring g q ∧ d.ringState g q = c.ringState g q)

/-- While the PF0 block of an offset is not open, every command that is one host write of it only raises MG_BOOT_DROPS, and a full
read returns the register's reset value and changes nothing else. (R514) -/
def Obligations.ClosedBlocksDropAndReadReset : Prop :=
  ∀ (c : Card) (off : Nat), c.claims .pf0 = true → c.bootOpen off = false →
    (∀ i : Instr, hostWriteOf i = some (.pf0, off) → Becomes i c (c.bump (mg 0x38) 1)) ∧
    (off < 0x10000 → off % 4 = 0 →
      Becomes (.rcFieldRead .pf0 (.mmio off) 4) c (c.emit (.readData 0 off (leBytes 4 (regReset (mg off)).toNat))))

/-- A write to a _LO changes no register and is held; a later write to the _LO replaces the held value; a write to the _HI applies
the held half with its own; with none held it applies the current lower half. (R17) -/
def Obligations.PairWritesHoldTheLowerHalf : Prop :=
  ∀ (c : Card) (fn : Fn) (off k : Nat) (v : Word), c.reaches fn off = true → c.pageBlocked fn off = false →
    (c.target fn off = some k → keyIsLo k = true → ∃ d, Becomes (.pairLoWrite fn off v) c d ∧ (∀ j, d.reg j = c.reg j) ∧
      d.loFor k = v ∧ ∀ w, ∃ e, Becomes (.pairLoWrite fn off w) d e ∧ (∀ j, e.reg j = c.reg j) ∧ e.loFor k = w) ∧
    (c.regAt fn off = some k → keyIsHi k = true → hiIsOwn k = false → ∃ d, Becomes (.pairHiWrite fn off v) c d ∧
      d = ((c.writeReg (k - 4) (c.loFor (k - 4))).writeReg k v).dropHold (k - 4) ∧
      (c.holds.find? (fun e => e.1 == k - 4) = none → c.loFor (k - 4) = c.peek (k - 4)))

/-- A window slips when its pace figure exceeds TARGET_NS, and has headroom when the figure is no more than TARGET_NS less the
floor of TARGET_NS times HEADROOM over 256; with the reset values 2,000 and 32 the threshold is 1,750. (R36) -/
def Obligations.WindowSlipsAndHeadroom : Prop :=
  (∀ (c : Card) (h : Nat), ((c.window h).2.1 = true ↔ (c.paceOf h).target < (c.window h).1) ∧
    ((c.window h).2.2 = true ↔
      (c.window h).1 ≤ (c.paceOf h).target - (c.paceOf h).target * c.f (mg 0x1000) 31 24 / 256)) ∧
  (∀ h : Fin 4, (State.reset.card.paceOf h).target = 2000 ∧ State.reset.card.f (mg 0x1000) 31 24 = 32 ∧
    2000 - 2000 * 32 / 256 = 1750)

/-- A write to MG_PACE_TARGET completes and leaves the target, figure, slip and headroom of the window in progress of every hamper
as they were; at the end of a window the target of every hamper becomes what its register then holds. (R46) -/
def Obligations.PaceTargetTakesEffectNextWindow : Prop :=
  (∀ (c : Card) (h : Fin 4) (v : Word), c.reaches .pf0 (0x1010 + 4 * h.val) = true →
    ∃ d, Becomes (.registerWrite (.mmio .pf0 (0x1010 + 4 * h.val) 4 v.toNat)) c d ∧
      ∀ g : Nat, (d.paceOf g).target = (c.paceOf g).target ∧ d.window g = c.window g) ∧
  (∀ c : Card, c.on = true → 7 ≤ c.stage → ∃ d, Becomes .paceWindowEnd c d ∧
    ∀ h : Fin 4, (d.paceOf h).target = d.f (mg (0x1010 + 4 * h.val)) 15 0)

/-- With the card on and the cable present, the command sets SENSE_CHANGED, keeps AUX_CAP (held with the cable), changes no
register but the event register and PF0's pending bits, and changes nothing else but what the event's message gives to the
outside. (That software lowers LIMIT_W is no act of the card.) (R466) -/
def Obligations.SenseChangeOnlySetsItsFlag : Prop :=
  ∀ c : Card, c.on = true → c.pin.cable.isSome = true → ∃ d, Becomes .senseChanged c d ∧ d.bit (mg 0x1114) 3 = true ∧
    d.pin.cable = c.pin.cable ∧ OtherRegsKept [mg 0x1114, mg 0x7800] c d ∧ ∀ part : Part, part ≠ .regs → part ≠ .out → part.agree c d

/-- SET_MAX sets a semaphore to the larger of its value and VALUE; ADD adds VALUE, saturating at 2^64 - 1; each is applied to the
result of the one before, and no other semaphore changes. A host write is a SET_MAX; with it and a signal the final value is
the same in either order. (R107, R130) -/
def Obligations.SignalsAreAppliedOneByOne : Prop :=
  ∀ (c : Card) (g a b : Nat),
    (c.semApply g 0 a).sem g = max (c.sem g) a ∧ (c.semApply g 1 a).sem g = min (2 ^ 64 - 1) (c.sem g + a) ∧
    (∀ op j : Nat, j ≠ g → (c.semApply g op a).sem j = c.sem j) ∧
    ((c.semApply g 0 a).semApply g 0 b).sem g = max (max (c.sem g) a) b ∧
    ((c.semApply g 0 a).semApply g 0 b).sem g = ((c.semApply g 0 b).semApply g 0 a).sem g ∧
    (∀ (h : Fin 4) (idx : Nat) (v : Word), c.reaches (.pf h) 0x20000 = true → idx < 4096 →
      ∃ d, Becomes (.semaphoreHostWrite (.pf h) idx v) c d ∧
        d.sem (4096 * h.val + idx) =
          max (c.sem (4096 * h.val + idx)) ((c.loFor (hp h.val (0x20000 + 8 * idx))).toNat + 2 ^ 32 * v.toNat))

/-- While STATE of a ring is not DISABLED, a write that has reached BASE, CPL or TIMEOUT_US changes no register, and a write of
CTL, RING_ENABLE and RING_DISABLE among the commands, leaves every field but ENABLE and IRQ_EN as it was. (R119) -/
def Obligations.RingFieldsChangeOnlyWhileDisabled : Prop :=
  ∀ (c : Card) (h : Fin 4) (r : Fin 16) (v : Word), c.ringState h r ≠ 0 →
    (∀ off ∈ [0, 4, 0xC, 0x10, 0x14], ∀ k, (c.writeReg (ringReg h r off) v).reg k = c.reg k) ∧
    (∀ f ∈ [(30, 30), (25, 21), (20, 16), (8, 0)],
      (c.writeReg (ringReg h r 8) v).f (ringReg h r 8) f.1 f.2 = c.f (ringReg h r 8) f.1 f.2) ∧
    (c.reaches (.pf h) (0x10008 + 0x1000 * r.val) = true → c.ringVf h r = none →
      (∃ d, Becomes (.ringEnable (.pf h) r v) c d ∧ ∀ f ∈ [(30, 30), (25, 21), (20, 16), (8, 0)],
        d.f (ringReg h r 8) f.1 f.2 = c.f (ringReg h r 8) f.1 f.2) ∧
      (∃ d, Becomes (.ringDisable (.pf h) r v) c d ∧ ∀ f ∈ [(30, 30), (25, 21), (20, 16), (8, 0)],
        d.f (ringReg h r 8) f.1 f.2 = c.f (ringReg h r 8) f.1 f.2))

/-- For every region that spans at least one channel, the mapping from data offsets to channels and channel addresses takes
different offsets to different places. (R175, R176) -/
def Obligations.RegionAddressesAreDistinct : Prop :=
  ∀ (e : RegionEnt) (d x : Nat), maskList e.channels 8 ≠ [] → e.chanAddr d = e.chanAddr x → d = x

/-- Every data offset inside a region's data size maps to a channel of the region and to an address in the region's extent on that
channel; in an ECC region the address is never in the check line of its 512-byte block. (R54, R175, R176) -/
def Obligations.RegionAddressesStayInExtent : Prop :=
  ∀ (e : RegionEnt) (d : Nat), maskList e.channels 8 ≠ [] → d < e.dataSize →
    (e.chanAddr d).1 ∈ maskList e.channels 8 ∧ e.offset * 0x200000 ≤ (e.chanAddr d).2 ∧
    (e.chanAddr d).2 < (e.offset + e.size) * 0x200000 ∧ (e.ecc = true → (e.chanAddr d).2 % 512 < 448)

/-- Whenever the checker accepts an image for a hamper, two regions of the layout at different places in its list never map data
offsets to one channel address, and none of its regions shares one with a region of an active or pending layout of another
hamper that spans at least one channel. (R50, R60, R175) -/
def Obligations.AcceptedLayoutsKeepRegionsApart : Prop :=
  ∀ (c : Card) (h : Nat) (img : List Byte) (dflt : Bool) (l : Layout), (c.checkImage h img dflt).toOption = some l →
    (∀ (i j : Nat) (a b : RegionEnt) (d x : Nat), l.regions[i]? = some a → l.regions[j]? = some b → i < j →
      d < a.dataSize → x < b.dataSize → a.chanAddr d ≠ b.chanAddr x) ∧
    (∀ o ∈ c.otherLayouts h, ∀ b ∈ o.regions, ∀ a ∈ l.regions, ∀ d x : Nat, maskList b.channels 8 ≠ [] →
      d < a.dataSize → x < b.dataSize → a.chanAddr d ≠ b.chanAddr x)

/-- Whenever the checker accepts an image, the SRAM partition is 192 units with at least 32 of staging and 16 of pool space, every
region is nonempty, ends within 16,384 units and lies on channels of the layout, region numbers are distinct, and no two
regions meet. (R50, R57, R60) -/
def Obligations.AcceptedLayoutsFit : Prop :=
  ∀ (c : Card) (h : Nat) (img : List Byte) (dflt : Bool) (l : Layout), (c.checkImage h img dflt).toOption = some l →
    l.pool + l.staging + l.track = 192 ∧ 32 ≤ l.staging ∧ 16 ≤ l.pool ∧
    (∀ e ∈ l.regions, 0 < e.size ∧ e.offset + e.size ≤ 16384 ∧ e.channels &&& (0xFF - l.channels) = 0) ∧
    l.regions.Pairwise (fun a b => a.num ≠ b.num ∧ b.meets a = false)

/-- For every byte of card memory that is neither the place of a written data offset nor, in an ECC region, the POISON byte of its
block, reading it after the write gives what reading it before gave. (R175, R176, R177) -/
def Obligations.RegionWriteTouchesOnlyItsBytes : Prop :=
  ∀ (c : Card) (e : RegionEnt) (d : Nat) (bs : List Byte) (a : Nat),
    (∀ (i : Nat) (k : Nat × Nat), i < bs.length → c.phys (e.chanAddr (d + i)).1 (e.chanAddr (d + i)).2 = some k →
      a ≠ k.2 ∧ (e.ecc = true → a ≠ (poisonKey k.2).1)) →
    (c.wrRegion e d bs).memAt a = c.memAt a

/-- A byte written at a data offset that lies on a rank in service, in a plain region or in an ECC line that is not poisoned, is
what a read of that offset then gives. (R175, R176) -/
def Obligations.RegionByteReadsBack : Prop :=
  ∀ (c : Card) (e : RegionEnt) (d : Nat) (b : Byte) (k : Nat × Nat), maskList e.channels 8 ≠ [] →
    c.phys (e.chanAddr d).1 (e.chanAddr d).2 = some k → (e.ecc && c.poisoned k.2) = false →
    ((c.wrRegion e d [b]).rdRegion e d 1).toOption = some [b]

/-- Among the buffers of a pool looked at, the one found is free and every lower one is not; none is found only when none is free.
(R157, R158) -/
def Obligations.PoolTakesLowestFreeBuffer : Prop :=
  ∀ (c : Card) (h p n i : Nat),
    (∀ j, c.firstFree h p n i = some j → i ≤ j ∧ j < i + n ∧ (c.buf h p j).isNone = true ∧
      ∀ k, i ≤ k → k < j → (c.buf h p k).isSome = true) ∧
    (c.firstFree h p n i = none → ∀ k, i ≤ k → k < i + n → (c.buf h p k).isSome = true)

/-- For every generation and every list of sections in rising (TYPE, INDEX) with the class and length that the table allows, and
whose image fits a bank: the image built is valid, and its sections read back are exactly those. (R488, R499) -/
def Obligations.KeepStoreImageReadsBack : Prop :=
  ∀ (gen : Nat) (l : List KsSection), l.Pairwise (fun a b => a.type < b.type ∨ (a.type = b.type ∧ a.index < b.index)) →
    (∀ s ∈ l, ∃ ok, ksTypeOk s.type s.index = some (s.cls, ok) ∧ ok s.payload.length = true) →
    64 + (l.flatMap KsSection.bytes).length ≤ 65536 →
    ksParse (ksBuild gen l) = .ok l ∧ bankValid (ksBuild gen l) = true

/-- For every field of positions and every pattern: the candidates found stand in the order of R215 (lower SAD, nearer to the
predictor, smaller dy, smaller dx), no position twice; each is evaluable and carries its SAD; and with FULL every evaluable
position of the range is among them, and one that is not evaluable sets EDGE_LIMITED. (R214, R215, R216) -/
def Obligations.SearchRanksItsPositions : Prop :=
  ∀ (k : Field) (pattern steps : Nat) (rx ry : Int),
    let s := (searchBlock k pattern steps rx ry).1
    let far := fun (x : Cand) => (x.dx - k.pdx).natAbs + (x.dy - k.pdy).natAbs
    s.ranked.Pairwise (fun a b => a.sad < b.sad ∨ (a.sad = b.sad ∧ (far a < far b ∨ (far a = far b ∧ (a.dy < b.dy ∨ (a.dy = b.dy ∧ a.dx < b.dx)))))) ∧
    (∀ x ∈ s.ranked, k.inside x.dx x.dy = true ∧ x.sad = k.sad x.dx x.dy) ∧
    (pattern = 0 → ∀ dx dy : Int, ((dx - k.pdx).natAbs : Int) ≤ rx → ((dy - k.pdy).natAbs : Int) ≤ ry →
      (k.inside dx dy = true → ∃ x ∈ s.ranked, x.dx = dx ∧ x.dy = dy) ∧ (k.inside dx dy = false → s.skipped = true))

/-- For a started PREPARE whose next sample takes a TENSOR source and is written to staging without identifiers: once the source
elements are read, the sample step writes them in the layout asked for at the sample's position, raises HP_SH_SAMPLES by one
and moves the operation on by one sample, which ends it after the last. (R284, R286, R297) -/
def Obligations.TensorSampleIsWritten : Prop :=
  ∀ (c d : Card) (h : Fin 4) (r : Fin 16) (o : Op) (p : Prep) (s : Src) (q : Smp) (px : List (List Byte)),
    o.plain → o.cls = 2 → p = o.prep → p.smp[o.passes]? = some q → p.src[q.src]? = some s → s.fmt = 8 → p.staged = true → p.idVa = 0 →
    ReadsTo h.val o ((List.range p.oh).flatMap (fun y => (List.range p.ow).map (fun x => (s.base + y * s.pitch + x * p.c * p.e, p.c * p.e)))) c.drawXlate px d →
    ∃ (e : Card) (turns : List (Nat × Nat)) (u : Nat),
      e = ((d.stWrite h.val (p.dst + o.passes * p.bytes) 0 (p.laidOut (px.map (fun bs => (List.range p.c).map (fun k => leAt bs (k * p.e) p.e))))).bump
        (hp h.val 0x80008) 1).bumpF (hp h.val 0x8000C) 31 0 0 ∧
      c.sampleNext h.val r.val o = Card.setOp { e with rot := turns } h.val r.val (if leAt o.body 0x20 4 ≤ o.passes + 1
        then Op.ran { o with passes := o.passes + 1, unit := u } stDone o.detail o.ext else { o with passes := o.passes + 1, unit := u })

/-- Each clause takes a host access of a register that its function claims, under hypotheses on the card and the operands alone,
and concludes that the command answers a next state with the same queue and the card that the clause gives. Commands:
REGISTER_WRITE, RC_FIELD_READ, PAIR_LO_READ, PAIR_LO_WRITE, PAIR_HI_WRITE, FROZEN_BAR_ACCESS. Where the spec leaves a point
open, the clauses follow the model's own choices: assumption log entries 5 and 123. (R4, R7, R15, R17, R436) -/
def Obligations.RegisterRowsComplete : Prop :=
  (∀ (c : Card) (fn : Fn) (off k : Nat) (v : Word), c.reaches fn off = true → off % 4 = 0 → c.pageBlocked fn off = false →
      c.regAt fn off = some k → keyIsLo k = false → keyIsHi k = false → Becomes (.registerWrite (.mmio fn off 4 v.toNat)) c
      (c.writeReg k v)) ∧
  (∀ (c : Card) (h : Fin 4) (v : Nat), c.fnThere (.pf h) = true → Becomes (.registerWrite (.config (.pf h) .memorySpaceEnable
      v)) c (c.setCfg (h.val + 1) { c.cfgOf (h.val + 1) with mse := v % 2 == 1 })) ∧
  (∀ (c : Card) (fn : Fn) (off k : Nat), c.readable fn off = true → off % 4 = 0 → c.target fn off = some k → keyIsLo k = false →
      Becomes (.rcFieldRead fn (.mmio off) 4) c ((c.emit (.readData fn.num off (leBytes 4 (c.hostValue k).toNat))).clearRc k)) ∧
  (∀ (c : Card) (fn : Fn) (off k : Nat), c.readable fn off = true → off % 4 = 0 → c.target fn off = some k → keyIsLo k = true →
      Becomes (.pairLoRead fn off) c
      (({ c.emit (.readData fn.num off (leBytes 4 (c.hostValue k).toNat)) with caps := tabIns c.caps k (c.peek (k + 4)) } :
      Card).clearRc k)) ∧
  (∀ (c : Card) (fn : Fn) (off k : Nat) (v : Word), c.reaches fn off = true → c.pageBlocked fn off = false → c.target fn off =
      some k → keyIsLo k = true → Becomes (.pairLoWrite fn off v) c ({ c with holds := tabIns c.holds k v })) ∧
  (∀ (c : Card) (fn : Fn) (off k : Nat) (v : Word), c.reaches fn off = true → c.pageBlocked fn off = false → c.regAt fn off =
      some k → keyIsHi k = true → hiIsOwn k = false → Becomes (.pairHiWrite fn off v) c (((c.writeReg (k - 4) (c.loFor (k -
      4))).writeReg k v).dropHold (k - 4))) ∧
  (∀ (c : Card) (h : Fin 4) (acc : BarAccess), c.frozen = true → acc.fn.hamper = some h.val → c.claims acc.fn = true → acc.write
      = true → Becomes (.frozenBarAccess h acc) c (c.bump (mg (0x5020 + 4 * h.val)) 1)) ∧
  (∀ (c : Card) (h : Fin 4) (acc : BarAccess), c.frozen = true → acc.fn.hamper = some h.val → c.claims acc.fn = true → acc.write
      = false → Becomes (.frozenBarAccess h acc) c (c.emit (.readData acc.fn.num 0 (List.replicate acc.len 0xFF))))

/-- Each clause takes an error or a request that no function claims, on a card that is on, under hypotheses on the card and the
operands alone, and concludes that the command answers a next state with the same queue and the card that the clause gives.
Commands: UNCLAIMED_MEMORY_REQUEST, POISONED_WRITE_RECEIVED, PCIE_LINK_ERROR, TLP_ERROR_RECEIVED. Where the spec leaves a
point open, the clauses follow the model's own choices: assumption log entries 9, 59 and 109. (R79, R580) -/
def Obligations.BusErrorRowsComplete : Prop :=
  (∀ (c : Card) (fn : Fn) (hdr : Nat), c.on = true → c.claims fn = false → Becomes (.unclaimedMemoryRequest fn true hdr) c
      (c.aerLog fn.pfNum .unsupported (some hdr))) ∧
  (∀ (c : Card) (fn : Fn) (hdr : Nat), c.on = true → c.claims fn = false → Becomes (.unclaimedMemoryRequest fn false hdr) c
      ((c.aerLog fn.pfNum .unsupported (some hdr)).emit (.unsupported fn.num))) ∧
  (∀ (c : Card) (fn : Fn) (hdr : Nat), c.on = true → Becomes (.poisonedWriteReceived fn hdr) c (c.aerLog fn.pfNum .poisoned
      (some hdr))) ∧
  (∀ (c : Card) (p : LinkError × AerErr), p ∈ [(LinkError.receiver, AerErr.receiver), (.badTlp, .badTlp), (.badDllp, .badDllp),
      (.replayTimeout, .replayTimeout), (.replayRollover, .replayRollover), (.dataLinkProtocol, .dataLink), (.receiverOverflow,
      .receiverOverflow)] → c.on = true → Becomes (.pcieLinkError p.1) c (c.aerLog 0 p.2 none)) ∧
  (∀ (c : Card) (fn : Fn) (p : TlpError × AerErr) (hdr : Nat), p ∈ [(TlpError.malformed, AerErr.malformed), (.ecrc, .ecrc),
      (.unexpectedCompletion, .unexpectedCompletion)] → c.on = true → Becomes (.tlpErrorReceived fn p.1 hdr) c (c.aerLog
      fn.pfNum p.2 (some hdr)))

/-- Each clause takes an event of a function that the card is in a state to take, under hypotheses on the card and the operands
alone, and concludes that the command answers a next state with the same queue and the card that the clause gives. Commands:
BUS_MASTER_ENABLE_WRITE, MSIX_MESSAGE_RELEASE, VF_ENABLE_WRITE, VF_RESOURCE_WRITE, PF_FLR, VF_FLR, FLR_DRAIN_DONE,
PF_D3HOT_ENTRY, PF_D3HOT_EXIT. Where the spec leaves a point open, the clauses follow the model's own choices: assumption log
entries 9, 11, 67, 68, 69, 95, 106, 131, 132 and 135. (R75, R86, R88, R90, R92, R98) -/
def Obligations.FunctionRowsComplete : Prop :=
  (∀ (c : Card) (fn : Fn), c.on = true → Becomes (.busMasterEnableWrite fn false) c (c.setCfg fn.num
      { c.cfgOf fn.num with bme := false })) ∧
  (∀ (c : Card) (fn : Fn), c.on = true → ((c.setCfg fn.num { c.cfgOf fn.num with bme := true }).msixRelease fn.num).live = false
      → Becomes (.busMasterEnableWrite fn true) c (((c.setCfg fn.num { c.cfgOf fn.num with bme := true }).msixRelease
      fn.num).pumpFn fn.num)) ∧
  (∀ (c : Card) (fn : Fn), c.on = true → ((c.setCfg fn.num { c.cfgOf fn.num with bme := true }).msixRelease fn.num).live = true
      → Becomes (.busMasterEnableWrite fn true) c ((((c.setCfg fn.num { c.cfgOf fn.num with bme := true }).msixRelease
      fn.num).settleSigs).pumpFn fn.num)) ∧
  (∀ (c : Card) (fn : Fn), c.on = true → Becomes (.msixMessageRelease fn) c ((List.range (msixBase fn.num).2.2).foldl (fun d v
      => if d.bit (msixBase fn.num).2.1 v && d.msixOpen fn.num v then (d.setBit (msixBase fn.num).2.1 v false).msixSend fn.num v
      else d) c)) ∧
  (∀ (c : Card) (h : Fin 4) (n : Nat), c.on = true → (c.fnOf (h.val + 1)).exposed = true → (c.cfgOf (h.val + 1)).vfEn = false →
      n ≤ 8 → Becomes (.vfEnableWrite h false (some n)) c (c.setCfg (h.val + 1) { c.cfgOf (h.val + 1) with numVfs := n })) ∧
  (∀ (c : Card) (h : Fin 4) (n : Nat), c.on = true → (c.fnOf (h.val + 1)).exposed = true → (c.cfgOf (h.val + 1)).vfEn = false →
      (c.cfgOf 1).ari = true → n ≤ 8 → Becomes (.vfEnableWrite h true (some n)) c (((c.setCfg (h.val + 1)
      { c.cfgOf (h.val + 1) with numVfs := n }).setCfg (h.val + 1)
      { c.cfgOf (h.val + 1) with numVfs := n, vfEn := true }).startVfs h.val)) ∧
  (∀ (c : Card) (h : Fin 4) (v : Fin 8) (x : Word), c.reaches (.pf h) (0x100 + 4 * v.val) = true → c.vfExists h.val v.val =
      false → c.vfResourceOk h.val v.val .rings x = true → Becomes (.vfResourceWrite h v .rings x) c (c.setN (hp h.val (0x100 +
      4 * v.val)) (x.toNat &&& 0xFFFF))) ∧
  (∀ (c : Card) (h : Fin 4) (v : Fin 8) (x : Word), c.reaches (.pf h) (0x120 + 4 * v.val) = true → c.vfExists h.val v.val =
      false → c.vfResourceOk h.val v.val .sems x = true → Becomes (.vfResourceWrite h v .sems x) c (c.setN (hp h.val (0x120 + 4
      * v.val)) (x.toNat &&& 0x7F3F))) ∧
  (∀ (c : Card) (h : Fin 4) (v : Fin 8) (x : Word), c.reaches (.pf h) (0x140 + 4 * v.val) = true → c.vfExists h.val v.val =
      false → c.vfResourceOk h.val v.val .ctx x = true → Becomes (.vfResourceWrite h v .ctx x) c (c.setN (hp h.val (0x140 + 4 *
      v.val)) (x.toNat &&& 0x0FFF0FFF))) ∧
  (∀ (c : Card) (h : Fin 4), c.live = true → (c.fnOf (h.val + 1)).phase = .ready → Completes (.pfFlr h) c fun d => (d.fnOf
      (h.val + 1)).phase = .draining ∧ (d.fnOf (h.val + 1)).cause = 1 ∧ d.f (hp h.val 0) 31 30 = 1) ∧
  (∀ (c : Card) (h : Fin 4) (v : Fin 8), c.live = true → c.vfExists h.val v.val = true → (c.fnOf (h.val + 1)).phase = .ready →
      (c.fnOf (vfNum h.val v.val)).phase = .ready → Completes (.vfFlr h v) c fun d => (d.fnOf (vfNum h.val v.val)).phase =
      .draining ∧ d.f ((Space.vf h.val v.val).key 0) 31 30 = 1) ∧
  (∀ (c : Card) (h : Fin 4), c.live = true → (c.fnOf (h.val + 1)).phase = .draining → (c.fnOf (h.val + 1)).d3 = false →
      Completes (.flrDrainDone h none) c fun d => (d.fnOf (h.val + 1)).phase = .starting ∧ d.f (hp h.val 0) 8 0 = (c.fnOf (h.val
      + 1)).flushed % 512) ∧
  (∀ (c : Card) (h : Fin 4), c.live = true → (c.fnOf (h.val + 1)).phase = .ready → (c.cfgOf (h.val + 1)).d3 = false → Completes
      (.pfD3hotEntry h) c fun d => (d.fnOf (h.val + 1)).phase = .draining ∧ (d.fnOf (h.val + 1)).cause = 3 ∧ (d.fnOf (h.val +
      1)).d3 = true ∧ d.f (hp h.val 0) 31 30 = 1) ∧
  (∀ (c : Card) (h : Fin 4), (c.cfgOf (h.val + 1)).d3 = true → (c.fnOf (h.val + 1)).phase = .held → Completes (.pfD3hotExit h) c
      fun d => (d.fnOf (h.val + 1)).phase = .starting ∧ (d.cfgOf (h.val + 1)).d3 = false)

/-- Each clause takes an event of card time, of the pace monitor or of the voltage loop, under hypotheses on the card and the
operands alone, and concludes that the command answers a next state with the same queue and the card that the clause gives.
Commands: PTM_INTERVAL_EXPIRY, PTM_EXCHANGE_DONE, PTM_DISABLE, TIME_EXCHANGE, PACE_WINDOW_END, AVS_WRITE_ACK,
AVS_WRITE_TIMEOUT, AVS_POLL. Where the spec leaves a point open, the clauses follow the model's own choices: assumption log
entries 41, 42, 55, 56 and 124 to 127. (R33, R37, R38, R43, R48, R461, R536) -/
def Obligations.TimeRowsComplete : Prop :=
  (∀ (c : Card), c.on = true → (c.cfgOf 0).ptmEn = true → c.timeUp = 0 → c.clk.open_ = false → Becomes .ptmIntervalExpiry c
      ({ c.emit .ptmRequest with clk := { c.clk with open_ := true } })) ∧
  (∀ (c : Card) (offset : Int), c.on = true → (c.cfgOf 0).ptmEn = true → c.clk.open_ = true → Becomes (.ptmExchangeDone offset)
      c (c.discipline offset (c.f (mg 0x1048) 7 0))) ∧
  (∀ (c : Card), c.on = true → Becomes .ptmDisable c
      ({ (c.setCfg 0 { c.cfgOf 0 with ptmEn := false }).setSync 0 with clk := { c.clk with missed := 0, open_ := false } })) ∧
  (∀ (c : Card), c.on = true → c.timeUp ≠ 0 → c.portUp (c.timeUp - 1) = false → Becomes (.timeExchange none) c
      (c.missedInterval)) ∧
  (∀ (c : Card), c.on = true → c.timeUp ≠ 0 → c.portUp (c.timeUp - 1) = true → Becomes (.timeExchange none) c ((c.sendPacket
      (c.timeUp - 1) 10 [c.ns] []).missedInterval)) ∧
  (∀ (c : Card) (t : TimeStamp) (p : Nat), c.on = true → c.timeUp = p + 1 → c.portUp p = true → t.hops < 7 → Becomes
      (.timeExchange (some t)) c (((c.sendPacket p 10 [c.ns] []).setPort p
      { (c.sendPacket p 10 [c.ns] []).port p with hops := t.hops }).discipline t.offset 1)) ∧
  (∀ (c : Card), c.on = true → 7 ≤ c.stage → Completes .paceWindowEnd c fun d => d.winAt = max ((c.winAt / 256000 + 1) * 256000)
      (d.ns / 256000 * 256000) ∧ d.winFrozen = (d.frozen || d.stopping) ∧ d.avs.held = (d.avsRequest == d.effCeil)) ∧
  (∀ (c : Card) (mv : Nat), c.avs.pending = some mv → Becomes .avsWriteAck c
      ((({ c with avs := { c.avs with pending := none, nak := false, up := true } } : Card).setF (mg 0x1008) 15 0
      mv).judgeHeld)) ∧
  (∀ (c : Card) (mv : Nat), c.avs.pending = some mv → c.avs.up = true → Becomes .avsWriteTimeout c
      (({ c with avs := { c.avs with pending := none, nak := true, held := false } } : Card).event 0x100C 1 1)) ∧
  (∀ (c : Card) (p : AvsPoll), c.on = true → c.coreOff = false → p.fault = false → p.temp < 125 → Becomes (.avsPoll p) c
      ((c.setN (mg 0x1130) (min 65535 p.coreDa * 2 ^ 16 + min 255 p.temp * 2 ^ 8)).setSensor 18 (some (8 * (p.temp : Int))))) ∧
  (∀ (c : Card) (p : AvsPoll), c.on = true → c.coreOff = false → p.fault = true → p.temp < 125 → Becomes (.avsPoll p) c
      (((c.setN (mg 0x1130) (min 65535 p.coreDa * 2 ^ 16 + min 255 p.temp * 2 ^ 8)).setSensor 18 (some (8 * (p.temp :
      Int)))).event 0x100C 2 1))

/-- Each clause takes a command of the loader, and the application of a layout, under hypotheses on the card and the operands
alone, and concludes that the command answers a next state with the same queue and the card that the clause gives. Commands:
LAYOUT_CHECK, LAYOUT_LOAD, SET_DEFAULT, LOAD_DEFAULT, LOADER_BAD_COMMAND, LAYOUT_COMMAND_DONE, LAYOUT_APPLICATION,
ZERO_FILL_DONE. Where the spec leaves a point open, the clauses follow the model's own choices: assumption log entries 13, 65,
66, 84 and 128. (R60, R61, R62, R63) -/
def Obligations.LayoutRowsComplete : Prop :=
  (∀ (c : Card) (h : Fin 4), c.reaches .pf0 0x6000 = true → c.loader = none → c.frozen = false → Becomes (.layoutCheck h) c
      ((((c.setF (mg 0x6000) 7 4 1).setF (mg 0x6000) 1 0 h.val)).loaderStart 1 h.val)) ∧
  (∀ (c : Card) (h : Fin 4), c.reaches .pf0 0x6000 = true → c.loader = none → c.frozen = false → c.bit (mg (0x0010 + 4 * h.val))
      31 = true → Becomes (.layoutLoad h) c ((((c.setF (mg 0x6000) 7 4 2).setF (mg 0x6000) 1 0 h.val)).loaderStart 2 h.val)) ∧
  (∀ (c : Card) (h : Fin 4), c.reaches .pf0 0x6000 = true → c.loader = none → c.frozen = false → c.bit (mg 0x3004) 31 = false →
      Becomes (.setDefault h) c ((((c.setF (mg 0x6000) 7 4 3).setF (mg 0x6000) 1 0 h.val)).loaderStart 3 h.val)) ∧
  (∀ (c : Card) (h : Fin 4) (img : List Byte), c.reaches .pf0 0x6000 = true → c.loader = none → c.frozen = false → c.bit (mg
      (0x0010 + 4 * h.val)) 31 = true → ksFind c.keepImage 2 h.val = some img → Becomes (.loadDefault h) c ((((c.setF (mg
      0x6000) 7 4 4).setF (mg 0x6000) 1 0 h.val).fillWindow img).loaderStart 4 h.val)) ∧
  (∀ (c : Card) (v : Word), c.reaches .pf0 0x6000 = true → fld v 31 31 = 1 → (¬ (1 ≤ fld v 7 4 ∧ fld v 7 4 ≤ 4)) → c.loader =
      none → c.frozen = false → Becomes (.loaderBadCommand v) c (((c.setF (mg 0x6000) 7 4 (fld v 7 4)).setF (mg 0x6000) 1 0 (fld
      v 1 0)).loaderResult 0x42 0)) ∧
  (∀ (c : Card) (j : Loader) (l : Layout), c.loader = some j → c.live = true → (c.loaderIdle.noteImage j.hamper
      c.layoutWindow).checkImage j.hamper c.layoutWindow (j.cmd == 4) = .ok l → j.cmd = 1 → Becomes .layoutCommandDone c
      (((c.loaderIdle.noteImage j.hamper c.layoutWindow).lastResult j.hamper 0).loaderResult 0 0)) ∧
  (∀ (c : Card) (j : Loader) (f : Nat × Nat), c.loader = some j → c.live = true → (c.loaderIdle.noteImage j.hamper
      c.layoutWindow).checkImage j.hamper c.layoutWindow (j.cmd == 4) = .error f → Becomes .layoutCommandDone c
      (((c.loaderIdle.noteImage j.hamper c.layoutWindow).lastResult j.hamper f.1).loaderResult f.1 f.2)) ∧
  (∀ (c : Card) (h : Fin 4) (l : Layout), c.live = true → (c.fnOf (h.val + 1)).phase = .starting → c.loader = none → tabGet none
      c.pendLay h.val = none → c.lay h.val = some l → Becomes (.layoutApplication h) c (c.applyLayout h.val l)) ∧
  (∀ (c : Card) (h : Fin 4), c.live = true → (c.fnOf (h.val + 1)).phase = .filling → c.heldAcc.any (fun x => x.fill && x.hamper
      == h.val) = false → Completes (.zeroFillDone h) c fun d => (d.fnOf (h.val + 1)).phase = .ready ∧ (d.fnOf (h.val +
      1)).exposed = true)

/-- Each clause takes a completion, or a timeout, of a read of host memory that is outstanding, under hypotheses on the card and
the operands alone, and concludes that the command answers a next state with the same queue and the card that the clause
gives. Commands: FETCH_COMPLETION_TIMEOUT, HOST_READ_COMPLETION, COMMAND_FETCH_DONE. Where the spec leaves a point open, the
clauses follow the model's own choices: assumption log entries 9, 14 and 104. (R80, R102) -/
def Obligations.HostReadRowsComplete : Prop :=
  (∀ (c : Card) (x : HostRead), c.reads.find? (fun y => y.rid == x.rid) = some x → c.live = true → (c.cfgOf (pfOf
      x.fnNum)).ctoDis = false → x.discard = false → x.dead = false → Becomes (.fetchCompletionTimeout x.rid) c
      (((({ c with reads := c.reads.map (fun y => if y.rid == x.rid then { y with dead := true } else y) } : Card).aerLog (pfOf
      x.fnNum) .completionTimeout (some c.freeN)).draw).fetchFailed x)) ∧
  (∀ (c : Card) (rid : Nat) (poisoned : Bool) (data : List Byte), c.on = true → c.live = true → c.reads.any (fun x => x.rid ==
      rid) = true → Becomes (.hostReadCompletion rid poisoned data) c (c.completion rid poisoned data)) ∧
  (∀ (c : Card) (rid : Nat) (poisoned : Bool) (data : List Byte), c.on = true → c.live = false → c.reads.any (fun x => x.rid ==
      rid) = true → Becomes (.hostReadCompletion rid poisoned data) c ({ c with cpls := c.cpls ++ [⟨rid, poisoned, data⟩] })) ∧
  (∀ (c : Card) (rid : Nat) (poisoned : Bool) (data : List Byte), c.on = true → c.reads.any (fun x => x.rid == rid) = false →
      Becomes (.hostReadCompletion rid poisoned data) c ((c.aerLog 0 .unexpectedCompletion (some c.freeN)).draw)) ∧
  (∀ (c : Card) (h : Fin 4) (r : Fin 16) (b : List Byte), c.live = true → (c.ring h.val r.val).fetch = .slotData b → leAt b 0 1
      ≠ 3 → (¬ (leAt b 0 1 = 2 ∧ c.ringBme h.val r.val = false)) → Becomes (.commandFetchDone h r) c (((c.setRing h.val r.val
      { c.ring h.val r.val with fetch := .idle }).decodeSlot h.val r.val b).pump h.val r.val)) ∧
  (∀ (c : Card) (h : Fin 4) (r : Fin 16) (b : List Byte), c.live = true → (c.ring h.val r.val).fetch = .slotData b → leAt b 0 1
      = 3 → leAt b 0x10 4 ≤ 65536 → c.heldVa h.val (leAt b 4 2 % 4096) false (leAt b 8 8) (16 * leAt b 0x10 4) = false →
      ((c.cardNeeds h.val (leAt b 4 2 % 4096) (leAt b 8 8) (leAt b 0x10 4)).isEmpty = true ∨ c.ringBme h.val r.val = true) →
      Becomes (.commandFetchDone h r) c (((c.setRing h.val r.val { c.ring h.val r.val with fetch := .idle }).decodeSlot h.val
      r.val b).pump h.val r.val)) ∧
  (∀ (c : Card) (h : Fin 4) (r : Fin 16) (ctx units addr : Nat) (card : Bool) (got : List HostBytes), c.live = true → (c.ring
      h.val r.val).fetch = .listData ctx units addr card got → (card && c.heldVa h.val ctx false addr (16 * units)) = false →
      Becomes (.commandFetchDone h r) c (((c.setRing h.val r.val { c.ring h.val r.val with fetch := .idle }).decodeArrived h.val
      r.val ctx units addr card got).pump h.val r.val))

/-- Each clause takes a command of a ring, of its front end or of a semaphore, under hypotheses on the card and the operands
alone, and concludes that the command answers a next state with the same queue and the card that the clause gives. Commands:
DOORBELL, RING_ENABLE, RING_DISABLE, RING_DRAIN_DONE, COMPLETION_HEAD_WRITE, FLUSH_HELD_DISCARD, SEMAPHORE_HOST_WRITE,
WAIT_SATISFIED, WAIT_TIMEOUT, FRONT_NOP, FRONT_BARRIER, FRONT_STAMP, OPERATION_RETIRE. Where the spec leaves a point open, the
clauses follow the model's own choices: assumption log entries 15, 111, 112 and 130. (R87, R105, R106, R110, R119, R120, R122,
R125, R133) -/
def Obligations.RingRowsComplete : Prop :=
  (∀ (c : Card) (fn : Fn) (r : Fin 16) (v : Word) (h : Nat), c.reaches fn (0x10000 + 0x1000 * r.val) = true → c.ownsRing fn
      r.val = some h → c.ringOn h r.val = true → (c.ring h r.val).draining = false → diff32 v.toNat (c.ring h r.val).cons ≤ 2 ^
      c.f (ringReg h r.val 8) 20 16 → c.heldAcc.any (fun x => x.before fn.num) = false → Becomes (.doorbell fn r v) c
      ((c.setRing h r.val { c.ring h r.val with prod := v.toNat }).pump h r.val)) ∧
  (∀ (c : Card) (fn : Fn) (r : Fin 16) (v : Word) (h : Nat), c.reaches fn (0x10000 + 0x1000 * r.val) = true → c.ownsRing fn
      r.val = some h → c.heldAcc.any (fun x => x.before fn.num) = true → Becomes (.doorbell fn r v) c
      ({ c with heldAcc := c.heldAcc ++ [{ fnNum := fn.num, hamper := h, region := 0, off := 0, len := 0, wdata := some [], bell := some (r.val, v.toNat) }] })) ∧
  (∀ (c : Card) (fn : Fn) (r : Fin 16) (v : Word) (h : Nat), c.reaches fn (0x10008 + 0x1000 * r.val) = true → c.ownsRing fn
      r.val = some h → c.ringOn h r.val = false → (c.writeReg (ringReg h r.val 8) v).ringClass h r.val ≠ 0 → ((c.writeReg
      (ringReg h r.val 8) v).ring h r.val).draining = false → Becomes (.ringEnable fn r v) c ((c.writeReg (ringReg h r.val 8)
      v).ringStart h r.val)) ∧
  (∀ (c : Card) (fn : Fn) (r : Fin 16) (v : Word) (h : Nat), c.reaches fn (0x10008 + 0x1000 * r.val) = true → c.ownsRing fn
      r.val = some h → c.ringOn h r.val = true → Completes (.ringDisable fn r v) c fun d => d.ringOn h r.val = false ∧ (d.ring h
      r.val).q.all (fun o => o.phase != .waiting) = true ∧ (d.ring h r.val).draining = !(d.ring h r.val).q.isEmpty ∧ (d.ring h
      r.val).fetch = .idle) ∧
  (∀ (c : Card) (h : Fin 4) (r : Fin 16), c.live = true → (c.ring h.val r.val).draining = true → (c.ring h.val r.val).q = [] →
      c.ringOn h.val r.val = false → Becomes (.ringDrainDone h r) c (c.setRing h.val r.val
      { c.ring h.val r.val with draining := false })) ∧
  (∀ (c : Card) (h : Fin 4) (r : Fin 16), c.live = true → (c.ring h.val r.val).draining = true → (c.ring h.val r.val).q = [] →
      c.ringOn h.val r.val = true → Becomes (.ringDrainDone h r) c ((c.setRing h.val r.val
      { c.ring h.val r.val with draining := false }).ringStart h.val r.val)) ∧
  (∀ (c : Card) (fn : Fn) (r : Fin 16) (v : Word) (h : Nat), c.reaches fn (0x10018 + 0x1000 * r.val) = true → c.ownsRing fn
      r.val = some h → (c.ring h r.val).pos = v.toNat → Becomes (.completionHeadWrite fn r v) c (((c.setReg (ringReg h r.val
      0x18) v).setRing h r.val { c.ring h r.val with msgOut := false }).pump h r.val)) ∧
  (∀ (c : Card) (h : Fin 4) (mask : Word), c.reaches (.pf h) 0xC = true → Becomes (.flushHeldDiscard (.pf h) mask) c ((maskList
      mask.toNat 16).foldl (fun d r => d.setRing h.val r { d.ring h.val r with flushed := [] }) c)) ∧
  (∀ (c : Card) (h : Fin 4) (idx : Nat) (v : Word), c.reaches (.pf h) 0x20000 = true → idx < 4096 → c.target (.pf h) (0x20000 +
      8 * idx) = some (hp h.val (0x20000 + 8 * idx)) → Becomes (.semaphoreHostWrite (.pf h) idx v) c ((c.dropHold (hp h.val
      (0x20000 + 8 * idx))).semApply (4096 * h.val + idx) 0 ((c.loFor (hp h.val (0x20000 + 8 * idx))).toNat + 2 ^ 32 *
      v.toNat))) ∧
  (∀ (c : Card) (h : Fin 4) (r : Fin 16) (o : Op), (c.ring h.val r.val).q.find? (fun x => x.phase == .waiting) = some o → c.live
      = true → c.ringOn h.val r.val = true → (c.ring h.val r.val).stopped = false → o.waitOk = true → o.waits.all (fun w =>
      decide (w.val ≤ c.sem w.sem)) = true → c.roomFor h.val r.val = true → o.front = true → Becomes (.waitSatisfied h r) c
      ((c.acceptOp h.val r.val o).pump h.val r.val)) ∧
  (∀ (c : Card) (h : Fin 4) (r : Fin 16) (o : Op) (t : Nat), (c.ring h.val r.val).q.find? (fun x => x.phase == .waiting) = some
      o → o.headAt = some t → c.live = true → (c.reg (ringReg h.val r.val 0xC)).toNat ≠ 0 → o.waits.all (fun w => decide (w.val
      ≤ c.sem w.sem)) = false → Becomes (.waitTimeout h r) c ((((c.advanceTo (t + (c.reg (ringReg h.val r.val 0xC)).toNat *
      1000)).setBit (hp h.val 0x28010) r.val true).raise (h.val + 1) 17).endOp h.val r.val o stCancelled 0x20 0)) ∧
  (∀ (c : Card) (h : Fin 4) (r : Fin 16) (o : Op), c.frontOp h.val r.val 0 = some o → c.live = true → Becomes (.frontNop h r) c
      (c.endOp h.val r.val o stDone 0 0)) ∧
  (∀ (c : Card) (h : Fin 4) (r : Fin 16) (o : Op), c.frontOp h.val r.val 1 = some o → c.live = true → ((c.ring h.val
      r.val).q.takeWhile (fun x => !(x.seq == o.seq && x.gen == o.gen))).all (fun x => x.phase == .retired) = true → Becomes
      (.frontBarrier h r) c (c.endOp h.val r.val o stDone 0 0)) ∧
  (∀ (c : Card) (h : Fin 4) (r : Fin 16) (o : Op), c.frontOp h.val r.val 2 = some o → c.live = true → Becomes (.frontStamp h r)
      c (c.endOp h.val r.val { o with tag := o.tag % 65536 + nbits c.ns 31 16 * 65536 } stDone 0 (c.ns % 65536))) ∧
  (∀ (c : Card) (h : Fin 4) (r : Fin 16) (seq : Nat) (o : Op), c.opOf h.val r.val seq = some o → c.live = true → o.phase = .ran
      → o.held = false → o.retryOn = none → o.records = [] → o.await = [] → o.cls ≠ 4 → c.remotes.any (fun y => y.hamper ==
      h.val && y.ring == r.val && y.seq == seq && y.gen == o.gen) = false → Becomes (.operationRetire h r seq []) c
      ((c.draw.draw.setOp h.val r.val { c.draw.draw.retireOp h.val { o with await := [] } with phase := .retired }).pump h.val
      r.val))

/-- Each clause takes a command of contexts, of the translation cache or of region owners, under hypotheses on the card and the
operands alone, and concludes that the command answers a next state with the same queue and the card that the clause gives.
Commands: CONTEXT_ENTRY_WRITE, TRANSLATION_INVALIDATE, INVALIDATION_DONE, REGION_OWNER_WRITE, APERTURE_MAP_WRITE,
APERTURE_ACCESS, SPARSE_FIRST_WRITE. Where the spec leaves a point open, the clauses follow the model's own choices:
assumption log entries 58, 114 and 116. (R136, R139, R140, R143, R147, R151) -/
def Obligations.TranslationRowsComplete : Prop :=
  (∀ (c : Card) (h : Fin 4) (v : Word) (e x : Nat) (d : Card), c.reaches (.pf h) 0x4000C = true → d = c.dropHold (hp h.val
      0x40008) → e = (c.loFor (hp h.val 0x40008)).toNat + 2 ^ 32 * v.toNat → x = d.f (hp h.val 0x40000) 11 0 → tableForm e =
      true → e % 2 = 1 → (d.tablePtr h.val e 8192).isSome = true → (tabGet none d.ctxs x).all (fun y => y.hamper == h.val) =
      true → Becomes (.contextEntryWrite h v) c ({ d with ctxs := tabPut none d.ctxs x (some ⟨h.val, e⟩) })) ∧
  (∀ (c : Card) (h : Fin 4) (v : Word) (e x : Nat) (d : Card), c.reaches (.pf h) 0x4000C = true → d = c.dropHold (hp h.val
      0x40008) → e = (c.loFor (hp h.val 0x40008)).toNat + 2 ^ 32 * v.toNat → x = d.f (hp h.val 0x40000) 11 0 → tableForm e =
      true → e % 2 = 0 → (tabGet none d.ctxs x).any (fun y => y.hamper == h.val) = true → Becomes (.contextEntryWrite h v) c
      ({ d with ctxs := tabPut none d.ctxs x none, tlb := d.tlb.filter (fun t => t.1 / 2 ^ 24 != h.val * 4096 + x) })) ∧
  (∀ (c : Card) (h : Fin 4) (v : Word), c.reaches (.pf h) 0x40020 = true → c.bit (hp h.val 0x40020) 29 = false → fld v 31 31 = 1
      → Becomes (.translationInvalidate h v) c ((c.writeReg (hp h.val 0x40020) v).setBit (hp h.val 0x40020) 29 true)) ∧
  (∀ (c : Card) (h : Fin 4), c.bit (hp h.val 0x40020) 29 = true → c.frozen = false → Becomes (.invalidationDone h) c
      ({ c.setBit (hp h.val 0x40020) 29 false with tlb := c.tlb.filter (fun t => t.1 / 2 ^ 36 != h.val || (!c.bit (hp h.val 0x40020) 30 && t.1 / 2 ^ 24 % 4096 != c.f (hp h.val 0x40020) 11 0)) })) ∧
  (∀ (c : Card) (h : Fin 4) (v : Word) (e : RegionEnt), c.reaches (.pf h) 0x40038 = true → c.regionOf (c.f (hp h.val 0x40030) 7
      0) = some (h.val, e) → Becomes (.regionOwnerWrite h v) c
      ({ c with owners := tabPut {} c.owners (c.f (hp h.val 0x40030) 7 0) ⟨fld v 27 16, fld v 11 0⟩ })) ∧
  (∀ (c : Card) (h : Fin 4) (e : Nat) (v : Word), e < 64 → c.reaches (.pf h) (aperReg h.val none e - hp h.val 0 + 4) = true →
      fld ((c.loFor (aperReg h.val none e)) &&& 0xC00FFFFF) 31 31 = 0 → Becomes (.apertureMapWrite h none e v) c (((c.dropHold
      (aperReg h.val none e)).setReg (aperReg h.val none e) ((c.loFor (aperReg h.val none e)) &&& 0xC00FFFFF)).setN (aperReg
      h.val none e + 4) (v.toNat % 2 ^ 17))) ∧
  (∀ (c : Card) (h : Fin 4) (addr len m x : Nat) (e : RegionEnt), c.claims (.pf h) = true → c.frozen = false → c.dark (.pf h) =
      false → c.aperHit h.val none addr len false = some (e, x, m) → m = len → Becomes (.apertureAccess (.pf h) addr len none
      []) c (c.aperDo h.val (Fn.pf h).num addr len (fld (c.reg (aperReg h.val none (addr / 2 ^ 29))) 7 0) e x m none [])) ∧
  (∀ (c : Card) (h : Fin 4) (addr len m x : Nat) (e : RegionEnt) (data : List Byte), c.claims (.pf h) = true → c.frozen = false
      → c.ready (.pf h) = true → c.aperHit h.val none addr len true = some (e, x, m) → m = len → Becomes (.apertureAccess (.pf
      h) addr len (some data) []) c (c.aperDo h.val (Fn.pf h).num addr len (fld (c.reg (aperReg h.val none (addr / 2 ^ 29))) 7
      0) e x m (some data) [])) ∧
  (∀ (c : Card) (h : Fin 4) (r : Fin 16) (seq va i off : Nat) (data : List Byte) (o : Op) (l : Leaf) (q : PoolCfg) (e g :
      RegionEnt), c.opOf h.val r.val seq = some o → c.live = true → o.phase = .running → o.front = false → o.epoch = none → data
      ≠ [] → data.length ≤ pageRest va → (c.translate h.val o.ctx va).toOption = some l → l.sparse = true → l.backed = false →
      l.write = true → c.heldVa h.val o.ctx true va data.length = false → c.poolServes h.val l.pool = true → q = c.poolCfg h.val
      l.pool → c.firstFree h.val l.pool q.count 0 = some i → off = q.base + i * q.size → (c.region 0 q.region off
      65536).toOption = some e → c.anyLost e off 65536 = false → (c.region 0 l.atRegion l.atOff 8).toOption = some g → c.anyLost
      g l.atOff 8 = false → ∃ c1 d, c.sparseBack h.val o.ctx r.val none l none = (c1, .ok (q.region, off)) ∧ Becomes
      (.sparseFirstWrite h r seq va data none) c d ∧ ((c1.vwrite h.val o.ctx r.val none va data).fault = none → d = (c1.vwrite
      h.val o.ctx r.val none va data).card.setOp h.val r.val
      { o with undo := (c1.vwrite h.val o.ctx r.val none va data).undo ++ o.undo }))

/-- Each clause takes a command of a buffer pool, under hypotheses on the card and the operands alone, and concludes that the
command answers a next state with the same queue and the card that the clause gives. Commands: POOL_ENABLE, POOL_DISABLE,
POOL_CHECK_DONE, POOL_HOST_TAKE, POOL_HOST_FREE, POOL_AUDIT, AUDIT_SCAN_DONE. Where the spec leaves a point open, the clauses
follow the model's own choices: assumption log entry 57. (R159, R161, R162, R163, R164) -/
def Obligations.PoolRowsComplete : Prop :=
  (∀ (c : Card) (h : Fin 4) (p : Fin 16) (v : Word), c.reaches (.pf h) (0x50000 + 0x40 * p.val) = true → tabGet none c.poolChk
      h.val = none → c.poolOn h.val p.val = false → Becomes (.poolEnable h p v) c (((c.writeReg (poolReg h.val p.val 0) v).setF
      (hp h.val 0x50404) 31 31 1).setPoolChk h.val (some ⟨p.val, true⟩))) ∧
  (∀ (c : Card) (h : Fin 4) (p : Fin 16) (v : Word), c.reaches (.pf h) (0x50000 + 0x40 * p.val) = true → tabGet none c.poolChk
      h.val = none → c.poolOn h.val p.val = true → Becomes (.poolDisable h p v) c ((c.setF (hp h.val 0x50404) 31 31
      1).setPoolChk h.val (some ⟨p.val, false⟩))) ∧
  (∀ (c : Card) (h : Fin 4) (p : Nat), tabGet none c.poolChk h.val = some ⟨p, true⟩ → c.poolEnableCode h.val p = 0 → Becomes
      (.poolCheckDone h) c ((((c.setN (hp h.val 0x50404) (p * 2 ^ 24)).setPoolChk h.val none).setBit (poolReg h.val p 0) 31
      true).setN (poolReg h.val p 0x14) 0xFFFFF)) ∧
  (∀ (c : Card) (h : Fin 4) (p : Nat), tabGet none c.poolChk h.val = some ⟨p, false⟩ → c.poolOut h.val p = 0 → Becomes
      (.poolCheckDone h) c (((c.setN (hp h.val 0x50404) (p * 2 ^ 24)).setPoolChk h.val none).setBit (poolReg h.val p 0) 31
      false)) ∧
  (∀ (c : Card) (h : Fin 4) (p : Nat), tabGet none c.poolChk h.val = some ⟨p, false⟩ → c.poolOut h.val p ≠ 0 → Becomes
      (.poolCheckDone h) c ((c.setN (hp h.val 0x50404) (p * 2 ^ 24 + 9)).setPoolChk h.val none)) ∧
  (∀ (c : Card) (h : Fin 4) (v : Word), c.reaches (.pf h) 0x50418 = true → fld v 31 31 = 1 → c.ctxOn h.val (c.f (hp h.val
      0x50410) 11 0) = true → (¬ (c.f (hp h.val 0x50414) 22 0 = 0 ∨ 0x400000 < c.f (hp h.val 0x50414) 22 0)) → Becomes
      (.poolHostTake h v) c ((c.poolTake h.val (c.f (hp h.val 0x50410) 31 24) (c.f (hp h.val 0x50414) 22 0) (c.f (hp h.val
      0x50410) 11 0) (c.f (hp h.val 0x50410) 19 16) none).1.setN (hp h.val 0x50418) (takeResult (c.poolTake h.val (c.f (hp h.val
      0x50410) 31 24) (c.f (hp h.val 0x50414) 22 0) (c.f (hp h.val 0x50410) 11 0) (c.f (hp h.val 0x50410) 19 16) none).2))) ∧
  (∀ (c : Card) (h : Fin 4) (v : Word) (b : Buf), c.reaches (.pf h) 0x50408 = true → c.poolOn h.val (fld v 27 24) = true → fld v
      19 0 < (c.poolCfg h.val (fld v 27 24)).count → c.buf h.val (fld v 27 24) (fld v 19 0) = some b → b.held = false → Becomes
      (.poolHostFree h v) c ((c.setBuf h.val (fld v 27 24) (fld v 19 0) none).poolMin h.val (fld v 27 24))) ∧
  (∀ (c : Card) (h : Fin 4) (v : Word), c.reaches (.pf h) 0x50430 = true → c.bit (hp h.val 0x50430) 30 = false → fld v 31 31 = 1
      → Becomes (.poolAudit h v) c ((c.writeReg (hp h.val 0x50430) v).setBit (hp h.val 0x50430) 30 true)) ∧
  (∀ (c : Card) (h : Fin 4), c.bit (hp h.val 0x50430) 30 = true → c.frozen = false → Completes (.auditScanDone h) c fun d =>
      d.bit (hp h.val 0x50430) 30 = false ∧ d.reg (hp h.val 0x50434) = BitVec.ofNat 32 ((c.audited h.val).filter (fun x =>
      x.2.2.epoch.isNone)).length ∧ d.reg (hp h.val 0x50438) = BitVec.ofNat 32 ((c.audited h.val).filter (fun x =>
      x.2.2.epoch.isSome)).length)

/-- Each clause takes an event of a memory channel, of a migration or of a colander, under hypotheses on the card and the operands
alone, and concludes that the command answers a next state with the same queue and the card that the clause gives. Commands:
REFRESH, DELAY_APPLY, DELAY_LOAD, DRIFT_WINDOW_END, IDLE_SELF_REFRESH, MODULE_TEMP_SAMPLE, RANK_RETIRE, MIGRATION_START,
MIGRATION_CHUNK_DONE. Where the spec leaves a point open, the clauses follow the model's own choices: assumption log entries
70, 71, 74 and 129. (R179, R185, R187, R188, R190, R193, R198, R205) -/
def Obligations.MemoryRowsComplete : Prop :=
  (∀ (c : Card) (ch : Fin 8) (sub : Fin 2), c.live = true → c.f (chPage ch.val) 2 0 = 1 → nbit (tabGet 0 c.dlyPend ch.val)
      sub.val = false → Becomes (.refresh ch sub) c
      ({ c with rowsOpen := c.rowsOpen.filter (fun e => !(e.1 / 128 == ch.val && e.1 / 32 % 2 == sub.val)) })) ∧
  (∀ (c : Card) (ch : Fin 8) (sub : Fin 2), c.live = true → c.f (chPage ch.val) 2 0 = 1 → nbit (tabGet 0 c.dlyPend ch.val)
      sub.val = true → Completes (.refresh ch sub) c fun d => d.dlyPend = tabPut 0 c.dlyPend ch.val (nput (tabGet 0 c.dlyPend
      ch.val) sub.val sub.val 0) ∧ d.bit (chPage ch.val) 5 = (tabGet 0 d.dlyPend ch.val != 0)) ∧
  (∀ (c : Card) (ch : Fin 8) (v : Word), c.reaches .pf0 (0x8138 + 0x100 * ch.val) = true → fld v 31 31 = 1 → fld v 30 30 = 0 →
      Becomes (.delayApply ch v) c ((c.writeReg (chPage ch.val + 0x38) v).applyDelays ch.val)) ∧
  (∀ (c : Card) (ch : Fin 8) (v : Word) (p : List Byte), c.reaches .pf0 (0x8138 + 0x100 * ch.val) = true → fld v 31 31 = 0 → fld
      v 30 30 = 1 → (c.writeReg (chPage ch.val + 0x38) v).calNear ch.val ((c.writeReg (chPage ch.val + 0x38) v).f (chPage ch.val
      + 0x38) 29 28) = some p → Becomes (.delayLoad ch v) c ((c.writeReg (chPage ch.val + 0x38) v).stageSet ch.val p)) ∧
  (∀ (c : Card), c.on = true → 5 ≤ c.stage → Completes .driftWindowEnd c fun d => d.driftAt = [] ∧ ∀ ch : Fin 8, c.f (mg 0x8008)
      31 16 < tabGet 0 c.driftAt ch.val → d.bit (mg 0x802C) (16 + ch.val) = true) ∧
  (∀ (c : Card) (ch : Fin 8), c.live = true → c.bit (mg 0x8000) 1 = true → c.f (chPage ch.val) 2 0 = 1 → Becomes
      (.idleSelfRefresh ch) c ((((c.advanceTo (tabGet 0 c.lastUse ch.val + c.f (mg 0x8004) 15 0 * 1000)).setF (chPage ch.val) 2
      0 2).loseSegments ch.val).closeRows ch.val)) ∧
  (∀ (c : Card) (ch : Fin 8), c.on = true → c.coreOff = false → Becomes (.moduleTempSample ch none) c (c.setSensor (10 + ch.val)
      none)) ∧
  (∀ (c : Card) (ch : Fin 8) (t : Int), c.on = true → c.coreOff = false → t < 720 → Becomes (.moduleTempSample ch (some t)) c
      ((c.setSensor (10 + ch.val) (some t)).bandSample ch.val t)) ∧
  (∀ (c : Card) (v : Word), c.reaches .pf0 0x8028 = true → fld v 31 31 = 1 → (c.writeReg (mg 0x8028) v).frozen = false →
      (c.writeReg (mg 0x8028) v).rankState (fld v 3 0) = 1 → Becomes (.rankRetire v) c (((c.writeReg (mg 0x8028) v).retireCause
      (fld v 3 0) 0).setF (mg 0x8028) 17 16 0)) ∧
  (∀ (c : Card) (k chunk t : Nat) (rest : List (Nat × Nat)), c.live = true → c.migr = none → c.migrQ = (k, chunk) :: rest →
      (c.setMigrQ rest).pickTarget (hampers.filterMap c.lay) k = some t → Becomes .migrationStart c (((c.setMigrQ
      rest).beginMigration k t).setMigr (some { source := k, target := t, start := chunk, done := 0 }))) ∧
  (∀ (c : Card) (m : Migration) (t : Nat), c.live = true → c.migr = some m → 16 ≤ m.target → c.pickTarget (hampers.filterMap
      c.lay) m.source = some t → Becomes .migrationStart c ((c.beginMigration m.source t).setMigr (some
      { m with target := t }))) ∧
  (∀ (c : Card) (m : Migration), c.live = true → c.migr = some m → m.target < 16 → m.done + 1 < 65536 → Becomes
      (.migrationChunkDone [] 0 false) c (((c.copyChunk (m.holder ((m.start + m.done) % 65536)) m.target ((m.start + m.done) %
      65536)).setMigr (some { m with done := m.done + 1 })).releaseAll)) ∧
  (∀ (c : Card) (m : Migration), c.live = true → c.migr = some m → m.target < 16 → m.done = 65535 → Becomes (.migrationChunkDone
      [] 0 false) c ((((c.copyChunk (m.holder ((m.start + m.done) % 65536)) m.target ((m.start + m.done) % 65536)).setMigr (some
      { m with done := 65536 })).endMigration { m with done := 65536 }).releaseAll))

/-- Each clause takes an event of a stream context, under hypotheses on the card and the operands alone, and concludes that the
command answers a next state with the same queue and the card that the clause gives. Commands: KEY_COMMIT, KEY_CLEAR,
FEED_BYTES_QUEUED, PICTURE_DECODE_START, SEQUENCE_HEADER, PARTITION_RECONSTRUCTED, DAMAGE_DETECTED, PICTURE_COMPLETE. Where
the spec leaves a point open, the clauses follow the model's own choices: assumption log entries 34, 45, 46, 47, 139 and 140.
(R236, R237, R238, R240, R243, R255) -/
def Obligations.StreamRowsComplete : Prop :=
  (∀ (c : Card) (h : Fin 4) (v : Word), c.reaches (.pf h) 0x60014 = true → fld v 29 29 = 1 → Completes (.keyCommit h v) c fun d
      => ∀ k : Fin 4, d.reg (hp h.val (0x60018 + 4 * k.val)) = 0 ∧ d.keys = tabPut none c.keys (64 * h.val + c.f (hp h.val
      0x60010) 5 0) (some ⟨(List.range 4).flatMap (fun k => leBytes 4 (c.reg (hp h.val (0x60018 + 4 * k))).toNat), (c.writeReg
      (hp h.val 0x60014) v).f (hp h.val 0x60014) 11 0⟩)) ∧
  (∀ (c : Card) (h : Fin 4) (v : Word), c.reaches (.pf h) 0x60014 = true → fld v 30 30 = 1 → Completes (.keyClear h v) c fun d
      => d.keys = tabPut none c.keys (64 * h.val + c.f (hp h.val 0x60010) 5 0) none) ∧
  (∀ (c : Card) (h : Fin 4) (r : Fin 16) (seq : Nat) (o : Op) (t : Stream), c.opOf h.val r.val seq = some o → c.live = true →
      o.phase = .running → o.held = true → o.cls = 1 → o.opcode = 2 → c.stream h.val (leAt o.body 0xC 1) = some t → (c.enqueue
      h.val (leAt o.body 0xC 1) t { feedMark o.body false with disc := false } o.rest).2 = [] → Becomes (.feedBytesQueued h r
      seq) c ((c.enqueue h.val (leAt o.body 0xC 1) t { feedMark o.body false with disc := false } o.rest).1.setOp h.val r.val
      ({ o with held := false, rest := [] }.ran stDone 0 0))) ∧
  (∀ (c : Card) (h : Fin 4) (u : Fin 16) (st : Fin 64) (ps : PicStart) (t t1 : Stream) (k : Nat) (c1 : Card), c.stream h.val
      st.val = some t → c.freeSlot t = some k → c.live = true → c.streamState t = 3 → c.unitEnabled h.val 1 u.val = true →
      c.fenced h.val 1 u.val = false → tabGet none c.slices (16 * h.val + u.val) = none → c.retryWaits h.val 1 u.val = false →
      c.nextContext h.val st.val t = true → 16 ≤ c.storeFree h.val t.ring → t1 = t.consume ps.bytes → t1.holdsStart = true → c1
      = ((c.setStream h.val st.val (some t1)).countDropped h.val st.val ps.dropped).releaseSlot h.val t1 k → Becomes
      (.pictureDecodeStart h u st ps) c (c1.beginPic h.val st.val t1 k u.val ps.missing)) ∧
  (∀ (c : Card) (h : Fin 4) (u : Fin 16) (st : Fin 64) (ps : PicStart) (t t1 : Stream) (k : Nat) (c1 : Card), c.stream h.val
      st.val = some t → c.freeSlot t = some k → c.live = true → c.streamState t = 3 → c.unitEnabled h.val 1 u.val = true →
      c.fenced h.val 1 u.val = false → tabGet none c.slices (16 * h.val + u.val) = none → c.retryWaits h.val 1 u.val = false →
      c.nextContext h.val st.val t = true → 16 ≤ c.storeFree h.val t.ring → t1 = t.consume ps.bytes → t1.holdsStart = true → c1
      = ((c.setStream h.val st.val (some t1)).countDropped h.val st.val ps.dropped).releaseSlot h.val t1 k → ps.missing = [] →
      t.mode ≠ 1 → Completes (.pictureDecodeStart h u st ps) c fun d => d.slices = tabPut none c1.slices (16 * h.val + u.val)
      (some st.val) ∧ ∃ p ∈ ((d.stream h.val st.val).map (fun x => x.pics)).getD [], p.slot = k ∧ p.decodeNo = t.nextDecode ∧
      p.slice = u.val ∧ (d.stream h.val st.val).map (fun x => x.nextDecode) = some (t.nextDecode + 1)) ∧
  (∀ (c : Card) (h : Fin 4) (st : Fin 64) (hd : SeqHeader) (t : Stream), c.stream h.val st.val = some t → c.live = true →
      t.closing = false → t.pics.any (fun p => p.decoding) = false → headerOk hd t.codec = true → hd.width ≤ t.maxW → hd.height
      ≤ t.maxH → hd.codedW ≤ roundUp t.maxW 16 → hd.codedH ≤ roundUp t.maxH 16 → hd.needed ≤ t.slots - 1 → t.pics.any (fun p =>
      p.waiting) = false → Completes (.sequenceHeader h st hd) c fun d => (d.stream h.val st.val).map (fun x => (x.header,
      x.width, x.height)) = some (true, hd.width, hd.height)) ∧
  (∀ (c : Card) (h : Fin 4) (st : Fin 64) (hd : SeqHeader) (t : Stream) (e : Card), c.stream h.val st.val = some t → c.live =
      true → t.closing = false → t.pics.any (fun p => p.decoding) = false → headerOk hd t.codec = false → e = (((((c.setStream
      h.val st.val (some (t.consume hd.bytes))).countDropped h.val st.val hd.skipped).outputAll h.val st.val
      hd.flush)).streamEvent h.val st.val 1 0xFFFFFFFF 0 (leBytes 1 t.codec ++ leBytes 1 hd.profile ++ leBytes 1 hd.level)).1 →
      Becomes (.sequenceHeader h st hd) c (e.setStream h.val st.val ((e.stream h.val st.val).map (fun x =>
      { x with header := false })))) ∧
  (∀ (c : Card) (h : Fin 4) (st : Fin 64) (data : List Samples) (part : PartEnd) (t : Stream) (p : Pic), c.stream h.val st.val =
      some t → t.pics.find? (fun p => p.decoding) = some p → c.live = true → part.parsed = false → (¬ (t.mode = 1 ∧
      (c.putSamples h.val t p.slot data).unsettled h.val p.epoch = true)) → Becomes (.partitionReconstructed h st data part) c
      (c.putSamples h.val t p.slot data)) ∧
  (∀ (c : Card) (h : Fin 4) (st : Fin 64) (data : List Samples) (part : PartEnd) (t : Stream) (p : Pic) (e : Card), c.stream
      h.val st.val = some t → t.pics.find? (fun p => p.decoding) = some p → c.live = true → part.parsed = true → e =
      (c.putSamples h.val t p.slot data).freeSlices h.val st.val → (¬ (t.mode = 1 ∧ e.unsettled h.val p.epoch = true)) → Becomes
      (.partitionReconstructed h st data part) c (e)) ∧
  (∀ (c : Card) (h : Fin 4) (st : Fin 64) (data : List Samples) (part : PartEnd) (t : Stream) (p : Pic) (e : Card), c.stream
      h.val st.val = some t → t.pics.find? (fun p => p.decoding) = some p → c.live = true → part.parsed = false → e =
      c.putSamples h.val t p.slot data → t.mode = 1 → e.unsettled h.val p.epoch = true → Becomes (.partitionReconstructed h st
      data part) c (e.setStream h.val st.val ((e.stream h.val st.val).map (fun x => x.mapPics (fun q => if q.decoding then
      { q with rows := max q.rows part.rows } else q))))) ∧
  (∀ (c : Card) (h : Fin 4) (st : Fin 64) (kind id : Nat) (t : Stream), c.stream h.val st.val = some t → c.live = true → kind ≠
      1 → Becomes (.damageDetected h st (.paramBad kind id)) c ((c.streamEvent h.val st.val 3 0xFFFFFFFF 0 (leBytes 1 kind ++
      leBytes 1 id)).1)) ∧
  (∀ (c : Card) (h : Fin 4) (st : Fin 64) (id : Nat) (t : Stream) (e : Card), c.stream h.val st.val = some t → c.live = true → e
      = (c.streamEvent h.val st.val 3 0xFFFFFFFF 0 (leBytes 1 1 ++ leBytes 1 id)).1 → Becomes (.damageDetected h st (.paramBad 1
      id)) c (e.setStream h.val st.val ((e.stream h.val st.val).map (fun x => { x with header := false })))) ∧
  (∀ (c : Card) (h : Fin 4) (st : Fin 64) (pe : PicEnd) (t : Stream) (p : Pic), c.stream h.val st.val = some t → t.pics.find?
      (fun p => p.decoding) = some p → c.live = true → t.closing = true → c.endKnown h.val st.val t pe.bytes = true → pe.lone =
      none → Becomes (.pictureComplete h st pe) c (((((c.putSamples h.val t p.slot pe.last).freeSlices h.val st.val).closeStream
      h.val st.val).endClose h.val st.val))) ∧
  (∀ (c : Card) (h : Fin 4) (st : Fin 64) (pe : PicEnd) (t : Stream) (p : Pic), c.stream h.val st.val = some t → t.pics.find?
      (fun p => p.decoding) = some p → c.live = true → t.closing = false → c.endKnown h.val st.val t pe.bytes = true → pe.lone =
      none → pe.outputs = [] → p.damage = none → t.guard = 0 → pe.number.isSome = true → Completes (.pictureComplete h st pe) c
      fun d => (d.reg (hp h.val (0x61008 + 0x40 * st.val))).toNat = min 0xFFFFFFFF ((((c.putSamples h.val t p.slot
      pe.last).freeSlices h.val st.val).reg (hp h.val (0x61008 + 0x40 * st.val))).toNat + 1) ∧ (d.stream h.val st.val).map (fun
      x => x.pics.any (fun q => q.decodeNo == p.decodeNo && !q.decoding && q.waiting)) = some true)

/-- Each clause takes an event of a raster port, under hypotheses on the card and the operands alone, and concludes that the
command answers a next state with the same queue and the card that the clause gives. Commands: FRAME_START, FRAME_END,
LINE_MARKER, LONG_PACKET, RASTER_PACKET_TIMEOUT, RASTER_LINK_CHANGE, FRAME_WRITES_COMPLETE, RASTER_COMMIT_WRITE,
RASTER_VC_ENABLE. Where the spec leaves a point open, the clauses follow the model's own choices: assumption log entries 20,
21, 32, 33 and 137. (R265, R266, R269, R271, R273, R276, R281) -/
def Obligations.RasterRowsComplete : Prop :=
  (∀ (c : Card) (p vc : Fin 4) (num h : Nat), c.receiver p.val = some h → (c.vc h vc.val).state ≠ 0 → (c.vc h vc.val).cur = none
      → Becomes (.frameStart p vc num .good) c ((c.setVc h vc.val { c.vc h vc.val with lastAt := c.ns }).openFrame h vc.val
      num)) ∧
  (∀ (c : Card) (p vc : Fin 4) (h : Nat), c.receiver p.val = some h → (c.vc h vc.val).state ≠ 0 → Completes (.frameEnd p vc
      .good) c fun d => (d.vc h vc.val).cur = none ∧ (d.vc h vc.val).latched = false) ∧
  (∀ (c : Card) (p vc : Fin 4) (h : Nat), c.receiver p.val = some h → (c.vc h vc.val).state ≠ 0 → Becomes (.lineMarker p vc
      .good) c (c.setVc h vc.val { c.vc h vc.val with lastAt := c.ns })) ∧
  (∀ (c : Card) (p vc : Fin 4) (h : Nat), c.receiver p.val = some h → Becomes (.lineMarker p vc .bad) c ((((c.setVc h vc.val
      { c.vc h vc.val with lastAt := c.ns }).bump (hp h 0x70024) 1).rpEvent h 1).flagFrame h vc.val fHdrErr)) ∧
  (∀ (c : Card) (p vc : Fin 4) (pk : CsiPacket) (h : Nat) (f : RpFrame) (e : Card), c.receiver p.val = some h → e = c.rpDrain h
      pk.drained → (e.vc h vc.val).state ≠ 0 → pk.dt = (e.vcCfg h vc.val).dt → (e.vc h vc.val).cur = some f → (e.vc h
      vc.val).latched = false → Becomes (.longPacket p vc pk .good) c ((e.setVc h vc.val
      { e.vc h vc.val with lastAt := e.ns }).rpLine h vc.val f pk)) ∧
  (∀ (c : Card) (p vc : Fin 4) (pk : CsiPacket) (h : Nat) (e : Card), c.receiver p.val = some h → e = c.rpDrain h pk.drained →
      (e.vc h vc.val).state = 0 → Becomes (.longPacket p vc pk .good) c ((e.setVc h vc.val
      { e.vc h vc.val with lastAt := e.ns }).bump (hp h 0x7002C) 1)) ∧
  (∀ (c : Card) (p vc : Fin 4) (h : Nat), c.receiver p.val = some h → (c.vc h vc.val).cur.isSome = true → (c.vc h
      vc.val).latched = false → Becomes (.rasterPacketTimeout p vc) c ((c.advanceTo ((c.vc h vc.val).lastAt + 1000000)).latch h
      vc.val [fTruncated])) ∧
  (∀ (c : Card) (p : Fin 4) (hs : Bool) (rate h : Nat), c.receiver p.val = some h → c.bit (hp h 0x70004) 31 = true → Becomes
      (.rasterLinkChange p true hs rate) c (c.setN (hp h 0x70004) (2 ^ 31 + b2n hs * 2 ^ 30 + rate % 65536))) ∧
  (∀ (c : Card) (h vc : Fin 4) (f g : RpFrame) (l rest : List RpFrame) (d e x : Card), (c.vc h.val vc.val).done = f :: l →
      c.live = true → d = c.rpDrain h.val 0 → (tabGet [] d.rpBuf h.val).any (fun w => (w.vc == vc.val && w.no == f.no) &&
      !w.data.isEmpty) = false → e = d.setRpBuf h.val ((tabGet [] d.rpBuf h.val).filter (fun w => !(w.vc == vc.val && w.no ==
      f.no))) → (e.vc h.val vc.val).done = g :: rest → g.addr.isSome = true → g.align = none → x = ((e.setVc h.val vc.val
      { e.vc h.val vc.val with done := rest }).rpPut h.val vc.val g.no (e.vcCfg h.val vc.val).ctx ((e.vcCfg h.val vc.val).desc +
      64 * (g.no % 2 ^ (e.vcCfg h.val vc.val).log2)) (frameDesc g vc.val (e.vcCfg h.val vc.val))).bump (vcReg h.val vc.val 0x28)
      1 → Becomes (.frameWritesComplete h vc) c (x.semApply (4096 * h.val + x.f (vcReg h.val vc.val 0x18) 11 0) 0 (g.no + 1))) ∧
  (∀ (c : Card) (h vc : Fin 4) (v : Word) (k : Nat), c.reaches (.pf h) (0x70114 + 0x80 * vc.val) = true → k = vcReg h.val vc.val
      0x10 → (c.loFor k).toNat + 2 ^ 32 * v.toNat = 0 → Becomes (.rasterCommitWrite h vc v) c ((((c.setReg k (c.loFor k)).setReg
      (k + 4) v).dropHold k).commit h.val vc.val 0)) ∧
  (∀ (c : Card) (h vc : Fin 4) (v : Word) (k a : Nat), c.reaches (.pf h) (0x70114 + 0x80 * vc.val) = true → k = vcReg h.val
      vc.val 0x10 → a = (c.loFor k).toNat + 2 ^ 32 * v.toNat → (((c.setReg k (c.loFor k)).setReg (k + 4) v).dropHold k).bufferOk
      h.val ((((c.setReg k (c.loFor k)).setReg (k + 4) v).dropHold k).vcCfg h.val vc.val) a = true → Becomes (.rasterCommitWrite
      h vc v) c ((((c.setReg k (c.loFor k)).setReg (k + 4) v).dropHold k).commit h.val vc.val a)) ∧
  (∀ (c : Card) (h vc : Fin 4) (v : Word) (k : Nat), c.reaches (.pf h) (0x70100 + 0x80 * vc.val) = true → k = vcReg h.val vc.val
      0 → fld v 31 31 = 1 → c.bit k 31 = false → ((c.writeReg k v).vcCfg h.val vc.val).ok = true → Becomes (.rasterVcEnable h vc
      v) c (((c.writeReg k v).setBit k 31 true).setVc h.val vc.val { state := 1, lastAt := (c.writeReg k v).ns })) ∧
  (∀ (c : Card) (h vc : Fin 4) (v : Word) (k : Nat), c.reaches (.pf h) (0x70100 + 0x80 * vc.val) = true → k = vcReg h.val vc.val
      0 → fld v 31 31 = 0 → c.bit k 31 = true → Becomes (.rasterVcEnable h vc v) c (((c.writeReg k v).setBit k 31 false).vcOff
      h.val vc.val))

/-- Each clause takes an event of shapers, griddles or the scheduler, under hypotheses on the card and the operands alone, and
concludes that the command answers a next state with the same queue and the card that the clause gives. Commands:
PREPARE_PROGRESS_RELEASE, BACKLOG_REFRESH, ACC_CLEAR_ALL, ACC_CLEAR_SLOT, ACC_SLOT_CFG_WRITE, GRIDDLE_PASS_END,
COLANDER_SEARCH_START, SEARCH, GRIDDLE_RUN, UNIT_START_REQUEST, UNIT_STOP. Where the spec leaves a point open, the clauses
follow the model's own choices: assumption log entries 26, 28, 30, 34, 36, 37, 38, 77, 138, 141 and 142. (R210, R220, R293,
R295, R314, R321, R370, R455) -/
def Obligations.SchedulingRowsComplete : Prop :=
  (∀ (c : Card) (h : Fin 4) (r : Fin 16) (seq : Nat) (order : List Nat) (o : Op), c.opOf h.val r.val seq = some o → c.live =
      true → o.cls = 2 → o.held = true → o.phase = .running → (c.stream h.val (leAt o.body 0x2F 1)).all (fun t => t.closing) =
      false → c.progressed h.val o = true → Becomes (.prepareProgressRelease h r seq order) c ((c.setOp h.val r.val
      { o with held := false, at_ := c.ns, prog := c.progNo h.val o }).engine h.val r.val seq 2 0x01 (prepareWork order))) ∧
  (∀ (c : Card) (h : Fin 4) (l : Layout), c.lay h.val = some l → c.live = true → c.f (hp h.val 0x80010) 15 0 = 0 → Completes
      (.backlogRefresh h) c fun d => d.bit (hp h.val 0x80010) 31 = false ∧ d.f (hp h.val 0x80000) 15 0 = ((List.range 16).map
      (fun i => match l.groups[i]? with | some g => min 65535 (c.groupBacklog h.val i g) | none => 0)).foldl max 0) ∧
  (∀ (c : Card) (h : Fin 4) (v : Word), c.reaches (.pf h) 0xD0000 = true → fld v 31 31 = 1 → Becomes (.accClearAll h v) c
      ((List.range 256).foldl (fun d i => d.accClear h.val i) (c.writeReg (hp h.val 0xD0000) v))) ∧
  (∀ (c : Card) (h : Fin 4) (v : Word), c.reaches (.pf h) 0xD0000 = true → fld v 30 30 = 1 → Becomes (.accClearSlot h v) c
      ((c.writeReg (hp h.val 0xD0000) v).accClear h.val (fld v 7 0))) ∧
  (∀ (c : Card) (h : Fin 4) (slot : Fin 256) (v : Word), c.reaches (.pf h) (0xD1000 + 0x20 * slot.val) = true → Becomes
      (.accSlotCfgWrite h slot v) c ((c.setN (hp h.val (0xD1000 + 0x20 * slot.val)) (v.toNat &&& 0x800F0FFF)).accClear h.val
      slot.val)) ∧
  (∀ (c : Card) (h : Fin 4) (u : Fin 8) (r : Nat) (o : Op), (c.allOps h.val).find? (fun y => y.2.cls == 3 && y.2.started &&
      y.2.paused.isNone && y.2.phase == .running && y.2.unit == u.val && !y.2.held && y.2.reads.isEmpty) = some (r, o) → c.opOf
      h.val r o.seq = some o → c.live = true → o.retryOn = none → o.plain → c.stagingClean h.val → o.pass ≠ [] → leAt o.body 8 2
      ≤ o.passes + 1 → ∃ (d : Card) (x : Op), x.passes = o.passes + 1 ∧ x.status = stDone ∧ Becomes (.griddlePassEnd h u) c
      ((d.setOp h.val r (x.ran x.status x.detail x.ext)).resumePaused h.val u.val)) ∧
  (∀ (c : Card) (m : Fin 8) (h r : Nat) (o o1 : Op) (c0 c1 : Card) (e : List Byte), c.live = true → c.running m.val = none →
      (c.colOps m.val).find? (fun x => x.2.2.started) = none → c.colState m.val = 1 → c.nextSearch m.val = some (h, r, o) →
      c.isSuspect h o = false → c.searchModule h o = some m.val → o.plain → c0 = (c.drawXlate.chargeWait h o (c.ns -
      o.at_)).chargeCount h o 0x10 → o1 = { o with started := true, held := false } → ReadsTo h o1 [(leAt o.body 0x10 8, 16 *
      leAt o.body 0x28 4)] c0 [e] c1 → Becomes (.colanderSearchStart m) c (((c1.setWindow o.unit []).colUrge o.unit).setOp h r
      { o1 with rest := e, passes := 0 })) ∧
  (∀ (c : Card) (h : Fin 4) (r : Fin 16) (seq : Nat) (o : Op) (u m : Nat), c.runnable h.val r.val seq 7 0x01 = some (o, u) →
      o.started = false → o.suspect = false → searchInRange o.body = true → c.passes h.val o.ctx (leAt o.body 0 8) (planeLen
      o.body) false false → c.passes h.val o.ctx (leAt o.body 8 8) (planeLen o.body) false false → (c.planePages h.val o).all
      (fun p => p.any (fun x => x.1.colander)) = true → c.searchModule h.val o = some m → (c.groupOf h.val o.group).any (fun g
      => nbit g.units ((c.searchChannels h.val o).headD 0)) = true → c.colTakes m = true → Becomes (.search h r seq) c (c.setOp
      h.val r.val { o with unit := m, held := true })) ∧
  (∀ (c : Card) (h : Fin 4) (r : Fin 16) (seq u x y : Nat) (o o1 : Op) (l : Leaf) (c0 c1 : Card) (bs : List Byte) (p : Pass),
      c.readyOp h.val r.val seq 3 0x01 = some o → o.started = false → c.stillDue h.val o = false → c.canStart h.val r.val o =
      some u → c.isSuspect h.val o = false → o.plain → o.tile = [] → c.startOp h.val { o with due := none, next := [] } u = (c0,
      o1) → runInRange o.body = true → leAt o.body 8 2 = 1 → c0.translate h.val o.ctx (leAt o.body 0 8) = .ok l → l.to_ = .card
      x y → ReadsTo h.val o1 [(leAt o.body 0 8, 32)] c0 [bs] c1 → p = readPass bs → passInRange o.body (c0.grGeometry h.val)
      true p = true → passFits o.body (c0.grGeometry h.val) (c0.staging h.val).2 p = true → p.wchg = 0 → p.acc = 0 →
      c1.stagingClean h.val → Becomes (.griddleRun h r seq) c ((c1.setGr h.val u
      { c1.grSet h.val u with active := c1.sramRd h.val ((c1.staging h.val).1 + p.wgt) ((c1.grGeometry h.val).1 * (c1.grGeometry h.val).2 * fmtBytes (runW o.body)) }).setOp
      h.val r.val { o1 with pass := bs, next := [], adds := [], wgt := p.wgt })) ∧
  (∀ (c : Card) (l : UnitLoad), c.live = true → c.draws (.unit l.hamper.val l.cls.val l.index) = false → c.startWaits (.unit
      l.hamper.val l.cls.val l.index) = false → l.op = none → Becomes (.unitStartRequest l) c (c.govStart (.unit l.hamper.val
      l.cls.val l.index) l.lc none)) ∧
  (∀ (c : Card) (l : UnitLoad), c.live = true → c.draws (.unit l.hamper.val l.cls.val l.index) = true → Becomes (.unitStop l) c
      (c.govStop (.unit l.hamper.val l.cls.val l.index)))

/-- Each clause takes a command of a record ring, under hypotheses on the card and the operands alone, and concludes that the
command answers a next state with the same queue and the card that the clause gives. Commands: HEARTBEAT, RECORD_RING_ENABLE,
RECORD_RING_DISABLE, RECORD_HEAD_WRITE. Where the spec leaves a point open, the clauses follow the model's own choices:
assumption log entries 116 and 118. (R133, R394, R397, R400) -/
def Obligations.RecordRowsComplete : Prop :=
  (∀ (c : Card) (h : Fin 4) (r : Fin 16), c.live = true → c.recEn h.val r.val = true → c.f (ringReg h.val r.val 0x118) 23 0 ≠ 0
      → Completes (.heartbeat h r) c fun d => (d.recRing h.val r.val).beatAt = (c.recRing h.val r.val).beatAt + 1000 * c.f
      (ringReg h.val r.val 0x118) 23 0 ∧ (d.recRing h.val r.val).beats = wrap32 ((c.recRing h.val r.val).beats + 1)) ∧
  (∀ (c : Card) (fn : Fn) (r : Fin 16) (v : Word) (h : Nat), c.reaches fn (0x10108 + 0x1000 * r.val) = true → c.ownsRing fn
      r.val = some h → c.recEn h r.val = false → fld v 31 31 = 1 → Completes (.recordRingEnable fn r v) c fun d => d.recEn h
      r.val = true ∧ d.reg (ringReg h r.val 0x110) = 0 ∧ d.reg (ringReg h r.val 0x10C) = 0 ∧ (d.recRing h r.val).store = []) ∧
  (∀ (c : Card) (fn : Fn) (r : Fin 16) (v : Word) (h n : Nat) (e g : Card), c.reaches fn (0x10108 + 0x1000 * r.val) = true →
      c.ownsRing fn r.val = some h → c.recEn h r.val = true → e = c.writeReg (ringReg h r.val 0x108) v → g = (e.setBit (ringReg
      h r.val 0x108) 31 false).setRec h r.val { e.recRing h r.val with store := [], midOp := false } → n = (e.recRing h
      r.val).store.length + ((e.ring h r.val).q.map (fun o => o.records.length)).sum → Becomes (.recordRingDisable fn r v) c
      (((g.setRing h r.val { g.ring h r.val with q := (e.ring h r.val).q.map (fun o => { o with records := [] }) }).recDiscard h
      n).pump h r.val)) ∧
  (∀ (c : Card) (fn : Fn) (r : Fin 16) (v : Word) (h : Nat), c.reaches fn (0x1010C + 0x1000 * r.val) = true → c.ownsRing fn
      r.val = some h → diff32 (c.reg (ringReg h r.val 0x110)).toNat v.toNat ≤ 2 ^ c.f (ringReg h r.val 0x108) 20 16 → Becomes
      (.recordHeadWrite fn r v) c ((((c.setReg (ringReg h r.val 0x10C) v).setRec h r.val
      { c.recRing h r.val with msgOut := false }).recMessage h r.val).pump h r.val))

/-- Each clause takes a failed step, a reinstatement or a command of the fault log, under hypotheses on the card and the operands
alone, and concludes that the command answers a next state with the same queue and the card that the clause gives. Commands:
FAULT_LOG_HEAD_WRITE, FAULT_LOG_CLEAR, UNIT_STEP_FAILURE, WATCHDOG_EXPIRY, EQUAL_UNIT_RETRY_START, UNIT_REINSTATE,
COLANDER_REINSTATE, SELF_TEST_DONE. Where the spec leaves a point open, the clauses follow the model's own choices: assumption
log entries 100, 101, 108 and 113. (R133, R405, R407, R408, R415, R425) -/
def Obligations.FaultRowsComplete : Prop :=
  (∀ (c : Card) (v : Word), c.reaches .pf0 0xC004 = true → diff32 (c.reg (mg 0xC008)).toNat v.toNat ≤ 256 → c.reg (mg 0xC008) =
      v → Becomes (.faultLogHeadWrite v) c ({ c.setReg (mg 0xC004) v with fltMsg := false })) ∧
  (∀ (c : Card) (v : Word), c.reaches .pf0 0xC000 = true → fld v 31 31 = 1 → Becomes (.faultLogClear v) c
      ({ (c.writeReg (mg 0xC000) v).setReg (mg 0xC004) ((c.writeReg (mg 0xC000) v).reg (mg 0xC008)) with fltMsg := false })) ∧
  (∀ (c : Card) (f : StepFault) (r : Fin 16) (seq : Nat) (o : Op), c.live = true → f.op = some (r, seq) → c.opOf f.hamper.val
      r.val seq = some o → f.cls.val = 4 → o.cls = 4 → o.unit = f.unit → o.started = true → o.active = true → o.held = false →
      o.paused = none → o.retryOn = none → Becomes (.unitStepFailure f) c ((c.opStepFails f.hamper.val r.val o f.unit f.again
      f.equal).settleFences f.hamper.val)) ∧
  (∀ (c : Card) (f : StepFault) (r : Fin 16) (seq : Nat) (o : Op), c.awaitsInput f = false → c.live = true → f.op = some (r,
      seq) → c.opOf f.hamper.val r.val seq = some o → f.cls.val = 4 → o.cls = 4 → o.unit = f.unit → o.started = true → o.active
      = true → o.held = false → o.paused = none → o.retryOn = none → Becomes (.watchdogExpiry f) c ((c.opStepFails f.hamper.val
      r.val o f.unit f.again f.equal).settleFences f.hamper.val)) ∧
  (∀ (c : Card) (h : Fin 4) (cls : Fin 9) (u r : Nat) (ok : Bool) (o : Op), c.live = true → c.unitEnabled h.val cls.val u = true
      → cls.val ≠ 1 → (c.allOps h.val).filter (fun x => x.2.cls == cls.val && x.2.retryOn == some u) = [(r, o)] → c.busyFor
      h.val o u = false → Becomes (.equalUnitRetryStart h cls u ok) c ((c.retryOnEqual h.val r { o with retryOn := none }
      (o.failUnits.getLast?.getD o.unit) u ok).settleFences h.val)) ∧
  (∀ (c : Card) (h : Fin 4) (v : Word) (k : Nat), c.reaches (.pf h) 0xE000C = true → k = hp h.val 0xE000C → c.bit k 30 = false →
      fld v 31 31 = 1 → (c.writeReg k v).unitThere h.val ((c.writeReg k v).f k 11 8) ((c.writeReg k v).f k 4 0) = true →
      (c.writeReg k v).fenced h.val ((c.writeReg k v).f k 11 8) ((c.writeReg k v).f k 4 0) = true → Becomes (.unitReinstate h v)
      c (((c.writeReg k v).setF k 29 28 0).setBit k 30 true)) ∧
  (∀ (c : Card) (v : Word) (k : Nat), c.reaches .pf0 0xC010 = true → k = mg 0xC010 → c.bit k 30 = false → fld v 31 31 = 1 →
      (c.writeReg k v).bit (mg 0x0020) (16 + (c.writeReg k v).f k 2 0) = true → (c.writeReg k v).fenced 0 7 ((c.writeReg k v).f
      k 2 0) = true → Becomes (.colanderReinstate v) c (((c.writeReg k v).setF k 29 28 0).setBit k 30 true)) ∧
  (∀ (c : Card) (h : Fin 4), c.live = true → c.bit (hp h.val 0xE000C) 30 = true → Becomes (.selfTestDone (some h) false) c
      (((((c.setBit (hp h.val 0xE000C) 30 false).setF (hp h.val 0xE000C) 29 28 2).logVerdict h.val (c.f (hp h.val 0xE000C) 11 8)
      (c.f (hp h.val 0xE000C) 4 0) 8 0 0).hpEvent h.val 0xE0008 2 18))) ∧
  (∀ (c : Card) (h : Fin 4), c.live = true → c.bit (hp h.val 0xE000C) 30 = true → Becomes (.selfTestDone (some h) true) c
      ((((((c.setBit (hp h.val 0xE000C) 30 false).setF (hp h.val 0xE000C) 29 28 1).reinstated h.val (c.f (hp h.val 0xE000C) 11
      8) (c.f (hp h.val 0xE000C) 4 0)).logVerdict h.val (c.f (hp h.val 0xE000C) 11 8) (c.f (hp h.val 0xE000C) 4 0) 7 0
      0).hpEvent h.val 0xE0008 2 18))) ∧
  (∀ (c : Card), c.live = true → c.bit (mg 0xC010) 30 = true → Becomes (.selfTestDone none false) c (((c.setBit (mg 0xC010) 30
      false).setF (mg 0xC010) 29 28 2).logVerdict 0xF 7 (c.f (mg 0xC010) 2 0) 8 0 0))

/-- Each clause takes an event of freeze, thaw or read-out, under hypotheses on the card and the operands alone, and concludes
that the command answers a next state with the same queue and the card that the clause gives. Commands: FREEZE_PIN,
FREEZE_REGISTER, FREEZE_LINK_PULSE, FREEZE_MATCH_TIME, FREEZE_SETTLED, THAW, THAW_COMPLETE, READOUT_START, READOUT_DONE,
READOUT_UNLOCK_REQUEST. Where the spec leaves a point open, the clauses follow the model's own choices: assumption log entries
96, 97, 98, 110 and 146. (R432, R433, R434, R437, R438, R440, R442) -/
def Obligations.FreezeRowsComplete : Prop :=
  (∀ (c : Card), c.freezeN = false → Becomes (.freezePin true) c (({ c with freezeN := true } : Card).freezeRequest 1)) ∧
  (∀ (c : Card), Becomes (.freezePin false) c ({ c with freezeN := false })) ∧
  (∀ (c : Card) (v : Word), c.reaches .pf0 0x5000 = true → fld v 31 31 = 1 → fld v 30 30 = 0 → Becomes (.freezeRegister v) c
      ((c.writeReg (mg 0x5000) v).freezeRequest 3)) ∧
  (∀ (c : Card) (p : Fin 2), c.cable p.val = true → Becomes (.freezeLinkPulse p) c (c.freezeRequest (4 + p.val))) ∧
  (∀ (c : Card), c.on = true → c.bit (mg 0x5030) 31 = true → c.bit (mg 0x5000) 11 = true → c.pair (mg 0x5034) (mg 0x5038) ≠ 0 →
      Becomes .freezeMatchTime c (((c.advanceTo (c.pair (mg 0x5034) (mg 0x5038))).setBit (mg 0x5030) 31 false).freezeRequest 6)) ∧
  (∀ (c : Card), c.stopping = true → Completes .freezeSettled c fun d => d.frozen = true ∧ d.stopping = false ∧ d.rowsOpen = []
      ∧ d.gov.b = 0) ∧
  (∀ (c : Card) (v : Word), c.reaches .pf0 0x5000 = true → fld v 31 31 = 0 → fld v 30 30 = 1 → c.frozen = true → c.thawing =
      false → c.freezeN = false → c.noRetention = false → c.bit (mg 0x5100) 30 = false → Becomes (.thaw v) c (((c.writeReg (mg
      0x5000) v).setF (mg 0x5004) 23 16 0).setBit (mg 0x5004) 29 true)) ∧
  (∀ (c : Card), c.thawing = true → Completes (.thawComplete true) c fun d => d.thawing = false ∧ d.f (mg 0x5004) 23 16 = 3 ∧
      d.noRetention = true ∧ d.frozen = c.frozen) ∧
  (∀ (c : Card), c.thawing = true → Completes (.thawComplete false) c fun d => ∃ e : Card, e.clk = c.clk ∧ e.f (mg 0x5004) 31 29
      = 0 ∧ (d = e.resume.govFlags ∨ ∃ src, d = e.resume.govFlags.endRefreeze.freezeWave src)) ∧
  (∀ (c : Card) (v : Word) (k : Nat), c.reaches .pf0 0x5100 = true → k = mg 0x5100 → c.bit k 30 = false → fld v 31 31 = 1 →
      ((c.writeReg k v).setF k 29 26 0).roRefused (((c.writeReg k v).setF k 29 26 0).f k 19 16) (((c.writeReg k v).setF k 29 26
      0).f k 15 0) (((c.writeReg k v).setF k 29 26 0).pair (mg 0x5104) (mg 0x5108)) (((c.writeReg k v).setF k 29 26 0).f (mg
      0x510C) 11 0) = none → Becomes (.readoutStart v) c (((c.writeReg k v).setF k 29 26 0).setBit k 30 true)) ∧
  (∀ (c : Card) (bad : List Nat) (x : List Byte × Bool × Bool), c.frozen = true → c.bit (mg 0x5100) 30 = true → c.roData (c.f
      (mg 0x5100) 19 16) (c.f (mg 0x5100) 15 0) (c.pair (mg 0x5104) (mg 0x5108)) (c.f (mg 0x510C) 11 0) bad = x → Becomes
      (.readoutDone bad) c ((((({ c.fillRo x.1 with fresh := c.fresh + 2 ^ 32 } : Card).setBit (mg 0x5100) 30 false).setBit (mg
      0x5100) 27 x.2.1).setBit (mg 0x5100) 26 x.2.2))) ∧
  (∀ (c : Card) (v : Word), c.reaches .pf0 0x5110 = true → fld v 31 31 = 1 → c.roGranted = false → Becomes
      (.readoutUnlockRequest v) c (c.askPresence 4 (c.f (mg 0x5100) 19 16) (fun d => d.grantReadout true) (fun d => d.ksEvent 6)
      (fun d => d.setBit (mg 0x5110) 30 true)))

/-- Each clause takes a command of the TAP, under hypotheses on the card and the operands alone, and concludes that the command
answers a next state with the same queue and the card that the clause gives. Commands: JTAG_FREEZE, JTAG_THAW, JTAG_RO_ACCESS,
JTAG_EXTEST, JTAG_SAMPLE_PRELOAD, JTAG_IDCODE, JTAG_BYPASS, TAP_RESET. Where the spec leaves a point open, the clauses follow
the model's own choices: assumption log entry 99. (R442, R562) -/
def Obligations.JtagRowsComplete : Prop :=
  (∀ (c : Card), c.on = true → Becomes .jtagFreeze c (({ c with tap := { c.tap with ir := 0x10 } } : Card).freezeRequest 2)) ∧
  (∀ (c : Card), c.on = true → Becomes .jtagThaw c (({ c with tap := { c.tap with ir := 0x11 } } : Card).thawRequest)) ∧
  (∀ (c : Card) (dr : BitVec 48), c.on = true → nbit dr.toNat 47 = false → Completes (.jtagRoAccess dr) c fun d => d.out = c.out
      ++ [.jtag 48 c.tap.capture] ∧ d.tap.ir = 0x12 ∧ d.regs = c.regs ∧ d.tap.capture % 2 ^ 32 = (if c.bootOpen 0x5000 then
      (c.peek (mg (0x5000 + nbits dr.toNat 43 32 / 4 * 4))).toNat else (regReset (mg (0x5000 + nbits dr.toNat 43 32 / 4 *
      4))).toNat)) ∧
  (∀ (c : Card) (dr : BitVec 48), c.on = true → nbit dr.toNat 47 = true → c.bootOpen 0x5000 = true → Completes (.jtagRoAccess
      dr) c fun d => ∃ x, d =
      ({ ((c.jtagIr 0x12).emit (.jtag 48 c.tap.capture)).draw.draw with tap := { c.tap with ir := 0x12, capture := x } } :
      Card).frzWrite (nbits dr.toNat 43 32) (BitVec.ofNat 32 dr.toNat)) ∧
  (∀ (c : Card) (dr len : Nat), c.on = true → c.frozen = true → Becomes (.jtagExtest dr len) c
      ({ (c.jtagIr 0).jtagPins len with tap := { c.tap with ir := 0, boundary := dr % 2 ^ len } })) ∧
  (∀ (c : Card) (dr len : Nat), c.on = true → c.frozen = false → Becomes (.jtagExtest dr len) c ((c.jtagIr 0).emit (.jtag len (2
      * dr % 2 ^ len)))) ∧
  (∀ (c : Card) (dr len : Nat), c.on = true → Becomes (.jtagSamplePreload dr len) c
      ({ (c.jtagIr 1).jtagPins len with tap := { c.tap with ir := 1, boundary := dr % 2 ^ len } })) ∧
  (∀ (c : Card), c.on = true → Becomes .jtagIdcode c
      ({ c with tap := { c.tap with ir := 2 }, out := c.out ++ [.jtag 32 0x1464013D] })) ∧
  (∀ (c : Card) (dr len : Nat), c.on = true → Becomes (.jtagBypass dr len) c
      ({ c with tap := { c.tap with ir := 0xFF }, out := c.out ++ [.jtag len (2 * dr % 2 ^ len)] })) ∧
  (∀ (c : Card), Becomes .tapReset c ({ c with tap := { c.tap with ir := 2 } }))

/-- Each clause takes an event of the power inputs or of the governor, under hypotheses on the card and the operands alone, and
concludes that the command answers a next state with the same queue and the card that the clause gives. Commands:
START_ACKNOWLEDGED, BALLAST_DECAY_TICK, SLOPE_EXCEEDED, BACKFEED_BLOCKED, UV_WARN, SENSE_CHANGED, AUX_CABLE_CONNECT,
AUX_QUALIFY_EXPIRY, AUX_POWER_LOST, SLOT_POWER_LOST, SLOT_12V_RISE, SUPPLY_LIMITER_TRIP, OUTWARD_SUPPLY_ENABLE_WRITE,
DAUGHTERBOARD_FITTED, DAUGHTERBOARD_REMOVED. Where the spec leaves a point open, the clauses follow the model's own choices:
assumption log entries 75 to 80. (R453, R455, R456, R460, R462, R463, R465, R466, R470, R471, R566) -/
def Obligations.PowerRowsComplete : Prop :=
  (∀ (c : Card) (x : GovStart) (s : Card), s = c.settleB → s.gov.head = some x → s.live = true → s.admits x = true → s.overLimit
      (s.weight x.load) = false → s.weight x.load ≤ s.gov.b → Becomes .startAcknowledged c ((s.settleB.acknowledge x).govFlags)) ∧
  (∀ (c : Card) (p : PowerSense), c.on = true → c.coreOff = false → Completes (.ballastDecayTick p) c fun d => d.reg (mg 0x110C)
      = BitVec.ofNat 32 (min 65535 p.auxCa * 2 ^ 16 + min 65535 p.slotCa) ∧ d.gov.est = p.powerMw * 100 * caUnit ∧ (c.bit (mg
      0x1108) 23 = true ∨ c.frozen = true → d.gov.b = ((c.setN (mg 0x110C) (min 65535 p.auxCa * 2 ^ 16 + min 65535
      p.slotCa)).setF (mg 0x1108) 15 0 (min 65535 p.nodeMv)).ballast)) ∧
  (∀ (c : Card), c.on = true → c.coreOff = false → Completes .slopeExceeded c fun d => d.gov.hold = true ∧ d.gov.steady = 0) ∧
  (∀ (c : Card), c.on = true → Becomes .backfeedBlocked c (c.event 0x1114 4 11)) ∧
  (∀ (c : Card) (mv : Nat), c.on = true → mv < 11400 → Becomes (.uvWarn mv) c ((c.setF (mg 0x1108) 15 0 mv).event 0x1114 2 11)) ∧
  (∀ (c : Card), c.on = true → c.pin.cable.isSome = true → Becomes .senseChanged c (c.event 0x1114 3 11)) ∧
  (∀ (c : Card) (sense : Fin 4), c.pin.cable = none → c.on = true → Completes (.auxCableConnect sense) c fun d => d.pin.cable =
      some sense.val ∧ d.bit (mg 0x0028) 0 = true ∧ d.bit (mg 0x1108) 25 = true) ∧
  (∀ (c : Card) (sense : Fin 4), c.pin.cable = none → c.on = false → Becomes (.auxCableConnect sense) c
      ({ c with pin := { c.pin with cable := some sense.val } })) ∧
  (∀ (c : Card) (t cap : Nat), c.pin.qualFrom = some t → c.pin.cable = some cap → c.on = true → Completes .auxQualifyExpiry c
      fun d => d.f (mg 0x1108) 31 29 = 1 ∧ d.f (mg 0x1108) 27 26 = cap % 4 ∧ d.avs.pending = some 700 ∧ d.pin.qualFrom = none) ∧
  (∀ (c : Card) (gone : Bool), c.pin.cable.isSome = true → c.on = true → c.f (mg 0x1108) 31 29 = 1 → c.coreOff = false →
      Completes (.auxPowerLost gone) c fun d => d.f (mg 0x1108) 31 29 = 2 ∧ d.coreOff = true) ∧
  (∀ (c : Card), Completes .slotPowerLost c fun d => d.on = false ∧ d.clk = {} ∧ d.keep.banks = c.keep.banks ∧ d.blown =
      c.blown) ∧
  (∀ (c : Card), Becomes .slot12vRise c ({ c with pin := { c.pin with slot12 := true } })) ∧
  (∀ (c : Card) (i : Fin 3), c.bit (mg 0x1134) (8 + i.val) = true → Completes (.supplyLimiterTrip i) c fun d => d.bit (mg
      0x1134) (16 + i.val) = true ∧ d.bit (mg 0x1114) 7 = true) ∧
  (∀ (c : Card) (v : Word), c.reaches .pf0 0x1134 = true → Becomes (.outwardSupplyEnableWrite v) c (([0, 1, 2].foldl (fun (d :
      Card) i => d.writeEn i (fld v i i == 1)) (c.writeReg (mg 0x1134) v)).checkSupplies)) ∧
  (∀ (c : Card), Becomes .daughterboardFitted c ((c.setBit (mg 0x0028) 1 true).checkSupplies)) ∧
  (∀ (c : Card), Becomes .daughterboardRemoved c (((hampers.foldl (fun (d : Card) h => if (d.portOf h).isSome && d.bit (mg
      0x0028) 1 then d.setLink h false false 0 else d) c).setBit (mg 0x0028) 1 false).checkSupplies))

/-- Each clause takes a sample of a sensor, or what follows from one, under hypotheses on the card and the operands alone, and
concludes that the command answers a next state with the same queue and the card that the clause gives. Commands:
HUB_SENSOR_SAMPLE, WARMING_TICK, AIRFLOW_UPDATE, WARM_RECHECK. Where the spec leaves a point open, the clauses follow the
model's own choices: assumption log entry 81. (R475, R478, R480, R494) -/
def Obligations.ThermalRowsComplete : Prop :=
  (∀ (c : Card) (ts : List (Option Int)) (s1 : Card), c.on = true → c.coreOff = false → s1 = (List.range 10).foldl (fun (d :
      Card) i => d.setSensor i (hubValid (ts.getD i none))) c → s1.junction = none → Becomes (.hubSensorSample ts) c ((s1.trip
      (s1.freeN % 256) (8 * ((Config.freeNat (s1.fresh + 1) % 256 : Nat) : Int))).draw.draw)) ∧
  (∀ (c : Card) (ts : List (Option Int)) (s1 : Card) (i j : Nat) (t8 v : Int), c.on = true → c.coreOff = false → s1 =
      (List.range 10).foldl (fun (d : Card) i => d.setSensor i (hubValid (ts.getD i none))) c → s1.junction = some (i, t8) →
      -((-t8) / 8) ≤ sint 8 (s1.f (mg 0x201C) 7 0) → ((s1.setF (mg 0x2000) 31 24 (toBits 8 (-((-t8) / 8)))).setF (mg 0x2000) 23
      16 i).hottest = some (j, v) → v < 960 → Becomes (.hubSensorSample ts) c (((s1.setF (mg 0x2000) 31 24 (toBits 8 (-((-t8) /
      8)))).setF (mg 0x2000) 23 16 i).stageFor (-((-t8) / 8)))) ∧
  (∀ (c : Card) (mw : Nat), c.on = true → Completes (.warmingTick mw) c fun d => d.gov.energyUj = (c.gov.energyUj + mw) % 1000 ∧
      d.pair (mg 0x1128) (mg 0x112C) = (c.pair (mg 0x1128) (mg 0x112C) + (c.gov.energyUj + mw) / 1000) % 2 ^ 64) ∧
  (∀ (c : Card), c.on = true → Becomes .airflowUpdate c (c.setF (mg 0x2000) 6 0 c.airRequest)) ∧
  (∀ (c : Card), c.on = true → c.coreOff = false → c.bit (mg 0x4000) 31 = true → c.bit (mg 0x4000) 30 = false → c.bit (mg
      0x4000) 29 = false → 85 ≤ c.tj → Becomes (.warmRecheck []) c (hampers.foldl (fun (d : Card) h => (d.settleRetries
      h).settleGroups h) (c.setBit (mg 0x4000) 30 true).countMargins.setUnits))

/-- Each clause takes a command of the keep store, of physical presence or of the fuses, under hypotheses on the card and the
operands alone, and concludes that the command answers a next state with the same queue and the card that the clause gives.
Commands: KEEP_STORE, CLEAR_RETIRE, RESTAGE, ABANDON, KS_BAD_COMMAND, INTERNAL_STORE, STORE_COMMIT, KS_STAGING_ACCESS,
BUTTON_PRESS, JUMPER_FITTED, PRESENCE_TIMEOUT, FUSE_PROGRAM, FUSE_PROGRAM_DONE, SEAL_BREAK. Where the spec leaves a point
open, the clauses follow the model's own choices: assumption log entries 82 to 89. (R490, R491, R496, R498, R500, R501, R507) -/
def Obligations.KeepRowsComplete : Prop :=
  (∀ (c : Card) (v : Word), c.reaches .pf0 0x3000 = true → fld v 31 31 = 1 → fld v 3 0 = 1 → c.bit (mg 0x3004) 31 = false →
      Becomes (.keepStore v) c ((c.writeReg (mg 0x3000) v).beginHostStore 1)) ∧
  (∀ (c : Card) (v : Word), c.reaches .pf0 0x3000 = true → fld v 31 31 = 1 → fld v 3 0 = 3 → c.bit (mg 0x3004) 31 = false →
      Becomes (.clearRetire v) c ((c.writeReg (mg 0x3000) v).beginHostStore 3)) ∧
  (∀ (c : Card) (v : Word), c.reaches .pf0 0x3000 = true → fld v 31 31 = 1 → fld v 3 0 = 2 → c.bit (mg 0x3004) 31 = false →
      Completes (.restage v) c fun d => d.keep.staging = (c.writeReg (mg 0x3000) v).currentImage ∧ d.f (mg 0x3004) 27 24 = 0 ∧
      d.bit (mg 0x3004) 31 = false ∧ d.bit (mg 0x301C) 0 = true) ∧
  (∀ (c : Card) (v : Word), c.reaches .pf0 0x3000 = true → fld v 31 31 = 1 → fld v 3 0 = 4 → c.bit (mg 0x3004) 31 = true → c.bit
      (mg 0x3004) 30 = true → c.presence.any (fun w => w.op == 1 || w.op == 2) = true → Completes (.abandon v) c fun d =>
      d.presence = none ∧ d.f (mg 0x3004) 27 24 = 6 ∧ d.bit (mg 0x3004) 31 = false ∧ d.keep.host = none) ∧
  (∀ (c : Card) (v : Word), c.reaches .pf0 0x3000 = true → fld v 31 31 = 1 → (¬ (1 ≤ fld v 3 0 ∧ fld v 3 0 ≤ 4)) → c.bit (mg
      0x3004) 31 = false → Becomes (.ksBadCommand v) c ((c.writeReg (mg 0x3000) v).ksEnd 7)) ∧
  (∀ (c : Card) (t : Nat), c.keepLoaded = true → c.keep.dirty = some t → c.keep.own = none → c.keep.host = none → Completes
      .internalStore c fun d => d.keep.dirty = none ∧ d.keep.own.map (fun j => j.image) = some (some (c.otherBank, ksBuild
      c.nextGen ((c.keep.recs.sections 0).foldl (fun l s => ksPut s l) (ksList c.currentImage))))) ∧
  (∀ (c : Card) (j : KsJob) (x : Nat × List Byte), c.on = true → c.keep.own = some j → j.image = some x → c.keep.host = none →
      Completes (.storeCommit true) c fun d => d.keep.own = none ∧ (tabGet {} d.keep.banks x.1).data = x.2 ∧ d.bit (mg 0x301C) 2
      = true) ∧
  (∀ (c : Card) (v : Word), c.reaches .pf0 0x3018 = true → c.bit (mg 0x3014) 16 = false → c.bit (mg 0x3004) 31 = false → Becomes
      (.ksStagingAccess (some v)) c
      (({ c with keep := { c.keep with staging := imgPut c.keep.staging (c.f (mg 0x3014) 15 0) v } } : Card).setF (mg 0x3014) 15
      0 ((c.f (mg 0x3014) 15 0 + 4) % 65536))) ∧
  (∀ (c : Card), c.claims .pf0 = true → c.bootOpen 0x3018 = true → Becomes (.ksStagingAccess none) c ((c.emit (.readData 0
      0x3018 (leBytes 4 (imgWord (if c.bit (mg 0x3014) 16 then c.currentImage else c.keep.staging) (c.f (mg 0x3014) 15
      0))))).setF (mg 0x3014) 15 0 ((c.f (mg 0x3014) 15 0 + 4) % 65536))) ∧
  (∀ (c : Card), c.on = true → c.presence = none → Becomes (.buttonPress true) c
      (({ c with pin := { c.pin with button := true } } : Card).bump (mg 0x3024) 1)) ∧
  (∀ (c : Card) (w : PresWindow), c.on = true → c.presence = some w → Becomes (.buttonPress true) c
      (({ c with pin := { c.pin with button := true } } : Card).grantWindow 1)) ∧
  (∀ (c : Card), Becomes (.buttonPress false) c ({ c with pin := { c.pin with button := false } })) ∧
  (∀ (c : Card), c.on = true → Becomes (.jumperFitted true) c (({ c with pin := { c.pin with jumper := true } } :
      Card).grantWindow 2)) ∧
  (∀ (c : Card), Becomes (.jumperFitted false) c ({ c with pin := { c.pin with jumper := false } })) ∧
  (∀ (c : Card) (w : PresWindow), c.presence = some w → c.on = true → w.op = 1 → Becomes .presenceTimeout c ((((c.advanceTo
      (w.since + 30000000000)).endPresence.presenceLog w.op 0 2 w.detail).ksEvent 4).ksEnd 3)) ∧
  (∀ (c : Card) (v : Word), c.reaches .pf0 0x4018 = true → fld v 31 31 = 1 → c.bit (mg 0x4018) 30 = false → c.bit (mg 0x4018) 29
      = false → c.stage ≠ 2 → programmable (c.f (mg 0x4010) 6 0) = true → Becomes (.fuseProgram v) c
      (({ c with fuseJob := some ⟨c.f (mg 0x4010) 6 0, (c.reg (mg 0x4014)).toNat⟩ } : Card).askPresence 3 (c.f (mg 0x4010) 6 0)
      (fun d => d.startFuse) (fun d => d.fuseEnd 4) (fun d => d.setBit (mg 0x4018) 29 true))) ∧
  (∀ (c : Card) (solid : Word) (j : FuseJob), c.fuseJob = some j → c.on = true → c.bit (mg 0x4018) 30 = true → Becomes
      (.fuseProgramDone solid) c ((c.blow j.word (BitVec.ofNat 32 j.blow)).fuseEnd (if BitVec.ofNat 32 j.blow &&& ~~~ solid = 0
      then 0 else 5))) ∧
  (∀ (c : Card), c.pin.sealOpen = false → c.keepLoaded = true → c.board.up = false → Becomes .sealBreak c
      (({ c with pin := { c.pin with sealOpen := true } } : Card).recordSeal))

/-- Each clause takes a stage of bring-up, in its turn, under hypotheses on the card and the operands alone, and concludes that
the command answers a next state with the same queue and the card that the clause gives. Commands: POWER_GOOD,
REGULATOR_RETRY, FUSE_READ, KEEP_LOAD, MEM_DELAYS, MEM_READY, LAYOUT_DEFAULT, HAMPERS_READY, CONVENTIONAL_RESET, HOT_RESET.
Where the spec leaves a point open, the clauses follow the model's own choices: assumption log entries 83, 90, 92, 93, 107 and
125. (R508, R509, R510, R511, R515, R520, R521, R522) -/
def Obligations.BringUpRowsComplete : Prop :=
  (∀ (c : Card), c.on = false → c.pin.slot12 = true → Completes .powerGood c fun d => d.on = true ∧ d.stage = 0 ∧ d.clk = {}) ∧
  (∀ (c : Card), c.on = true → c.stage = 0 → c.f (mg 0x1108) 31 29 = 1 → c.avs.up = false → Becomes .regulatorRetry c ((c.event
      0x100C 1 1).bootVoltage)) ∧
  (∀ (c : Card), c.on = true → c.stage = 0 → c.f (mg 0x1108) 31 29 = 1 → c.avs.up = true → c.tooHot = false → Completes
      .fuseRead c fun d => d.stage = 1 ∧ d.pin.hot = false) ∧
  (∀ (c : Card), c.on = true → c.coreOff = false → c.stage = 1 → c.pin.sealOpen = false → Completes (.keepLoad []) c fun d =>
      d.stage = 3 ∧ d.bit (mg 0x4000) 31 = true ∧ d.keep.recs.powerOn = wrap32 (((c.enterStage 3).loadBanks).keep.recs.powerOn +
      1)) ∧
  (∀ (c : Card) (rs : List ModuleResult), c.on = true → c.coreOff = false → c.stage = 3 → Completes (.memDelays rs) c fun d =>
      d.stage = 4) ∧
  (∀ (c : Card), c.on = true → c.coreOff = false → c.stage = 4 → Completes .memReady c fun d => d.stage = 5 ∧ d.cache = []) ∧
  (∀ (c : Card), c.live = true → c.stage = 5 → Becomes .layoutDefault c (hampers.foldl (fun (d : Card) h => d.checkDefault h)
      (c.enterStage 6))) ∧
  (∀ (c : Card), c.live = true → c.stage = 6 → hampers.any (fun h => [FnPhase.starting, FnPhase.filling].contains (c.fnOf (h +
      1)).phase && (c.fnOf (h + 1)).cause == 4) = false → Completes .hampersReady c fun d => d.stage = 7 ∧ d.winAt = c.ns) ∧
  (∀ (c : Card), c.on = true → Completes .conventionalReset c fun d => d.on = true ∧ d.stage = 0 ∧ d.clk = {} ∧ d.keep.banks =
      c.keep.banks ∧ d.blown = c.blown ∧ d.mem = []) ∧
  (∀ (c : Card), c.on = true → Completes .hotReset c fun d => d.cfg = []) ∧
  (∀ (c : Card) (h : Nat), c.live = true → hampers.filter (fun g => (c.fnOf (g + 1)).phase == .ready) = [h] → Completes
      .hotReset c fun d => (d.fnOf (h + 1)).phase = .draining)

/-- Each clause takes an event of a Dravaz port, under hypotheses on the card and the operands alone, and concludes that the
command answers a next state with the same queue and the card that the clause gives. Commands: REMOTE_WRITE_ACK,
REMOTE_TIMEOUT, DRAVAZ_CABLE_DETECT, LINK_TRAINED, LINK_RETRAIN, PORT_RETRAIN, LINK_DOWN_TIMEOUT, DRAVAZ_PACKET_RECEIVED,
REMOTE_REQUEST_RECEIVED, MESSAGE_RECEIVED, MSG_RING_ENABLE, MSG_HEAD_WRITE, WINDOW_CTL_WRITE. Where the spec leaves a point
open, the clauses follow the model's own choices: assumption log entries 52 and 119. (R133, R145, R528, R529, R532, R534,
R535, R538) -/
def Obligations.LinkRowsComplete : Prop :=
  (∀ (c : Card) (p : Fin 2) (x : Remote), c.remotes.find? (fun y => y.id == x.id && y.port == p.val && y.kind == 1 && y.sent) =
      some x → Becomes (.remoteWriteAck p x.id) c (({ c with remotes := c.remotes.filter (fun y => y.id != x.id) } :
      Card).pumpPort x.port)) ∧
  (∀ (c : Card) (x : Remote), c.remotes.find? (fun y => y.id == x.id && y.sent) = some x → c.live = true → Becomes
      (.remoteTimeout x.id) c (((c.advanceTo (x.since + 1000000 * c.f (portReg x.port 8) 15 0)).bump (portReg x.port 0x18)
      1).remoteFail x 0x95)) ∧
  (∀ (c : Card) (p : Fin 2), Becomes (.dravazCableDetect p true) c ((((c.setBit (mg 0x0028) (2 + p.val)
      true).checkSupplies).trainPort p.val))) ∧
  (∀ (c : Card) (p : Fin 2), Completes (.dravazCableDetect p false) c fun d => d.f (portReg p.val 4) 2 0 = 0 ∧ d.bit (mg 0x0028)
      (2 + p.val) = false) ∧
  (∀ (c : Card) (p : Fin 2) (card : Fin 8) (q : Fin 2), c.on = true → c.portState p.val = 1 → c.cable p.val = true → c.bit
      (portReg p.val 0) 31 = true → card.val ≠ c.f (mg 0xA000) 2 0 → (c.port p.val).peer = none → (c.port p.val).unacked = [] →
      Becomes (.linkTrained p card q) c (((((c.setN (portReg p.val 4) (q.val * 2 ^ 12 + card.val * 2 ^ 8 + 2)).setPort p.val
      { c.port p.val with peer := some (card.val, q.val), leftUp := none }).portEvent p.val 0).pumpPort p.val))) ∧
  (∀ (c : Card) (p : Fin 2) (card : Fin 8) (q : Fin 2), c.on = true → c.portState p.val = 1 → c.cable p.val = true → c.bit
      (portReg p.val 0) 31 = true → card.val = c.f (mg 0xA000) 2 0 → Becomes (.linkTrained p card q) c ((c.setF (portReg p.val
      4) 2 0 1).portEvent p.val 5)) ∧
  (∀ (c : Card) (p : Fin 2), c.portState p.val = 2 → Becomes (.linkRetrain p) c (((((c.setPort p.val
      { c.port p.val with leftUp := some c.ns }).setF (portReg p.val 4) 2 0 3).bump (portReg p.val 0x10) 1).portEvent p.val 2))) ∧
  (∀ (c : Card) (p : Fin 2) (v : Word), c.reaches .pf0 (0xA100 + 0x100 * p.val) = true → fld v 30 30 = 1 → Becomes (.portRetrain
      p v) c ((c.writeReg (portReg p.val 0) v).retrain p.val)) ∧
  (∀ (c : Card) (p : Fin 2) (t : Nat), (c.port p.val).leftUp = some t → Becomes (.linkDownTimeout p) c (((((c.advanceTo (t +
      1000000 * c.f (portReg p.val 8) 31 16)).setPort p.val { c.port p.val with leftUp := none }).setF (portReg p.val 4) 2 0
      4).portEvent p.val 1).portFail p.val)) ∧
  (∀ (c : Card) (p : Fin 2) (pk : DvPacket), c.on = true → c.portUp p.val = true → pk.good = true → pk.ack = none → pk.replay =
      none → (c.port p.val).unacked = [] → pk.seq % 4096 = (c.port p.val).rx → pk.body = .empty → Completes
      (.dravazPacketReceived p pk) c fun d => (d.port p.val).rx = ((c.port p.val).rx + 1) % 4096 ∧ d.out = c.out ++ [.link p.val
      8 [pk.seq % 4096] []]) ∧
  (∀ (c : Card) (p : Fin 2) (pk : DvPacket), c.on = true → c.portUp p.val = true → pk.good = false → Becomes
      (.dravazPacketReceived p pk) c (c.emit (.link p.val 9 [(c.port p.val).rx] []))) ∧
  (∀ (c : Card) (p : Fin 2) (q : RemoteReq) (n x : Nat) (e : RegionEnt), c.live = true → n =
      (match q.wdata with | some b => b.length | none => q.len) → c.windowHit p.val q.window.val q.off n q.wdata.isSome = some
      (e, x) → c.spanHeld e x n = false → Becomes (.remoteRequestReceived p q) c (c.serveRemote p.val q.id e x n q.wdata)) ∧
  (∀ (c : Card) (p : Fin 2) (q : RemoteReq) (n x : Nat) (e : RegionEnt), c.live = true → n =
      (match q.wdata with | some b => b.length | none => q.len) → c.windowHit p.val q.window.val q.off n q.wdata.isSome = some
      (e, x) → c.spanHeld e x n = true → Becomes (.remoteRequestReceived p q) c
      ({ c with heldAcc := c.heldAcc ++ [{ fnNum := 0, hamper := 0, region := e.num, off := x, len := n, wdata := q.wdata, remote := some (p.val, q.id) }] })) ∧
  (∀ (c : Card) (p : Fin 2) (q : RemoteReq) (n : Nat), c.live = true → n =
      (match q.wdata with | some b => b.length | none => q.len) → c.windowHit p.val q.window.val q.off n q.wdata.isSome = none →
      Becomes (.remoteRequestReceived p q) c (c.denyRemote p.val q.id)) ∧
  (∀ (c : Card) (p : Fin 2) (m : DvMessage), c.live = true → c.bit (portReg p.val 0x30) 31 = true → c.msgFull p.val = false →
      (c.port p.val).held = [] → Becomes (.messageReceived p m) c (c.putMessage p.val
      { id := m.id, card := m.card.val, hamper := m.hamper.val, tag := m.tag, sent := m.sent, data := m.data.take 256 })) ∧
  (∀ (c : Card) (p : Fin 2) (v : Word) (e : RegionEnt), c.reaches .pf0 (0xA130 + 0x100 * p.val) = true → fld v 31 31 = 1 → c.bit
      (portReg p.val 0x30) 31 = false → (c.writeReg (portReg p.val 0x30) v).msgRegionOk p.val = some e → Completes
      (.msgRingEnable p v) c fun d => d.bit (portReg p.val 0x30) 31 = true ∧ d.reg (portReg p.val 0x38) = 0 ∧ d.reg (portReg
      p.val 0x3C) = 0) ∧
  (∀ (c : Card) (p : Fin 2) (v : Word), c.reaches .pf0 (0xA138 + 0x100 * p.val) = true → diff32 (c.reg (portReg p.val
      0x3C)).toNat v.toNat ≤ 2 ^ c.f (portReg p.val 0x30) 4 0 → (c.port p.val).held = [] → Becomes (.msgHeadWrite p v) c
      (c.setReg (portReg p.val 0x38) v)) ∧
  (∀ (c : Card) (p : Fin 2) (w : Fin 64) (v : Word), c.reaches .pf0 (0xA400 + 0x400 * p.val + 16 * w.val) = true → (c.regionOf
      (fld v 7 0)).any (fun x => !x.2.picture) = true → Completes (.windowCtlWrite p w v) c fun d => d.reg (winReg p.val w.val)
      = BitVec.ofNat 32 (v.toNat &&& 0xEFFF00FF)) ∧
  (∀ (c : Card) (p : Fin 2) (w : Fin 64) (v : Word), c.reaches .pf0 (0xA400 + 0x400 * p.val + 16 * w.val) = true → (c.regionOf
      (fld v 7 0)).any (fun x => !x.2.picture) = false → Becomes (.windowCtlWrite p w v) c (c.bump (portReg p.val 0x1C) 1))

/-- Each clause takes a command or an event of the board controller, under hypotheses on the card and the operands alone, and
concludes that the command answers a next state with the same queue and the card that the clause gives. Commands:
BOARD_HUB_POLL, BOARD_SENSOR_POLL, IDENTIFY_TICK, SMBUS_READ_BYTE, SMBUS_READ_WORD, SMBUS_BLOCK_READ, SMBUS_WRITE_BYTE,
CLEAR_PEAK, SMBUS_TIMEOUT, SMBUS_UNSUPPORTED_TRANSACTION, AUX_3V3_LOST, AUX_3V3_GOOD. Where the spec leaves a point open, the
clauses follow the model's own choices: assumption log entries 23, 102 and 103. (R546, R547, R548, R551, R553) -/
def Obligations.BoardRowsComplete : Prop :=
  (∀ (c : Card), c.board.up = true → c.on = true → Becomes .boardHubPoll c
      ({ c with board := ((c.boardRead { c.board with link := true, missed := 0 }).edges c.board).airflow })) ∧
  (∀ (c : Card), c.board.up = true → c.on = false → c.board.missed < 2 → Becomes .boardHubPoll c
      ({ c with board := ({ c.board with missed := c.board.missed + 1 } : Board).airflow })) ∧
  (∀ (c : Card) (p : BoardSense), c.board.up = true → Completes (.boardSensorPoll p) c fun d => d.board.nodeMv = min 65535
      p.nodeMv ∧ d.board.slotCa = min 65535 p.slotCa ∧ d.board.auxCa = min 65535 p.auxCa ∧ d.board.peakDw = max c.board.peakDw
      (min 65535 (p.nodeMv * (p.slotCa + p.auxCa) / 10000))) ∧
  (∀ (c : Card), c.board.up = true → Becomes .identifyTick c ({ c with board := { c.board with ident := c.board.ident - 1 } })) ∧
  (∀ (c : Card) (code : Fin 256) (v : Nat), c.board.up = true → c.boardReg code.val = some (.byte v) → code.val ≠ 0x42 → Becomes
      (.smbusReadByte code) c ((c.smbusAnswer code.val (leBytes 1 v)).draw)) ∧
  (∀ (c : Card) (v : Nat), c.board.up = true → c.boardReg 0x42 = some (.byte v) → Becomes (.smbusReadByte 0x42) c
      ({ (c.smbusAnswer 0x42 (leBytes 1 v)).draw with board := { c.board with badPec := 0, badWrites := 0 } })) ∧
  (∀ (c : Card) (code : Fin 256) (v : Nat), c.board.up = true → c.boardReg code.val = some (.word v) → Becomes (.smbusReadWord
      code) c ((c.smbusAnswer code.val (leBytes 2 v)).draw)) ∧
  (∀ (c : Card) (code : Fin 256) (n v : Nat), c.board.up = true → c.boardReg code.val = some (.block n v) → Becomes
      (.smbusBlockRead code) c ((c.smbusAnswer code.val (leBytes 1 n ++ leBytes n v)).draw.draw)) ∧
  (∀ (c : Card) (code : Fin 256) (v : Byte), c.board.up = true → c.board.pecReq = false → Becomes (.smbusWriteByte code v none)
      c ((c.emit (.smbus true [])).boardWrite code.val v.toNat)) ∧
  (∀ (c : Card) (code : Fin 256) (v : Byte), c.board.up = true → c.board.pecReq = true → Becomes (.smbusWriteByte code v none) c
      ({ c.emit (.smbus true []) with board := { c.board with badPec := min 15 (c.board.badPec + 1) } })) ∧
  (∀ (c : Card) (v : Byte), c.board.up = true → c.board.pecReq = false → nbit v.toNat 7 = true → Becomes (.clearPeak none v) c
      ({ c.emit (.smbus true []) with board := { c.board with pecReq := nbit v.toNat 0, peakDw := c.board.nodeDw } })) ∧
  (∀ (c : Card), Becomes .smbusTimeout c (c)) ∧
  (∀ (c : Card) (code : Fin 256), Becomes (.smbusUnsupportedTransaction code) c (c.emit (.smbus false []))) ∧
  (∀ (c : Card), Becomes .aux3v3Lost c ({ c with board := {} })) ∧
  (∀ (c : Card), c.board.up = false → Becomes .aux3v3Good c ({ c with board := { up := true } }))

/-- Each clause takes an operation of a mover whose fields are in range and whose pages pass, under hypotheses on the card and the
operands alone, and concludes that the command answers a next state with the same queue and the card that the clause gives.
Commands: MOVE_FILL, MOVE_COPY, MOVE_UNBACK, SEND, MOVE_COMMIT. Where the spec leaves a point open, the clauses follow the
model's own choices: assumption log entries 44, 115 and 117. (R149, R278, R539) -/
def Obligations.MoverRowsComplete : Prop :=
  (∀ (c : Card) (h : Fin 4) (r : Fin 16) (seq : Nat) (c0 d : Card) (o o' : Op), c.takenUp h.val r.val seq 5 2 = some (c0, o) →
      o.plain → 0 < leAt o.body 0x10 8 → leAt o.body 0x10 8 ≤ 2 ^ 40 → leAt o.body 0xC 4 = 0 → leAt o.body 0x18 8 = 0 →
      c0.passes h.val o.ctx (leAt o.body 0 8) (leAt o.body 0x10 8) true false → WritesTo h.val r.val ((chunks (leAt o.body 0x10
      8)).map (fun k => (leAt o.body 0 8 + k.1, (List.range k.2).map (fun i => ((o.body.drop 8).take 4).getD (i % 4) 0)))) (c0,
      o) (d, o') → Finishes (.moveFill h r seq) c h.val r.val d o') ∧
  (∀ (c : Card) (h : Fin 4) (r : Fin 16) (seq : Nat) (c0 d : Card) (o o' : Op) (src dst n : Nat), c.takenUp h.val r.val seq 5 1
      = some (c0, o) → o.plain → src = leAt o.body 0 8 → dst = leAt o.body 8 8 → n = leAt o.body 0x10 8 → 0 < n → n ≤ 2 ^ 40 →
      leAt o.body 0x18 8 = 0 → c0.passes h.val o.ctx src n false false → c0.copyStays h.val o.ctx src dst n → c0.passes h.val
      o.ctx dst n true false → c0.atHand h.val o src n → (src = dst ∨ rangesMeet src n dst n = false) → CopiesTo h.val r.val src
      dst (chunks n) (c0, o) (d, o') → Finishes (.moveCopy h r seq) c h.val r.val d o') ∧
  (∀ (c : Card) (h : Fin 4) (r : Fin 16) (seq : Nat) (c0 : Card) (o : Op) (dst n : Nat), c.takenUp h.val r.val seq 5 3 = some
      (c0, o) → o.plain → dst = leAt o.body 0 8 → n = leAt o.body 0x10 8 → 0 < n → n ≤ 2 ^ 40 → leAt o.body 8 8 = 0 → leAt
      o.body 0x18 8 = 0 → dst % 65536 = 0 → n % 65536 = 0 → (∀ p ∈ pagesOf dst n, ∃ l, c0.translate h.val o.ctx p = .ok l ∧
      l.sparse = true ∧ (c0.regionOf l.atRegion).any (fun e => c0.spanHeld e.2 l.atOff 8) = false) → Finishes (.moveUnback h r
      seq) c h.val r.val ((pagesOf dst n).foldl (fun d p => d.unbackPage h.val o.ctx r.val p) c0) o) ∧
  (∀ (c : Card) (h : Fin 4) (r : Fin 16) (seq : Nat) (c0 d : Card) (o : Op) (src port n : Nat) (bs : List Byte), c.takenUp h.val
      r.val seq 5 0x21 = some (c0, o) → o.plain → src = leAt o.body 0 8 → port = leAt o.body 8 1 → n = leAt o.body 0x10 8 → port
      ≤ 1 → leAt o.body 9 7 = 0 → 1 ≤ n → n ≤ 256 → c0.passes h.val o.ctx src n false true → ReadsTo h.val o [(src, n)] c0 [bs]
      d → c0.portDown port = false → Finishes (.send h r seq) c h.val r.val (d.sendRemote h.val r.val o port 2 [n, d.f (mg
      0xA000) 2 0, h.val, leAt o.body 0x18 8, o.at_] bs 0 0 n) o) ∧
  (∀ (c : Card) (h : Fin 4) (r : Fin 16) (seq : Nat) (c0 : Card) (o : Op) (addr k : Nat), c.takenUp h.val r.val seq 5 0x20 =
      some (c0, o) → o.plain → addr = leAt o.body 0 8 → k = leAt o.body 8 1 → leNat (o.body.drop 9) = 0 → (c0.portOf
      h.val).isSome = true → c0.bit (mg 0x28) 1 = true → k < 4 → c0.bit (vcReg h.val k 0) 31 = true → (c0.vcCfg h.val k).ctx =
      o.ctx → (addr = 0 ∨ c0.bufferOk h.val (c0.vcCfg h.val k) addr = true) → Finishes (.moveCommit h r seq) c h.val r.val
      (c0.commit h.val k addr) o)

/-- Each clause takes a STAGE operation whose fields are in range and whose source is at hand, under hypotheses on the card and
the operands alone, and concludes that the command answers a next state with the same queue and the card that the clause
gives. Commands: STAGE_ROWS, STAGE_WEIGHTS, STAGE_CONV. Where the spec leaves a point open, the clauses follow the model's own
choices: assumption log entries 39 and 40. (R317, R322) -/
def Obligations.StageRowsComplete : Prop :=
  (∀ (c : Card) (h : Fin 4) (r : Fin 16) (seq : Nat) (c0 d : Card) (o : Op) (src dst pitch m k lanes fl : Nat) (rows : List
      (List Byte)), c.takenUp h.val r.val seq 5 0x10 = some (c0, o) → o.plain → src = leAt o.body 0 8 → dst = leAt o.body 8 4 →
      pitch = leAt o.body 0xC 4 → m = leAt o.body 0x10 2 → k = leAt o.body 0x12 2 → lanes = leAt o.body 0x14 2 → fl = leAt
      o.body 0x16 1 → 1 ≤ m → m ≤ 4096 → lanesOk lanes = true → 1 ≤ k → k ≤ lanes → fl &&& 0xFA = 0 → leNat (o.body.drop 0x17) =
      0 → dst % 64 = 0 → dst + (m + lanes - 1) * lanes * stElem fl ≤ (c0.staging h.val).2 → c0.sourceOk h.val o (stSrc fl)
      ((List.range m).map (fun i => (src + i * pitch, k * stElem fl))) → SourceTo h.val o (stSrc fl) ((List.range m).map (fun i
      => (src + i * pitch, k * stElem fl))) c0 rows d → Finishes (.stageRows h r seq) c h.val r.val (d.stWrite h.val dst 0
      (skewed (stElem fl) lanes m rows)) o) ∧
  (∀ (c : Card) (h : Fin 4) (r : Fin 16) (seq : Nat) (c0 d : Card) (o : Op) (src dst pitch k n ra ca fl : Nat) (rows : List
      (List Byte)), c.takenUp h.val r.val seq 5 0x11 = some (c0, o) → o.plain → src = leAt o.body 0 8 → dst = leAt o.body 8 4 →
      pitch = leAt o.body 0xC 4 → k = leAt o.body 0x10 2 → n = leAt o.body 0x12 2 → ra = leAt o.body 0x14 2 → ca = leAt o.body
      0x16 2 → fl = leAt o.body 0x18 1 → lanesOk ra = true → (ca = 64 ∨ ca = 128) → 1 ≤ k → k ≤ ra → 1 ≤ n → n ≤ ca → fl &&&
      0xFA = 0 → leNat (o.body.drop 0x19) = 0 → dst % 64 = 0 → dst + ra * ca * stElem fl ≤ (c0.staging h.val).2 → c0.sourceOk
      h.val o (stSrc fl) ((List.range k).map (fun i => (src + i * pitch, n * stElem fl))) → SourceTo h.val o (stSrc fl)
      ((List.range k).map (fun i => (src + i * pitch, n * stElem fl))) c0 rows d → Finishes (.stageWeights h r seq) c h.val
      r.val (d.stWrite h.val dst 0 ((List.range ra).flatMap (fun i => (rows.getD i [] ++ List.replicate (ca * stElem fl) 0).take
      (ca * stElem fl)))) o) ∧
  (∀ (c : Card) (h : Fin 4) (r : Fin 16) (seq : Nat) (c0 d : Card) (o : Op) (src dst ks ms ml kl lanes fl : Nat) (g : Conv2d) (x
      : List (List Byte)), c.takenUp h.val r.val seq 5 0x12 = some (c0, o) → o.plain → src = leAt o.body 0 8 → dst = leAt o.body
      8 4 → ks = leAt o.body 0xC 4 → ms = leAt o.body 0x10 4 → ml = leAt o.body 0x1A 2 → kl = leAt o.body 0x1C 2 → lanes = leAt
      o.body 0x1E 2 → fl = leAt o.body 0x25 1 → g =
      { h := leAt o.body 0x14 2, w := leAt o.body 0x16 2, c := leAt o.body 0x18 2, rk := leAt o.body 0x20 1, sk := leAt o.body 0x21 1, stride := leAt o.body 0x22 1, pad := leAt o.body 0x23 1, layout := leAt o.body 0x24 1 }
      → g.ok = true → lanesOk lanes = true → 1 ≤ ml → ml ≤ 4096 → 1 ≤ kl → kl ≤ lanes → fl &&& 0xF8 = 0 → nbit fl 1 = false →
      leNat (o.body.drop 0x26) = 0 → ms + ml ≤ g.p * g.q → ks + kl ≤ g.rk * g.sk * g.ck → dst % 64 = 0 → dst + (ml + lanes - 1)
      * lanes * stElem fl ≤ (c0.staging h.val).2 → c0.sourceOk h.val o (stSrc fl) ((g.reads ks kl ms ml).map (fun k => (src + k
      * stElem fl, stElem fl))) → SourceTo h.val o (stSrc fl) ((g.reads ks kl ms ml).map (fun k => (src + k * stElem fl, stElem
      fl))) c0 x d → Finishes (.stageConv h r seq) c h.val r.val (d.stWrite h.val dst 0 (takeLines ((List.range (ml + lanes -
      1)).map (convLine g (stElem fl) ks kl ms ml lanes (fun ch y xx => ((g.reads ks kl ms ml).zip (x.map leNat)).lookup
      (mapOffset g.layout g.c g.h g.w ch y xx))))).flatten) o)

/-- Each clause takes an operation on a stream context whose fields are in range, under hypotheses on the card and the operands
alone, and concludes that the command answers a next state with the same queue and the card that the clause gives. Commands:
DECODE_OPEN, DECODE_FEED, DECODE_DRAIN, DECODE_CLOSE. Where the spec leaves a point open, the clauses follow the model's own
choices: assumption log entries 47 and 140. (R250, R251, R252) -/
def Obligations.IntakeRowsComplete : Prop :=
  (∀ (c : Card) (h : Fin 4) (r : Fin 16) (seq : Nat) (c0 : Card) (o : Op) (b : List Byte), c.takenUp h.val r.val seq 1 1 = some
      (c0, o) → o.plain → b = o.body → leAt b 0 1 < 64 → (1 ≤ leAt b 1 1 ∧ leAt b 1 1 ≤ 5) → leAt b 2 1 ≤ 1 → (leAt b 3 1 = 8 ∨
      (leAt b 3 1 = 10 ∧ leAt b 1 1 ≠ 1 ∧ leAt b 1 1 ≠ 2)) → (16 ≤ leAt b 4 2 ∧ leAt b 4 2 ≤ 8192) → (16 ≤ leAt b 6 2 ∧ leAt b 6
      2 ≤ 4352) → (1 ≤ leAt b 8 1 ∧ leAt b 8 1 ≤ 120) → (3 ≤ leAt b 9 1 ∧ leAt b 9 1 ≤ 32) → (1 ≤ leAt b 0xC 1 ∧ leAt b 0xC 1 ≤
      4) → leAt b 0xD 3 = 0 → leAt b 0x10 8 % 65536 = 0 → leAt b 0x18 4 % 65536 = 0 → (slotLayout (leAt b 4 2) (leAt b 6 2)
      (leAt b 3 1)).2.2.2 ≤ leAt b 0x18 4 → (16 ≤ leAt b 0x1C 2 ∧ leAt b 0x1C 2 ≤ 1024) → leAt b 0x1E 2 < 4096 → leAt b 0x20 8 %
      64 = 0 → leAt b 0x28 8 % 65536 = 0 → leAt b 0x30 2 < 16384 → leNat (b.drop 0x32) = 0 → c0.stream h.val (leAt b 0 1) = none
      → (∀ x, c0.ringVf h.val r.val = some x → c0.vfHasSem h.val x (leAt b 0x1E 2) = true) → c0.semVisible h.val (leAt b 0x30 2)
      = true → c0.sparsePicture h.val o.ctx (leAt b 0x10 8) (leAt b 9 1 * leAt b 0x18 4) = true → c0.inPicture h.val o.ctx (leAt
      b 0x28 8) (leAt b 0x1C 2 * 65536) true = true → c0.inPicture h.val o.ctx (leAt b 0x20 8) (64 * leAt b 9 1) false = true →
      c0.ringClass h.val r.val ≠ 1 → Finishes (.decodeOpen h r seq) c h.val r.val (c0.setStream h.val (leAt b 0 1) (some
      { ring := r.val, fnNum := o.fnNum, ctx := o.ctx, lc := false, codec := leAt b 1 1, mode := leAt b 2 1, depth := leAt b 3 1, maxW := leAt b 4 2, maxH := leAt b 6 2, fps := leAt b 8 1, slots := leAt b 9 1, guard := leAt b 0xA 2, gang := leAt b 0xC 1, dpb := leAt b 0x10 8, slotBytes := leAt b 0x18 4, stateVa := leAt b 0x28 8, state64 := leAt b 0x1C 2, outSem := leAt b 0x1E 2, desc := leAt b 0x20 8, relSem := leAt b 0x30 2 }))
      o) ∧
  (∀ (c : Card) (h : Fin 4) (r : Fin 16) (f : FeedScan) (c0 d : Card) (o : Op) (t : Stream) (sid n : Nat) (bs : List Byte) (key
      : Option KeySlot) (e : Card × List Byte), c.takenUp h.val r.val f.seq 1 2 = some (c0, o) → o.plain → sid = leAt o.body 0xC
      1 → n = leAt o.body 8 4 → key = tabGet none c0.keys (64 * h.val + leAt o.body 0xF 1) → feedInRange o.body = true →
      c0.stream h.val sid = some t → t.closing = false → t.ring = r.val → c0.feedSource h.val o.ctx (leAt o.body 0 8) n = true →
      (leAt o.body 0xE 1 = 0 ∨ key.any (fun k => k.ctx == o.ctx) = true) → leAt o.body 0x28 2 = 0 → ReadsTo h.val o [(leAt
      o.body 0 8, n)] c0 [bs] d → e = d.enqueue h.val sid
      { t with disc := false, starts := t.starts ++ f.starts.map (fun x => t.tail + x) } (feedMark o.body t.disc) (d.feedClear
      h.val o.body [] bs) → e.2 = [] → Finishes (.decodeFeed h r f) c h.val r.val e.1 o) ∧
  (∀ (c : Card) (h : Fin 4) (r : Fin 16) (seq : Nat) (order : List Nat) (c0 : Card) (o : Op) (t : Stream) (sid : Nat), c.takenUp
      h.val r.val seq 1 3 = some (c0, o) → o.plain → sid = leAt o.body 0 1 → sid < 64 → leAt o.body 1 1 = 0 → leNat (o.body.drop
      2) = 0 → c0.stream h.val sid = some t → t.closing = false → t.ring = r.val → t.pics.any (fun p => p.decoding) = false →
      t.tail = t.head → Finishes (.decodeDrain h r seq order) c h.val r.val (c0.outputAll h.val sid order) o) ∧
  (∀ (c : Card) (h : Fin 4) (r : Fin 16) (seq : Nat) (c0 : Card) (o : Op) (t : Stream) (sid : Nat), c.takenUp h.val r.val seq 1
      4 = some (c0, o) → o.plain → sid = leAt o.body 0 1 → sid < 64 → leNat (o.body.drop 1) = 0 → c0.stream h.val sid = some t →
      t.closing = false → t.ring = r.val → t.pics.any (fun p => p.decoding) = false → Finishes (.decodeClose h r seq) c h.val
      r.val (c0.closeStream h.val sid) o)

/-- Each clause takes a PREPARE whose table, list and sources are at hand, under hypotheses on the card and the operands alone,
and concludes that the command answers a next state with the same queue and the card that the clause gives. Commands: PREPARE.
Where the spec leaves a point open, the clauses follow the model's own choices: assumption log entries 22, 35 and 145. (R298) -/
def Obligations.ShaperRowsComplete : Prop :=
  (∀ (c : Card) (h : Fin 4) (r : Fin 16) (seq : Nat) (order : List Nat) (c0 c1 : Card) (o o1 : Op) (ts ls : List Byte) (p :
      Prep), c.opOf h.val r.val seq = some o1 → o1.started = false → c.takenUp h.val r.val seq 2 1 = some (c0, o) → o.plain →
      prepInRange o.body = true → leAt o.body 0x2F 1 = 0xFF → leAt o.body 0x18 8 = 0 → leAt o.body 0x25 1 = 1 → c0.passes h.val
      o.ctx (leAt o.body 0 8) (32 * leAt o.body 0x24 1) false false → c0.passes h.val o.ctx (leAt o.body 8 8) (16 * leAt o.body
      0x20 4) false false → c0.atHand h.val o (leAt o.body 8 8) (16 * leAt o.body 0x20 4) → ReadsTo h.val o [(leAt o.body 0 8,
      32 * leAt o.body 0x24 1), (leAt o.body 8 8, 16 * leAt o.body 0x20 4)] c0 [ts, ls] c1 → p =
      { b := o.body, ts := ts, ls := ls } → p.src.all (srcInRange p.chans) = true → p.smp.all (smpInRange p) = true → (∀ g ∈
      p.src.flatMap p.srcRanges, c1.passes h.val o.ctx g.1 g.2 false false ∧ c1.atHand h.val o g.1 g.2) → p.dst + p.count *
      p.bytes ≤ (c1.staging h.val).2 → Becomes (.prepare h r seq order) c (c1.setOp h.val r.val
      { o with rest := ts ++ (p.order order).flatMap (fun i => (ls.drop (16 * i)).take 16), passes := 0 }))

/-- Each clause takes a whisk operation whose operands and destination lie in staging, under hypotheses on the card and the
operands alone, and concludes that the command answers a next state with the same queue and the card that the clause gives.
Commands: WHISK_MAP, WHISK_REDUCE, WHISK_NORM, DWCONV. Where the spec leaves a point open, the clauses follow the model's own
choices: assumption log entries 60 to 64 and 144. (R335, R336, R337, R342) -/
def Obligations.WhiskRowsComplete : Prop :=
  (∀ (c : Card) (h : Fin 4) (r : Fin 16) (seq : Nat) (c0 : Card) (o : Op) (w : WkBody), c.takenUp h.val r.val seq 4 1 = some
      (c0, o) → o.plain → w =
      { rows := leAt o.body 0 4, cols := leAt o.body 4 4, fn := leAt o.body 8 1, param := leAt o.body 0xC 4, a := descAt o.body 0x10, b := descAt o.body 0x20, d := (descAt o.body 0x30).dest }
      → (1 ≤ w.rows ∧ w.rows < 2 ^ 24) → (1 ≤ w.cols ∧ w.cols ≤ 65536) → leAt o.body 9 3 = 0 → w.fn ≤ 14 → w.a.ok w.cols false =
      true → w.d.ok w.cols true = true → w.d.zc = false → (w.d.narrow && w.d.s2Tensor) = false → (if binaryFn w.fn then w.b.ok
      w.cols false = true ∧ w.b.staging = true ∧ w.b.addr + w.b.extent w.rows w.cols ≤ (c0.staging h.val).2 else w.b.none_ =
      true) → w.a.staging = true → w.a.addr + w.a.extent w.rows w.cols ≤ (c0.staging h.val).2 → w.d.staging = true → w.d.addr +
      w.d.extent w.rows w.cols ≤ (c0.staging h.val).2 → c0.stagingClean h.val → ∃ d, Finishes (.whiskMap h r seq) c h.val r.val
      d o ∧ d.mem = c0.mem) ∧
  (∀ (c : Card) (h : Fin 4) (r : Fin 16) (seq : Nat) (c0 : Card) (o : Op) (w : WkBody) (d : Desc), c.takenUp h.val r.val seq 4 2
      = some (c0, o) → o.plain → w =
      { rows := leAt o.body 0 4, cols := leAt o.body 4 4, fn := leAt o.body 8 1, param := leAt o.body 0xC 4, a := descAt o.body 0x10, b := descAt o.body 0x20, d := (descAt o.body 0x30).dest }
      → (d = if w.fn % 128 = 5 then { w.d with fmt := 7 } else w.d) → (1 ≤ w.rows ∧ w.rows < 2 ^ 24) → (1 ≤ w.cols ∧ w.cols ≤
      65536) → leAt o.body 9 3 = 0 → w.fn % 128 ≤ 5 → w.a.ok w.cols false = true → w.b.none_ = true → w.d.ok 1 false = true →
      d.ok 1 false = true → (w.d.narrow && w.d.s2Tensor) = false → w.a.staging = true → w.a.addr + w.a.extent w.rows w.cols ≤
      (c0.staging h.val).2 → d.staging = true → (d.addr + d.extent (if nbit w.fn 7 then 1 else w.rows) 1 ≤ (c0.staging h.val).2)
      → c0.stagingClean h.val → ∃ e, Finishes (.whiskReduce h r seq) c h.val r.val e o ∧ e.mem = c0.mem) ∧
  (∀ (c : Card) (h : Fin 4) (r : Fin 16) (seq : Nat) (c0 : Card) (o : Op) (w : WkBody), c.takenUp h.val r.val seq 4 3 = some
      (c0, o) → o.plain → w =
      { rows := leAt o.body 0 4, cols := leAt o.body 4 4, fn := leAt o.body 8 1, param := leAt o.body 0xC 4, a := descAt o.body 0x10, b := descAt o.body 0x20, d := (descAt o.body 0x30).dest }
      → (1 ≤ w.rows ∧ w.rows < 2 ^ 24) → (1 ≤ w.cols ∧ w.cols ≤ 65536) → leAt o.body 9 3 = 0 → w.fn ≤ 2 → w.a.ok w.cols false =
      true → (if w.fn = 0 then w.b.none_ = true else w.b.ok w.cols false = true ∧ w.b.staging = true ∧ w.b.addr + w.b.extent (if
      w.fn = 1 then 2 else 1) w.cols ≤ (c0.staging h.val).2) → w.d.ok w.cols false = true → (w.d.narrow && w.d.s2Tensor) = false
      → w.a.staging = true → w.a.addr + w.a.extent w.rows w.cols ≤ (c0.staging h.val).2 → w.d.staging = true → w.d.addr +
      w.d.extent w.rows w.cols ≤ (c0.staging h.val).2 → c0.stagingClean h.val → ∃ d, Finishes (.whiskNorm h r seq) c h.val r.val
      d o ∧ d.mem = c0.mem) ∧
  (∀ (c : Card) (h : Fin 4) (r : Fin 16) (seq : Nat) (c0 : Card) (o : Op) (g : Conv2d) (cout groups : Nat) (a w d : Desc),
      c.takenUp h.val r.val seq 4 4 = some (c0, o) → o.plain → cout = leAt o.body 6 2 → groups = leAt o.body 0xC 2 → g =
      { h := leAt o.body 0 2, w := leAt o.body 2 2, c := leAt o.body 4 2, rk := leAt o.body 8 1, sk := leAt o.body 9 1, stride := leAt o.body 0xA 1, pad := leAt o.body 0xB 1, layout := leAt o.body 0xE 1 }
      → a = descAt o.body 0x20 → w = descAt o.body 0x30 → d = (descAt o.body 0x40).dest → g.ok = true → (1 ≤ cout ∧ cout ≤ 8192)
      → (1 ≤ groups ∧ groups ≤ 8192) → leAt o.body 0xF 1 ≤ 1 → leAt o.body 0x14 12 = 0 → (g.c % groups = 0 ∧ cout % groups = 0)
      → (1 ≤ g.c / groups ∧ g.c / groups ≤ 16) → (1 ≤ cout / groups ∧ cout / groups ≤ 16) → (∀ x ∈ [a, w, d], x.rsv = true ∧
      x.fmt ≤ 7 ∧ x.fmt ≠ 1 ∧ x.addr % max 1 (elemBits x.fmt / 8) = 0 ∧ x.staging = true) → fmtInt a.fmt = fmtInt w.fmt → a.addr
      + layChans g.layout g.c * g.h * g.w * elemBits a.fmt / 8 ≤ (c0.staging h.val).2 → w.addr + cout * g.rk * g.sk * (g.c /
      groups) * elemBits w.fmt / 8 ≤ (c0.staging h.val).2 → d.addr + ceilDiv (layChans g.layout cout * g.p * g.q * elemBits
      d.fmt) 8 ≤ (c0.staging h.val).2 → c0.stagingClean h.val → ∃ e, Finishes (.dwconv h r seq) c h.val r.val e o ∧ e.mem =
      c0.mem)

/-- Each clause takes an operation of the track scheduler that it can take now, under hypotheses on the card and the operands
alone, and concludes that the command answers a next state with the same queue and the card that the clause gives. Commands:
TRACK_STEP, TRACK_BATCH, TRACK_UPDATE, TRACK_SWAP, TRACK_WITHDRAW. Where the spec leaves a point open, the clauses follow the
model's own choices: assumption log entries 49, 50, 51 and 143. (R355, R357, R358, R361, R365) -/
def Obligations.TrackRowsComplete : Prop :=
  (∀ (c : Card) (h : Fin 4) (r : Fin 16) (seq : Nat) (c0 d : Card) (o : Op) (dets leaves : List Byte) (nd nl : Nat) (es : List
      StepEntry), c.takenUp h.val r.val seq 6 1 = some (c0, o) → o.plain → nd = leAt o.body 0x16 2 → nl = leAt o.body 0x18 2 →
      c0.tracksReady h.val → stepInRange o.body = true → c0.plainRange h.val o.ctx (leAt o.body 0 8) (32 * nd) false = true →
      leAt o.body 0x1A 2 = 0 → (leAt o.body 0x1C 2 = 0xFFFF ∨ ∀ x, c0.ringVf h.val r.val = some x → c0.vfHasSem h.val x (leAt
      o.body 0x1C 2) = true) → (c0.tracker h.val).reqs.length < 256 → c0.atHand h.val o (leAt o.body 8 8) (4 * nl) → ReadsTo
      h.val o [(leAt o.body 0 8, 32 * nd), (leAt o.body 8 8, 4 * nl)] c0 [dets, leaves] d → (∀ i < nd, leAt dets (32 * i + 0x10)
      4 % 64 = 0 ∧ leAt dets (32 * i + 0x10) 4 + 992 ≤ (c0.staging h.val).2 ∧ leNat ((dets.drop (32 * i + 0x14)).take 12) = 0) →
      es = (c0.stepEntries h.val o.ctx (leAt o.body 0x14 2) ((List.range nl).map (fun i => leAt leaves (4 * i) 4)) ((List.range
      nd).map (fun i => (dets.drop (32 * i)).take 32))).1 → ∃ e, Finishes (.trackStep h r seq) c h.val r.val e o ∧ (e.tracker
      h.val).nextReq = (c0.tracker h.val).nextReq + 1 ∧ (es ≠ [] → ∃ q ∈ (e.tracker h.val).reqs, q.entries = es ∧ q.frame = leAt
      o.body 0x10 4 ∧ q.epoch = 0)) ∧
  (∀ (c : Card) (h : Fin 4) (r : Fin 16) (seq : Nat) (c0 : Card) (o : Op) (k : Taking) (bucket reg off : Nat) (l : Leaf) (e :
      RegionEnt), c.takenUp h.val r.val seq 6 2 = some (c0, o) → o.plain → c0.tracksReady h.val → (c0.tracker h.val).batch =
      none → k = c0.takeAll h.val (leAt o.body 0x14 2) → bucket = bucketOf k.pos.length → (∀ p ∈ k.pos, p.kind = 2 ∨
      ((c0.tracker h.val).track p.idx).now.len = 0) → leAt o.body 0 8 % 64 = 0 → leAt o.body 8 4 % 64 = 0 → leAt o.body 0xC 4 %
      64 = 0 → leAt o.body 0x10 4 % 64 = 0 → pow2ok (leAt o.body 0x14 2) = true → leNat (o.body.drop 0x16) = 0 → c0.plainRange
      h.val o.ctx (leAt o.body 0 8) (64 + 32 * bucket) false = true → leAt o.body 8 4 + bucket * 1024 ≤ (c0.staging h.val).2 →
      leAt o.body 0xC 4 + bucket * roundUp ((c0.kvGeom h.val).2.2.2 * (c0.kvGeom h.val).2.2.1) 64 ≤ (c0.staging h.val).2 → leAt
      o.body 0x10 4 + bucket * roundUp (2 * (c0.kvGeom h.val).2.2.2) 64 ≤ (c0.staging h.val).2 → leAt o.body 0 8 % 65536 + 64 +
      32 * bucket ≤ 65536 → (c0.translate h.val o.ctx (leAt o.body 0 8)).toOption = some l → l.to_ = .card reg off → l.write =
      true → (l.sparse && !l.backed) = false → (c0.region o.ctx reg (off + l.pageOff (leAt o.body 0 8)) (64 + 32 *
      bucket)).toOption = some e → c0.anyLost e (off + l.pageOff (leAt o.body 0 8)) (64 + 32 * bucket) = false → c0.heldVa h.val
      o.ctx true (leAt o.body 0 8) (64 + 32 * bucket) = false → c0.stagingClean h.val → ∃ d o', Finishes (.trackBatch h r seq) c
      h.val r.val d o' ∧ o'.ext = bucket ∧ (k.pos = [] → (d.tracker h.val).batch = none) ∧ (k.pos ≠ [] → ∃ b, (d.tracker
      h.val).batch = some b ∧ b.pos = k.pos ∧ b.epoch = k.epoch.getD 0)) ∧
  (∀ (c : Card) (h : Fin 4) (r : Fin 16) (seq : Nat) (c0 : Card) (o : Op) (b : Batch) (p : BatchPos) (base stride tok cap : Nat)
      (before : TrackNow) (m : Card × Op), c.takenUp h.val r.val seq 6 3 = some (c0, o) → o.plain → c0.tracksReady h.val → leAt
      o.body 0xC 4 = 0 → (c0.tracker h.val).batch = some b → b.withdrawn = false → b.epoch = 0 → b.pos = [p] → c0.kvGeom h.val =
      (base, stride, tok, cap) → leAt o.body 0 4 + 32 ≤ (c0.staging h.val).2 → leAt o.body 4 4 + 1024 ≤ (c0.staging h.val).2 →
      leAt o.body 8 4 + roundUp tok 64 ≤ (c0.staging h.val).2 → c0.stagingClean h.val → (before = if p.kind = 2 then
      { half := 1 } else ((c0.tracker h.val).track p.idx).now) → WriteTo h.val r.val (base + p.idx * stride + (before.first +
      before.len) % cap * tok) (c0.sramRd h.val ((c0.staging h.val).1 + leAt o.body 8 4) tok) (c0, o) m → ∃ d o', Finishes
      (.trackUpdate h r seq) c h.val r.val d o' ∧ o'.records.length = o.records.length + 1 ∧ (d.tracker h.val).batch = none) ∧
  (∀ (c : Card) (h : Fin 4) (r : Fin 16) (seq : Nat) (c0 d : Card) (o o' : Op) (src n : Nat), c.takenUp h.val r.val seq 6 4 =
      some (c0, o) → o.plain → src = leAt o.body 0 8 → n = leAt o.body 8 4 → c0.tracksReady h.val → n % 64 = 0 → n ≤ 0x4000000 →
      leAt o.body 0xC 4 = 0 → c0.plainRange h.val o.ctx src n true = true → (c0.tracker h.val).batch = none → c0.atHand h.val o
      src n → CopiesTo h.val r.val src (c0.pair (hp h.val 0xB0018) (hp h.val 0xB001C)) (chunks n) (c0, o) (d, o') → Finishes
      (.trackSwap h r seq) c h.val r.val (d.setN (hp h.val 0xB0020) ((d.reg (hp h.val 0xB0020)).toNat + 1)) o') ∧
  (∀ (c : Card) (h : Fin 4) (r : Fin 16) (seq : Nat) (c0 d : Card) (o : Op) (e : Nat), c.takenUp h.val r.val seq 6 5 = some (c0,
      o) → o.plain → e = leAt o.body 0 2 → c0.tracksReady h.val → e ≠ 0 → leNat (o.body.drop 2) = 0 → c0.unsettled h.val e =
      true → c0.retractRoom h.val e (some r.val) = true → d = c0.withdrawEpoch h.val e 3 (some r.val) → Finishes (.trackWithdraw
      h r seq) c h.val r.val (if (c0.epochOf h.val e).stream < 64 then d.bump (hp h.val (0x6101C + 0x40 * (c0.epochOf h.val
      e).stream)) 1 else d) o)

/-- Each clause takes a record operation whose sources are at hand and whose images are well formed, under hypotheses on the card
and the operands alone, and concludes that the command answers a next state with the same queue and the card that the clause
gives. Commands: EMIT, EMIT_MOTION. Where the spec leaves a point open, the clauses follow the model's own choices: assumption
log entries 18 and 31. (R395) -/
def Obligations.EmitRowsComplete : Prop :=
  (∀ (c : Card) (h : Fin 4) (r : Fin 16) (seq : Nat) (c0 d : Card) (o : Op) (n : Nat) (src : List Byte), c.takenUp h.val r.val
      seq 8 2 = some (c0, o) → o.plain → n = leAt o.body 0x10 4 → leAt o.body 0 8 % 64 = 0 → 1 ≤ n → n ≤ 4096 → c0.passes h.val
      o.ctx (leAt o.body 0 8) (64 * n) false true → ReadsTo h.val o [(leAt o.body 0 8, 64 * n)] c0 [src] d → (∀ i < n, imageOk
      (src.drop (64 * i)) = true) → Finishes (.emit h r seq) c h.val r.val d
      { o with records := (List.range n).map (fun i => ((src.drop (64 * i)).take 64).take 1 ++ leBytes 1 (if leAt o.body 8 8 = 0 then leAt ((src.drop (64 * i)).take 64) 1 1 else d.picFlags h.val o.ctx (leAt o.body 8 8)) ++ (((src.drop (64 * i)).take 64).drop 2).take 10 ++ leBytes 2 0 ++ ((src.drop (64 * i)).take 64).drop 14) }) ∧
  (∀ (c : Card) (h : Fin 4) (r : Fin 16) (seq : Nat) (c0 d : Card) (o : Op) (n st wd ht bs f : Nat) (res blk : List Byte),
      c.takenUp h.val r.val seq 8 1 = some (c0, o) → o.plain → n = leAt o.body 0x28 4 → st = leAt o.body 0x2C 2 → wd = leAt
      o.body 0x2E 2 → ht = leAt o.body 0x30 2 → bs = leAt o.body 0x32 1 → 1 ≤ n → n ≤ 65536 → (st < 64 ∨ (0x100 ≤ st ∧ st <
      0x110) ∨ st = 0xFFFF) → (16 ≤ wd ∧ wd ≤ 8192) → (16 ≤ ht ∧ ht ≤ 8192) → (3 ≤ bs ∧ bs ≤ 6) → c0.passes h.val o.ctx (leAt
      o.body 0 8) (32 * n) false true → c0.passes h.val o.ctx (leAt o.body 8 8) (16 * n) false true → c0.atHand h.val o (leAt
      o.body 8 8) (16 * n) → ReadsTo h.val o [(leAt o.body 0 8, 32 * n), (leAt o.body 8 8, 16 * n)] c0 [res, blk] d → f =
      d.picFlags h.val o.ctx (leAt o.body 0x10 8) ||| d.picFlags h.val o.ctx (leAt o.body 0x18 8) → Finishes (.emitMotion h r
      seq) c h.val r.val d
      { o with records := (List.range n).map (fun i => motionTile f st (leAt o.body 0x20 4) (leAt o.body 0x24 4) 0 wd ht (2 ^ bs) (nbit f 2) (res.drop (32 * i)) (blk.drop (16 * i))) })
end

