-- ==== Sys2Proof/Laws/Bits.lean ====
section
/-! SUPPORT. The laws of bit fields: what a field reads after it, or another field of the same word, has been written. -/

namespace Sys2Proof.Laws

open Sys2Proof Sys2Proof.Machine

theorem testBit_nbits (v hi lo i : Nat) : (nbits v hi lo).testBit i = (decide (i < hi + 1 - lo) && v.testBit (lo + i)) := by
  simp [nbits, Nat.testBit_mod_two_pow, Nat.testBit_shiftRight]

theorem testBit_nput (v hi lo x i : Nat) (h : lo ≤ hi + 1) :
    (nput v hi lo x).testBit i = if hi < i then v.testBit i else if lo ≤ i then x.testBit (i - lo) else v.testBit i := by
  have e1 : (x % 2 ^ (hi + 1 - lo)) <<< lo + v % 2 ^ lo = 2 ^ lo * (x % 2 ^ (hi + 1 - lo)) + v % 2 ^ lo := by
    rw [Nat.shiftLeft_eq, Nat.mul_comm]
  have lt1 : v % 2 ^ lo < 2 ^ lo := Nat.mod_lt _ (Nat.two_pow_pos _)
  have lt2 : 2 ^ lo * (x % 2 ^ (hi + 1 - lo)) + v % 2 ^ lo < 2 ^ (hi + 1) := by
    have h1 : x % 2 ^ (hi + 1 - lo) + 1 ≤ 2 ^ (hi + 1 - lo) := Nat.mod_lt _ (Nat.two_pow_pos _)
    have h2 : 2 ^ lo * 2 ^ (hi + 1 - lo) = 2 ^ (hi + 1) := by rw [← Nat.pow_add]; congr 1; omega
    have h3 := Nat.mul_le_mul_left (2 ^ lo) h1
    rw [Nat.mul_add, h2] at h3
    omega
  unfold nput
  rw [Nat.add_assoc, e1, Nat.shiftLeft_eq, Nat.mul_comm (v >>> (hi + 1))]
  rw [Nat.testBit_two_pow_mul_add _ lt2]
  by_cases hi' : i < hi + 1
  · rw [if_pos hi', if_neg (by omega), Nat.testBit_two_pow_mul_add _ lt1]
    by_cases hl : i < lo
    · rw [if_pos hl, if_neg (by omega), Nat.testBit_mod_two_pow]; simp [hl]
    · rw [if_neg hl, if_pos (by omega), Nat.testBit_mod_two_pow]
      simp; omega
  · rw [if_neg hi', if_pos (by omega), Nat.testBit_shiftRight]
    congr 1; omega

/-- A word's bit after one of its fields is written. -/
theorem testBit_ins (w : Word) (hi lo x i : Nat) (h : lo ≤ hi) (h32 : hi < 32) :
    (ins w hi lo x).toNat.testBit i = if lo ≤ i ∧ i ≤ hi then x.testBit (i - lo) else w.toNat.testBit i := by
  unfold ins
  rw [BitVec.toNat_ofNat, Nat.testBit_mod_two_pow, testBit_nput _ _ _ _ _ (by omega)]
  by_cases hi32 : i < 32
  · simp only [hi32, decide_true, Bool.true_and]
    by_cases h1 : hi < i
    · rw [if_pos h1, if_neg (by omega)]
    · rw [if_neg h1]
      by_cases h2 : lo ≤ i
      · rw [if_pos h2, if_pos ⟨h2, by omega⟩]
      · rw [if_neg h2, if_neg (by omega)]
  · have hw : w.toNat.testBit i = false :=
      Nat.testBit_lt_two_pow (Nat.lt_of_lt_of_le w.isLt (Nat.pow_le_pow_right (by decide) (by omega)))
    rw [hw]; simp only [hi32, decide_false, Bool.false_and]; rw [if_neg (by omega)]

/-- A field reads what was written to it, cut to its width. -/
theorem fld_ins_self (w : Word) (hi lo x : Nat) (h : lo ≤ hi) (h32 : hi < 32) :
    fld (ins w hi lo x) hi lo = x % 2 ^ (hi + 1 - lo) := by
  apply Nat.eq_of_testBit_eq
  intro i
  rw [fld, testBit_nbits, Nat.testBit_mod_two_pow, testBit_ins _ _ _ _ _ h h32]
  by_cases hi' : i < hi + 1 - lo
  · rw [if_pos (by omega)]; simp [hi']
  · simp [hi']

/-- A field reads as before after a field that shares no bit with it is written. -/
theorem fld_ins_ne (w : Word) (hi lo x hi' lo' : Nat) (h : lo ≤ hi) (h32 : hi < 32) (hd : hi' < lo ∨ hi < lo') :
    fld (ins w hi lo x) hi' lo' = fld w hi' lo' := by
  apply Nat.eq_of_testBit_eq
  intro i
  rw [fld, fld, testBit_nbits, testBit_nbits, testBit_ins _ _ _ _ _ h h32]
  by_cases hi'' : i < hi' + 1 - lo'
  · rw [if_neg (by omega)]
  · simp [hi'']

end Sys2Proof.Laws
end

