-- ==== Sys2Proof/Laws/Tab.lean ====
section
/-! SUPPORT. The laws of sparse tables: reading after writing, and that every operation keeps the canonical form. -/

namespace Sys2Proof.Laws

open Sys2Proof.Machine

variable {α : Type}

@[simp] theorem tabGet_nil (d : α) (k : Nat) : tabGet d [] k = d := rfl

theorem tabAbove_trans {a b : Nat} (h : a < b) : ∀ {t : Tab α}, tabAbove b t = true → tabAbove a t = true
  | [], _ => rfl
  | (k, _) :: t, hb => by
    simp only [tabAbove, Bool.and_eq_true, decide_eq_true_eq] at hb ⊢
    exact ⟨Nat.lt_trans h hb.1, tabAbove_trans h hb.2⟩

/-- An unlisted key below every listed one reads the default. -/
theorem tabGet_of_above (d : α) {k : Nat} : ∀ {t : Tab α} {j : Nat}, tabAbove k t = true → j ≤ k → tabGet d t j = d
  | [], _, _, _ => rfl
  | (k', _) :: t, j, h, hj => by
    simp only [tabAbove, Bool.and_eq_true, decide_eq_true_eq] at h
    have : k' ≠ j := by omega
    simp only [tabGet, this, if_false]
    exact tabGet_of_above d h.2 hj

theorem tabAbove_del {a k : Nat} : ∀ {t : Tab α}, tabAbove a t = true → tabAbove a (tabDel t k) = true
  | [], _ => rfl
  | (k', _) :: t, h => by
    simp only [tabAbove, Bool.and_eq_true, decide_eq_true_eq] at h
    simp only [tabDel]
    split
    · exact tabAbove_del h.2
    · simp only [tabAbove, Bool.and_eq_true, decide_eq_true_eq]
      exact ⟨h.1, tabAbove_del h.2⟩

theorem tabAbove_ins {a k : Nat} {v : α} (hk : a < k) : ∀ {t : Tab α}, tabAbove a t = true → tabAbove a (tabIns t k v) = true
  | [], _ => by simp [tabIns, tabAbove, hk]
  | (k', _) :: t, h => by
    simp only [tabAbove, Bool.and_eq_true, decide_eq_true_eq] at h
    simp only [tabIns]
    split
    · simp only [tabAbove, Bool.and_eq_true, decide_eq_true_eq]
      exact ⟨hk, h⟩
    · split <;> simp only [tabAbove, Bool.and_eq_true, decide_eq_true_eq]
      · exact ⟨hk, h.2⟩
      · exact ⟨h.1, tabAbove_ins hk h.2⟩

theorem tabAbove_filter {a : Nat} (p : Nat × α → Bool) : ∀ {t : Tab α}, tabAbove a t = true → tabAbove a (t.filter p) = true
  | [], _ => rfl
  | (k, v) :: t, h => by
    simp only [tabAbove, Bool.and_eq_true, decide_eq_true_eq] at h
    simp only [List.filter]
    split
    · simp only [tabAbove, Bool.and_eq_true, decide_eq_true_eq]
      exact ⟨h.1, tabAbove_filter p h.2⟩
    · exact tabAbove_filter p h.2

/-- Reading the key that was inserted. -/
theorem tabGet_ins_self (d : α) (k : Nat) (v : α) : ∀ t : Tab α, tabGet d (tabIns t k v) k = v
  | [] => by simp [tabIns, tabGet]
  | (k', v') :: t => by
    simp only [tabIns]
    split
    · simp [tabGet]
    · split
      · simp [tabGet]
      · have : k' ≠ k := fun e => by omega
        simp only [tabGet, this, if_false]
        exact tabGet_ins_self d k v t

/-- Reading another key than the one inserted. -/
theorem tabGet_ins_ne (d : α) {k j : Nat} (v : α) (h : j ≠ k) : ∀ t : Tab α, tabGet d (tabIns t k v) j = tabGet d t j
  | [] => by simp [tabIns, tabGet, Ne.symm h]
  | (k', v') :: t => by
    simp only [tabIns]
    split
    · simp [tabGet, Ne.symm h]
    · split
      · rename_i h2; subst h2; simp [tabGet, Ne.symm h]
      · simp only [tabGet]
        split
        · rfl
        · exact tabGet_ins_ne d v h t

/-- Reading another key than the one removed. -/
theorem tabGet_del_ne (d : α) {k j : Nat} (h : j ≠ k) : ∀ t : Tab α, tabGet d (tabDel t k) j = tabGet d t j
  | [] => rfl
  | (k', v') :: t => by
    simp only [tabDel]
    split
    · rename_i h2; subst h2; simp only [tabGet, Ne.symm h, if_false]; exact tabGet_del_ne d h t
    · simp only [tabGet]
      split
      · rfl
      · exact tabGet_del_ne d h t

/-- The key removed reads the default. -/
theorem tabGet_del_self (x : α) (k : Nat) : ∀ t : Tab α, tabGet x (tabDel t k) k = x
  | [] => rfl
  | (k', v') :: t => by
    simp only [tabDel]
    split
    · exact tabGet_del_self x k t
    · rename_i h2
      simp only [tabGet, h2, if_false]
      exact tabGet_del_self x k t

variable [DecidableEq α] {d : Nat → α}

theorem tabWf_del {k : Nat} : ∀ {t : Tab α}, tabWf d t = true → tabWf d (tabDel t k) = true
  | [], _ => rfl
  | (k', v') :: t, h => by
    simp only [tabWf, Bool.and_eq_true, decide_eq_true_eq] at h
    simp only [tabDel]
    split
    · exact tabWf_del h.2
    · simp only [tabWf, Bool.and_eq_true, decide_eq_true_eq]
      exact ⟨⟨h.1.1, tabAbove_del h.1.2⟩, tabWf_del h.2⟩

theorem tabWf_ins {k : Nat} {v : α} (hv : v ≠ d k) : ∀ {t : Tab α}, tabWf d t = true → tabWf d (tabIns t k v) = true
  | [], _ => by simp [tabIns, tabWf, tabAbove, hv]
  | (k', v') :: t, h => by
    have h' := h
    simp only [tabWf, Bool.and_eq_true, decide_eq_true_eq] at h
    simp only [tabIns]
    split
    · rename_i hk
      simp only [tabWf, tabAbove, Bool.and_eq_true, decide_eq_true_eq]
      exact ⟨⟨hv, hk, tabAbove_trans hk h.1.2⟩, h⟩
    · split
      · rename_i hk; subst hk
        simp only [tabWf, Bool.and_eq_true, decide_eq_true_eq]
        exact ⟨⟨hv, h.1.2⟩, h.2⟩
      · simp only [tabWf, Bool.and_eq_true, decide_eq_true_eq]
        exact ⟨⟨h.1.1, tabAbove_ins (by omega) h.1.2⟩, tabWf_ins hv h.2⟩

theorem tabWf_filter (p : Nat × α → Bool) : ∀ {t : Tab α}, tabWf d t = true → tabWf d (t.filter p) = true
  | [], _ => rfl
  | (k, v) :: t, h => by
    simp only [tabWf, Bool.and_eq_true, decide_eq_true_eq] at h
    simp only [List.filter]
    split
    · simp only [tabWf, Bool.and_eq_true, decide_eq_true_eq]
      exact ⟨⟨h.1.1, tabAbove_filter p h.1.2⟩, tabWf_filter p h.2⟩
    · exact tabWf_filter p h.2

/-- A write keeps the canonical form, whatever is written. -/
theorem tabWf_put {t : Tab α} (k : Nat) (v : α) (h : tabWf d t = true) : tabWf d (tabPut (d k) t k v) = true := by
  unfold tabPut
  split
  · exact tabWf_del h
  · exact tabWf_ins ‹_› h

/-- A read after a write to the same key gives the value written. -/
@[simp] theorem tabGet_put_self (x : α) (t : Tab α) (k : Nat) (v : α) : tabGet x (tabPut x t k v) k = v := by
  unfold tabPut
  split
  · rename_i e; rw [tabGet_del_self x k, e]
  · exact tabGet_ins_self ..

/-- A write leaves every other key alone. -/
theorem tabGet_put_ne (t : Tab α) {x y : α} {k j : Nat} (v : α) (h : j ≠ k) : tabGet y (tabPut x t k v) j = tabGet y t j := by
  unfold tabPut
  split
  · exact tabGet_del_ne y h t
  · exact tabGet_ins_ne y v h t

end Sys2Proof.Laws
end

