-- ==== Sys2Proof/Laws/Regs.lean ====
section
/-! SUPPORT. The laws of the register operations: a read after a write, and what the other operations leave alone. -/

namespace Sys2Proof.Laws

open Sys2Proof Sys2Proof.Machine

/-- The registers are in canonical form. -/
abbrev RegsWf (c : Card) : Prop := tabWf regReset c.regs = true

@[simp] theorem regsWf_setReg {c : Card} {k : Nat} {w : Word} (h : RegsWf c) : RegsWf (c.setReg k w) := tabWf_put k w h
@[simp] theorem regsWf_setF {c : Card} {k hi lo v : Nat} (h : RegsWf c) : RegsWf (c.setF k hi lo v) := tabWf_put k _ h
@[simp] theorem regsWf_setBit {c : Card} {k i : Nat} {b : Bool} (h : RegsWf c) : RegsWf (c.setBit k i b) := tabWf_put k _ h
@[simp] theorem regsWf_setN {c : Card} {k v : Nat} (h : RegsWf c) : RegsWf (c.setN k v) := tabWf_put k _ h
@[simp] theorem regsWf_bumpF {c : Card} {k hi lo n : Nat} (h : RegsWf c) : RegsWf (c.bumpF k hi lo n) := tabWf_put k _ h
@[simp] theorem regsWf_bump {c : Card} {k n : Nat} (h : RegsWf c) : RegsWf (c.bump k n) := tabWf_put k _ h
@[simp] theorem regsWf_emit {c : Card} {o : Out} (h : RegsWf c) : RegsWf (c.emit o) := h
@[simp] theorem regsWf_draw {c : Card} (h : RegsWf c) : RegsWf c.draw := h

@[simp] theorem reg_setReg_self (c : Card) (k : Nat) (w : Word) : (c.setReg k w).reg k = w :=
  tabGet_put_self (regReset k) c.regs k w

theorem reg_setReg_ne {c : Card} {k j : Nat} {w : Word} (h : j ≠ k) : (c.setReg k w).reg j = c.reg j := tabGet_put_ne _ w h

theorem reg_setF_ne {c : Card} {k j hi lo v : Nat} (h : j ≠ k) : (c.setF k hi lo v).reg j = c.reg j := reg_setReg_ne h

theorem reg_setF_self (c : Card) (k hi lo v : Nat) : (c.setF k hi lo v).reg k = ins (c.reg k) hi lo v :=
  reg_setReg_self ..

theorem reg_setBit_ne {c : Card} {k j i : Nat} {b : Bool} (h : j ≠ k) : (c.setBit k i b).reg j = c.reg j := reg_setF_ne h

@[simp] theorem reg_setN_self (c : Card) (k v : Nat) : (c.setN k v).reg k = BitVec.ofNat 32 v := reg_setReg_self ..

theorem reg_setN_ne {c : Card} {k j v : Nat} (h : j ≠ k) : (c.setN k v).reg j = c.reg j := reg_setReg_ne h

theorem reg_bump_ne {c : Card} {k j n : Nat} (h : j ≠ k) : (c.bump k n).reg j = c.reg j := reg_setF_ne h

@[simp] theorem reg_emit (c : Card) (o : Out) (k : Nat) : (c.emit o).reg k = c.reg k := rfl
@[simp] theorem reg_draw (c : Card) (k : Nat) : c.draw.reg k = c.reg k := rfl
@[simp] theorem reg_setCfg (c : Card) (n : Nat) (v : Cfg) (k : Nat) : (c.setCfg n v).reg k = c.reg k := rfl
@[simp] theorem reg_setFn (c : Card) (n : Nat) (v : FnState) (k : Nat) : (c.setFn n v).reg k = c.reg k := rfl
@[simp] theorem reg_setRing (c : Card) (h r : Nat) (v : Ring) (k : Nat) : (c.setRing h r v).reg k = c.reg k := rfl

/-- A field reads what was written to it. -/
theorem f_setF_self {c : Card} {k hi lo v : Nat} (hl : lo ≤ hi) (h32 : hi < 32) :
    (c.setF k hi lo v).f k hi lo = v % 2 ^ (hi + 1 - lo) := by
  rw [Card.f, reg_setF_self, fld_ins_self _ _ _ _ hl h32]

/-- Another field of the register written reads as before. -/
theorem f_setF_disjoint {c : Card} {k hi lo v hi' lo' : Nat} (hl : lo ≤ hi) (h32 : hi < 32)
    (hd : hi' < lo ∨ hi < lo') : (c.setF k hi lo v).f k hi' lo' = c.f k hi' lo' := by
  rw [Card.f, Card.f, reg_setF_self, fld_ins_ne _ _ _ _ _ _ hl h32 hd]

/-- A field of another register reads as before. -/
theorem f_setF_ne {c : Card} {k j hi lo v hi' lo' : Nat} (h : j ≠ k) : (c.setF k hi lo v).f j hi' lo' = c.f j hi' lo' := by
  rw [Card.f, Card.f, reg_setF_ne h]

theorem bit_setBit_self {c : Card} {k i : Nat} {b : Bool} (h32 : i < 32) : (c.setBit k i b).bit k i = b := by
  unfold Card.bit Card.setBit
  rw [f_setF_self (Nat.le_refl _) h32]
  cases b <;> simp [b2n]

theorem bit_setBit_disjoint {c : Card} {k i j : Nat} {b : Bool} (h32 : i < 32) (hd : j ≠ i) :
    (c.setBit k i b).bit k j = c.bit k j := by
  unfold Card.bit Card.setBit
  rw [f_setF_disjoint (Nat.le_refl _) h32 (by omega)]

theorem bit_setBit_ne {c : Card} {k j i i' : Nat} {b : Bool} (h : j ≠ k) : (c.setBit k i b).bit j i' = c.bit j i' := by
  unfold Card.bit Card.setBit
  rw [f_setF_ne h]

/-- Raising a vector sends its message or sets its pending bit, and touches no other register. -/
theorem reg_raise_ne {c : Card} {n v k : Nat} (h : k ≠ (msixBase n).2.1) : (c.raise n v).reg k = c.reg k := by
  unfold Card.raise
  split
  · rfl
  · exact reg_setBit_ne h

theorem regsWf_raise {c : Card} {n v : Nat} (h : RegsWf c) : RegsWf (c.raise n v) := by
  unfold Card.raise
  split
  · exact h
  · exact regsWf_setBit h

/-- An event of PF0 sets its bit, and raises its vector. -/
theorem reg_event_ne {c : Card} {off bit vec k : Nat} (h : k ≠ mg off) (hp : k ≠ (msixBase 0).2.1) :
    (c.event off bit vec).reg k = c.reg k := by
  unfold Card.event
  rw [reg_raise_ne hp, reg_setBit_ne h]

theorem bit_event_self {c : Card} {off bit vec : Nat} (hb : bit < 32) (hp : mg off ≠ (msixBase 0).2.1) :
    (c.event off bit vec).bit (mg off) bit = true := by
  unfold Card.event Card.bit Card.f
  rw [reg_raise_ne hp]
  exact bit_setBit_self hb

/-- An event of a hamper PF sets its bit, and raises its vector. -/
theorem reg_hpEvent_ne {c : Card} {h off bit vec k : Nat} (hk : k ≠ hp h off) (hq : k ≠ (msixBase (h + 1)).2.1) :
    (c.hpEvent h off bit vec).reg k = c.reg k := by
  unfold Card.hpEvent
  rw [reg_raise_ne hq, reg_setBit_ne hk]

theorem bit_hpEvent_self {c : Card} {h off bit vec : Nat} (hb : bit < 32)
    (hq : hp h off ≠ (msixBase (h + 1)).2.1) : (c.hpEvent h off bit vec).bit (hp h off) bit = true := by
  unfold Card.hpEvent Card.bit Card.f
  rw [reg_raise_ne hq]
  exact bit_setBit_self hb

/-- The ring that was set is the ring that is read. -/
@[simp] theorem ring_setRing_self (c : Card) (h r : Nat) (v : Ring) : (c.setRing h r v).ring h r = v :=
  tabGet_put_self {} c.rings (16 * h + r) v

end Sys2Proof.Laws
end

