-- ==== Sys2Proof/Laws/State.lean ====
section
/-! SUPPORT. What each update of the state leaves alone: one lemma per field per update, true by unfolding. -/

namespace Sys2Proof.Laws

open Sys2Proof Sys2Proof.Machine

@[simp] theorem run_next (s : State) (f : Card → Card) : s.run f = .next { s with card := f s.card } := rfl

@[simp] theorem setReg_clk (c : Card) (k : Nat) (w : Word) : (c.setReg k w).clk = c.clk := rfl
@[simp] theorem setReg_caps (c : Card) (k : Nat) (w : Word) : (c.setReg k w).caps = c.caps := rfl
@[simp] theorem setReg_holds (c : Card) (k : Nat) (w : Word) : (c.setReg k w).holds = c.holds := rfl
@[simp] theorem setReg_cfg (c : Card) (k : Nat) (w : Word) : (c.setReg k w).cfg = c.cfg := rfl
@[simp] theorem setReg_aer (c : Card) (k : Nat) (w : Word) : (c.setReg k w).aer = c.aer := rfl
@[simp] theorem setReg_fns (c : Card) (k : Nat) (w : Word) : (c.setReg k w).fns = c.fns := rfl
@[simp] theorem setReg_pace (c : Card) (k : Nat) (w : Word) : (c.setReg k w).pace = c.pace := rfl
@[simp] theorem setReg_avs (c : Card) (k : Nat) (w : Word) : (c.setReg k w).avs = c.avs := rfl
@[simp] theorem setReg_active (c : Card) (k : Nat) (w : Word) : (c.setReg k w).active = c.active := rfl
@[simp] theorem setReg_pendLay (c : Card) (k : Nat) (w : Word) : (c.setReg k w).pendLay = c.pendLay := rfl
@[simp] theorem setReg_loader (c : Card) (k : Nat) (w : Word) : (c.setReg k w).loader = c.loader := rfl
@[simp] theorem setReg_rings (c : Card) (k : Nat) (w : Word) : (c.setReg k w).rings = c.rings := rfl
@[simp] theorem setReg_sems (c : Card) (k : Nat) (w : Word) : (c.setReg k w).sems = c.sems := rfl
@[simp] theorem setReg_reads (c : Card) (k : Nat) (w : Word) : (c.setReg k w).reads = c.reads := rfl
@[simp] theorem setReg_cpls (c : Card) (k : Nat) (w : Word) : (c.setReg k w).cpls = c.cpls := rfl
@[simp] theorem setReg_nextRid (c : Card) (k : Nat) (w : Word) : (c.setReg k w).nextRid = c.nextRid := rfl
@[simp] theorem setReg_ctxs (c : Card) (k : Nat) (w : Word) : (c.setReg k w).ctxs = c.ctxs := rfl
@[simp] theorem setReg_owners (c : Card) (k : Nat) (w : Word) : (c.setReg k w).owners = c.owners := rfl
@[simp] theorem setReg_tlb (c : Card) (k : Nat) (w : Word) : (c.setReg k w).tlb = c.tlb := rfl
@[simp] theorem setReg_xlDraw (c : Card) (k : Nat) (w : Word) : (c.setReg k w).xlDraw = c.xlDraw := rfl
@[simp] theorem setReg_bufs (c : Card) (k : Nat) (w : Word) : (c.setReg k w).bufs = c.bufs := rfl
@[simp] theorem setReg_poolChk (c : Card) (k : Nat) (w : Word) : (c.setReg k w).poolChk = c.poolChk := rfl
@[simp] theorem setReg_mem (c : Card) (k : Nat) (w : Word) : (c.setReg k w).mem = c.mem := rfl
@[simp] theorem setReg_sram (c : Card) (k : Nat) (w : Word) : (c.setReg k w).sram = c.sram := rfl
@[simp] theorem setReg_rowsOpen (c : Card) (k : Nat) (w : Word) : (c.setReg k w).rowsOpen = c.rowsOpen := rfl
@[simp] theorem setReg_cache (c : Card) (k : Nat) (w : Word) : (c.setReg k w).cache = c.cache := rfl
@[simp] theorem setReg_useCount (c : Card) (k : Nat) (w : Word) : (c.setReg k w).useCount = c.useCount := rfl
@[simp] theorem setReg_delays (c : Card) (k : Nat) (w : Word) : (c.setReg k w).delays = c.delays := rfl
@[simp] theorem setReg_staged (c : Card) (k : Nat) (w : Word) : (c.setReg k w).staged = c.staged := rfl
@[simp] theorem setReg_lastUse (c : Card) (k : Nat) (w : Word) : (c.setReg k w).lastUse = c.lastUse := rfl
@[simp] theorem setReg_driftAt (c : Card) (k : Nat) (w : Word) : (c.setReg k w).driftAt = c.driftAt := rfl
@[simp] theorem setReg_migr (c : Card) (k : Nat) (w : Word) : (c.setReg k w).migr = c.migr := rfl
@[simp] theorem setReg_redirect (c : Card) (k : Nat) (w : Word) : (c.setReg k w).redirect = c.redirect := rfl
@[simp] theorem setReg_migrQ (c : Card) (k : Nat) (w : Word) : (c.setReg k w).migrQ = c.migrQ := rfl
@[simp] theorem setReg_heldAcc (c : Card) (k : Nat) (w : Word) : (c.setReg k w).heldAcc = c.heldAcc := rfl
@[simp] theorem setReg_on (c : Card) (k : Nat) (w : Word) : (c.setReg k w).on = c.on := rfl
@[simp] theorem setReg_timerFrac (c : Card) (k : Nat) (w : Word) : (c.setReg k w).timerFrac = c.timerFrac := rfl
@[simp] theorem setReg_winAt (c : Card) (k : Nat) (w : Word) : (c.setReg k w).winAt = c.winAt := rfl
@[simp] theorem setReg_winFrozen (c : Card) (k : Nat) (w : Word) : (c.setReg k w).winFrozen = c.winFrozen := rfl
@[simp] theorem setReg_refreeze (c : Card) (k : Nat) (w : Word) : (c.setReg k w).refreeze = c.refreeze := rfl
@[simp] theorem setReg_noRetention (c : Card) (k : Nat) (w : Word) : (c.setReg k w).noRetention = c.noRetention := rfl
@[simp] theorem setReg_stamps (c : Card) (k : Nat) (w : Word) : (c.setReg k w).stamps = c.stamps := rfl
@[simp] theorem setReg_fltMsg (c : Card) (k : Nat) (w : Word) : (c.setReg k w).fltMsg = c.fltMsg := rfl
@[simp] theorem setReg_matchHits (c : Card) (k : Nat) (w : Word) : (c.setReg k w).matchHits = c.matchHits := rfl
@[simp] theorem setReg_bursts (c : Card) (k : Nat) (w : Word) : (c.setReg k w).bursts = c.bursts := rfl
@[simp] theorem setReg_sramBad (c : Card) (k : Nat) (w : Word) : (c.setReg k w).sramBad = c.sramBad := rfl
@[simp] theorem setReg_ceLog (c : Card) (k : Nat) (w : Word) : (c.setReg k w).ceLog = c.ceLog := rfl
@[simp] theorem setReg_dlyPend (c : Card) (k : Nat) (w : Word) : (c.setReg k w).dlyPend = c.dlyPend := rfl
@[simp] theorem setReg_lost (c : Card) (k : Nat) (w : Word) : (c.setReg k w).lost = c.lost := rfl
@[simp] theorem setReg_windows (c : Card) (k : Nat) (w : Word) : (c.setReg k w).windows = c.windows := rfl
@[simp] theorem setReg_colPanic (c : Card) (k : Nat) (w : Word) : (c.setReg k w).colPanic = c.colPanic := rfl
@[simp] theorem setReg_rpBuf (c : Card) (k : Nat) (w : Word) : (c.setReg k w).rpBuf = c.rpBuf := rfl
@[simp] theorem setReg_rpPanic (c : Card) (k : Nat) (w : Word) : (c.setReg k w).rpPanic = c.rpPanic := rfl
@[simp] theorem setReg_colFence (c : Card) (k : Nat) (w : Word) : (c.setReg k w).colFence = c.colFence := rfl
@[simp] theorem setReg_rot (c : Card) (k : Nat) (w : Word) : (c.setReg k w).rot = c.rot := rfl
@[simp] theorem setReg_heldSigs (c : Card) (k : Nat) (w : Word) : (c.setReg k w).heldSigs = c.heldSigs := rfl
@[simp] theorem setReg_acceptNo (c : Card) (k : Nat) (w : Word) : (c.setReg k w).acceptNo = c.acceptNo := rfl
@[simp] theorem setReg_recs (c : Card) (k : Nat) (w : Word) : (c.setReg k w).recs = c.recs := rfl
@[simp] theorem setReg_epochs (c : Card) (k : Nat) (w : Word) : (c.setReg k w).epochs = c.epochs := rfl
@[simp] theorem setReg_epochAt (c : Card) (k : Nat) (w : Word) : (c.setReg k w).epochAt = c.epochAt := rfl
@[simp] theorem setReg_stTag (c : Card) (k : Nat) (w : Word) : (c.setReg k w).stTag = c.stTag := rfl
@[simp] theorem setReg_provLeaves (c : Card) (k : Nat) (w : Word) : (c.setReg k w).provLeaves = c.provLeaves := rfl
@[simp] theorem setReg_streams (c : Card) (k : Nat) (w : Word) : (c.setReg k w).streams = c.streams := rfl
@[simp] theorem setReg_slices (c : Card) (k : Nat) (w : Word) : (c.setReg k w).slices = c.slices := rfl
@[simp] theorem setReg_keys (c : Card) (k : Nat) (w : Word) : (c.setReg k w).keys = c.keys := rfl
@[simp] theorem setReg_trackers (c : Card) (k : Nat) (w : Word) : (c.setReg k w).trackers = c.trackers := rfl
@[simp] theorem setReg_ports (c : Card) (k : Nat) (w : Word) : (c.setReg k w).ports = c.ports := rfl
@[simp] theorem setReg_remotes (c : Card) (k : Nat) (w : Word) : (c.setReg k w).remotes = c.remotes := rfl
@[simp] theorem setReg_nextRemote (c : Card) (k : Nat) (w : Word) : (c.setReg k w).nextRemote = c.nextRemote := rfl
@[simp] theorem setReg_vcs (c : Card) (k : Nat) (w : Word) : (c.setReg k w).vcs = c.vcs := rfl
@[simp] theorem setReg_grSets (c : Card) (k : Nat) (w : Word) : (c.setReg k w).grSets = c.grSets := rfl
@[simp] theorem setReg_keep (c : Card) (k : Nat) (w : Word) : (c.setReg k w).keep = c.keep := rfl
@[simp] theorem setReg_presence (c : Card) (k : Nat) (w : Word) : (c.setReg k w).presence = c.presence := rfl
@[simp] theorem setReg_blown (c : Card) (k : Nat) (w : Word) : (c.setReg k w).blown = c.blown := rfl
@[simp] theorem setReg_fuseJob (c : Card) (k : Nat) (w : Word) : (c.setReg k w).fuseJob = c.fuseJob := rfl
@[simp] theorem setReg_gov (c : Card) (k : Nat) (w : Word) : (c.setReg k w).gov = c.gov := rfl
@[simp] theorem setReg_pin (c : Card) (k : Nat) (w : Word) : (c.setReg k w).pin = c.pin := rfl
@[simp] theorem setReg_freezeN (c : Card) (k : Nat) (w : Word) : (c.setReg k w).freezeN = c.freezeN := rfl
@[simp] theorem setReg_tap (c : Card) (k : Nat) (w : Word) : (c.setReg k w).tap = c.tap := rfl
@[simp] theorem setReg_board (c : Card) (k : Nat) (w : Word) : (c.setReg k w).board = c.board := rfl
@[simp] theorem setReg_coldMarginal (c : Card) (k : Nat) (w : Word) : (c.setReg k w).coldMarginal = c.coldMarginal := rfl
@[simp] theorem setReg_fresh (c : Card) (k : Nat) (w : Word) : (c.setReg k w).fresh = c.fresh := rfl
@[simp] theorem setReg_out (c : Card) (k : Nat) (w : Word) : (c.setReg k w).out = c.out := rfl

@[simp] theorem emit_clk (c : Card) (o : Out) : (c.emit o).clk = c.clk := rfl
@[simp] theorem emit_regs (c : Card) (o : Out) : (c.emit o).regs = c.regs := rfl
@[simp] theorem emit_caps (c : Card) (o : Out) : (c.emit o).caps = c.caps := rfl
@[simp] theorem emit_holds (c : Card) (o : Out) : (c.emit o).holds = c.holds := rfl
@[simp] theorem emit_cfg (c : Card) (o : Out) : (c.emit o).cfg = c.cfg := rfl
@[simp] theorem emit_aer (c : Card) (o : Out) : (c.emit o).aer = c.aer := rfl
@[simp] theorem emit_fns (c : Card) (o : Out) : (c.emit o).fns = c.fns := rfl
@[simp] theorem emit_pace (c : Card) (o : Out) : (c.emit o).pace = c.pace := rfl
@[simp] theorem emit_avs (c : Card) (o : Out) : (c.emit o).avs = c.avs := rfl
@[simp] theorem emit_active (c : Card) (o : Out) : (c.emit o).active = c.active := rfl
@[simp] theorem emit_pendLay (c : Card) (o : Out) : (c.emit o).pendLay = c.pendLay := rfl
@[simp] theorem emit_loader (c : Card) (o : Out) : (c.emit o).loader = c.loader := rfl
@[simp] theorem emit_rings (c : Card) (o : Out) : (c.emit o).rings = c.rings := rfl
@[simp] theorem emit_sems (c : Card) (o : Out) : (c.emit o).sems = c.sems := rfl
@[simp] theorem emit_reads (c : Card) (o : Out) : (c.emit o).reads = c.reads := rfl
@[simp] theorem emit_cpls (c : Card) (o : Out) : (c.emit o).cpls = c.cpls := rfl
@[simp] theorem emit_nextRid (c : Card) (o : Out) : (c.emit o).nextRid = c.nextRid := rfl
@[simp] theorem emit_ctxs (c : Card) (o : Out) : (c.emit o).ctxs = c.ctxs := rfl
@[simp] theorem emit_owners (c : Card) (o : Out) : (c.emit o).owners = c.owners := rfl
@[simp] theorem emit_tlb (c : Card) (o : Out) : (c.emit o).tlb = c.tlb := rfl
@[simp] theorem emit_xlDraw (c : Card) (o : Out) : (c.emit o).xlDraw = c.xlDraw := rfl
@[simp] theorem emit_bufs (c : Card) (o : Out) : (c.emit o).bufs = c.bufs := rfl
@[simp] theorem emit_poolChk (c : Card) (o : Out) : (c.emit o).poolChk = c.poolChk := rfl
@[simp] theorem emit_mem (c : Card) (o : Out) : (c.emit o).mem = c.mem := rfl
@[simp] theorem emit_sram (c : Card) (o : Out) : (c.emit o).sram = c.sram := rfl
@[simp] theorem emit_rowsOpen (c : Card) (o : Out) : (c.emit o).rowsOpen = c.rowsOpen := rfl
@[simp] theorem emit_cache (c : Card) (o : Out) : (c.emit o).cache = c.cache := rfl
@[simp] theorem emit_useCount (c : Card) (o : Out) : (c.emit o).useCount = c.useCount := rfl
@[simp] theorem emit_delays (c : Card) (o : Out) : (c.emit o).delays = c.delays := rfl
@[simp] theorem emit_staged (c : Card) (o : Out) : (c.emit o).staged = c.staged := rfl
@[simp] theorem emit_lastUse (c : Card) (o : Out) : (c.emit o).lastUse = c.lastUse := rfl
@[simp] theorem emit_driftAt (c : Card) (o : Out) : (c.emit o).driftAt = c.driftAt := rfl
@[simp] theorem emit_migr (c : Card) (o : Out) : (c.emit o).migr = c.migr := rfl
@[simp] theorem emit_redirect (c : Card) (o : Out) : (c.emit o).redirect = c.redirect := rfl
@[simp] theorem emit_migrQ (c : Card) (o : Out) : (c.emit o).migrQ = c.migrQ := rfl
@[simp] theorem emit_heldAcc (c : Card) (o : Out) : (c.emit o).heldAcc = c.heldAcc := rfl
@[simp] theorem emit_on (c : Card) (o : Out) : (c.emit o).on = c.on := rfl
@[simp] theorem emit_timerFrac (c : Card) (o : Out) : (c.emit o).timerFrac = c.timerFrac := rfl
@[simp] theorem emit_winAt (c : Card) (o : Out) : (c.emit o).winAt = c.winAt := rfl
@[simp] theorem emit_winFrozen (c : Card) (o : Out) : (c.emit o).winFrozen = c.winFrozen := rfl
@[simp] theorem emit_refreeze (c : Card) (o : Out) : (c.emit o).refreeze = c.refreeze := rfl
@[simp] theorem emit_noRetention (c : Card) (o : Out) : (c.emit o).noRetention = c.noRetention := rfl
@[simp] theorem emit_stamps (c : Card) (o : Out) : (c.emit o).stamps = c.stamps := rfl
@[simp] theorem emit_fltMsg (c : Card) (o : Out) : (c.emit o).fltMsg = c.fltMsg := rfl
@[simp] theorem emit_matchHits (c : Card) (o : Out) : (c.emit o).matchHits = c.matchHits := rfl
@[simp] theorem emit_bursts (c : Card) (o : Out) : (c.emit o).bursts = c.bursts := rfl
@[simp] theorem emit_sramBad (c : Card) (o : Out) : (c.emit o).sramBad = c.sramBad := rfl
@[simp] theorem emit_ceLog (c : Card) (o : Out) : (c.emit o).ceLog = c.ceLog := rfl
@[simp] theorem emit_dlyPend (c : Card) (o : Out) : (c.emit o).dlyPend = c.dlyPend := rfl
@[simp] theorem emit_lost (c : Card) (o : Out) : (c.emit o).lost = c.lost := rfl
@[simp] theorem emit_windows (c : Card) (o : Out) : (c.emit o).windows = c.windows := rfl
@[simp] theorem emit_colPanic (c : Card) (o : Out) : (c.emit o).colPanic = c.colPanic := rfl
@[simp] theorem emit_rpBuf (c : Card) (o : Out) : (c.emit o).rpBuf = c.rpBuf := rfl
@[simp] theorem emit_rpPanic (c : Card) (o : Out) : (c.emit o).rpPanic = c.rpPanic := rfl
@[simp] theorem emit_colFence (c : Card) (o : Out) : (c.emit o).colFence = c.colFence := rfl
@[simp] theorem emit_rot (c : Card) (o : Out) : (c.emit o).rot = c.rot := rfl
@[simp] theorem emit_heldSigs (c : Card) (o : Out) : (c.emit o).heldSigs = c.heldSigs := rfl
@[simp] theorem emit_acceptNo (c : Card) (o : Out) : (c.emit o).acceptNo = c.acceptNo := rfl
@[simp] theorem emit_recs (c : Card) (o : Out) : (c.emit o).recs = c.recs := rfl
@[simp] theorem emit_epochs (c : Card) (o : Out) : (c.emit o).epochs = c.epochs := rfl
@[simp] theorem emit_epochAt (c : Card) (o : Out) : (c.emit o).epochAt = c.epochAt := rfl
@[simp] theorem emit_stTag (c : Card) (o : Out) : (c.emit o).stTag = c.stTag := rfl
@[simp] theorem emit_provLeaves (c : Card) (o : Out) : (c.emit o).provLeaves = c.provLeaves := rfl
@[simp] theorem emit_streams (c : Card) (o : Out) : (c.emit o).streams = c.streams := rfl
@[simp] theorem emit_slices (c : Card) (o : Out) : (c.emit o).slices = c.slices := rfl
@[simp] theorem emit_keys (c : Card) (o : Out) : (c.emit o).keys = c.keys := rfl
@[simp] theorem emit_trackers (c : Card) (o : Out) : (c.emit o).trackers = c.trackers := rfl
@[simp] theorem emit_ports (c : Card) (o : Out) : (c.emit o).ports = c.ports := rfl
@[simp] theorem emit_remotes (c : Card) (o : Out) : (c.emit o).remotes = c.remotes := rfl
@[simp] theorem emit_nextRemote (c : Card) (o : Out) : (c.emit o).nextRemote = c.nextRemote := rfl
@[simp] theorem emit_vcs (c : Card) (o : Out) : (c.emit o).vcs = c.vcs := rfl
@[simp] theorem emit_grSets (c : Card) (o : Out) : (c.emit o).grSets = c.grSets := rfl
@[simp] theorem emit_keep (c : Card) (o : Out) : (c.emit o).keep = c.keep := rfl
@[simp] theorem emit_presence (c : Card) (o : Out) : (c.emit o).presence = c.presence := rfl
@[simp] theorem emit_blown (c : Card) (o : Out) : (c.emit o).blown = c.blown := rfl
@[simp] theorem emit_fuseJob (c : Card) (o : Out) : (c.emit o).fuseJob = c.fuseJob := rfl
@[simp] theorem emit_gov (c : Card) (o : Out) : (c.emit o).gov = c.gov := rfl
@[simp] theorem emit_pin (c : Card) (o : Out) : (c.emit o).pin = c.pin := rfl
@[simp] theorem emit_freezeN (c : Card) (o : Out) : (c.emit o).freezeN = c.freezeN := rfl
@[simp] theorem emit_tap (c : Card) (o : Out) : (c.emit o).tap = c.tap := rfl
@[simp] theorem emit_board (c : Card) (o : Out) : (c.emit o).board = c.board := rfl
@[simp] theorem emit_coldMarginal (c : Card) (o : Out) : (c.emit o).coldMarginal = c.coldMarginal := rfl
@[simp] theorem emit_fresh (c : Card) (o : Out) : (c.emit o).fresh = c.fresh := rfl

@[simp] theorem draw_clk (c : Card) : (c.draw).clk = c.clk := rfl
@[simp] theorem draw_regs (c : Card) : (c.draw).regs = c.regs := rfl
@[simp] theorem draw_caps (c : Card) : (c.draw).caps = c.caps := rfl
@[simp] theorem draw_holds (c : Card) : (c.draw).holds = c.holds := rfl
@[simp] theorem draw_cfg (c : Card) : (c.draw).cfg = c.cfg := rfl
@[simp] theorem draw_aer (c : Card) : (c.draw).aer = c.aer := rfl
@[simp] theorem draw_fns (c : Card) : (c.draw).fns = c.fns := rfl
@[simp] theorem draw_pace (c : Card) : (c.draw).pace = c.pace := rfl
@[simp] theorem draw_avs (c : Card) : (c.draw).avs = c.avs := rfl
@[simp] theorem draw_active (c : Card) : (c.draw).active = c.active := rfl
@[simp] theorem draw_pendLay (c : Card) : (c.draw).pendLay = c.pendLay := rfl
@[simp] theorem draw_loader (c : Card) : (c.draw).loader = c.loader := rfl
@[simp] theorem draw_rings (c : Card) : (c.draw).rings = c.rings := rfl
@[simp] theorem draw_sems (c : Card) : (c.draw).sems = c.sems := rfl
@[simp] theorem draw_reads (c : Card) : (c.draw).reads = c.reads := rfl
@[simp] theorem draw_cpls (c : Card) : (c.draw).cpls = c.cpls := rfl
@[simp] theorem draw_nextRid (c : Card) : (c.draw).nextRid = c.nextRid := rfl
@[simp] theorem draw_ctxs (c : Card) : (c.draw).ctxs = c.ctxs := rfl
@[simp] theorem draw_owners (c : Card) : (c.draw).owners = c.owners := rfl
@[simp] theorem draw_tlb (c : Card) : (c.draw).tlb = c.tlb := rfl
@[simp] theorem draw_xlDraw (c : Card) : (c.draw).xlDraw = c.xlDraw := rfl
@[simp] theorem draw_bufs (c : Card) : (c.draw).bufs = c.bufs := rfl
@[simp] theorem draw_poolChk (c : Card) : (c.draw).poolChk = c.poolChk := rfl
@[simp] theorem draw_mem (c : Card) : (c.draw).mem = c.mem := rfl
@[simp] theorem draw_sram (c : Card) : (c.draw).sram = c.sram := rfl
@[simp] theorem draw_rowsOpen (c : Card) : (c.draw).rowsOpen = c.rowsOpen := rfl
@[simp] theorem draw_cache (c : Card) : (c.draw).cache = c.cache := rfl
@[simp] theorem draw_useCount (c : Card) : (c.draw).useCount = c.useCount := rfl
@[simp] theorem draw_delays (c : Card) : (c.draw).delays = c.delays := rfl
@[simp] theorem draw_staged (c : Card) : (c.draw).staged = c.staged := rfl
@[simp] theorem draw_lastUse (c : Card) : (c.draw).lastUse = c.lastUse := rfl
@[simp] theorem draw_driftAt (c : Card) : (c.draw).driftAt = c.driftAt := rfl
@[simp] theorem draw_migr (c : Card) : (c.draw).migr = c.migr := rfl
@[simp] theorem draw_redirect (c : Card) : (c.draw).redirect = c.redirect := rfl
@[simp] theorem draw_migrQ (c : Card) : (c.draw).migrQ = c.migrQ := rfl
@[simp] theorem draw_heldAcc (c : Card) : (c.draw).heldAcc = c.heldAcc := rfl
@[simp] theorem draw_on (c : Card) : (c.draw).on = c.on := rfl
@[simp] theorem draw_timerFrac (c : Card) : (c.draw).timerFrac = c.timerFrac := rfl
@[simp] theorem draw_winAt (c : Card) : (c.draw).winAt = c.winAt := rfl
@[simp] theorem draw_winFrozen (c : Card) : (c.draw).winFrozen = c.winFrozen := rfl
@[simp] theorem draw_refreeze (c : Card) : (c.draw).refreeze = c.refreeze := rfl
@[simp] theorem draw_noRetention (c : Card) : (c.draw).noRetention = c.noRetention := rfl
@[simp] theorem draw_stamps (c : Card) : (c.draw).stamps = c.stamps := rfl
@[simp] theorem draw_fltMsg (c : Card) : (c.draw).fltMsg = c.fltMsg := rfl
@[simp] theorem draw_matchHits (c : Card) : (c.draw).matchHits = c.matchHits := rfl
@[simp] theorem draw_bursts (c : Card) : (c.draw).bursts = c.bursts := rfl
@[simp] theorem draw_sramBad (c : Card) : (c.draw).sramBad = c.sramBad := rfl
@[simp] theorem draw_ceLog (c : Card) : (c.draw).ceLog = c.ceLog := rfl
@[simp] theorem draw_dlyPend (c : Card) : (c.draw).dlyPend = c.dlyPend := rfl
@[simp] theorem draw_lost (c : Card) : (c.draw).lost = c.lost := rfl
@[simp] theorem draw_windows (c : Card) : (c.draw).windows = c.windows := rfl
@[simp] theorem draw_colPanic (c : Card) : (c.draw).colPanic = c.colPanic := rfl
@[simp] theorem draw_rpBuf (c : Card) : (c.draw).rpBuf = c.rpBuf := rfl
@[simp] theorem draw_rpPanic (c : Card) : (c.draw).rpPanic = c.rpPanic := rfl
@[simp] theorem draw_colFence (c : Card) : (c.draw).colFence = c.colFence := rfl
@[simp] theorem draw_rot (c : Card) : (c.draw).rot = c.rot := rfl
@[simp] theorem draw_heldSigs (c : Card) : (c.draw).heldSigs = c.heldSigs := rfl
@[simp] theorem draw_acceptNo (c : Card) : (c.draw).acceptNo = c.acceptNo := rfl
@[simp] theorem draw_recs (c : Card) : (c.draw).recs = c.recs := rfl
@[simp] theorem draw_epochs (c : Card) : (c.draw).epochs = c.epochs := rfl
@[simp] theorem draw_epochAt (c : Card) : (c.draw).epochAt = c.epochAt := rfl
@[simp] theorem draw_stTag (c : Card) : (c.draw).stTag = c.stTag := rfl
@[simp] theorem draw_provLeaves (c : Card) : (c.draw).provLeaves = c.provLeaves := rfl
@[simp] theorem draw_streams (c : Card) : (c.draw).streams = c.streams := rfl
@[simp] theorem draw_slices (c : Card) : (c.draw).slices = c.slices := rfl
@[simp] theorem draw_keys (c : Card) : (c.draw).keys = c.keys := rfl
@[simp] theorem draw_trackers (c : Card) : (c.draw).trackers = c.trackers := rfl
@[simp] theorem draw_ports (c : Card) : (c.draw).ports = c.ports := rfl
@[simp] theorem draw_remotes (c : Card) : (c.draw).remotes = c.remotes := rfl
@[simp] theorem draw_nextRemote (c : Card) : (c.draw).nextRemote = c.nextRemote := rfl
@[simp] theorem draw_vcs (c : Card) : (c.draw).vcs = c.vcs := rfl
@[simp] theorem draw_grSets (c : Card) : (c.draw).grSets = c.grSets := rfl
@[simp] theorem draw_keep (c : Card) : (c.draw).keep = c.keep := rfl
@[simp] theorem draw_presence (c : Card) : (c.draw).presence = c.presence := rfl
@[simp] theorem draw_blown (c : Card) : (c.draw).blown = c.blown := rfl
@[simp] theorem draw_fuseJob (c : Card) : (c.draw).fuseJob = c.fuseJob := rfl
@[simp] theorem draw_gov (c : Card) : (c.draw).gov = c.gov := rfl
@[simp] theorem draw_pin (c : Card) : (c.draw).pin = c.pin := rfl
@[simp] theorem draw_freezeN (c : Card) : (c.draw).freezeN = c.freezeN := rfl
@[simp] theorem draw_tap (c : Card) : (c.draw).tap = c.tap := rfl
@[simp] theorem draw_board (c : Card) : (c.draw).board = c.board := rfl
@[simp] theorem draw_coldMarginal (c : Card) : (c.draw).coldMarginal = c.coldMarginal := rfl
@[simp] theorem draw_out (c : Card) : (c.draw).out = c.out := rfl

@[simp] theorem setCfg_clk (c : Card) (n : Nat) (v : Cfg) : (c.setCfg n v).clk = c.clk := rfl
@[simp] theorem setCfg_regs (c : Card) (n : Nat) (v : Cfg) : (c.setCfg n v).regs = c.regs := rfl
@[simp] theorem setCfg_caps (c : Card) (n : Nat) (v : Cfg) : (c.setCfg n v).caps = c.caps := rfl
@[simp] theorem setCfg_holds (c : Card) (n : Nat) (v : Cfg) : (c.setCfg n v).holds = c.holds := rfl
@[simp] theorem setCfg_aer (c : Card) (n : Nat) (v : Cfg) : (c.setCfg n v).aer = c.aer := rfl
@[simp] theorem setCfg_fns (c : Card) (n : Nat) (v : Cfg) : (c.setCfg n v).fns = c.fns := rfl
@[simp] theorem setCfg_pace (c : Card) (n : Nat) (v : Cfg) : (c.setCfg n v).pace = c.pace := rfl
@[simp] theorem setCfg_avs (c : Card) (n : Nat) (v : Cfg) : (c.setCfg n v).avs = c.avs := rfl
@[simp] theorem setCfg_active (c : Card) (n : Nat) (v : Cfg) : (c.setCfg n v).active = c.active := rfl
@[simp] theorem setCfg_pendLay (c : Card) (n : Nat) (v : Cfg) : (c.setCfg n v).pendLay = c.pendLay := rfl
@[simp] theorem setCfg_loader (c : Card) (n : Nat) (v : Cfg) : (c.setCfg n v).loader = c.loader := rfl
@[simp] theorem setCfg_rings (c : Card) (n : Nat) (v : Cfg) : (c.setCfg n v).rings = c.rings := rfl
@[simp] theorem setCfg_sems (c : Card) (n : Nat) (v : Cfg) : (c.setCfg n v).sems = c.sems := rfl
@[simp] theorem setCfg_reads (c : Card) (n : Nat) (v : Cfg) : (c.setCfg n v).reads = c.reads := rfl
@[simp] theorem setCfg_cpls (c : Card) (n : Nat) (v : Cfg) : (c.setCfg n v).cpls = c.cpls := rfl
@[simp] theorem setCfg_nextRid (c : Card) (n : Nat) (v : Cfg) : (c.setCfg n v).nextRid = c.nextRid := rfl
@[simp] theorem setCfg_ctxs (c : Card) (n : Nat) (v : Cfg) : (c.setCfg n v).ctxs = c.ctxs := rfl
@[simp] theorem setCfg_owners (c : Card) (n : Nat) (v : Cfg) : (c.setCfg n v).owners = c.owners := rfl
@[simp] theorem setCfg_tlb (c : Card) (n : Nat) (v : Cfg) : (c.setCfg n v).tlb = c.tlb := rfl
@[simp] theorem setCfg_xlDraw (c : Card) (n : Nat) (v : Cfg) : (c.setCfg n v).xlDraw = c.xlDraw := rfl
@[simp] theorem setCfg_bufs (c : Card) (n : Nat) (v : Cfg) : (c.setCfg n v).bufs = c.bufs := rfl
@[simp] theorem setCfg_poolChk (c : Card) (n : Nat) (v : Cfg) : (c.setCfg n v).poolChk = c.poolChk := rfl
@[simp] theorem setCfg_mem (c : Card) (n : Nat) (v : Cfg) : (c.setCfg n v).mem = c.mem := rfl
@[simp] theorem setCfg_sram (c : Card) (n : Nat) (v : Cfg) : (c.setCfg n v).sram = c.sram := rfl
@[simp] theorem setCfg_rowsOpen (c : Card) (n : Nat) (v : Cfg) : (c.setCfg n v).rowsOpen = c.rowsOpen := rfl
@[simp] theorem setCfg_cache (c : Card) (n : Nat) (v : Cfg) : (c.setCfg n v).cache = c.cache := rfl
@[simp] theorem setCfg_useCount (c : Card) (n : Nat) (v : Cfg) : (c.setCfg n v).useCount = c.useCount := rfl
@[simp] theorem setCfg_delays (c : Card) (n : Nat) (v : Cfg) : (c.setCfg n v).delays = c.delays := rfl
@[simp] theorem setCfg_staged (c : Card) (n : Nat) (v : Cfg) : (c.setCfg n v).staged = c.staged := rfl
@[simp] theorem setCfg_lastUse (c : Card) (n : Nat) (v : Cfg) : (c.setCfg n v).lastUse = c.lastUse := rfl
@[simp] theorem setCfg_driftAt (c : Card) (n : Nat) (v : Cfg) : (c.setCfg n v).driftAt = c.driftAt := rfl
@[simp] theorem setCfg_migr (c : Card) (n : Nat) (v : Cfg) : (c.setCfg n v).migr = c.migr := rfl
@[simp] theorem setCfg_redirect (c : Card) (n : Nat) (v : Cfg) : (c.setCfg n v).redirect = c.redirect := rfl
@[simp] theorem setCfg_migrQ (c : Card) (n : Nat) (v : Cfg) : (c.setCfg n v).migrQ = c.migrQ := rfl
@[simp] theorem setCfg_heldAcc (c : Card) (n : Nat) (v : Cfg) : (c.setCfg n v).heldAcc = c.heldAcc := rfl
@[simp] theorem setCfg_on (c : Card) (n : Nat) (v : Cfg) : (c.setCfg n v).on = c.on := rfl
@[simp] theorem setCfg_timerFrac (c : Card) (n : Nat) (v : Cfg) : (c.setCfg n v).timerFrac = c.timerFrac := rfl
@[simp] theorem setCfg_winAt (c : Card) (n : Nat) (v : Cfg) : (c.setCfg n v).winAt = c.winAt := rfl
@[simp] theorem setCfg_winFrozen (c : Card) (n : Nat) (v : Cfg) : (c.setCfg n v).winFrozen = c.winFrozen := rfl
@[simp] theorem setCfg_refreeze (c : Card) (n : Nat) (v : Cfg) : (c.setCfg n v).refreeze = c.refreeze := rfl
@[simp] theorem setCfg_noRetention (c : Card) (n : Nat) (v : Cfg) : (c.setCfg n v).noRetention = c.noRetention := rfl
@[simp] theorem setCfg_stamps (c : Card) (n : Nat) (v : Cfg) : (c.setCfg n v).stamps = c.stamps := rfl
@[simp] theorem setCfg_fltMsg (c : Card) (n : Nat) (v : Cfg) : (c.setCfg n v).fltMsg = c.fltMsg := rfl
@[simp] theorem setCfg_matchHits (c : Card) (n : Nat) (v : Cfg) : (c.setCfg n v).matchHits = c.matchHits := rfl
@[simp] theorem setCfg_bursts (c : Card) (n : Nat) (v : Cfg) : (c.setCfg n v).bursts = c.bursts := rfl
@[simp] theorem setCfg_sramBad (c : Card) (n : Nat) (v : Cfg) : (c.setCfg n v).sramBad = c.sramBad := rfl
@[simp] theorem setCfg_ceLog (c : Card) (n : Nat) (v : Cfg) : (c.setCfg n v).ceLog = c.ceLog := rfl
@[simp] theorem setCfg_dlyPend (c : Card) (n : Nat) (v : Cfg) : (c.setCfg n v).dlyPend = c.dlyPend := rfl
@[simp] theorem setCfg_lost (c : Card) (n : Nat) (v : Cfg) : (c.setCfg n v).lost = c.lost := rfl
@[simp] theorem setCfg_windows (c : Card) (n : Nat) (v : Cfg) : (c.setCfg n v).windows = c.windows := rfl
@[simp] theorem setCfg_colPanic (c : Card) (n : Nat) (v : Cfg) : (c.setCfg n v).colPanic = c.colPanic := rfl
@[simp] theorem setCfg_rpBuf (c : Card) (n : Nat) (v : Cfg) : (c.setCfg n v).rpBuf = c.rpBuf := rfl
@[simp] theorem setCfg_rpPanic (c : Card) (n : Nat) (v : Cfg) : (c.setCfg n v).rpPanic = c.rpPanic := rfl
@[simp] theorem setCfg_colFence (c : Card) (n : Nat) (v : Cfg) : (c.setCfg n v).colFence = c.colFence := rfl
@[simp] theorem setCfg_rot (c : Card) (n : Nat) (v : Cfg) : (c.setCfg n v).rot = c.rot := rfl
@[simp] theorem setCfg_heldSigs (c : Card) (n : Nat) (v : Cfg) : (c.setCfg n v).heldSigs = c.heldSigs := rfl
@[simp] theorem setCfg_acceptNo (c : Card) (n : Nat) (v : Cfg) : (c.setCfg n v).acceptNo = c.acceptNo := rfl
@[simp] theorem setCfg_recs (c : Card) (n : Nat) (v : Cfg) : (c.setCfg n v).recs = c.recs := rfl
@[simp] theorem setCfg_epochs (c : Card) (n : Nat) (v : Cfg) : (c.setCfg n v).epochs = c.epochs := rfl
@[simp] theorem setCfg_epochAt (c : Card) (n : Nat) (v : Cfg) : (c.setCfg n v).epochAt = c.epochAt := rfl
@[simp] theorem setCfg_stTag (c : Card) (n : Nat) (v : Cfg) : (c.setCfg n v).stTag = c.stTag := rfl
@[simp] theorem setCfg_provLeaves (c : Card) (n : Nat) (v : Cfg) : (c.setCfg n v).provLeaves = c.provLeaves := rfl
@[simp] theorem setCfg_streams (c : Card) (n : Nat) (v : Cfg) : (c.setCfg n v).streams = c.streams := rfl
@[simp] theorem setCfg_slices (c : Card) (n : Nat) (v : Cfg) : (c.setCfg n v).slices = c.slices := rfl
@[simp] theorem setCfg_keys (c : Card) (n : Nat) (v : Cfg) : (c.setCfg n v).keys = c.keys := rfl
@[simp] theorem setCfg_trackers (c : Card) (n : Nat) (v : Cfg) : (c.setCfg n v).trackers = c.trackers := rfl
@[simp] theorem setCfg_ports (c : Card) (n : Nat) (v : Cfg) : (c.setCfg n v).ports = c.ports := rfl
@[simp] theorem setCfg_remotes (c : Card) (n : Nat) (v : Cfg) : (c.setCfg n v).remotes = c.remotes := rfl
@[simp] theorem setCfg_nextRemote (c : Card) (n : Nat) (v : Cfg) : (c.setCfg n v).nextRemote = c.nextRemote := rfl
@[simp] theorem setCfg_vcs (c : Card) (n : Nat) (v : Cfg) : (c.setCfg n v).vcs = c.vcs := rfl
@[simp] theorem setCfg_grSets (c : Card) (n : Nat) (v : Cfg) : (c.setCfg n v).grSets = c.grSets := rfl
@[simp] theorem setCfg_keep (c : Card) (n : Nat) (v : Cfg) : (c.setCfg n v).keep = c.keep := rfl
@[simp] theorem setCfg_presence (c : Card) (n : Nat) (v : Cfg) : (c.setCfg n v).presence = c.presence := rfl
@[simp] theorem setCfg_blown (c : Card) (n : Nat) (v : Cfg) : (c.setCfg n v).blown = c.blown := rfl
@[simp] theorem setCfg_fuseJob (c : Card) (n : Nat) (v : Cfg) : (c.setCfg n v).fuseJob = c.fuseJob := rfl
@[simp] theorem setCfg_gov (c : Card) (n : Nat) (v : Cfg) : (c.setCfg n v).gov = c.gov := rfl
@[simp] theorem setCfg_pin (c : Card) (n : Nat) (v : Cfg) : (c.setCfg n v).pin = c.pin := rfl
@[simp] theorem setCfg_freezeN (c : Card) (n : Nat) (v : Cfg) : (c.setCfg n v).freezeN = c.freezeN := rfl
@[simp] theorem setCfg_tap (c : Card) (n : Nat) (v : Cfg) : (c.setCfg n v).tap = c.tap := rfl
@[simp] theorem setCfg_board (c : Card) (n : Nat) (v : Cfg) : (c.setCfg n v).board = c.board := rfl
@[simp] theorem setCfg_coldMarginal (c : Card) (n : Nat) (v : Cfg) : (c.setCfg n v).coldMarginal = c.coldMarginal := rfl
@[simp] theorem setCfg_fresh (c : Card) (n : Nat) (v : Cfg) : (c.setCfg n v).fresh = c.fresh := rfl
@[simp] theorem setCfg_out (c : Card) (n : Nat) (v : Cfg) : (c.setCfg n v).out = c.out := rfl

@[simp] theorem setFn_clk (c : Card) (n : Nat) (v : FnState) : (c.setFn n v).clk = c.clk := rfl
@[simp] theorem setFn_regs (c : Card) (n : Nat) (v : FnState) : (c.setFn n v).regs = c.regs := rfl
@[simp] theorem setFn_caps (c : Card) (n : Nat) (v : FnState) : (c.setFn n v).caps = c.caps := rfl
@[simp] theorem setFn_holds (c : Card) (n : Nat) (v : FnState) : (c.setFn n v).holds = c.holds := rfl
@[simp] theorem setFn_cfg (c : Card) (n : Nat) (v : FnState) : (c.setFn n v).cfg = c.cfg := rfl
@[simp] theorem setFn_aer (c : Card) (n : Nat) (v : FnState) : (c.setFn n v).aer = c.aer := rfl
@[simp] theorem setFn_pace (c : Card) (n : Nat) (v : FnState) : (c.setFn n v).pace = c.pace := rfl
@[simp] theorem setFn_avs (c : Card) (n : Nat) (v : FnState) : (c.setFn n v).avs = c.avs := rfl
@[simp] theorem setFn_active (c : Card) (n : Nat) (v : FnState) : (c.setFn n v).active = c.active := rfl
@[simp] theorem setFn_pendLay (c : Card) (n : Nat) (v : FnState) : (c.setFn n v).pendLay = c.pendLay := rfl
@[simp] theorem setFn_loader (c : Card) (n : Nat) (v : FnState) : (c.setFn n v).loader = c.loader := rfl
@[simp] theorem setFn_rings (c : Card) (n : Nat) (v : FnState) : (c.setFn n v).rings = c.rings := rfl
@[simp] theorem setFn_sems (c : Card) (n : Nat) (v : FnState) : (c.setFn n v).sems = c.sems := rfl
@[simp] theorem setFn_reads (c : Card) (n : Nat) (v : FnState) : (c.setFn n v).reads = c.reads := rfl
@[simp] theorem setFn_cpls (c : Card) (n : Nat) (v : FnState) : (c.setFn n v).cpls = c.cpls := rfl
@[simp] theorem setFn_nextRid (c : Card) (n : Nat) (v : FnState) : (c.setFn n v).nextRid = c.nextRid := rfl
@[simp] theorem setFn_ctxs (c : Card) (n : Nat) (v : FnState) : (c.setFn n v).ctxs = c.ctxs := rfl
@[simp] theorem setFn_owners (c : Card) (n : Nat) (v : FnState) : (c.setFn n v).owners = c.owners := rfl
@[simp] theorem setFn_tlb (c : Card) (n : Nat) (v : FnState) : (c.setFn n v).tlb = c.tlb := rfl
@[simp] theorem setFn_xlDraw (c : Card) (n : Nat) (v : FnState) : (c.setFn n v).xlDraw = c.xlDraw := rfl
@[simp] theorem setFn_bufs (c : Card) (n : Nat) (v : FnState) : (c.setFn n v).bufs = c.bufs := rfl
@[simp] theorem setFn_poolChk (c : Card) (n : Nat) (v : FnState) : (c.setFn n v).poolChk = c.poolChk := rfl
@[simp] theorem setFn_mem (c : Card) (n : Nat) (v : FnState) : (c.setFn n v).mem = c.mem := rfl
@[simp] theorem setFn_sram (c : Card) (n : Nat) (v : FnState) : (c.setFn n v).sram = c.sram := rfl
@[simp] theorem setFn_rowsOpen (c : Card) (n : Nat) (v : FnState) : (c.setFn n v).rowsOpen = c.rowsOpen := rfl
@[simp] theorem setFn_cache (c : Card) (n : Nat) (v : FnState) : (c.setFn n v).cache = c.cache := rfl
@[simp] theorem setFn_useCount (c : Card) (n : Nat) (v : FnState) : (c.setFn n v).useCount = c.useCount := rfl
@[simp] theorem setFn_delays (c : Card) (n : Nat) (v : FnState) : (c.setFn n v).delays = c.delays := rfl
@[simp] theorem setFn_staged (c : Card) (n : Nat) (v : FnState) : (c.setFn n v).staged = c.staged := rfl
@[simp] theorem setFn_lastUse (c : Card) (n : Nat) (v : FnState) : (c.setFn n v).lastUse = c.lastUse := rfl
@[simp] theorem setFn_driftAt (c : Card) (n : Nat) (v : FnState) : (c.setFn n v).driftAt = c.driftAt := rfl
@[simp] theorem setFn_migr (c : Card) (n : Nat) (v : FnState) : (c.setFn n v).migr = c.migr := rfl
@[simp] theorem setFn_redirect (c : Card) (n : Nat) (v : FnState) : (c.setFn n v).redirect = c.redirect := rfl
@[simp] theorem setFn_migrQ (c : Card) (n : Nat) (v : FnState) : (c.setFn n v).migrQ = c.migrQ := rfl
@[simp] theorem setFn_heldAcc (c : Card) (n : Nat) (v : FnState) : (c.setFn n v).heldAcc = c.heldAcc := rfl
@[simp] theorem setFn_on (c : Card) (n : Nat) (v : FnState) : (c.setFn n v).on = c.on := rfl
@[simp] theorem setFn_timerFrac (c : Card) (n : Nat) (v : FnState) : (c.setFn n v).timerFrac = c.timerFrac := rfl
@[simp] theorem setFn_winAt (c : Card) (n : Nat) (v : FnState) : (c.setFn n v).winAt = c.winAt := rfl
@[simp] theorem setFn_winFrozen (c : Card) (n : Nat) (v : FnState) : (c.setFn n v).winFrozen = c.winFrozen := rfl
@[simp] theorem setFn_refreeze (c : Card) (n : Nat) (v : FnState) : (c.setFn n v).refreeze = c.refreeze := rfl
@[simp] theorem setFn_noRetention (c : Card) (n : Nat) (v : FnState) : (c.setFn n v).noRetention = c.noRetention := rfl
@[simp] theorem setFn_stamps (c : Card) (n : Nat) (v : FnState) : (c.setFn n v).stamps = c.stamps := rfl
@[simp] theorem setFn_fltMsg (c : Card) (n : Nat) (v : FnState) : (c.setFn n v).fltMsg = c.fltMsg := rfl
@[simp] theorem setFn_matchHits (c : Card) (n : Nat) (v : FnState) : (c.setFn n v).matchHits = c.matchHits := rfl
@[simp] theorem setFn_bursts (c : Card) (n : Nat) (v : FnState) : (c.setFn n v).bursts = c.bursts := rfl
@[simp] theorem setFn_sramBad (c : Card) (n : Nat) (v : FnState) : (c.setFn n v).sramBad = c.sramBad := rfl
@[simp] theorem setFn_ceLog (c : Card) (n : Nat) (v : FnState) : (c.setFn n v).ceLog = c.ceLog := rfl
@[simp] theorem setFn_dlyPend (c : Card) (n : Nat) (v : FnState) : (c.setFn n v).dlyPend = c.dlyPend := rfl
@[simp] theorem setFn_lost (c : Card) (n : Nat) (v : FnState) : (c.setFn n v).lost = c.lost := rfl
@[simp] theorem setFn_windows (c : Card) (n : Nat) (v : FnState) : (c.setFn n v).windows = c.windows := rfl
@[simp] theorem setFn_colPanic (c : Card) (n : Nat) (v : FnState) : (c.setFn n v).colPanic = c.colPanic := rfl
@[simp] theorem setFn_rpBuf (c : Card) (n : Nat) (v : FnState) : (c.setFn n v).rpBuf = c.rpBuf := rfl
@[simp] theorem setFn_rpPanic (c : Card) (n : Nat) (v : FnState) : (c.setFn n v).rpPanic = c.rpPanic := rfl
@[simp] theorem setFn_colFence (c : Card) (n : Nat) (v : FnState) : (c.setFn n v).colFence = c.colFence := rfl
@[simp] theorem setFn_rot (c : Card) (n : Nat) (v : FnState) : (c.setFn n v).rot = c.rot := rfl
@[simp] theorem setFn_heldSigs (c : Card) (n : Nat) (v : FnState) : (c.setFn n v).heldSigs = c.heldSigs := rfl
@[simp] theorem setFn_acceptNo (c : Card) (n : Nat) (v : FnState) : (c.setFn n v).acceptNo = c.acceptNo := rfl
@[simp] theorem setFn_recs (c : Card) (n : Nat) (v : FnState) : (c.setFn n v).recs = c.recs := rfl
@[simp] theorem setFn_epochs (c : Card) (n : Nat) (v : FnState) : (c.setFn n v).epochs = c.epochs := rfl
@[simp] theorem setFn_epochAt (c : Card) (n : Nat) (v : FnState) : (c.setFn n v).epochAt = c.epochAt := rfl
@[simp] theorem setFn_stTag (c : Card) (n : Nat) (v : FnState) : (c.setFn n v).stTag = c.stTag := rfl
@[simp] theorem setFn_provLeaves (c : Card) (n : Nat) (v : FnState) : (c.setFn n v).provLeaves = c.provLeaves := rfl
@[simp] theorem setFn_streams (c : Card) (n : Nat) (v : FnState) : (c.setFn n v).streams = c.streams := rfl
@[simp] theorem setFn_slices (c : Card) (n : Nat) (v : FnState) : (c.setFn n v).slices = c.slices := rfl
@[simp] theorem setFn_keys (c : Card) (n : Nat) (v : FnState) : (c.setFn n v).keys = c.keys := rfl
@[simp] theorem setFn_trackers (c : Card) (n : Nat) (v : FnState) : (c.setFn n v).trackers = c.trackers := rfl
@[simp] theorem setFn_ports (c : Card) (n : Nat) (v : FnState) : (c.setFn n v).ports = c.ports := rfl
@[simp] theorem setFn_remotes (c : Card) (n : Nat) (v : FnState) : (c.setFn n v).remotes = c.remotes := rfl
@[simp] theorem setFn_nextRemote (c : Card) (n : Nat) (v : FnState) : (c.setFn n v).nextRemote = c.nextRemote := rfl
@[simp] theorem setFn_vcs (c : Card) (n : Nat) (v : FnState) : (c.setFn n v).vcs = c.vcs := rfl
@[simp] theorem setFn_grSets (c : Card) (n : Nat) (v : FnState) : (c.setFn n v).grSets = c.grSets := rfl
@[simp] theorem setFn_keep (c : Card) (n : Nat) (v : FnState) : (c.setFn n v).keep = c.keep := rfl
@[simp] theorem setFn_presence (c : Card) (n : Nat) (v : FnState) : (c.setFn n v).presence = c.presence := rfl
@[simp] theorem setFn_blown (c : Card) (n : Nat) (v : FnState) : (c.setFn n v).blown = c.blown := rfl
@[simp] theorem setFn_fuseJob (c : Card) (n : Nat) (v : FnState) : (c.setFn n v).fuseJob = c.fuseJob := rfl
@[simp] theorem setFn_gov (c : Card) (n : Nat) (v : FnState) : (c.setFn n v).gov = c.gov := rfl
@[simp] theorem setFn_pin (c : Card) (n : Nat) (v : FnState) : (c.setFn n v).pin = c.pin := rfl
@[simp] theorem setFn_freezeN (c : Card) (n : Nat) (v : FnState) : (c.setFn n v).freezeN = c.freezeN := rfl
@[simp] theorem setFn_tap (c : Card) (n : Nat) (v : FnState) : (c.setFn n v).tap = c.tap := rfl
@[simp] theorem setFn_board (c : Card) (n : Nat) (v : FnState) : (c.setFn n v).board = c.board := rfl
@[simp] theorem setFn_coldMarginal (c : Card) (n : Nat) (v : FnState) : (c.setFn n v).coldMarginal = c.coldMarginal := rfl
@[simp] theorem setFn_fresh (c : Card) (n : Nat) (v : FnState) : (c.setFn n v).fresh = c.fresh := rfl
@[simp] theorem setFn_out (c : Card) (n : Nat) (v : FnState) : (c.setFn n v).out = c.out := rfl

@[simp] theorem setRing_clk (c : Card) (h r : Nat) (v : Ring) : (c.setRing h r v).clk = c.clk := rfl
@[simp] theorem setRing_regs (c : Card) (h r : Nat) (v : Ring) : (c.setRing h r v).regs = c.regs := rfl
@[simp] theorem setRing_caps (c : Card) (h r : Nat) (v : Ring) : (c.setRing h r v).caps = c.caps := rfl
@[simp] theorem setRing_holds (c : Card) (h r : Nat) (v : Ring) : (c.setRing h r v).holds = c.holds := rfl
@[simp] theorem setRing_cfg (c : Card) (h r : Nat) (v : Ring) : (c.setRing h r v).cfg = c.cfg := rfl
@[simp] theorem setRing_aer (c : Card) (h r : Nat) (v : Ring) : (c.setRing h r v).aer = c.aer := rfl
@[simp] theorem setRing_fns (c : Card) (h r : Nat) (v : Ring) : (c.setRing h r v).fns = c.fns := rfl
@[simp] theorem setRing_pace (c : Card) (h r : Nat) (v : Ring) : (c.setRing h r v).pace = c.pace := rfl
@[simp] theorem setRing_avs (c : Card) (h r : Nat) (v : Ring) : (c.setRing h r v).avs = c.avs := rfl
@[simp] theorem setRing_active (c : Card) (h r : Nat) (v : Ring) : (c.setRing h r v).active = c.active := rfl
@[simp] theorem setRing_pendLay (c : Card) (h r : Nat) (v : Ring) : (c.setRing h r v).pendLay = c.pendLay := rfl
@[simp] theorem setRing_loader (c : Card) (h r : Nat) (v : Ring) : (c.setRing h r v).loader = c.loader := rfl
@[simp] theorem setRing_sems (c : Card) (h r : Nat) (v : Ring) : (c.setRing h r v).sems = c.sems := rfl
@[simp] theorem setRing_reads (c : Card) (h r : Nat) (v : Ring) : (c.setRing h r v).reads = c.reads := rfl
@[simp] theorem setRing_cpls (c : Card) (h r : Nat) (v : Ring) : (c.setRing h r v).cpls = c.cpls := rfl
@[simp] theorem setRing_nextRid (c : Card) (h r : Nat) (v : Ring) : (c.setRing h r v).nextRid = c.nextRid := rfl
@[simp] theorem setRing_ctxs (c : Card) (h r : Nat) (v : Ring) : (c.setRing h r v).ctxs = c.ctxs := rfl
@[simp] theorem setRing_owners (c : Card) (h r : Nat) (v : Ring) : (c.setRing h r v).owners = c.owners := rfl
@[simp] theorem setRing_tlb (c : Card) (h r : Nat) (v : Ring) : (c.setRing h r v).tlb = c.tlb := rfl
@[simp] theorem setRing_xlDraw (c : Card) (h r : Nat) (v : Ring) : (c.setRing h r v).xlDraw = c.xlDraw := rfl
@[simp] theorem setRing_bufs (c : Card) (h r : Nat) (v : Ring) : (c.setRing h r v).bufs = c.bufs := rfl
@[simp] theorem setRing_poolChk (c : Card) (h r : Nat) (v : Ring) : (c.setRing h r v).poolChk = c.poolChk := rfl
@[simp] theorem setRing_mem (c : Card) (h r : Nat) (v : Ring) : (c.setRing h r v).mem = c.mem := rfl
@[simp] theorem setRing_sram (c : Card) (h r : Nat) (v : Ring) : (c.setRing h r v).sram = c.sram := rfl
@[simp] theorem setRing_rowsOpen (c : Card) (h r : Nat) (v : Ring) : (c.setRing h r v).rowsOpen = c.rowsOpen := rfl
@[simp] theorem setRing_cache (c : Card) (h r : Nat) (v : Ring) : (c.setRing h r v).cache = c.cache := rfl
@[simp] theorem setRing_useCount (c : Card) (h r : Nat) (v : Ring) : (c.setRing h r v).useCount = c.useCount := rfl
@[simp] theorem setRing_delays (c : Card) (h r : Nat) (v : Ring) : (c.setRing h r v).delays = c.delays := rfl
@[simp] theorem setRing_staged (c : Card) (h r : Nat) (v : Ring) : (c.setRing h r v).staged = c.staged := rfl
@[simp] theorem setRing_lastUse (c : Card) (h r : Nat) (v : Ring) : (c.setRing h r v).lastUse = c.lastUse := rfl
@[simp] theorem setRing_driftAt (c : Card) (h r : Nat) (v : Ring) : (c.setRing h r v).driftAt = c.driftAt := rfl
@[simp] theorem setRing_migr (c : Card) (h r : Nat) (v : Ring) : (c.setRing h r v).migr = c.migr := rfl
@[simp] theorem setRing_redirect (c : Card) (h r : Nat) (v : Ring) : (c.setRing h r v).redirect = c.redirect := rfl
@[simp] theorem setRing_migrQ (c : Card) (h r : Nat) (v : Ring) : (c.setRing h r v).migrQ = c.migrQ := rfl
@[simp] theorem setRing_heldAcc (c : Card) (h r : Nat) (v : Ring) : (c.setRing h r v).heldAcc = c.heldAcc := rfl
@[simp] theorem setRing_on (c : Card) (h r : Nat) (v : Ring) : (c.setRing h r v).on = c.on := rfl
@[simp] theorem setRing_timerFrac (c : Card) (h r : Nat) (v : Ring) : (c.setRing h r v).timerFrac = c.timerFrac := rfl
@[simp] theorem setRing_winAt (c : Card) (h r : Nat) (v : Ring) : (c.setRing h r v).winAt = c.winAt := rfl
@[simp] theorem setRing_winFrozen (c : Card) (h r : Nat) (v : Ring) : (c.setRing h r v).winFrozen = c.winFrozen := rfl
@[simp] theorem setRing_refreeze (c : Card) (h r : Nat) (v : Ring) : (c.setRing h r v).refreeze = c.refreeze := rfl
@[simp] theorem setRing_noRetention (c : Card) (h r : Nat) (v : Ring) : (c.setRing h r v).noRetention = c.noRetention := rfl
@[simp] theorem setRing_stamps (c : Card) (h r : Nat) (v : Ring) : (c.setRing h r v).stamps = c.stamps := rfl
@[simp] theorem setRing_fltMsg (c : Card) (h r : Nat) (v : Ring) : (c.setRing h r v).fltMsg = c.fltMsg := rfl
@[simp] theorem setRing_matchHits (c : Card) (h r : Nat) (v : Ring) : (c.setRing h r v).matchHits = c.matchHits := rfl
@[simp] theorem setRing_bursts (c : Card) (h r : Nat) (v : Ring) : (c.setRing h r v).bursts = c.bursts := rfl
@[simp] theorem setRing_sramBad (c : Card) (h r : Nat) (v : Ring) : (c.setRing h r v).sramBad = c.sramBad := rfl
@[simp] theorem setRing_ceLog (c : Card) (h r : Nat) (v : Ring) : (c.setRing h r v).ceLog = c.ceLog := rfl
@[simp] theorem setRing_dlyPend (c : Card) (h r : Nat) (v : Ring) : (c.setRing h r v).dlyPend = c.dlyPend := rfl
@[simp] theorem setRing_lost (c : Card) (h r : Nat) (v : Ring) : (c.setRing h r v).lost = c.lost := rfl
@[simp] theorem setRing_windows (c : Card) (h r : Nat) (v : Ring) : (c.setRing h r v).windows = c.windows := rfl
@[simp] theorem setRing_colPanic (c : Card) (h r : Nat) (v : Ring) : (c.setRing h r v).colPanic = c.colPanic := rfl
@[simp] theorem setRing_rpBuf (c : Card) (h r : Nat) (v : Ring) : (c.setRing h r v).rpBuf = c.rpBuf := rfl
@[simp] theorem setRing_rpPanic (c : Card) (h r : Nat) (v : Ring) : (c.setRing h r v).rpPanic = c.rpPanic := rfl
@[simp] theorem setRing_colFence (c : Card) (h r : Nat) (v : Ring) : (c.setRing h r v).colFence = c.colFence := rfl
@[simp] theorem setRing_rot (c : Card) (h r : Nat) (v : Ring) : (c.setRing h r v).rot = c.rot := rfl
@[simp] theorem setRing_heldSigs (c : Card) (h r : Nat) (v : Ring) : (c.setRing h r v).heldSigs = c.heldSigs := rfl
@[simp] theorem setRing_acceptNo (c : Card) (h r : Nat) (v : Ring) : (c.setRing h r v).acceptNo = c.acceptNo := rfl
@[simp] theorem setRing_recs (c : Card) (h r : Nat) (v : Ring) : (c.setRing h r v).recs = c.recs := rfl
@[simp] theorem setRing_epochs (c : Card) (h r : Nat) (v : Ring) : (c.setRing h r v).epochs = c.epochs := rfl
@[simp] theorem setRing_epochAt (c : Card) (h r : Nat) (v : Ring) : (c.setRing h r v).epochAt = c.epochAt := rfl
@[simp] theorem setRing_stTag (c : Card) (h r : Nat) (v : Ring) : (c.setRing h r v).stTag = c.stTag := rfl
@[simp] theorem setRing_provLeaves (c : Card) (h r : Nat) (v : Ring) : (c.setRing h r v).provLeaves = c.provLeaves := rfl
@[simp] theorem setRing_streams (c : Card) (h r : Nat) (v : Ring) : (c.setRing h r v).streams = c.streams := rfl
@[simp] theorem setRing_slices (c : Card) (h r : Nat) (v : Ring) : (c.setRing h r v).slices = c.slices := rfl
@[simp] theorem setRing_keys (c : Card) (h r : Nat) (v : Ring) : (c.setRing h r v).keys = c.keys := rfl
@[simp] theorem setRing_trackers (c : Card) (h r : Nat) (v : Ring) : (c.setRing h r v).trackers = c.trackers := rfl
@[simp] theorem setRing_ports (c : Card) (h r : Nat) (v : Ring) : (c.setRing h r v).ports = c.ports := rfl
@[simp] theorem setRing_remotes (c : Card) (h r : Nat) (v : Ring) : (c.setRing h r v).remotes = c.remotes := rfl
@[simp] theorem setRing_nextRemote (c : Card) (h r : Nat) (v : Ring) : (c.setRing h r v).nextRemote = c.nextRemote := rfl
@[simp] theorem setRing_vcs (c : Card) (h r : Nat) (v : Ring) : (c.setRing h r v).vcs = c.vcs := rfl
@[simp] theorem setRing_grSets (c : Card) (h r : Nat) (v : Ring) : (c.setRing h r v).grSets = c.grSets := rfl
@[simp] theorem setRing_keep (c : Card) (h r : Nat) (v : Ring) : (c.setRing h r v).keep = c.keep := rfl
@[simp] theorem setRing_presence (c : Card) (h r : Nat) (v : Ring) : (c.setRing h r v).presence = c.presence := rfl
@[simp] theorem setRing_blown (c : Card) (h r : Nat) (v : Ring) : (c.setRing h r v).blown = c.blown := rfl
@[simp] theorem setRing_fuseJob (c : Card) (h r : Nat) (v : Ring) : (c.setRing h r v).fuseJob = c.fuseJob := rfl
@[simp] theorem setRing_gov (c : Card) (h r : Nat) (v : Ring) : (c.setRing h r v).gov = c.gov := rfl
@[simp] theorem setRing_pin (c : Card) (h r : Nat) (v : Ring) : (c.setRing h r v).pin = c.pin := rfl
@[simp] theorem setRing_freezeN (c : Card) (h r : Nat) (v : Ring) : (c.setRing h r v).freezeN = c.freezeN := rfl
@[simp] theorem setRing_tap (c : Card) (h r : Nat) (v : Ring) : (c.setRing h r v).tap = c.tap := rfl
@[simp] theorem setRing_board (c : Card) (h r : Nat) (v : Ring) : (c.setRing h r v).board = c.board := rfl
@[simp] theorem setRing_coldMarginal (c : Card) (h r : Nat) (v : Ring) : (c.setRing h r v).coldMarginal = c.coldMarginal := rfl
@[simp] theorem setRing_fresh (c : Card) (h r : Nat) (v : Ring) : (c.setRing h r v).fresh = c.fresh := rfl
@[simp] theorem setRing_out (c : Card) (h r : Nat) (v : Ring) : (c.setRing h r v).out = c.out := rfl

@[simp] theorem memPut_clk (c : Card) (a : Nat) (b : Byte) : (c.memPut a b).clk = c.clk := rfl
@[simp] theorem memPut_regs (c : Card) (a : Nat) (b : Byte) : (c.memPut a b).regs = c.regs := rfl
@[simp] theorem memPut_caps (c : Card) (a : Nat) (b : Byte) : (c.memPut a b).caps = c.caps := rfl
@[simp] theorem memPut_holds (c : Card) (a : Nat) (b : Byte) : (c.memPut a b).holds = c.holds := rfl
@[simp] theorem memPut_cfg (c : Card) (a : Nat) (b : Byte) : (c.memPut a b).cfg = c.cfg := rfl
@[simp] theorem memPut_aer (c : Card) (a : Nat) (b : Byte) : (c.memPut a b).aer = c.aer := rfl
@[simp] theorem memPut_fns (c : Card) (a : Nat) (b : Byte) : (c.memPut a b).fns = c.fns := rfl
@[simp] theorem memPut_pace (c : Card) (a : Nat) (b : Byte) : (c.memPut a b).pace = c.pace := rfl
@[simp] theorem memPut_avs (c : Card) (a : Nat) (b : Byte) : (c.memPut a b).avs = c.avs := rfl
@[simp] theorem memPut_active (c : Card) (a : Nat) (b : Byte) : (c.memPut a b).active = c.active := rfl
@[simp] theorem memPut_pendLay (c : Card) (a : Nat) (b : Byte) : (c.memPut a b).pendLay = c.pendLay := rfl
@[simp] theorem memPut_loader (c : Card) (a : Nat) (b : Byte) : (c.memPut a b).loader = c.loader := rfl
@[simp] theorem memPut_rings (c : Card) (a : Nat) (b : Byte) : (c.memPut a b).rings = c.rings := rfl
@[simp] theorem memPut_sems (c : Card) (a : Nat) (b : Byte) : (c.memPut a b).sems = c.sems := rfl
@[simp] theorem memPut_reads (c : Card) (a : Nat) (b : Byte) : (c.memPut a b).reads = c.reads := rfl
@[simp] theorem memPut_cpls (c : Card) (a : Nat) (b : Byte) : (c.memPut a b).cpls = c.cpls := rfl
@[simp] theorem memPut_nextRid (c : Card) (a : Nat) (b : Byte) : (c.memPut a b).nextRid = c.nextRid := rfl
@[simp] theorem memPut_ctxs (c : Card) (a : Nat) (b : Byte) : (c.memPut a b).ctxs = c.ctxs := rfl
@[simp] theorem memPut_owners (c : Card) (a : Nat) (b : Byte) : (c.memPut a b).owners = c.owners := rfl
@[simp] theorem memPut_tlb (c : Card) (a : Nat) (b : Byte) : (c.memPut a b).tlb = c.tlb := rfl
@[simp] theorem memPut_xlDraw (c : Card) (a : Nat) (b : Byte) : (c.memPut a b).xlDraw = c.xlDraw := rfl
@[simp] theorem memPut_bufs (c : Card) (a : Nat) (b : Byte) : (c.memPut a b).bufs = c.bufs := rfl
@[simp] theorem memPut_poolChk (c : Card) (a : Nat) (b : Byte) : (c.memPut a b).poolChk = c.poolChk := rfl
@[simp] theorem memPut_sram (c : Card) (a : Nat) (b : Byte) : (c.memPut a b).sram = c.sram := rfl
@[simp] theorem memPut_rowsOpen (c : Card) (a : Nat) (b : Byte) : (c.memPut a b).rowsOpen = c.rowsOpen := rfl
@[simp] theorem memPut_cache (c : Card) (a : Nat) (b : Byte) : (c.memPut a b).cache = c.cache := rfl
@[simp] theorem memPut_useCount (c : Card) (a : Nat) (b : Byte) : (c.memPut a b).useCount = c.useCount := rfl
@[simp] theorem memPut_delays (c : Card) (a : Nat) (b : Byte) : (c.memPut a b).delays = c.delays := rfl
@[simp] theorem memPut_staged (c : Card) (a : Nat) (b : Byte) : (c.memPut a b).staged = c.staged := rfl
@[simp] theorem memPut_lastUse (c : Card) (a : Nat) (b : Byte) : (c.memPut a b).lastUse = c.lastUse := rfl
@[simp] theorem memPut_driftAt (c : Card) (a : Nat) (b : Byte) : (c.memPut a b).driftAt = c.driftAt := rfl
@[simp] theorem memPut_migr (c : Card) (a : Nat) (b : Byte) : (c.memPut a b).migr = c.migr := rfl
@[simp] theorem memPut_redirect (c : Card) (a : Nat) (b : Byte) : (c.memPut a b).redirect = c.redirect := rfl
@[simp] theorem memPut_migrQ (c : Card) (a : Nat) (b : Byte) : (c.memPut a b).migrQ = c.migrQ := rfl
@[simp] theorem memPut_heldAcc (c : Card) (a : Nat) (b : Byte) : (c.memPut a b).heldAcc = c.heldAcc := rfl
@[simp] theorem memPut_on (c : Card) (a : Nat) (b : Byte) : (c.memPut a b).on = c.on := rfl
@[simp] theorem memPut_timerFrac (c : Card) (a : Nat) (b : Byte) : (c.memPut a b).timerFrac = c.timerFrac := rfl
@[simp] theorem memPut_winAt (c : Card) (a : Nat) (b : Byte) : (c.memPut a b).winAt = c.winAt := rfl
@[simp] theorem memPut_winFrozen (c : Card) (a : Nat) (b : Byte) : (c.memPut a b).winFrozen = c.winFrozen := rfl
@[simp] theorem memPut_refreeze (c : Card) (a : Nat) (b : Byte) : (c.memPut a b).refreeze = c.refreeze := rfl
@[simp] theorem memPut_noRetention (c : Card) (a : Nat) (b : Byte) : (c.memPut a b).noRetention = c.noRetention := rfl
@[simp] theorem memPut_stamps (c : Card) (a : Nat) (b : Byte) : (c.memPut a b).stamps = c.stamps := rfl
@[simp] theorem memPut_fltMsg (c : Card) (a : Nat) (b : Byte) : (c.memPut a b).fltMsg = c.fltMsg := rfl
@[simp] theorem memPut_matchHits (c : Card) (a : Nat) (b : Byte) : (c.memPut a b).matchHits = c.matchHits := rfl
@[simp] theorem memPut_bursts (c : Card) (a : Nat) (b : Byte) : (c.memPut a b).bursts = c.bursts := rfl
@[simp] theorem memPut_sramBad (c : Card) (a : Nat) (b : Byte) : (c.memPut a b).sramBad = c.sramBad := rfl
@[simp] theorem memPut_ceLog (c : Card) (a : Nat) (b : Byte) : (c.memPut a b).ceLog = c.ceLog := rfl
@[simp] theorem memPut_dlyPend (c : Card) (a : Nat) (b : Byte) : (c.memPut a b).dlyPend = c.dlyPend := rfl
@[simp] theorem memPut_lost (c : Card) (a : Nat) (b : Byte) : (c.memPut a b).lost = c.lost := rfl
@[simp] theorem memPut_windows (c : Card) (a : Nat) (b : Byte) : (c.memPut a b).windows = c.windows := rfl
@[simp] theorem memPut_colPanic (c : Card) (a : Nat) (b : Byte) : (c.memPut a b).colPanic = c.colPanic := rfl
@[simp] theorem memPut_rpBuf (c : Card) (a : Nat) (b : Byte) : (c.memPut a b).rpBuf = c.rpBuf := rfl
@[simp] theorem memPut_rpPanic (c : Card) (a : Nat) (b : Byte) : (c.memPut a b).rpPanic = c.rpPanic := rfl
@[simp] theorem memPut_colFence (c : Card) (a : Nat) (b : Byte) : (c.memPut a b).colFence = c.colFence := rfl
@[simp] theorem memPut_rot (c : Card) (a : Nat) (b : Byte) : (c.memPut a b).rot = c.rot := rfl
@[simp] theorem memPut_heldSigs (c : Card) (a : Nat) (b : Byte) : (c.memPut a b).heldSigs = c.heldSigs := rfl
@[simp] theorem memPut_acceptNo (c : Card) (a : Nat) (b : Byte) : (c.memPut a b).acceptNo = c.acceptNo := rfl
@[simp] theorem memPut_recs (c : Card) (a : Nat) (b : Byte) : (c.memPut a b).recs = c.recs := rfl
@[simp] theorem memPut_epochs (c : Card) (a : Nat) (b : Byte) : (c.memPut a b).epochs = c.epochs := rfl
@[simp] theorem memPut_epochAt (c : Card) (a : Nat) (b : Byte) : (c.memPut a b).epochAt = c.epochAt := rfl
@[simp] theorem memPut_stTag (c : Card) (a : Nat) (b : Byte) : (c.memPut a b).stTag = c.stTag := rfl
@[simp] theorem memPut_provLeaves (c : Card) (a : Nat) (b : Byte) : (c.memPut a b).provLeaves = c.provLeaves := rfl
@[simp] theorem memPut_streams (c : Card) (a : Nat) (b : Byte) : (c.memPut a b).streams = c.streams := rfl
@[simp] theorem memPut_slices (c : Card) (a : Nat) (b : Byte) : (c.memPut a b).slices = c.slices := rfl
@[simp] theorem memPut_keys (c : Card) (a : Nat) (b : Byte) : (c.memPut a b).keys = c.keys := rfl
@[simp] theorem memPut_trackers (c : Card) (a : Nat) (b : Byte) : (c.memPut a b).trackers = c.trackers := rfl
@[simp] theorem memPut_ports (c : Card) (a : Nat) (b : Byte) : (c.memPut a b).ports = c.ports := rfl
@[simp] theorem memPut_remotes (c : Card) (a : Nat) (b : Byte) : (c.memPut a b).remotes = c.remotes := rfl
@[simp] theorem memPut_nextRemote (c : Card) (a : Nat) (b : Byte) : (c.memPut a b).nextRemote = c.nextRemote := rfl
@[simp] theorem memPut_vcs (c : Card) (a : Nat) (b : Byte) : (c.memPut a b).vcs = c.vcs := rfl
@[simp] theorem memPut_grSets (c : Card) (a : Nat) (b : Byte) : (c.memPut a b).grSets = c.grSets := rfl
@[simp] theorem memPut_keep (c : Card) (a : Nat) (b : Byte) : (c.memPut a b).keep = c.keep := rfl
@[simp] theorem memPut_presence (c : Card) (a : Nat) (b : Byte) : (c.memPut a b).presence = c.presence := rfl
@[simp] theorem memPut_blown (c : Card) (a : Nat) (b : Byte) : (c.memPut a b).blown = c.blown := rfl
@[simp] theorem memPut_fuseJob (c : Card) (a : Nat) (b : Byte) : (c.memPut a b).fuseJob = c.fuseJob := rfl
@[simp] theorem memPut_gov (c : Card) (a : Nat) (b : Byte) : (c.memPut a b).gov = c.gov := rfl
@[simp] theorem memPut_pin (c : Card) (a : Nat) (b : Byte) : (c.memPut a b).pin = c.pin := rfl
@[simp] theorem memPut_freezeN (c : Card) (a : Nat) (b : Byte) : (c.memPut a b).freezeN = c.freezeN := rfl
@[simp] theorem memPut_tap (c : Card) (a : Nat) (b : Byte) : (c.memPut a b).tap = c.tap := rfl
@[simp] theorem memPut_board (c : Card) (a : Nat) (b : Byte) : (c.memPut a b).board = c.board := rfl
@[simp] theorem memPut_coldMarginal (c : Card) (a : Nat) (b : Byte) : (c.memPut a b).coldMarginal = c.coldMarginal := rfl
@[simp] theorem memPut_fresh (c : Card) (a : Nat) (b : Byte) : (c.memPut a b).fresh = c.fresh := rfl
@[simp] theorem memPut_out (c : Card) (a : Nat) (b : Byte) : (c.memPut a b).out = c.out := rfl

@[simp] theorem setPace_clk (c : Card) (h : Nat) (p : Pace) : (c.setPace h p).clk = c.clk := rfl
@[simp] theorem setPace_regs (c : Card) (h : Nat) (p : Pace) : (c.setPace h p).regs = c.regs := rfl
@[simp] theorem setPace_caps (c : Card) (h : Nat) (p : Pace) : (c.setPace h p).caps = c.caps := rfl
@[simp] theorem setPace_holds (c : Card) (h : Nat) (p : Pace) : (c.setPace h p).holds = c.holds := rfl
@[simp] theorem setPace_cfg (c : Card) (h : Nat) (p : Pace) : (c.setPace h p).cfg = c.cfg := rfl
@[simp] theorem setPace_aer (c : Card) (h : Nat) (p : Pace) : (c.setPace h p).aer = c.aer := rfl
@[simp] theorem setPace_fns (c : Card) (h : Nat) (p : Pace) : (c.setPace h p).fns = c.fns := rfl
@[simp] theorem setPace_avs (c : Card) (h : Nat) (p : Pace) : (c.setPace h p).avs = c.avs := rfl
@[simp] theorem setPace_active (c : Card) (h : Nat) (p : Pace) : (c.setPace h p).active = c.active := rfl
@[simp] theorem setPace_pendLay (c : Card) (h : Nat) (p : Pace) : (c.setPace h p).pendLay = c.pendLay := rfl
@[simp] theorem setPace_loader (c : Card) (h : Nat) (p : Pace) : (c.setPace h p).loader = c.loader := rfl
@[simp] theorem setPace_rings (c : Card) (h : Nat) (p : Pace) : (c.setPace h p).rings = c.rings := rfl
@[simp] theorem setPace_sems (c : Card) (h : Nat) (p : Pace) : (c.setPace h p).sems = c.sems := rfl
@[simp] theorem setPace_reads (c : Card) (h : Nat) (p : Pace) : (c.setPace h p).reads = c.reads := rfl
@[simp] theorem setPace_cpls (c : Card) (h : Nat) (p : Pace) : (c.setPace h p).cpls = c.cpls := rfl
@[simp] theorem setPace_nextRid (c : Card) (h : Nat) (p : Pace) : (c.setPace h p).nextRid = c.nextRid := rfl
@[simp] theorem setPace_ctxs (c : Card) (h : Nat) (p : Pace) : (c.setPace h p).ctxs = c.ctxs := rfl
@[simp] theorem setPace_owners (c : Card) (h : Nat) (p : Pace) : (c.setPace h p).owners = c.owners := rfl
@[simp] theorem setPace_tlb (c : Card) (h : Nat) (p : Pace) : (c.setPace h p).tlb = c.tlb := rfl
@[simp] theorem setPace_xlDraw (c : Card) (h : Nat) (p : Pace) : (c.setPace h p).xlDraw = c.xlDraw := rfl
@[simp] theorem setPace_bufs (c : Card) (h : Nat) (p : Pace) : (c.setPace h p).bufs = c.bufs := rfl
@[simp] theorem setPace_poolChk (c : Card) (h : Nat) (p : Pace) : (c.setPace h p).poolChk = c.poolChk := rfl
@[simp] theorem setPace_mem (c : Card) (h : Nat) (p : Pace) : (c.setPace h p).mem = c.mem := rfl
@[simp] theorem setPace_sram (c : Card) (h : Nat) (p : Pace) : (c.setPace h p).sram = c.sram := rfl
@[simp] theorem setPace_rowsOpen (c : Card) (h : Nat) (p : Pace) : (c.setPace h p).rowsOpen = c.rowsOpen := rfl
@[simp] theorem setPace_cache (c : Card) (h : Nat) (p : Pace) : (c.setPace h p).cache = c.cache := rfl
@[simp] theorem setPace_useCount (c : Card) (h : Nat) (p : Pace) : (c.setPace h p).useCount = c.useCount := rfl
@[simp] theorem setPace_delays (c : Card) (h : Nat) (p : Pace) : (c.setPace h p).delays = c.delays := rfl
@[simp] theorem setPace_staged (c : Card) (h : Nat) (p : Pace) : (c.setPace h p).staged = c.staged := rfl
@[simp] theorem setPace_lastUse (c : Card) (h : Nat) (p : Pace) : (c.setPace h p).lastUse = c.lastUse := rfl
@[simp] theorem setPace_driftAt (c : Card) (h : Nat) (p : Pace) : (c.setPace h p).driftAt = c.driftAt := rfl
@[simp] theorem setPace_migr (c : Card) (h : Nat) (p : Pace) : (c.setPace h p).migr = c.migr := rfl
@[simp] theorem setPace_redirect (c : Card) (h : Nat) (p : Pace) : (c.setPace h p).redirect = c.redirect := rfl
@[simp] theorem setPace_migrQ (c : Card) (h : Nat) (p : Pace) : (c.setPace h p).migrQ = c.migrQ := rfl
@[simp] theorem setPace_heldAcc (c : Card) (h : Nat) (p : Pace) : (c.setPace h p).heldAcc = c.heldAcc := rfl
@[simp] theorem setPace_on (c : Card) (h : Nat) (p : Pace) : (c.setPace h p).on = c.on := rfl
@[simp] theorem setPace_timerFrac (c : Card) (h : Nat) (p : Pace) : (c.setPace h p).timerFrac = c.timerFrac := rfl
@[simp] theorem setPace_winAt (c : Card) (h : Nat) (p : Pace) : (c.setPace h p).winAt = c.winAt := rfl
@[simp] theorem setPace_winFrozen (c : Card) (h : Nat) (p : Pace) : (c.setPace h p).winFrozen = c.winFrozen := rfl
@[simp] theorem setPace_refreeze (c : Card) (h : Nat) (p : Pace) : (c.setPace h p).refreeze = c.refreeze := rfl
@[simp] theorem setPace_noRetention (c : Card) (h : Nat) (p : Pace) : (c.setPace h p).noRetention = c.noRetention := rfl
@[simp] theorem setPace_stamps (c : Card) (h : Nat) (p : Pace) : (c.setPace h p).stamps = c.stamps := rfl
@[simp] theorem setPace_fltMsg (c : Card) (h : Nat) (p : Pace) : (c.setPace h p).fltMsg = c.fltMsg := rfl
@[simp] theorem setPace_matchHits (c : Card) (h : Nat) (p : Pace) : (c.setPace h p).matchHits = c.matchHits := rfl
@[simp] theorem setPace_bursts (c : Card) (h : Nat) (p : Pace) : (c.setPace h p).bursts = c.bursts := rfl
@[simp] theorem setPace_sramBad (c : Card) (h : Nat) (p : Pace) : (c.setPace h p).sramBad = c.sramBad := rfl
@[simp] theorem setPace_ceLog (c : Card) (h : Nat) (p : Pace) : (c.setPace h p).ceLog = c.ceLog := rfl
@[simp] theorem setPace_dlyPend (c : Card) (h : Nat) (p : Pace) : (c.setPace h p).dlyPend = c.dlyPend := rfl
@[simp] theorem setPace_lost (c : Card) (h : Nat) (p : Pace) : (c.setPace h p).lost = c.lost := rfl
@[simp] theorem setPace_windows (c : Card) (h : Nat) (p : Pace) : (c.setPace h p).windows = c.windows := rfl
@[simp] theorem setPace_colPanic (c : Card) (h : Nat) (p : Pace) : (c.setPace h p).colPanic = c.colPanic := rfl
@[simp] theorem setPace_rpBuf (c : Card) (h : Nat) (p : Pace) : (c.setPace h p).rpBuf = c.rpBuf := rfl
@[simp] theorem setPace_rpPanic (c : Card) (h : Nat) (p : Pace) : (c.setPace h p).rpPanic = c.rpPanic := rfl
@[simp] theorem setPace_colFence (c : Card) (h : Nat) (p : Pace) : (c.setPace h p).colFence = c.colFence := rfl
@[simp] theorem setPace_rot (c : Card) (h : Nat) (p : Pace) : (c.setPace h p).rot = c.rot := rfl
@[simp] theorem setPace_heldSigs (c : Card) (h : Nat) (p : Pace) : (c.setPace h p).heldSigs = c.heldSigs := rfl
@[simp] theorem setPace_acceptNo (c : Card) (h : Nat) (p : Pace) : (c.setPace h p).acceptNo = c.acceptNo := rfl
@[simp] theorem setPace_recs (c : Card) (h : Nat) (p : Pace) : (c.setPace h p).recs = c.recs := rfl
@[simp] theorem setPace_epochs (c : Card) (h : Nat) (p : Pace) : (c.setPace h p).epochs = c.epochs := rfl
@[simp] theorem setPace_epochAt (c : Card) (h : Nat) (p : Pace) : (c.setPace h p).epochAt = c.epochAt := rfl
@[simp] theorem setPace_stTag (c : Card) (h : Nat) (p : Pace) : (c.setPace h p).stTag = c.stTag := rfl
@[simp] theorem setPace_provLeaves (c : Card) (h : Nat) (p : Pace) : (c.setPace h p).provLeaves = c.provLeaves := rfl
@[simp] theorem setPace_streams (c : Card) (h : Nat) (p : Pace) : (c.setPace h p).streams = c.streams := rfl
@[simp] theorem setPace_slices (c : Card) (h : Nat) (p : Pace) : (c.setPace h p).slices = c.slices := rfl
@[simp] theorem setPace_keys (c : Card) (h : Nat) (p : Pace) : (c.setPace h p).keys = c.keys := rfl
@[simp] theorem setPace_trackers (c : Card) (h : Nat) (p : Pace) : (c.setPace h p).trackers = c.trackers := rfl
@[simp] theorem setPace_ports (c : Card) (h : Nat) (p : Pace) : (c.setPace h p).ports = c.ports := rfl
@[simp] theorem setPace_remotes (c : Card) (h : Nat) (p : Pace) : (c.setPace h p).remotes = c.remotes := rfl
@[simp] theorem setPace_nextRemote (c : Card) (h : Nat) (p : Pace) : (c.setPace h p).nextRemote = c.nextRemote := rfl
@[simp] theorem setPace_vcs (c : Card) (h : Nat) (p : Pace) : (c.setPace h p).vcs = c.vcs := rfl
@[simp] theorem setPace_grSets (c : Card) (h : Nat) (p : Pace) : (c.setPace h p).grSets = c.grSets := rfl
@[simp] theorem setPace_keep (c : Card) (h : Nat) (p : Pace) : (c.setPace h p).keep = c.keep := rfl
@[simp] theorem setPace_presence (c : Card) (h : Nat) (p : Pace) : (c.setPace h p).presence = c.presence := rfl
@[simp] theorem setPace_blown (c : Card) (h : Nat) (p : Pace) : (c.setPace h p).blown = c.blown := rfl
@[simp] theorem setPace_fuseJob (c : Card) (h : Nat) (p : Pace) : (c.setPace h p).fuseJob = c.fuseJob := rfl
@[simp] theorem setPace_gov (c : Card) (h : Nat) (p : Pace) : (c.setPace h p).gov = c.gov := rfl
@[simp] theorem setPace_pin (c : Card) (h : Nat) (p : Pace) : (c.setPace h p).pin = c.pin := rfl
@[simp] theorem setPace_freezeN (c : Card) (h : Nat) (p : Pace) : (c.setPace h p).freezeN = c.freezeN := rfl
@[simp] theorem setPace_tap (c : Card) (h : Nat) (p : Pace) : (c.setPace h p).tap = c.tap := rfl
@[simp] theorem setPace_board (c : Card) (h : Nat) (p : Pace) : (c.setPace h p).board = c.board := rfl
@[simp] theorem setPace_coldMarginal (c : Card) (h : Nat) (p : Pace) : (c.setPace h p).coldMarginal = c.coldMarginal := rfl
@[simp] theorem setPace_fresh (c : Card) (h : Nat) (p : Pace) : (c.setPace h p).fresh = c.fresh := rfl
@[simp] theorem setPace_out (c : Card) (h : Nat) (p : Pace) : (c.setPace h p).out = c.out := rfl

end Sys2Proof.Laws
end

