-- ==== Sys2Proof/Laws/Reach.lean ====
section
/-! SUPPORT. A host write that reaches its register has its effect, and what the setters of a function's state leave alone. -/

namespace Sys2Proof.Laws

open Sys2Proof Sys2Proof.Machine

/-- A host write that reaches its register has its effect. -/
theorem hostWrite_of_reaches {c : Card} {fn : Fn} {off : Nat} {k : Card → Card} (h : c.reaches fn off = true) :
    c.hostWrite fn off k = k c := by
  cases fn <;> simp_all [Card.reaches, Card.hostWrite]

@[simp] theorem fnOf_setFn_self (c : Card) (n : Nat) (v : FnState) : (c.setFn n v).fnOf n = v := by
  unfold Card.setFn Card.fnOf; exact tabGet_put_self _ _ _ _
theorem fnOf_setFn_ne {c : Card} {n m : Nat} {v : FnState} (h : m ≠ n) : (c.setFn n v).fnOf m = c.fnOf m := tabGet_put_ne _ v h
@[simp] theorem cfgOf_setCfg_self (c : Card) (n : Nat) (v : Cfg) : (c.setCfg n v).cfgOf n = v := by
  unfold Card.setCfg Card.cfgOf; exact tabGet_put_self _ _ _ _
theorem cfgOf_setCfg_ne {c : Card} {n m : Nat} {v : Cfg} (h : m ≠ n) : (c.setCfg n v).cfgOf m = c.cfgOf m := tabGet_put_ne _ v h

@[simp] theorem f_setFn (c : Card) (n : Nat) (v : FnState) (k hi lo : Nat) : (c.setFn n v).f k hi lo = c.f k hi lo := rfl
@[simp] theorem bit_setFn (c : Card) (n : Nat) (v : FnState) (k i : Nat) : (c.setFn n v).bit k i = c.bit k i := rfl
@[simp] theorem f_setCfg (c : Card) (n : Nat) (v : Cfg) (k hi lo : Nat) : (c.setCfg n v).f k hi lo = c.f k hi lo := rfl
@[simp] theorem fnOf_setF (c : Card) (k hi lo v n : Nat) : (c.setF k hi lo v).fnOf n = c.fnOf n := rfl
@[simp] theorem fnOf_setBit (c : Card) (k i : Nat) (b : Bool) (n : Nat) : (c.setBit k i b).fnOf n = c.fnOf n := rfl
@[simp] theorem fnOf_setCfg (c : Card) (n : Nat) (v : Cfg) (m : Nat) : (c.setCfg n v).fnOf m = c.fnOf m := rfl
@[simp] theorem cfgOf_setFn (c : Card) (n : Nat) (v : FnState) (m : Nat) : (c.setFn n v).cfgOf m = c.cfgOf m := rfl
theorem bit_setF_ne {c : Card} {k j hi lo v i : Nat} (h : j ≠ k) : (c.setF k hi lo v).bit j i = c.bit j i := by
  simp only [Card.bit, f_setF_ne h]
@[simp] theorem fnOf_raise (c : Card) (n v m : Nat) : (c.raise n v).fnOf m = c.fnOf m := by
  unfold Card.raise; split <;> rfl
theorem keepImage_setF {c : Card} {k hi lo v : Nat} (h : mg 0x3004 ≠ k) : (c.setF k hi lo v).keepImage = c.keepImage := by
  simp only [Card.keepImage, f_setF_ne h]; rfl
@[simp] theorem bit_setRing (c : Card) (h r : Nat) (v : Ring) (k i : Nat) : (c.setRing h r v).bit k i = c.bit k i := rfl
@[simp] theorem ringOn_setRing (c : Card) (h r : Nat) (v : Ring) (a b : Nat) : (c.setRing h r v).ringOn a b = c.ringOn a b := rfl
@[simp] theorem bit_discardFetch (c : Card) (h r k i : Nat) : (c.discardFetch h r).bit k i = c.bit k i := rfl
@[simp] theorem ring_discardFetch (c : Card) (h r a b : Nat) : (c.discardFetch h r).ring a b = c.ring a b := rfl
@[simp] theorem vc_setVc_self (c : Card) (h k : Nat) (v : RpVc) : (c.setVc h k v).vc h k = v := by
  simp [Card.setVc, Card.vc]
@[simp] theorem vcCfg_setVc (c : Card) (h k : Nat) (v : RpVc) (a b : Nat) : (c.setVc h k v).vcCfg a b = c.vcCfg a b := rfl
@[simp] theorem recRing_setRec_self (c : Card) (h r : Nat) (v : RecRing) : (c.setRec h r v).recRing h r = v := by
  simp [Card.setRec, Card.recRing]
@[simp] theorem reg_setRec (c : Card) (h r : Nat) (v : RecRing) (k : Nat) : (c.setRec h r v).reg k = c.reg k := rfl
@[simp] theorem bit_setRec (c : Card) (h r : Nat) (v : RecRing) (k i : Nat) : (c.setRec h r v).bit k i = c.bit k i := rfl
@[simp] theorem ring_setRec (c : Card) (h r : Nat) (v : RecRing) (a b : Nat) : (c.setRec h r v).ring a b = c.ring a b := rfl
@[simp] theorem ring_setBit (c : Card) (k i : Nat) (v : Bool) (a b : Nat) : (c.setBit k i v).ring a b = c.ring a b := rfl
@[simp] theorem recRing_setBit (c : Card) (k i : Nat) (v : Bool) (a b : Nat) : (c.setBit k i v).recRing a b = c.recRing a b := rfl
theorem bit_setN_ne {c : Card} {k j v i : Nat} (h : j ≠ k) : (c.setN k v).bit j i = c.bit j i := by
  simp only [Card.bit, Card.f, reg_setN_ne h]
@[simp] theorem cfgOf_setF (c : Card) (k hi lo v n : Nat) : (c.setF k hi lo v).cfgOf n = c.cfgOf n := rfl

/-- A register that holds no STATE field of the port leaves its state. -/
theorem portUp_setN (c : Card) {k v q : Nat} (h : mg (0xA104 + 0x100 * q) ≠ k) : (c.setN k v).portUp q = c.portUp q := by
  simp only [Card.portUp, Card.f, reg_setN_ne h]

/-- Sending a packet leaves every port up or down, as it was. -/
theorem portUp_sendPacket (c : Card) (p k q : Nat) (a : List Nat) (b : List Byte) :
    (c.sendPacket p k a b).portUp q = c.portUp q := by
  have hk : ∀ x, x = 0x20 ∨ x = 0x24 → mg (0xA104 + 0x100 * q) ≠ mg (0xA100 + 0x100 * p) + x := fun x hx => by
    simp only [mg, Space.key]; omega
  have e : ∀ d : Card, ∀ v : Nat, (d.setPair (mg (0xA100 + 0x100 * p) + 0x20) (mg (0xA100 + 0x100 * p) + 0x24) v).portUp q = d.portUp q :=
    fun d v => (portUp_setN _ (hk _ (.inr rfl))).trans (portUp_setN _ (hk _ (.inl rfl)))
  unfold Card.sendPacket
  simp only
  split
  · exact (e _ _).trans rfl
  · exact (e _ _).trans rfl

end Sys2Proof.Laws
end

