-- ==== Sys2Proof/Laws/Eng.lean ====
section
/-! SUPPORT. The work of an engine run step by step (spec/05 R126, spec/06): what each piece of work answers and leaves, and what
the command does with it. -/

namespace Sys2Proof.Laws
open Sys2Proof.Machine

/-- The work answers `a` and leaves `y`. -/
def Runs {α : Type} (w : Eng α) (x : Run) (a : α) (y : Run) : Prop := w.run.run x = (.ok a, y)

theorem runs_pure {α : Type} (a : α) (x : Run) : Runs (pure a) x a x := rfl

theorem runs_bind {α β : Type} {w : Eng α} {f : α → Eng β} {x y z : Run} {a : α} {b : β} (hw : Runs w x a y) (hf : Runs (f a) y b z) :
    Runs (w >>= f) x b z := by
  unfold Runs at *
  change (ExceptT.bind w f).run.run x = _
  simp only [ExceptT.bind, ExceptT.mk, ExceptT.run, StateT.run, bind, StateT.bind] at *
  rw [hw]
  exact hf

theorem runs_card (x : Run) : Runs Eng.card x x.card x := rfl
theorem runs_op (x : Run) : Runs Eng.op x x.op x := rfl
theorem runs_hamper (x : Run) : Runs Eng.hamper x x.h x := rfl
theorem runs_ring (x : Run) : Runs Eng.ring x x.r x := rfl
theorem runs_upd (f : Card → Card) (x : Run) : Runs (Eng.upd f) x () { x with card := f x.card } := rfl
theorem runs_updOp (f : Op → Op) (x : Run) : Runs (Eng.updOp f) x () { x with op := f x.op } := rfl

theorem runs_check {ok : Bool} (d : Nat) (x : Run) (h : ok = true) : Runs (Eng.check ok d) x () x := by subst h; rfl

theorem runs_if_false {p : Prop} [Decidable p] {w v : Eng α} {x y : Run} {a : α} (h : ¬p) (hv : Runs v x a y) :
    Runs (if p then w else v) x a y := by rw [if_neg h]; exact hv

theorem runs_if_true {p : Prop} [Decidable p] {w v : Eng α} {x y : Run} {a : α} (h : p) (hv : Runs w x a y) :
    Runs (if p then w else v) x a y := by rw [if_pos h]; exact hv

/-- A command of an engine applies the end of its operation's work. -/
theorem engine_of_runs {c c0 : Card} {h r seq cls opc : Nat} {o : Op} {w : Eng Unit} {y : Run}
    (ht : c.takenUp h r seq cls opc = some (c0, o)) (hw : Runs w { card := c0, op := o, h := h, r := r } () y) :
    c.engine h r seq cls opc w = y.card.setOp h r (y.op.ran y.op.status y.op.detail y.op.ext) := by
  unfold Card.takenUp at ht
  unfold Card.engine
  cases e : c.runnable h r seq cls opc with
  | none => rw [e] at ht; cases ht
  | some x =>
    obtain ⟨o1, u⟩ := x
    rw [e] at ht
    simp only at ht ⊢
    by_cases hs : (!o1.started && c.isSuspect h o1 && decide (2 ≤ c.shedStage h) && shedClass o1.cls) = true
    · rw [if_pos hs] at ht; cases ht
    · rw [if_neg hs] at ht ⊢
      simp only [Option.some.injEq] at ht
      unfold Runs at hw
      simp only [Card.runFirst, Card.runStep, ht, hw, Card.applyRun, ↓reduceIte]

/-- A command whose meaning is an engine's finishes the operation that it takes up, once its work is seen to run. -/
theorem finishes_of_runs {i : Instr} {c c0 d : Card} {h r seq cls opc : Nat} {o o' : Op} {w : Eng Unit}
    (hi : ∀ s, exec i s = s.run fun c => c.engine h r seq cls opc w) (ht : c.takenUp h r seq cls opc = some (c0, o))
    (hw : Runs w { card := c0, op := o, h := h, r := r } () { card := d, op := o', h := h, r := r }) (hs : o'.status = stDone) :
    Finishes i c h r d o' := by
  intro q
  rw [hi, State.run, engine_of_runs ht hw, hs]

theorem runs_mapM_all {α β : Type} (f : α → Eng β) (x : Run) (g : α → β) :
    ∀ l : List α, (∀ a ∈ l, Runs (f a) x (g a) x) → Runs (l.mapM f) x (l.map g) x := by
  intro l
  induction l with
  | nil => intro _; exact runs_pure _ _
  | cons a t ih =>
    intro h
    rw [List.mapM_cons]
    refine runs_bind (h a (by simp)) (runs_bind (ih fun b hb => h b (by simp [hb])) (runs_pure _ _))

/-- Pages that all pass their check are not REMOTE, nor, where `plain` is set, of a PICTURE region. -/
theorem runs_pagesOr {x : Run} {write plain : Bool} (bad : XFault → Eng PageView) : ∀ l : List Nat,
    (∀ p ∈ l, (match x.card.pageCheck x.h x.op.ctx p write with | .ok v => !v.remote && !(plain && v.picture) | .error _ => false) = true) →
      ∃ vs, Runs (Eng.pagesOr l write bad) x vs x ∧ vs.any PageView.remote = false ∧ (plain = true → vs.any (fun v => v.picture) = false) := by
  intro l hl
  have key : ∀ l : List Nat, (∀ p ∈ l, (match x.card.pageCheck x.h x.op.ctx p write with | .ok v => !v.remote && !(plain && v.picture) | .error _ => false) = true) →
      ∃ vs : List PageView, Runs (l.mapM (fun p => match x.card.pageCheck x.h x.op.ctx p write with
        | .ok v => (pure v : Eng PageView)
        | .error f => if f.detail = dMemUncorrected ∨ f.detail = dRankLost then throw (.fault stFailedInput f) else bad f)) x vs x ∧
        vs.any PageView.remote = false ∧ (plain = true → vs.any (fun v => v.picture) = false) := by
    intro l
    induction l with
    | nil => intro _; exact ⟨[], runs_pure _ _, rfl, fun _ => rfl⟩
    | cons p t ih =>
      intro hl
      obtain ⟨vs, h1, h2, h3⟩ := ih fun q hq => hl q (by simp [hq])
      have hp := hl p (by simp)
      split at hp
      · next v e =>
        simp only [Bool.and_eq_true, Bool.not_eq_eq_eq_not, Bool.not_true] at hp
        refine ⟨v :: vs, ?_, by simp [hp.1, h2], ?_⟩
        · rw [List.mapM_cons]
          refine runs_bind (y := x) (a := v) ?_ (runs_bind h1 (runs_pure _ _))
          rw [e]; exact runs_pure _ _
        · intro hpl; have := hp.2; simp [hpl] at this; simp [this, h3 hpl]
      · cases hp
  obtain ⟨vs, h1, h2, h3⟩ := key l hl
  exact ⟨vs, runs_bind (runs_card x) (runs_bind (runs_hamper x) (runs_bind (runs_op x) h1)), h2, h3⟩

/-- A range's pre-check passes: no page is REMOTE. -/
theorem runs_precheck {x : Run} {va n : Nat} {write plain : Bool} (h : x.card.passes x.h x.op.ctx va n write plain) :
    ∃ vs, Runs (Eng.precheck va n write) x vs x ∧ vs.any PageView.remote = false ∧ (plain = true → vs.any (fun v => v.picture) = false) := by
  obtain ⟨vs, h1, h2, h3⟩ := runs_pagesOr (fun f => throw (.fault stRefused f)) _ h.2
  refine ⟨vs, runs_bind (runs_card x) (runs_bind (runs_hamper x) (runs_bind (runs_op x) ?_)), h2, h3⟩
  simp only [h.1, Bool.false_eq_true, ↓reduceIte]
  exact h1

/-- A copy that keeps PICTURE bytes on the card passes. -/
theorem runs_confine {x : Run} {status src dst n : Nat} (h : x.card.copyStays x.h x.op.ctx src dst n) :
    Runs (Eng.confine status src dst n) x () x := by
  unfold Eng.confine
  refine runs_bind (runs_card x) (runs_bind (runs_hamper x) (runs_bind (runs_op x) ?_))
  by_cases e : x.card.leavesCard x.h x.op.ctx dst n = true
  · rcases h with h | h
    · rw [h] at e; cases e
    · rw [if_pos e, h]; exact runs_pure _ _
  · rw [if_neg e]; exact runs_pure _ _

theorem runs_want {x : Run} {va n : Nat} (h : x.card.atHand x.h x.op va n) : Runs (Eng.want va n) x () x := by
  refine runs_bind (runs_card x) (runs_bind (runs_hamper x) (runs_bind (runs_op x) ?_))
  cases e : x.card.vread x.h x.op.ctx x.op.host va n with
  | need l => rw [Card.atHand, e] at h; cases h
  | ok a => exact runs_pure _ _
  | fault f => exact runs_pure _ _

/-- Ranges that are all at hand need nothing from outside. -/
theorem runs_wants {x : Run} {l : List (Nat × Nat)} (ha : ∀ a ∈ l, x.card.atHand x.h x.op a.1 a.2) : Runs (Eng.wants l) x () x := by
  have hn : l.flatMap (fun a => match x.card.vread x.h x.op.ctx x.op.host a.1 a.2 with | .need n => n | _ => []) = [] := by
    rw [List.flatMap_eq_nil_iff]
    intro a h
    have := ha a h
    unfold Card.atHand at this
    split
    · next n e => rw [e] at this; cases this
    · rfl
  unfold Eng.wants
  refine runs_bind (runs_card x) (runs_bind (runs_hamper x) (runs_bind (runs_op x) (runs_if_false (fun e => ?_) (runs_pure _ _))))
  rw [Bool.not_eq_true'] at e
  exact Bool.noConfusion ((List.isEmpty_iff.mpr hn).symm.trans e)

theorem atHand_of_read {c d : Card} {h : Nat} {o : Op} {va n : Nat} {bs : List (List Byte)} {t : List (Nat × Nat)}
    (hr : ReadsTo h o ((va, n) :: t) c bs d) : c.atHand h o va n := by
  obtain ⟨b, l, -, h1, -⟩ := hr
  simp only at h1
  unfold Card.atHand
  rw [h1]

theorem runs_rd {c d : Card} {h r : Nat} {o : Op} {va n : Nat} {bs : List Byte} (hr : ReadsTo h o [(va, n)] c [bs] d) :
    Runs (Eng.rd va n) { card := c, op := o, h := h, r := r } bs { card := d, op := o, h := h, r := r } := by
  obtain ⟨b, l, h0, h1, h2, h3, h4⟩ := hr
  simp only at h0 h1 h2 h4
  obtain ⟨h5, h6⟩ := h4
  subst h5
  simp only [List.cons.injEq, and_true] at h3
  subst h3 h6
  unfold Runs Eng.rd
  refine runs_bind (runs_card _) (runs_bind (runs_hamper _) (runs_bind (runs_op _) ?_))
  simp only [h0, h1, h2, Bool.false_eq_true, ↓reduceIte]
  exact runs_bind (y := { card := c, op := o, h := h, r := r }) (a := ()) rfl (runs_bind (runs_upd _ _) (runs_pure _ _))

theorem readsTo_cons {c d : Card} {h : Nat} {o : Op} {x : Nat × Nat} {t : List (Nat × Nat)} {bs : List (List Byte)}
    (hr : ReadsTo h o (x :: t) c bs d) : ∃ b l m, bs = b :: l ∧ ReadsTo h o [x] c [b] m ∧ ReadsTo h o t m l d := by
  obtain ⟨b, l, h0, h1, h2, h3, h4⟩ := hr
  exact ⟨b, l, _, h3, ⟨b, [], h0, h1, h2, rfl, rfl, rfl⟩, h4⟩

theorem runs_rds {h r : Nat} {o : Op} {α : Type} (f : α → Nat × Nat) : ∀ (l : List α) {c d : Card} {bs : List (List Byte)}, ReadsTo h o (l.map f) c bs d →
    Runs (l.mapM (fun i => Eng.rd (f i).1 (f i).2)) { card := c, op := o, h := h, r := r } bs { card := d, op := o, h := h, r := r } := by
  intro l
  induction l with
  | nil => intro c d bs hr; obtain ⟨rfl, rfl⟩ := hr; exact runs_pure _ _
  | cons a t ih =>
    intro c d bs hr
    obtain ⟨b, l, m, rfl, h1, h2⟩ := readsTo_cons hr
    rw [List.mapM_cons]
    exact runs_bind (runs_rd h1) (runs_bind (ih h2) (runs_pure _ _))

theorem runs_wr {h r va : Nat} {bs : List Byte} {a b : Card × Op} (ho : a.2.epoch = none) (hw : WriteTo h r va bs a b) :
    Runs (Eng.wr va bs) { card := a.1, op := a.2, h := h, r := r } () { card := b.1, op := b.2, h := h, r := r } := by
  obtain ⟨ca, oa⟩ := a
  cases oa
  simp only at ho
  subst ho
  obtain ⟨h0, h1, h2, rfl⟩ := hw
  unfold Eng.wr Eng.wrUnder
  refine runs_bind (runs_card _) (runs_bind (runs_hamper _) (runs_bind (runs_op _) ?_))
  refine runs_bind (runs_card _) (runs_bind (runs_hamper _) (runs_bind (runs_ring _) (runs_bind (runs_op _) ?_)))
  simp only at h0 h1 h2
  simp only [Option.filter_none, h0, h1, h2]
  exact runs_if_false (by simp) (runs_if_false (by simp) (runs_bind (runs_upd _ _) (runs_bind (runs_updOp _ _) (runs_if_false (by simp)
    (runs_bind (a := PUnit.unit) (runs_pure _ _) (runs_pure _ _))))))

theorem writeTo_epoch {h r va : Nat} {bs : List Byte} {a b : Card × Op} (hw : WriteTo h r va bs a b) :
    b.2.epoch = a.2.epoch ∧ b.2.status = a.2.status ∧ b.2.body = a.2.body ∧ b.2.ctx = a.2.ctx := by
  obtain ⟨-, -, -, rfl⟩ := hw; exact ⟨rfl, rfl, rfl, rfl⟩

theorem runs_forIn {α : Type} (f : α → Eng Unit) : ∀ (l : List α) {P : List α → Run → Prop} {x : Run},
    P l x → (∀ a t y, P (a :: t) y → ∃ z, Runs (f a) y () z ∧ P t z) →
    ∃ z, Runs (forIn l PUnit.unit (fun a _ => do f a; pure (ForInStep.yield PUnit.unit))) x () z ∧ P [] z := by
  intro l
  induction l with
  | nil => intro P x h _; exact ⟨x, runs_pure _ _, h⟩
  | cons a t ih =>
    intro P x h hs
    obtain ⟨y, h1, h2⟩ := hs a t x h
    obtain ⟨z, h3, h4⟩ := ih h2 hs
    refine ⟨z, ?_, h4⟩
    rw [List.forIn_cons]
    exact runs_bind (runs_bind h1 (runs_pure _ _)) h3

theorem runs_stWr {c : Card} {h r : Nat} {o : Op} (ho : o.epoch = none) (off : Nat) (bs : List Byte) :
    Runs (Eng.stWr off bs) { card := c, op := o, h := h, r := r } () { card := c.stWrite h off 0 bs, op := o, h := h, r := r } := by
  unfold Eng.stWr
  refine runs_bind (runs_card _) (runs_bind (runs_hamper _) (runs_bind (runs_op _) ?_))
  simp only [ho]
  exact runs_upd _ _

/-! ### Staging -/

/-- Work that joins only epoch 0 changes nothing. -/
theorem runs_join_zeros (x : Run) (g : Nat → Nat) : ∀ l : List Nat, (∀ a ∈ l, g a = 0) →
    Runs (forIn l PUnit.unit (fun a _ => do Eng.join (g a); pure (ForInStep.yield PUnit.unit))) x PUnit.unit x := by
  intro l
  induction l with
  | nil => intro _; exact runs_pure _ _
  | cons a t ih =>
    intro h
    rw [List.forIn_cons]
    refine runs_bind (runs_bind (a := ()) (y := x) ?_ (runs_pure _ _)) (ih fun b hb => h b (by simp [hb]))
    rw [h a (by simp)]
    exact runs_bind (runs_card x) (runs_bind (runs_hamper x) (runs_bind (runs_op x) (runs_if_true rfl (runs_pure _ _))))

/-- Clean staging is read as it stands. -/
theorem runs_stRd {c : Card} {h r : Nat} {o : Op} (hc : c.stagingClean h) (off n : Nat) :
    Runs (Eng.stRd off n) { card := c, op := o, h := h, r := r } (c.sramRd h ((c.staging h).1 + off) n) { card := c, op := o, h := h, r := r } := by
  unfold Eng.stRd Eng.sram
  refine runs_bind (runs_card _) (runs_bind (runs_hamper _) (runs_bind (runs_join_zeros _ _ _ ?_) ?_))
  · exact fun l _ => hc.2 l
  · refine runs_bind (runs_card _) (runs_bind (runs_hamper _) (runs_bind (runs_ring _) (runs_bind (runs_op _) ?_)))
    have he : c.sramErr h ((c.staging h).1 + off) n = false := by
      rw [Card.sramErr, List.any_eq_false]
      intro x hx
      have := hc.1 x hx
      simp_all
    simp only [he, Bool.false_eq_true, ↓reduceIte]
    exact runs_pure _ _

/-- A STAGE command's source has passed its check. -/
theorem runs_stageSource {c : Card} {h r : Nat} {o : Op} {staged : Bool} {rs : List (Nat × Nat)} (hs : c.sourceOk h o staged rs) :
    Runs (Eng.stageSource staged rs) { card := c, op := o, h := h, r := r } () { card := c, op := o, h := h, r := r } := by
  unfold Eng.stageSource
  refine runs_bind (runs_card _) (runs_bind (runs_hamper _) ?_)
  cases staged with
  | true => exact runs_if_true rfl (runs_check _ _ (List.all_eq_true.mpr fun g hg => decide_eq_true (hs g hg)))
  | false =>
    refine runs_if_false (by simp) ?_
    have key : ∀ l : List (Nat × Nat), (∀ g ∈ l, c.passes h o.ctx g.1 g.2 false false) → ∃ vs : List (List PageView),
        Runs (l.mapM (fun g => Eng.precheck g.1 g.2 false)) { card := c, op := o, h := h, r := r } vs { card := c, op := o, h := h, r := r } ∧
        vs.flatten.any PageView.remote = false := by
      intro l
      induction l with
      | nil => exact fun _ => ⟨[], runs_pure _ _, rfl⟩
      | cons g t ih =>
        intro hl
        obtain ⟨v, h1, h2, -⟩ := runs_precheck (x := { card := c, op := o, h := h, r := r }) (hl g (by simp))
        obtain ⟨vs, h3, h4⟩ := ih fun q hq => hl q (by simp [hq])
        refine ⟨v :: vs, ?_, by simp only [List.flatten_cons, List.any_append, h2, h4, Bool.or_self]⟩
        rw [List.mapM_cons]
        exact runs_bind h1 (runs_bind h3 (runs_pure _ _))
    obtain ⟨vs, h1, h2⟩ := key rs fun g hg => (hs g hg).1
    exact runs_bind h1 (runs_bind (runs_check _ _ (by rw [h2]; rfl)) (runs_wants fun g hg => (hs g hg).2))

theorem runs_stageDest {c : Card} {h r : Nat} {o : Op} {dst n : Nat} (h1 : dst % 64 = 0) (h2 : dst + n ≤ (c.staging h).2) :
    Runs (Eng.stageDest dst n) { card := c, op := o, h := h, r := r } () { card := c, op := o, h := h, r := r } :=
  runs_bind (runs_card _) (runs_bind (runs_hamper _) (runs_check _ _ (by simp [h1, h2])))

/-- The pieces of a STAGE command's source are read. -/
theorem runs_srcRds {h r : Nat} {o : Op} {staged : Bool} {α : Type} (f : α → Nat × Nat) (l : List α) {c d : Card} {bs : List (List Byte)}
    (hr : SourceTo h o staged (l.map f) c bs d) :
    Runs (l.mapM (fun i => Eng.srcRd staged (f i).1 (f i).2)) { card := c, op := o, h := h, r := r } bs { card := d, op := o, h := h, r := r } := by
  cases staged with
  | true =>
    obtain ⟨hc, rfl, rfl⟩ := hr
    rw [List.map_map]
    exact runs_mapM_all _ _ _ l fun a _ => runs_stRd hc _ _
  | false => exact runs_rds f l hr

/-! ### Records -/

/-- A record command's sources have passed their check. -/
theorem runs_recSources {x : Run} {l : List (Nat × Nat)} (hp : ∀ a ∈ l, x.card.passes x.h x.op.ctx a.1 a.2 false true)
    (ha : ∀ a ∈ l, x.card.atHand x.h x.op a.1 a.2) : Runs (Eng.recSources l) x () x := by
  have hh : l.any (fun a => x.card.heldVa x.h x.op.ctx false a.1 a.2) = false := by
    rw [List.any_eq_false]
    intro a h
    simp [(hp a h).1]
  unfold Eng.recSources
  refine runs_bind (runs_card x) (runs_bind (runs_hamper x) (runs_bind (runs_ring x) (runs_bind (runs_op x) ?_)))
  obtain ⟨vs, h1, h2, h3⟩ := runs_pagesOr (x := x) (plain := true) (fun f => do
    Eng.upd (fun c => c.xlFault x.h x.r x.op.ctx f)
    Eng.refuse rcBadParam) (l.flatMap (fun a => pagesOf a.1 a.2)) (by
      intro p h
      obtain ⟨a, h4, h5⟩ := List.mem_flatMap.mp h
      exact (hp a h4).2 p h5)
  simp only [hh, Bool.false_eq_true, ↓reduceIte]
  exact runs_bind h1 (runs_bind (runs_check _ _ (by rw [h2]; rfl)) (runs_bind (runs_check _ _ (by rw [h3 rfl]; rfl)) (runs_wants ha)))

theorem runs_recEpoch {c : Card} {h r : Nat} {o : Op} (ho : o.epoch = none) :
    Runs Eng.recEpoch { card := c, op := o, h := h, r := r } 0 { card := c, op := o, h := h, r := r } := by
  unfold Eng.recEpoch
  refine runs_bind (runs_card _) (runs_bind (runs_hamper _) (runs_bind (runs_op _) ?_))
  simp only [ho]
  exact runs_pure _ _

/-! ### Tracks -/

theorem runs_trackReady {ok : Bool} {x : Run} (h : ok = true) (hr : x.card.tracksReady x.h) : Runs (Eng.trackReady ok) x () x := by
  obtain ⟨h1, h2, h3, h4⟩ := hr
  unfold Eng.trackReady
  exact runs_bind (runs_card _) (runs_bind (runs_hamper _) (runs_bind (runs_check _ _ (by simp [h, h1, h2, h3])) (runs_check _ _ (by simp [h4]))))

end Sys2Proof.Laws
end

