-- ==== Sys2Proof/Laws/Frame.lean ====
section
/-! SUPPORT. What part of the card each operation of the machine may change: one lemma for each function that yields a card, and
one for each piece of an operation's work. The frames of the commands are put together from these. -/

set_option linter.unusedVariables false
set_option linter.unusedSimpArgs false
set_option maxRecDepth 10000
namespace Sys2Proof.Laws

open Sys2Proof Sys2Proof.Machine

/-- Every part that is asked for is among those that may change. -/
def Needs (l p : List Part) : Prop := ∀ x ∈ l, x ∈ p

theorem needs_of {a b p : List Part} (h : Needs b p) (s : (a.all fun x => b.contains x) = true) : Needs a p :=
  fun x hx => h x (List.contains_iff_mem.mp (List.all_eq_true.mp s x hx))

theorem needs_mem {a p : List Part} {x : Part} (h : Needs a p) (s : a.contains x = true) : x ∈ p :=
  h x (List.contains_iff_mem.mp s)

/-- Every part but those of `p` stands as in `c₀`. -/
def Held (fr : List Part) (c₀ c : Card) : Prop := ∀ x, x ∈ fr ∨ x.agree c₀ c

/-- Every part but those of `p` is the same in two cards. -/
def Rest (fr : List Part) (a b : Card) : Prop := ∀ x, x ∈ fr ∨ x.agree a b

theorem rest_intro {fr : List Part} {a b : Card} (h : ∀ x : Part, x ∈ fr ∨ x.agree a b) : Rest fr a b := h

theorem agree_refl (x : Part) (c : Card) : x.agree c c := by cases x <;> exact rfl

theorem agree_trans (x : Part) {a b c : Card} (h : x.agree a b) (g : x.agree b c) : x.agree a c := by
  cases x <;> exact Eq.trans h g

theorem agree_symm (x : Part) {a b : Card} (h : x.agree a b) : x.agree b a := by cases x <;> exact Eq.symm h

variable {fr : List Part} {c₀ : Card}

theorem held_refl : Held fr c₀ c₀ := fun x => .inr (agree_refl x c₀)

theorem held_of {c d : Card} (h : Held fr c₀ c) (r : Rest fr c d) : Held fr c₀ d := fun x =>
  (h x).elim .inl fun h1 => (r x).imp id fun h2 => agree_trans x h1 h2

theorem held_back {c d : Card} (h : Held fr c₀ d) (r : Rest fr c d) : Held fr c₀ c := fun x =>
  (h x).elim .inl fun h1 => (r x).imp id fun h2 => agree_trans x h1 (agree_symm x h2)

theorem frame_ite {q : Prop} [Decidable q] {a b : Card} (ha : Held fr c₀ a) (hb : Held fr c₀ b) : Held fr c₀ (if q then a else b) := by
  split <;> assumption

theorem frame_foldl {α : Type} {f : Card → α → Card} (hf : ∀ c x, Held fr c₀ c → Held fr c₀ (f c x)) (l : List α) {c : Card}
    (h : Held fr c₀ c) : Held fr c₀ (l.foldl f c) := by
  induction l generalizing c with
  | nil => exact h
  | cons x t ih => exact ih (hf c x h)

theorem frame_foldl_fst {α β : Type} {f : Card × β → α → Card × β} (hf : ∀ c x, Held fr c₀ c.1 → Held fr c₀ (f c x).1)
    (l : List α) {c : Card × β} (h : Held fr c₀ c.1) : Held fr c₀ (l.foldl f c).1 := by
  induction l generalizing c with
  | nil => exact h
  | cons x t ih => exact ih (hf c x h)

theorem frame_of_fst {α : Type} {q : Card × α} {a : Card} {b : α} (e : q = (a, b)) (h : Held fr c₀ q.1) : Held fr c₀ a := by
  subst e; exact h

theorem frame_let {E : Card} {f : Card → Card} (h : Held fr c₀ E) (r : ∀ s, Held fr c₀ s → Held fr c₀ (f s)) :
    Held fr c₀ (let s := E; f s) := r E h

theorem frame_val {α : Type} {v : α} {f : α → Card} (r : ∀ x, Held fr c₀ (f x)) : Held fr c₀ (let x := v; f x) := r v

theorem frame_let_fst {α : Type} {E : Card} {f : Card → Card × α} (h : Held fr c₀ E) (r : ∀ s, Held fr c₀ s → Held fr c₀ (f s).1) :
    Held fr c₀ (let s := E; f s).1 := r E h

theorem frame_val_fst {α β : Type} {v : α} {f : α → Card × β} (r : ∀ x, Held fr c₀ (f x).1) : Held fr c₀ (let x := v; f x).1 := r v

theorem frame_pair_fst {α β : Type} {v : Card × α} {f : Card × α → Card × β} (h : Held fr c₀ v.1)
    (r : ∀ x : Card × α, Held fr c₀ x.1 → Held fr c₀ (f x).1) : Held fr c₀ (let x := v; f x).1 := r v h

theorem frame_mk_tap {c : Card} {x_clk x_regs x_caps x_holds x_cfg x_aer x_fns x_pace x_avs x_active x_pendLay x_loader
    x_rings x_sems x_reads x_cpls x_nextRid x_ctxs x_owners x_tlb x_xlDraw x_bufs x_poolChk x_mem x_sram x_rowsOpen x_cache
    x_useCount x_delays x_staged x_lastUse x_driftAt x_migr x_redirect x_migrQ x_heldAcc x_on x_timerFrac x_winAt x_winFrozen
    x_refreeze x_noRetention x_stamps x_fltMsg x_matchHits x_bursts x_sramBad x_ceLog x_dlyPend x_lost x_windows x_colPanic
    x_rpBuf x_rpPanic x_colFence x_rot x_heldSigs x_acceptNo x_recs x_epochs x_epochAt x_stTag x_provLeaves x_streams
    x_slices x_keys x_trackers x_ports x_remotes x_nextRemote x_vcs x_grSets x_keep x_presence x_blown x_fuseJob x_gov x_pin
    x_freezeN x_board x_coldMarginal x_fresh x_out} (r : Rest fr c (Card.mk x_clk x_regs x_caps x_holds x_cfg x_aer x_fns
    x_pace x_avs x_active x_pendLay x_loader x_rings x_sems x_reads x_cpls x_nextRid x_ctxs x_owners x_tlb x_xlDraw x_bufs
    x_poolChk x_mem x_sram x_rowsOpen x_cache x_useCount x_delays x_staged x_lastUse x_driftAt x_migr x_redirect x_migrQ
    x_heldAcc x_on x_timerFrac x_winAt x_winFrozen x_refreeze x_noRetention x_stamps x_fltMsg x_matchHits x_bursts x_sramBad
    x_ceLog x_dlyPend x_lost x_windows x_colPanic x_rpBuf x_rpPanic x_colFence x_rot x_heldSigs x_acceptNo x_recs x_epochs
    x_epochAt x_stTag x_provLeaves x_streams x_slices x_keys x_trackers x_ports x_remotes x_nextRemote x_vcs x_grSets x_keep
    x_presence x_blown x_fuseJob x_gov x_pin x_freezeN c.tap x_board x_coldMarginal x_fresh x_out)) : Held fr c₀ (Card.mk
    x_clk x_regs x_caps x_holds x_cfg x_aer x_fns x_pace x_avs x_active x_pendLay x_loader x_rings x_sems x_reads x_cpls
    x_nextRid x_ctxs x_owners x_tlb x_xlDraw x_bufs x_poolChk x_mem x_sram x_rowsOpen x_cache x_useCount x_delays x_staged
    x_lastUse x_driftAt x_migr x_redirect x_migrQ x_heldAcc x_on x_timerFrac x_winAt x_winFrozen x_refreeze x_noRetention
    x_stamps x_fltMsg x_matchHits x_bursts x_sramBad x_ceLog x_dlyPend x_lost x_windows x_colPanic x_rpBuf x_rpPanic
    x_colFence x_rot x_heldSigs x_acceptNo x_recs x_epochs x_epochAt x_stTag x_provLeaves x_streams x_slices x_keys
    x_trackers x_ports x_remotes x_nextRemote x_vcs x_grSets x_keep x_presence x_blown x_fuseJob x_gov x_pin x_freezeN c.tap
    x_board x_coldMarginal x_fresh x_out) ↔ Held fr c₀ c := ⟨fun h => held_back h r, fun h => held_of h r⟩

theorem frame_mk_grSets {c : Card} {x_clk x_regs x_caps x_holds x_cfg x_aer x_fns x_pace x_avs x_active x_pendLay x_loader
    x_rings x_sems x_reads x_cpls x_nextRid x_ctxs x_owners x_tlb x_xlDraw x_bufs x_poolChk x_mem x_sram x_rowsOpen x_cache
    x_useCount x_delays x_staged x_lastUse x_driftAt x_migr x_redirect x_migrQ x_heldAcc x_on x_timerFrac x_winAt x_winFrozen
    x_refreeze x_noRetention x_stamps x_fltMsg x_matchHits x_bursts x_sramBad x_ceLog x_dlyPend x_lost x_windows x_colPanic
    x_rpBuf x_rpPanic x_colFence x_rot x_heldSigs x_acceptNo x_recs x_epochs x_epochAt x_stTag x_provLeaves x_streams
    x_slices x_keys x_trackers x_ports x_remotes x_nextRemote x_vcs x_keep x_presence x_blown x_fuseJob x_gov x_pin x_freezeN
    x_tap x_board x_coldMarginal x_fresh x_out} (r : Rest fr c (Card.mk x_clk x_regs x_caps x_holds x_cfg x_aer x_fns x_pace
    x_avs x_active x_pendLay x_loader x_rings x_sems x_reads x_cpls x_nextRid x_ctxs x_owners x_tlb x_xlDraw x_bufs x_poolChk
    x_mem x_sram x_rowsOpen x_cache x_useCount x_delays x_staged x_lastUse x_driftAt x_migr x_redirect x_migrQ x_heldAcc x_on
    x_timerFrac x_winAt x_winFrozen x_refreeze x_noRetention x_stamps x_fltMsg x_matchHits x_bursts x_sramBad x_ceLog
    x_dlyPend x_lost x_windows x_colPanic x_rpBuf x_rpPanic x_colFence x_rot x_heldSigs x_acceptNo x_recs x_epochs x_epochAt
    x_stTag x_provLeaves x_streams x_slices x_keys x_trackers x_ports x_remotes x_nextRemote x_vcs c.grSets x_keep x_presence
    x_blown x_fuseJob x_gov x_pin x_freezeN x_tap x_board x_coldMarginal x_fresh x_out)) : Held fr c₀ (Card.mk x_clk x_regs
    x_caps x_holds x_cfg x_aer x_fns x_pace x_avs x_active x_pendLay x_loader x_rings x_sems x_reads x_cpls x_nextRid x_ctxs
    x_owners x_tlb x_xlDraw x_bufs x_poolChk x_mem x_sram x_rowsOpen x_cache x_useCount x_delays x_staged x_lastUse x_driftAt
    x_migr x_redirect x_migrQ x_heldAcc x_on x_timerFrac x_winAt x_winFrozen x_refreeze x_noRetention x_stamps x_fltMsg
    x_matchHits x_bursts x_sramBad x_ceLog x_dlyPend x_lost x_windows x_colPanic x_rpBuf x_rpPanic x_colFence x_rot
    x_heldSigs x_acceptNo x_recs x_epochs x_epochAt x_stTag x_provLeaves x_streams x_slices x_keys x_trackers x_ports
    x_remotes x_nextRemote x_vcs c.grSets x_keep x_presence x_blown x_fuseJob x_gov x_pin x_freezeN x_tap x_board
    x_coldMarginal x_fresh x_out) ↔ Held fr c₀ c := ⟨fun h => held_back h r, fun h => held_of h r⟩

theorem frame_setReg (hp : Needs [.regs] fr) (c : Card) (k : Nat) (w : Word) (hC : Held fr c₀ c) :
    Held fr c₀ (Card.setReg c k w) := by
  unfold Card.setReg
  repeat' with_reducible first
    | assumption | exact needs_of hp (by decide) | refine frame_ite ?_ ?_
    | simp (disch := (refine rest_intro fun x => ?_; cases x <;> (first | exact Or.inr rfl | exact Or.inl (needs_mem hp (by decide))))) only [frame_mk_tap, frame_mk_grSets]
    | split | dsimp only

theorem frame_setF (hp : Needs [.regs] fr) (c : Card) (k hi lo v : Nat) (hC : Held fr c₀ c) : Held fr c₀ (Card.setF c k hi lo
    v) := by
  unfold Card.setF
  repeat' with_reducible first
    | assumption | exact needs_of hp (by decide) | apply frame_setReg
    | simp (disch := (refine rest_intro fun x => ?_; cases x <;> (first | exact Or.inr rfl | exact Or.inl (needs_mem hp (by decide))))) only [frame_mk_tap, frame_mk_grSets]
    | dsimp only

theorem frame_setBit (hp : Needs [.regs] fr) (c : Card) (k i : Nat) (b : Bool) (hC : Held fr c₀ c) : Held fr c₀ (Card.setBit
    c k i b) := by
  unfold Card.setBit
  repeat' with_reducible first
    | assumption | exact needs_of hp (by decide) | apply frame_setF
    | simp (disch := (refine rest_intro fun x => ?_; cases x <;> (first | exact Or.inr rfl | exact Or.inl (needs_mem hp (by decide))))) only [frame_mk_tap, frame_mk_grSets]
    | dsimp only

theorem frame_setN (hp : Needs [.regs] fr) (c : Card) (k v : Nat) (hC : Held fr c₀ c) : Held fr c₀ (Card.setN c k v) := by
  unfold Card.setN
  repeat' with_reducible first
    | assumption | exact needs_of hp (by decide) | apply frame_setReg
    | simp (disch := (refine rest_intro fun x => ?_; cases x <;> (first | exact Or.inr rfl | exact Or.inl (needs_mem hp (by decide))))) only [frame_mk_tap, frame_mk_grSets]
    | dsimp only

theorem frame_bumpF (hp : Needs [.regs] fr) (c : Card) (k hi lo n : Nat) (hC : Held fr c₀ c) : Held fr c₀ (Card.bumpF c k hi
    lo n) := by
  unfold Card.bumpF
  repeat' with_reducible first
    | assumption | exact needs_of hp (by decide) | apply frame_setF
    | simp (disch := (refine rest_intro fun x => ?_; cases x <;> (first | exact Or.inr rfl | exact Or.inl (needs_mem hp (by decide))))) only [frame_mk_tap, frame_mk_grSets]
    | dsimp only

theorem frame_bump (hp : Needs [.regs] fr) (c : Card) (k n : Nat) (hC : Held fr c₀ c) : Held fr c₀ (Card.bump c k n) := by
  unfold Card.bump
  repeat' with_reducible first
    | assumption | exact needs_of hp (by decide) | apply frame_bumpF
    | simp (disch := (refine rest_intro fun x => ?_; cases x <;> (first | exact Or.inr rfl | exact Or.inl (needs_mem hp (by decide))))) only [frame_mk_tap, frame_mk_grSets]
    | dsimp only

theorem frame_setPair (hp : Needs [.regs] fr) (c : Card) (lo hi v : Nat) (hC : Held fr c₀ c) : Held fr c₀ (Card.setPair c lo
    hi v) := by
  unfold Card.setPair
  repeat' with_reducible first
    | assumption | exact needs_of hp (by decide) | apply frame_setN
    | simp (disch := (refine rest_intro fun x => ?_; cases x <;> (first | exact Or.inr rfl | exact Or.inl (needs_mem hp (by decide))))) only [frame_mk_tap, frame_mk_grSets]
    | dsimp only

theorem frame_resetRegs (hp : Needs [.regs] fr) (c : Card) (a b : Nat) (hC : Held fr c₀ c) :
    Held fr c₀ (Card.resetRegs c a b) := by
  unfold Card.resetRegs
  dsimp only
  repeat' with_reducible first
    | assumption | exact needs_of hp (by decide) | refine frame_ite ?_ ?_
    | simp (disch := (refine rest_intro fun x => ?_; cases x <;> (first | exact Or.inr rfl | exact Or.inl (needs_mem hp (by decide))))) only [frame_mk_tap, frame_mk_grSets]
    | split | dsimp only

theorem frame_draw (hp : Needs [.fresh] fr) (c : Card) (hC : Held fr c₀ c) : Held fr c₀ (Card.draw c) := by
  unfold Card.draw
  repeat' with_reducible first
    | assumption | exact needs_of hp (by decide)
    | simp (disch := (refine rest_intro fun x => ?_; cases x <;> (first | exact Or.inr rfl | exact Or.inl (needs_mem hp (by decide))))) only [frame_mk_tap, frame_mk_grSets]
    | dsimp only

theorem frame_emit (hp : Needs [.out] fr) (c : Card) (o : Out) (hC : Held fr c₀ c) : Held fr c₀ (Card.emit c o) := by
  unfold Card.emit
  repeat' with_reducible first
    | assumption | exact needs_of hp (by decide)
    | simp (disch := (refine rest_intro fun x => ?_; cases x <;> (first | exact Or.inr rfl | exact Or.inl (needs_mem hp (by decide))))) only [frame_mk_tap, frame_mk_grSets]
    | dsimp only

theorem frame_setCfg (hp : Needs [.config] fr) (c : Card) (n : Nat) (v : Cfg) (hC : Held fr c₀ c) : Held fr c₀ (Card.setCfg c
    n v) := by
  unfold Card.setCfg
  repeat' with_reducible first
    | assumption | exact needs_of hp (by decide)
    | simp (disch := (refine rest_intro fun x => ?_; cases x <;> (first | exact Or.inr rfl | exact Or.inl (needs_mem hp (by decide))))) only [frame_mk_tap, frame_mk_grSets]
    | dsimp only

theorem frame_setFn (hp : Needs [.functions] fr) (c : Card) (n : Nat) (v : FnState) (hC : Held fr c₀ c) : Held fr c₀
    (Card.setFn c n v) := by
  unfold Card.setFn
  repeat' with_reducible first
    | assumption | exact needs_of hp (by decide)
    | simp (disch := (refine rest_intro fun x => ?_; cases x <;> (first | exact Or.inr rfl | exact Or.inl (needs_mem hp (by decide))))) only [frame_mk_tap, frame_mk_grSets]
    | dsimp only

theorem frame_aerLog (hp : Needs [.config] fr) (c : Card) (pf : Nat) (e : AerErr) (hdr : Option Nat) (hC : Held fr c₀ c) :
    Held fr c₀ (Card.aerLog c pf e hdr) := by
  unfold Card.aerLog
  repeat' with_reducible first
    | assumption | exact needs_of hp (by decide) | refine frame_ite ?_ ?_
    | simp (disch := (refine rest_intro fun x => ?_; cases x <;> (first | exact Or.inr rfl | exact Or.inl (needs_mem hp (by decide))))) only [frame_mk_tap, frame_mk_grSets]
    | (refine frame_of_fst (by assumption) ?_) | split | dsimp only

theorem frame_msixSend (hp : Needs [.out] fr) (c : Card) (n v : Nat) (hC : Held fr c₀ c) : Held fr c₀ (Card.msixSend c n v)
    := by
  unfold Card.msixSend
  repeat' with_reducible first
    | assumption | exact needs_of hp (by decide) | apply frame_emit
    | simp (disch := (refine rest_intro fun x => ?_; cases x <;> (first | exact Or.inr rfl | exact Or.inl (needs_mem hp (by decide))))) only [frame_mk_tap, frame_mk_grSets]
    | dsimp only

theorem frame_raise (hp : Needs [.regs, .out] fr) (c : Card) (n v : Nat) (hC : Held fr c₀ c) : Held fr c₀ (Card.raise c n v)
    := by
  unfold Card.raise
  repeat' with_reducible first
    | assumption | exact needs_of hp (by decide) | refine frame_ite ?_ ?_ | apply frame_msixSend | apply frame_setBit
    | simp (disch := (refine rest_intro fun x => ?_; cases x <;> (first | exact Or.inr rfl | exact Or.inl (needs_mem hp (by decide))))) only [frame_mk_tap, frame_mk_grSets]
    | dsimp only

theorem frame_msixRelease (hp : Needs [.regs, .out] fr) (c : Card) (n : Nat) (hC : Held fr c₀ c) : Held fr c₀
    (Card.msixRelease c n) := by
  unfold Card.msixRelease
  repeat' with_reducible first
    | assumption | exact needs_of hp (by decide) | refine frame_ite ?_ ?_ | (refine frame_foldl (fun _ _ _ => ?_) _ ?_)
    | apply frame_msixSend | apply frame_setBit
    | simp (disch := (refine rest_intro fun x => ?_; cases x <;> (first | exact Or.inr rfl | exact Or.inl (needs_mem hp (by decide))))) only [frame_mk_tap, frame_mk_grSets]
    | dsimp only

theorem frame_event (hp : Needs [.regs, .out] fr) (c : Card) (off bit vec : Nat) (hC : Held fr c₀ c) : Held fr c₀ (Card.event
    c off bit vec) := by
  unfold Card.event
  repeat' with_reducible first
    | assumption | exact needs_of hp (by decide) | apply frame_raise | apply frame_setBit
    | simp (disch := (refine rest_intro fun x => ?_; cases x <;> (first | exact Or.inr rfl | exact Or.inl (needs_mem hp (by decide))))) only [frame_mk_tap, frame_mk_grSets]
    | dsimp only

theorem frame_hpEvent (hp : Needs [.regs, .out] fr) (c : Card) (h off bit vec : Nat) (hC : Held fr c₀ c) : Held fr c₀
    (Card.hpEvent c h off bit vec) := by
  unfold Card.hpEvent
  repeat' with_reducible first
    | assumption | exact needs_of hp (by decide) | apply frame_raise | apply frame_setBit
    | simp (disch := (refine rest_intro fun x => ?_; cases x <;> (first | exact Or.inr rfl | exact Or.inl (needs_mem hp (by decide))))) only [frame_mk_tap, frame_mk_grSets]
    | dsimp only

theorem frame_setRing (hp : Needs [.rings] fr) (c : Card) (h r : Nat) (v : Ring) (hC : Held fr c₀ c) : Held fr c₀
    (Card.setRing c h r v) := by
  unfold Card.setRing
  repeat' with_reducible first
    | assumption | exact needs_of hp (by decide)
    | simp (disch := (refine rest_intro fun x => ?_; cases x <;> (first | exact Or.inr rfl | exact Or.inl (needs_mem hp (by decide))))) only [frame_mk_tap, frame_mk_grSets]
    | dsimp only

theorem frame_setPace (hp : Needs [.pace] fr) (c : Card) (h : Nat) (p : Pace) (hC : Held fr c₀ c) : Held fr c₀ (Card.setPace
    c h p) := by
  unfold Card.setPace
  repeat' with_reducible first
    | assumption | exact needs_of hp (by decide)
    | simp (disch := (refine rest_intro fun x => ?_; cases x <;> (first | exact Or.inr rfl | exact Or.inl (needs_mem hp (by decide))))) only [frame_mk_tap, frame_mk_grSets]
    | dsimp only

theorem frame_runTimer (hp : Needs [.time, .regs] fr) (c : Card) (k unit dt : Nat) (hC : Held fr c₀ c) : Held fr c₀
    (Card.runTimer c k unit dt) := by
  unfold Card.runTimer
  repeat' with_reducible first
    | assumption | exact needs_of hp (by decide) | apply frame_bump
    | simp (disch := (refine rest_intro fun x => ?_; cases x <;> (first | exact Or.inr rfl | exact Or.inl (needs_mem hp (by decide))))) only [frame_mk_tap, frame_mk_grSets]
    | dsimp only

theorem frame_advance (hp : Needs [.time, .regs, .pace] fr) (c : Card) (dt : Nat) (hC : Held fr c₀ c) : Held fr c₀
    (Card.advance c dt) := by
  unfold Card.advance
  repeat' with_reducible first
    | assumption | exact needs_of hp (by decide) | refine frame_ite ?_ ?_ | (refine frame_foldl (fun _ _ _ => ?_) _ ?_)
    | apply frame_runTimer | apply frame_setPace
    | simp (disch := (refine rest_intro fun x => ?_; cases x <;> (first | exact Or.inr rfl | exact Or.inl (needs_mem hp (by decide))))) only [frame_mk_tap, frame_mk_grSets]
    | dsimp only

theorem frame_advanceTo (hp : Needs [.time, .regs, .pace] fr) (c : Card) (t : Nat) (hC : Held fr c₀ c) : Held fr c₀
    (Card.advanceTo c t) := by
  unfold Card.advanceTo
  repeat' with_reducible first
    | assumption | exact needs_of hp (by decide) | refine frame_ite ?_ ?_ | apply frame_advance
    | simp (disch := (refine rest_intro fun x => ?_; cases x <;> (first | exact Or.inr rfl | exact Or.inl (needs_mem hp (by decide))))) only [frame_mk_tap, frame_mk_grSets]
    | dsimp only

theorem frame_tick (hp : Needs [.time, .regs, .pace] fr) (c : Card) (hC : Held fr c₀ c) : Held fr c₀ (Card.tick c) := by
  unfold Card.tick
  repeat' with_reducible first
    | assumption | exact needs_of hp (by decide) | refine frame_ite ?_ ?_ | apply frame_advance
    | simp (disch := (refine rest_intro fun x => ?_; cases x <;> (first | exact Or.inr rfl | exact Or.inl (needs_mem hp (by decide))))) only [frame_mk_tap, frame_mk_grSets]
    | dsimp only

theorem frame_setRec (hp : Needs [.records] fr) (c : Card) (h r : Nat) (v : RecRing) (hC : Held fr c₀ c) : Held fr c₀
    (Card.setRec c h r v) := by
  unfold Card.setRec
  repeat' with_reducible first
    | assumption | exact needs_of hp (by decide)
    | simp (disch := (refine rest_intro fun x => ?_; cases x <;> (first | exact Or.inr rfl | exact Or.inl (needs_mem hp (by decide))))) only [frame_mk_tap, frame_mk_grSets]
    | dsimp only

theorem frame_setEpoch (hp : Needs [.epochs] fr) (c : Card) (h e : Nat) (v : Epoch) (hC : Held fr c₀ c) : Held fr c₀
    (Card.setEpoch c h e v) := by
  unfold Card.setEpoch
  repeat' with_reducible first
    | assumption | exact needs_of hp (by decide)
    | simp (disch := (refine rest_intro fun x => ?_; cases x <;> (first | exact Or.inr rfl | exact Or.inl (needs_mem hp (by decide))))) only [frame_mk_tap, frame_mk_grSets]
    | dsimp only

theorem frame_setStream (hp : Needs [.streams] fr) (c : Card) (h s : Nat) (v : Option Stream) (hC : Held fr c₀ c) : Held fr
    c₀ (Card.setStream c h s v) := by
  unfold Card.setStream
  repeat' with_reducible first
    | assumption | exact needs_of hp (by decide)
    | simp (disch := (refine rest_intro fun x => ?_; cases x <;> (first | exact Or.inr rfl | exact Or.inl (needs_mem hp (by decide))))) only [frame_mk_tap, frame_mk_grSets]
    | dsimp only

theorem frame_setTracker (hp : Needs [.tracks] fr) (c : Card) (h : Nat) (v : Tracker) (hC : Held fr c₀ c) : Held fr c₀
    (Card.setTracker c h v) := by
  unfold Card.setTracker
  repeat' with_reducible first
    | assumption | exact needs_of hp (by decide)
    | simp (disch := (refine rest_intro fun x => ?_; cases x <;> (first | exact Or.inr rfl | exact Or.inl (needs_mem hp (by decide))))) only [frame_mk_tap, frame_mk_grSets]
    | dsimp only

theorem frame_setPort (hp : Needs [.links] fr) (c : Card) (p : Nat) (v : Port) (hC : Held fr c₀ c) : Held fr c₀ (Card.setPort
    c p v) := by
  unfold Card.setPort
  repeat' with_reducible first
    | assumption | exact needs_of hp (by decide)
    | simp (disch := (refine rest_intro fun x => ?_; cases x <;> (first | exact Or.inr rfl | exact Or.inl (needs_mem hp (by decide))))) only [frame_mk_tap, frame_mk_grSets]
    | dsimp only

theorem frame_setGr (hp : Needs [.griddle] fr) (c : Card) (h u : Nat) (v : GrUnit) (hC : Held fr c₀ c) : Held fr c₀
    (Card.setGr c h u v) := by
  unfold Card.setGr
  repeat' with_reducible first
    | assumption | exact needs_of hp (by decide)
    | simp (disch := (refine rest_intro fun x => ?_; cases x <;> (first | exact Or.inr rfl | exact Or.inl (needs_mem hp (by decide))))) only [frame_mk_tap, frame_mk_grSets]
    | dsimp only

theorem frame_setVc (hp : Needs [.raster] fr) (c : Card) (h k : Nat) (v : RpVc) (hC : Held fr c₀ c) : Held fr c₀ (Card.setVc
    c h k v) := by
  unfold Card.setVc
  repeat' with_reducible first
    | assumption | exact needs_of hp (by decide)
    | simp (disch := (refine rest_intro fun x => ?_; cases x <;> (first | exact Or.inr rfl | exact Or.inl (needs_mem hp (by decide))))) only [frame_mk_tap, frame_mk_grSets]
    | dsimp only

theorem frame_unclaimed (hp : Needs [.config, .out] fr) (c : Card) (fn : Fn) (write : Bool) (hdr : Option Nat) (hC : Held fr
    c₀ c) : Held fr c₀ (Card.unclaimed c fn write hdr) := by
  unfold Card.unclaimed
  repeat' with_reducible first
    | assumption | exact needs_of hp (by decide) | refine frame_ite ?_ ?_ | apply frame_aerLog | apply frame_emit
    | simp (disch := (refine rest_intro fun x => ?_; cases x <;> (first | exact Or.inr rfl | exact Or.inl (needs_mem hp (by decide))))) only [frame_mk_tap, frame_mk_grSets]
    | dsimp only

theorem frame_hostWrite (hp : Needs [.regs, .config, .fresh, .out] fr) (c : Card) (fn : Fn) (off : Nat) (k : Card → Card) (hC
    : Held fr c₀ c) (h_k : ∀ c, Held fr c₀ c → Held fr c₀ (k c)) : Held fr c₀ (Card.hostWrite c fn off k) := by
  unfold Card.hostWrite
  repeat' with_reducible first
    | assumption | exact needs_of hp (by decide) | apply h_k | refine frame_ite ?_ ?_ | apply frame_bump | apply frame_draw
    | apply frame_unclaimed
    | simp (disch := (refine rest_intro fun x => ?_; cases x <;> (first | exact Or.inr rfl | exact Or.inl (needs_mem hp (by decide))))) only [frame_mk_tap, frame_mk_grSets]
    | (refine frame_of_fst (by assumption) ?_) | split | dsimp only

theorem frame_settleB (hp : Needs [.power] fr) (c : Card) (hC : Held fr c₀ c) : Held fr c₀ (Card.settleB c) := by
  unfold Card.settleB
  repeat' with_reducible first
    | assumption | exact needs_of hp (by decide)
    | simp (disch := (refine rest_intro fun x => ?_; cases x <;> (first | exact Or.inr rfl | exact Or.inl (needs_mem hp (by decide))))) only [frame_mk_tap, frame_mk_grSets]
    | dsimp only

theorem frame_noteGov (hp : Needs [.power] fr) (c : Card) (hC : Held fr c₀ c) : Held fr c₀ (Card.noteGov c) := by
  unfold Card.noteGov
  repeat' with_reducible first
    | assumption | exact needs_of hp (by decide) | refine frame_ite ?_ ?_ | apply frame_settleB
    | simp (disch := (refine rest_intro fun x => ?_; cases x <;> (first | exact Or.inr rfl | exact Or.inl (needs_mem hp (by decide))))) only [frame_mk_tap, frame_mk_grSets]
    | dsimp only

theorem frame_clearRc (hp : Needs [.regs] fr) (c : Card) (k : Nat) (hC : Held fr c₀ c) : Held fr c₀ (Card.clearRc c k) := by
  unfold Card.clearRc
  repeat' with_reducible first
    | assumption | exact needs_of hp (by decide) | refine frame_ite ?_ ?_ | (refine frame_foldl (fun _ _ _ => ?_) _ ?_)
    | apply frame_setReg
    | simp (disch := (refine rest_intro fun x => ?_; cases x <;> (first | exact Or.inr rfl | exact Or.inl (needs_mem hp (by decide))))) only [frame_mk_tap, frame_mk_grSets]
    | (refine frame_of_fst (by assumption) ?_) | split | dsimp only

theorem frame_fullRead (hp : Needs [.regs] fr) (c : Card) (k : Nat) (hC : Held fr c₀ c) : Held fr c₀ (Card.fullRead c k) :=
    by
  unfold Card.fullRead
  repeat' with_reducible first
    | assumption | exact needs_of hp (by decide) | refine frame_ite ?_ ?_ | apply frame_clearRc
    | simp (disch := (refine rest_intro fun x => ?_; cases x <;> (first | exact Or.inr rfl | exact Or.inl (needs_mem hp (by decide))))) only [frame_mk_tap, frame_mk_grSets]
    | dsimp only

theorem frame_readWord (hp : Needs [.regs] fr) (c : Card) (fn : Fn) (off : Nat) (hC : Held fr c₀ c) :
    Held fr c₀ (Card.readWord c fn off).2 := by
  unfold Card.readWord
  split
  · exact hC
  · split
    · exact hC
    · exact frame_fullRead (needs_of hp (by decide)) _ _ hC

theorem frame_read32 (hp : Needs [.regs, .config, .fresh, .out] fr) (c : Card) (fn : Fn) (off size : Nat) (hC : Held fr c₀ c) :
    Held fr c₀ (Card.read32 c fn off size) := by
  unfold Card.read32
  repeat' with_reducible first
    | assumption | exact needs_of hp (by decide) | refine frame_ite ?_ ?_ | apply frame_draw | apply frame_emit
    | apply frame_fullRead | apply frame_unclaimed | apply frame_readWord
    | simp (disch := (refine rest_intro fun x => ?_; cases x <;> (first | exact Or.inr rfl | exact Or.inl (needs_mem hp (by decide))))) only [frame_mk_tap, frame_mk_grSets]
    | split | dsimp only

theorem frame_trainPort (hp : Needs [.regs] fr) (c : Card) (p : Nat) (hC : Held fr c₀ c) : Held fr c₀ (Card.trainPort c p) :=
    by
  unfold Card.trainPort
  repeat' with_reducible first
    | assumption | exact needs_of hp (by decide) | refine frame_ite ?_ ?_ | apply frame_setF
    | simp (disch := (refine rest_intro fun x => ?_; cases x <;> (first | exact Or.inr rfl | exact Or.inl (needs_mem hp (by decide))))) only [frame_mk_tap, frame_mk_grSets]
    | dsimp only

theorem frame_judgeHeld (hp : Needs [.pace] fr) (c : Card) (hC : Held fr c₀ c) : Held fr c₀ (Card.judgeHeld c) := by
  unfold Card.judgeHeld
  repeat' with_reducible first
    | assumption | exact needs_of hp (by decide)
    | simp (disch := (refine rest_intro fun x => ?_; cases x <;> (first | exact Or.inr rfl | exact Or.inl (needs_mem hp (by decide))))) only [frame_mk_tap, frame_mk_grSets]
    | dsimp only

theorem frame_refuseSearches (hp : Needs [.rings] fr) (c : Card) (hC : Held fr c₀ c) : Held fr c₀ (Card.refuseSearches c) :=
    by
  unfold Card.refuseSearches
  repeat' with_reducible first
    | assumption | exact needs_of hp (by decide) | refine frame_ite ?_ ?_ | (refine frame_foldl (fun _ _ _ => ?_) _ ?_)
    | apply frame_setRing
    | simp (disch := (refine rest_intro fun x => ?_; cases x <;> (first | exact Or.inr rfl | exact Or.inl (needs_mem hp (by decide))))) only [frame_mk_tap, frame_mk_grSets]
    | dsimp only

theorem frame_writeReg (hp : Needs [.regs, .pace, .rings, .memctl, .power, .faults] fr) (c : Card) (k : Nat) (v : Word) (hC :
    Held fr c₀ c) : Held fr c₀ (Card.writeReg c k v) := by
  unfold Card.writeReg
  repeat' with_reducible first
    | assumption | exact needs_of hp (by decide) | refine frame_ite ?_ ?_ | apply frame_bump | apply frame_judgeHeld
    | apply frame_noteGov | apply frame_refuseSearches | apply frame_setReg | apply frame_trainPort
    | simp (disch := (refine rest_intro fun x => ?_; cases x <;> (first | exact Or.inr rfl | exact Or.inl (needs_mem hp (by decide))))) only [frame_mk_tap, frame_mk_grSets]
    | (refine frame_of_fst (by assumption) ?_) | split | dsimp only

theorem frame_holdLo (hp : Needs [.regs] fr) (c : Card) (k : Nat) (v : Word) (hC : Held fr c₀ c) : Held fr c₀ (Card.holdLo c
    k v) := by
  unfold Card.holdLo
  repeat' with_reducible first
    | assumption | exact needs_of hp (by decide)
    | simp (disch := (refine rest_intro fun x => ?_; cases x <;> (first | exact Or.inr rfl | exact Or.inl (needs_mem hp (by decide))))) only [frame_mk_tap, frame_mk_grSets]
    | dsimp only

theorem frame_dropHold (hp : Needs [.regs] fr) (c : Card) (k : Nat) (hC : Held fr c₀ c) : Held fr c₀ (Card.dropHold c k) :=
    by
  unfold Card.dropHold
  repeat' with_reducible first
    | assumption | exact needs_of hp (by decide)
    | simp (disch := (refine rest_intro fun x => ?_; cases x <;> (first | exact Or.inr rfl | exact Or.inl (needs_mem hp (by decide))))) only [frame_mk_tap, frame_mk_grSets]
    | dsimp only

theorem frame_applyHi (hp : Needs [.regs, .pace, .rings, .memctl, .power, .faults] fr) (c : Card) (k : Nat) (v : Word) (hC :
    Held fr c₀ c) : Held fr c₀ (Card.applyHi c k v) := by
  unfold Card.applyHi
  repeat' with_reducible first
    | assumption | exact needs_of hp (by decide) | apply frame_dropHold | apply frame_writeReg
    | simp (disch := (refine rest_intro fun x => ?_; cases x <;> (first | exact Or.inr rfl | exact Or.inl (needs_mem hp (by decide))))) only [frame_mk_tap, frame_mk_grSets]
    | dsimp only

theorem frame_write32 (hp : Needs [.regs, .pace, .rings, .memctl, .power, .faults] fr) (c : Card) (k : Nat) (v : Word) (hC :
    Held fr c₀ c) : Held fr c₀ (Card.write32 c k v) := by
  unfold Card.write32
  repeat' with_reducible first
    | assumption | exact needs_of hp (by decide) | refine frame_ite ?_ ?_ | apply frame_applyHi | apply frame_holdLo
    | apply frame_writeReg
    | simp (disch := (refine rest_intro fun x => ?_; cases x <;> (first | exact Or.inr rfl | exact Or.inl (needs_mem hp (by decide))))) only [frame_mk_tap, frame_mk_grSets]
    | dsimp only

theorem frame_mmioWrite (hp : Needs [.regs, .config, .pace, .rings, .memctl, .power, .faults, .fresh, .out] fr) (c : Card)
    (fn : Fn) (off size value : Nat) (hC : Held fr c₀ c) : Held fr c₀ (Card.mmioWrite c fn off size value) := by
  unfold Card.mmioWrite
  repeat' with_reducible first
    | assumption | exact needs_of hp (by decide) | refine frame_ite ?_ ?_ | apply frame_hostWrite | apply frame_write32
    | (rw [id_eq]; assumption)
    | simp (disch := (refine rest_intro fun x => ?_; cases x <;> (first | exact Or.inr rfl | exact Or.inl (needs_mem hp (by decide))))) only [frame_mk_tap, frame_mk_grSets]
    | (refine frame_of_fst (by assumption) ?_) | split | intro _ _ | dsimp only

theorem frame_bar4Write (hp : Needs [.regs, .config, .fresh, .out] fr) (c : Card) (fn : Fn) (off : Nat) (hC : Held fr c₀ c) :
    Held fr c₀ (Card.bar4Write c fn off) := by
  unfold Card.bar4Write
  repeat' with_reducible first
    | assumption | exact needs_of hp (by decide) | apply frame_hostWrite | (rw [id_eq]; assumption)
    | simp (disch := (refine rest_intro fun x => ?_; cases x <;> (first | exact Or.inr rfl | exact Or.inl (needs_mem hp (by decide))))) only [frame_mk_tap, frame_mk_grSets]
    | (refine frame_of_fst (by assumption) ?_) | split | intro _ _ | dsimp only

theorem frame_bar4Read (hp : Needs [.config, .fresh, .out] fr) (c : Card) (fn : Fn) (off size : Nat) (hC : Held fr c₀ c) :
    Held fr c₀ (Card.bar4Read c fn off size) := by
  unfold Card.bar4Read
  repeat' with_reducible first
    | assumption | exact needs_of hp (by decide) | refine frame_ite ?_ ?_ | apply frame_draw | apply frame_emit
    | apply frame_unclaimed
    | simp (disch := (refine rest_intro fun x => ?_; cases x <;> (first | exact Or.inr rfl | exact Or.inl (needs_mem hp (by decide))))) only [frame_mk_tap, frame_mk_grSets]
    | (refine frame_of_fst (by assumption) ?_) | split | dsimp only

theorem frame_configRead (hp : Needs [.out] fr) (c : Card) (fn : Fn) (fl : CfgField) (hC : Held fr c₀ c) : Held fr c₀
    (Card.configRead c fn fl) := by
  unfold Card.configRead
  repeat' with_reducible first
    | assumption | exact needs_of hp (by decide) | refine frame_ite ?_ ?_ | apply frame_emit
    | simp (disch := (refine rest_intro fun x => ?_; cases x <;> (first | exact Or.inr rfl | exact Or.inl (needs_mem hp (by decide))))) only [frame_mk_tap, frame_mk_grSets]
    | dsimp only

theorem frame_configWrite (hp : Needs [.config] fr) (c : Card) (fn : Fn) (fl : CfgField) (v : Nat) (hC : Held fr c₀ c) : Held
    fr c₀ (Card.configWrite c fn fl v) := by
  unfold Card.configWrite
  repeat' with_reducible first
    | assumption | exact needs_of hp (by decide) | refine frame_ite ?_ ?_ | apply frame_setCfg
    | simp (disch := (refine rest_intro fun x => ?_; cases x <;> (first | exact Or.inr rfl | exact Or.inl (needs_mem hp (by decide))))) only [frame_mk_tap, frame_mk_grSets]
    | (refine frame_of_fst (by assumption) ?_) | split | dsimp only

theorem frame_memPut (hp : Needs [.mem] fr) (c : Card) (key : Nat) (b : Byte) (hC : Held fr c₀ c) : Held fr c₀ (Card.memPut c
    key b) := by
  unfold Card.memPut
  repeat' with_reducible first
    | assumption | exact needs_of hp (by decide)
    | simp (disch := (refine rest_intro fun x => ?_; cases x <;> (first | exact Or.inr rfl | exact Or.inl (needs_mem hp (by decide))))) only [frame_mk_tap, frame_mk_grSets]
    | dsimp only

theorem frame_setPoison (hp : Needs [.mem] fr) (c : Card) (key : Nat) (b : Bool) (hC : Held fr c₀ c) : Held fr c₀
    (Card.setPoison c key b) := by
  unfold Card.setPoison
  repeat' with_reducible first
    | assumption | exact needs_of hp (by decide) | apply frame_memPut
    | simp (disch := (refine rest_intro fun x => ?_; cases x <;> (first | exact Or.inr rfl | exact Or.inl (needs_mem hp (by decide))))) only [frame_mk_tap, frame_mk_grSets]
    | dsimp only

theorem frame_putBytes (hp : Needs [.mem] fr) (c : Card) (e : RegionEnt) (d : Nat) (bs : List Byte) (hC : Held fr c₀ c) :
    Held fr c₀ (Card.putBytes c e d bs) := by
  induction bs generalizing c d with
  | nil => exact hC
  | cons b t ih =>
    unfold Card.putBytes
    repeat' with_reducible first
      | assumption | exact needs_of hp (by decide) | apply ih | apply frame_memPut | refine frame_ite ?_ ?_
      | simp (disch := (refine rest_intro fun x => ?_; cases x <;> (first | exact Or.inr rfl | exact Or.inl (needs_mem hp (by decide))))) only [frame_mk_tap, frame_mk_grSets]
      | split | dsimp only

theorem frame_clearLines (hp : Needs [.mem] fr) (c : Card) (e : RegionEnt) (d n : Nat) (hC : Held fr c₀ c) : Held fr c₀
    (Card.clearLines c e d n) := by
  unfold Card.clearLines
  repeat' with_reducible first
    | assumption | exact needs_of hp (by decide) | refine frame_ite ?_ ?_ | (refine frame_foldl (fun _ _ _ => ?_) _ ?_)
    | apply frame_setPoison
    | simp (disch := (refine rest_intro fun x => ?_; cases x <;> (first | exact Or.inr rfl | exact Or.inl (needs_mem hp (by decide))))) only [frame_mk_tap, frame_mk_grSets]
    | (refine frame_of_fst (by assumption) ?_) | split | dsimp only

theorem frame_wrRegion (hp : Needs [.mem] fr) (c : Card) (e : RegionEnt) (d : Nat) (bs : List Byte) (hC : Held fr c₀ c) :
    Held fr c₀ (Card.wrRegion c e d bs) := by
  unfold Card.wrRegion
  repeat' with_reducible first
    | assumption | exact needs_of hp (by decide) | apply frame_clearLines | apply frame_putBytes
    | simp (disch := (refine rest_intro fun x => ?_; cases x <;> (first | exact Or.inr rfl | exact Or.inl (needs_mem hp (by decide))))) only [frame_mk_tap, frame_mk_grSets]
    | dsimp only

theorem frame_sramWr (hp : Needs [.regs, .pace, .sram, .memctl, .freeze, .faults, .out] fr) (c : Card) (h o : Nat) (bs : List Byte) (hC : Held fr c₀ c) :
    Held fr c₀ (Card.sramWr c h o bs) := by
  induction bs generalizing c o with
  | nil => exact hC
  | cons b t ih =>
    unfold Card.sramWr
    repeat' with_reducible first
      | assumption | exact needs_of hp (by decide) | apply ih | refine frame_ite ?_ ?_
      | simp (disch := (refine rest_intro fun x => ?_; cases x <;> (first | exact Or.inr rfl | exact Or.inl (needs_mem hp (by decide))))) only [frame_mk_tap, frame_mk_grSets]
      | split | dsimp only

theorem frame_wakeChannel (hp : Needs [.regs, .dram] fr) (c : Card) (ch : Nat) (hC : Held fr c₀ c) : Held fr c₀
    (Card.wakeChannel c ch) := by
  unfold Card.wakeChannel
  repeat' with_reducible first
    | assumption | exact needs_of hp (by decide) | refine frame_ite ?_ ?_ | apply frame_setF
    | simp (disch := (refine rest_intro fun x => ?_; cases x <;> (first | exact Or.inr rfl | exact Or.inl (needs_mem hp (by decide))))) only [frame_mk_tap, frame_mk_grSets]
    | dsimp only

theorem frame_dramTouch (hp : Needs [.regs, .dram] fr) (c : Card) (rank a : Nat) (hC : Held fr c₀ c) : Held fr c₀
    (Card.dramTouch c rank a) := by
  unfold Card.dramTouch
  repeat' with_reducible first
    | assumption | exact needs_of hp (by decide) | refine frame_ite ?_ ?_ | apply frame_bump | apply frame_wakeChannel
    | simp (disch := (refine rest_intro fun x => ?_; cases x <;> (first | exact Or.inr rfl | exact Or.inl (needs_mem hp (by decide))))) only [frame_mk_tap, frame_mk_grSets]
    | dsimp only

theorem frame_rowsTouch (hp : Needs [.regs, .dram] fr) (c : Card) (p a b : Nat) (hC : Held fr c₀ c) : Held fr c₀
    (Card.rowsTouch c p a b) := by
  unfold Card.rowsTouch
  repeat' with_reducible first
    | assumption | exact needs_of hp (by decide) | (refine frame_foldl (fun _ _ _ => ?_) _ ?_) | apply frame_bump
    | apply frame_wakeChannel
    | simp (disch := (refine rest_intro fun x => ?_; cases x <;> (first | exact Or.inr rfl | exact Or.inl (needs_mem hp (by decide))))) only [frame_mk_tap, frame_mk_grSets]
    | dsimp only

theorem frame_dropLines (hp : Needs [.dram] fr) (c : Card) (p : Nat → Nat → Bool) (hC : Held fr c₀ c) : Held fr c₀
    (Card.dropLines c p) := by
  unfold Card.dropLines
  repeat' with_reducible first
    | assumption | exact needs_of hp (by decide)
    | simp (disch := (refine rest_intro fun x => ?_; cases x <;> (first | exact Or.inr rfl | exact Or.inl (needs_mem hp (by decide))))) only [frame_mk_tap, frame_mk_grSets]
    | dsimp only

theorem frame_zeroRows (hp : Needs [.regs, .mem, .dram, .memctl] fr) (c : Card) (l : List (Nat × Nat × Nat)) (hC : Held fr c₀
    c) : Held fr c₀ (Card.zeroRows c l) := by
  unfold Card.zeroRows
  repeat' with_reducible first
    | assumption | exact needs_of hp (by decide) | (refine frame_foldl (fun _ _ _ => ?_) _ ?_) | apply frame_dropLines
    | apply frame_rowsTouch
    | simp (disch := (refine rest_intro fun x => ?_; cases x <;> (first | exact Or.inr rfl | exact Or.inl (needs_mem hp (by decide))))) only [frame_mk_tap, frame_mk_grSets]
    | (refine frame_of_fst (by assumption) ?_) | split | dsimp only

theorem frame_setWay (hp : Needs [.dram] fr) (c : Card) (ch set w : Nat) (l : Option CacheLine) (hC : Held fr c₀ c) : Held fr
    c₀ (Card.setWay c ch set w l) := by
  unfold Card.setWay
  repeat' with_reducible first
    | assumption | exact needs_of hp (by decide)
    | simp (disch := (refine rest_intro fun x => ?_; cases x <;> (first | exact Or.inr rfl | exact Or.inl (needs_mem hp (by decide))))) only [frame_mk_tap, frame_mk_grSets]
    | dsimp only

theorem frame_countUse (hp : Needs [.dram] fr) (c : Card) (hC : Held fr c₀ c) : Held fr c₀ (Card.countUse c) := by
  unfold Card.countUse
  repeat' with_reducible first
    | assumption | exact needs_of hp (by decide)
    | simp (disch := (refine rest_intro fun x => ?_; cases x <;> (first | exact Or.inr rfl | exact Or.inl (needs_mem hp (by decide))))) only [frame_mk_tap, frame_mk_grSets]
    | dsimp only

theorem frame_lineDram (hp : Needs [.regs, .dram] fr) (c : Card) (ch a : Nat) (hC : Held fr c₀ c) : Held fr c₀ (Card.lineDram
    c ch a) := by
  unfold Card.lineDram
  repeat' with_reducible first
    | assumption | exact needs_of hp (by decide) | apply frame_dramTouch
    | simp (disch := (refine rest_intro fun x => ?_; cases x <;> (first | exact Or.inr rfl | exact Or.inl (needs_mem hp (by decide))))) only [frame_mk_tap, frame_mk_grSets]
    | (refine frame_of_fst (by assumption) ?_) | split | dsimp only

theorem frame_lineTouch (hp : Needs [.regs, .dram] fr) (c : Card) (h : Option Nat) (through : Bool) (ch a : Nat) (write :
    Bool) (ep : Option Nat) (hC : Held fr c₀ c) : Held fr c₀ (Card.lineTouch c h through ch a write ep) := by
  unfold Card.lineTouch
  repeat' with_reducible first
    | assumption | exact needs_of hp (by decide) | refine frame_ite ?_ ?_ | apply frame_countUse | apply frame_lineDram
    | apply frame_setWay
    | simp (disch := (refine rest_intro fun x => ?_; cases x <;> (first | exact Or.inr rfl | exact Or.inl (needs_mem hp (by decide))))) only [frame_mk_tap, frame_mk_grSets]
    | (refine frame_of_fst (by assumption) ?_) | split | dsimp only

theorem frame_touch (hp : Needs [.regs, .dram] fr) (c : Card) (h : Option Nat) (e : RegionEnt) (d n : Nat) (write : Bool) (ep
    : Option Nat) (hC : Held fr c₀ c) : Held fr c₀ (Card.touch c h e d n write ep) := by
  unfold Card.touch
  repeat' with_reducible first
    | assumption | exact needs_of hp (by decide) | refine frame_ite ?_ ?_ | (refine frame_foldl (fun _ _ _ => ?_) _ ?_)
    | apply frame_lineTouch
    | simp (disch := (refine rest_intro fun x => ?_; cases x <;> (first | exact Or.inr rfl | exact Or.inl (needs_mem hp (by decide))))) only [frame_mk_tap, frame_mk_grSets]
    | dsimp only

theorem frame_capture (hp : Needs [.regs, .out] fr) (c : Card) (rank a kind : Nat) (hC : Held fr c₀ c) : Held fr c₀
    (Card.capture c rank a kind) := by
  unfold Card.capture
  repeat' with_reducible first
    | assumption | exact needs_of hp (by decide) | refine frame_ite ?_ ?_ | apply frame_bump | apply frame_event
    | apply frame_setBit | apply frame_setF | apply frame_setN
    | simp (disch := (refine rest_intro fun x => ?_; cases x <;> (first | exact Or.inr rfl | exact Or.inl (needs_mem hp (by decide))))) only [frame_mk_tap, frame_mk_grSets]
    | dsimp only

theorem frame_countCe (hp : Needs [.regs, .dram] fr) (c : Card) (ch n : Nat) (replay : Bool) (hC : Held fr c₀ c) : Held fr c₀
    (Card.countCe c ch n replay) := by
  unfold Card.countCe
  repeat' with_reducible first
    | assumption | exact needs_of hp (by decide) | refine frame_ite ?_ ?_ | apply frame_bump
    | simp (disch := (refine rest_intro fun x => ?_; cases x <;> (first | exact Or.inr rfl | exact Or.inl (needs_mem hp (by decide))))) only [frame_mk_tap, frame_mk_grSets]
    | dsimp only

theorem frame_setCapacity (hp : Needs [.regs] fr) (c : Card) (hC : Held fr c₀ c) : Held fr c₀ (Card.setCapacity c) := by
  unfold Card.setCapacity
  repeat' with_reducible first
    | assumption | exact needs_of hp (by decide) | apply frame_setN
    | simp (disch := (refine rest_intro fun x => ?_; cases x <;> (first | exact Or.inr rfl | exact Or.inl (needs_mem hp (by decide))))) only [frame_mk_tap, frame_mk_grSets]
    | dsimp only

theorem frame_setRank (hp : Needs [.regs] fr) (c : Card) (k state peer : Nat) (hC : Held fr c₀ c) : Held fr c₀ (Card.setRank
    c k state peer) := by
  unfold Card.setRank
  repeat' with_reducible first
    | assumption | exact needs_of hp (by decide) | apply frame_setF
    | simp (disch := (refine rest_intro fun x => ?_; cases x <;> (first | exact Or.inr rfl | exact Or.inl (needs_mem hp (by decide))))) only [frame_mk_tap, frame_mk_grSets]
    | dsimp only

theorem frame_setBuf (hp : Needs [.pools] fr) (c : Card) (h p i : Nat) (b : Option Buf) (hC : Held fr c₀ c) : Held fr c₀
    (Card.setBuf c h p i b) := by
  unfold Card.setBuf
  repeat' with_reducible first
    | assumption | exact needs_of hp (by decide)
    | simp (disch := (refine rest_intro fun x => ?_; cases x <;> (first | exact Or.inr rfl | exact Or.inl (needs_mem hp (by decide))))) only [frame_mk_tap, frame_mk_grSets]
    | dsimp only

theorem frame_poolMin (hp : Needs [.regs] fr) (c : Card) (h p : Nat) (hC : Held fr c₀ c) : Held fr c₀ (Card.poolMin c h p) :=
    by
  unfold Card.poolMin
  repeat' with_reducible first
    | assumption | exact needs_of hp (by decide) | apply frame_setF
    | simp (disch := (refine rest_intro fun x => ?_; cases x <;> (first | exact Or.inr rfl | exact Or.inl (needs_mem hp (by decide))))) only [frame_mk_tap, frame_mk_grSets]
    | dsimp only

theorem frame_ladderTake (hp : Needs [.regs] fr) (c : Card) (h : Nat) (ps : List Nat) (hC : Held fr c₀ c) :
    Held fr c₀ (Card.ladderTake c h ps).1 := by
  induction ps generalizing c with
  | nil => exact hC
  | cons q rest ih =>
    unfold Card.ladderTake
    repeat' with_reducible first
      | assumption | exact needs_of hp (by decide) | apply ih | apply frame_bump | refine frame_ite ?_ ?_
      | simp (disch := (refine rest_intro fun x => ?_; cases x <;> (first | exact Or.inr rfl | exact Or.inl (needs_mem hp (by decide))))) only [frame_mk_tap, frame_mk_grSets]
      | split | dsimp only

theorem frame_poolFind (hp : Needs [.regs] fr) (c : Card) (h sel n : Nat) (hC : Held fr c₀ c) : Held fr c₀ (Card.poolFind c h
    sel n).1 := by
  unfold Card.poolFind
  repeat' with_reducible first
    | assumption | exact needs_of hp (by decide) | refine frame_ite ?_ ?_ | apply frame_bump | apply frame_ladderTake
    | (refine frame_of_fst (by assumption) ?_) | split | split | dsimp only

theorem frame_poolTakeAt (hp : Needs [.regs, .pools, .out] fr) (c : Card) (h p i ctx ring : Nat) (ep : Option Nat) (hC : Held
    fr c₀ c) : Held fr c₀ (Card.poolTakeAt c h p i ctx ring ep) := by
  unfold Card.poolTakeAt
  repeat' with_reducible first
    | assumption | exact needs_of hp (by decide) | refine frame_ite ?_ ?_ | apply frame_hpEvent | apply frame_poolMin
    | apply frame_setBuf
    | simp (disch := (refine rest_intro fun x => ?_; cases x <;> (first | exact Or.inr rfl | exact Or.inl (needs_mem hp (by decide))))) only [frame_mk_tap, frame_mk_grSets]
    | dsimp only

theorem frame_poolTake (hp : Needs [.regs, .pools, .out] fr) (c : Card) (h sel n ctx ring : Nat) (ep : Option Nat) (hC : Held
    fr c₀ c) : Held fr c₀ (Card.poolTake c h sel n ctx ring ep).1 := by
  unfold Card.poolTake
  repeat' with_reducible first
    | assumption | exact needs_of hp (by decide) | apply frame_poolFind | apply frame_poolTakeAt
    | (refine frame_of_fst (by assumption) ?_) | split | split | dsimp only

theorem frame_poolFree (hp : Needs [.regs, .pools, .out] fr) (c : Card) (h p i ctx ring : Nat) (host late : Bool) (hC : Held
    fr c₀ c) : Held fr c₀ (Card.poolFree c h p i ctx ring host late) := by
  unfold Card.poolFree
  repeat' with_reducible first
    | assumption | exact needs_of hp (by decide) | refine frame_ite ?_ ?_ | apply frame_bump | apply frame_hpEvent
    | apply frame_poolMin | apply frame_setBuf | apply frame_setN
    | simp (disch := (refine rest_intro fun x => ?_; cases x <;> (first | exact Or.inr rfl | exact Or.inl (needs_mem hp (by decide))))) only [frame_mk_tap, frame_mk_grSets]
    | (refine frame_of_fst (by assumption) ?_) | split | dsimp only

theorem frame_freeWhere (hp : Needs [.regs, .pools] fr) (c : Card) (f : Nat → Buf → Bool) (hC : Held fr c₀ c) : Held fr c₀
    (Card.freeWhere c f) := by
  unfold Card.freeWhere
  repeat' with_reducible first
    | assumption | exact needs_of hp (by decide) | (refine frame_foldl (fun _ _ _ => ?_) _ ?_) | apply frame_poolMin
    | simp (disch := (refine rest_intro fun x => ?_; cases x <;> (first | exact Or.inr rfl | exact Or.inl (needs_mem hp (by decide))))) only [frame_mk_tap, frame_mk_grSets]
    | dsimp only

theorem frame_setPoolChk (hp : Needs [.pools] fr) (c : Card) (h : Nat) (k : Option PoolCheck) (hC : Held fr c₀ c) : Held fr
    c₀ (Card.setPoolChk c h k) := by
  unfold Card.setPoolChk
  repeat' with_reducible first
    | assumption | exact needs_of hp (by decide)
    | simp (disch := (refine rest_intro fun x => ?_; cases x <;> (first | exact Or.inr rfl | exact Or.inl (needs_mem hp (by decide))))) only [frame_mk_tap, frame_mk_grSets]
    | dsimp only

theorem frame_drawXlate (hp : Needs [.tlb, .fresh] fr) (c : Card) (hC : Held fr c₀ c) : Held fr c₀ (Card.drawXlate c) := by
  unfold Card.drawXlate
  repeat' with_reducible first
    | assumption | exact needs_of hp (by decide)
    | simp (disch := (refine rest_intro fun x => ?_; cases x <;> (first | exact Or.inr rfl | exact Or.inl (needs_mem hp (by decide))))) only [frame_mk_tap, frame_mk_grSets]
    | dsimp only

theorem frame_touchWalk (hp : Needs [.regs, .dram] fr) (c : Card) (h ctx va : Nat) (hC : Held fr c₀ c) : Held fr c₀
    (Card.touchWalk c h ctx va) := by
  unfold Card.touchWalk
  repeat' with_reducible first
    | assumption | exact needs_of hp (by decide) | refine frame_ite ?_ ?_ | (refine frame_foldl (fun _ _ _ => ?_) _ ?_)
    | apply frame_touch
    | simp (disch := (refine rest_intro fun x => ?_; cases x <;> (first | exact Or.inr rfl | exact Or.inl (needs_mem hp (by decide))))) only [frame_mk_tap, frame_mk_grSets]
    | (refine frame_of_fst (by assumption) ?_) | split | dsimp only

theorem frame_cachePage (hp : Needs [.tlb] fr) (c : Card) (h ctx va : Nat) (hC : Held fr c₀ c) : Held fr c₀ (Card.cachePage c
    h ctx va) := by
  unfold Card.cachePage
  repeat' with_reducible first
    | assumption | exact needs_of hp (by decide) | refine frame_ite ?_ ?_
    | simp (disch := (refine rest_intro fun x => ?_; cases x <;> (first | exact Or.inr rfl | exact Or.inl (needs_mem hp (by decide))))) only [frame_mk_tap, frame_mk_grSets]
    | (refine frame_of_fst (by assumption) ?_) | split | dsimp only

theorem frame_cacheXlate (hp : Needs [.regs, .tlb, .dram] fr) (c : Card) (h ctx va n : Nat) (hC : Held fr c₀ c) : Held fr c₀
    (Card.cacheXlate c h ctx va n) := by
  unfold Card.cacheXlate
  repeat' with_reducible first
    | assumption | exact needs_of hp (by decide) | (refine frame_foldl (fun _ _ _ => ?_) _ ?_) | apply frame_cachePage
    | apply frame_touchWalk
    | simp (disch := (refine rest_intro fun x => ?_; cases x <;> (first | exact Or.inr rfl | exact Or.inl (needs_mem hp (by decide))))) only [frame_mk_tap, frame_mk_grSets]
    | dsimp only

theorem frame_readDone (hp : Needs [.regs, .tlb, .dram] fr) (c : Card) (h ctx va n : Nat) (hC : Held fr c₀ c) : Held fr c₀
    (Card.readDone c h ctx va n) := by
  unfold Card.readDone
  repeat' with_reducible first
    | assumption | exact needs_of hp (by decide) | (refine frame_foldl (fun _ _ _ => ?_) _ ?_) | apply frame_cacheXlate
    | apply frame_touch
    | simp (disch := (refine rest_intro fun x => ?_; cases x <;> (first | exact Or.inr rfl | exact Or.inl (needs_mem hp (by decide))))) only [frame_mk_tap, frame_mk_grSets]
    | dsimp only

theorem frame_dropXlate (hp : Needs [.tlb] fr) (c : Card) (reg off : Nat) (hC : Held fr c₀ c) : Held fr c₀ (Card.dropXlate c
    reg off) := by
  unfold Card.dropXlate
  repeat' with_reducible first
    | assumption | exact needs_of hp (by decide)
    | simp (disch := (refine rest_intro fun x => ?_; cases x <;> (first | exact Or.inr rfl | exact Or.inl (needs_mem hp (by decide))))) only [frame_mk_tap, frame_mk_grSets]
    | dsimp only

theorem frame_rewriteLeaf (hp : Needs [.tlb, .mem] fr) {c c' : Card} {l : Leaf} {e : Nat} (hC : Held fr c₀ c)
    (he : c.rewriteLeaf l e = .ok c') : Held fr c₀ c' := by
  unfold Card.rewriteLeaf at he
  simp only [bind, Except.bind, pure, Except.pure] at he
  split at he
  · cases he
  · split at he
    · cases he
    · cases he
      repeat' with_reducible first
        | assumption | exact needs_of hp (by decide) | apply frame_dropXlate | apply frame_wrRegion | refine frame_ite ?_ ?_
        | simp (disch := (refine rest_intro fun x => ?_; cases x <;> (first | exact Or.inr rfl | exact Or.inl (needs_mem hp (by decide))))) only [frame_mk_tap, frame_mk_grSets]
        | split | dsimp only

theorem frame_sparseBack (hp : Needs [.regs, .tlb, .pools, .mem, .out] fr) (c : Card) (h ctx ring : Nat) (ep : Option Nat) (l : Leaf)
    (err : Option Nat) (hC : Held fr c₀ c) : Held fr c₀ (Card.sparseBack c h ctx ring ep l err).1 := by
  unfold Card.sparseBack
  dsimp only
  repeat' with_reducible first
    | assumption | exact needs_of hp (by decide) | apply frame_bump | apply frame_poolFree | apply frame_poolTakeAt
    | refine frame_ite ?_ ?_
    | simp (disch := (refine rest_intro fun x => ?_; cases x <;> (first | exact Or.inr rfl | exact Or.inl (needs_mem hp (by decide))))) only [frame_mk_tap, frame_mk_grSets]
    | split | dsimp only
  refine frame_rewriteLeaf (needs_of hp (by decide)) ?_ ‹_›
  repeat' with_reducible first
    | assumption | exact needs_of hp (by decide) | apply frame_wrRegion | apply frame_poolTakeAt | refine frame_ite ?_ ?_
    | simp (disch := (refine rest_intro fun x => ?_; cases x <;> (first | exact Or.inr rfl | exact Or.inl (needs_mem hp (by decide))))) only [frame_mk_tap, frame_mk_grSets]
    | split | dsimp only

theorem frame_vwritePage (hp : Needs [.regs, .tlb, .pools, .mem, .dram, .out] fr) (c : Card) (h ctx ring : Nat) (ep : Option Nat) (va : Nat)
    (bs : List Byte) (hC : Held fr c₀ c) : Held fr c₀ (Card.vwritePage c h ctx ring ep va bs).card := by
  unfold Card.vwritePage
  split
  · exact hC
  · split
    · exact hC
    · split <;> exact hC
    · split
      · exact hC
      · have hq : ∀ q : Card × Res (Nat × Nat), Held fr c₀ q.1 → ∀ l : Leaf, Held fr c₀ (match q with
          | (c, .error d) => ({ card := c, fault := some ⟨d, 0, va⟩ } : WRes)
          | (c, .ok (reg, off)) =>
            match c.region ctx reg (off + l.pageOff va) bs.length with
            | .error d => { card := c, fault := some ⟨d, 0, va⟩ }
            | .ok e =>
              let d := off + l.pageOff va
              let c' := (c.wrRegion e d bs).touch (some h) e d bs.length true (ep.map (fun x => 65536 * h + x))
              { card := c', undo := c.undoOf e d bs.length,
                fault := if c.anyLost e d bs.length then some ⟨dRankLost, 0, va⟩ else none }).card := by
          rintro ⟨c, _ | ⟨reg, off⟩⟩ h1 l
          · exact h1
          · dsimp only
            split
            · exact h1
            · exact frame_touch (needs_of hp (by decide)) _ _ _ _ _ _ _ (frame_wrRegion (needs_of hp (by decide)) _ _ _ _ h1)
        refine hq _ ?_ _
        split
        · exact frame_sparseBack (needs_of hp (by decide)) _ _ _ _ _ _ _ hC
        · exact hC

theorem frame_vwriteGo (hp : Needs [.regs, .tlb, .pools, .mem, .dram, .out] fr) (h ctx ring : Nat) (ep : Option Nat) (fuel : Nat) (c : Card) (va : Nat)
    (bs : List Byte) (hC : Held fr c₀ c) : Held fr c₀ (Card.vwriteGo h ctx ring ep fuel c va bs).card := by
  induction fuel generalizing c va bs with
  | zero => exact hC
  | succ n ih =>
    have h1 := frame_vwritePage (needs_of hp (by decide)) c h ctx ring ep va (bs.take (pageRest va)) hC
    unfold Card.vwriteGo
    split
    · exact hC
    · dsimp only
      split
      · exact h1
      · exact ih _ _ _ h1

theorem frame_vwrite (hp : Needs [.regs, .tlb, .pools, .mem, .dram, .out] fr) (c : Card) (h ctx ring : Nat) (ep : Option Nat) (va : Nat) (bs : List Byte)
    (hC : Held fr c₀ c) : Held fr c₀ (Card.vwrite c h ctx ring ep va bs).card :=
  frame_vwriteGo (needs_of hp (by decide)) _ _ _ _ _ _ _ _ hC

theorem frame_xlFault (hp : Needs [.regs, .out] fr) (c : Card) (h ring ctx : Nat) (f : XFault) (hC : Held fr c₀ c) : Held fr
    c₀ (Card.xlFault c h ring ctx f) := by
  unfold Card.xlFault
  repeat' with_reducible first
    | assumption | exact needs_of hp (by decide) | refine frame_ite ?_ ?_ | apply frame_bump | apply frame_raise
    | apply frame_setN | apply frame_setPair
    | simp (disch := (refine rest_intro fun x => ?_; cases x <;> (first | exact Or.inr rfl | exact Or.inl (needs_mem hp (by decide))))) only [frame_mk_tap, frame_mk_grSets]
    | (refine frame_of_fst (by assumption) ?_) | split | dsimp only

theorem frame_poisonPartial (hp : Needs [.mem] fr) (c : Card) (e : RegionEnt) (d n : Nat) (bad : List Nat) (hC : Held fr c₀
    c) : Held fr c₀ (Card.poisonPartial c e d n bad) := by
  unfold Card.poisonPartial
  repeat' with_reducible first
    | assumption | exact needs_of hp (by decide) | refine frame_ite ?_ ?_ | (refine frame_foldl (fun _ _ _ => ?_) _ ?_)
    | apply frame_setPoison
    | simp (disch := (refine rest_intro fun x => ?_; cases x <;> (first | exact Or.inr rfl | exact Or.inl (needs_mem hp (by decide))))) only [frame_mk_tap, frame_mk_grSets]
    | (refine frame_of_fst (by assumption) ?_) | split | dsimp only

theorem frame_ctxWrite (hp : Needs [.regs, .tlb, .pools, .mem, .dram, .out] fr) (c : Card) (h : Nat) (t : Stream) (va : Nat)
    (bs : List Byte) (hC : Held fr c₀ c) : Held fr c₀ (Card.ctxWrite c h t va bs) := by
  unfold Card.ctxWrite
  repeat' with_reducible first
    | assumption | exact needs_of hp (by decide) | apply frame_vwrite | apply frame_xlFault
    | simp (disch := (refine rest_intro fun x => ?_; cases x <;> (first | exact Or.inr rfl | exact Or.inl (needs_mem hp (by decide))))) only [frame_mk_tap, frame_mk_grSets]
    | (refine frame_of_fst (by assumption) ?_) | split | dsimp only

theorem frame_enqueue (hp : Needs [.regs, .tlb, .pools, .mem, .dram, .streams, .out] fr) (c : Card) (h s : Nat) (t : Stream)
    (m : FeedMark) (bs : List Byte) (hC : Held fr c₀ c) : Held fr c₀ (Card.enqueue c h s t m bs).1 := by
  unfold Card.enqueue
  repeat' with_reducible first
    | assumption | exact needs_of hp (by decide) | apply frame_ctxWrite | apply frame_setStream
    | simp (disch := (refine rest_intro fun x => ?_; cases x <;> (first | exact Or.inr rfl | exact Or.inl (needs_mem hp (by decide))))) only [frame_mk_tap, frame_mk_grSets]
    | split | dsimp only

theorem frame_feedCut (hp : Needs [.regs, .tlb, .pools, .mem, .dram, .streams, .out] fr) (c : Card) (h : Nat) (o : Op)
    (starts : List Nat) (hC : Held fr c₀ c) : Held fr c₀ (Card.feedCut c h o starts) := by
  unfold Card.feedCut
  repeat' with_reducible first
    | assumption | exact needs_of hp (by decide) | refine frame_ite ?_ ?_ | apply frame_enqueue | apply frame_setStream
    | simp (disch := (refine rest_intro fun x => ?_; cases x <;> (first | exact Or.inr rfl | exact Or.inl (needs_mem hp (by decide))))) only [frame_mk_tap, frame_mk_grSets]
    | (refine frame_of_fst (by assumption) ?_) | split | dsimp only

theorem frame_endHeldReads (hp : Needs [.memctl, .out] fr) (c : Card) (hC : Held fr c₀ c) : Held fr c₀ (Card.endHeldReads c)
    := by
  unfold Card.endHeldReads
  repeat' with_reducible first
    | assumption | exact needs_of hp (by decide) | refine frame_ite ?_ ?_ | (refine frame_foldl (fun _ _ _ => ?_) _ ?_)
    | apply frame_emit
    | simp (disch := (refine rest_intro fun x => ?_; cases x <;> (first | exact Or.inr rfl | exact Or.inl (needs_mem hp (by decide))))) only [frame_mk_tap, frame_mk_grSets]
    | dsimp only

theorem frame_holdWindows (hp : Needs [.pace] fr) (c : Card) (hC : Held fr c₀ c) : Held fr c₀ (Card.holdWindows c) := by
  unfold Card.holdWindows
  repeat' with_reducible first
    | assumption | exact needs_of hp (by decide)
    | simp (disch := (refine rest_intro fun x => ?_; cases x <;> (first | exact Or.inr rfl | exact Or.inl (needs_mem hp (by decide))))) only [frame_mk_tap, frame_mk_grSets]
    | dsimp only

theorem frame_freezeWave (hp : Needs [.regs, .pace, .memctl, .out] fr) (c : Card) (src : Nat) (hC : Held fr c₀ c) : Held fr
    c₀ (Card.freezeWave c src) := by
  unfold Card.freezeWave
  repeat' with_reducible first
    | assumption | exact needs_of hp (by decide) | refine frame_ite ?_ ?_ | (refine frame_foldl (fun _ _ _ => ?_) _ ?_)
    | apply frame_bump | apply frame_emit | apply frame_endHeldReads | apply frame_holdWindows | apply frame_setBit
    | apply frame_setF | apply frame_setPair
    | simp (disch := (refine rest_intro fun x => ?_; cases x <;> (first | exact Or.inr rfl | exact Or.inl (needs_mem hp (by decide))))) only [frame_mk_tap, frame_mk_grSets]
    | dsimp only

theorem frame_freezeRequest (hp : Needs [.regs, .pace, .memctl, .freeze, .out] fr) (c : Card) (src : Nat) (hC : Held fr c₀ c)
    : Held fr c₀ (Card.freezeRequest c src) := by
  unfold Card.freezeRequest
  repeat' with_reducible first
    | assumption | exact needs_of hp (by decide) | refine frame_ite ?_ ?_ | apply frame_freezeWave | apply frame_setBit
    | simp (disch := (refine rest_intro fun x => ?_; cases x <;> (first | exact Or.inr rfl | exact Or.inl (needs_mem hp (by decide))))) only [frame_mk_tap, frame_mk_grSets]
    | dsimp only

theorem frame_govFlags (hp : Needs [.regs, .power, .out] fr) (c : Card) (hC : Held fr c₀ c) : Held fr c₀ (Card.govFlags c) :=
    by
  unfold Card.govFlags
  repeat' with_reducible first
    | assumption | exact needs_of hp (by decide) | refine frame_ite ?_ ?_ | apply frame_bump | apply frame_event
    | apply frame_setBit | apply frame_settleB
    | simp (disch := (refine rest_intro fun x => ?_; cases x <;> (first | exact Or.inr rfl | exact Or.inl (needs_mem hp (by decide))))) only [frame_mk_tap, frame_mk_grSets]
    | (refine frame_of_fst (by assumption) ?_) | split | dsimp only

theorem frame_stopShares (hp : Needs [.regs, .power] fr) (c : Card) (n : Nat) (hC : Held fr c₀ c) : Held fr c₀
    (Card.stopShares c n) := by
  unfold Card.stopShares
  repeat' with_reducible first
    | assumption | exact needs_of hp (by decide) | apply frame_setF
    | simp (disch := (refine rest_intro fun x => ?_; cases x <;> (first | exact Or.inr rfl | exact Or.inl (needs_mem hp (by decide))))) only [frame_mk_tap, frame_mk_grSets]
    | dsimp only

theorem frame_loadOn (hp : Needs [.regs] fr) (c : Card) (l : Load) (hC : Held fr c₀ c) : Held fr c₀ (Card.loadOn c l) := by
  unfold Card.loadOn
  repeat' with_reducible first
    | assumption | exact needs_of hp (by decide) | apply frame_setBit | apply frame_setF
    | simp (disch := (refine rest_intro fun x => ?_; cases x <;> (first | exact Or.inr rfl | exact Or.inl (needs_mem hp (by decide))))) only [frame_mk_tap, frame_mk_grSets]
    | (refine frame_of_fst (by assumption) ?_) | split | dsimp only

theorem frame_acknowledge (hp : Needs [.regs, .power] fr) (c : Card) (x : GovStart) (hC : Held fr c₀ c) : Held fr c₀
    (Card.acknowledge c x) := by
  unfold Card.acknowledge
  repeat' with_reducible first
    | assumption | exact needs_of hp (by decide) | apply frame_loadOn
    | simp (disch := (refine rest_intro fun x => ?_; cases x <;> (first | exact Or.inr rfl | exact Or.inl (needs_mem hp (by decide))))) only [frame_mk_tap, frame_mk_grSets]
    | (refine frame_of_fst (by assumption) ?_) | split | dsimp only

theorem frame_sharesFor (hp : Needs [.regs, .power] fr) (c : Card) (x : GovStart) (hC : Held fr c₀ c) : Held fr c₀
    (Card.sharesFor c x) := by
  unfold Card.sharesFor
  repeat' with_reducible first
    | assumption | exact needs_of hp (by decide) | refine frame_ite ?_ ?_ | apply frame_stopShares
    | simp (disch := (refine rest_intro fun x => ?_; cases x <;> (first | exact Or.inr rfl | exact Or.inl (needs_mem hp (by decide))))) only [frame_mk_tap, frame_mk_grSets]
    | (refine frame_of_fst (by assumption) ?_) | split | dsimp only

theorem frame_govStart (hp : Needs [.regs, .power, .out] fr) (c : Card) (load : Load) (lc : Bool) (op : Option (Nat × Nat))
    (hC : Held fr c₀ c) : Held fr c₀ (Card.govStart c load lc op) := by
  unfold Card.govStart
  repeat' with_reducible first
    | assumption | exact needs_of hp (by decide) | refine frame_ite ?_ ?_ | apply frame_acknowledge | apply frame_govFlags
    | apply frame_settleB | apply frame_sharesFor
    | simp (disch := (refine rest_intro fun x => ?_; cases x <;> (first | exact Or.inr rfl | exact Or.inl (needs_mem hp (by decide))))) only [frame_mk_tap, frame_mk_grSets]
    | dsimp only

theorem frame_govStopAll (hp : Needs [.regs, .power, .out] fr) (c : Card) (mine : Load → Option (Nat × Nat) → Bool) (hC :
    Held fr c₀ c) : Held fr c₀ (Card.govStopAll c mine) := by
  unfold Card.govStopAll
  repeat' with_reducible first
    | assumption | exact needs_of hp (by decide) | refine frame_ite ?_ ?_ | apply frame_govFlags | apply frame_settleB
    | simp (disch := (refine rest_intro fun x => ?_; cases x <;> (first | exact Or.inr rfl | exact Or.inl (needs_mem hp (by decide))))) only [frame_mk_tap, frame_mk_grSets]
    | dsimp only

theorem frame_govStop (hp : Needs [.regs, .power, .out] fr) (c : Card) (l : Load) (hC : Held fr c₀ c) : Held fr c₀
    (Card.govStop c l) := by
  unfold Card.govStop
  repeat' with_reducible first
    | assumption | exact needs_of hp (by decide) | apply frame_govStopAll
    | simp (disch := (refine rest_intro fun x => ?_; cases x <;> (first | exact Or.inr rfl | exact Or.inl (needs_mem hp (by decide))))) only [frame_mk_tap, frame_mk_grSets]
    | dsimp only

theorem frame_govDrop (hp : Needs [.regs, .power, .out] fr) (c : Card) (h r : Nat) (hC : Held fr c₀ c) : Held fr c₀
    (Card.govDrop c h r) := by
  unfold Card.govDrop
  repeat' with_reducible first
    | assumption | exact needs_of hp (by decide) | apply frame_govStopAll
    | simp (disch := (refine rest_intro fun x => ?_; cases x <;> (first | exact Or.inr rfl | exact Or.inl (needs_mem hp (by decide))))) only [frame_mk_tap, frame_mk_grSets]
    | dsimp only

theorem frame_govDropOp (hp : Needs [.regs, .power, .out] fr) (c : Card) (h r seq : Nat) (hC : Held fr c₀ c) : Held fr c₀
    (Card.govDropOp c h r seq) := by
  unfold Card.govDropOp
  repeat' with_reducible first
    | assumption | exact needs_of hp (by decide) | apply frame_govStopAll
    | simp (disch := (refine rest_intro fun x => ?_; cases x <;> (first | exact Or.inr rfl | exact Or.inl (needs_mem hp (by decide))))) only [frame_mk_tap, frame_mk_grSets]
    | dsimp only

theorem frame_checkSupplies (hp : Needs [.regs, .power, .out] fr) (c : Card) (hC : Held fr c₀ c) : Held fr c₀
    (Card.checkSupplies c) := by
  unfold Card.checkSupplies
  repeat' with_reducible first
    | assumption | exact needs_of hp (by decide) | refine frame_ite ?_ ?_ | (refine frame_foldl (fun _ _ _ => ?_) _ ?_)
    | apply frame_govStart | apply frame_govStop | apply frame_setBit
    | simp (disch := (refine rest_intro fun x => ?_; cases x <;> (first | exact Or.inr rfl | exact Or.inl (needs_mem hp (by decide))))) only [frame_mk_tap, frame_mk_grSets]
    | dsimp only

theorem frame_noteFltMsg (hp : Needs [.faults] fr) (c : Card) (hC : Held fr c₀ c) : Held fr c₀ (Card.noteFltMsg c) := by
  unfold Card.noteFltMsg
  repeat' with_reducible first
    | assumption | exact needs_of hp (by decide)
    | simp (disch := (refine rest_intro fun x => ?_; cases x <;> (first | exact Or.inr rfl | exact Or.inl (needs_mem hp (by decide))))) only [frame_mk_tap, frame_mk_grSets]
    | dsimp only

theorem frame_countMatch (hp : Needs [.faults] fr) (c : Card) (hC : Held fr c₀ c) : Held fr c₀ (Card.countMatch c) := by
  unfold Card.countMatch
  repeat' with_reducible first
    | assumption | exact needs_of hp (by decide)
    | simp (disch := (refine rest_intro fun x => ?_; cases x <;> (first | exact Or.inr rfl | exact Or.inl (needs_mem hp (by decide))))) only [frame_mk_tap, frame_mk_grSets]
    | (refine frame_of_fst (by assumption) ?_) | split | dsimp only

theorem frame_log (hp : Needs [.regs, .pace, .memctl, .freeze, .faults, .out] fr) (c : Card) (e : LogEntry) (hC : Held fr c₀
    c) : Held fr c₀ (Card.log c e) := by
  unfold Card.log
  repeat' with_reducible first
    | assumption | exact needs_of hp (by decide) | refine frame_ite ?_ ?_ | (refine frame_foldl (fun _ _ _ => ?_) _ ?_)
    | apply frame_bump | apply frame_countMatch | apply frame_freezeRequest | apply frame_noteFltMsg | apply frame_raise
    | apply frame_setBit | apply frame_setN
    | simp (disch := (refine rest_intro fun x => ?_; cases x <;> (first | exact Or.inr rfl | exact Or.inl (needs_mem hp (by decide))))) only [frame_mk_tap, frame_mk_grSets]
    | (refine frame_of_fst (by assumption) ?_) | split | dsimp only

theorem frame_setFence (hp : Needs [.regs, .faults] fr) (c : Card) (h cls u : Nat) (b : Bool) (hC : Held fr c₀ c) : Held fr
    c₀ (Card.setFence c h cls u b) := by
  unfold Card.setFence
  repeat' with_reducible first
    | assumption | exact needs_of hp (by decide) | refine frame_ite ?_ ?_ | (refine frame_foldl (fun _ _ _ => ?_) _ ?_)
    | apply frame_setBit
    | simp (disch := (refine rest_intro fun x => ?_; cases x <;> (first | exact Or.inr rfl | exact Or.inl (needs_mem hp (by decide))))) only [frame_mk_tap, frame_mk_grSets]
    | dsimp only

theorem frame_fenceUnit (hp : Needs [.regs, .faults, .out] fr) (c : Card) (h cls u : Nat) (hC : Held fr c₀ c) : Held fr c₀
    (Card.fenceUnit c h cls u) := by
  unfold Card.fenceUnit
  repeat' with_reducible first
    | assumption | exact needs_of hp (by decide) | refine frame_ite ?_ ?_ | apply frame_event | apply frame_hpEvent
    | apply frame_setFence
    | simp (disch := (refine rest_intro fun x => ?_; cases x <;> (first | exact Or.inr rfl | exact Or.inl (needs_mem hp (by decide))))) only [frame_mk_tap, frame_mk_grSets]
    | dsimp only

theorem frame_transient (hp : Needs [.regs, .pace, .memctl, .freeze, .faults, .out] fr) (c : Card) (h cls u ring ctx kind :
    Nat) (hC : Held fr c₀ c) : Held fr c₀ (Card.transient c h cls u ring ctx kind) := by
  unfold Card.transient
  repeat' with_reducible first
    | assumption | exact needs_of hp (by decide) | refine frame_ite ?_ ?_ | apply frame_bumpF | apply frame_fenceUnit
    | apply frame_hpEvent | apply frame_log
    | simp (disch := (refine rest_intro fun x => ?_; cases x <;> (first | exact Or.inr rfl | exact Or.inl (needs_mem hp (by decide))))) only [frame_mk_tap, frame_mk_grSets]
    | dsimp only

theorem frame_retireCause (hp : Needs [.memctl] fr) (c : Card) (rank chunk : Nat) (hC : Held fr c₀ c) : Held fr c₀
    (Card.retireCause c rank chunk) := by
  unfold Card.retireCause
  repeat' with_reducible first
    | assumption | exact needs_of hp (by decide) | refine frame_ite ?_ ?_
    | simp (disch := (refine rest_intro fun x => ?_; cases x <;> (first | exact Or.inr rfl | exact Or.inl (needs_mem hp (by decide))))) only [frame_mk_tap, frame_mk_grSets]
    | dsimp only

theorem frame_recordsChanged (hp : Needs [.keep] fr) (c : Card) (urgent : Bool) (f : KsRecords → KsRecords) (hC : Held fr c₀
    c) : Held fr c₀ (Card.recordsChanged c urgent f) := by
  unfold Card.recordsChanged
  repeat' with_reducible first
    | assumption | exact needs_of hp (by decide)
    | simp (disch := (refine rest_intro fun x => ?_; cases x <;> (first | exact Or.inr rfl | exact Or.inl (needs_mem hp (by decide))))) only [frame_mk_tap, frame_mk_grSets]
    | dsimp only

theorem frame_recordRetired (hp : Needs [.keep] fr) (c : Card) (k : Nat) (hC : Held fr c₀ c) : Held fr c₀ (Card.recordRetired
    c k) := by
  unfold Card.recordRetired
  repeat' with_reducible first
    | assumption | exact needs_of hp (by decide) | apply frame_recordsChanged
    | simp (disch := (refine rest_intro fun x => ?_; cases x <;> (first | exact Or.inr rfl | exact Or.inl (needs_mem hp (by decide))))) only [frame_mk_tap, frame_mk_grSets]
    | dsimp only

theorem frame_targetFailed (hp : Needs [.regs, .memctl, .keep] fr) (c : Card) (hC : Held fr c₀ c) : Held fr c₀
    (Card.targetFailed c) := by
  unfold Card.targetFailed
  repeat' with_reducible first
    | assumption | exact needs_of hp (by decide) | apply frame_recordRetired | apply frame_setCapacity | apply frame_setRank
    | simp (disch := (refine rest_intro fun x => ?_; cases x <;> (first | exact Or.inr rfl | exact Or.inl (needs_mem hp (by decide))))) only [frame_mk_tap, frame_mk_grSets]
    | (refine frame_of_fst (by assumption) ?_) | split | dsimp only

theorem frame_cause (hp : Needs [.regs, .memctl, .keep] fr) (c : Card) (rank chunk : Nat) (hC : Held fr c₀ c) : Held fr c₀
    (Card.cause c rank chunk) := by
  unfold Card.cause
  repeat' with_reducible first
    | assumption | exact needs_of hp (by decide) | refine frame_ite ?_ ?_ | apply frame_retireCause | apply frame_targetFailed
    | simp (disch := (refine rest_intro fun x => ?_; cases x <;> (first | exact Or.inr rfl | exact Or.inl (needs_mem hp (by decide))))) only [frame_mk_tap, frame_mk_grSets]
    | dsimp only

theorem frame_scramble (hp : Needs [.mem, .fresh] fr) (c : Card) (key : Nat) (hC : Held fr c₀ c) : Held fr c₀ (Card.scramble
    c key) := by
  unfold Card.scramble
  repeat' with_reducible first
    | assumption | exact needs_of hp (by decide) | (refine frame_foldl (fun _ _ _ => ?_) _ ?_) | apply frame_memPut
    | simp (disch := (refine rest_intro fun x => ?_; cases x <;> (first | exact Or.inr rfl | exact Or.inl (needs_mem hp (by decide))))) only [frame_mk_tap, frame_mk_grSets]
    | dsimp only

theorem frame_dropLine (hp : Needs [.dram] fr) (c : Card) (ch line : Nat) (hC : Held fr c₀ c) : Held fr c₀ (Card.dropLine c
    ch line) := by
  unfold Card.dropLine
  repeat' with_reducible first
    | assumption | exact needs_of hp (by decide)
    | simp (disch := (refine rest_intro fun x => ?_; cases x <;> (first | exact Or.inr rfl | exact Or.inl (needs_mem hp (by decide))))) only [frame_mk_tap, frame_mk_grSets]
    | dsimp only

theorem frame_markSram (hp : Needs [.sram] fr) (c : Card) (word : Nat) (hC : Held fr c₀ c) : Held fr c₀ (Card.markSram c
    word) := by
  unfold Card.markSram
  repeat' with_reducible first
    | assumption | exact needs_of hp (by decide)
    | simp (disch := (refine rest_intro fun x => ?_; cases x <;> (first | exact Or.inr rfl | exact Or.inl (needs_mem hp (by decide))))) only [frame_mk_tap, frame_mk_grSets]
    | dsimp only

theorem frame_noteCe (hp : Needs [.faults] fr) (c : Card) (ch : Nat) (hC : Held fr c₀ c) : Held fr c₀ (Card.noteCe c ch) :=
    by
  unfold Card.noteCe
  repeat' with_reducible first
    | assumption | exact needs_of hp (by decide)
    | simp (disch := (refine rest_intro fun x => ?_; cases x <;> (first | exact Or.inr rfl | exact Or.inl (needs_mem hp (by decide))))) only [frame_mk_tap, frame_mk_grSets]
    | dsimp only

theorem frame_memErr (hp : Needs [.regs, .config, .pace, .mem, .sram, .dram, .memctl, .freeze, .faults, .keep, .fresh, .out]
    fr) (c : Card) (h ring ctx : Nat) (e : MemErr) (hC : Held fr c₀ c) : Held fr c₀ (Card.memErr c h ring ctx e).1 := by
  unfold Card.memErr
  repeat' with_reducible first
    | assumption | exact needs_of hp (by decide) | refine frame_ite ?_ ?_ | apply frame_aerLog | apply frame_bump
    | apply frame_capture | apply frame_cause | apply frame_countCe | apply frame_draw | apply frame_dropLine
    | apply frame_log | apply frame_markSram | apply frame_noteCe | apply frame_scramble | apply frame_setPoison
    | simp (disch := (refine rest_intro fun x => ?_; cases x <;> (first | exact Or.inr rfl | exact Or.inl (needs_mem hp (by decide))))) only [frame_mk_tap, frame_mk_grSets]
    | (refine frame_of_fst (by assumption) ?_) | split | split | dsimp only

theorem frame_memErrs (hp : Needs [.regs, .config, .pace, .mem, .sram, .dram, .memctl, .freeze, .faults, .keep, .fresh, .out] fr) (c : Card) (h ring ctx : Nat) (es : List MemErr) (hC : Held fr c₀ c) :
    Held fr c₀ (Card.memErrs c h ring ctx es).1 := by
  induction es generalizing c with
  | nil => exact hC
  | cons e t ih =>
    unfold Card.memErrs
    dsimp only
    repeat' with_reducible first
      | assumption | exact needs_of hp (by decide) | apply ih | apply frame_memErr | refine frame_ite ?_ ?_
      | simp (disch := (refine rest_intro fun x => ?_; cases x <;> (first | exact Or.inr rfl | exact Or.inl (needs_mem hp (by decide))))) only [frame_mk_tap, frame_mk_grSets]
      | split | dsimp only

theorem frame_bookErr (hp : Needs [.regs, .pace, .pools, .memctl, .freeze, .faults, .out] fr) (c : Card) (h p i : Nat) (hC :
    Held fr c₀ c) : Held fr c₀ (Card.bookErr c h p i) := by
  unfold Card.bookErr
  repeat' with_reducible first
    | assumption | exact needs_of hp (by decide) | apply frame_log | apply frame_setBuf
    | simp (disch := (refine rest_intro fun x => ?_; cases x <;> (first | exact Or.inr rfl | exact Or.inl (needs_mem hp (by decide))))) only [frame_mk_tap, frame_mk_grSets]
    | dsimp only

theorem frame_recDiscard (hp : Needs [.regs] fr) (c : Card) (h n : Nat) (hC : Held fr c₀ c) : Held fr c₀ (Card.recDiscard c h
    n) := by
  unfold Card.recDiscard
  repeat' with_reducible first
    | assumption | exact needs_of hp (by decide) | apply frame_bump
    | simp (disch := (refine rest_intro fun x => ?_; cases x <;> (first | exact Or.inr rfl | exact Or.inl (needs_mem hp (by decide))))) only [frame_mk_tap, frame_mk_grSets]
    | dsimp only

theorem frame_markFirst (hp : Needs [.epochs] fr) (c : Card) (h r e pos : Nat) (hC : Held fr c₀ c) : Held fr c₀
    (Card.markFirst c h r e pos) := by
  unfold Card.markFirst
  repeat' with_reducible first
    | assumption | exact needs_of hp (by decide) | refine frame_ite ?_ ?_ | apply frame_setEpoch
    | simp (disch := (refine rest_intro fun x => ?_; cases x <;> (first | exact Or.inr rfl | exact Or.inl (needs_mem hp (by decide))))) only [frame_mk_tap, frame_mk_grSets]
    | dsimp only

theorem frame_recMessage (hp : Needs [.regs, .records, .out] fr) (c : Card) (h r : Nat) (hC : Held fr c₀ c) : Held fr c₀
    (Card.recMessage c h r) := by
  unfold Card.recMessage
  repeat' with_reducible first
    | assumption | exact needs_of hp (by decide) | refine frame_ite ?_ ?_ | apply frame_raise | apply frame_setRec
    | simp (disch := (refine rest_intro fun x => ?_; cases x <;> (first | exact Or.inr rfl | exact Or.inl (needs_mem hp (by decide))))) only [frame_mk_tap, frame_mk_grSets]
    | dsimp only

theorem frame_recEntry (hp : Needs [.regs, .epochs, .records, .out] fr) (c : Card) (h r : Nat) (e : List Byte) (hC : Held fr
    c₀ c) : Held fr c₀ (Card.recEntry c h r e) := by
  unfold Card.recEntry
  repeat' with_reducible first
    | assumption | exact needs_of hp (by decide) | refine frame_ite ?_ ?_ | apply frame_emit | apply frame_hostWrite
    | apply frame_markFirst | apply frame_recMessage | apply frame_setN
    | simp (disch := (refine rest_intro fun x => ?_; cases x <;> (first | exact Or.inr rfl | exact Or.inl (needs_mem hp (by decide))))) only [frame_mk_tap, frame_mk_grSets]
    | intro _ _ | dsimp only

theorem frame_recCount (hp : Needs [.regs, .pace, .records] fr) (c : Card) (h r : Nat) (hC : Held fr c₀ c) : Held fr c₀
    (Card.recCount c h r) := by
  unfold Card.recCount
  repeat' with_reducible first
    | assumption | exact needs_of hp (by decide) | apply frame_bump | apply frame_setPace | apply frame_setRec
    | simp (disch := (refine rest_intro fun x => ?_; cases x <;> (first | exact Or.inr rfl | exact Or.inl (needs_mem hp (by decide))))) only [frame_mk_tap, frame_mk_grSets]
    | dsimp only

theorem frame_flushGo (hp : Needs [.regs, .pace, .epochs, .records, .out] fr) (h r fuel : Nat) (c : Card) (hC : Held fr c₀ c) :
    Held fr c₀ (Card.flushGo h r fuel c) := by
  induction fuel generalizing c with
  | zero => exact hC
  | succ n ih =>
    unfold Card.flushGo
    repeat' with_reducible first
      | assumption | exact needs_of hp (by decide) | apply ih | apply frame_recCount | apply frame_recEntry | apply frame_bump
      | apply frame_setRec | refine frame_ite ?_ ?_
      | simp (disch := (refine rest_intro fun x => ?_; cases x <;> (first | exact Or.inr rfl | exact Or.inl (needs_mem hp (by decide))))) only [frame_mk_tap, frame_mk_grSets]
      | split | dsimp only

theorem frame_recFlush (hp : Needs [.regs, .pace, .epochs, .records, .out] fr) (c : Card) (h r : Nat) (hC : Held fr c₀ c) :
    Held fr c₀ (Card.recFlush c h r) := by
  unfold Card.recFlush
  repeat' with_reducible first
    | assumption | exact needs_of hp (by decide) | apply frame_flushGo
    | simp (disch := (refine rest_intro fun x => ?_; cases x <;> (first | exact Or.inr rfl | exact Or.inl (needs_mem hp (by decide))))) only [frame_mk_tap, frame_mk_grSets]
    | dsimp only

theorem frame_originate (hp : Needs [.regs, .pace, .epochs, .records, .out] fr) (c : Card) (h r : Nat) (x : CardRec) (hC :
    Held fr c₀ c) : Held fr c₀ (Card.originate c h r x).1 := by
  unfold Card.originate
  repeat' with_reducible first
    | assumption | exact needs_of hp (by decide) | refine frame_ite ?_ ?_ | apply frame_recDiscard | apply frame_recFlush
    | apply frame_setRec
    | simp (disch := (refine rest_intro fun x => ?_; cases x <;> (first | exact Or.inr rfl | exact Or.inl (needs_mem hp (by decide))))) only [frame_mk_tap, frame_mk_grSets]
    | split | dsimp only

theorem frame_opRecords (hp : Needs [.regs, .pace, .epochs, .records, .out] fr) (c : Card) (h r : Nat) (es : List (List Byte)) (hC : Held fr c₀ c) :
    Held fr c₀ (Card.opRecords c h r es).1 := by
  induction es generalizing c with
  | nil =>
    unfold Card.opRecords
    repeat' with_reducible first
      | assumption | exact needs_of hp (by decide) | apply frame_setRec | refine frame_ite ?_ ?_
      | simp (disch := (refine rest_intro fun x => ?_; cases x <;> (first | exact Or.inr rfl | exact Or.inl (needs_mem hp (by decide))))) only [frame_mk_tap, frame_mk_grSets]
      | split | dsimp only
  | cons e es ih =>
    unfold Card.opRecords
    repeat' with_reducible first
      | assumption | exact needs_of hp (by decide) | apply ih | apply frame_recDiscard | apply frame_recCount
      | apply frame_recEntry | apply frame_setRec | refine frame_ite ?_ ?_
      | simp (disch := (refine rest_intro fun x => ?_; cases x <;> (first | exact Or.inr rfl | exact Or.inl (needs_mem hp (by decide))))) only [frame_mk_tap, frame_mk_grSets]
      | split | dsimp only

theorem frame_streamEvent (hp : Needs [.regs, .pace, .epochs, .records, .streams, .out] fr) (c : Card) (h s kind frame epoch
    : Nat) (detail : List Byte) (hC : Held fr c₀ c) : Held fr c₀ (Card.streamEvent c h s kind frame epoch detail).1 := by
  unfold Card.streamEvent
  repeat' with_reducible first
    | assumption | exact needs_of hp (by decide) | refine frame_ite ?_ ?_ | apply frame_hpEvent | apply frame_originate
    | apply frame_setStream
    | simp (disch := (refine rest_intro fun x => ?_; cases x <;> (first | exact Or.inr rfl | exact Or.inl (needs_mem hp (by decide))))) only [frame_mk_tap, frame_mk_grSets]
    | (refine frame_of_fst (by assumption) ?_) | split | split | dsimp only

theorem frame_dropRecords (hp : Needs [.regs, .rings, .records] fr) (c : Card) (h e : Nat) (hC : Held fr c₀ c) : Held fr c₀
    (Card.dropRecords c h e) := by
  unfold Card.dropRecords
  repeat' with_reducible first
    | assumption | exact needs_of hp (by decide) | (refine frame_foldl (fun _ _ _ => ?_) _ ?_) | apply frame_recDiscard
    | apply frame_setRec | apply frame_setRing
    | simp (disch := (refine rest_intro fun x => ?_; cases x <;> (first | exact Or.inr rfl | exact Or.inl (needs_mem hp (by decide))))) only [frame_mk_tap, frame_mk_grSets]
    | dsimp only

theorem frame_retract (hp : Needs [.regs, .pace, .epochs, .records, .out] fr) (c : Card) (h e cause : Nat) (by_ : Option Nat)
    (hC : Held fr c₀ c) : Held fr c₀ (Card.retract c h e cause by_) := by
  unfold Card.retract
  repeat' with_reducible first
    | assumption | exact needs_of hp (by decide) | (refine frame_foldl (fun _ _ _ => ?_) _ ?_) | apply frame_originate
    | simp (disch := (refine rest_intro fun x => ?_; cases x <;> (first | exact Or.inr rfl | exact Or.inl (needs_mem hp (by decide))))) only [frame_mk_tap, frame_mk_grSets]
    | dsimp only

theorem frame_setOp (hp : Needs [.rings] fr) (c : Card) (h r : Nat) (o : Op) (hC : Held fr c₀ c) : Held fr c₀ (Card.setOp c h
    r o) := by
  unfold Card.setOp
  repeat' with_reducible first
    | assumption | exact needs_of hp (by decide) | refine frame_ite ?_ ?_ | apply frame_setRing
    | simp (disch := (refine rest_intro fun x => ?_; cases x <;> (first | exact Or.inr rfl | exact Or.inl (needs_mem hp (by decide))))) only [frame_mk_tap, frame_mk_grSets]
    | dsimp only

theorem frame_semApply (hp : Needs [.regs, .sems] fr) (c : Card) (g op val : Nat) (hC : Held fr c₀ c) :
    Held fr c₀ (Card.semApply c g op val) := by
  unfold Card.semApply
  dsimp only
  repeat' with_reducible first
    | assumption | exact needs_of hp (by decide) | apply frame_bump | refine frame_ite ?_ ?_
    | simp (disch := (refine rest_intro fun x => ?_; cases x <;> (first | exact Or.inr rfl | exact Or.inl (needs_mem hp (by decide))))) only [frame_mk_tap, frame_mk_grSets]
    | split | dsimp only

theorem frame_semReport (hp : Needs [.out] fr) (c : Card) (g fnNum : Nat) (hC : Held fr c₀ c) : Held fr c₀ (Card.semReport c
    g fnNum) := by
  unfold Card.semReport
  repeat' with_reducible first
    | assumption | exact needs_of hp (by decide) | refine frame_ite ?_ ?_ | apply frame_emit | apply frame_hostWrite
    | simp (disch := (refine rest_intro fun x => ?_; cases x <;> (first | exact Or.inr rfl | exact Or.inl (needs_mem hp (by decide))))) only [frame_mk_tap, frame_mk_grSets]
    | intro _ _ | dsimp only

theorem frame_releaseOp (hp : Needs [.regs, .rings, .sems, .epochs, .out] fr) (c : Card) (h r : Nat) (o : Op) (hC : Held fr
    c₀ c) : Held fr c₀ (Card.releaseOp c h r o) := by
  unfold Card.releaseOp
  repeat' with_reducible first
    | assumption | exact needs_of hp (by decide) | refine frame_ite ?_ ?_ | apply frame_emit | apply frame_hostWrite
    | apply frame_semApply | apply frame_semReport | apply frame_setBit | apply frame_setRing
    | simp (disch := (refine rest_intro fun x => ?_; cases x <;> (first | exact Or.inr rfl | exact Or.inl (needs_mem hp (by decide))))) only [frame_mk_tap, frame_mk_grSets]
    | (refine frame_of_fst (by assumption) ?_) | split | intro _ _ | dsimp only

theorem frame_applySigs (hp : Needs [.regs, .sems, .epochs, .out] fr) (hs : List HeldSig) (stuck : List (Nat × Nat)) (c : Card)
    (hC : Held fr c₀ c) : Held fr c₀ (Card.applySigs hs stuck c) := by
  induction hs generalizing c stuck with
  | nil => exact hC
  | cons x t ih =>
    unfold Card.applySigs
    repeat' with_reducible first
      | assumption | exact needs_of hp (by decide) | apply ih | apply frame_semApply | apply frame_semReport
      | refine frame_ite ?_ ?_
      | simp (disch := (refine rest_intro fun x => ?_; cases x <;> (first | exact Or.inr rfl | exact Or.inl (needs_mem hp (by decide))))) only [frame_mk_tap, frame_mk_grSets]
      | split | dsimp only

theorem frame_settleSigs (hp : Needs [.regs, .sems, .epochs, .out] fr) (c : Card) (hC : Held fr c₀ c) : Held fr c₀
    (Card.settleSigs c) := by
  unfold Card.settleSigs
  repeat' with_reducible first
    | assumption | exact needs_of hp (by decide) | apply frame_applySigs
    | simp (disch := (refine rest_intro fun x => ?_; cases x <;> (first | exact Or.inr rfl | exact Or.inl (needs_mem hp (by decide))))) only [frame_mk_tap, frame_mk_grSets]
    | dsimp only

theorem frame_releaseGo (hp : Needs [.regs, .pace, .rings, .sems, .epochs, .records, .out] fr) (h r fuel : Nat) (c : Card) (w : Bool) (hC : Held fr c₀ c) :
    Held fr c₀ (Card.releaseGo h r fuel c w).1 := by
  induction fuel generalizing c w with
  | zero => exact hC
  | succ n ih =>
    unfold Card.releaseGo
    repeat' with_reducible first
      | assumption | exact needs_of hp (by decide) | apply ih | apply frame_releaseOp | apply frame_setBit | apply frame_setOp
      | apply frame_opRecords | refine frame_ite ?_ ?_
      | simp (disch := (refine rest_intro fun x => ?_; cases x <;> (first | exact Or.inr rfl | exact Or.inl (needs_mem hp (by decide))))) only [frame_mk_tap, frame_mk_grSets]
      | split | dsimp only

theorem frame_cplMessage (hp : Needs [.regs, .rings, .out] fr) (c : Card) (h r : Nat) (hC : Held fr c₀ c) : Held fr c₀
    (Card.cplMessage c h r) := by
  unfold Card.cplMessage
  repeat' with_reducible first
    | assumption | exact needs_of hp (by decide) | refine frame_ite ?_ ?_ | apply frame_raise | apply frame_setRing
    | simp (disch := (refine rest_intro fun x => ?_; cases x <;> (first | exact Or.inr rfl | exact Or.inl (needs_mem hp (by decide))))) only [frame_mk_tap, frame_mk_grSets]
    | dsimp only

theorem frame_release (hp : Needs [.regs, .pace, .rings, .sems, .epochs, .records, .out] fr) (c : Card) (h r : Nat) (hC :
    Held fr c₀ c) : Held fr c₀ (Card.release c h r) := by
  unfold Card.release
  repeat' with_reducible first
    | assumption | exact needs_of hp (by decide) | refine frame_ite ?_ ?_ | apply frame_cplMessage | apply frame_recFlush
    | apply frame_releaseGo
    | simp (disch := (refine rest_intro fun x => ?_; cases x <;> (first | exact Or.inr rfl | exact Or.inl (needs_mem hp (by decide))))) only [frame_mk_tap, frame_mk_grSets]
    | dsimp only

theorem frame_issueRead (hp : Needs [.hostReads, .out] fr) (c : Card) (h r : Nat) (seq : Option Nat) (addr len : Nat) (hC :
    Held fr c₀ c) : Held fr c₀ (Card.issueRead c h r seq addr len).1 := by
  unfold Card.issueRead
  repeat' with_reducible first
    | assumption | exact needs_of hp (by decide) | apply frame_emit
    | simp (disch := (refine rest_intro fun x => ?_; cases x <;> (first | exact Or.inr rfl | exact Or.inl (needs_mem hp (by decide))))) only [frame_mk_tap, frame_mk_grSets]
    | split | dsimp only

theorem frame_issueReads (hp : Needs [.hostReads, .out] fr) (c : Card) (h r : Nat) (seq : Option Nat) (got : List HostBytes)
    (addr n : Nat) (hC : Held fr c₀ c) : Held fr c₀ (Card.issueReads c h r seq got addr n).1 := by
  unfold Card.issueReads
  repeat' with_reducible first
    | assumption | exact needs_of hp (by decide) | refine frame_ite ?_ ?_ | (refine frame_foldl (fun _ _ _ => ?_) _ ?_)
    | apply frame_issueRead | (refine frame_foldl_fst (fun _ _ _ => ?_) _ ?_) | split | dsimp only

theorem frame_fetchNext (hp : Needs [.rings, .hostReads, .out] fr) (c : Card) (h r : Nat) (hC : Held fr c₀ c) : Held fr c₀
    (Card.fetchNext c h r) := by
  unfold Card.fetchNext
  repeat' with_reducible first
    | assumption | exact needs_of hp (by decide) | refine frame_ite ?_ ?_ | apply frame_issueRead | apply frame_setRing
    | simp (disch := (refine rest_intro fun x => ?_; cases x <;> (first | exact Or.inr rfl | exact Or.inl (needs_mem hp (by decide))))) only [frame_mk_tap, frame_mk_grSets]
    | dsimp only

theorem frame_headGo (hp : Needs [.rings] fr) (h r fuel : Nat) (c : Card) (hC : Held fr c₀ c) :
    Held fr c₀ (Card.headGo h r fuel c) := by
  induction fuel generalizing c with
  | zero => exact hC
  | succ n ih =>
    unfold Card.headGo
    repeat' with_reducible first
      | assumption | exact needs_of hp (by decide) | apply ih | apply frame_setOp | refine frame_ite ?_ ?_
      | simp (disch := (refine rest_intro fun x => ?_; cases x <;> (first | exact Or.inr rfl | exact Or.inl (needs_mem hp (by decide))))) only [frame_mk_tap, frame_mk_grSets]
      | split | dsimp only

theorem frame_pump (hp : Needs [.regs, .pace, .rings, .sems, .hostReads, .epochs, .records, .out] fr) (c : Card) (h r : Nat)
    (hC : Held fr c₀ c) : Held fr c₀ (Card.pump c h r) := by
  unfold Card.pump
  repeat' with_reducible first
    | assumption | exact needs_of hp (by decide) | refine frame_ite ?_ ?_ | apply frame_fetchNext | apply frame_headGo
    | apply frame_release
    | simp (disch := (refine rest_intro fun x => ?_; cases x <;> (first | exact Or.inr rfl | exact Or.inl (needs_mem hp (by decide))))) only [frame_mk_tap, frame_mk_grSets]
    | dsimp only

theorem frame_pushOp (hp : Needs [.rings] fr) (c : Card) (h r : Nat) (o : Op) (hC : Held fr c₀ c) : Held fr c₀ (Card.pushOp c
    h r o) := by
  unfold Card.pushOp
  repeat' with_reducible first
    | assumption | exact needs_of hp (by decide) | apply frame_setRing
    | simp (disch := (refine rest_intro fun x => ?_; cases x <;> (first | exact Or.inr rfl | exact Or.inl (needs_mem hp (by decide))))) only [frame_mk_tap, frame_mk_grSets]
    | dsimp only

theorem frame_decodeGo (hp : Needs [.rings] fr) (h r ctx fuel : Nat) (c : Card) (bs : List Byte) (hC : Held fr c₀ c) :
    Held fr c₀ (Card.decodeGo h r ctx fuel c bs) := by
  induction fuel generalizing c bs with
  | zero => exact hC
  | succ n ih =>
    unfold Card.decodeGo
    repeat' with_reducible first
      | assumption | exact needs_of hp (by decide) | apply ih | apply frame_pushOp | refine frame_ite ?_ ?_
      | simp (disch := (refine rest_intro fun x => ?_; cases x <;> (first | exact Or.inr rfl | exact Or.inl (needs_mem hp (by decide))))) only [frame_mk_tap, frame_mk_grSets]
      | split | dsimp only

theorem frame_pushDead (hp : Needs [.rings] fr) (c : Card) (h r ctx status detail : Nat) (hC : Held fr c₀ c) : Held fr c₀
    (Card.pushDead c h r ctx status detail) := by
  unfold Card.pushDead
  repeat' with_reducible first
    | assumption | exact needs_of hp (by decide) | apply frame_pushOp
    | simp (disch := (refine rest_intro fun x => ?_; cases x <;> (first | exact Or.inr rfl | exact Or.inl (needs_mem hp (by decide))))) only [frame_mk_tap, frame_mk_grSets]
    | dsimp only

theorem frame_decodeList (hp : Needs [.rings] fr) (c : Card) (h r ctx : Nat) (data : List Byte) (detail : Nat) (hC : Held fr
    c₀ c) : Held fr c₀ (Card.decodeList c h r ctx data detail) := by
  unfold Card.decodeList
  repeat' with_reducible first
    | assumption | exact needs_of hp (by decide) | refine frame_ite ?_ ?_ | apply frame_decodeGo | apply frame_pushDead
    | simp (disch := (refine rest_intro fun x => ?_; cases x <;> (first | exact Or.inr rfl | exact Or.inl (needs_mem hp (by decide))))) only [frame_mk_tap, frame_mk_grSets]
    | dsimp only

theorem frame_decodeArrived (hp : Needs [.regs, .rings, .tlb, .dram, .out] fr) (c : Card) (h r ctx units addr : Nat) (card :
    Bool) (got : List HostBytes) (hC : Held fr c₀ c) : Held fr c₀ (Card.decodeArrived c h r ctx units addr card got) := by
  unfold Card.decodeArrived
  repeat' with_reducible first
    | assumption | exact needs_of hp (by decide) | refine frame_ite ?_ ?_ | apply frame_decodeList | apply frame_readDone
    | apply frame_xlFault
    | simp (disch := (refine rest_intro fun x => ?_; cases x <;> (first | exact Or.inr rfl | exact Or.inl (needs_mem hp (by decide))))) only [frame_mk_tap, frame_mk_grSets]
    | (refine frame_of_fst (by assumption) ?_) | split | dsimp only

theorem frame_fetchList (hp : Needs [.rings, .hostReads, .out] fr) (c : Card) (h r ctx units addr : Nat) (card : Bool)
    (needs : List (Nat × Nat)) (hC : Held fr c₀ c) : Held fr c₀ (Card.fetchList c h r ctx units addr card needs) := by
  unfold Card.fetchList
  repeat' with_reducible first
    | assumption | exact needs_of hp (by decide) | (refine frame_foldl_fst (fun _ _ _ => ?_) _ ?_) | apply frame_issueReads
    | apply frame_setRing | refine frame_ite ?_ ?_
    | simp (disch := (refine rest_intro fun x => ?_; cases x <;> (first | exact Or.inr rfl | exact Or.inl (needs_mem hp (by decide))))) only [frame_mk_tap, frame_mk_grSets]
    | split | dsimp only

theorem frame_decodeSlot (hp : Needs [.regs, .rings, .hostReads, .tlb, .dram, .out] fr) (c : Card) (h r : Nat) (b : List
    Byte) (hC : Held fr c₀ c) : Held fr c₀ (Card.decodeSlot c h r b) := by
  unfold Card.decodeSlot
  repeat' with_reducible first
    | assumption | exact needs_of hp (by decide) | refine frame_ite ?_ ?_ | apply frame_decodeArrived | apply frame_decodeList
    | apply frame_fetchList | apply frame_pushDead
    | simp (disch := (refine rest_intro fun x => ?_; cases x <;> (first | exact Or.inr rfl | exact Or.inl (needs_mem hp (by decide))))) only [frame_mk_tap, frame_mk_grSets]
    | (refine frame_of_fst (by assumption) ?_) | split | dsimp only

theorem frame_opFetchFailed (hp : Needs [.regs, .rings, .hostReads, .tlb, .pools, .mem, .dram, .streams, .out] fr) (c : Card)
    (h r seq : Nat) (hC : Held fr c₀ c) : Held fr c₀ (Card.opFetchFailed c h r seq) := by
  unfold Card.opFetchFailed
  repeat' with_reducible first
    | assumption | exact needs_of hp (by decide) | refine frame_ite ?_ ?_ | apply frame_feedCut | apply frame_setOp
    | simp (disch := (refine rest_intro fun x => ?_; cases x <;> (first | exact Or.inr rfl | exact Or.inl (needs_mem hp (by decide))))) only [frame_mk_tap, frame_mk_grSets]
    | (refine frame_of_fst (by assumption) ?_) | split | dsimp only

theorem frame_endRead (hp : Needs [.hostReads] fr) (c : Card) (rid : Nat) (hC : Held fr c₀ c) : Held fr c₀ (Card.endRead c
    rid) := by
  unfold Card.endRead
  repeat' with_reducible first
    | assumption | exact needs_of hp (by decide)
    | simp (disch := (refine rest_intro fun x => ?_; cases x <;> (first | exact Or.inr rfl | exact Or.inl (needs_mem hp (by decide))))) only [frame_mk_tap, frame_mk_grSets]
    | dsimp only

theorem frame_discardFetch (hp : Needs [.hostReads] fr) (c : Card) (h r : Nat) (hC : Held fr c₀ c) : Held fr c₀
    (Card.discardFetch c h r) := by
  unfold Card.discardFetch
  repeat' with_reducible first
    | assumption | exact needs_of hp (by decide) | refine frame_ite ?_ ?_
    | simp (disch := (refine rest_intro fun x => ?_; cases x <;> (first | exact Or.inr rfl | exact Or.inl (needs_mem hp (by decide))))) only [frame_mk_tap, frame_mk_grSets]
    | dsimp only

theorem frame_fetchFailed (hp : Needs [.regs, .pace, .rings, .sems, .hostReads, .tlb, .pools, .mem, .dram, .epochs, .records,
    .streams, .out] fr) (c : Card) (x : HostRead) (hC : Held fr c₀ c) : Held fr c₀ (Card.fetchFailed c x) := by
  unfold Card.fetchFailed
  repeat' with_reducible first
    | assumption | exact needs_of hp (by decide) | apply frame_discardFetch | apply frame_opFetchFailed | apply frame_pump
    | apply frame_pushDead | apply frame_setRing
    | simp (disch := (refine rest_intro fun x => ?_; cases x <;> (first | exact Or.inr rfl | exact Or.inl (needs_mem hp (by decide))))) only [frame_mk_tap, frame_mk_grSets]
    | (refine frame_of_fst (by assumption) ?_) | split | dsimp only

theorem frame_fetchArrived (hp : Needs [.rings, .hostReads] fr) (c : Card) (x : HostRead) (data : List Byte) (hC : Held fr c₀
    c) : Held fr c₀ (Card.fetchArrived c x data) := by
  unfold Card.fetchArrived
  repeat' with_reducible first
    | assumption | exact needs_of hp (by decide) | refine frame_ite ?_ ?_ | apply frame_endRead | apply frame_setOp
    | apply frame_setRing
    | simp (disch := (refine rest_intro fun x => ?_; cases x <;> (first | exact Or.inr rfl | exact Or.inl (needs_mem hp (by decide))))) only [frame_mk_tap, frame_mk_grSets]
    | (refine frame_of_fst (by assumption) ?_) | split | dsimp only

theorem frame_completion (hp : Needs [.regs, .config, .pace, .rings, .sems, .hostReads, .tlb, .pools, .mem, .dram, .epochs,
    .records, .streams, .fresh, .out] fr) (c : Card) (rid : Nat) (poisoned : Bool) (data : List Byte) (hC : Held fr c₀ c) :
    Held fr c₀ (Card.completion c rid poisoned data) := by
  unfold Card.completion
  repeat' with_reducible first
    | assumption | exact needs_of hp (by decide) | refine frame_ite ?_ ?_ | apply frame_aerLog | apply frame_draw
    | apply frame_endRead | apply frame_fetchArrived | apply frame_fetchFailed
    | simp (disch := (refine rest_intro fun x => ?_; cases x <;> (first | exact Or.inr rfl | exact Or.inl (needs_mem hp (by decide))))) only [frame_mk_tap, frame_mk_grSets]
    | (refine frame_of_fst (by assumption) ?_) | split | dsimp only

theorem frame_ringBell (hp : Needs [.regs, .pace, .rings, .sems, .hostReads, .epochs, .records, .out] fr) (c : Card) (h r
    prod : Nat) (hC : Held fr c₀ c) : Held fr c₀ (Card.ringBell c h r prod) := by
  unfold Card.ringBell
  repeat' with_reducible first
    | assumption | exact needs_of hp (by decide) | refine frame_ite ?_ ?_ | apply frame_pump | apply frame_setBit
    | apply frame_setRing
    | simp (disch := (refine rest_intro fun x => ?_; cases x <;> (first | exact Or.inr rfl | exact Or.inl (needs_mem hp (by decide))))) only [frame_mk_tap, frame_mk_grSets]
    | dsimp only

theorem frame_endOp (hp : Needs [.regs, .pace, .rings, .sems, .hostReads, .epochs, .records, .out] fr) (c : Card) (h r : Nat)
    (o : Op) (status detail ext : Nat) (hC : Held fr c₀ c) : Held fr c₀ (Card.endOp c h r o status detail ext) := by
  unfold Card.endOp
  repeat' with_reducible first
    | assumption | exact needs_of hp (by decide) | apply frame_pump | apply frame_setOp
    | simp (disch := (refine rest_intro fun x => ?_; cases x <;> (first | exact Or.inr rfl | exact Or.inl (needs_mem hp (by decide))))) only [frame_mk_tap, frame_mk_grSets]
    | dsimp only

theorem frame_ringStart (hp : Needs [.regs, .pace, .rings, .sems, .hostReads, .epochs, .records, .out] fr) (c : Card) (h r :
    Nat) (hC : Held fr c₀ c) : Held fr c₀ (Card.ringStart c h r) := by
  unfold Card.ringStart
  repeat' with_reducible first
    | assumption | exact needs_of hp (by decide) | apply frame_pump | apply frame_setBit | apply frame_setN
    | apply frame_setRing
    | simp (disch := (refine rest_intro fun x => ?_; cases x <;> (first | exact Or.inr rfl | exact Or.inl (needs_mem hp (by decide))))) only [frame_mk_tap, frame_mk_grSets]
    | dsimp only

theorem frame_chargeWait (hp : Needs [.regs] fr) (c : Card) (h : Nat) (o : Op) (ns : Nat) (hC : Held fr c₀ c) : Held fr c₀
    (Card.chargeWait c h o ns) := by
  unfold Card.chargeWait
  repeat' with_reducible first
    | assumption | exact needs_of hp (by decide) | apply frame_setN | apply frame_setPair
    | simp (disch := (refine rest_intro fun x => ?_; cases x <;> (first | exact Or.inr rfl | exact Or.inl (needs_mem hp (by decide))))) only [frame_mk_tap, frame_mk_grSets]
    | dsimp only

theorem frame_chargeCount (hp : Needs [.regs] fr) (c : Card) (h : Nat) (o : Op) (off : Nat) (hC : Held fr c₀ c) : Held fr c₀
    (Card.chargeCount c h o off) := by
  unfold Card.chargeCount
  repeat' with_reducible first
    | assumption | exact needs_of hp (by decide) | apply frame_bump
    | simp (disch := (refine rest_intro fun x => ?_; cases x <;> (first | exact Or.inr rfl | exact Or.inl (needs_mem hp (by decide))))) only [frame_mk_tap, frame_mk_grSets]
    | dsimp only

theorem frame_acceptOp (hp : Needs [.pace, .rings, .sched] fr) (c : Card) (h r : Nat) (o : Op) (hC : Held fr c₀ c) : Held fr
    c₀ (Card.acceptOp c h r o) := by
  unfold Card.acceptOp
  repeat' with_reducible first
    | assumption | exact needs_of hp (by decide) | refine frame_ite ?_ ?_ | apply frame_setOp | apply frame_setPace
    | simp (disch := (refine rest_intro fun x => ?_; cases x <;> (first | exact Or.inr rfl | exact Or.inl (needs_mem hp (by decide))))) only [frame_mk_tap, frame_mk_grSets]
    | (refine frame_of_fst (by assumption) ?_) | split | dsimp only


/-- A piece of an operation's work that leaves the card with the parts held. -/
def Holds (fr : List Part) (c₀ : Card) {α : Type} (m : Eng α) : Prop := ∀ x : Run, Held fr c₀ x.card → Held fr c₀ (m.run.run x).2.card

theorem frames_pure {α : Type} (a : α) : Holds fr c₀ (pure a : Eng α) := fun _ h => h

theorem frames_throw {α : Type} (e : Stop) : Holds fr c₀ (throw e : Eng α) := fun _ h => h

theorem frames_bind {α β : Type} {m : Eng α} {f : α → Eng β} (hm : Holds fr c₀ m) (hf : ∀ a, Holds fr c₀ (f a)) : Holds fr c₀ (m >>= f) := by
  intro x hx
  have h1 := hm x hx
  show Held fr c₀ (StateT.run (ExceptT.run (m >>= f)) x).2.card
  rw [ExceptT.run_bind, StateT.run_bind]
  generalize hr : (StateT.run (ExceptT.run m) x) = p at h1
  obtain ⟨r, y⟩ := p
  cases r with
  | error e => exact h1
  | ok a => exact hf a y h1

theorem frames_ite {α : Type} {p : Prop} [Decidable p] {a b : Eng α} (ha : Holds fr c₀ a) (hb : Holds fr c₀ b) : Holds fr c₀ (if p then a else b) := by
  split <;> assumption

theorem frames_forIn {α β : Type} {f : α → β → Eng (ForInStep β)} (l : List α) (b : β) (hf : ∀ a b, Holds fr c₀ (f a b)) :
    Holds fr c₀ (forIn l b f) := by
  induction l generalizing b with
  | nil => exact frames_pure _
  | cons x t ih =>
    rw [List.forIn_cons]
    refine frames_bind (hf x b) (fun r => ?_)
    cases r with
    | done b => exact frames_pure _
    | yield b => exact ih b

theorem frames_mapM {α β : Type} {f : α → Eng β} (l : List α) (hf : ∀ a, Holds fr c₀ (f a)) : Holds fr c₀ (l.mapM f) := by
  induction l with
  | nil => rw [List.mapM_nil]; exact frames_pure _
  | cons x t ih =>
    rw [List.mapM_cons]
    exact frames_bind (hf x) (fun _ => frames_bind ih (fun _ => frames_pure _))

theorem frames_card : Holds fr c₀ Eng.card := fun _ h => h
theorem frames_op : Holds fr c₀ Eng.op := fun _ h => h
theorem frames_hamper : Holds fr c₀ Eng.hamper := fun _ h => h
theorem frames_ring : Holds fr c₀ Eng.ring := fun _ h => h
theorem frames_updOp (f : Op → Op) : Holds fr c₀ (Eng.updOp f) := fun _ h => h
theorem frames_upd {f : Card → Card} (hf : ∀ c, Held fr c₀ c → Held fr c₀ (f c)) : Holds fr c₀ (Eng.upd f) := fun x h => hf x.card h
theorem frames_refuse {α : Type} (d : Nat) : Holds fr c₀ (Eng.refuse d : Eng α) := fun _ h => h
theorem frames_refuseFree {α : Type} : Holds fr c₀ (Eng.refuseFree : Eng α) := fun _ h => h
theorem frames_failInput {α : Type} (d : Nat) : Holds fr c₀ (Eng.failInput d : Eng α) := fun _ h => h

theorem frames_card_bind {β : Type} {f : Card → Eng β} (hf : ∀ c, Held fr c₀ c → Holds fr c₀ (f c)) : Holds fr c₀ (Eng.card >>= f) :=
  fun x hx => hf x.card hx x hx

theorem frames_check (hp : Needs [] fr) (ok : Bool) (detail : Nat) : Holds fr c₀ (Eng.check ok detail) := by
  unfold Eng.check
  repeat' with_reducible first
    | assumption | exact needs_of hp (by decide) | apply frames_pure | apply frames_throw
    | refine frames_card_bind (fun _ _ => ?_) | refine frames_ite ?_ ?_ | apply frames_card | apply frames_op
    | apply frames_hamper | apply frames_ring | apply frames_refuse | (refine frames_bind ?_ (fun _ => ?_)) | dsimp only

theorem frames_join (hp : Needs [] fr) (e : Nat) : Holds fr c₀ (Eng.join e) := by
  unfold Eng.join
  repeat' with_reducible first
    | assumption | exact needs_of hp (by decide) | apply frames_pure | apply frames_throw
    | refine frames_card_bind (fun _ _ => ?_) | refine frames_ite ?_ ?_ | apply frames_card | apply frames_op
    | apply frames_hamper | apply frames_ring | apply frames_updOp | (refine frames_bind ?_ (fun _ => ?_))
    | refine frame_ite ?_ ?_
    | simp (disch := (refine rest_intro fun x => ?_; cases x <;> (first | exact Or.inr rfl | exact Or.inl (needs_mem hp (by decide))))) only [frame_mk_tap, frame_mk_grSets]
    | split | dsimp only

theorem frames_rd (hp : Needs [.regs, .tlb, .dram] fr) (va n : Nat) : Holds fr c₀ (Eng.rd va n) := by
  unfold Eng.rd
  repeat' with_reducible first
    | assumption | exact needs_of hp (by decide) | apply frames_pure | apply frames_throw
    | refine frames_card_bind (fun _ _ => ?_) | refine frames_ite ?_ ?_ | apply frames_card | apply frames_op
    | apply frames_hamper | apply frames_ring | refine frames_upd (fun _ _ => ?_) | apply frames_refuse
    | apply frames_join | (refine frames_forIn _ _ (fun _ _ => ?_)) | (refine frames_bind ?_ (fun _ => ?_))
    | apply frame_cacheXlate | apply frame_readDone | refine frame_ite ?_ ?_
    | simp (disch := (refine rest_intro fun x => ?_; cases x <;> (first | exact Or.inr rfl | exact Or.inl (needs_mem hp (by decide))))) only [frame_mk_tap, frame_mk_grSets]
    | split | dsimp only

theorem frames_rdNat (hp : Needs [.regs, .tlb, .dram] fr) (va n : Nat) : Holds fr c₀ (Eng.rdNat va n) := by
  unfold Eng.rdNat
  repeat' with_reducible first
    | assumption | exact needs_of hp (by decide) | apply frames_pure | apply frames_throw
    | refine frames_card_bind (fun _ _ => ?_) | refine frames_ite ?_ ?_ | apply frames_card | apply frames_op
    | apply frames_hamper | apply frames_ring | apply frames_rd | (refine frames_bind ?_ (fun _ => ?_)) | dsimp only

theorem frame_noteBacked (hp : Needs [.epochs] fr) (c c' : Card) (h ctx e va n : Nat) (hC : Held fr c₀ c) (hC_c' : Held fr c₀
    c') : Held fr c₀ (Card.noteBacked c c' h ctx e va n) := by
  unfold Card.noteBacked
  repeat' with_reducible first
    | assumption | exact needs_of hp (by decide) | refine frame_ite ?_ ?_
    | simp (disch := (refine rest_intro fun x => ?_; cases x <;> (first | exact Or.inr rfl | exact Or.inl (needs_mem hp (by decide))))) only [frame_mk_tap, frame_mk_grSets]
    | (refine frame_of_fst (by assumption) ?_) | split | dsimp only

theorem frame_sendPacket (hp : Needs [.regs, .links, .out] fr) (c : Card) (port kind : Nat) (args : List Nat) (data : List
    Byte) (hC : Held fr c₀ c) : Held fr c₀ (Card.sendPacket c port kind args data) := by
  unfold Card.sendPacket
  repeat' with_reducible first
    | assumption | exact needs_of hp (by decide) | refine frame_ite ?_ ?_ | apply frame_emit | apply frame_setPair
    | apply frame_setPort
    | simp (disch := (refine rest_intro fun x => ?_; cases x <;> (first | exact Or.inr rfl | exact Or.inl (needs_mem hp (by decide))))) only [frame_mk_tap, frame_mk_grSets]
    | dsimp only

theorem frame_pumpPort (hp : Needs [.regs, .links, .out] fr) (c : Card) (p : Nat) (hC : Held fr c₀ c) : Held fr c₀
    (Card.pumpPort c p) := by
  unfold Card.pumpPort
  repeat' with_reducible first
    | assumption | exact needs_of hp (by decide) | refine frame_ite ?_ ?_ | (refine frame_foldl (fun _ _ _ => ?_) _ ?_)
    | apply frame_sendPacket
    | simp (disch := (refine rest_intro fun x => ?_; cases x <;> (first | exact Or.inr rfl | exact Or.inl (needs_mem hp (by decide))))) only [frame_mk_tap, frame_mk_grSets]
    | dsimp only

theorem frame_sendRemote (hp : Needs [.regs, .links, .out] fr) (c : Card) (h r : Nat) (o : Op) (port kind : Nat) (args : List
    Nat) (data : List Byte) (va key len : Nat) (hC : Held fr c₀ c) : Held fr c₀ (Card.sendRemote c h r o port kind args data
    va key len) := by
  unfold Card.sendRemote
  repeat' with_reducible first
    | assumption | exact needs_of hp (by decide) | apply frame_pumpPort | (rw [id_eq]; assumption)
    | simp (disch := (refine rest_intro fun x => ?_; cases x <;> (first | exact Or.inr rfl | exact Or.inl (needs_mem hp (by decide))))) only [frame_mk_tap, frame_mk_grSets]
    | dsimp only

theorem frames_wrUnder (hp : Needs [.regs, .tlb, .pools, .mem, .dram, .epochs, .links, .out] fr) (ep : Option Nat) (va : Nat)
    (bs : List Byte) : Holds fr c₀ (Eng.wrUnder ep va bs) := by
  unfold Eng.wrUnder
  repeat' with_reducible first
    | assumption | exact needs_of hp (by decide) | apply frames_pure | apply frames_throw
    | refine frames_card_bind (fun _ _ => ?_) | refine frames_ite ?_ ?_ | apply frames_card | apply frames_op
    | apply frames_hamper | apply frames_ring | refine frames_upd (fun _ _ => ?_) | apply frames_updOp
    | apply frames_refuse | apply frames_failInput | (refine frames_forIn _ _ (fun _ _ => ?_))
    | (refine frames_bind ?_ (fun _ => ?_)) | apply frame_cacheXlate | apply frame_noteBacked | apply frame_sendRemote
    | apply frame_vwrite | refine frame_ite ?_ ?_
    | simp (disch := (refine rest_intro fun x => ?_; cases x <;> (first | exact Or.inr rfl | exact Or.inl (needs_mem hp (by decide))))) only [frame_mk_tap, frame_mk_grSets]
    | split | dsimp only

theorem frames_wr (hp : Needs [.regs, .tlb, .pools, .mem, .dram, .epochs, .links, .out] fr) (va : Nat) (bs : List Byte) :
    Holds fr c₀ (Eng.wr va bs) := by
  unfold Eng.wr
  repeat' with_reducible first
    | assumption | exact needs_of hp (by decide) | apply frames_pure | apply frames_throw
    | refine frames_card_bind (fun _ _ => ?_) | refine frames_ite ?_ ?_ | apply frames_card | apply frames_op
    | apply frames_hamper | apply frames_ring | apply frames_wrUnder | (refine frames_bind ?_ (fun _ => ?_))
    | dsimp only

theorem frames_sram (hp : Needs [.regs, .pace, .memctl, .freeze, .faults, .out] fr) (o n : Nat) : Holds fr c₀ (Eng.sram o n)
    := by
  unfold Eng.sram
  repeat' with_reducible first
    | assumption | exact needs_of hp (by decide) | apply frames_pure | apply frames_throw
    | refine frames_card_bind (fun _ _ => ?_) | refine frames_ite ?_ ?_ | apply frames_card | apply frames_op
    | apply frames_hamper | apply frames_ring | refine frames_upd (fun _ _ => ?_) | apply frames_failInput
    | (refine frames_bind ?_ (fun _ => ?_)) | apply frame_bump | apply frame_log | refine frame_ite ?_ ?_
    | simp (disch := (refine rest_intro fun x => ?_; cases x <;> (first | exact Or.inr rfl | exact Or.inl (needs_mem hp (by decide))))) only [frame_mk_tap, frame_mk_grSets]
    | dsimp only

theorem frames_stRd (hp : Needs [.regs, .pace, .memctl, .freeze, .faults, .out] fr) (off n : Nat) : Holds fr c₀ (Eng.stRd off
    n) := by
  unfold Eng.stRd
  repeat' with_reducible first
    | assumption | exact needs_of hp (by decide) | apply frames_pure | apply frames_throw
    | refine frames_card_bind (fun _ _ => ?_) | refine frames_ite ?_ ?_ | apply frames_card | apply frames_op
    | apply frames_hamper | apply frames_ring | apply frames_join | apply frames_sram
    | (refine frames_forIn _ _ (fun _ _ => ?_)) | (refine frames_bind ?_ (fun _ => ?_)) | dsimp only

theorem frame_sramPut (hp : Needs [.regs, .pace, .sram, .memctl, .freeze, .faults, .out] fr) (c : Card) (h o : Nat) (bs :
    List Byte) (hC : Held fr c₀ c) : Held fr c₀ (Card.sramPut c h o bs) := by
  unfold Card.sramPut
  repeat' with_reducible first
    | assumption | exact needs_of hp (by decide) | apply frame_sramWr
    | simp (disch := (refine rest_intro fun x => ?_; cases x <;> (first | exact Or.inr rfl | exact Or.inl (needs_mem hp (by decide))))) only [frame_mk_tap, frame_mk_grSets]
    | dsimp only

theorem frame_stWrite (hp : Needs [.regs, .pace, .sram, .memctl, .freeze, .faults, .out] fr) (c : Card) (h off e : Nat) (bs :
    List Byte) (hC : Held fr c₀ c) : Held fr c₀ (Card.stWrite c h off e bs) := by
  unfold Card.stWrite
  repeat' with_reducible first
    | assumption | exact needs_of hp (by decide) | (refine frame_foldl (fun _ _ _ => ?_) _ ?_) | apply frame_sramPut
    | simp (disch := (refine rest_intro fun x => ?_; cases x <;> (first | exact Or.inr rfl | exact Or.inl (needs_mem hp (by decide))))) only [frame_mk_tap, frame_mk_grSets]
    | dsimp only

theorem frames_stWr (hp : Needs [.regs, .pace, .sram, .memctl, .freeze, .faults, .out] fr) (off : Nat) (bs : List Byte) :
    Holds fr c₀ (Eng.stWr off bs) := by
  unfold Eng.stWr
  repeat' with_reducible first
    | assumption | exact needs_of hp (by decide) | apply frames_pure | apply frames_throw
    | refine frames_card_bind (fun _ _ => ?_) | refine frames_ite ?_ ?_ | apply frames_card | apply frames_op
    | apply frames_hamper | apply frames_ring | refine frames_upd (fun _ _ => ?_)
    | (refine frames_bind ?_ (fun _ => ?_)) | apply frame_stWrite | refine frame_ite ?_ ?_
    | simp (disch := (refine rest_intro fun x => ?_; cases x <;> (first | exact Or.inr rfl | exact Or.inl (needs_mem hp (by decide))))) only [frame_mk_tap, frame_mk_grSets]
    | split | dsimp only

theorem frame_startOp (hp : Needs [.regs, .tlb, .sched, .fresh] fr) (c : Card) (h : Nat) (o : Op) (u : Nat) (hC : Held fr c₀
    c) : Held fr c₀ (Card.startOp c h o u).1 := by
  unfold Card.startOp
  repeat' with_reducible first
    | assumption | exact needs_of hp (by decide) | refine frame_ite ?_ ?_ | apply frame_chargeCount | apply frame_chargeWait
    | apply frame_drawXlate
    | simp (disch := (refine rest_intro fun x => ?_; cases x <;> (first | exact Or.inr rfl | exact Or.inl (needs_mem hp (by decide))))) only [frame_mk_tap, frame_mk_grSets]
    | split | dsimp only

theorem frame_askFor (hp : Needs [.regs, .hostReads, .links, .out] fr) (c : Card) (h r : Nat) (o : Op) (l : List Need) (hC :
    Held fr c₀ c) : Held fr c₀ (Card.askFor c h r o l).1 := by
  unfold Card.askFor
  repeat' with_reducible first
    | assumption | exact needs_of hp (by decide) | refine frame_ite ?_ ?_ | (refine frame_foldl (fun _ _ _ => ?_) _ ?_)
    | apply frame_issueReads | apply frame_sendRemote
    | simp (disch := (refine rest_intro fun x => ?_; cases x <;> (first | exact Or.inr rfl | exact Or.inl (needs_mem hp (by decide))))) only [frame_mk_tap, frame_mk_grSets]
    | (refine frame_of_fst (by assumption) ?_) | split | (refine frame_foldl_fst (fun _ _ _ => ?_) _ ?_) | split
    | dsimp only

theorem frame_applyRun (hp : Needs [.regs, .rings, .hostReads, .links, .out] fr) (c : Card) (h r : Nat) (o : Op) (res : Except Stop Unit × Run)
    (hC : Held fr c₀ c) (hR : Held fr c₀ res.2.card) : Held fr c₀ (Card.applyRun c h r o res) := by
  unfold Card.applyRun
  repeat' with_reducible first
    | assumption | exact needs_of hp (by decide) | apply frame_setOp | apply frame_askFor | apply frame_xlFault
    | refine frame_ite ?_ ?_
    | simp (disch := (refine rest_intro fun x => ?_; cases x <;> (first | exact Or.inr rfl | exact Or.inl (needs_mem hp (by decide))))) only [frame_mk_tap, frame_mk_grSets]
    | split | dsimp only

theorem frame_runStep (hp : Needs [.regs, .rings, .hostReads, .links, .out] fr) (c : Card) (h r : Nat) (o : Op) (work : Eng Unit) (last : Op → Bool)
    (hC : Held fr c₀ c) (hW : Holds fr c₀ work) : Held fr c₀ (Card.runStep c h r o work last) := by
  have hr := hW { card := c, op := o, h := h, r := r } hC
  have ha := frame_applyRun (needs_of hp (by decide)) c h r o _ hC hr
  unfold Card.runStep
  dsimp only
  split
  · exact frame_ite ha (frame_setOp (needs_of hp (by decide)) _ _ _ _ hr)
  · exact ha

theorem frame_runFirst (hp : Needs [.regs, .rings, .hostReads, .links, .out] fr) (c : Card) (h r : Nat) (p : Card × Op) (work : Eng Unit) (last : Op → Bool)
    (hC : Held fr c₀ c) (hP : Held fr c₀ p.1) (hW : Holds fr c₀ work) : Held fr c₀ (Card.runFirst c h r p work last) := by
  unfold Card.runFirst
  split
  · exact hC
  · exact frame_runStep (needs_of hp (by decide)) _ _ _ _ _ _ hP hW

theorem frame_engine (hp : Needs [.regs, .rings, .hostReads, .tlb, .sched, .links, .fresh, .out] fr) (c : Card) (h r seq cls opc : Nat) (work : Eng Unit) (hC : Held fr c₀ c)
    (hW : Holds fr c₀ work) : Held fr c₀ (Card.engine c h r seq cls opc work) := by
  unfold Card.engine
  split
  · exact hC
  · exact frame_ite (frame_setOp (needs_of hp (by decide)) _ _ _ _ (frame_chargeCount (needs_of hp (by decide)) _ _ _ _ hC))
      (frame_runFirst (needs_of hp (by decide)) _ _ _ _ _ _ hC (frame_startOp (needs_of hp (by decide)) c h ‹Op› ‹Nat› hC) hW)

theorem frame_takeBack (hp : Needs [.mem, .fresh] fr) (c : Card) (o : Op) (hC : Held fr c₀ c) : Held fr c₀ (Card.takeBack c
    o) := by
  unfold Card.takeBack
  repeat' with_reducible first
    | assumption | exact needs_of hp (by decide) | (refine frame_foldl (fun _ _ _ => ?_) _ ?_) | apply frame_draw
    | apply frame_memPut
    | simp (disch := (refine rest_intro fun x => ?_; cases x <;> (first | exact Or.inr rfl | exact Or.inl (needs_mem hp (by decide))))) only [frame_mk_tap, frame_mk_grSets]
    | dsimp only

theorem frame_settleGroups (hp : Needs [.rings] fr) (c : Card) (h : Nat) (hC : Held fr c₀ c) : Held fr c₀ (Card.settleGroups
    c h) := by
  unfold Card.settleGroups
  repeat' with_reducible first
    | assumption | exact needs_of hp (by decide) | (refine frame_foldl (fun _ _ _ => ?_) _ ?_) | apply frame_setOp
    | simp (disch := (refine rest_intro fun x => ?_; cases x <;> (first | exact Or.inr rfl | exact Or.inl (needs_mem hp (by decide))))) only [frame_mk_tap, frame_mk_grSets]
    | dsimp only

theorem frame_accClear (hp : Needs [.regs] fr) (c : Card) (h s : Nat) (hC : Held fr c₀ c) : Held fr c₀ (Card.accClear c h s)
    := by
  unfold Card.accClear
  repeat' with_reducible first
    | assumption | exact needs_of hp (by decide) | apply frame_resetRegs
    | simp (disch := (refine rest_intro fun x => ?_; cases x <;> (first | exact Or.inr rfl | exact Or.inl (needs_mem hp (by decide))))) only [frame_mk_tap, frame_mk_grSets]
    | dsimp only

theorem frame_aperError (hp : Needs [.regs] fr) (c : Card) (h : Nat) (hC : Held fr c₀ c) : Held fr c₀ (Card.aperError c h) :=
    by
  unfold Card.aperError
  repeat' with_reducible first
    | assumption | exact needs_of hp (by decide) | apply frame_bumpF
    | simp (disch := (refine rest_intro fun x => ?_; cases x <;> (first | exact Or.inr rfl | exact Or.inl (needs_mem hp (by decide))))) only [frame_mk_tap, frame_mk_grSets]
    | dsimp only

theorem frame_aperMiss (hp : Needs [.regs] fr) (c : Card) (h : Nat) (hC : Held fr c₀ c) : Held fr c₀ (Card.aperMiss c h) :=
    by
  unfold Card.aperMiss
  repeat' with_reducible first
    | assumption | exact needs_of hp (by decide) | apply frame_bump
    | simp (disch := (refine rest_intro fun x => ?_; cases x <;> (first | exact Or.inr rfl | exact Or.inl (needs_mem hp (by decide))))) only [frame_mk_tap, frame_mk_grSets]
    | dsimp only

theorem frame_aperRead (hp : Needs [.regs, .config, .pace, .mem, .sram, .dram, .memctl, .freeze, .faults, .keep, .fresh,
    .out] fr) (c : Card) (h fnNum off len : Nat) (e : RegionEnt) (d m : Nat) (errs : List MemErr) (hC : Held fr c₀ c) : Held
    fr c₀ (Card.aperRead c h fnNum off len e d m errs) := by
  unfold Card.aperRead
  repeat' with_reducible first
    | assumption | exact needs_of hp (by decide) | refine frame_ite ?_ ?_ | apply frame_aperError | apply frame_emit
    | apply frame_memErrs | apply frame_touch
    | simp (disch := (refine rest_intro fun x => ?_; cases x <;> (first | exact Or.inr rfl | exact Or.inl (needs_mem hp (by decide))))) only [frame_mk_tap, frame_mk_grSets]
    | (refine frame_of_fst (by assumption) ?_) | split | dsimp only

theorem frame_aperWrite (hp : Needs [.regs, .config, .pace, .mem, .sram, .dram, .memctl, .freeze, .faults, .keep, .fresh,
    .out] fr) (c : Card) (h reg : Nat) (e : RegionEnt) (d : Nat) (bs : List Byte) (errs : List MemErr) (hC : Held fr c₀ c) :
    Held fr c₀ (Card.aperWrite c h reg e d bs errs) := by
  unfold Card.aperWrite
  repeat' with_reducible first
    | assumption | exact needs_of hp (by decide) | refine frame_ite ?_ ?_ | apply frame_aperError | apply frame_memErrs
    | apply frame_poisonPartial | apply frame_touch | apply frame_wrRegion
    | simp (disch := (refine rest_intro fun x => ?_; cases x <;> (first | exact Or.inr rfl | exact Or.inl (needs_mem hp (by decide))))) only [frame_mk_tap, frame_mk_grSets]
    | dsimp only

theorem frame_aperDo (hp : Needs [.regs, .config, .pace, .mem, .sram, .dram, .memctl, .freeze, .faults, .keep, .fresh, .out]
    fr) (c : Card) (h fnNum off len reg : Nat) (e : RegionEnt) (d m : Nat) (wdata : Option (List Byte)) (errs : List MemErr)
    (hC : Held fr c₀ c) : Held fr c₀ (Card.aperDo c h fnNum off len reg e d m wdata errs) := by
  unfold Card.aperDo
  repeat' with_reducible first
    | assumption | exact needs_of hp (by decide) | refine frame_ite ?_ ?_ | apply frame_aperRead | apply frame_aperWrite
    | apply frame_memErrs
    | simp (disch := (refine rest_intro fun x => ?_; cases x <;> (first | exact Or.inr rfl | exact Or.inl (needs_mem hp (by decide))))) only [frame_mk_tap, frame_mk_grSets]
    | (refine frame_of_fst (by assumption) ?_) | split | dsimp only

theorem frames_pagesOr (hp : Needs [] fr) (ps : List Nat) (write : Bool) (bad : XFault → Eng PageView)
    (hb : ∀ f, Holds fr c₀ (bad f)) : Holds fr c₀ (Eng.pagesOr ps write bad) := by
  unfold Eng.pagesOr
  repeat' with_reducible first
    | assumption | exact needs_of hp (by decide) | exact hb _ | apply frames_pure | apply frames_throw
    | refine frames_ite ?_ ?_ | apply frames_card | apply frames_hamper | apply frames_op
    | (refine frames_mapM _ (fun _ => ?_)) | (refine frames_bind ?_ (fun _ => ?_))
    | simp (disch := (refine rest_intro fun x => ?_; cases x <;> (first | exact Or.inr rfl | exact Or.inl (needs_mem hp (by decide))))) only [frame_mk_tap, frame_mk_grSets]
    | split | dsimp only

theorem frames_precheck (hp : Needs [] fr) (va n : Nat) (write : Bool) : Holds fr c₀ (Eng.precheck va n write) := by
  unfold Eng.precheck
  repeat' with_reducible first
    | assumption | exact needs_of hp (by decide) | apply frames_pure | apply frames_throw
    | refine frames_card_bind (fun _ _ => ?_) | refine frames_ite ?_ ?_ | apply frames_card | apply frames_op
    | apply frames_hamper | apply frames_ring | apply frames_pagesOr | (intro _) | (refine frames_bind ?_ (fun _ => ?_))
    | dsimp only

theorem frames_want (hp : Needs [] fr) (va n : Nat) : Holds fr c₀ (Eng.want va n) := by
  unfold Eng.want
  repeat' with_reducible first
    | assumption | exact needs_of hp (by decide) | apply frames_pure | apply frames_throw
    | refine frames_card_bind (fun _ _ => ?_) | refine frames_ite ?_ ?_ | apply frames_card | apply frames_op
    | apply frames_hamper | apply frames_ring | (refine frames_bind ?_ (fun _ => ?_)) | split | dsimp only

theorem frames_wants (hp : Needs [] fr) (rs : List (Nat × Nat)) : Holds fr c₀ (Eng.wants rs) := by
  unfold Eng.wants
  repeat' with_reducible first
    | assumption | exact needs_of hp (by decide) | apply frames_pure | apply frames_throw
    | refine frames_card_bind (fun _ _ => ?_) | refine frames_ite ?_ ?_ | apply frames_card | apply frames_op
    | apply frames_hamper | apply frames_ring | (refine frames_bind ?_ (fun _ => ?_)) | split | dsimp only

theorem frames_confine (hp : Needs [] fr) (status src dst n : Nat) : Holds fr c₀ (Eng.confine status src dst n) := by
  unfold Eng.confine
  repeat' with_reducible first
    | assumption | exact needs_of hp (by decide) | apply frames_pure | apply frames_throw
    | refine frames_card_bind (fun _ _ => ?_) | refine frames_ite ?_ ?_ | apply frames_card | apply frames_op
    | apply frames_hamper | apply frames_ring | (refine frames_bind ?_ (fun _ => ?_)) | split | dsimp only

theorem frames_copyWork (hp : Needs [.regs, .tlb, .pools, .mem, .dram, .epochs, .links, .fresh, .out] fr) : Holds fr c₀
    (copyWork ) := by
  unfold copyWork
  repeat' with_reducible first
    | assumption | exact needs_of hp (by decide) | apply frames_pure | apply frames_throw
    | refine frames_card_bind (fun _ _ => ?_) | refine frames_ite ?_ ?_ | apply frames_card | apply frames_op
    | apply frames_hamper | apply frames_ring | refine frames_upd (fun _ _ => ?_) | apply frames_refuse
    | apply frames_refuseFree | apply frames_rd | apply frames_wr | apply frames_precheck | apply frames_want
    | apply frames_confine | (refine frames_forIn _ _ (fun _ _ => ?_)) | (refine frames_bind ?_ (fun _ => ?_))
    | refine frame_ite ?_ ?_
    | simp (disch := (refine rest_intro fun x => ?_; cases x <;> (first | exact Or.inr rfl | exact Or.inl (needs_mem hp (by decide))))) only [frame_mk_tap, frame_mk_grSets]
    | dsimp only

theorem frames_fillWork (hp : Needs [.regs, .tlb, .pools, .mem, .dram, .epochs, .links, .out] fr) : Holds fr c₀ (fillWork )
    := by
  unfold fillWork
  repeat' with_reducible first
    | assumption | exact needs_of hp (by decide) | apply frames_pure | apply frames_throw
    | refine frames_card_bind (fun _ _ => ?_) | refine frames_ite ?_ ?_ | apply frames_card | apply frames_op
    | apply frames_hamper | apply frames_ring | apply frames_refuseFree | apply frames_wr | apply frames_precheck
    | (refine frames_forIn _ _ (fun _ _ => ?_)) | (refine frames_bind ?_ (fun _ => ?_)) | dsimp only

theorem frame_unbackPage (hp : Needs [.regs, .tlb, .pools, .mem, .out] fr) (c : Card) (h ctx ring va : Nat) (hC : Held fr c₀ c) :
    Held fr c₀ (Card.unbackPage c h ctx ring va) := by
  have hw : ∀ c' : Card, Held fr c₀ c' → ∀ l e, Held fr c₀ (match c'.rewriteLeaf l e with
      | .ok c'' => c''
      | .error _ => c') := by
    intro c' h' l e
    split
    · exact frame_rewriteLeaf (needs_of hp (by decide)) h' ‹_›
    · exact h'
  unfold Card.unbackPage
  split
  · split
    · split
      · refine hw _ ?_ _ _
        split
        · exact frame_poolFree (needs_of hp (by decide)) _ _ _ _ _ _ _ _ hC
        · exact frame_bump (needs_of hp (by decide)) _ _ _ hC
      · exact hC
    · exact hC
  · exact hC

theorem frames_unbackWork (hp : Needs [.regs, .tlb, .pools, .mem, .out] fr) : Holds fr c₀ (unbackWork ) := by
  unfold unbackWork
  repeat' with_reducible first
    | assumption | exact needs_of hp (by decide) | apply frames_pure | apply frames_throw
    | refine frames_card_bind (fun _ _ => ?_) | refine frames_ite ?_ ?_ | apply frames_card | apply frames_op
    | apply frames_hamper | apply frames_ring | refine frames_upd (fun _ _ => ?_) | apply frames_refuseFree
    | apply frames_check | (refine frames_forIn _ _ (fun _ _ => ?_)) | (refine frames_mapM _ (fun _ => ?_))
    | (refine frames_bind ?_ (fun _ => ?_)) | apply frame_unbackPage | refine frame_ite ?_ ?_
    | simp (disch := (refine rest_intro fun x => ?_; cases x <;> (first | exact Or.inr rfl | exact Or.inl (needs_mem hp (by decide))))) only [frame_mk_tap, frame_mk_grSets]
    | split | dsimp only

theorem frames_sendWork (hp : Needs [.regs, .tlb, .dram, .links, .out] fr) : Holds fr c₀ (sendWork ) := by
  unfold sendWork
  repeat' with_reducible first
    | assumption | exact needs_of hp (by decide) | apply frames_pure | apply frames_throw
    | refine frames_card_bind (fun _ _ => ?_) | refine frames_ite ?_ ?_ | apply frames_card | apply frames_op
    | apply frames_hamper | apply frames_ring | refine frames_upd (fun _ _ => ?_) | apply frames_refuse
    | apply frames_check | apply frames_failInput | apply frames_rd | apply frames_precheck | apply frames_want
    | (refine frames_bind ?_ (fun _ => ?_)) | apply frame_sendRemote | refine frame_ite ?_ ?_
    | simp (disch := (refine rest_intro fun x => ?_; cases x <;> (first | exact Or.inr rfl | exact Or.inl (needs_mem hp (by decide))))) only [frame_mk_tap, frame_mk_grSets]
    | split | dsimp only

theorem frame_drawEpoch (hp : Needs [.epochs] fr) (c : Card) (h stream decodeNo opener : Nat) (hC : Held fr c₀ c) : Held fr
    c₀ (Card.drawEpoch c h stream decodeNo opener).1 := by
  unfold Card.drawEpoch
  repeat' with_reducible first
    | assumption | exact needs_of hp (by decide) | apply frame_setEpoch
    | simp (disch := (refine rest_intro fun x => ?_; cases x <;> (first | exact Or.inr rfl | exact Or.inl (needs_mem hp (by decide))))) only [frame_mk_tap, frame_mk_grSets]
    | (refine frame_of_fst (by assumption) ?_) | split | split | dsimp only

theorem frame_mapOps (hp : Needs [.rings] fr) (c : Card) (h : Nat) (f : Nat → Op → Op) (hC : Held fr c₀ c) : Held fr c₀
    (Card.mapOps c h f) := by
  unfold Card.mapOps
  repeat' with_reducible first
    | assumption | exact needs_of hp (by decide) | (refine frame_foldl (fun _ _ _ => ?_) _ ?_) | apply frame_setRing
    | simp (disch := (refine rest_intro fun x => ?_; cases x <;> (first | exact Or.inr rfl | exact Or.inl (needs_mem hp (by decide))))) only [frame_mk_tap, frame_mk_grSets]
    | dsimp only

theorem frame_commitTracks (hp : Needs [.regs, .sems, .tracks] fr) (c : Card) (h e : Nat) (hC : Held fr c₀ c) : Held fr c₀
    (Card.commitTracks c h e) := by
  unfold Card.commitTracks
  repeat' with_reducible first
    | assumption | exact needs_of hp (by decide) | refine frame_ite ?_ ?_ | (refine frame_foldl (fun _ _ _ => ?_) _ ?_)
    | apply frame_semApply | apply frame_setTracker
    | simp (disch := (refine rest_intro fun x => ?_; cases x <;> (first | exact Or.inr rfl | exact Or.inl (needs_mem hp (by decide))))) only [frame_mk_tap, frame_mk_grSets]
    | dsimp only

theorem frame_commitEpoch (hp : Needs [.regs, .rings, .sems, .pools, .sram, .dram, .epochs, .tracks, .out] fr) (c : Card) (h
    e : Nat) (hC : Held fr c₀ c) : Held fr c₀ (Card.commitEpoch c h e) := by
  unfold Card.commitEpoch
  repeat' with_reducible first
    | assumption | exact needs_of hp (by decide) | refine frame_ite ?_ ?_ | apply frame_commitTracks | apply frame_mapOps
    | apply frame_setEpoch | apply frame_settleSigs
    | simp (disch := (refine rest_intro fun x => ?_; cases x <;> (first | exact Or.inr rfl | exact Or.inl (needs_mem hp (by decide))))) only [frame_mk_tap, frame_mk_grSets]
    | dsimp only

theorem frame_abandonRetry (hp : Needs [.regs, .pace, .rings, .memctl, .freeze, .faults, .out] fr) (c : Card) (h r : Nat) (o
    : Op) (hC : Held fr c₀ c) : Held fr c₀ (Card.abandonRetry c h r o) := by
  unfold Card.abandonRetry
  repeat' with_reducible first
    | assumption | exact needs_of hp (by decide) | refine frame_ite ?_ ?_ | apply frame_setFence | apply frame_settleGroups
    | apply frame_transient
    | simp (disch := (refine rest_intro fun x => ?_; cases x <;> (first | exact Or.inr rfl | exact Or.inl (needs_mem hp (by decide))))) only [frame_mk_tap, frame_mk_grSets]
    | (refine frame_of_fst (by assumption) ?_) | split | dsimp only

theorem frame_abandonPics (hp : Needs [.regs, .pace, .rings, .memctl, .freeze, .faults, .out] fr) (c : Card) (h : Nat) (mine
    : Stream → Bool) (hC : Held fr c₀ c) : Held fr c₀ (Card.abandonPics c h mine) := by
  unfold Card.abandonPics
  repeat' with_reducible first
    | assumption | exact needs_of hp (by decide) | refine frame_ite ?_ ?_ | (refine frame_foldl (fun _ _ _ => ?_) _ ?_)
    | apply frame_setFence | apply frame_settleGroups | apply frame_transient
    | simp (disch := (refine rest_intro fun x => ?_; cases x <;> (first | exact Or.inr rfl | exact Or.inl (needs_mem hp (by decide))))) only [frame_mk_tap, frame_mk_grSets]
    | dsimp only

theorem frame_dropTraffic (hp : Needs [.hostReads, .links] fr) (c : Card) (h : Nat) (mine : List (Nat × Op)) (hC : Held fr c₀
    c) : Held fr c₀ (Card.dropTraffic c h mine) := by
  unfold Card.dropTraffic
  repeat' with_reducible first
    | assumption | exact needs_of hp (by decide) | refine frame_ite ?_ ?_
    | simp (disch := (refine rest_intro fun x => ?_; cases x <;> (first | exact Or.inr rfl | exact Or.inl (needs_mem hp (by decide))))) only [frame_mk_tap, frame_mk_grSets]
    | dsimp only

theorem frame_cancelOps (hp : Needs [.regs, .pace, .rings, .hostReads, .memctl, .power, .freeze, .faults, .links, .out] fr)
    (c : Card) (h e : Nat) (hC : Held fr c₀ c) : Held fr c₀ (Card.cancelOps c h e) := by
  unfold Card.cancelOps
  repeat' with_reducible first
    | assumption | exact needs_of hp (by decide) | refine frame_ite ?_ ?_ | (refine frame_foldl (fun _ _ _ => ?_) _ ?_)
    | apply frame_abandonRetry | apply frame_dropTraffic | apply frame_govDropOp | apply frame_mapOps
    | simp (disch := (refine rest_intro fun x => ?_; cases x <;> (first | exact Or.inr rfl | exact Or.inl (needs_mem hp (by decide))))) only [frame_mk_tap, frame_mk_grSets]
    | dsimp only

theorem frame_bindWaiters (hp : Needs [.rings] fr) (c : Card) (h s no e : Nat) (hC : Held fr c₀ c) : Held fr c₀
    (Card.bindWaiters c h s no e) := by
  unfold Card.bindWaiters
  repeat' with_reducible first
    | assumption | exact needs_of hp (by decide) | refine frame_ite ?_ ?_ | apply frame_mapOps
    | simp (disch := (refine rest_intro fun x => ?_; cases x <;> (first | exact Or.inr rfl | exact Or.inl (needs_mem hp (by decide))))) only [frame_mk_tap, frame_mk_grSets]
    | dsimp only

theorem frame_cancelWaiters (hp : Needs [.rings] fr) (c : Card) (h s : Nat) (hC : Held fr c₀ c) : Held fr c₀
    (Card.cancelWaiters c h s) := by
  unfold Card.cancelWaiters
  repeat' with_reducible first
    | assumption | exact needs_of hp (by decide) | refine frame_ite ?_ ?_ | apply frame_mapOps
    | simp (disch := (refine rest_intro fun x => ?_; cases x <;> (first | exact Or.inr rfl | exact Or.inl (needs_mem hp (by decide))))) only [frame_mk_tap, frame_mk_grSets]
    | dsimp only

theorem frame_unbackLeaves (hp : Needs [.tlb, .mem, .epochs] fr) (c : Card) (h e : Nat) (hC : Held fr c₀ c) : Held fr c₀
    (Card.unbackLeaves c h e) := by
  unfold Card.unbackLeaves
  repeat' with_reducible first
    | assumption | exact needs_of hp (by decide) | (refine frame_foldl (fun _ _ _ => ?_) _ ?_) | apply frame_dropXlate
    | apply frame_wrRegion
    | simp (disch := (refine rest_intro fun x => ?_; cases x <;> (first | exact Or.inr rfl | exact Or.inl (needs_mem hp (by decide))))) only [frame_mk_tap, frame_mk_grSets]
    | (refine frame_of_fst (by assumption) ?_) | split | dsimp only

theorem frame_closeBatch (hp : Needs [.rings, .tracks] fr) (c : Card) (h : Nat) (hC : Held fr c₀ c) : Held fr c₀
    (Card.closeBatch c h) := by
  unfold Card.closeBatch
  repeat' with_reducible first
    | assumption | exact needs_of hp (by decide) | refine frame_ite ?_ ?_ | apply frame_mapOps | apply frame_setTracker
    | simp (disch := (refine rest_intro fun x => ?_; cases x <;> (first | exact Or.inr rfl | exact Or.inl (needs_mem hp (by decide))))) only [frame_mk_tap, frame_mk_grSets]
    | (refine frame_of_fst (by assumption) ?_) | split | dsimp only

theorem frame_withdrawTracks (hp : Needs [.regs, .tracks] fr) (c : Card) (h e : Nat) (hC : Held fr c₀ c) : Held fr c₀
    (Card.withdrawTracks c h e) := by
  unfold Card.withdrawTracks
  repeat' with_reducible first
    | assumption | exact needs_of hp (by decide) | refine frame_ite ?_ ?_ | (refine frame_foldl (fun _ _ _ => ?_) _ ?_)
    | apply frame_bump | apply frame_setTracker
    | simp (disch := (refine rest_intro fun x => ?_; cases x <;> (first | exact Or.inr rfl | exact Or.inl (needs_mem hp (by decide))))) only [frame_mk_tap, frame_mk_grSets]
    | dsimp only

theorem frame_dropUnsettled (hp : Needs [.regs, .pools, .dram, .epochs] fr) (c : Card) (h e : Nat) (hC : Held fr c₀ c) : Held
    fr c₀ (Card.dropUnsettled c h e) := by
  unfold Card.dropUnsettled
  repeat' with_reducible first
    | assumption | exact needs_of hp (by decide) | apply frame_freeWhere
    | simp (disch := (refine rest_intro fun x => ?_; cases x <;> (first | exact Or.inr rfl | exact Or.inl (needs_mem hp (by decide))))) only [frame_mk_tap, frame_mk_grSets]
    | dsimp only

theorem frame_withdrawEpoch (hp : Needs [.regs, .pace, .rings, .sems, .hostReads, .tlb, .pools, .mem, .dram, .memctl, .power,
    .freeze, .faults, .epochs, .records, .tracks, .links, .out] fr) (c : Card) (h e cause : Nat) (by_ : Option Nat) (hC :
    Held fr c₀ c) : Held fr c₀ (Card.withdrawEpoch c h e cause by_) := by
  unfold Card.withdrawEpoch
  repeat' with_reducible first
    | assumption | exact needs_of hp (by decide) | refine frame_ite ?_ ?_ | apply frame_cancelOps | apply frame_dropRecords
    | apply frame_dropUnsettled | apply frame_retract | apply frame_setEpoch | apply frame_settleSigs
    | apply frame_unbackLeaves | apply frame_withdrawTracks
    | simp (disch := (refine rest_intro fun x => ?_; cases x <;> (first | exact Or.inr rfl | exact Or.inl (needs_mem hp (by decide))))) only [frame_mk_tap, frame_mk_grSets]
    | dsimp only

theorem frame_releaseSlot (hp : Needs [.regs, .tlb, .pools, .mem, .out] fr) (c : Card) (h : Nat) (t : Stream) (k : Nat) (hC :
    Held fr c₀ c) : Held fr c₀ (Card.releaseSlot c h t k) := by
  unfold Card.releaseSlot
  repeat' with_reducible first
    | assumption | exact needs_of hp (by decide) | (refine frame_foldl (fun _ _ _ => ?_) _ ?_) | apply frame_unbackPage
    | simp (disch := (refine rest_intro fun x => ?_; cases x <;> (first | exact Or.inr rfl | exact Or.inl (needs_mem hp (by decide))))) only [frame_mk_tap, frame_mk_grSets]
    | dsimp only

theorem frame_putSamples (hp : Needs [.regs, .tlb, .pools, .mem, .dram, .out] fr) (c : Card) (h : Nat) (t : Stream) (k : Nat)
    (l : List Samples) (hC : Held fr c₀ c) : Held fr c₀ (Card.putSamples c h t k l) := by
  unfold Card.putSamples
  repeat' with_reducible first
    | assumption | exact needs_of hp (by decide) | (refine frame_foldl (fun _ _ _ => ?_) _ ?_) | apply frame_ctxWrite
    | simp (disch := (refine rest_intro fun x => ?_; cases x <;> (first | exact Or.inr rfl | exact Or.inl (needs_mem hp (by decide))))) only [frame_mk_tap, frame_mk_grSets]
    | dsimp only

theorem frames_openWork (hp : Needs [.streams] fr) : Holds fr c₀ (openWork ) := by
  unfold openWork
  repeat' with_reducible first
    | assumption | exact needs_of hp (by decide) | apply frames_pure | apply frames_throw
    | refine frames_card_bind (fun _ _ => ?_) | refine frames_ite ?_ ?_ | apply frames_card | apply frames_op
    | apply frames_hamper | apply frames_ring | refine frames_upd (fun _ _ => ?_) | apply frames_check
    | (refine frames_bind ?_ (fun _ => ?_)) | apply frame_setStream | refine frame_ite ?_ ?_
    | simp (disch := (refine rest_intro fun x => ?_; cases x <;> (first | exact Or.inr rfl | exact Or.inl (needs_mem hp (by decide))))) only [frame_mk_tap, frame_mk_grSets]
    | split | dsimp only

theorem frames_needStream (hp : Needs [] fr) (s : Nat) : Holds fr c₀ (Eng.needStream s) := by
  unfold Eng.needStream
  repeat' with_reducible first
    | assumption | exact needs_of hp (by decide) | apply frames_pure | apply frames_throw
    | refine frames_card_bind (fun _ _ => ?_) | refine frames_ite ?_ ?_ | apply frames_card | apply frames_op
    | apply frames_hamper | apply frames_ring | apply frames_refuse | (refine frames_bind ?_ (fun _ => ?_)) | split
    | dsimp only

theorem frames_feedWork (hp : Needs [.regs, .tlb, .pools, .mem, .dram, .streams, .out] fr) (starts : List Nat) : Holds fr c₀
    (feedWork starts) := by
  unfold feedWork
  repeat' with_reducible first
    | assumption | exact needs_of hp (by decide) | apply frames_pure | apply frames_throw
    | refine frames_card_bind (fun _ _ => ?_) | refine frames_ite ?_ ?_ | apply frames_card | apply frames_op
    | apply frames_hamper | apply frames_ring | refine frames_upd (fun _ _ => ?_) | apply frames_updOp
    | apply frames_check | apply frames_rd | apply frames_want | apply frames_needStream
    | (refine frames_bind ?_ (fun _ => ?_)) | apply frame_enqueue | apply frame_feedCut | refine frame_ite ?_ ?_
    | simp (disch := (refine rest_intro fun x => ?_; cases x <;> (first | exact Or.inr rfl | exact Or.inl (needs_mem hp (by decide))))) only [frame_mk_tap, frame_mk_grSets]
    | split | dsimp only

theorem frame_grainRecord (hp : Needs [.regs, .pace, .epochs, .records, .out] fr) (c : Card) (h s : Nat) (t : Stream) (p :
    Pic) (out : Nat) (hC : Held fr c₀ c) : Held fr c₀ (Card.grainRecord c h s t p out) := by
  unfold Card.grainRecord
  repeat' with_reducible first
    | assumption | exact needs_of hp (by decide) | refine frame_ite ?_ ?_ | apply frame_originate
    | simp (disch := (refine rest_intro fun x => ?_; cases x <;> (first | exact Or.inr rfl | exact Or.inl (needs_mem hp (by decide))))) only [frame_mk_tap, frame_mk_grSets]
    | (refine frame_of_fst (by assumption) ?_) | split | dsimp only

theorem frame_outputPic (hp : Needs [.regs, .pace, .rings, .sems, .tlb, .pools, .mem, .sram, .dram, .epochs, .records,
    .streams, .tracks, .out] fr) (c : Card) (h s decodeNo : Nat) (hC : Held fr c₀ c) : Held fr c₀ (Card.outputPic c h s
    decodeNo) := by
  unfold Card.outputPic
  repeat' with_reducible first
    | assumption | exact needs_of hp (by decide) | refine frame_ite ?_ ?_ | apply frame_bump | apply frame_commitEpoch
    | apply frame_ctxWrite | apply frame_grainRecord | apply frame_semApply | apply frame_setStream
    | simp (disch := (refine rest_intro fun x => ?_; cases x <;> (first | exact Or.inr rfl | exact Or.inl (needs_mem hp (by decide))))) only [frame_mk_tap, frame_mk_grSets]
    | (refine frame_of_fst (by assumption) ?_) | split | dsimp only

theorem frame_outputAll (hp : Needs [.regs, .pace, .rings, .sems, .tlb, .pools, .mem, .sram, .dram, .epochs, .records,
    .streams, .tracks, .out] fr) (c : Card) (h s : Nat) (order : List Nat) (hC : Held fr c₀ c) : Held fr c₀ (Card.outputAll c
    h s order) := by
  unfold Card.outputAll
  repeat' with_reducible first
    | assumption | exact needs_of hp (by decide) | (refine frame_foldl (fun _ _ _ => ?_) _ ?_) | apply frame_outputPic
    | simp (disch := (refine rest_intro fun x => ?_; cases x <;> (first | exact Or.inr rfl | exact Or.inl (needs_mem hp (by decide))))) only [frame_mk_tap, frame_mk_grSets]
    | (refine frame_of_fst (by assumption) ?_) | split | dsimp only

theorem frame_retractPic (hp : Needs [.regs, .pace, .rings, .sems, .hostReads, .tlb, .pools, .mem, .dram, .memctl, .power,
    .freeze, .faults, .epochs, .records, .tracks, .links, .out] fr) (c : Card) (h s e cause : Nat) (hC : Held fr c₀ c) : Held
    fr c₀ (Card.retractPic c h s e cause) := by
  unfold Card.retractPic
  repeat' with_reducible first
    | assumption | exact needs_of hp (by decide) | refine frame_ite ?_ ?_ | apply frame_bump | apply frame_withdrawEpoch
    | simp (disch := (refine rest_intro fun x => ?_; cases x <;> (first | exact Or.inr rfl | exact Or.inl (needs_mem hp (by decide))))) only [frame_mk_tap, frame_mk_grSets]
    | dsimp only

theorem frame_discardEpochs (hp : Needs [.regs, .pace, .rings, .sems, .hostReads, .tlb, .pools, .mem, .dram, .memctl, .power,
    .freeze, .faults, .epochs, .records, .tracks, .links, .fresh, .out] fr) (c : Card) (h s : Nat) (l : List Pic) (hC : Held
    fr c₀ c) : Held fr c₀ (Card.discardEpochs c h s l) := by
  unfold Card.discardEpochs
  repeat' with_reducible first
    | assumption | exact needs_of hp (by decide) | refine frame_ite ?_ ?_ | (refine frame_foldl (fun _ _ _ => ?_) _ ?_)
    | apply frame_draw | apply frame_retractPic
    | simp (disch := (refine rest_intro fun x => ?_; cases x <;> (first | exact Or.inr rfl | exact Or.inl (needs_mem hp (by decide))))) only [frame_mk_tap, frame_mk_grSets]
    | dsimp only

theorem frame_closeStream (hp : Needs [.regs, .pace, .rings, .sems, .hostReads, .tlb, .pools, .mem, .dram, .memctl, .power,
    .freeze, .faults, .epochs, .records, .streams, .tracks, .links, .fresh, .out] fr) (c : Card) (h s : Nat) (hC : Held fr c₀
    c) : Held fr c₀ (Card.closeStream c h s) := by
  unfold Card.closeStream
  repeat' with_reducible first
    | assumption | exact needs_of hp (by decide) | (refine frame_foldl (fun _ _ _ => ?_) _ ?_) | apply frame_cancelWaiters
    | apply frame_discardEpochs | apply frame_releaseSlot | apply frame_setStream
    | simp (disch := (refine rest_intro fun x => ?_; cases x <;> (first | exact Or.inr rfl | exact Or.inl (needs_mem hp (by decide))))) only [frame_mk_tap, frame_mk_grSets]
    | (refine frame_of_fst (by assumption) ?_) | split | dsimp only

theorem frame_freeSlices (hp : Needs [.streams] fr) (c : Card) (h s : Nat) (hC : Held fr c₀ c) : Held fr c₀ (Card.freeSlices
    c h s) := by
  unfold Card.freeSlices
  repeat' with_reducible first
    | assumption | exact needs_of hp (by decide)
    | simp (disch := (refine rest_intro fun x => ?_; cases x <;> (first | exact Or.inr rfl | exact Or.inl (needs_mem hp (by decide))))) only [frame_mk_tap, frame_mk_grSets]
    | dsimp only

theorem frames_drainWork (hp : Needs [.regs, .pace, .rings, .sems, .hostReads, .tlb, .pools, .mem, .sram, .dram, .memctl,
    .power, .freeze, .faults, .epochs, .records, .streams, .tracks, .links, .fresh, .out] fr) (order : List Nat) : Holds fr
    c₀ (drainWork order) := by
  unfold drainWork
  repeat' with_reducible first
    | assumption | exact needs_of hp (by decide) | apply frames_pure | apply frames_throw
    | refine frames_card_bind (fun _ _ => ?_) | refine frames_ite ?_ ?_ | apply frames_card | apply frames_op
    | apply frames_hamper | apply frames_ring | refine frames_upd (fun _ _ => ?_) | apply frames_check
    | apply frames_needStream | (refine frames_forIn _ _ (fun _ _ => ?_)) | (refine frames_bind ?_ (fun _ => ?_))
    | apply frame_discardEpochs | apply frame_outputAll | apply frame_releaseSlot | apply frame_setStream
    | refine frame_ite ?_ ?_
    | simp (disch := (refine rest_intro fun x => ?_; cases x <;> (first | exact Or.inr rfl | exact Or.inl (needs_mem hp (by decide))))) only [frame_mk_tap, frame_mk_grSets]
    | dsimp only

theorem frames_closeWork (hp : Needs [.regs, .pace, .rings, .sems, .hostReads, .tlb, .pools, .mem, .dram, .memctl, .power,
    .freeze, .faults, .epochs, .records, .streams, .tracks, .links, .fresh, .out] fr) : Holds fr c₀ (closeWork ) := by
  unfold closeWork
  repeat' with_reducible first
    | assumption | exact needs_of hp (by decide) | apply frames_pure | apply frames_throw
    | refine frames_card_bind (fun _ _ => ?_) | refine frames_ite ?_ ?_ | apply frames_card | apply frames_op
    | apply frames_hamper | apply frames_ring | refine frames_upd (fun _ _ => ?_) | apply frames_check
    | apply frames_needStream | (refine frames_bind ?_ (fun _ => ?_)) | apply frame_closeStream | apply frame_setStream
    | refine frame_ite ?_ ?_
    | simp (disch := (refine rest_intro fun x => ?_; cases x <;> (first | exact Or.inr rfl | exact Or.inl (needs_mem hp (by decide))))) only [frame_mk_tap, frame_mk_grSets]
    | dsimp only

theorem frame_endClose (hp : Needs [.rings] fr) (c : Card) (h s : Nat) (hC : Held fr c₀ c) : Held fr c₀ (Card.endClose c h s)
    := by
  unfold Card.endClose
  repeat' with_reducible first
    | assumption | exact needs_of hp (by decide) | refine frame_ite ?_ ?_ | apply frame_mapOps
    | simp (disch := (refine rest_intro fun x => ?_; cases x <;> (first | exact Or.inr rfl | exact Or.inl (needs_mem hp (by decide))))) only [frame_mk_tap, frame_mk_grSets]
    | dsimp only

theorem frame_setKey (hp : Needs [.keys] fr) (c : Card) (h slot : Nat) (k : Option KeySlot) (hC : Held fr c₀ c) : Held fr c₀
    (Card.setKey c h slot k) := by
  unfold Card.setKey
  repeat' with_reducible first
    | assumption | exact needs_of hp (by decide)
    | simp (disch := (refine rest_intro fun x => ?_; cases x <;> (first | exact Or.inr rfl | exact Or.inl (needs_mem hp (by decide))))) only [frame_mk_tap, frame_mk_grSets]
    | dsimp only

theorem frame_countDropped (hp : Needs [.regs] fr) (c : Card) (h s n : Nat) (hC : Held fr c₀ c) : Held fr c₀
    (Card.countDropped c h s n) := by
  unfold Card.countDropped
  repeat' with_reducible first
    | assumption | exact needs_of hp (by decide) | apply frame_bump
    | simp (disch := (refine rest_intro fun x => ?_; cases x <;> (first | exact Or.inr rfl | exact Or.inl (needs_mem hp (by decide))))) only [frame_mk_tap, frame_mk_grSets]
    | dsimp only

theorem frame_takeSlice (hp : Needs [.streams] fr) (c : Card) (h d s : Nat) (hC : Held fr c₀ c) : Held fr c₀ (Card.takeSlice
    c h d s) := by
  unfold Card.takeSlice
  repeat' with_reducible first
    | assumption | exact needs_of hp (by decide)
    | simp (disch := (refine rest_intro fun x => ?_; cases x <;> (first | exact Or.inr rfl | exact Or.inl (needs_mem hp (by decide))))) only [frame_mk_tap, frame_mk_grSets]
    | dsimp only

theorem frame_picEpoch (hp : Needs [.epochs] fr) (c : Card) (h s : Nat) (t : Stream) (hC : Held fr c₀ c) : Held fr c₀
    (Card.picEpoch c h s t).1 := by
  unfold Card.picEpoch
  repeat' with_reducible first
    | assumption | exact needs_of hp (by decide) | refine frame_ite ?_ ?_ | apply frame_drawEpoch | split | dsimp only

theorem frame_beginPic (hp : Needs [.regs, .pace, .rings, .sems, .hostReads, .tlb, .pools, .mem, .dram, .memctl, .power,
    .freeze, .faults, .epochs, .records, .streams, .tracks, .links, .out] fr) (c : Card) (h s : Nat) (t : Stream) (k d : Nat)
    (missing : List MissingRef) (hC : Held fr c₀ c) : Held fr c₀ (Card.beginPic c h s t k d missing) := by
  unfold Card.beginPic
  repeat' with_reducible first
    | assumption | exact needs_of hp (by decide) | refine frame_ite ?_ ?_ | (refine frame_foldl (fun _ _ _ => ?_) _ ?_)
    | apply frame_bindWaiters | apply frame_picEpoch | apply frame_retractPic | apply frame_setStream
    | apply frame_streamEvent | apply frame_takeSlice
    | simp (disch := (refine rest_intro fun x => ?_; cases x <;> (first | exact Or.inr rfl | exact Or.inl (needs_mem hp (by decide))))) only [frame_mk_tap, frame_mk_grSets]
    | dsimp only

theorem frame_copyBlock (hp : Needs [.regs, .tlb, .pools, .mem, .dram, .out] fr) (c : Card) (h : Nat) (t : Stream) (from_ to_
    off pitch x y w rows : Nat) (hC : Held fr c₀ c) : Held fr c₀ (Card.copyBlock c h t from_ to_ off pitch x y w rows) := by
  unfold Card.copyBlock
  repeat' with_reducible first
    | assumption | exact needs_of hp (by decide) | (refine frame_foldl (fun _ _ _ => ?_) _ ?_) | apply frame_ctxWrite
    | simp (disch := (refine rest_intro fun x => ?_; cases x <;> (first | exact Or.inr rfl | exact Or.inl (needs_mem hp (by decide))))) only [frame_mk_tap, frame_mk_grSets]
    | (refine frame_of_fst (by assumption) ?_) | split | dsimp only

theorem frame_concealUnit (hp : Needs [.regs, .tlb, .pools, .mem, .dram, .out] fr) (c : Card) (h : Nat) (t : Stream) (from_
    to_ u : Nat) (hC : Held fr c₀ c) : Held fr c₀ (Card.concealUnit c h t from_ to_ u) := by
  unfold Card.concealUnit
  repeat' with_reducible first
    | assumption | exact needs_of hp (by decide) | refine frame_ite ?_ ?_ | apply frame_copyBlock
    | simp (disch := (refine rest_intro fun x => ?_; cases x <;> (first | exact Or.inr rfl | exact Or.inl (needs_mem hp (by decide))))) only [frame_mk_tap, frame_mk_grSets]
    | dsimp only

theorem frame_weavePlane (hp : Needs [.regs, .tlb, .pools, .mem, .dram, .out] fr) (c : Card) (h : Nat) (t : Stream) (k off
    pitch w rows : Nat) (bottom : Bool) (hC : Held fr c₀ c) : Held fr c₀ (Card.weavePlane c h t k off pitch w rows bottom) :=
    by
  unfold Card.weavePlane
  repeat' with_reducible first
    | assumption | exact needs_of hp (by decide) | (refine frame_foldl (fun _ _ _ => ?_) _ ?_) | apply frame_ctxWrite
    | simp (disch := (refine rest_intro fun x => ?_; cases x <;> (first | exact Or.inr rfl | exact Or.inl (needs_mem hp (by decide))))) only [frame_mk_tap, frame_mk_grSets]
    | (refine frame_of_fst (by assumption) ?_) | split | dsimp only

theorem frame_weave (hp : Needs [.regs, .tlb, .pools, .mem, .dram, .out] fr) (c : Card) (h : Nat) (t : Stream) (k rows : Nat)
    (bottom : Bool) (hC : Held fr c₀ c) : Held fr c₀ (Card.weave c h t k rows bottom) := by
  unfold Card.weave
  repeat' with_reducible first
    | assumption | exact needs_of hp (by decide) | refine frame_ite ?_ ?_ | apply frame_weavePlane
    | simp (disch := (refine rest_intro fun x => ?_; cases x <;> (first | exact Or.inr rfl | exact Or.inl (needs_mem hp (by decide))))) only [frame_mk_tap, frame_mk_grSets]
    | dsimp only

theorem frames_recSources (hp : Needs [.regs, .out] fr) (l : List (Nat × Nat)) : Holds fr c₀ (Eng.recSources l) := by
  unfold Eng.recSources
  repeat' with_reducible first
    | assumption | exact needs_of hp (by decide) | apply frames_pure | apply frames_throw
    | refine frames_card_bind (fun _ _ => ?_) | refine frames_ite ?_ ?_ | apply frames_card | apply frames_op
    | apply frames_hamper | apply frames_ring | refine frames_upd (fun _ _ => ?_) | apply frames_refuse
    | apply frames_check | apply frames_pagesOr | apply frames_wants | (intro _) | (refine frames_bind ?_ (fun _ => ?_))
    | apply frame_xlFault | refine frame_ite ?_ ?_
    | simp (disch := (refine rest_intro fun x => ?_; cases x <;> (first | exact Or.inr rfl | exact Or.inl (needs_mem hp (by decide))))) only [frame_mk_tap, frame_mk_grSets]
    | dsimp only

theorem frames_recEpoch (hp : Needs [] fr) : Holds fr c₀ (Eng.recEpoch ) := by
  unfold Eng.recEpoch
  repeat' with_reducible first
    | assumption | exact needs_of hp (by decide) | apply frames_pure | apply frames_throw
    | refine frames_card_bind (fun _ _ => ?_) | refine frames_ite ?_ ?_ | apply frames_card | apply frames_op
    | apply frames_hamper | apply frames_ring | (refine frames_bind ?_ (fun _ => ?_)) | split | dsimp only

theorem frames_emitMotionWork (hp : Needs [.regs, .tlb, .dram, .out] fr) : Holds fr c₀ (emitMotionWork ) := by
  unfold emitMotionWork
  repeat' with_reducible first
    | assumption | exact needs_of hp (by decide) | apply frames_pure | apply frames_throw
    | refine frames_card_bind (fun _ _ => ?_) | refine frames_ite ?_ ?_ | apply frames_card | apply frames_op
    | apply frames_hamper | apply frames_ring | apply frames_updOp | apply frames_check | apply frames_rd
    | apply frames_recSources | apply frames_recEpoch | (refine frames_bind ?_ (fun _ => ?_)) | refine frame_ite ?_ ?_
    | simp (disch := (refine rest_intro fun x => ?_; cases x <;> (first | exact Or.inr rfl | exact Or.inl (needs_mem hp (by decide))))) only [frame_mk_tap, frame_mk_grSets]
    | dsimp only

theorem frames_emitWork (hp : Needs [.regs, .tlb, .dram, .out] fr) : Holds fr c₀ (emitWork ) := by
  unfold emitWork
  repeat' with_reducible first
    | assumption | exact needs_of hp (by decide) | apply frames_pure | apply frames_throw
    | refine frames_card_bind (fun _ _ => ?_) | refine frames_ite ?_ ?_ | apply frames_card | apply frames_op
    | apply frames_hamper | apply frames_ring | apply frames_updOp | apply frames_check | apply frames_rd
    | apply frames_recSources | apply frames_recEpoch | (refine frames_bind ?_ (fun _ => ?_)) | refine frame_ite ?_ ?_
    | simp (disch := (refine rest_intro fun x => ?_; cases x <;> (first | exact Or.inr rfl | exact Or.inl (needs_mem hp (by decide))))) only [frame_mk_tap, frame_mk_grSets]
    | dsimp only

theorem frames_searchCheck (hp : Needs [] fr) : Holds fr c₀ (searchCheck ) := by
  unfold searchCheck
  repeat' with_reducible first
    | assumption | exact needs_of hp (by decide) | apply frames_pure | apply frames_throw
    | refine frames_card_bind (fun _ _ => ?_) | refine frames_ite ?_ ?_ | apply frames_card | apply frames_op
    | apply frames_hamper | apply frames_ring | apply frames_updOp | apply frames_refuse | apply frames_check
    | apply frames_precheck | (refine frames_bind ?_ (fun _ => ?_)) | refine frame_ite ?_ ?_
    | simp (disch := (refine rest_intro fun x => ?_; cases x <;> (first | exact Or.inr rfl | exact Or.inl (needs_mem hp (by decide))))) only [frame_mk_tap, frame_mk_grSets]
    | split | dsimp only

theorem frame_setWindow (hp : Needs [.colanders] fr) (c : Card) (m : Nat) (l : List WinLine) (hC : Held fr c₀ c) : Held fr c₀
    (Card.setWindow c m l) := by
  unfold Card.setWindow
  repeat' with_reducible first
    | assumption | exact needs_of hp (by decide)
    | simp (disch := (refine rest_intro fun x => ?_; cases x <;> (first | exact Or.inr rfl | exact Or.inl (needs_mem hp (by decide))))) only [frame_mk_tap, frame_mk_grSets]
    | dsimp only

theorem frame_colUrge (hp : Needs [.colanders] fr) (c : Card) (m : Nat) (hC : Held fr c₀ c) : Held fr c₀ (Card.colUrge c m)
    := by
  unfold Card.colUrge
  repeat' with_reducible first
    | assumption | exact needs_of hp (by decide)
    | simp (disch := (refine rest_intro fun x => ?_; cases x <;> (first | exact Or.inr rfl | exact Or.inl (needs_mem hp (by decide))))) only [frame_mk_tap, frame_mk_grSets]
    | dsimp only

theorem frame_nearTouch (hp : Needs [.regs, .dram] fr) (c : Card) (m : Nat) (e : RegionEnt) (d : Nat) (hC : Held fr c₀ c) :
    Held fr c₀ (Card.nearTouch c m e d) := by
  unfold Card.nearTouch
  repeat' with_reducible first
    | assumption | exact needs_of hp (by decide) | apply frame_bump | apply frame_dramTouch
    | simp (disch := (refine rest_intro fun x => ?_; cases x <;> (first | exact Or.inr rfl | exact Or.inl (needs_mem hp (by decide))))) only [frame_mk_tap, frame_mk_grSets]
    | (refine frame_of_fst (by assumption) ?_) | split | dsimp only

theorem frames_nearLine (hp : Needs [.regs, .tlb, .dram, .colanders] fr) (use : Bool) (va : Nat) : Holds fr c₀ (Eng.nearLine
    use va) := by
  unfold Eng.nearLine
  repeat' with_reducible first
    | assumption | exact needs_of hp (by decide) | apply frames_pure | apply frames_throw
    | refine frames_card_bind (fun _ _ => ?_) | refine frames_ite ?_ ?_ | apply frames_card | apply frames_op
    | apply frames_hamper | apply frames_ring | refine frames_upd (fun _ _ => ?_) | apply frames_refuse
    | apply frames_join | (refine frames_forIn _ _ (fun _ _ => ?_)) | (refine frames_bind ?_ (fun _ => ?_))
    | apply frame_cacheXlate | apply frame_nearTouch | apply frame_setWindow | refine frame_ite ?_ ?_
    | simp (disch := (refine rest_intro fun x => ?_; cases x <;> (first | exact Or.inr rfl | exact Or.inl (needs_mem hp (by decide))))) only [frame_mk_tap, frame_mk_grSets]
    | split | dsimp only

theorem frames_rect (hp : Needs [.regs, .tlb, .dram, .colanders] fr) (p : Plane) (x y w n : Nat) : Holds fr c₀ (Eng.rect p x
    y w n) := by
  unfold Eng.rect
  repeat' with_reducible first
    | assumption | exact needs_of hp (by decide) | apply frames_pure | apply frames_throw
    | refine frames_card_bind (fun _ _ => ?_) | refine frames_ite ?_ ?_ | apply frames_card | apply frames_op
    | apply frames_hamper | apply frames_ring | apply frames_nearLine | (refine frames_mapM _ (fun _ => ?_))
    | (refine frames_bind ?_ (fun _ => ?_)) | dsimp only

theorem frames_blockWork (hp : Needs [.regs, .tlb, .dram, .colanders] fr) (b e : List Byte) : Holds fr c₀ (blockWork b e) :=
    by
  unfold blockWork
  repeat' with_reducible first
    | assumption | exact needs_of hp (by decide) | apply frames_pure | apply frames_throw
    | refine frames_card_bind (fun _ _ => ?_) | refine frames_ite ?_ ?_ | apply frames_card | apply frames_op
    | apply frames_hamper | apply frames_ring | apply frames_rect | (refine frames_bind ?_ (fun _ => ?_)) | split
    | dsimp only

theorem frames_prefetch (hp : Needs [.regs, .tlb, .dram, .colanders] fr) (b : List Byte) (l : List (List Byte)) : Holds fr c₀ (prefetch b l) := by
  induction l with
  | nil => exact frames_pure _
  | cons e t ih =>
    unfold prefetch
    repeat' with_reducible first
      | assumption | exact needs_of hp (by decide) | exact ih | apply frames_pure | refine frames_card_bind (fun _ _ => ?_)
      | refine frames_ite ?_ ?_ | apply frames_hamper | apply frames_op | apply frames_nearLine
      | (refine frames_forIn _ _ (fun _ _ => ?_)) | (refine frames_bind ?_ (fun _ => ?_))
      | simp (disch := (refine rest_intro fun x => ?_; cases x <;> (first | exact Or.inr rfl | exact Or.inl (needs_mem hp (by decide))))) only [frame_mk_tap, frame_mk_grSets]
      | split | dsimp only

theorem frames_searchStep (hp : Needs [.regs, .tlb, .pools, .mem, .dram, .epochs, .links, .colanders, .out] fr) : Holds fr c₀
    (searchStep ) := by
  unfold searchStep
  repeat' with_reducible first
    | assumption | exact needs_of hp (by decide) | apply frames_pure | apply frames_throw
    | refine frames_card_bind (fun _ _ => ?_) | refine frames_ite ?_ ?_ | apply frames_card | apply frames_op
    | apply frames_hamper | apply frames_ring | refine frames_upd (fun _ _ => ?_) | apply frames_updOp | apply frames_wr
    | apply frames_blockWork | apply frames_prefetch | (refine frames_bind ?_ (fun _ => ?_)) | apply frame_bump
    | apply frame_colUrge | refine frame_ite ?_ ?_
    | simp (disch := (refine rest_intro fun x => ?_; cases x <;> (first | exact Or.inr rfl | exact Or.inl (needs_mem hp (by decide))))) only [frame_mk_tap, frame_mk_grSets]
    | dsimp only

theorem frames_searchOpen (hp : Needs [.regs, .tlb, .dram, .colanders] fr) : Holds fr c₀ (searchOpen ) := by
  unfold searchOpen
  repeat' with_reducible first
    | assumption | exact needs_of hp (by decide) | apply frames_pure | apply frames_throw
    | refine frames_card_bind (fun _ _ => ?_) | refine frames_ite ?_ ?_ | apply frames_card | apply frames_op
    | apply frames_hamper | apply frames_ring | refine frames_upd (fun _ _ => ?_) | apply frames_updOp | apply frames_rd
    | (refine frames_bind ?_ (fun _ => ?_)) | apply frame_colUrge | apply frame_setWindow | refine frame_ite ?_ ?_
    | simp (disch := (refine rest_intro fun x => ?_; cases x <;> (first | exact Or.inr rfl | exact Or.inl (needs_mem hp (by decide))))) only [frame_mk_tap, frame_mk_grSets]
    | dsimp only

theorem frame_searchBlock (hp : Needs [.regs, .rings, .hostReads, .tlb, .pools, .mem, .dram, .epochs, .links, .colanders,
    .fresh, .out] fr) (c : Card) (m : Nat) (hC : Held fr c₀ c) : Held fr c₀ (Card.searchBlock c m) := by
  unfold Card.searchBlock
  repeat' with_reducible first
    | assumption | exact needs_of hp (by decide) | apply frame_drawXlate | apply frame_runStep | apply frames_searchStep
    | simp (disch := (refine rest_intro fun x => ?_; cases x <;> (first | exact Or.inr rfl | exact Or.inl (needs_mem hp (by decide))))) only [frame_mk_tap, frame_mk_grSets]
    | (refine frame_of_fst (by assumption) ?_) | split | dsimp only

theorem frame_searchBlocks (hp : Needs [.regs, .rings, .hostReads, .tlb, .pools, .mem, .dram, .epochs, .links, .colanders, .fresh, .out] fr) (m n : Nat) (c : Card) (hC : Held fr c₀ c) :
    Held fr c₀ (Card.searchBlocks m n c) := by
  induction n generalizing c with
  | zero => exact hC
  | succ n ih =>
    unfold Card.searchBlocks
    exact frame_ite hC (ih _ (frame_searchBlock (needs_of hp (by decide)) _ _ hC))

theorem frame_searchEnd (hp : Needs [.regs, .rings, .hostReads, .tlb, .pools, .mem, .dram, .epochs, .links, .colanders,
    .fresh, .out] fr) (c : Card) (m : Nat) (hC : Held fr c₀ c) : Held fr c₀ (Card.searchEnd c m) := by
  unfold Card.searchEnd
  repeat' with_reducible first
    | assumption | exact needs_of hp (by decide) | apply frame_searchBlocks
    | simp (disch := (refine rest_intro fun x => ?_; cases x <;> (first | exact Or.inr rfl | exact Or.inl (needs_mem hp (by decide))))) only [frame_mk_tap, frame_mk_grSets]
    | (refine frame_of_fst (by assumption) ?_) | split | dsimp only

theorem frame_resumeSearch (hp : Needs [.rings, .colanders] fr) (c : Card) (h r : Nat) (o : Op) (hC : Held fr c₀ c) : Held fr
    c₀ (Card.resumeSearch c h r o) := by
  unfold Card.resumeSearch
  repeat' with_reducible first
    | assumption | exact needs_of hp (by decide) | refine frame_ite ?_ ?_ | apply frame_setOp | apply frame_setWindow
    | simp (disch := (refine rest_intro fun x => ?_; cases x <;> (first | exact Or.inr rfl | exact Or.inl (needs_mem hp (by decide))))) only [frame_mk_tap, frame_mk_grSets]
    | (refine frame_of_fst (by assumption) ?_) | split | dsimp only

theorem frame_rpEvent (hp : Needs [.regs, .out] fr) (c : Card) (h b : Nat) (hC : Held fr c₀ c) : Held fr c₀ (Card.rpEvent c h
    b) := by
  unfold Card.rpEvent
  repeat' with_reducible first
    | assumption | exact needs_of hp (by decide) | apply frame_hpEvent
    | simp (disch := (refine rest_intro fun x => ?_; cases x <;> (first | exact Or.inr rfl | exact Or.inl (needs_mem hp (by decide))))) only [frame_mk_tap, frame_mk_grSets]
    | dsimp only

theorem frame_flagNo (hp : Needs [.raster] fr) (c : Card) (h k no b : Nat) (hC : Held fr c₀ c) : Held fr c₀ (Card.flagNo c h
    k no b) := by
  unfold Card.flagNo
  repeat' with_reducible first
    | assumption | exact needs_of hp (by decide) | refine frame_ite ?_ ?_ | apply frame_setVc
    | simp (disch := (refine rest_intro fun x => ?_; cases x <;> (first | exact Or.inr rfl | exact Or.inl (needs_mem hp (by decide))))) only [frame_mk_tap, frame_mk_grSets]
    | dsimp only

theorem frame_rpPut (hp : Needs [.regs, .tlb, .pools, .mem, .dram, .raster, .out] fr) (c : Card) (h k no ctx va : Nat) (bs :
    List Byte) (hC : Held fr c₀ c) : Held fr c₀ (Card.rpPut c h k no ctx va bs) := by
  unfold Card.rpPut
  repeat' with_reducible first
    | assumption | exact needs_of hp (by decide) | apply frame_flagNo | apply frame_vwrite | apply frame_xlFault
    | simp (disch := (refine rest_intro fun x => ?_; cases x <;> (first | exact Or.inr rfl | exact Or.inl (needs_mem hp (by decide))))) only [frame_mk_tap, frame_mk_grSets]
    | (refine frame_of_fst (by assumption) ?_) | split | dsimp only

theorem frame_setRpBuf (hp : Needs [.raster] fr) (c : Card) (h : Nat) (l : List RpWrite) (hC : Held fr c₀ c) : Held fr c₀
    (Card.setRpBuf c h l) := by
  unfold Card.setRpBuf
  repeat' with_reducible first
    | assumption | exact needs_of hp (by decide)
    | simp (disch := (refine rest_intro fun x => ?_; cases x <;> (first | exact Or.inr rfl | exact Or.inl (needs_mem hp (by decide))))) only [frame_mk_tap, frame_mk_grSets]
    | dsimp only

theorem frame_rpRelease (hp : Needs [.regs, .tlb, .pools, .mem, .dram, .raster, .out] fr) (h : Nat) (l : List RpWrite) (c : Card) (hC : Held fr c₀ c) :
    Held fr c₀ (Card.rpRelease h l c).1 := by
  induction l generalizing c with
  | nil => exact hC
  | cons w t ih =>
    unfold Card.rpRelease
    split
    · exact ih _ hC
    · split
      · exact hC
      · exact ih _ (frame_rpPut (needs_of hp (by decide)) _ _ _ _ _ _ _ hC)

theorem frame_rpDrain (hp : Needs [.regs, .tlb, .pools, .mem, .dram, .raster, .out] fr) (c : Card) (h n : Nat) (hC : Held fr
    c₀ c) : Held fr c₀ (Card.rpDrain c h n) := by
  unfold Card.rpDrain
  repeat' with_reducible first
    | assumption | exact needs_of hp (by decide) | apply frame_rpRelease | apply frame_setRpBuf
    | simp (disch := (refine rest_intro fun x => ?_; cases x <;> (first | exact Or.inr rfl | exact Or.inl (needs_mem hp (by decide))))) only [frame_mk_tap, frame_mk_grSets]
    | dsimp only

theorem frame_rpWrite (hp : Needs [.regs, .tlb, .pools, .mem, .dram, .raster, .out] fr) (c : Card) (h k no ctx va bytes :
    Nat) (bs : List Byte) (hC : Held fr c₀ c) : Held fr c₀ (Card.rpWrite c h k no ctx va bytes bs) := by
  unfold Card.rpWrite
  repeat' with_reducible first
    | assumption | exact needs_of hp (by decide) | refine frame_ite ?_ ?_ | apply frame_rpPut | apply frame_setRpBuf
    | simp (disch := (refine rest_intro fun x => ?_; cases x <;> (first | exact Or.inr rfl | exact Or.inl (needs_mem hp (by decide))))) only [frame_mk_tap, frame_mk_grSets]
    | dsimp only

theorem frame_rpRow (hp : Needs [.regs, .tlb, .pools, .mem, .dram, .raster, .out] fr) (c : Card) (h k : Nat) (g : VcCfg) (no
    addr line bytes : Nat) (rows : List (Nat × List Nat)) (hC : Held fr c₀ c) : Held fr c₀ (Card.rpRow c h k g no addr line
    bytes rows) := by
  unfold Card.rpRow
  repeat' with_reducible first
    | assumption | exact needs_of hp (by decide) | refine frame_ite ?_ ?_ | (refine frame_foldl (fun _ _ _ => ?_) _ ?_)
    | apply frame_rpWrite
    | simp (disch := (refine rest_intro fun x => ?_; cases x <;> (first | exact Or.inr rfl | exact Or.inl (needs_mem hp (by decide))))) only [frame_mk_tap, frame_mk_grSets]
    | dsimp only

theorem frame_rpPad (hp : Needs [.regs, .tlb, .pools, .mem, .dram, .raster, .out] fr) (c : Card) (h k : Nat) (g : VcCfg) (no
    addr first : Nat) (hC : Held fr c₀ c) : Held fr c₀ (Card.rpPad c h k g no addr first) := by
  unfold Card.rpPad
  repeat' with_reducible first
    | assumption | exact needs_of hp (by decide) | (refine frame_foldl (fun _ _ _ => ?_) _ ?_) | apply frame_rpRow
    | simp (disch := (refine rest_intro fun x => ?_; cases x <;> (first | exact Or.inr rfl | exact Or.inl (needs_mem hp (by decide))))) only [frame_mk_tap, frame_mk_grSets]
    | dsimp only

theorem frame_latch (hp : Needs [.regs, .tlb, .pools, .mem, .dram, .raster, .out] fr) (c : Card) (h k : Nat) (flags : List
    Nat) (hC : Held fr c₀ c) : Held fr c₀ (Card.latch c h k flags) := by
  unfold Card.latch
  repeat' with_reducible first
    | assumption | exact needs_of hp (by decide) | refine frame_ite ?_ ?_ | (refine frame_foldl (fun _ _ _ => ?_) _ ?_)
    | apply frame_rpPad | apply frame_setVc
    | simp (disch := (refine rest_intro fun x => ?_; cases x <;> (first | exact Or.inr rfl | exact Or.inl (needs_mem hp (by decide))))) only [frame_mk_tap, frame_mk_grSets]
    | (refine frame_of_fst (by assumption) ?_) | split | dsimp only

theorem frame_flagFrame (hp : Needs [.raster] fr) (c : Card) (h k b : Nat) (hC : Held fr c₀ c) : Held fr c₀ (Card.flagFrame c
    h k b) := by
  unfold Card.flagFrame
  repeat' with_reducible first
    | assumption | exact needs_of hp (by decide) | apply frame_flagNo
    | simp (disch := (refine rest_intro fun x => ?_; cases x <;> (first | exact Or.inr rfl | exact Or.inl (needs_mem hp (by decide))))) only [frame_mk_tap, frame_mk_grSets]
    | (refine frame_of_fst (by assumption) ?_) | split | dsimp only

theorem frame_rpHeader (hp : Needs [.regs, .raster, .out] fr) (c : Card) (h k : Nat) (hdr : PktHeader) (go : Card → Card) (hC
    : Held fr c₀ c) (h_go : ∀ c, Held fr c₀ c → Held fr c₀ (go c)) : Held fr c₀ (Card.rpHeader c h k hdr go) := by
  unfold Card.rpHeader
  repeat' with_reducible first
    | assumption | exact needs_of hp (by decide) | apply h_go | apply frame_bump | apply frame_flagFrame | apply frame_rpEvent
    | apply frame_setVc
    | simp (disch := (refine rest_intro fun x => ?_; cases x <;> (first | exact Or.inr rfl | exact Or.inl (needs_mem hp (by decide))))) only [frame_mk_tap, frame_mk_grSets]
    | (refine frame_of_fst (by assumption) ?_) | split | dsimp only

theorem frame_openFrame (hp : Needs [.raster] fr) (c : Card) (h k num : Nat) (hC : Held fr c₀ c) : Held fr c₀ (Card.openFrame
    c h k num) := by
  unfold Card.openFrame
  repeat' with_reducible first
    | assumption | exact needs_of hp (by decide) | refine frame_ite ?_ ?_ | (refine frame_foldl (fun _ _ _ => ?_) _ ?_)
    | apply frame_setVc
    | simp (disch := (refine rest_intro fun x => ?_; cases x <;> (first | exact Or.inr rfl | exact Or.inl (needs_mem hp (by decide))))) only [frame_mk_tap, frame_mk_grSets]
    | dsimp only

theorem frame_dtDrop (hp : Needs [.regs] fr) (c : Card) (h : Nat) (hC : Held fr c₀ c) : Held fr c₀ (Card.dtDrop c h) := by
  unfold Card.dtDrop
  repeat' with_reducible first
    | assumption | exact needs_of hp (by decide) | apply frame_bump
    | simp (disch := (refine rest_intro fun x => ?_; cases x <;> (first | exact Or.inr rfl | exact Or.inl (needs_mem hp (by decide))))) only [frame_mk_tap, frame_mk_grSets]
    | dsimp only

theorem frame_rpLine (hp : Needs [.regs, .tlb, .pools, .mem, .dram, .raster, .out] fr) (c : Card) (h k : Nat) (f : RpFrame)
    (pk : CsiPacket) (hC : Held fr c₀ c) : Held fr c₀ (Card.rpLine c h k f pk) := by
  unfold Card.rpLine
  repeat' with_reducible first
    | assumption | exact needs_of hp (by decide) | refine frame_ite ?_ ?_ | apply frame_bump | apply frame_latch
    | apply frame_rpEvent | apply frame_rpRow | apply frame_setVc
    | simp (disch := (refine rest_intro fun x => ?_; cases x <;> (first | exact Or.inr rfl | exact Or.inl (needs_mem hp (by decide))))) only [frame_mk_tap, frame_mk_grSets]
    | (refine frame_of_fst (by assumption) ?_) | split | dsimp only

theorem frame_linkFall (hp : Needs [.regs, .tlb, .pools, .mem, .dram, .raster, .out] fr) (c : Card) (h : Nat) (hC : Held fr
    c₀ c) : Held fr c₀ (Card.linkFall c h) := by
  unfold Card.linkFall
  repeat' with_reducible first
    | assumption | exact needs_of hp (by decide) | (refine frame_foldl (fun _ _ _ => ?_) _ ?_) | apply frame_latch
    | simp (disch := (refine rest_intro fun x => ?_; cases x <;> (first | exact Or.inr rfl | exact Or.inl (needs_mem hp (by decide))))) only [frame_mk_tap, frame_mk_grSets]
    | dsimp only

theorem frame_setLink (hp : Needs [.regs, .tlb, .pools, .mem, .dram, .raster, .out] fr) (c : Card) (h : Nat) (up hs : Bool)
    (rate : Nat) (hC : Held fr c₀ c) : Held fr c₀ (Card.setLink c h up hs rate) := by
  unfold Card.setLink
  repeat' with_reducible first
    | assumption | exact needs_of hp (by decide) | refine frame_ite ?_ ?_ | apply frame_linkFall | apply frame_rpEvent
    | apply frame_setN
    | simp (disch := (refine rest_intro fun x => ?_; cases x <;> (first | exact Or.inr rfl | exact Or.inl (needs_mem hp (by decide))))) only [frame_mk_tap, frame_mk_grSets]
    | dsimp only

theorem frame_commitLate (hp : Needs [.regs, .out] fr) (c : Card) (h k : Nat) (hC : Held fr c₀ c) : Held fr c₀
    (Card.commitLate c h k) := by
  unfold Card.commitLate
  repeat' with_reducible first
    | assumption | exact needs_of hp (by decide) | apply frame_bump | apply frame_raise | apply frame_setBit
    | simp (disch := (refine rest_intro fun x => ?_; cases x <;> (first | exact Or.inr rfl | exact Or.inl (needs_mem hp (by decide))))) only [frame_mk_tap, frame_mk_grSets]
    | dsimp only

theorem frame_commit (hp : Needs [.regs, .raster, .out] fr) (c : Card) (h k addr : Nat) (hC : Held fr c₀ c) : Held fr c₀
    (Card.commit c h k addr) := by
  unfold Card.commit
  repeat' with_reducible first
    | assumption | exact needs_of hp (by decide) | refine frame_ite ?_ ?_ | apply frame_bump | apply frame_commitLate
    | apply frame_setVc
    | simp (disch := (refine rest_intro fun x => ?_; cases x <;> (first | exact Or.inr rfl | exact Or.inl (needs_mem hp (by decide))))) only [frame_mk_tap, frame_mk_grSets]
    | dsimp only

theorem frames_commitWork (hp : Needs [.regs, .raster, .out] fr) : Holds fr c₀ (commitWork ) := by
  unfold commitWork
  repeat' with_reducible first
    | assumption | exact needs_of hp (by decide) | apply frames_pure | apply frames_throw
    | refine frames_card_bind (fun _ _ => ?_) | refine frames_ite ?_ ?_ | apply frames_card | apply frames_op
    | apply frames_hamper | apply frames_ring | refine frames_upd (fun _ _ => ?_) | apply frames_refuseFree
    | apply frames_check | (refine frames_bind ?_ (fun _ => ?_)) | apply frame_commit | refine frame_ite ?_ ?_
    | simp (disch := (refine rest_intro fun x => ?_; cases x <;> (first | exact Or.inr rfl | exact Or.inl (needs_mem hp (by decide))))) only [frame_mk_tap, frame_mk_grSets]
    | dsimp only

theorem frame_vcOff (hp : Needs [.raster] fr) (c : Card) (h k : Nat) (hC : Held fr c₀ c) : Held fr c₀ (Card.vcOff c h k) :=
    by
  unfold Card.vcOff
  repeat' with_reducible first
    | assumption | exact needs_of hp (by decide) | apply frame_setRpBuf | apply frame_setVc
    | simp (disch := (refine rest_intro fun x => ?_; cases x <;> (first | exact Or.inr rfl | exact Or.inl (needs_mem hp (by decide))))) only [frame_mk_tap, frame_mk_grSets]
    | dsimp only

theorem frames_srcAt (hp : Needs [.regs, .tlb, .dram] fr) (s : Src) (plane : Nat) (x y : Int) : Holds fr c₀ (Eng.srcAt s
    plane x y) := by
  unfold Eng.srcAt
  repeat' with_reducible first
    | assumption | exact needs_of hp (by decide) | apply frames_pure | apply frames_throw
    | refine frames_card_bind (fun _ _ => ?_) | refine frames_ite ?_ ?_ | apply frames_card | apply frames_op
    | apply frames_hamper | apply frames_ring | apply frames_rdNat | (refine frames_bind ?_ (fun _ => ?_)) | dsimp only

theorem frames_sampleAt (hp : Needs [.regs, .tlb, .dram] fr) (s : Src) (plane filter : Nat) (map : Nat → Nat) (ax ay : Axis)
    : Holds fr c₀ (Eng.sampleAt s plane filter map ax ay) := by
  unfold Eng.sampleAt
  repeat' with_reducible first
    | assumption | exact needs_of hp (by decide) | apply frames_pure | apply frames_throw
    | refine frames_card_bind (fun _ _ => ?_) | refine frames_ite ?_ ?_ | apply frames_card | apply frames_op
    | apply frames_hamper | apply frames_ring | apply frames_srcAt | (refine frames_mapM _ (fun _ => ?_))
    | (refine frames_bind ?_ (fun _ => ?_)) | dsimp only

theorem frames_pixel (hp : Needs [.regs, .tlb, .dram] fr) (p : Prep) (s : Src) (q : Smp) (x y : Nat) : Holds fr c₀ (Eng.pixel
    p s q x y) := by
  unfold Eng.pixel
  repeat' with_reducible first
    | assumption | exact needs_of hp (by decide) | apply frames_pure | apply frames_throw
    | refine frames_card_bind (fun _ _ => ?_) | refine frames_ite ?_ ?_ | apply frames_card | apply frames_op
    | apply frames_hamper | apply frames_ring | apply frames_sampleAt | (refine frames_bind ?_ (fun _ => ?_))
    | dsimp only

theorem frames_elems (hp : Needs [.regs, .tlb, .dram] fr) (p : Prep) (s : Src) (q : Smp) (x y : Nat) : Holds fr c₀ (Eng.elems
    p s q x y) := by
  unfold Eng.elems
  repeat' with_reducible first
    | assumption | exact needs_of hp (by decide) | apply frames_pure | apply frames_throw
    | refine frames_card_bind (fun _ _ => ?_) | refine frames_ite ?_ ?_ | apply frames_card | apply frames_op
    | apply frames_hamper | apply frames_ring | apply frames_rd | apply frames_pixel
    | (refine frames_bind ?_ (fun _ => ?_)) | dsimp only

theorem frame_progHold (hp : Needs [.rings] fr) (c : Card) (h r : Nat) (o : Op) (hC : Held fr c₀ c) : Held fr c₀
    (Card.progHold c h r o) := by
  unfold Card.progHold
  repeat' with_reducible first
    | assumption | exact needs_of hp (by decide) | refine frame_ite ?_ ?_ | apply frame_setOp
    | simp (disch := (refine rest_intro fun x => ?_; cases x <;> (first | exact Or.inr rfl | exact Or.inl (needs_mem hp (by decide))))) only [frame_mk_tap, frame_mk_grSets]
    | dsimp only

theorem frames_prepCheck (hp : Needs [.regs, .tlb, .dram] fr) : Holds fr c₀ (prepCheck ) := by
  unfold prepCheck
  repeat' with_reducible first
    | assumption | exact needs_of hp (by decide) | apply frames_pure | apply frames_throw
    | refine frames_card_bind (fun _ _ => ?_) | refine frames_ite ?_ ?_ | apply frames_card | apply frames_op
    | apply frames_hamper | apply frames_ring | apply frames_refuse | apply frames_check | apply frames_rd
    | apply frames_precheck | apply frames_want | apply frames_wants | (refine frames_mapM _ (fun _ => ?_))
    | (refine frames_bind ?_ (fun _ => ?_)) | dsimp only

theorem frames_sampleWork (hp : Needs [.regs, .pace, .tlb, .pools, .mem, .sram, .dram, .memctl, .freeze, .faults, .epochs,
    .links, .out] fr) (p : Prep) (pos idx : Nat) : Holds fr c₀ (sampleWork p pos idx) := by
  unfold sampleWork
  repeat' with_reducible first
    | assumption | exact needs_of hp (by decide) | apply frames_pure | apply frames_throw
    | refine frames_card_bind (fun _ _ => ?_) | refine frames_ite ?_ ?_ | apply frames_card | apply frames_op
    | apply frames_hamper | apply frames_ring | refine frames_upd (fun _ _ => ?_) | apply frames_wr | apply frames_stWr
    | apply frames_elems | (refine frames_mapM _ (fun _ => ?_)) | (refine frames_bind ?_ (fun _ => ?_))
    | apply frame_bump | apply frame_bumpF | refine frame_ite ?_ ?_
    | simp (disch := (refine rest_intro fun x => ?_; cases x <;> (first | exact Or.inr rfl | exact Or.inl (needs_mem hp (by decide))))) only [frame_mk_tap, frame_mk_grSets]
    | split | dsimp only

theorem frames_sampleStep (hp : Needs [.regs, .pace, .tlb, .pools, .mem, .sram, .dram, .memctl, .freeze, .faults, .sched,
    .epochs, .links, .out] fr) : Holds fr c₀ (sampleStep ) := by
  unfold sampleStep
  repeat' with_reducible first
    | assumption | exact needs_of hp (by decide) | apply frames_pure | apply frames_throw
    | refine frames_card_bind (fun _ _ => ?_) | refine frames_ite ?_ ?_ | apply frames_card | apply frames_op
    | apply frames_hamper | apply frames_ring | refine frames_upd (fun _ _ => ?_) | apply frames_updOp
    | apply frames_sampleWork | (refine frames_bind ?_ (fun _ => ?_)) | refine frame_ite ?_ ?_
    | simp (disch := (refine rest_intro fun x => ?_; cases x <;> (first | exact Or.inr rfl | exact Or.inl (needs_mem hp (by decide))))) only [frame_mk_tap, frame_mk_grSets]
    | dsimp only

theorem frames_prepareWork (hp : Needs [.regs, .tlb, .dram] fr) (done : List Nat) : Holds fr c₀ (prepareWork done) := by
  unfold prepareWork
  repeat' with_reducible first
    | assumption | exact needs_of hp (by decide) | apply frames_pure | apply frames_throw
    | refine frames_card_bind (fun _ _ => ?_) | refine frames_ite ?_ ?_ | apply frames_card | apply frames_op
    | apply frames_hamper | apply frames_ring | apply frames_updOp | apply frames_join | apply frames_prepCheck
    | (refine frames_bind ?_ (fun _ => ?_)) | refine frame_ite ?_ ?_
    | simp (disch := (refine rest_intro fun x => ?_; cases x <;> (first | exact Or.inr rfl | exact Or.inl (needs_mem hp (by decide))))) only [frame_mk_tap, frame_mk_grSets]
    | split | dsimp only

theorem frames_passAt (hp : Needs [.regs, .tlb, .dram] fr) (i : Nat) : Holds fr c₀ (Eng.passAt i) := by
  unfold Eng.passAt
  repeat' with_reducible first
    | assumption | exact needs_of hp (by decide) | apply frames_pure | apply frames_throw
    | refine frames_card_bind (fun _ _ => ?_) | refine frames_ite ?_ ?_ | apply frames_card | apply frames_op
    | apply frames_hamper | apply frames_ring | apply frames_refuse | apply frames_failInput | apply frames_rd
    | (refine frames_bind ?_ (fun _ => ?_)) | split | dsimp only

theorem frames_blockRd (hp : Needs [.regs, .pace, .memctl, .freeze, .faults, .fresh, .out] fr) (off n : Nat) : Holds fr c₀
    (Eng.blockRd off n) := by
  unfold Eng.blockRd
  repeat' with_reducible first
    | assumption | exact needs_of hp (by decide) | apply frames_pure | apply frames_throw
    | refine frames_card_bind (fun _ _ => ?_) | refine frames_ite ?_ ?_ | apply frames_card | apply frames_op
    | apply frames_hamper | apply frames_ring | refine frames_upd (fun _ _ => ?_) | apply frames_stRd
    | (refine frames_bind ?_ (fun _ => ?_)) | apply frame_draw | refine frame_ite ?_ ?_
    | simp (disch := (refine rest_intro fun x => ?_; cases x <;> (first | exact Or.inr rfl | exact Or.inl (needs_mem hp (by decide))))) only [frame_mk_tap, frame_mk_grSets]
    | dsimp only

theorem frames_weights (hp : Needs [.regs, .pace, .memctl, .freeze, .faults, .fresh, .out] fr) (p : Pass) : Holds fr c₀
    (Eng.weights p) := by
  unfold Eng.weights
  repeat' with_reducible first
    | assumption | exact needs_of hp (by decide) | apply frames_pure | apply frames_throw
    | refine frames_card_bind (fun _ _ => ?_) | refine frames_ite ?_ ?_ | apply frames_card | apply frames_op
    | apply frames_hamper | apply frames_ring | apply frames_blockRd | (refine frames_bind ?_ (fun _ => ?_))
    | dsimp only

theorem frame_loadShadow (hp : Needs [.regs, .griddle] fr) (c : Card) (h u : Nat) (w : List Byte) (hC : Held fr c₀ c) : Held
    fr c₀ (Card.loadShadow c h u w) := by
  unfold Card.loadShadow
  repeat' with_reducible first
    | assumption | exact needs_of hp (by decide) | refine frame_ite ?_ ?_ | apply frame_setBit | apply frame_setGr
    | simp (disch := (refine rest_intro fun x => ?_; cases x <;> (first | exact Or.inr rfl | exact Or.inl (needs_mem hp (by decide))))) only [frame_mk_tap, frame_mk_grSets]
    | dsimp only

theorem frame_swapSets (hp : Needs [.griddle] fr) (c : Card) (h u : Nat) (be : Bool) (hC : Held fr c₀ c) : Held fr c₀
    (Card.swapSets c h u be) := by
  unfold Card.swapSets
  repeat' with_reducible first
    | assumption | exact needs_of hp (by decide) | apply frame_setGr
    | simp (disch := (refine rest_intro fun x => ?_; cases x <;> (first | exact Or.inr rfl | exact Or.inl (needs_mem hp (by decide))))) only [frame_mk_tap, frame_mk_grSets]
    | dsimp only

theorem frames_loadAhead (hp : Needs [.regs, .pace, .tlb, .dram, .memctl, .freeze, .faults, .griddle, .fresh, .out] fr) (i :
    Nat) : Holds fr c₀ (loadAhead i) := by
  unfold loadAhead
  repeat' with_reducible first
    | assumption | exact needs_of hp (by decide) | apply frames_pure | apply frames_throw
    | refine frames_card_bind (fun _ _ => ?_) | refine frames_ite ?_ ?_ | apply frames_card | apply frames_op
    | apply frames_hamper | apply frames_ring | refine frames_upd (fun _ _ => ?_) | apply frames_updOp
    | apply frames_weights | (refine frames_bind ?_ (fun _ => ?_)) | apply frame_loadShadow | apply frame_readDone
    | refine frame_ite ?_ ?_
    | simp (disch := (refine rest_intro fun x => ?_; cases x <;> (first | exact Or.inr rfl | exact Or.inl (needs_mem hp (by decide))))) only [frame_mk_tap, frame_mk_grSets]
    | split | dsimp only

theorem frames_openPass (hp : Needs [.regs, .pace, .tlb, .dram, .memctl, .freeze, .faults, .griddle, .fresh, .out] fr) (i :
    Nat) (bs : List Byte) : Holds fr c₀ (openPass i bs) := by
  unfold openPass
  repeat' with_reducible first
    | assumption | exact needs_of hp (by decide) | apply frames_pure | apply frames_throw
    | refine frames_card_bind (fun _ _ => ?_) | refine frames_ite ?_ ?_ | apply frames_card | apply frames_op
    | apply frames_hamper | apply frames_ring | apply frames_updOp | apply frames_loadAhead
    | (refine frames_bind ?_ (fun _ => ?_)) | refine frame_ite ?_ ?_
    | simp (disch := (refine rest_intro fun x => ?_; cases x <;> (first | exact Or.inr rfl | exact Or.inl (needs_mem hp (by decide))))) only [frame_mk_tap, frame_mk_grSets]
    | dsimp only

theorem frames_beginPass (hp : Needs [.regs, .pace, .layouts, .tlb, .dram, .memctl, .freeze, .faults, .griddle, .fresh, .out]
    fr) (i : Nat) : Holds fr c₀ (beginPass i) := by
  unfold beginPass
  repeat' with_reducible first
    | assumption | exact needs_of hp (by decide) | apply frames_pure | apply frames_throw
    | refine frames_card_bind (fun _ _ => ?_) | refine frames_ite ?_ ?_ | apply frames_card | apply frames_op
    | apply frames_hamper | apply frames_ring | refine frames_upd (fun _ _ => ?_) | apply frames_passAt
    | apply frames_weights | apply frames_openPass | (refine frames_bind ?_ (fun _ => ?_)) | apply frame_loadShadow
    | apply frame_setGr | apply frame_swapSets | refine frame_ite ?_ ?_
    | simp (disch := (refine rest_intro fun x => ?_; cases x <;> (first | exact Or.inr rfl | exact Or.inl (needs_mem hp (by decide))))) only [frame_mk_tap, frame_mk_grSets]
    | dsimp only

theorem frames_tileRow (hp : Needs [.regs, .pace, .sram, .memctl, .freeze, .faults, .out] fr) (p : Pass) (g : Nat × Nat) (act
    w : List Byte) (m : Nat) : Holds fr c₀ (tileRow p g act w m) := by
  unfold tileRow
  repeat' with_reducible first
    | assumption | exact needs_of hp (by decide) | apply frames_pure | apply frames_throw
    | refine frames_card_bind (fun _ _ => ?_) | refine frames_ite ?_ ?_ | apply frames_card | apply frames_op
    | apply frames_hamper | apply frames_ring | refine frames_upd (fun _ _ => ?_) | apply frames_updOp
    | apply frames_stRd | apply frames_stWr | (refine frames_bind ?_ (fun _ => ?_)) | apply frame_bump
    | apply frame_setBit | refine frame_ite ?_ ?_
    | simp (disch := (refine rest_intro fun x => ?_; cases x <;> (first | exact Or.inr rfl | exact Or.inl (needs_mem hp (by decide))))) only [frame_mk_tap, frame_mk_grSets]
    | dsimp only

theorem frames_tileRows (hp : Needs [.regs, .pace, .sram, .memctl, .freeze, .faults, .out] fr) (q : Pass) (g : Nat × Nat) (act w : List Byte) (l : List Nat) :
    Holds fr c₀ (tileRows q g act w l) := by
  induction l with
  | nil => exact frames_pure _
  | cons m t ih => exact frames_bind (frames_tileRow (needs_of hp (by decide)) _ _ _ _ _) (fun _ => ih)

theorem frames_endPass (hp : Needs [.regs, .pace, .sram, .memctl, .freeze, .faults, .fresh, .out] fr) : Holds fr c₀ (endPass
    ) := by
  unfold endPass
  repeat' with_reducible first
    | assumption | exact needs_of hp (by decide) | apply frames_pure | apply frames_throw
    | refine frames_card_bind (fun _ _ => ?_) | refine frames_ite ?_ ?_ | apply frames_card | apply frames_op
    | apply frames_hamper | apply frames_ring | refine frames_upd (fun _ _ => ?_) | apply frames_updOp
    | apply frames_blockRd | apply frames_tileRows | (refine frames_bind ?_ (fun _ => ?_)) | apply frame_bump
    | apply frame_draw | refine frame_ite ?_ ?_
    | simp (disch := (refine rest_intro fun x => ?_; cases x <;> (first | exact Or.inr rfl | exact Or.inl (needs_mem hp (by decide))))) only [frame_mk_tap, frame_mk_grSets]
    | dsimp only

theorem frame_runPart (hp : Needs [.regs, .rings, .hostReads, .links, .out] fr) (c : Card) (h r : Nat) (o : Op) (work : Eng Unit) (hC : Held fr c₀ c)
    (hW : Holds fr c₀ work) : Held fr c₀ (Card.runPart c h r o work) :=
  frame_runStep (needs_of hp (by decide)) _ _ _ _ _ _ hC hW

theorem frames_runStart (hp : Needs [.regs, .pace, .layouts, .tlb, .dram, .memctl, .freeze, .faults, .griddle, .fresh, .out]
    fr) : Holds fr c₀ (runStart ) := by
  unfold runStart
  repeat' with_reducible first
    | assumption | exact needs_of hp (by decide) | apply frames_pure | apply frames_throw
    | refine frames_card_bind (fun _ _ => ?_) | refine frames_ite ?_ ?_ | apply frames_card | apply frames_op
    | apply frames_hamper | apply frames_ring | apply frames_check | apply frames_beginPass
    | (refine frames_bind ?_ (fun _ => ?_)) | dsimp only

theorem frames_runAhead (hp : Needs [.regs, .pace, .tlb, .dram, .memctl, .freeze, .faults, .griddle, .fresh, .out] fr) (u :
    Nat) : Holds fr c₀ (runAhead u) := by
  unfold runAhead
  repeat' with_reducible first
    | assumption | exact needs_of hp (by decide) | apply frames_pure | apply frames_throw
    | refine frames_card_bind (fun _ _ => ?_) | refine frames_ite ?_ ?_ | apply frames_card | apply frames_op
    | apply frames_hamper | apply frames_ring | refine frames_upd (fun _ _ => ?_) | apply frames_updOp
    | apply frames_check | apply frames_passAt | apply frames_weights | (refine frames_bind ?_ (fun _ => ?_))
    | apply frame_loadShadow | refine frame_ite ?_ ?_
    | simp (disch := (refine rest_intro fun x => ?_; cases x <;> (first | exact Or.inr rfl | exact Or.inl (needs_mem hp (by decide))))) only [frame_mk_tap, frame_mk_grSets]
    | dsimp only

theorem frame_makeDue (hp : Needs [.regs, .pace, .rings, .hostReads, .tlb, .dram, .memctl, .freeze, .faults, .links,
    .griddle, .fresh, .out] fr) (c : Card) (h r : Nat) (o : Op) (u : Nat) (hC : Held fr c₀ c) : Held fr c₀ (Card.makeDue c h
    r o u) := by
  unfold Card.makeDue
  repeat' with_reducible first
    | assumption | exact needs_of hp (by decide) | refine frame_ite ?_ ?_ | apply frame_draw | apply frame_drawXlate
    | apply frame_runPart | apply frame_setOp | apply frames_runAhead
    | simp (disch := (refine rest_intro fun x => ?_; cases x <;> (first | exact Or.inr rfl | exact Or.inl (needs_mem hp (by decide))))) only [frame_mk_tap, frame_mk_grSets]
    | (refine frame_of_fst (by assumption) ?_) | split | dsimp only

theorem frame_resumePaused (hp : Needs [.regs, .pace, .layouts, .rings, .hostReads, .tlb, .dram, .memctl, .freeze, .faults,
    .links, .griddle, .fresh, .out] fr) (c : Card) (h u : Nat) (hC : Held fr c₀ c) : Held fr c₀ (Card.resumePaused c h u) :=
    by
  unfold Card.resumePaused
  repeat' with_reducible first
    | assumption | exact needs_of hp (by decide) | refine frame_ite ?_ ?_ | apply frame_bump | apply frame_chargeWait
    | apply frame_runPart | apply frame_setGr | apply frame_setOp | apply frame_swapSets | apply frames_beginPass
    | simp (disch := (refine rest_intro fun x => ?_; cases x <;> (first | exact Or.inr rfl | exact Or.inl (needs_mem hp (by decide))))) only [frame_mk_tap, frame_mk_grSets]
    | (refine frame_of_fst (by assumption) ?_) | split | dsimp only

theorem frame_preempt (hp : Needs [.regs, .pace, .rings, .hostReads, .tlb, .dram, .memctl, .freeze, .faults, .sched, .links,
    .griddle, .fresh, .out] fr) (c : Card) (h r : Nat) (be : Op) (r' : Nat) (lc : Op) (hC : Held fr c₀ c) : Held fr c₀
    (Card.preempt c h r be r' lc) := by
  unfold Card.preempt
  repeat' with_reducible first
    | assumption | exact needs_of hp (by decide) | apply frame_bump | apply frame_chargeCount | apply frame_runPart
    | apply frame_setOp | apply frame_startOp | apply frame_swapSets | apply frames_openPass
    | simp (disch := (refine rest_intro fun x => ?_; cases x <;> (first | exact Or.inr rfl | exact Or.inl (needs_mem hp (by decide))))) only [frame_mk_tap, frame_mk_grSets]
    | dsimp only

theorem frame_nextPass (hp : Needs [.regs, .pace, .layouts, .rings, .hostReads, .tlb, .dram, .memctl, .freeze, .faults,
    .links, .griddle, .fresh, .out] fr) (c : Card) (h r : Nat) (o : Op) (hC : Held fr c₀ c) : Held fr c₀ (Card.nextPass c h r
    o) := by
  unfold Card.nextPass
  repeat' with_reducible first
    | assumption | exact needs_of hp (by decide) | refine frame_ite ?_ ?_ | apply frame_resumePaused | apply frame_runPart
    | apply frames_beginPass
    | simp (disch := (refine rest_intro fun x => ?_; cases x <;> (first | exact Or.inr rfl | exact Or.inl (needs_mem hp (by decide))))) only [frame_mk_tap, frame_mk_grSets]
    | (refine frame_of_fst (by assumption) ?_) | split | dsimp only

theorem frame_setSync (hp : Needs [.regs] fr) (c : Card) (v : Nat) (hC : Held fr c₀ c) : Held fr c₀ (Card.setSync c v) := by
  unfold Card.setSync
  repeat' with_reducible first
    | assumption | exact needs_of hp (by decide) | apply frame_setF
    | simp (disch := (refine rest_intro fun x => ?_; cases x <;> (first | exact Or.inr rfl | exact Or.inl (needs_mem hp (by decide))))) only [frame_mk_tap, frame_mk_grSets]
    | dsimp only

theorem frame_discipline (hp : Needs [.time, .regs] fr) (c : Card) (offset : Int) (ms : Nat) (hC : Held fr c₀ c) : Held fr c₀
    (Card.discipline c offset ms) := by
  unfold Card.discipline
  repeat' with_reducible first
    | assumption | exact needs_of hp (by decide) | refine frame_ite ?_ ?_ | apply frame_bumpF | apply frame_setBit
    | apply frame_setN | apply frame_setSync
    | simp (disch := (refine rest_intro fun x => ?_; cases x <;> (first | exact Or.inr rfl | exact Or.inl (needs_mem hp (by decide))))) only [frame_mk_tap, frame_mk_grSets]
    | dsimp only

theorem frame_missedInterval (hp : Needs [.time, .regs] fr) (c : Card) (hC : Held fr c₀ c) : Held fr c₀ (Card.missedInterval
    c) := by
  unfold Card.missedInterval
  repeat' with_reducible first
    | assumption | exact needs_of hp (by decide) | refine frame_ite ?_ ?_ | apply frame_setSync
    | simp (disch := (refine rest_intro fun x => ?_; cases x <;> (first | exact Or.inr rfl | exact Or.inl (needs_mem hp (by decide))))) only [frame_mk_tap, frame_mk_grSets]
    | dsimp only

theorem frame_paceMiss (hp : Needs [.regs, .pace, .epochs, .records, .streams, .out] fr) (c : Card) (h fig : Nat) (hC : Held
    fr c₀ c) : Held fr c₀ (Card.paceMiss c h fig) := by
  unfold Card.paceMiss
  repeat' with_reducible first
    | assumption | exact needs_of hp (by decide) | refine frame_ite ?_ ?_ | (refine frame_foldl (fun _ _ _ => ?_) _ ?_)
    | apply frame_setStream | apply frame_streamEvent
    | simp (disch := (refine rest_intro fun x => ?_; cases x <;> (first | exact Or.inr rfl | exact Or.inl (needs_mem hp (by decide))))) only [frame_mk_tap, frame_mk_grSets]
    | (refine frame_of_fst (by assumption) ?_) | split | dsimp only

theorem frame_countPaceWin (hp : Needs [.streams] fr) (c : Card) (h : Nat) (hC : Held fr c₀ c) : Held fr c₀
    (Card.countPaceWin c h) := by
  unfold Card.countPaceWin
  repeat' with_reducible first
    | assumption | exact needs_of hp (by decide) | (refine frame_foldl (fun _ _ _ => ?_) _ ?_) | apply frame_setStream
    | simp (disch := (refine rest_intro fun x => ?_; cases x <;> (first | exact Or.inr rfl | exact Or.inl (needs_mem hp (by decide))))) only [frame_mk_tap, frame_mk_grSets]
    | dsimp only

theorem frame_endWindow (hp : Needs [.regs, .pace, .epochs, .records, .streams, .out] fr) (c : Card) (h : Nat) (held : Bool)
    (hC : Held fr c₀ c) : Held fr c₀ (Card.endWindow c h held) := by
  unfold Card.endWindow
  repeat' with_reducible first
    | assumption | exact needs_of hp (by decide) | refine frame_ite ?_ ?_ | apply frame_bump | apply frame_countPaceWin
    | apply frame_paceMiss | apply frame_raise | apply frame_setN | apply frame_setPace
    | simp (disch := (refine rest_intro fun x => ?_; cases x <;> (first | exact Or.inr rfl | exact Or.inl (needs_mem hp (by decide))))) only [frame_mk_tap, frame_mk_grSets]
    | dsimp only

theorem frame_avsSend (hp : Needs [.pace, .power, .out] fr) (c : Card) (mv : Nat) (hC : Held fr c₀ c) : Held fr c₀
    (Card.avsSend c mv) := by
  unfold Card.avsSend
  repeat' with_reducible first
    | assumption | exact needs_of hp (by decide) | refine frame_ite ?_ ?_ | apply frame_emit
    | simp (disch := (refine rest_intro fun x => ?_; cases x <;> (first | exact Or.inr rfl | exact Or.inl (needs_mem hp (by decide))))) only [frame_mk_tap, frame_mk_grSets]
    | dsimp only

theorem frame_voltageStep (hp : Needs [.pace, .power, .out] fr) (c : Card) (slipped : Bool) (hC : Held fr c₀ c) : Held fr c₀
    (Card.voltageStep c slipped) := by
  unfold Card.voltageStep
  repeat' with_reducible first
    | assumption | exact needs_of hp (by decide) | refine frame_ite ?_ ?_ | (refine frame_foldl (fun _ _ _ => ?_) _ ?_)
    | apply frame_avsSend | apply frame_setPace
    | simp (disch := (refine rest_intro fun x => ?_; cases x <;> (first | exact Or.inr rfl | exact Or.inl (needs_mem hp (by decide))))) only [frame_mk_tap, frame_mk_grSets]
    | dsimp only

theorem frame_openWindow (hp : Needs [.pace] fr) (c : Card) (fin : Nat) (hC : Held fr c₀ c) : Held fr c₀ (Card.openWindow c
    fin) := by
  unfold Card.openWindow
  repeat' with_reducible first
    | assumption | exact needs_of hp (by decide)
    | simp (disch := (refine rest_intro fun x => ?_; cases x <;> (first | exact Or.inr rfl | exact Or.inl (needs_mem hp (by decide))))) only [frame_mk_tap, frame_mk_grSets]
    | dsimp only

theorem frame_notePoint (hp : Needs [.pace] fr) (c : Card) (hC : Held fr c₀ c) : Held fr c₀ (Card.notePoint c) := by
  unfold Card.notePoint
  repeat' with_reducible first
    | assumption | exact needs_of hp (by decide)
    | simp (disch := (refine rest_intro fun x => ?_; cases x <;> (first | exact Or.inr rfl | exact Or.inl (needs_mem hp (by decide))))) only [frame_mk_tap, frame_mk_grSets]
    | dsimp only

theorem frame_portEvent (hp : Needs [.regs, .out] fr) (c : Card) (p b : Nat) (hC : Held fr c₀ c) : Held fr c₀ (Card.portEvent
    c p b) := by
  unfold Card.portEvent
  repeat' with_reducible first
    | assumption | exact needs_of hp (by decide) | apply frame_event
    | simp (disch := (refine rest_intro fun x => ?_; cases x <;> (first | exact Or.inr rfl | exact Or.inl (needs_mem hp (by decide))))) only [frame_mk_tap, frame_mk_grSets]
    | dsimp only

theorem frame_remoteDone (hp : Needs [.regs, .links, .out] fr) (c : Card) (x : Remote) (hC : Held fr c₀ c) : Held fr c₀
    (Card.remoteDone c x) := by
  unfold Card.remoteDone
  repeat' with_reducible first
    | assumption | exact needs_of hp (by decide) | apply frame_pumpPort
    | simp (disch := (refine rest_intro fun x => ?_; cases x <;> (first | exact Or.inr rfl | exact Or.inl (needs_mem hp (by decide))))) only [frame_mk_tap, frame_mk_grSets]
    | dsimp only

theorem frame_remoteFail (hp : Needs [.regs, .rings, .links, .out] fr) (c : Card) (x : Remote) (detail : Nat) (hC : Held fr
    c₀ c) : Held fr c₀ (Card.remoteFail c x detail) := by
  unfold Card.remoteFail
  repeat' with_reducible first
    | assumption | exact needs_of hp (by decide) | refine frame_ite ?_ ?_ | apply frame_remoteDone | apply frame_setOp
    | apply frame_xlFault
    | simp (disch := (refine rest_intro fun x => ?_; cases x <;> (first | exact Or.inr rfl | exact Or.inl (needs_mem hp (by decide))))) only [frame_mk_tap, frame_mk_grSets]
    | (refine frame_of_fst (by assumption) ?_) | split | dsimp only

theorem frame_portFail (hp : Needs [.regs, .rings, .links, .out] fr) (c : Card) (p : Nat) (hC : Held fr c₀ c) : Held fr c₀
    (Card.portFail c p) := by
  unfold Card.portFail
  repeat' with_reducible first
    | assumption | exact needs_of hp (by decide) | (refine frame_foldl (fun _ _ _ => ?_) _ ?_) | apply frame_remoteFail
    | simp (disch := (refine rest_intro fun x => ?_; cases x <;> (first | exact Or.inr rfl | exact Or.inl (needs_mem hp (by decide))))) only [frame_mk_tap, frame_mk_grSets]
    | dsimp only

theorem frame_replayFrom (hp : Needs [.regs, .links, .out] fr) (c : Card) (p : Nat) (from_ : Nat) (hC : Held fr c₀ c) : Held
    fr c₀ (Card.replayFrom c p from_) := by
  unfold Card.replayFrom
  repeat' with_reducible first
    | assumption | exact needs_of hp (by decide) | refine frame_ite ?_ ?_ | (refine frame_foldl (fun _ _ _ => ?_) _ ?_)
    | apply frame_bump | apply frame_emit | apply frame_setPort
    | simp (disch := (refine rest_intro fun x => ?_; cases x <;> (first | exact Or.inr rfl | exact Or.inl (needs_mem hp (by decide))))) only [frame_mk_tap, frame_mk_grSets]
    | dsimp only

theorem frame_retrain (hp : Needs [.regs, .links, .out] fr) (c : Card) (p : Nat) (hC : Held fr c₀ c) : Held fr c₀
    (Card.retrain c p) := by
  unfold Card.retrain
  repeat' with_reducible first
    | assumption | exact needs_of hp (by decide) | refine frame_ite ?_ ?_ | apply frame_bump | apply frame_portEvent
    | apply frame_setF | apply frame_setPort
    | simp (disch := (refine rest_intro fun x => ?_; cases x <;> (first | exact Or.inr rfl | exact Or.inl (needs_mem hp (by decide))))) only [frame_mk_tap, frame_mk_grSets]
    | dsimp only

theorem frame_dvBody (hp : Needs [.regs, .rings, .links, .out] fr) (c : Card) (q : Nat) (b : DvBody) (hC : Held fr c₀ c) :
    Held fr c₀ (Card.dvBody c q b) := by
  unfold Card.dvBody
  repeat' with_reducible first
    | assumption | exact needs_of hp (by decide) | apply frame_setOp | apply frame_remoteDone | apply frame_remoteFail
    | apply frame_sendPacket | refine frame_ite ?_ ?_
    | simp (disch := (refine rest_intro fun x => ?_; cases x <;> (first | exact Or.inr rfl | exact Or.inl (needs_mem hp (by decide))))) only [frame_mk_tap, frame_mk_grSets]
    | split | dsimp only

theorem frame_denyRemote (hp : Needs [.regs, .links, .out] fr) (c : Card) (p id : Nat) (hC : Held fr c₀ c) : Held fr c₀
    (Card.denyRemote c p id) := by
  unfold Card.denyRemote
  repeat' with_reducible first
    | assumption | exact needs_of hp (by decide) | apply frame_bump | apply frame_portEvent | apply frame_sendPacket
    | (rw [id_eq]; assumption)
    | simp (disch := (refine rest_intro fun x => ?_; cases x <;> (first | exact Or.inr rfl | exact Or.inl (needs_mem hp (by decide))))) only [frame_mk_tap, frame_mk_grSets]
    | dsimp only

theorem frame_serveRemote (hp : Needs [.regs, .mem, .dram, .links, .out] fr) (c : Card) (p id : Nat) (e : RegionEnt) (d len :
    Nat) (wdata : Option (List Byte)) (hC : Held fr c₀ c) : Held fr c₀ (Card.serveRemote c p id e d len wdata) := by
  unfold Card.serveRemote
  repeat' with_reducible first
    | assumption | exact needs_of hp (by decide) | apply frame_denyRemote | apply frame_sendPacket | apply frame_touch
    | apply frame_wrRegion | (rw [id_eq]; assumption)
    | simp (disch := (refine rest_intro fun x => ?_; cases x <;> (first | exact Or.inr rfl | exact Or.inl (needs_mem hp (by decide))))) only [frame_mk_tap, frame_mk_grSets]
    | (refine frame_of_fst (by assumption) ?_) | split | dsimp only

theorem frame_releaseOne (hp : Needs [.regs, .config, .pace, .rings, .sems, .hostReads, .mem, .sram, .dram, .memctl, .freeze,
    .faults, .epochs, .records, .links, .keep, .fresh, .out] fr) (c : Card) (x : HeldAccess) (hC : Held fr c₀ c) : Held fr c₀
    (Card.releaseOne c x) := by
  unfold Card.releaseOne
  repeat' with_reducible first
    | assumption | exact needs_of hp (by decide) | refine frame_ite ?_ ?_ | apply frame_aperDo | apply frame_denyRemote
    | apply frame_emit | apply frame_ringBell | apply frame_serveRemote | apply frame_zeroRows
    | (rw [id_eq]; assumption)
    | simp (disch := (refine rest_intro fun x => ?_; cases x <;> (first | exact Or.inr rfl | exact Or.inl (needs_mem hp (by decide))))) only [frame_mk_tap, frame_mk_grSets]
    | (refine frame_of_fst (by assumption) ?_) | split | dsimp only

theorem frame_releaseAll (hp : Needs [.regs, .config, .pace, .rings, .sems, .hostReads, .mem, .sram, .dram, .memctl, .freeze,
    .faults, .epochs, .records, .links, .keep, .fresh, .out] fr) (c : Card) (hC : Held fr c₀ c) : Held fr c₀ (Card.releaseAll
    c) := by
  unfold Card.releaseAll
  repeat' with_reducible first
    | assumption | exact needs_of hp (by decide) | (refine frame_foldl (fun _ _ _ => ?_) _ ?_) | apply frame_releaseOne
    | simp (disch := (refine rest_intro fun x => ?_; cases x <;> (first | exact Or.inr rfl | exact Or.inl (needs_mem hp (by decide))))) only [frame_mk_tap, frame_mk_grSets]
    | dsimp only

theorem frame_putMessage (hp : Needs [.regs, .sems, .mem, .dram, .links, .out] fr) (c : Card) (p : Nat) (m : HeldMsg) (hC :
    Held fr c₀ c) : Held fr c₀ (Card.putMessage c p m) := by
  unfold Card.putMessage
  repeat' with_reducible first
    | assumption | exact needs_of hp (by decide) | apply frame_semApply | apply frame_sendPacket | apply frame_setN
    | apply frame_touch | apply frame_wrRegion
    | simp (disch := (refine rest_intro fun x => ?_; cases x <;> (first | exact Or.inr rfl | exact Or.inl (needs_mem hp (by decide))))) only [frame_mk_tap, frame_mk_grSets]
    | (refine frame_of_fst (by assumption) ?_) | split | dsimp only

theorem frame_pumpMsgs (hp : Needs [.regs, .sems, .mem, .dram, .links, .out] fr) (q fuel : Nat) (c : Card) (hC : Held fr c₀ c) :
    Held fr c₀ (Card.pumpMsgs q fuel c) := by
  induction fuel generalizing c with
  | zero => exact hC
  | succ n ih =>
    unfold Card.pumpMsgs
    repeat' with_reducible first
      | assumption | exact needs_of hp (by decide) | apply ih | apply frame_putMessage | apply frame_setPort
      | refine frame_ite ?_ ?_
      | simp (disch := (refine rest_intro fun x => ?_; cases x <;> (first | exact Or.inr rfl | exact Or.inl (needs_mem hp (by decide))))) only [frame_mk_tap, frame_mk_grSets]
      | split | dsimp only

theorem frame_denyHeld (hp : Needs [.regs, .links, .out] fr) (c : Card) (p : Nat) (hC : Held fr c₀ c) : Held fr c₀
    (Card.denyHeld c p) := by
  unfold Card.denyHeld
  repeat' with_reducible first
    | assumption | exact needs_of hp (by decide) | (refine frame_foldl (fun _ _ _ => ?_) _ ?_) | apply frame_denyRemote
    | apply frame_setPort
    | simp (disch := (refine rest_intro fun x => ?_; cases x <;> (first | exact Or.inr rfl | exact Or.inl (needs_mem hp (by decide))))) only [frame_mk_tap, frame_mk_grSets]
    | dsimp only

theorem frame_recheckMsg (hp : Needs [.regs, .links, .out] fr) (c : Card) (h p : Nat) (hC : Held fr c₀ c) : Held fr c₀
    (Card.recheckMsg c h p) := by
  unfold Card.recheckMsg
  repeat' with_reducible first
    | assumption | exact needs_of hp (by decide) | refine frame_ite ?_ ?_ | apply frame_denyHeld | apply frame_portEvent
    | apply frame_setBit
    | simp (disch := (refine rest_intro fun x => ?_; cases x <;> (first | exact Or.inr rfl | exact Or.inl (needs_mem hp (by decide))))) only [frame_mk_tap, frame_mk_grSets]
    | dsimp only

theorem frame_noteCheck (hp : Needs [.regs] fr) (c : Card) (h : Nat) (l : Layout) (hC : Held fr c₀ c) : Held fr c₀
    (Card.noteCheck c h l) := by
  unfold Card.noteCheck
  repeat' with_reducible first
    | assumption | exact needs_of hp (by decide) | apply frame_setBit
    | simp (disch := (refine rest_intro fun x => ?_; cases x <;> (first | exact Or.inr rfl | exact Or.inl (needs_mem hp (by decide))))) only [frame_mk_tap, frame_mk_grSets]
    | dsimp only

theorem frame_noteImage (hp : Needs [.regs] fr) (c : Card) (h : Nat) (img : List Byte) (hC : Held fr c₀ c) : Held fr c₀
    (Card.noteImage c h img) := by
  unfold Card.noteImage
  repeat' with_reducible first
    | assumption | exact needs_of hp (by decide) | refine frame_ite ?_ ?_ | apply frame_noteCheck | apply frame_setBit
    | simp (disch := (refine rest_intro fun x => ?_; cases x <;> (first | exact Or.inr rfl | exact Or.inl (needs_mem hp (by decide))))) only [frame_mk_tap, frame_mk_grSets]
    | dsimp only

theorem frame_loaderResult (hp : Needs [.regs, .out] fr) (c : Card) (code off : Nat) (hC : Held fr c₀ c) : Held fr c₀
    (Card.loaderResult c code off) := by
  unfold Card.loaderResult
  repeat' with_reducible first
    | assumption | exact needs_of hp (by decide) | apply frame_raise | apply frame_setBit | apply frame_setF
    | simp (disch := (refine rest_intro fun x => ?_; cases x <;> (first | exact Or.inr rfl | exact Or.inl (needs_mem hp (by decide))))) only [frame_mk_tap, frame_mk_grSets]
    | dsimp only

theorem frame_lastResult (hp : Needs [.regs] fr) (c : Card) (h code : Nat) (hC : Held fr c₀ c) : Held fr c₀ (Card.lastResult
    c h code) := by
  unfold Card.lastResult
  repeat' with_reducible first
    | assumption | exact needs_of hp (by decide) | apply frame_setF
    | simp (disch := (refine rest_intro fun x => ?_; cases x <;> (first | exact Or.inr rfl | exact Or.inl (needs_mem hp (by decide))))) only [frame_mk_tap, frame_mk_grSets]
    | dsimp only

theorem frame_holdRetain (hp : Needs [.regs] fr) (c : Card) (hC : Held fr c₀ c) : Held fr c₀ (Card.holdRetain c) := by
  unfold Card.holdRetain
  repeat' with_reducible first
    | assumption | exact needs_of hp (by decide) | (refine frame_foldl (fun _ _ _ => ?_) _ ?_) | apply frame_setReg
    | simp (disch := (refine rest_intro fun x => ?_; cases x <;> (first | exact Or.inr rfl | exact Or.inl (needs_mem hp (by decide))))) only [frame_mk_tap, frame_mk_grSets]
    | dsimp only

theorem frame_fillWindow (hp : Needs [.regs] fr) (c : Card) (img : List Byte) (hC : Held fr c₀ c) : Held fr c₀
    (Card.fillWindow c img) := by
  unfold Card.fillWindow
  repeat' with_reducible first
    | assumption | exact needs_of hp (by decide) | (refine frame_foldl (fun _ _ _ => ?_) _ ?_) | apply frame_setN
    | simp (disch := (refine rest_intro fun x => ?_; cases x <;> (first | exact Or.inr rfl | exact Or.inl (needs_mem hp (by decide))))) only [frame_mk_tap, frame_mk_grSets]
    | dsimp only

theorem frame_loaderGo (hp : Needs [.regs, .out] fr) (c : Card) (cmd h : Nat) (go : Card → Card) (hC : Held fr c₀ c) (h_go :
    ∀ c, Held fr c₀ c → Held fr c₀ (go c)) : Held fr c₀ (Card.loaderGo c cmd h go) := by
  unfold Card.loaderGo
  repeat' with_reducible first
    | assumption | exact needs_of hp (by decide) | apply h_go | refine frame_ite ?_ ?_ | apply frame_bump
    | apply frame_loaderResult | apply frame_setF
    | simp (disch := (refine rest_intro fun x => ?_; cases x <;> (first | exact Or.inr rfl | exact Or.inl (needs_mem hp (by decide))))) only [frame_mk_tap, frame_mk_grSets]
    | dsimp only

theorem frame_loaderStart (hp : Needs [.regs, .layouts] fr) (c : Card) (cmd h : Nat) (hC : Held fr c₀ c) : Held fr c₀
    (Card.loaderStart c cmd h) := by
  unfold Card.loaderStart
  repeat' with_reducible first
    | assumption | exact needs_of hp (by decide) | apply frame_setBit
    | simp (disch := (refine rest_intro fun x => ?_; cases x <;> (first | exact Or.inr rfl | exact Or.inl (needs_mem hp (by decide))))) only [frame_mk_tap, frame_mk_grSets]
    | dsimp only

theorem frame_loaderIdle (hp : Needs [.layouts] fr) (c : Card) (hC : Held fr c₀ c) : Held fr c₀ (Card.loaderIdle c) := by
  unfold Card.loaderIdle
  repeat' with_reducible first
    | assumption | exact needs_of hp (by decide)
    | simp (disch := (refine rest_intro fun x => ?_; cases x <;> (first | exact Or.inr rfl | exact Or.inl (needs_mem hp (by decide))))) only [frame_mk_tap, frame_mk_grSets]
    | dsimp only

theorem frame_stageImage (hp : Needs [.keep] fr) (c : Card) (h : Nat) (img : List Byte) (hC : Held fr c₀ c) : Held fr c₀
    (Card.stageImage c h img) := by
  unfold Card.stageImage
  repeat' with_reducible first
    | assumption | exact needs_of hp (by decide)
    | simp (disch := (refine rest_intro fun x => ?_; cases x <;> (first | exact Or.inr rfl | exact Or.inl (needs_mem hp (by decide))))) only [frame_mk_tap, frame_mk_grSets]
    | dsimp only

theorem frame_loaderEnd (hp : Needs [.regs, .out] fr) (c : Card) (h code : Nat) (hC : Held fr c₀ c) : Held fr c₀
    (Card.loaderEnd c h code) := by
  unfold Card.loaderEnd
  repeat' with_reducible first
    | assumption | exact needs_of hp (by decide) | apply frame_lastResult | apply frame_loaderResult
    | simp (disch := (refine rest_intro fun x => ?_; cases x <;> (first | exact Or.inr rfl | exact Or.inl (needs_mem hp (by decide))))) only [frame_mk_tap, frame_mk_grSets]
    | dsimp only

theorem frame_makePending (hp : Needs [.regs, .functions, .layouts] fr) (c : Card) (h : Nat) (l : Layout) (hC : Held fr c₀ c)
    : Held fr c₀ (Card.makePending c h l) := by
  unfold Card.makePending
  repeat' with_reducible first
    | assumption | exact needs_of hp (by decide) | refine frame_ite ?_ ?_ | apply frame_holdRetain | apply frame_setBit
    | apply frame_setFn | apply frame_setN
    | simp (disch := (refine rest_intro fun x => ?_; cases x <;> (first | exact Or.inr rfl | exact Or.inl (needs_mem hp (by decide))))) only [frame_mk_tap, frame_mk_grSets]
    | dsimp only

theorem frame_zeroFill (hp : Needs [.regs, .mem, .dram, .memctl] fr) (c : Card) (h : Nat) (l : List RegionEnt) (hC : Held fr
    c₀ c) : Held fr c₀ (Card.zeroFill c h l) := by
  unfold Card.zeroFill
  repeat' with_reducible first
    | assumption | exact needs_of hp (by decide) | refine frame_ite ?_ ?_ | apply frame_zeroRows
    | simp (disch := (refine rest_intro fun x => ?_; cases x <;> (first | exact Or.inr rfl | exact Or.inl (needs_mem hp (by decide))))) only [frame_mk_tap, frame_mk_grSets]
    | (refine frame_of_fst (by assumption) ?_) | split | dsimp only

theorem frame_dropAperture (hp : Needs [.regs] fr) (c : Card) (hC : Held fr c₀ c) : Held fr c₀ (Card.dropAperture c) := by
  unfold Card.dropAperture
  repeat' with_reducible first
    | assumption | exact needs_of hp (by decide) | refine frame_ite ?_ ?_ | (refine frame_foldl (fun _ _ _ => ?_) _ ?_)
    | apply frame_setBit
    | simp (disch := (refine rest_intro fun x => ?_; cases x <;> (first | exact Or.inr rfl | exact Or.inl (needs_mem hp (by decide))))) only [frame_mk_tap, frame_mk_grSets]
    | dsimp only

theorem frame_applySpares (hp : Needs [.regs] fr) (c : Card) (old : Option Layout) (l : Layout) (hC : Held fr c₀ c) : Held fr
    c₀ (Card.applySpares c old l) := by
  unfold Card.applySpares
  repeat' with_reducible first
    | assumption | exact needs_of hp (by decide) | refine frame_ite ?_ ?_ | (refine frame_foldl (fun _ _ _ => ?_) _ ?_)
    | apply frame_setRank
    | simp (disch := (refine rest_intro fun x => ?_; cases x <;> (first | exact Or.inr rfl | exact Or.inl (needs_mem hp (by decide))))) only [frame_mk_tap, frame_mk_grSets]
    | dsimp only

theorem frame_fnReady (hp : Needs [.regs, .functions, .rings, .memctl, .keep, .out] fr) (c : Card) (h : Nat) (hC : Held fr c₀
    c) : Held fr c₀ (Card.fnReady c h) := by
  unfold Card.fnReady
  repeat' with_reducible first
    | assumption | exact needs_of hp (by decide) | refine frame_ite ?_ ?_ | (refine frame_foldl (fun _ _ _ => ?_) _ ?_)
    | apply frame_bumpF | apply frame_cause | apply frame_raise | apply frame_setBit | apply frame_setF
    | apply frame_setFn | apply frame_setRing
    | simp (disch := (refine rest_intro fun x => ?_; cases x <;> (first | exact Or.inr rfl | exact Or.inl (needs_mem hp (by decide))))) only [frame_mk_tap, frame_mk_grSets]
    | dsimp only

theorem frame_clearGriddleCounts (hp : Needs [.regs, .faults] fr) (c : Card) (h : Nat) (old : Option Layout) (l : Layout) (hC
    : Held fr c₀ c) : Held fr c₀ (Card.clearGriddleCounts c h old l) := by
  unfold Card.clearGriddleCounts
  repeat' with_reducible first
    | assumption | exact needs_of hp (by decide) | refine frame_ite ?_ ?_ | apply frame_resetRegs
    | simp (disch := (refine rest_intro fun x => ?_; cases x <;> (first | exact Or.inr rfl | exact Or.inl (needs_mem hp (by decide))))) only [frame_mk_tap, frame_mk_grSets]
    | dsimp only

theorem frame_applyLayout (hp : Needs [.regs, .functions, .layouts, .rings, .contexts, .mem, .dram, .memctl, .faults, .sched,
    .links, .keep, .out] fr) (c : Card) (h : Nat) (l : Layout) (hC : Held fr c₀ c) : Held fr c₀ (Card.applyLayout c h l) :=
    by
  unfold Card.applyLayout
  repeat' with_reducible first
    | assumption | exact needs_of hp (by decide) | refine frame_ite ?_ ?_ | (refine frame_foldl (fun _ _ _ => ?_) _ ?_)
    | apply frame_applySpares | apply frame_clearGriddleCounts | apply frame_dropAperture | apply frame_fnReady
    | apply frame_holdRetain | apply frame_recheckMsg | apply frame_setBit | apply frame_setF | apply frame_setFn
    | apply frame_setN | apply frame_zeroFill
    | simp (disch := (refine rest_intro fun x => ?_; cases x <;> (first | exact Or.inr rfl | exact Or.inl (needs_mem hp (by decide))))) only [frame_mk_tap, frame_mk_grSets]
    | dsimp only

theorem frames_trackReady (hp : Needs [] fr) (ok : Bool) : Holds fr c₀ (Eng.trackReady ok) := by
  unfold Eng.trackReady
  repeat' with_reducible first
    | assumption | exact needs_of hp (by decide) | apply frames_pure | apply frames_throw
    | refine frames_card_bind (fun _ _ => ?_) | refine frames_ite ?_ ?_ | apply frames_card | apply frames_op
    | apply frames_hamper | apply frames_ring | apply frames_check | (refine frames_bind ?_ (fun _ => ?_)) | dsimp only

theorem frame_settleReqs (hp : Needs [.regs, .sems, .tracks] fr) (c : Card) (h : Nat) (hC : Held fr c₀ c) : Held fr c₀
    (Card.settleReqs c h) := by
  unfold Card.settleReqs
  repeat' with_reducible first
    | assumption | exact needs_of hp (by decide) | refine frame_ite ?_ ?_ | (refine frame_foldl (fun _ _ _ => ?_) _ ?_)
    | apply frame_semApply | apply frame_setTracker
    | simp (disch := (refine rest_intro fun x => ?_; cases x <;> (first | exact Or.inr rfl | exact Or.inl (needs_mem hp (by decide))))) only [frame_mk_tap, frame_mk_grSets]
    | dsimp only

theorem frames_stepWork (hp : Needs [.regs, .sems, .tlb, .dram, .tracks] fr) : Holds fr c₀ (stepWork ) := by
  unfold stepWork
  repeat' with_reducible first
    | assumption | exact needs_of hp (by decide) | apply frames_pure | apply frames_throw
    | refine frames_card_bind (fun _ _ => ?_) | refine frames_ite ?_ ?_ | apply frames_card | apply frames_op
    | apply frames_hamper | apply frames_ring | refine frames_upd (fun _ _ => ?_) | apply frames_check
    | apply frames_join | apply frames_rd | apply frames_wants | apply frames_trackReady
    | (refine frames_bind ?_ (fun _ => ?_)) | apply frame_bump | apply frame_setTracker | apply frame_settleReqs
    | refine frame_ite ?_ ?_
    | simp (disch := (refine rest_intro fun x => ?_; cases x <;> (first | exact Or.inr rfl | exact Or.inl (needs_mem hp (by decide))))) only [frame_mk_tap, frame_mk_grSets]
    | split | dsimp only

theorem frames_stPut (hp : Needs [.regs, .pace, .sram, .memctl, .freeze, .faults, .out] fr) (e off : Nat) (bs : List Byte) :
    Holds fr c₀ (Eng.stPut e off bs) := by
  unfold Eng.stPut
  repeat' with_reducible first
    | assumption | exact needs_of hp (by decide) | apply frames_pure | apply frames_throw
    | refine frames_card_bind (fun _ _ => ?_) | refine frames_ite ?_ ?_ | apply frames_card | apply frames_op
    | apply frames_hamper | apply frames_ring | refine frames_upd (fun _ _ => ?_)
    | (refine frames_bind ?_ (fun _ => ?_)) | apply frame_stWrite | refine frame_ite ?_ ?_
    | simp (disch := (refine rest_intro fun x => ?_; cases x <;> (first | exact Or.inr rfl | exact Or.inl (needs_mem hp (by decide))))) only [frame_mk_tap, frame_mk_grSets]
    | dsimp only

theorem frames_stGather (hp : Needs [.regs, .pace, .memctl, .freeze, .faults, .out] fr) (e off n : Nat) : Holds fr c₀
    (Eng.stGather e off n) := by
  unfold Eng.stGather
  repeat' with_reducible first
    | assumption | exact needs_of hp (by decide) | apply frames_pure | apply frames_throw
    | refine frames_card_bind (fun _ _ => ?_) | refine frames_ite ?_ ?_ | apply frames_card | apply frames_op
    | apply frames_hamper | apply frames_ring | apply frames_join | apply frames_sram
    | (refine frames_forIn _ _ (fun _ _ => ?_)) | (refine frames_bind ?_ (fun _ => ?_)) | dsimp only

theorem frames_gatherPos (hp : Needs [.regs, .pace, .tlb, .sram, .dram, .memctl, .freeze, .faults, .out] fr) (e stateOff
    kvOff maskOff i : Nat) (p : Option BatchPos) : Holds fr c₀ (gatherPos e stateOff kvOff maskOff i p) := by
  unfold gatherPos
  repeat' with_reducible first
    | assumption | exact needs_of hp (by decide) | apply frames_pure | apply frames_throw
    | refine frames_card_bind (fun _ _ => ?_) | refine frames_ite ?_ ?_ | apply frames_card | apply frames_op
    | apply frames_hamper | apply frames_ring | apply frames_rd | apply frames_sram | apply frames_stPut
    | apply frames_stGather | (refine frames_mapM _ (fun _ => ?_)) | (refine frames_bind ?_ (fun _ => ?_)) | split
    | dsimp only

theorem frames_batchWork (hp : Needs [.regs, .pace, .sems, .tlb, .pools, .mem, .sram, .dram, .memctl, .freeze, .faults,
    .epochs, .tracks, .links, .out] fr) : Holds fr c₀ (batchWork ) := by
  unfold batchWork
  repeat' with_reducible first
    | assumption | exact needs_of hp (by decide) | apply frames_pure | apply frames_throw
    | refine frames_card_bind (fun _ _ => ?_) | refine frames_ite ?_ ?_ | apply frames_card | apply frames_op
    | apply frames_hamper | apply frames_ring | refine frames_upd (fun _ _ => ?_) | apply frames_updOp | apply frames_wr
    | apply frames_trackReady | apply frames_gatherPos | (refine frames_forIn _ _ (fun _ _ => ?_))
    | (refine frames_bind ?_ (fun _ => ?_)) | apply frame_bump | apply frame_setTracker | apply frame_settleReqs
    | refine frame_ite ?_ ?_
    | simp (disch := (refine rest_intro fun x => ?_; cases x <;> (first | exact Or.inr rfl | exact Or.inl (needs_mem hp (by decide))))) only [frame_mk_tap, frame_mk_grSets]
    | split | dsimp only

theorem frames_updatePos (hp : Needs [.regs, .pace, .tlb, .pools, .mem, .sram, .dram, .memctl, .freeze, .faults, .epochs,
    .tracks, .links, .out] fr) (b : Batch) (resOff stateOff kvOff i : Nat) (p : BatchPos) : Holds fr c₀ (updatePos b resOff
    stateOff kvOff i p) := by
  unfold updatePos
  repeat' with_reducible first
    | assumption | exact needs_of hp (by decide) | apply frames_pure | apply frames_throw
    | refine frames_card_bind (fun _ _ => ?_) | refine frames_ite ?_ ?_ | apply frames_card | apply frames_op
    | apply frames_hamper | apply frames_ring | refine frames_upd (fun _ _ => ?_) | apply frames_updOp
    | apply frames_wrUnder | apply frames_stRd | (refine frames_bind ?_ (fun _ => ?_)) | apply frame_setTracker
    | apply frame_sramPut | refine frame_ite ?_ ?_
    | simp (disch := (refine rest_intro fun x => ?_; cases x <;> (first | exact Or.inr rfl | exact Or.inl (needs_mem hp (by decide))))) only [frame_mk_tap, frame_mk_grSets]
    | dsimp only

theorem frame_finishBatch (hp : Needs [.regs, .rings, .sems, .tracks] fr) (c : Card) (h : Nat) (b : Batch) (hC : Held fr c₀
    c) : Held fr c₀ (Card.finishBatch c h b) := by
  unfold Card.finishBatch
  repeat' with_reducible first
    | assumption | exact needs_of hp (by decide) | apply frame_closeBatch | apply frame_setTracker | apply frame_settleReqs
    | simp (disch := (refine rest_intro fun x => ?_; cases x <;> (first | exact Or.inr rfl | exact Or.inl (needs_mem hp (by decide))))) only [frame_mk_tap, frame_mk_grSets]
    | dsimp only

theorem frames_updateWork (hp : Needs [.regs, .pace, .rings, .sems, .tlb, .pools, .mem, .sram, .dram, .memctl, .freeze,
    .faults, .epochs, .tracks, .links, .out] fr) : Holds fr c₀ (updateWork ) := by
  unfold updateWork
  repeat' with_reducible first
    | assumption | exact needs_of hp (by decide) | apply frames_pure | apply frames_throw
    | refine frames_card_bind (fun _ _ => ?_) | refine frames_ite ?_ ?_ | apply frames_card | apply frames_op
    | apply frames_hamper | apply frames_ring | refine frames_upd (fun _ _ => ?_) | apply frames_refuse
    | apply frames_join | apply frames_trackReady | apply frames_updatePos | (refine frames_forIn _ _ (fun _ _ => ?_))
    | (refine frames_bind ?_ (fun _ => ?_)) | apply frame_closeBatch | apply frame_finishBatch | refine frame_ite ?_ ?_
    | simp (disch := (refine rest_intro fun x => ?_; cases x <;> (first | exact Or.inr rfl | exact Or.inl (needs_mem hp (by decide))))) only [frame_mk_tap, frame_mk_grSets]
    | split | dsimp only

theorem frames_swapWork (hp : Needs [.regs, .tlb, .pools, .mem, .dram, .epochs, .links, .out] fr) : Holds fr c₀ (swapWork )
    := by
  unfold swapWork
  repeat' with_reducible first
    | assumption | exact needs_of hp (by decide) | apply frames_pure | apply frames_throw
    | refine frames_card_bind (fun _ _ => ?_) | refine frames_ite ?_ ?_ | apply frames_card | apply frames_op
    | apply frames_hamper | apply frames_ring | refine frames_upd (fun _ _ => ?_) | apply frames_rd | apply frames_wr
    | apply frames_want | apply frames_trackReady | (refine frames_forIn _ _ (fun _ _ => ?_))
    | (refine frames_bind ?_ (fun _ => ?_)) | apply frame_setN | refine frame_ite ?_ ?_
    | simp (disch := (refine rest_intro fun x => ?_; cases x <;> (first | exact Or.inr rfl | exact Or.inl (needs_mem hp (by decide))))) only [frame_mk_tap, frame_mk_grSets]
    | dsimp only

theorem frames_withdrawWork (hp : Needs [.regs, .pace, .rings, .sems, .hostReads, .tlb, .pools, .mem, .dram, .memctl, .power,
    .freeze, .faults, .epochs, .records, .tracks, .links, .out] fr) : Holds fr c₀ (withdrawWork ) := by
  unfold withdrawWork
  repeat' with_reducible first
    | assumption | exact needs_of hp (by decide) | apply frames_pure | apply frames_throw
    | refine frames_card_bind (fun _ _ => ?_) | refine frames_ite ?_ ?_ | apply frames_card | apply frames_op
    | apply frames_hamper | apply frames_ring | refine frames_upd (fun _ _ => ?_) | apply frames_check
    | apply frames_trackReady | (refine frames_bind ?_ (fun _ => ?_)) | apply frame_bump | apply frame_withdrawEpoch
    | refine frame_ite ?_ ?_
    | simp (disch := (refine rest_intro fun x => ?_; cases x <;> (first | exact Or.inr rfl | exact Or.inl (needs_mem hp (by decide))))) only [frame_mk_tap, frame_mk_grSets]
    | dsimp only

theorem frame_flushRing (hp : Needs [.regs, .pace, .rings, .hostReads, .memctl, .power, .freeze, .faults, .epochs, .records,
    .links, .out] fr) (c : Card) (h r : Nat) (hC : Held fr c₀ c) : Held fr c₀ (Card.flushRing c h r).1 := by
  unfold Card.flushRing
  repeat' with_reducible first
    | assumption | exact needs_of hp (by decide) | refine frame_ite ?_ ?_ | (refine frame_foldl (fun _ _ _ => ?_) _ ?_)
    | apply frame_abandonRetry | apply frame_govDrop | apply frame_resetRegs | apply frame_setRec | apply frame_setRing
    | simp (disch := (refine rest_intro fun x => ?_; cases x <;> (first | exact Or.inr rfl | exact Or.inl (needs_mem hp (by decide))))) only [frame_mk_tap, frame_mk_grSets]
    | (refine frame_foldl_fst (fun _ _ _ => ?_) _ ?_) | split | dsimp only

theorem frame_flushRings (hp : Needs [.regs, .pace, .rings, .hostReads, .memctl, .power, .freeze, .faults, .epochs, .records,
    .links, .out] fr) (c : Card) (h : Nat) (rs : List Nat) (hC : Held fr c₀ c) : Held fr c₀ (Card.flushRings c h rs).1 := by
  unfold Card.flushRings
  repeat' with_reducible first
    | assumption | exact needs_of hp (by decide) | (refine frame_foldl (fun _ _ _ => ?_) _ ?_) | apply frame_flushRing
    | (refine frame_foldl_fst (fun _ _ _ => ?_) _ ?_) | split | dsimp only

theorem frame_endPasses (hp : Needs [.regs, .pace, .rings, .hostReads, .sram, .memctl, .freeze, .faults, .links, .fresh,
    .out] fr) (c : Card) (h : Nat) (rs : List Nat) (hC : Held fr c₀ c) : Held fr c₀ (Card.endPasses c h rs) := by
  unfold Card.endPasses
  repeat' with_reducible first
    | assumption | exact needs_of hp (by decide) | (refine frame_foldl (fun _ _ _ => ?_) _ ?_) | apply frame_runPart
    | apply frames_endPass
    | simp (disch := (refine rest_intro fun x => ?_; cases x <;> (first | exact Or.inr rfl | exact Or.inl (needs_mem hp (by decide))))) only [frame_mk_tap, frame_mk_grSets]
    | dsimp only

theorem frame_dropShadows (hp : Needs [.regs, .pace, .layouts, .rings, .hostReads, .tlb, .dram, .memctl, .freeze, .faults,
    .links, .griddle, .fresh, .out] fr) (c : Card) (h : Nat) (hC : Held fr c₀ c) : Held fr c₀ (Card.dropShadows c h) := by
  unfold Card.dropShadows
  repeat' with_reducible first
    | assumption | exact needs_of hp (by decide) | refine frame_ite ?_ ?_ | (refine frame_foldl (fun _ _ _ => ?_) _ ?_)
    | apply frame_resumePaused
    | simp (disch := (refine rest_intro fun x => ?_; cases x <;> (first | exact Or.inr rfl | exact Or.inl (needs_mem hp (by decide))))) only [frame_mk_tap, frame_mk_grSets]
    | dsimp only

theorem frame_dropProv (hp : Needs [.epochs] fr) (c : Card) (h e : Nat) (hC : Held fr c₀ c) : Held fr c₀ (Card.dropProv c h
    e) := by
  unfold Card.dropProv
  repeat' with_reducible first
    | assumption | exact needs_of hp (by decide)
    | simp (disch := (refine rest_intro fun x => ?_; cases x <;> (first | exact Or.inr rfl | exact Or.inl (needs_mem hp (by decide))))) only [frame_mk_tap, frame_mk_grSets]
    | dsimp only

theorem frame_cancelEpoch (hp : Needs [.regs, .pace, .rings, .sems, .hostReads, .pools, .dram, .memctl, .power, .freeze,
    .faults, .epochs, .records, .tracks, .links, .out] fr) (c : Card) (h e : Nat) (hC : Held fr c₀ c) : Held fr c₀
    (Card.cancelEpoch c h e) := by
  unfold Card.cancelEpoch
  repeat' with_reducible first
    | assumption | exact needs_of hp (by decide) | refine frame_ite ?_ ?_ | apply frame_cancelOps | apply frame_dropProv
    | apply frame_dropRecords | apply frame_dropUnsettled | apply frame_setEpoch | apply frame_settleSigs
    | apply frame_withdrawTracks
    | simp (disch := (refine rest_intro fun x => ?_; cases x <;> (first | exact Or.inr rfl | exact Or.inl (needs_mem hp (by decide))))) only [frame_mk_tap, frame_mk_grSets]
    | dsimp only

theorem frame_closeVfStreams (hp : Needs [.regs, .pace, .rings, .sems, .hostReads, .pools, .dram, .memctl, .power, .freeze,
    .faults, .epochs, .records, .streams, .tracks, .links, .out] fr) (c : Card) (h n : Nat) (hC : Held fr c₀ c) : Held fr c₀
    (Card.closeVfStreams c h n) := by
  unfold Card.closeVfStreams
  repeat' with_reducible first
    | assumption | exact needs_of hp (by decide) | (refine frame_foldl (fun _ _ _ => ?_) _ ?_) | apply frame_abandonPics
    | apply frame_cancelEpoch | apply frame_cancelWaiters
    | simp (disch := (refine rest_intro fun x => ?_; cases x <;> (first | exact Or.inr rfl | exact Or.inl (needs_mem hp (by decide))))) only [frame_mk_tap, frame_mk_grSets]
    | dsimp only

theorem frame_endVfTracks (hp : Needs [.tracks] fr) (c : Card) (h v n : Nat) (hC : Held fr c₀ c) : Held fr c₀
    (Card.endVfTracks c h v n) := by
  unfold Card.endVfTracks
  repeat' with_reducible first
    | assumption | exact needs_of hp (by decide) | refine frame_ite ?_ ?_ | apply frame_setTracker
    | simp (disch := (refine rest_intro fun x => ?_; cases x <;> (first | exact Or.inr rfl | exact Or.inl (needs_mem hp (by decide))))) only [frame_mk_tap, frame_mk_grSets]
    | dsimp only

theorem frame_reclaimVf (hp : Needs [.regs, .pools] fr) (c : Card) (h v : Nat) (rs : List Nat) (hC : Held fr c₀ c) : Held fr
    c₀ (Card.reclaimVf c h v rs) := by
  unfold Card.reclaimVf
  repeat' with_reducible first
    | assumption | exact needs_of hp (by decide) | refine frame_ite ?_ ?_ | (refine frame_foldl (fun _ _ _ => ?_) _ ?_)
    | apply frame_bump | apply frame_freeWhere
    | simp (disch := (refine rest_intro fun x => ?_; cases x <;> (first | exact Or.inr rfl | exact Or.inl (needs_mem hp (by decide))))) only [frame_mk_tap, frame_mk_grSets]
    | dsimp only

theorem frame_dropVfTables (hp : Needs [.tlb, .keys] fr) (c : Card) (h v : Nat) (hC : Held fr c₀ c) : Held fr c₀
    (Card.dropVfTables c h v) := by
  unfold Card.dropVfTables
  repeat' with_reducible first
    | assumption | exact needs_of hp (by decide)
    | simp (disch := (refine rest_intro fun x => ?_; cases x <;> (first | exact Or.inr rfl | exact Or.inl (needs_mem hp (by decide))))) only [frame_mk_tap, frame_mk_grSets]
    | dsimp only

theorem frame_resetVf (hp : Needs [.regs, .pace, .layouts, .rings, .sems, .hostReads, .tlb, .pools, .sram, .dram, .memctl,
    .power, .freeze, .faults, .epochs, .records, .streams, .keys, .tracks, .links, .griddle, .fresh, .out] fr) (c : Card) (h
    v : Nat) (hC : Held fr c₀ c) : Held fr c₀ (Card.resetVf c h v).1 := by
  unfold Card.resetVf
  repeat' with_reducible first
    | assumption | exact needs_of hp (by decide) | apply frame_closeVfStreams | apply frame_dropShadows
    | apply frame_dropVfTables | apply frame_endPasses | apply frame_endVfTracks | apply frame_flushRings
    | apply frame_reclaimVf | apply frame_resetRegs | split | dsimp only

theorem frame_resetVc (hp : Needs [.raster] fr) (c : Card) (h k : Nat) (hC : Held fr c₀ c) : Held fr c₀ (Card.resetVc c h k)
    := by
  unfold Card.resetVc
  repeat' with_reducible first
    | assumption | exact needs_of hp (by decide) | refine frame_ite ?_ ?_ | apply frame_setVc
    | simp (disch := (refine rest_intro fun x => ?_; cases x <;> (first | exact Or.inr rfl | exact Or.inl (needs_mem hp (by decide))))) only [frame_mk_tap, frame_mk_grSets]
    | dsimp only

theorem frame_dropPfTables (hp : Needs [.contexts, .tlb, .pools, .sram, .dram, .epochs, .streams, .keys, .raster] fr) (c :
    Card) (h : Nat) (declared : Option (List Nat)) (hC : Held fr c₀ c) : Held fr c₀ (Card.dropPfTables c h declared) := by
  unfold Card.dropPfTables
  repeat' with_reducible first
    | assumption | exact needs_of hp (by decide)
    | simp (disch := (refine rest_intro fun x => ?_; cases x <;> (first | exact Or.inr rfl | exact Or.inl (needs_mem hp (by decide))))) only [frame_mk_tap, frame_mk_grSets]
    | dsimp only

theorem frame_resetPf (hp : Needs [.regs, .pace, .layouts, .rings, .hostReads, .contexts, .tlb, .pools, .sram, .dram,
    .memctl, .power, .freeze, .faults, .epochs, .records, .streams, .keys, .tracks, .links, .raster, .griddle, .fresh, .out]
    fr) (c : Card) (h : Nat) (hC : Held fr c₀ c) : Held fr c₀ (Card.resetPf c h).1 := by
  unfold Card.resetPf
  repeat' with_reducible first
    | assumption | exact needs_of hp (by decide) | (refine frame_foldl (fun _ _ _ => ?_) _ ?_) | apply frame_abandonPics
    | apply frame_dropPfTables | apply frame_dropShadows | apply frame_endPasses | apply frame_flushRings
    | apply frame_resetRegs | apply frame_resetVc | apply frame_setF | apply frame_setPace | apply frame_setTracker
    | simp (disch := (refine rest_intro fun x => ?_; cases x <;> (first | exact Or.inr rfl | exact Or.inl (needs_mem hp (by decide))))) only [frame_mk_tap, frame_mk_grSets]
    | (refine frame_foldl_fst (fun _ _ _ => ?_) _ ?_) | split | dsimp only

theorem frame_dropVfs (hp : Needs [.regs, .config, .functions] fr) (c : Card) (h : Nat) (hC : Held fr c₀ c) : Held fr c₀
    (Card.dropVfs c h) := by
  unfold Card.dropVfs
  repeat' with_reducible first
    | assumption | exact needs_of hp (by decide) | (refine frame_foldl (fun _ _ _ => ?_) _ ?_) | apply frame_resetRegs
    | apply frame_setCfg | apply frame_setFn
    | simp (disch := (refine rest_intro fun x => ?_; cases x <;> (first | exact Or.inr rfl | exact Or.inl (needs_mem hp (by decide))))) only [frame_mk_tap, frame_mk_grSets]
    | dsimp only

theorem frame_beginPfReset (hp : Needs [.regs, .config, .functions, .pace, .layouts, .rings, .hostReads, .contexts, .tlb,
    .pools, .sram, .dram, .memctl, .power, .freeze, .faults, .epochs, .records, .streams, .keys, .tracks, .links, .raster,
    .griddle, .fresh, .out] fr) (c : Card) (h cause : Nat) (d3 hot : Bool) (hC : Held fr c₀ c) : Held fr c₀
    (Card.beginPfReset c h cause d3 hot) := by
  unfold Card.beginPfReset
  repeat' with_reducible first
    | assumption | exact needs_of hp (by decide) | refine frame_ite ?_ ?_ | apply frame_dropVfs | apply frame_resetPf
    | apply frame_resetRegs | apply frame_setBit | apply frame_setCfg | apply frame_setF | apply frame_setFn
    | simp (disch := (refine rest_intro fun x => ?_; cases x <;> (first | exact Or.inr rfl | exact Or.inl (needs_mem hp (by decide))))) only [frame_mk_tap, frame_mk_grSets]
    | dsimp only

theorem frame_askPfReset (hp : Needs [.regs, .config, .functions, .pace, .layouts, .rings, .hostReads, .contexts, .tlb,
    .pools, .sram, .dram, .memctl, .power, .freeze, .faults, .epochs, .records, .streams, .keys, .tracks, .links, .raster,
    .griddle, .fresh, .out] fr) (c : Card) (h cause : Nat) (d3 hot : Bool) (hC : Held fr c₀ c) : Held fr c₀ (Card.askPfReset
    c h cause d3 hot) := by
  unfold Card.askPfReset
  repeat' with_reducible first
    | assumption | exact needs_of hp (by decide) | refine frame_ite ?_ ?_ | apply frame_beginPfReset | apply frame_setFn
    | simp (disch := (refine rest_intro fun x => ?_; cases x <;> (first | exact Or.inr rfl | exact Or.inl (needs_mem hp (by decide))))) only [frame_mk_tap, frame_mk_grSets]
    | dsimp only

theorem frame_beginVfReset (hp : Needs [.regs, .functions, .pace, .layouts, .rings, .sems, .hostReads, .tlb, .pools, .sram,
    .dram, .memctl, .power, .freeze, .faults, .epochs, .records, .streams, .keys, .tracks, .links, .griddle, .fresh, .out]
    fr) (c : Card) (h v : Nat) (hC : Held fr c₀ c) : Held fr c₀ (Card.beginVfReset c h v) := by
  unfold Card.beginVfReset
  repeat' with_reducible first
    | assumption | exact needs_of hp (by decide) | apply frame_resetVf | apply frame_setF | apply frame_setFn
    | simp (disch := (refine rest_intro fun x => ?_; cases x <;> (first | exact Or.inr rfl | exact Or.inl (needs_mem hp (by decide))))) only [frame_mk_tap, frame_mk_grSets]
    | dsimp only

theorem frame_askVfReset (hp : Needs [.regs, .functions, .pace, .layouts, .rings, .sems, .hostReads, .tlb, .pools, .sram,
    .dram, .memctl, .power, .freeze, .faults, .epochs, .records, .streams, .keys, .tracks, .links, .griddle, .fresh, .out]
    fr) (c : Card) (h v : Nat) (hC : Held fr c₀ c) : Held fr c₀ (Card.askVfReset c h v) := by
  unfold Card.askVfReset
  repeat' with_reducible first
    | assumption | exact needs_of hp (by decide) | refine frame_ite ?_ ?_ | apply frame_beginVfReset | apply frame_setFn
    | simp (disch := (refine rest_intro fun x => ?_; cases x <;> (first | exact Or.inr rfl | exact Or.inl (needs_mem hp (by decide))))) only [frame_mk_tap, frame_mk_grSets]
    | dsimp only

theorem frame_heldResets (hp : Needs [.regs, .config, .functions, .pace, .layouts, .rings, .sems, .hostReads, .contexts,
    .tlb, .pools, .sram, .dram, .memctl, .power, .freeze, .faults, .epochs, .records, .streams, .keys, .tracks, .links,
    .raster, .griddle, .fresh, .out] fr) (c : Card) (hC : Held fr c₀ c) : Held fr c₀ (Card.heldResets c) := by
  unfold Card.heldResets
  repeat' with_reducible first
    | assumption | exact needs_of hp (by decide) | refine frame_ite ?_ ?_ | (refine frame_foldl (fun _ _ _ => ?_) _ ?_)
    | apply frame_askPfReset | apply frame_askVfReset | apply frame_setFn
    | simp (disch := (refine rest_intro fun x => ?_; cases x <;> (first | exact Or.inr rfl | exact Or.inl (needs_mem hp (by decide))))) only [frame_mk_tap, frame_mk_grSets]
    | dsimp only

theorem frame_pfReadable (hp : Needs [.regs, .functions] fr) (c : Card) (h : Nat) (hC : Held fr c₀ c) : Held fr c₀
    (Card.pfReadable c h) := by
  unfold Card.pfReadable
  repeat' with_reducible first
    | assumption | exact needs_of hp (by decide) | apply frame_setF | apply frame_setFn
    | simp (disch := (refine rest_intro fun x => ?_; cases x <;> (first | exact Or.inr rfl | exact Or.inl (needs_mem hp (by decide))))) only [frame_mk_tap, frame_mk_grSets]
    | dsimp only

theorem frame_stageSet (hp : Needs [.memctl] fr) (c : Card) (ch : Nat) (p : List Byte) (hC : Held fr c₀ c) : Held fr c₀
    (Card.stageSet c ch p) := by
  unfold Card.stageSet
  repeat' with_reducible first
    | assumption | exact needs_of hp (by decide) | (refine frame_foldl (fun _ _ _ => ?_) _ ?_)
    | simp (disch := (refine rest_intro fun x => ?_; cases x <;> (first | exact Or.inr rfl | exact Or.inl (needs_mem hp (by decide))))) only [frame_mk_tap, frame_mk_grSets]
    | dsimp only

theorem frame_applyDelays (hp : Needs [.regs, .memctl] fr) (c : Card) (ch : Nat) (hC : Held fr c₀ c) : Held fr c₀
    (Card.applyDelays c ch) := by
  unfold Card.applyDelays
  repeat' with_reducible first
    | assumption | exact needs_of hp (by decide) | apply frame_setBit
    | simp (disch := (refine rest_intro fun x => ?_; cases x <;> (first | exact Or.inr rfl | exact Or.inl (needs_mem hp (by decide))))) only [frame_mk_tap, frame_mk_grSets]
    | dsimp only

theorem frame_enforce (hp : Needs [.memctl] fr) (c : Card) (ch sub : Nat) (hC : Held fr c₀ c) : Held fr c₀ (Card.enforce c ch
    sub) := by
  unfold Card.enforce
  repeat' with_reducible first
    | assumption | exact needs_of hp (by decide) | refine frame_ite ?_ ?_ | (refine frame_foldl (fun _ _ _ => ?_) _ ?_)
    | simp (disch := (refine rest_intro fun x => ?_; cases x <;> (first | exact Or.inr rfl | exact Or.inl (needs_mem hp (by decide))))) only [frame_mk_tap, frame_mk_grSets]
    | dsimp only

theorem frame_delayCtl (hp : Needs [.regs, .pace, .rings, .memctl, .power, .faults] fr) (c : Card) (ch : Nat) (v : Word) (hC
    : Held fr c₀ c) : Held fr c₀ (Card.delayCtl c ch v) := by
  unfold Card.delayCtl
  repeat' with_reducible first
    | assumption | exact needs_of hp (by decide) | refine frame_ite ?_ ?_ | apply frame_applyDelays | apply frame_stageSet
    | apply frame_writeReg
    | simp (disch := (refine rest_intro fun x => ?_; cases x <;> (first | exact Or.inr rfl | exact Or.inl (needs_mem hp (by decide))))) only [frame_mk_tap, frame_mk_grSets]
    | (refine frame_of_fst (by assumption) ?_) | split | dsimp only

theorem frame_bandSample (hp : Needs [.regs, .memctl, .out] fr) (c : Card) (ch : Nat) (t : Int) (hC : Held fr c₀ c) : Held fr
    c₀ (Card.bandSample c ch t) := by
  unfold Card.bandSample
  repeat' with_reducible first
    | assumption | exact needs_of hp (by decide) | refine frame_ite ?_ ?_ | apply frame_applyDelays | apply frame_event
    | apply frame_setF | apply frame_stageSet
    | simp (disch := (refine rest_intro fun x => ?_; cases x <;> (first | exact Or.inr rfl | exact Or.inl (needs_mem hp (by decide))))) only [frame_mk_tap, frame_mk_grSets]
    | (refine frame_of_fst (by assumption) ?_) | split | dsimp only

theorem frame_restartDrift (hp : Needs [.dram] fr) (c : Card) (hC : Held fr c₀ c) : Held fr c₀ (Card.restartDrift c) := by
  unfold Card.restartDrift
  repeat' with_reducible first
    | assumption | exact needs_of hp (by decide)
    | simp (disch := (refine rest_intro fun x => ?_; cases x <;> (first | exact Or.inr rfl | exact Or.inl (needs_mem hp (by decide))))) only [frame_mk_tap, frame_mk_grSets]
    | dsimp only

theorem frame_loseSegments (hp : Needs [.mem, .memctl] fr) (c : Card) (ch : Nat) (hC : Held fr c₀ c) : Held fr c₀
    (Card.loseSegments c ch) := by
  unfold Card.loseSegments
  repeat' with_reducible first
    | assumption | exact needs_of hp (by decide) | (refine frame_foldl (fun _ _ _ => ?_) _ ?_)
    | simp (disch := (refine rest_intro fun x => ?_; cases x <;> (first | exact Or.inr rfl | exact Or.inl (needs_mem hp (by decide))))) only [frame_mk_tap, frame_mk_grSets]
    | dsimp only

theorem frame_closeRows (hp : Needs [.dram] fr) (c : Card) (ch : Nat) (hC : Held fr c₀ c) : Held fr c₀ (Card.closeRows c ch)
    := by
  unfold Card.closeRows
  repeat' with_reducible first
    | assumption | exact needs_of hp (by decide)
    | simp (disch := (refine rest_intro fun x => ?_; cases x <;> (first | exact Or.inr rfl | exact Or.inl (needs_mem hp (by decide))))) only [frame_mk_tap, frame_mk_grSets]
    | dsimp only

theorem frame_loseRank (hp : Needs [.regs, .config, .out] fr) (c : Card) (k : Nat) (hC : Held fr c₀ c) : Held fr c₀
    (Card.loseRank c k) := by
  unfold Card.loseRank
  repeat' with_reducible first
    | assumption | exact needs_of hp (by decide) | apply frame_aerLog | apply frame_event | apply frame_setCapacity
    | apply frame_setRank
    | simp (disch := (refine rest_intro fun x => ?_; cases x <;> (first | exact Or.inr rfl | exact Or.inl (needs_mem hp (by decide))))) only [frame_mk_tap, frame_mk_grSets]
    | dsimp only

theorem frame_holdSearches (hp : Needs [.regs, .rings, .out] fr) (c : Card) (source : Nat) (hC : Held fr c₀ c) : Held fr c₀
    (Card.holdSearches c source) := by
  unfold Card.holdSearches
  repeat' with_reducible first
    | assumption | exact needs_of hp (by decide) | refine frame_ite ?_ ?_ | (refine frame_foldl (fun _ _ _ => ?_) _ ?_)
    | apply frame_event | apply frame_setOp
    | simp (disch := (refine rest_intro fun x => ?_; cases x <;> (first | exact Or.inr rfl | exact Or.inl (needs_mem hp (by decide))))) only [frame_mk_tap, frame_mk_grSets]
    | dsimp only

theorem frame_resumeSearches (hp : Needs [.rings, .colanders] fr) (c : Card) (hC : Held fr c₀ c) : Held fr c₀
    (Card.resumeSearches c) := by
  unfold Card.resumeSearches
  repeat' with_reducible first
    | assumption | exact needs_of hp (by decide) | (refine frame_foldl (fun _ _ _ => ?_) _ ?_) | apply frame_resumeSearch
    | simp (disch := (refine rest_intro fun x => ?_; cases x <;> (first | exact Or.inr rfl | exact Or.inl (needs_mem hp (by decide))))) only [frame_mk_tap, frame_mk_grSets]
    | dsimp only

theorem frame_abandonMigration (hp : Needs [.regs, .config, .pace, .rings, .sems, .hostReads, .mem, .sram, .dram, .memctl,
    .freeze, .faults, .epochs, .records, .links, .colanders, .keep, .fresh, .out] fr) (c : Card) (source : Nat) (hC : Held fr
    c₀ c) : Held fr c₀ (Card.abandonMigration c source) := by
  unfold Card.abandonMigration
  repeat' with_reducible first
    | assumption | exact needs_of hp (by decide) | apply frame_loseRank | apply frame_releaseAll | apply frame_resumeSearches
    | simp (disch := (refine rest_intro fun x => ?_; cases x <;> (first | exact Or.inr rfl | exact Or.inl (needs_mem hp (by decide))))) only [frame_mk_tap, frame_mk_grSets]
    | dsimp only

theorem frame_beginMigration (hp : Needs [.regs, .rings, .dram, .out] fr) (c : Card) (source target : Nat) (hC : Held fr c₀
    c) : Held fr c₀ (Card.beginMigration c source target) := by
  unfold Card.beginMigration
  repeat' with_reducible first
    | assumption | exact needs_of hp (by decide) | apply frame_event | apply frame_holdSearches | apply frame_setF
    | apply frame_setRank | apply frame_wakeChannel
    | simp (disch := (refine rest_intro fun x => ?_; cases x <;> (first | exact Or.inr rfl | exact Or.inl (needs_mem hp (by decide))))) only [frame_mk_tap, frame_mk_grSets]
    | dsimp only

theorem frame_setMigr (hp : Needs [.memctl] fr) (c : Card) (m : Option Migration) (hC : Held fr c₀ c) : Held fr c₀
    (Card.setMigr c m) := by
  unfold Card.setMigr
  repeat' with_reducible first
    | assumption | exact needs_of hp (by decide)
    | simp (disch := (refine rest_intro fun x => ?_; cases x <;> (first | exact Or.inr rfl | exact Or.inl (needs_mem hp (by decide))))) only [frame_mk_tap, frame_mk_grSets]
    | dsimp only

theorem frame_setMigrQ (hp : Needs [.memctl] fr) (c : Card) (q : List (Nat × Nat)) (hC : Held fr c₀ c) : Held fr c₀
    (Card.setMigrQ c q) := by
  unfold Card.setMigrQ
  repeat' with_reducible first
    | assumption | exact needs_of hp (by decide)
    | simp (disch := (refine rest_intro fun x => ?_; cases x <;> (first | exact Or.inr rfl | exact Or.inl (needs_mem hp (by decide))))) only [frame_mk_tap, frame_mk_grSets]
    | dsimp only

theorem frame_copyChunk (hp : Needs [.regs, .mem, .dram, .memctl] fr) (c : Card) (src dst chunk : Nat) (hC : Held fr c₀ c) :
    Held fr c₀ (Card.copyChunk c src dst chunk) := by
  unfold Card.copyChunk
  repeat' with_reducible first
    | assumption | exact needs_of hp (by decide) | refine frame_ite ?_ ?_ | (refine frame_foldl (fun _ _ _ => ?_) _ ?_)
    | apply frame_memPut | apply frame_rowsTouch
    | simp (disch := (refine rest_intro fun x => ?_; cases x <;> (first | exact Or.inr rfl | exact Or.inl (needs_mem hp (by decide))))) only [frame_mk_tap, frame_mk_grSets]
    | dsimp only

theorem frame_poisonLine (hp : Needs [.regs, .mem, .fresh] fr) (c : Card) (key : Nat) (hC : Held fr c₀ c) : Held fr c₀
    (Card.poisonLine c key) := by
  unfold Card.poisonLine
  repeat' with_reducible first
    | assumption | exact needs_of hp (by decide) | refine frame_ite ?_ ?_ | apply frame_bump | apply frame_scramble
    | apply frame_setPoison
    | simp (disch := (refine rest_intro fun x => ?_; cases x <;> (first | exact Or.inr rfl | exact Or.inl (needs_mem hp (by decide))))) only [frame_mk_tap, frame_mk_grSets]
    | dsimp only

theorem frame_endMigration (hp : Needs [.regs, .rings, .memctl, .colanders, .keep, .out] fr) (c : Card) (m : Migration) (hC :
    Held fr c₀ c) : Held fr c₀ (Card.endMigration c m) := by
  unfold Card.endMigration
  repeat' with_reducible first
    | assumption | exact needs_of hp (by decide) | refine frame_ite ?_ ?_ | apply frame_event | apply frame_recordRetired
    | apply frame_resumeSearches | apply frame_setCapacity | apply frame_setRank
    | simp (disch := (refine rest_intro fun x => ?_; cases x <;> (first | exact Or.inr rfl | exact Or.inl (needs_mem hp (by decide))))) only [frame_mk_tap, frame_mk_grSets]
    | dsimp only

theorem frame_logVerdict (hp : Needs [.regs, .pace, .memctl, .freeze, .faults, .out] fr) (c : Card) (h cls u kind ring ctx :
    Nat) (hC : Held fr c₀ c) : Held fr c₀ (Card.logVerdict c h cls u kind ring ctx) := by
  unfold Card.logVerdict
  repeat' with_reducible first
    | assumption | exact needs_of hp (by decide) | apply frame_log
    | simp (disch := (refine rest_intro fun x => ?_; cases x <;> (first | exact Or.inr rfl | exact Or.inl (needs_mem hp (by decide))))) only [frame_mk_tap, frame_mk_grSets]
    | dsimp only

theorem frame_inputVerdict (hp : Needs [.regs, .pace, .memctl, .freeze, .faults, .out] fr) (c : Card) (h cls u ring ctx :
    Nat) (hC : Held fr c₀ c) : Held fr c₀ (Card.inputVerdict c h cls u ring ctx) := by
  unfold Card.inputVerdict
  repeat' with_reducible first
    | assumption | exact needs_of hp (by decide) | refine frame_ite ?_ ?_ | apply frame_bumpF | apply frame_hpEvent
    | apply frame_logVerdict
    | simp (disch := (refine rest_intro fun x => ?_; cases x <;> (first | exact Or.inr rfl | exact Or.inl (needs_mem hp (by decide))))) only [frame_mk_tap, frame_mk_grSets]
    | dsimp only

theorem frame_dropRecs (hp : Needs [.regs, .rings, .records, .fresh] fr) (c : Card) (h : Nat) (hC : Held fr c₀ c) : Held fr
    c₀ (Card.dropRecs c h) := by
  unfold Card.dropRecs
  repeat' with_reducible first
    | assumption | exact needs_of hp (by decide) | refine frame_ite ?_ ?_ | (refine frame_foldl (fun _ _ _ => ?_) _ ?_)
    | apply frame_draw | apply frame_recDiscard | apply frame_setOp | apply frame_setRec
    | simp (disch := (refine rest_intro fun x => ?_; cases x <;> (first | exact Or.inr rfl | exact Or.inl (needs_mem hp (by decide))))) only [frame_mk_tap, frame_mk_grSets]
    | dsimp only

theorem frame_stepFails (hp : Needs [.regs, .pace, .layouts, .rings, .hostReads, .tlb, .mem, .dram, .memctl, .power, .freeze,
    .faults, .links, .griddle, .fresh, .out] fr) (c : Card) (h r : Nat) (o : Op) (input : Bool) (hC : Held fr c₀ c) : Held fr
    c₀ (Card.stepFails c h r o input) := by
  unfold Card.stepFails
  repeat' with_reducible first
    | assumption | exact needs_of hp (by decide) | refine frame_ite ?_ ?_ | apply frame_govDropOp | apply frame_resumePaused
    | apply frame_setOp | apply frame_takeBack
    | simp (disch := (refine rest_intro fun x => ?_; cases x <;> (first | exact Or.inr rfl | exact Or.inl (needs_mem hp (by decide))))) only [frame_mk_tap, frame_mk_grSets]
    | dsimp only

theorem frame_settleRetries (hp : Needs [.regs, .pace, .layouts, .rings, .hostReads, .tlb, .mem, .dram, .memctl, .power,
    .freeze, .faults, .streams, .links, .griddle, .fresh, .out] fr) (c : Card) (h : Nat) (hC : Held fr c₀ c) : Held fr c₀
    (Card.settleRetries c h) := by
  unfold Card.settleRetries
  repeat' with_reducible first
    | assumption | exact needs_of hp (by decide) | refine frame_ite ?_ ?_ | (refine frame_foldl (fun _ _ _ => ?_) _ ?_)
    | apply frame_logVerdict | apply frame_setOp | apply frame_setStream | apply frame_stepFails
    | simp (disch := (refine rest_intro fun x => ?_; cases x <;> (first | exact Or.inr rfl | exact Or.inl (needs_mem hp (by decide))))) only [frame_mk_tap, frame_mk_grSets]
    | (refine frame_of_fst (by assumption) ?_) | split | dsimp only

theorem frame_settleFences (hp : Needs [.regs, .pace, .layouts, .rings, .hostReads, .tlb, .mem, .dram, .memctl, .power,
    .freeze, .faults, .records, .streams, .links, .griddle, .fresh, .out] fr) (c : Card) (h : Nat) (hC : Held fr c₀ c) : Held
    fr c₀ (Card.settleFences c h) := by
  unfold Card.settleFences
  repeat' with_reducible first
    | assumption | exact needs_of hp (by decide) | apply frame_dropRecs | apply frame_refuseSearches
    | apply frame_settleGroups | apply frame_settleRetries
    | simp (disch := (refine rest_intro fun x => ?_; cases x <;> (first | exact Or.inr rfl | exact Or.inl (needs_mem hp (by decide))))) only [frame_mk_tap, frame_mk_grSets]
    | dsimp only

theorem frame_moveOp (hp : Needs [.regs, .pace, .layouts, .rings, .hostReads, .tlb, .dram, .memctl, .freeze, .faults, .links,
    .griddle, .fresh, .out] fr) (c : Card) (h r : Nat) (o : Op) (v : Nat) (hC : Held fr c₀ c) : Held fr c₀ (Card.moveOp c h r
    o v) := by
  unfold Card.moveOp
  repeat' with_reducible first
    | assumption | exact needs_of hp (by decide) | refine frame_ite ?_ ?_ | apply frame_resumePaused | apply frame_setGr
    | apply frame_setOp
    | simp (disch := (refine rest_intro fun x => ?_; cases x <;> (first | exact Or.inr rfl | exact Or.inl (needs_mem hp (by decide))))) only [frame_mk_tap, frame_mk_grSets]
    | dsimp only

theorem frame_retryOnEqual (hp : Needs [.regs, .pace, .layouts, .rings, .hostReads, .tlb, .mem, .dram, .memctl, .power,
    .freeze, .faults, .links, .griddle, .fresh, .out] fr) (c : Card) (h r : Nat) (o : Op) (u v : Nat) (ok : Bool) (hC : Held
    fr c₀ c) : Held fr c₀ (Card.retryOnEqual c h r o u v ok) := by
  unfold Card.retryOnEqual
  repeat' with_reducible first
    | assumption | exact needs_of hp (by decide) | refine frame_ite ?_ ?_ | apply frame_inputVerdict | apply frame_logVerdict
    | apply frame_moveOp | apply frame_setFence | apply frame_stepFails
    | simp (disch := (refine rest_intro fun x => ?_; cases x <;> (first | exact Or.inr rfl | exact Or.inl (needs_mem hp (by decide))))) only [frame_mk_tap, frame_mk_grSets]
    | dsimp only

theorem frame_opStepFails (hp : Needs [.regs, .pace, .layouts, .rings, .hostReads, .tlb, .mem, .dram, .memctl, .power,
    .freeze, .faults, .links, .griddle, .fresh, .out] fr) (c : Card) (h r : Nat) (o : Op) (u : Nat) (again equal : Bool) (hC
    : Held fr c₀ c) : Held fr c₀ (Card.opStepFails c h r o u again equal) := by
  unfold Card.opStepFails
  repeat' with_reducible first
    | assumption | exact needs_of hp (by decide) | refine frame_ite ?_ ?_ | apply frame_fenceUnit | apply frame_logVerdict
    | apply frame_retryOnEqual | apply frame_setOp | apply frame_stepFails | apply frame_transient
    | simp (disch := (refine rest_intro fun x => ?_; cases x <;> (first | exact Or.inr rfl | exact Or.inl (needs_mem hp (by decide))))) only [frame_mk_tap, frame_mk_grSets]
    | (refine frame_of_fst (by assumption) ?_) | split | dsimp only

theorem frame_moveSlice (hp : Needs [.streams] fr) (c : Card) (h s u v : Nat) (hC : Held fr c₀ c) : Held fr c₀
    (Card.moveSlice c h s u v) := by
  unfold Card.moveSlice
  repeat' with_reducible first
    | assumption | exact needs_of hp (by decide) | refine frame_ite ?_ ?_ | apply frame_setStream
    | simp (disch := (refine rest_intro fun x => ?_; cases x <;> (first | exact Or.inr rfl | exact Or.inl (needs_mem hp (by decide))))) only [frame_mk_tap, frame_mk_grSets]
    | dsimp only

theorem frame_sliceOnEqual (hp : Needs [.regs, .pace, .memctl, .freeze, .faults, .streams, .out] fr) (c : Card) (h s : Nat)
    (t : Stream) (own : Bool) (u v : Nat) (ok : Bool) (hC : Held fr c₀ c) : Held fr c₀ (Card.sliceOnEqual c h s t own u v ok)
    := by
  unfold Card.sliceOnEqual
  repeat' with_reducible first
    | assumption | exact needs_of hp (by decide) | refine frame_ite ?_ ?_ | apply frame_inputVerdict | apply frame_logVerdict
    | apply frame_moveSlice | apply frame_setFence | apply frame_setStream
    | simp (disch := (refine rest_intro fun x => ?_; cases x <;> (first | exact Or.inr rfl | exact Or.inl (needs_mem hp (by decide))))) only [frame_mk_tap, frame_mk_grSets]
    | dsimp only

theorem frame_sliceFails (hp : Needs [.regs, .pace, .memctl, .freeze, .faults, .streams, .out] fr) (c : Card) (h u : Nat)
    (again equal : Bool) (hC : Held fr c₀ c) : Held fr c₀ (Card.sliceFails c h u again equal) := by
  unfold Card.sliceFails
  repeat' with_reducible first
    | assumption | exact needs_of hp (by decide) | refine frame_ite ?_ ?_ | apply frame_fenceUnit | apply frame_logVerdict
    | apply frame_setStream | apply frame_sliceOnEqual | apply frame_transient
    | simp (disch := (refine rest_intro fun x => ?_; cases x <;> (first | exact Or.inr rfl | exact Or.inl (needs_mem hp (by decide))))) only [frame_mk_tap, frame_mk_grSets]
    | (refine frame_of_fst (by assumption) ?_) | split | dsimp only

theorem frame_recStepFails (hp : Needs [.regs, .pace, .memctl, .freeze, .faults, .out] fr) (c : Card) (h : Nat) (again :
    Bool) (hC : Held fr c₀ c) : Held fr c₀ (Card.recStepFails c h again) := by
  unfold Card.recStepFails
  repeat' with_reducible first
    | assumption | exact needs_of hp (by decide) | refine frame_ite ?_ ?_ | apply frame_fenceUnit | apply frame_logVerdict
    | apply frame_transient
    | simp (disch := (refine rest_intro fun x => ?_; cases x <;> (first | exact Or.inr rfl | exact Or.inl (needs_mem hp (by decide))))) only [frame_mk_tap, frame_mk_grSets]
    | dsimp only

theorem frame_opRecFails (hp : Needs [.regs, .pace, .rings, .memctl, .freeze, .faults, .records, .out] fr) (c : Card) (h r :
    Nat) (o : Op) (again : Bool) (hC : Held fr c₀ c) : Held fr c₀ (Card.opRecFails c h r o again) := by
  unfold Card.opRecFails
  repeat' with_reducible first
    | assumption | exact needs_of hp (by decide) | refine frame_ite ?_ ?_ | apply frame_fenceUnit | apply frame_logVerdict
    | apply frame_setOp | apply frame_setRec | apply frame_transient
    | simp (disch := (refine rest_intro fun x => ?_; cases x <;> (first | exact Or.inr rfl | exact Or.inl (needs_mem hp (by decide))))) only [frame_mk_tap, frame_mk_grSets]
    | dsimp only

theorem frame_stepFault (hp : Needs [.regs, .pace, .layouts, .rings, .sems, .hostReads, .tlb, .mem, .dram, .memctl, .power,
    .freeze, .faults, .epochs, .records, .streams, .links, .griddle, .fresh, .out] fr) (c : Card) (f : StepFault) (hC : Held
    fr c₀ c) : Held fr c₀ (Card.stepFault c f) := by
  unfold Card.stepFault
  repeat' with_reducible first
    | assumption | exact needs_of hp (by decide) | refine frame_ite ?_ ?_ | apply frame_opRecFails | apply frame_opStepFails
    | apply frame_pump | apply frame_recStepFails | apply frame_settleFences | apply frame_sliceFails
    | simp (disch := (refine rest_intro fun x => ?_; cases x <;> (first | exact Or.inr rfl | exact Or.inl (needs_mem hp (by decide))))) only [frame_mk_tap, frame_mk_grSets]
    | (refine frame_of_fst (by assumption) ?_) | split | dsimp only

theorem frame_reinstated (hp : Needs [.regs, .faults] fr) (c : Card) (h cls u : Nat) (hC : Held fr c₀ c) : Held fr c₀
    (Card.reinstated c h cls u) := by
  unfold Card.reinstated
  repeat' with_reducible first
    | assumption | exact needs_of hp (by decide) | apply frame_setFence | apply frame_setN
    | simp (disch := (refine rest_intro fun x => ?_; cases x <;> (first | exact Or.inr rfl | exact Or.inl (needs_mem hp (by decide))))) only [frame_mk_tap, frame_mk_grSets]
    | dsimp only

theorem frame_pwrEvent (hp : Needs [.regs, .out] fr) (c : Card) (b : Nat) (hC : Held fr c₀ c) : Held fr c₀ (Card.pwrEvent c
    b) := by
  unfold Card.pwrEvent
  repeat' with_reducible first
    | assumption | exact needs_of hp (by decide) | apply frame_event
    | simp (disch := (refine rest_intro fun x => ?_; cases x <;> (first | exact Or.inr rfl | exact Or.inl (needs_mem hp (by decide))))) only [frame_mk_tap, frame_mk_grSets]
    | dsimp only

theorem frame_coreDown (hp : Needs [.time, .regs, .functions, .pace, .layouts, .rings, .sems, .hostReads, .contexts, .tlb, .pools, .mem, .sram, .dram, .memctl, .power, .freeze, .faults, .sched, .epochs, .records, .streams, .keys, .tracks, .links, .colanders, .raster, .griddle, .keep, .fuses, .out] fr) (c : Card) (hC : Held fr c₀ c) : Held fr c₀ (Card.coreDown c) := by
  have h0 : Held fr c₀ (if c.keep.host.isSome then ((c.setBit (mg 0x3004) 31 false).setBit (mg 0x3004) 30 false).setF (mg 0x3004) 27 24 6
      else c) := by
    repeat' with_reducible first
      | assumption | exact needs_of hp (by decide) | refine frame_ite ?_ ?_ | apply frame_setF | apply frame_setBit
      | simp (disch := (refine rest_intro fun x => ?_; cases x <;> (first | exact Or.inr rfl | exact Or.inl (needs_mem hp (by decide))))) only [frame_mk_tap, frame_mk_grSets]
      | split | dsimp only
  unfold Card.coreDown
  dsimp only
  refine frame_setF (needs_of hp (by decide)) _ _ _ _ _ (frame_setF (needs_of hp (by decide)) _ _ _ _ _
    (frame_setF (needs_of hp (by decide)) _ _ _ _ _ (frame_setF (needs_of hp (by decide)) _ _ _ _ _ ?_)))
  refine frame_foldl (fun _ _ h => frame_setBit (needs_of hp (by decide)) _ _ _ _ h) _ ?_
  refine held_of h0 ?_
  refine rest_intro fun x => ?_
  cases x <;> first | exact .inl (needs_mem hp (by decide)) | exact .inr rfl

theorem frame_powerDown (hp : Needs [.time, .regs, .config, .functions, .pace, .layouts, .rings, .sems, .hostReads, .contexts, .tlb, .pools, .mem, .sram, .dram, .memctl, .power, .freeze, .faults, .sched, .epochs, .records, .streams, .keys, .tracks, .links, .colanders, .raster, .griddle, .keep, .fuses, .tap, .out] fr) (c : Card) (hC : Held fr c₀ c) : Held fr c₀ (Card.powerDown c) := by
  unfold Card.powerDown
  dsimp only
  refine frame_setF (needs_of hp (by decide)) _ _ _ _ _ (held_of hC ?_)
  refine rest_intro fun x => ?_
  cases x <;> first | exact .inl (needs_mem hp (by decide)) | exact .inr rfl

theorem frame_startQual (hp : Needs [.power] fr) (c : Card) (hC : Held fr c₀ c) : Held fr c₀ (Card.startQual c) := by
  unfold Card.startQual
  repeat' with_reducible first
    | assumption | exact needs_of hp (by decide) | refine frame_ite ?_ ?_
    | simp (disch := (refine rest_intro fun x => ?_; cases x <;> (first | exact Or.inr rfl | exact Or.inl (needs_mem hp (by decide))))) only [frame_mk_tap, frame_mk_grSets]
    | dsimp only

theorem frame_bootVoltage (hp : Needs [.pace, .out] fr) (c : Card) (hC : Held fr c₀ c) : Held fr c₀ (Card.bootVoltage c) :=
    by
  unfold Card.bootVoltage
  repeat' with_reducible first
    | assumption | exact needs_of hp (by decide) | apply frame_emit
    | simp (disch := (refine rest_intro fun x => ?_; cases x <;> (first | exact Or.inr rfl | exact Or.inl (needs_mem hp (by decide))))) only [frame_mk_tap, frame_mk_grSets]
    | dsimp only

theorem frame_endQual (hp : Needs [.power] fr) (c : Card) (hC : Held fr c₀ c) : Held fr c₀ (Card.endQual c) := by
  unfold Card.endQual
  repeat' with_reducible first
    | assumption | exact needs_of hp (by decide)
    | simp (disch := (refine rest_intro fun x => ?_; cases x <;> (first | exact Or.inr rfl | exact Or.inl (needs_mem hp (by decide))))) only [frame_mk_tap, frame_mk_grSets]
    | dsimp only

theorem frame_writeEn (hp : Needs [.regs, .power] fr) (c : Card) (i : Nat) (on : Bool) (hC : Held fr c₀ c) : Held fr c₀
    (Card.writeEn c i on) := by
  unfold Card.writeEn
  repeat' with_reducible first
    | assumption | exact needs_of hp (by decide) | refine frame_ite ?_ ?_ | apply frame_setBit
    | simp (disch := (refine rest_intro fun x => ?_; cases x <;> (first | exact Or.inr rfl | exact Or.inl (needs_mem hp (by decide))))) only [frame_mk_tap, frame_mk_grSets]
    | dsimp only

theorem frame_thmEvent (hp : Needs [.regs, .out] fr) (c : Card) (b : Nat) (hC : Held fr c₀ c) : Held fr c₀ (Card.thmEvent c
    b) := by
  unfold Card.thmEvent
  repeat' with_reducible first
    | assumption | exact needs_of hp (by decide) | apply frame_event
    | simp (disch := (refine rest_intro fun x => ?_; cases x <;> (first | exact Or.inr rfl | exact Or.inl (needs_mem hp (by decide))))) only [frame_mk_tap, frame_mk_grSets]
    | dsimp only

theorem frame_setSensor (hp : Needs [.regs, .out] fr) (c : Card) (i : Nat) (t : Option Int) (hC : Held fr c₀ c) : Held fr c₀
    (Card.setSensor c i t) := by
  unfold Card.setSensor
  repeat' with_reducible first
    | assumption | exact needs_of hp (by decide) | refine frame_ite ?_ ?_ | apply frame_setBit | apply frame_setN
    | apply frame_thmEvent
    | simp (disch := (refine rest_intro fun x => ?_; cases x <;> (first | exact Or.inr rfl | exact Or.inl (needs_mem hp (by decide))))) only [frame_mk_tap, frame_mk_grSets]
    | (refine frame_of_fst (by assumption) ?_) | split | dsimp only

theorem frame_pinHot (hp : Needs [.power] fr) (c : Card) (hC : Held fr c₀ c) : Held fr c₀ (Card.pinHot c) := by
  unfold Card.pinHot
  repeat' with_reducible first
    | assumption | exact needs_of hp (by decide)
    | simp (disch := (refine rest_intro fun x => ?_; cases x <;> (first | exact Or.inr rfl | exact Or.inl (needs_mem hp (by decide))))) only [frame_mk_tap, frame_mk_grSets]
    | dsimp only

theorem frame_trip (hp : Needs [.time, .regs, .functions, .pace, .layouts, .rings, .sems, .hostReads, .contexts, .tlb,
    .pools, .mem, .sram, .dram, .memctl, .power, .freeze, .faults, .sched, .epochs, .records, .streams, .keys, .tracks,
    .links, .colanders, .raster, .griddle, .keep, .fuses, .out] fr) (c : Card) (sensor : Nat) (t : Int) (hC : Held fr c₀ c) :
    Held fr c₀ (Card.trip c sensor t) := by
  unfold Card.trip
  repeat' with_reducible first
    | assumption | exact needs_of hp (by decide) | apply frame_coreDown | apply frame_pinHot | apply frame_recordsChanged
    | apply frame_setF
    | simp (disch := (refine rest_intro fun x => ?_; cases x <;> (first | exact Or.inr rfl | exact Or.inl (needs_mem hp (by decide))))) only [frame_mk_tap, frame_mk_grSets]
    | dsimp only

theorem frame_stageFor (hp : Needs [.regs, .pace, .power, .out] fr) (c : Card) (tj : Int) (hC : Held fr c₀ c) : Held fr c₀
    (Card.stageFor c tj) := by
  unfold Card.stageFor
  repeat' with_reducible first
    | assumption | exact needs_of hp (by decide) | refine frame_ite ?_ ?_ | apply frame_govFlags | apply frame_judgeHeld
    | apply frame_setF | apply frame_thmEvent
    | simp (disch := (refine rest_intro fun x => ?_; cases x <;> (first | exact Or.inr rfl | exact Or.inl (needs_mem hp (by decide))))) only [frame_mk_tap, frame_mk_grSets]
    | dsimp only

theorem frame_presenceLog (hp : Needs [.keep] fr) (c : Card) (op means result detail : Nat) (hC : Held fr c₀ c) : Held fr c₀
    (Card.presenceLog c op means result detail) := by
  unfold Card.presenceLog
  repeat' with_reducible first
    | assumption | exact needs_of hp (by decide) | refine frame_ite ?_ ?_ | apply frame_recordsChanged
    | simp (disch := (refine rest_intro fun x => ?_; cases x <;> (first | exact Or.inr rfl | exact Or.inl (needs_mem hp (by decide))))) only [frame_mk_tap, frame_mk_grSets]
    | dsimp only

theorem frame_fuseLog (hp : Needs [.keep] fr) (c : Card) (w cls phase action mask value : Nat) (hC : Held fr c₀ c) : Held fr
    c₀ (Card.fuseLog c w cls phase action mask value) := by
  unfold Card.fuseLog
  repeat' with_reducible first
    | assumption | exact needs_of hp (by decide) | apply frame_recordsChanged
    | simp (disch := (refine rest_intro fun x => ?_; cases x <;> (first | exact Or.inr rfl | exact Or.inl (needs_mem hp (by decide))))) only [frame_mk_tap, frame_mk_grSets]
    | dsimp only

theorem frame_ksEvent (hp : Needs [.regs, .out] fr) (c : Card) (b : Nat) (hC : Held fr c₀ c) : Held fr c₀ (Card.ksEvent c b)
    := by
  unfold Card.ksEvent
  repeat' with_reducible first
    | assumption | exact needs_of hp (by decide) | apply frame_event
    | simp (disch := (refine rest_intro fun x => ?_; cases x <;> (first | exact Or.inr rfl | exact Or.inl (needs_mem hp (by decide))))) only [frame_mk_tap, frame_mk_grSets]
    | dsimp only

theorem frame_giveBack (hp : Needs [.keep] fr) (c : Card) (j : KsJob) (hC : Held fr c₀ c) : Held fr c₀ (Card.giveBack c j) :=
    by
  unfold Card.giveBack
  repeat' with_reducible first
    | assumption | exact needs_of hp (by decide)
    | simp (disch := (refine rest_intro fun x => ?_; cases x <;> (first | exact Or.inr rfl | exact Or.inl (needs_mem hp (by decide))))) only [frame_mk_tap, frame_mk_grSets]
    | dsimp only

theorem frame_ksEnd (hp : Needs [.regs, .keep, .out] fr) (c : Card) (result : Nat) (hC : Held fr c₀ c) : Held fr c₀
    (Card.ksEnd c result) := by
  unfold Card.ksEnd
  repeat' with_reducible first
    | assumption | exact needs_of hp (by decide) | refine frame_ite ?_ ?_ | apply frame_giveBack | apply frame_ksEvent
    | apply frame_setBit | apply frame_setF
    | simp (disch := (refine rest_intro fun x => ?_; cases x <;> (first | exact Or.inr rfl | exact Or.inl (needs_mem hp (by decide))))) only [frame_mk_tap, frame_mk_grSets]
    | (refine frame_of_fst (by assumption) ?_) | split | dsimp only

theorem frame_writeBank (hp : Needs [.regs, .keep] fr) (c : Card) (n : Nat) (hC : Held fr c₀ c) : Held fr c₀ (Card.writeBank
    c n) := by
  unfold Card.writeBank
  repeat' with_reducible first
    | assumption | exact needs_of hp (by decide) | apply frame_setN
    | simp (disch := (refine rest_intro fun x => ?_; cases x <;> (first | exact Or.inr rfl | exact Or.inl (needs_mem hp (by decide))))) only [frame_mk_tap, frame_mk_grSets]
    | dsimp only

theorem frame_hostWriteBank (hp : Needs [.regs, .keep] fr) (c : Card) (j : KsJob) (hC : Held fr c₀ c) : Held fr c₀
    (Card.hostWriteBank c j) := by
  unfold Card.hostWriteBank
  repeat' with_reducible first
    | assumption | exact needs_of hp (by decide) | apply frame_setBit | apply frame_writeBank
    | simp (disch := (refine rest_intro fun x => ?_; cases x <;> (first | exact Or.inr rfl | exact Or.inl (needs_mem hp (by decide))))) only [frame_mk_tap, frame_mk_grSets]
    | (refine frame_of_fst (by assumption) ?_) | split | dsimp only

theorem frame_askPresence (hp : Needs [.regs, .keep, .board, .out] fr) (c : Card) (op detail : Nat) (granted refused opened :
    Card → Card) (hC : Held fr c₀ c) (h_granted : ∀ c, Held fr c₀ c → Held fr c₀ (granted c)) (h_refused : ∀ c, Held fr c₀ c
    → Held fr c₀ (refused c)) (h_opened : ∀ c, Held fr c₀ c → Held fr c₀ (opened c)) : Held fr c₀ (Card.askPresence c op
    detail granted refused opened) := by
  unfold Card.askPresence
  repeat' with_reducible first
    | assumption | exact needs_of hp (by decide) | apply h_granted | apply h_refused | apply h_opened | refine frame_ite ?_ ?_
    | apply frame_ksEvent | apply frame_presenceLog
    | simp (disch := (refine rest_intro fun x => ?_; cases x <;> (first | exact Or.inr rfl | exact Or.inl (needs_mem hp (by decide))))) only [frame_mk_tap, frame_mk_grSets]
    | dsimp only

theorem frame_startHostStore (hp : Needs [.regs, .keep, .board, .fresh, .out] fr) (c : Card) (j : KsJob) (hC : Held fr c₀ c)
    : Held fr c₀ (Card.startHostStore c j) := by
  unfold Card.startHostStore
  repeat' with_reducible first
    | assumption | exact needs_of hp (by decide) | refine frame_ite ?_ ?_ | (refine frame_foldl (fun _ _ _ => ?_) _ ?_)
    | apply frame_askPresence | apply frame_draw | apply frame_hostWriteBank | apply frame_ksEnd | apply frame_setBit
    | apply frame_setF
    | simp (disch := (refine rest_intro fun x => ?_; cases x <;> (first | exact Or.inr rfl | exact Or.inl (needs_mem hp (by decide))))) only [frame_mk_tap, frame_mk_grSets]
    | (refine frame_of_fst (by assumption) ?_) | split | intro _ _ | dsimp only

theorem frame_ksGo (hp : Needs [.regs, .pace, .rings, .memctl, .power, .faults] fr) (c : Card) (v : Word) (cmd : Nat) (run :
    Card → Card) (hC : Held fr c₀ c) (h_run : ∀ c, Held fr c₀ c → Held fr c₀ (run c)) : Held fr c₀ (Card.ksGo c v cmd run) :=
    by
  unfold Card.ksGo
  repeat' with_reducible first
    | assumption | exact needs_of hp (by decide) | apply h_run | refine frame_ite ?_ ?_ | apply frame_writeReg
    | simp (disch := (refine rest_intro fun x => ?_; cases x <;> (first | exact Or.inr rfl | exact Or.inl (needs_mem hp (by decide))))) only [frame_mk_tap, frame_mk_grSets]
    | dsimp only

theorem frame_beginHostStore (hp : Needs [.regs, .keep, .board, .fresh, .out] fr) (c : Card) (cmd : Nat) (hC : Held fr c₀ c)
    : Held fr c₀ (Card.beginHostStore c cmd) := by
  unfold Card.beginHostStore
  repeat' with_reducible first
    | assumption | exact needs_of hp (by decide) | refine frame_ite ?_ ?_ | apply frame_setBit | apply frame_startHostStore
    | simp (disch := (refine rest_intro fun x => ?_; cases x <;> (first | exact Or.inr rfl | exact Or.inl (needs_mem hp (by decide))))) only [frame_mk_tap, frame_mk_grSets]
    | dsimp only

theorem frame_commitBank (hp : Needs [.regs, .keep] fr) (c : Card) (n : Nat) (img : List Byte) (ok : Bool) (hC : Held fr c₀
    c) : Held fr c₀ (Card.commitBank c n img ok) := by
  unfold Card.commitBank
  repeat' with_reducible first
    | assumption | exact needs_of hp (by decide) | refine frame_ite ?_ ?_ | apply frame_setBit | apply frame_setF
    | apply frame_setN
    | simp (disch := (refine rest_intro fun x => ?_; cases x <;> (first | exact Or.inr rfl | exact Or.inl (needs_mem hp (by decide))))) only [frame_mk_tap, frame_mk_grSets]
    | dsimp only

theorem frame_stgStep (hp : Needs [.regs] fr) (c : Card) (hC : Held fr c₀ c) : Held fr c₀ (Card.stgStep c) := by
  unfold Card.stgStep
  repeat' with_reducible first
    | assumption | exact needs_of hp (by decide) | apply frame_setF
    | simp (disch := (refine rest_intro fun x => ?_; cases x <;> (first | exact Or.inr rfl | exact Or.inl (needs_mem hp (by decide))))) only [frame_mk_tap, frame_mk_grSets]
    | dsimp only

theorem frame_startFuse (hp : Needs [.regs] fr) (c : Card) (hC : Held fr c₀ c) : Held fr c₀ (Card.startFuse c) := by
  unfold Card.startFuse
  repeat' with_reducible first
    | assumption | exact needs_of hp (by decide) | apply frame_setBit
    | simp (disch := (refine rest_intro fun x => ?_; cases x <;> (first | exact Or.inr rfl | exact Or.inl (needs_mem hp (by decide))))) only [frame_mk_tap, frame_mk_grSets]
    | (refine frame_of_fst (by assumption) ?_) | split | dsimp only

theorem frame_fuseEnd (hp : Needs [.regs, .fuses, .out] fr) (c : Card) (result : Nat) (hC : Held fr c₀ c) : Held fr c₀
    (Card.fuseEnd c result) := by
  unfold Card.fuseEnd
  repeat' with_reducible first
    | assumption | exact needs_of hp (by decide) | apply frame_event | apply frame_setBit | apply frame_setF
    | simp (disch := (refine rest_intro fun x => ?_; cases x <;> (first | exact Or.inr rfl | exact Or.inl (needs_mem hp (by decide))))) only [frame_mk_tap, frame_mk_grSets]
    | dsimp only

theorem frame_grantReadout (hp : Needs [.regs] fr) (c : Card) (jumper : Bool) (hC : Held fr c₀ c) : Held fr c₀
    (Card.grantReadout c jumper) := by
  unfold Card.grantReadout
  repeat' with_reducible first
    | assumption | exact needs_of hp (by decide) | apply frame_setBit
    | simp (disch := (refine rest_intro fun x => ?_; cases x <;> (first | exact Or.inr rfl | exact Or.inl (needs_mem hp (by decide))))) only [frame_mk_tap, frame_mk_grSets]
    | dsimp only

theorem frame_grantWindow (hp : Needs [.regs, .keep, .out] fr) (c : Card) (means : Nat) (hC : Held fr c₀ c) : Held fr c₀
    (Card.grantWindow c means) := by
  unfold Card.grantWindow
  repeat' with_reducible first
    | assumption | exact needs_of hp (by decide) | refine frame_ite ?_ ?_ | apply frame_grantReadout
    | apply frame_hostWriteBank | apply frame_ksEvent | apply frame_presenceLog | apply frame_startFuse
    | simp (disch := (refine rest_intro fun x => ?_; cases x <;> (first | exact Or.inr rfl | exact Or.inl (needs_mem hp (by decide))))) only [frame_mk_tap, frame_mk_grSets]
    | (refine frame_of_fst (by assumption) ?_) | split | dsimp only

theorem frame_endPresence (hp : Needs [.keep] fr) (c : Card) (hC : Held fr c₀ c) : Held fr c₀ (Card.endPresence c) := by
  unfold Card.endPresence
  repeat' with_reducible first
    | assumption | exact needs_of hp (by decide)
    | simp (disch := (refine rest_intro fun x => ?_; cases x <;> (first | exact Or.inr rfl | exact Or.inl (needs_mem hp (by decide))))) only [frame_mk_tap, frame_mk_grSets]
    | dsimp only

theorem frame_blow (hp : Needs [.fuses] fr) (c : Card) (w : Nat) (bits : Word) (hC : Held fr c₀ c) : Held fr c₀ (Card.blow c
    w bits) := by
  unfold Card.blow
  repeat' with_reducible first
    | assumption | exact needs_of hp (by decide)
    | simp (disch := (refine rest_intro fun x => ?_; cases x <;> (first | exact Or.inr rfl | exact Or.inl (needs_mem hp (by decide))))) only [frame_mk_tap, frame_mk_grSets]
    | dsimp only

theorem frame_fuseEvents (hp : Needs [.regs, .out] fr) (c : Card) (w phase : Nat) (hC : Held fr c₀ c) : Held fr c₀
    (Card.fuseEvents c w phase) := by
  unfold Card.fuseEvents
  repeat' with_reducible first
    | assumption | exact needs_of hp (by decide) | refine frame_ite ?_ ?_ | apply frame_event
    | simp (disch := (refine rest_intro fun x => ?_; cases x <;> (first | exact Or.inr rfl | exact Or.inl (needs_mem hp (by decide))))) only [frame_mk_tap, frame_mk_grSets]
    | (refine frame_of_fst (by assumption) ?_) | split | dsimp only

theorem frame_countMargins (hp : Needs [.regs] fr) (c : Card) (hC : Held fr c₀ c) : Held fr c₀ (Card.countMargins c) := by
  unfold Card.countMargins
  repeat' with_reducible first
    | assumption | exact needs_of hp (by decide) | apply frame_setF
    | simp (disch := (refine rest_intro fun x => ?_; cases x <;> (first | exact Or.inr rfl | exact Or.inl (needs_mem hp (by decide))))) only [frame_mk_tap, frame_mk_grSets]
    | dsimp only

theorem frame_setUnits (hp : Needs [.regs] fr) (c : Card) (hC : Held fr c₀ c) : Held fr c₀ (Card.setUnits c) := by
  unfold Card.setUnits
  repeat' with_reducible first
    | assumption | exact needs_of hp (by decide) | (refine frame_foldl (fun _ _ _ => ?_) _ ?_) | apply frame_setN
    | simp (disch := (refine rest_intro fun x => ?_; cases x <;> (first | exact Or.inr rfl | exact Or.inl (needs_mem hp (by decide))))) only [frame_mk_tap, frame_mk_grSets]
    | dsimp only

theorem frame_recordSeal (hp : Needs [.regs, .keep, .fuses, .out] fr) (c : Card) (hC : Held fr c₀ c) : Held fr c₀
    (Card.recordSeal c) := by
  unfold Card.recordSeal
  repeat' with_reducible first
    | assumption | exact needs_of hp (by decide) | refine frame_ite ?_ ?_ | apply frame_blow | apply frame_ksEvent
    | apply frame_recordsChanged | apply frame_setBit
    | simp (disch := (refine rest_intro fun x => ?_; cases x <;> (first | exact Or.inr rfl | exact Or.inl (needs_mem hp (by decide))))) only [frame_mk_tap, frame_mk_grSets]
    | dsimp only

theorem frame_enterStage (hp : Needs [.regs, .out] fr) (c : Card) (n : Nat) (hC : Held fr c₀ c) : Held fr c₀ (Card.enterStage
    c n) := by
  unfold Card.enterStage
  repeat' with_reducible first
    | assumption | exact needs_of hp (by decide) | apply frame_event | apply frame_setF | apply frame_setN
    | simp (disch := (refine rest_intro fun x => ?_; cases x <;> (first | exact Or.inr rfl | exact Or.inl (needs_mem hp (by decide))))) only [frame_mk_tap, frame_mk_grSets]
    | dsimp only

theorem frame_powerUp (hp : Needs [.time, .regs, .power, .out] fr) (c : Card) (hC : Held fr c₀ c) : Held fr c₀ (Card.powerUp
    c) := by
  unfold Card.powerUp
  repeat' with_reducible first
    | assumption | exact needs_of hp (by decide) | apply frame_checkSupplies | apply frame_enterStage | apply frame_setBit
    | apply frame_startQual
    | simp (disch := (refine rest_intro fun x => ?_; cases x <;> (first | exact Or.inr rfl | exact Or.inl (needs_mem hp (by decide))))) only [frame_mk_tap, frame_mk_grSets]
    | dsimp only

theorem frame_loadBanks (hp : Needs [.regs, .keep] fr) (c : Card) (hC : Held fr c₀ c) : Held fr c₀ (Card.loadBanks c) := by
  unfold Card.loadBanks
  repeat' with_reducible first
    | assumption | exact needs_of hp (by decide) | refine frame_ite ?_ ?_ | apply frame_setF | apply frame_setN
    | simp (disch := (refine rest_intro fun x => ?_; cases x <;> (first | exact Or.inr rfl | exact Or.inl (needs_mem hp (by decide))))) only [frame_mk_tap, frame_mk_grSets]
    | dsimp only

theorem frame_readFuse (hp : Needs [.regs] fr) (c : Card) (ms : List FuseMargin) (w : Nat) (hC : Held fr c₀ c) : Held fr c₀
    (Card.readFuse c ms w) := by
  unfold Card.readFuse
  repeat' with_reducible first
    | assumption | exact needs_of hp (by decide) | refine frame_ite ?_ ?_ | apply frame_setReg
    | simp (disch := (refine rest_intro fun x => ?_; cases x <;> (first | exact Or.inr rfl | exact Or.inl (needs_mem hp (by decide))))) only [frame_mk_tap, frame_mk_grSets]
    | dsimp only

theorem frame_bringChannel (hp : Needs [.regs, .memctl] fr) (c : Card) (ch : Nat) (m : ModuleResult) (hC : Held fr c₀ c) :
    Held fr c₀ (Card.bringChannel c ch m) := by
  unfold Card.bringChannel
  repeat' with_reducible first
    | assumption | exact needs_of hp (by decide) | refine frame_ite ?_ ?_ | apply frame_enforce | apply frame_setBit
    | apply frame_setF | apply frame_stageSet
    | simp (disch := (refine rest_intro fun x => ?_; cases x <;> (first | exact Or.inr rfl | exact Or.inl (needs_mem hp (by decide))))) only [frame_mk_tap, frame_mk_grSets]
    | (refine frame_of_fst (by assumption) ?_) | split | dsimp only

theorem frame_emptyCache (hp : Needs [.dram] fr) (c : Card) (hC : Held fr c₀ c) : Held fr c₀ (Card.emptyCache c) := by
  unfold Card.emptyCache
  repeat' with_reducible first
    | assumption | exact needs_of hp (by decide)
    | simp (disch := (refine rest_intro fun x => ?_; cases x <;> (first | exact Or.inr rfl | exact Or.inl (needs_mem hp (by decide))))) only [frame_mk_tap, frame_mk_grSets]
    | dsimp only

theorem frame_redirectRank (hp : Needs [.memctl] fr) (c : Card) (k t : Nat) (hC : Held fr c₀ c) : Held fr c₀
    (Card.redirectRank c k t) := by
  unfold Card.redirectRank
  repeat' with_reducible first
    | assumption | exact needs_of hp (by decide)
    | simp (disch := (refine rest_intro fun x => ?_; cases x <;> (first | exact Or.inr rfl | exact Or.inl (needs_mem hp (by decide))))) only [frame_mk_tap, frame_mk_grSets]
    | dsimp only

theorem frame_defaultFailed (hp : Needs [.regs] fr) (c : Card) (h code : Nat) (hC : Held fr c₀ c) : Held fr c₀
    (Card.defaultFailed c h code) := by
  unfold Card.defaultFailed
  repeat' with_reducible first
    | assumption | exact needs_of hp (by decide) | apply frame_lastResult | apply frame_setBit
    | simp (disch := (refine rest_intro fun x => ?_; cases x <;> (first | exact Or.inr rfl | exact Or.inl (needs_mem hp (by decide))))) only [frame_mk_tap, frame_mk_grSets]
    | dsimp only

theorem frame_checkDefault (hp : Needs [.regs, .functions, .layouts] fr) (c : Card) (h : Nat) (hC : Held fr c₀ c) : Held fr
    c₀ (Card.checkDefault c h) := by
  unfold Card.checkDefault
  repeat' with_reducible first
    | assumption | exact needs_of hp (by decide) | refine frame_ite ?_ ?_ | apply frame_defaultFailed | apply frame_lastResult
    | apply frame_makePending | apply frame_noteCheck | apply frame_noteImage | apply frame_setFn
    | simp (disch := (refine rest_intro fun x => ?_; cases x <;> (first | exact Or.inr rfl | exact Or.inl (needs_mem hp (by decide))))) only [frame_mk_tap, frame_mk_grSets]
    | (refine frame_of_fst (by assumption) ?_) | split | dsimp only

theorem frame_startWindows (hp : Needs [.pace, .sched] fr) (c : Card) (hC : Held fr c₀ c) : Held fr c₀ (Card.startWindows c)
    := by
  unfold Card.startWindows
  repeat' with_reducible first
    | assumption | exact needs_of hp (by decide)
    | simp (disch := (refine rest_intro fun x => ?_; cases x <;> (first | exact Or.inr rfl | exact Or.inl (needs_mem hp (by decide))))) only [frame_mk_tap, frame_mk_grSets]
    | dsimp only

theorem frame_restartPtm (hp : Needs [.time] fr) (c : Card) (hC : Held fr c₀ c) : Held fr c₀ (Card.restartPtm c) := by
  unfold Card.restartPtm
  repeat' with_reducible first
    | assumption | exact needs_of hp (by decide)
    | simp (disch := (refine rest_intro fun x => ?_; cases x <;> (first | exact Or.inr rfl | exact Or.inl (needs_mem hp (by decide))))) only [frame_mk_tap, frame_mk_grSets]
    | dsimp only

theorem frame_clearCfg (hp : Needs [.config] fr) (c : Card) (hC : Held fr c₀ c) : Held fr c₀ (Card.clearCfg c) := by
  unfold Card.clearCfg
  repeat' with_reducible first
    | assumption | exact needs_of hp (by decide)
    | simp (disch := (refine rest_intro fun x => ?_; cases x <;> (first | exact Or.inr rfl | exact Or.inl (needs_mem hp (by decide))))) only [frame_mk_tap, frame_mk_grSets]
    | dsimp only

theorem frame_startVfs (hp : Needs [.regs, .config, .functions] fr) (c : Card) (h : Nat) (hC : Held fr c₀ c) : Held fr c₀
    (Card.startVfs c h) := by
  unfold Card.startVfs
  repeat' with_reducible first
    | assumption | exact needs_of hp (by decide) | (refine frame_foldl (fun _ _ _ => ?_) _ ?_) | apply frame_dropVfs
    | apply frame_setBit | apply frame_setFn
    | simp (disch := (refine rest_intro fun x => ?_; cases x <;> (first | exact Or.inr rfl | exact Or.inl (needs_mem hp (by decide))))) only [frame_mk_tap, frame_mk_grSets]
    | dsimp only

theorem frame_pumpFn (hp : Needs [.regs, .pace, .rings, .sems, .hostReads, .epochs, .records, .out] fr) (c : Card) (n : Nat)
    (hC : Held fr c₀ c) : Held fr c₀ (Card.pumpFn c n) := by
  unfold Card.pumpFn
  repeat' with_reducible first
    | assumption | exact needs_of hp (by decide) | refine frame_ite ?_ ?_ | (refine frame_foldl (fun _ _ _ => ?_) _ ?_)
    | apply frame_pump
    | simp (disch := (refine rest_intro fun x => ?_; cases x <;> (first | exact Or.inr rfl | exact Or.inl (needs_mem hp (by decide))))) only [frame_mk_tap, frame_mk_grSets]
    | dsimp only

theorem frame_thawRequest (hp : Needs [.regs] fr) (c : Card) (hC : Held fr c₀ c) : Held fr c₀ (Card.thawRequest c) := by
  unfold Card.thawRequest
  repeat' with_reducible first
    | assumption | exact needs_of hp (by decide) | refine frame_ite ?_ ?_ | apply frame_setBit | apply frame_setF
    | simp (disch := (refine rest_intro fun x => ?_; cases x <;> (first | exact Or.inr rfl | exact Or.inl (needs_mem hp (by decide))))) only [frame_mk_tap, frame_mk_grSets]
    | dsimp only

theorem frame_frzCtl (hp : Needs [.regs, .pace, .rings, .memctl, .power, .freeze, .faults, .out] fr) (c : Card) (v : Word)
    (hC : Held fr c₀ c) : Held fr c₀ (Card.frzCtl c v) := by
  unfold Card.frzCtl
  repeat' with_reducible first
    | assumption | exact needs_of hp (by decide) | refine frame_ite ?_ ?_ | apply frame_freezeRequest
    | apply frame_thawRequest | apply frame_writeReg
    | simp (disch := (refine rest_intro fun x => ?_; cases x <;> (first | exact Or.inr rfl | exact Or.inl (needs_mem hp (by decide))))) only [frame_mk_tap, frame_mk_grSets]
    | dsimp only

theorem frame_stampUnits (hp : Needs [.freeze, .fresh] fr) (c : Card) (hC : Held fr c₀ c) : Held fr c₀ (Card.stampUnits c) :=
    by
  unfold Card.stampUnits
  repeat' with_reducible first
    | assumption | exact needs_of hp (by decide) | (refine frame_foldl (fun _ _ _ => ?_) _ ?_)
    | simp (disch := (refine rest_intro fun x => ?_; cases x <;> (first | exact Or.inr rfl | exact Or.inl (needs_mem hp (by decide))))) only [frame_mk_tap, frame_mk_grSets]
    | dsimp only

theorem frame_settleStop (hp : Needs [.dram, .power] fr) (c : Card) (hC : Held fr c₀ c) : Held fr c₀ (Card.settleStop c) :=
    by
  unfold Card.settleStop
  repeat' with_reducible first
    | assumption | exact needs_of hp (by decide)
    | simp (disch := (refine rest_intro fun x => ?_; cases x <;> (first | exact Or.inr rfl | exact Or.inl (needs_mem hp (by decide))))) only [frame_mk_tap, frame_mk_grSets]
    | dsimp only

theorem frame_shiftTimers (hp : Needs [.rings, .power, .records, .links] fr) (c : Card) (dt : Nat) (hC : Held fr c₀ c) : Held
    fr c₀ (Card.shiftTimers c dt) := by
  unfold Card.shiftTimers
  repeat' with_reducible first
    | assumption | exact needs_of hp (by decide)
    | simp (disch := (refine rest_intro fun x => ?_; cases x <;> (first | exact Or.inr rfl | exact Or.inl (needs_mem hp (by decide))))) only [frame_mk_tap, frame_mk_grSets]
    | dsimp only

theorem frame_thawRaster (hp : Needs [.regs, .tlb, .pools, .mem, .dram, .raster, .out] fr) (c : Card) (h k : Nat) (hC : Held
    fr c₀ c) : Held fr c₀ (Card.thawRaster c h k) := by
  unfold Card.thawRaster
  repeat' with_reducible first
    | assumption | exact needs_of hp (by decide) | refine frame_ite ?_ ?_ | apply frame_latch | apply frame_setVc
    | simp (disch := (refine rest_intro fun x => ?_; cases x <;> (first | exact Or.inr rfl | exact Or.inl (needs_mem hp (by decide))))) only [frame_mk_tap, frame_mk_grSets]
    | dsimp only

theorem frame_resume (hp : Needs [.regs, .config, .functions, .pace, .layouts, .rings, .sems, .hostReads, .contexts, .tlb,
    .pools, .mem, .sram, .dram, .memctl, .power, .freeze, .faults, .epochs, .records, .streams, .keys, .tracks, .links,
    .raster, .griddle, .keep, .fresh, .out] fr) (c : Card) (hC : Held fr c₀ c) : Held fr c₀ (Card.resume c) := by
  unfold Card.resume
  repeat' with_reducible first
    | assumption | exact needs_of hp (by decide) | (refine frame_foldl (fun _ _ _ => ?_) _ ?_) | apply frame_completion
    | apply frame_heldResets | apply frame_msixRelease | apply frame_pump | apply frame_pumpPort
    | apply frame_releaseAll | apply frame_thawRaster
    | simp (disch := (refine rest_intro fun x => ?_; cases x <;> (first | exact Or.inr rfl | exact Or.inl (needs_mem hp (by decide))))) only [frame_mk_tap, frame_mk_grSets]
    | dsimp only

theorem frame_loseRetention (hp : Needs [.freeze] fr) (c : Card) (hC : Held fr c₀ c) : Held fr c₀ (Card.loseRetention c) :=
    by
  unfold Card.loseRetention
  repeat' with_reducible first
    | assumption | exact needs_of hp (by decide)
    | simp (disch := (refine rest_intro fun x => ?_; cases x <;> (first | exact Or.inr rfl | exact Or.inl (needs_mem hp (by decide))))) only [frame_mk_tap, frame_mk_grSets]
    | dsimp only

theorem frame_endRefreeze (hp : Needs [.freeze] fr) (c : Card) (hC : Held fr c₀ c) : Held fr c₀ (Card.endRefreeze c) := by
  unfold Card.endRefreeze
  repeat' with_reducible first
    | assumption | exact needs_of hp (by decide)
    | simp (disch := (refine rest_intro fun x => ?_; cases x <;> (first | exact Or.inr rfl | exact Or.inl (needs_mem hp (by decide))))) only [frame_mk_tap, frame_mk_grSets]
    | dsimp only

theorem frame_fillRo (hp : Needs [.regs] fr) (c : Card) (bs : List Byte) (hC : Held fr c₀ c) : Held fr c₀ (Card.fillRo c bs)
    := by
  unfold Card.fillRo
  repeat' with_reducible first
    | assumption | exact needs_of hp (by decide) | (refine frame_foldl (fun _ _ _ => ?_) _ ?_) | apply frame_setN
    | simp (disch := (refine rest_intro fun x => ?_; cases x <;> (first | exact Or.inr rfl | exact Or.inl (needs_mem hp (by decide))))) only [frame_mk_tap, frame_mk_grSets]
    | dsimp only

theorem frame_roCtl (hp : Needs [.regs, .pace, .rings, .memctl, .power, .faults] fr) (c : Card) (v : Word) (hC : Held fr c₀
    c) : Held fr c₀ (Card.roCtl c v) := by
  unfold Card.roCtl
  repeat' with_reducible first
    | assumption | exact needs_of hp (by decide) | refine frame_ite ?_ ?_ | apply frame_fillRo | apply frame_setBit
    | apply frame_setF | apply frame_writeReg
    | simp (disch := (refine rest_intro fun x => ?_; cases x <;> (first | exact Or.inr rfl | exact Or.inl (needs_mem hp (by decide))))) only [frame_mk_tap, frame_mk_grSets]
    | (refine frame_of_fst (by assumption) ?_) | split | dsimp only

theorem frame_roUnlock (hp : Needs [.regs, .keep, .board, .out] fr) (c : Card) (v : Word) (hC : Held fr c₀ c) : Held fr c₀
    (Card.roUnlock c v) := by
  unfold Card.roUnlock
  repeat' with_reducible first
    | assumption | exact needs_of hp (by decide) | refine frame_ite ?_ ?_ | apply frame_askPresence | apply frame_grantReadout
    | apply frame_ksEvent | apply frame_setBit
    | simp (disch := (refine rest_intro fun x => ?_; cases x <;> (first | exact Or.inr rfl | exact Or.inl (needs_mem hp (by decide))))) only [frame_mk_tap, frame_mk_grSets]
    | intro _ _ | dsimp only

theorem frame_jtagIr (hp : Needs [.tap] fr) (c : Card) (code : Nat) (hC : Held fr c₀ c) : Held fr c₀ (Card.jtagIr c code) :=
    by
  unfold Card.jtagIr
  repeat' with_reducible first
    | assumption | exact needs_of hp (by decide)
    | simp (disch := (refine rest_intro fun x => ?_; cases x <;> (first | exact Or.inr rfl | exact Or.inl (needs_mem hp (by decide))))) only [frame_mk_tap, frame_mk_grSets]
    | dsimp only

theorem frame_jtagShift (hp : Needs [.out] fr) (c : Card) (dr len : Nat) (hC : Held fr c₀ c) : Held fr c₀ (Card.jtagShift c
    dr len) := by
  unfold Card.jtagShift
  repeat' with_reducible first
    | assumption | exact needs_of hp (by decide) | apply frame_emit
    | simp (disch := (refine rest_intro fun x => ?_; cases x <;> (first | exact Or.inr rfl | exact Or.inl (needs_mem hp (by decide))))) only [frame_mk_tap, frame_mk_grSets]
    | dsimp only

theorem frame_frzWrite (hp : Needs [.regs, .pace, .rings, .memctl, .power, .freeze, .faults, .keep, .board, .out] fr) (c :
    Card) (off : Nat) (v : Word) (hC : Held fr c₀ c) : Held fr c₀ (Card.frzWrite c off v) := by
  unfold Card.frzWrite
  repeat' with_reducible first
    | assumption | exact needs_of hp (by decide) | refine frame_ite ?_ ?_ | apply frame_frzCtl | apply frame_roCtl
    | apply frame_roUnlock | apply frame_write32
    | simp (disch := (refine rest_intro fun x => ?_; cases x <;> (first | exact Or.inr rfl | exact Or.inl (needs_mem hp (by decide))))) only [frame_mk_tap, frame_mk_grSets]
    | dsimp only

theorem frame_jtagPins (hp : Needs [.fresh, .out] fr) (c : Card) (len : Nat) (hC : Held fr c₀ c) : Held fr c₀ (Card.jtagPins
    c len) := by
  unfold Card.jtagPins
  repeat' with_reducible first
    | assumption | exact needs_of hp (by decide) | apply frame_draw | apply frame_emit
    | simp (disch := (refine rest_intro fun x => ?_; cases x <;> (first | exact Or.inr rfl | exact Or.inl (needs_mem hp (by decide))))) only [frame_mk_tap, frame_mk_grSets]
    | dsimp only

theorem frame_smbusAnswer (hp : Needs [.out] fr) (c : Card) (code : Nat) (data : List Byte) (hC : Held fr c₀ c) : Held fr c₀
    (Card.smbusAnswer c code data) := by
  unfold Card.smbusAnswer
  repeat' with_reducible first
    | assumption | exact needs_of hp (by decide) | apply frame_emit
    | simp (disch := (refine rest_intro fun x => ?_; cases x <;> (first | exact Or.inr rfl | exact Or.inl (needs_mem hp (by decide))))) only [frame_mk_tap, frame_mk_grSets]
    | dsimp only

theorem frame_boardWrite (hp : Needs [.board] fr) (c : Card) (code v : Nat) (hC : Held fr c₀ c) : Held fr c₀ (Card.boardWrite
    c code v) := by
  unfold Card.boardWrite
  repeat' with_reducible first
    | assumption | exact needs_of hp (by decide) | refine frame_ite ?_ ?_
    | simp (disch := (refine rest_intro fun x => ?_; cases x <;> (first | exact Or.inr rfl | exact Or.inl (needs_mem hp (by decide))))) only [frame_mk_tap, frame_mk_grSets]
    | (refine frame_of_fst (by assumption) ?_) | split | dsimp only

theorem frame_smbusWrite (hp : Needs [.board, .out] fr) (c : Card) (code : Nat) (v : Byte) (pec : Option Byte) (hC : Held fr
    c₀ c) : Held fr c₀ (Card.smbusWrite c code v pec) := by
  unfold Card.smbusWrite
  repeat' with_reducible first
    | assumption | exact needs_of hp (by decide) | refine frame_ite ?_ ?_ | apply frame_boardWrite | apply frame_emit
    | simp (disch := (refine rest_intro fun x => ?_; cases x <;> (first | exact Or.inr rfl | exact Or.inl (needs_mem hp (by decide))))) only [frame_mk_tap, frame_mk_grSets]
    | (refine frame_of_fst (by assumption) ?_) | split | dsimp only

theorem frame_sampleNext (hp : Needs [.regs, .pace, .rings, .hostReads, .tlb, .pools, .mem, .sram, .dram, .memctl, .freeze,
    .faults, .sched, .epochs, .links, .fresh, .out] fr) (c : Card) (h r : Nat) (o : Op) (hC : Held fr c₀ c) : Held fr c₀
    (Card.sampleNext c h r o) := by
  unfold Card.sampleNext
  repeat' with_reducible first
    | assumption | exact needs_of hp (by decide) | apply frame_drawXlate | apply frame_runStep | apply frames_sampleStep
    | simp (disch := (refine rest_intro fun x => ?_; cases x <;> (first | exact Or.inr rfl | exact Or.inl (needs_mem hp (by decide))))) only [frame_mk_tap, frame_mk_grSets]
    | dsimp only

theorem frame_stepOp (hp : Needs [.regs, .pace, .rings, .hostReads, .tlb, .pools, .mem, .sram, .dram, .memctl, .freeze,
    .faults, .sched, .epochs, .links, .colanders, .fresh, .out] fr) (c : Card) (h r seq : Nat) (hC : Held fr c₀ c) : Held fr
    c₀ (Card.stepOp c h r seq) := by
  unfold Card.stepOp
  repeat' with_reducible first
    | assumption | exact needs_of hp (by decide) | refine frame_ite ?_ ?_ | apply frame_sampleNext | apply frame_searchBlock
    | simp (disch := (refine rest_intro fun x => ?_; cases x <;> (first | exact Or.inr rfl | exact Or.inl (needs_mem hp (by decide))))) only [frame_mk_tap, frame_mk_grSets]
    | (refine frame_of_fst (by assumption) ?_) | split | dsimp only

theorem frame_stepsOp (hp : Needs [.regs, .pace, .rings, .hostReads, .tlb, .pools, .mem, .sram, .dram, .memctl, .freeze, .faults, .sched, .epochs, .links, .colanders, .fresh, .out] fr) (h r seq n : Nat) (c : Card) (hC : Held fr c₀ c) :
    Held fr c₀ (Card.stepsOp h r seq n c) := by
  induction n generalizing c with
  | zero => exact hC
  | succ n ih =>
    unfold Card.stepsOp
    exact ih _ (frame_stepOp (needs_of hp (by decide)) _ _ _ _ hC)

theorem frame_lastSteps (hp : Needs [.regs, .pace, .rings, .hostReads, .tlb, .pools, .mem, .sram, .dram, .memctl, .freeze,
    .faults, .sched, .epochs, .links, .colanders, .fresh, .out] fr) (c : Card) (h r : Nat) (o : Op) (bad : Bool) (hC : Held
    fr c₀ c) : Held fr c₀ (Card.lastSteps c h r o bad) := by
  unfold Card.lastSteps
  repeat' with_reducible first
    | assumption | exact needs_of hp (by decide) | refine frame_ite ?_ ?_ | apply frame_draw | apply frame_mapOps
    | apply frame_stepsOp
    | simp (disch := (refine rest_intro fun x => ?_; cases x <;> (first | exact Or.inr rfl | exact Or.inl (needs_mem hp (by decide))))) only [frame_mk_tap, frame_mk_grSets]
    | dsimp only

theorem frame_failData (hp : Needs [.mem, .fresh] fr) (c : Card) (o : Op) (bad : Option Nat) (hC : Held fr c₀ c) : Held fr c₀
    (Card.failData c o bad).1 := by
  unfold Card.failData
  repeat' with_reducible first
    | assumption | exact needs_of hp (by decide) | refine frame_ite ?_ ?_ | apply frame_takeBack
    | (refine frame_of_fst (by assumption) ?_) | split | split | dsimp only

theorem frame_retireRan (hp : Needs [.regs, .pace, .rings, .sems, .hostReads, .epochs, .records, .fresh, .out] fr) (c : Card)
    (h r : Nat) (o : Op) (hC : Held fr c₀ c) : Held fr c₀ (Card.retireRan c h r o) := by
  unfold Card.retireRan
  repeat' with_reducible first
    | assumption | exact needs_of hp (by decide) | refine frame_ite ?_ ?_ | apply frame_bump | apply frame_draw
    | apply frame_pump | apply frame_setOp
    | simp (disch := (refine rest_intro fun x => ?_; cases x <;> (first | exact Or.inr rfl | exact Or.inl (needs_mem hp (by decide))))) only [frame_mk_tap, frame_mk_grSets]
    | dsimp only

theorem frame_tickWork (hp : Needs [.regs, .pace, .rings, .hostReads, .tlb, .pools, .mem, .sram, .dram, .memctl, .freeze,
    .faults, .sched, .epochs, .links, .colanders, .raster, .fresh, .out] fr) (c : Card) (hC : Held fr c₀ c) : Held fr c₀
    (Card.tickWork c) := by
  unfold Card.tickWork
  repeat' with_reducible first
    | assumption | exact needs_of hp (by decide) | refine frame_ite ?_ ?_ | (refine frame_foldl (fun _ _ _ => ?_) _ ?_)
    | apply frame_draw | apply frame_rpDrain | apply frame_searchBlock | apply frame_stepOp
    | simp (disch := (refine rest_intro fun x => ?_; cases x <;> (first | exact Or.inr rfl | exact Or.inl (needs_mem hp (by decide))))) only [frame_mk_tap, frame_mk_grSets]
    | dsimp only

theorem frames_stageSource (hp : Needs [] fr) (staged : Bool) (rs : List (Nat × Nat)) : Holds fr c₀ (Eng.stageSource staged
    rs) := by
  unfold Eng.stageSource
  repeat' with_reducible first
    | assumption | exact needs_of hp (by decide) | apply frames_pure | apply frames_throw
    | refine frames_card_bind (fun _ _ => ?_) | refine frames_ite ?_ ?_ | apply frames_card | apply frames_op
    | apply frames_hamper | apply frames_ring | apply frames_check | apply frames_precheck | apply frames_wants
    | (refine frames_mapM _ (fun _ => ?_)) | (refine frames_bind ?_ (fun _ => ?_)) | dsimp only

theorem frames_srcRd (hp : Needs [.regs, .pace, .tlb, .dram, .memctl, .freeze, .faults, .out] fr) (staged : Bool) (src n :
    Nat) : Holds fr c₀ (Eng.srcRd staged src n) := by
  unfold Eng.srcRd
  repeat' with_reducible first
    | assumption | exact needs_of hp (by decide) | apply frames_pure | apply frames_throw
    | refine frames_card_bind (fun _ _ => ?_) | refine frames_ite ?_ ?_ | apply frames_card | apply frames_op
    | apply frames_hamper | apply frames_ring | apply frames_rd | apply frames_stRd
    | (refine frames_bind ?_ (fun _ => ?_)) | dsimp only

theorem frames_stageDest (hp : Needs [] fr) (dst n : Nat) : Holds fr c₀ (Eng.stageDest dst n) := by
  unfold Eng.stageDest
  repeat' with_reducible first
    | assumption | exact needs_of hp (by decide) | apply frames_pure | apply frames_throw
    | refine frames_card_bind (fun _ _ => ?_) | refine frames_ite ?_ ?_ | apply frames_card | apply frames_op
    | apply frames_hamper | apply frames_ring | apply frames_check | (refine frames_bind ?_ (fun _ => ?_)) | dsimp only

theorem frames_stageRowsWork (hp : Needs [.regs, .pace, .tlb, .sram, .dram, .memctl, .freeze, .faults, .out] fr) : Holds fr
    c₀ (stageRowsWork ) := by
  unfold stageRowsWork
  repeat' with_reducible first
    | assumption | exact needs_of hp (by decide) | apply frames_pure | apply frames_throw
    | refine frames_card_bind (fun _ _ => ?_) | refine frames_ite ?_ ?_ | apply frames_card | apply frames_op
    | apply frames_hamper | apply frames_ring | apply frames_check | apply frames_stWr | apply frames_stageSource
    | apply frames_srcRd | apply frames_stageDest | (refine frames_mapM _ (fun _ => ?_))
    | (refine frames_bind ?_ (fun _ => ?_)) | dsimp only

theorem frames_stageWeightsWork (hp : Needs [.regs, .pace, .tlb, .sram, .dram, .memctl, .freeze, .faults, .out] fr) : Holds
    fr c₀ (stageWeightsWork ) := by
  unfold stageWeightsWork
  repeat' with_reducible first
    | assumption | exact needs_of hp (by decide) | apply frames_pure | apply frames_throw
    | refine frames_card_bind (fun _ _ => ?_) | refine frames_ite ?_ ?_ | apply frames_card | apply frames_op
    | apply frames_hamper | apply frames_ring | apply frames_check | apply frames_stWr | apply frames_stageSource
    | apply frames_srcRd | apply frames_stageDest | (refine frames_mapM _ (fun _ => ?_))
    | (refine frames_bind ?_ (fun _ => ?_)) | dsimp only

theorem frames_stageConvWork (hp : Needs [.regs, .pace, .tlb, .sram, .dram, .memctl, .freeze, .faults, .fresh, .out] fr) :
    Holds fr c₀ (stageConvWork ) := by
  unfold stageConvWork
  repeat' with_reducible first
    | assumption | exact needs_of hp (by decide) | apply frames_pure | apply frames_throw
    | refine frames_card_bind (fun _ _ => ?_) | refine frames_ite ?_ ?_ | apply frames_card | apply frames_op
    | apply frames_hamper | apply frames_ring | refine frames_upd (fun _ _ => ?_) | apply frames_check
    | apply frames_failInput | apply frames_stWr | apply frames_stageSource | apply frames_srcRd
    | apply frames_stageDest | (refine frames_mapM _ (fun _ => ?_)) | (refine frames_bind ?_ (fun _ => ?_))
    | apply frame_draw | apply frame_setBit | refine frame_ite ?_ ?_
    | simp (disch := (refine rest_intro fun x => ?_; cases x <;> (first | exact Or.inr rfl | exact Or.inl (needs_mem hp (by decide))))) only [frame_mk_tap, frame_mk_grSets]
    | dsimp only

theorem frame_wkCount (hp : Needs [.regs] fr) (c : Card) (h : Nat) (n : WkCount) (hC : Held fr c₀ c) : Held fr c₀
    (Card.wkCount c h n) := by
  unfold Card.wkCount
  repeat' with_reducible first
    | assumption | exact needs_of hp (by decide) | refine frame_ite ?_ ?_ | apply frame_bump | apply frame_setBit
    | simp (disch := (refine rest_intro fun x => ?_; cases x <;> (first | exact Or.inr rfl | exact Or.inl (needs_mem hp (by decide))))) only [frame_mk_tap, frame_mk_grSets]
    | dsimp only

theorem frames_wkPages (hp : Needs [] fr) (d : Desc) (rows cols : Nat) (write : Bool) : Holds fr c₀ (Eng.wkPages d rows cols
    write) := by
  unfold Eng.wkPages
  repeat' with_reducible first
    | assumption | exact needs_of hp (by decide) | apply frames_pure | apply frames_throw
    | refine frames_card_bind (fun _ _ => ?_) | refine frames_ite ?_ ?_ | apply frames_card | apply frames_op
    | apply frames_hamper | apply frames_ring | apply frames_refuse | apply frames_precheck
    | (refine frames_forIn _ _ (fun _ _ => ?_)) | (refine frames_bind ?_ (fun _ => ?_)) | dsimp only

theorem frames_wkStaging (hp : Needs [] fr) (d : Desc) (n : Nat) : Holds fr c₀ (Eng.wkStaging d n) := by
  unfold Eng.wkStaging
  repeat' with_reducible first
    | assumption | exact needs_of hp (by decide) | apply frames_pure | apply frames_throw
    | refine frames_card_bind (fun _ _ => ?_) | refine frames_ite ?_ ?_ | apply frames_card | apply frames_op
    | apply frames_hamper | apply frames_ring | apply frames_check | (refine frames_bind ?_ (fun _ => ?_)) | dsimp only

theorem frames_wkRd (hp : Needs [.regs, .pace, .tlb, .dram, .memctl, .freeze, .faults, .fresh, .out] fr) (d : Desc) (off n :
    Nat) (dst : Option (Bool × Nat × Nat)) : Holds fr c₀ (Eng.wkRd d off n dst) := by
  unfold Eng.wkRd
  repeat' with_reducible first
    | assumption | exact needs_of hp (by decide) | apply frames_pure | apply frames_throw
    | refine frames_card_bind (fun _ _ => ?_) | refine frames_ite ?_ ?_ | apply frames_card | apply frames_op
    | apply frames_hamper | apply frames_ring | refine frames_upd (fun _ _ => ?_) | apply frames_srcRd
    | (refine frames_bind ?_ (fun _ => ?_)) | refine frame_ite ?_ ?_
    | simp (disch := (refine rest_intro fun x => ?_; cases x <;> (first | exact Or.inr rfl | exact Or.inl (needs_mem hp (by decide))))) only [frame_mk_tap, frame_mk_grSets]
    | split | dsimp only

theorem frames_wkWr (hp : Needs [.regs, .pace, .tlb, .pools, .mem, .sram, .dram, .memctl, .freeze, .faults, .epochs, .links,
    .out] fr) (d : Desc) (off : Nat) (bs : List Byte) : Holds fr c₀ (Eng.wkWr d off bs) := by
  unfold Eng.wkWr
  repeat' with_reducible first
    | assumption | exact needs_of hp (by decide) | apply frames_pure | apply frames_throw
    | refine frames_card_bind (fun _ _ => ?_) | refine frames_ite ?_ ?_ | apply frames_card | apply frames_op
    | apply frames_hamper | apply frames_ring | apply frames_wr | apply frames_stWr
    | (refine frames_bind ?_ (fun _ => ?_)) | dsimp only

theorem frames_wkRow (hp : Needs [.regs, .pace, .tlb, .dram, .memctl, .freeze, .faults, .fresh, .out] fr) (d : Desc) (cols i
    : Nat) (dst : Option (Bool × Nat × Nat)) : Holds fr c₀ (Eng.wkRow d cols i dst) := by
  unfold Eng.wkRow
  repeat' with_reducible first
    | assumption | exact needs_of hp (by decide) | apply frames_pure | apply frames_throw
    | refine frames_card_bind (fun _ _ => ?_) | refine frames_ite ?_ ?_ | apply frames_card | apply frames_op
    | apply frames_hamper | apply frames_ring | apply frames_wkRd | (refine frames_bind ?_ (fun _ => ?_)) | dsimp only

theorem frames_wkPut (hp : Needs [.regs, .pace, .tlb, .pools, .mem, .sram, .dram, .memctl, .freeze, .faults, .epochs, .links,
    .fresh, .out] fr) (d : Desc) (amax : Option Nat) (i : Nat) (xs : List Nat) : Holds fr c₀ (Eng.wkPut d amax i xs) := by
  unfold Eng.wkPut
  repeat' with_reducible first
    | assumption | exact needs_of hp (by decide) | apply frames_pure | apply frames_throw
    | refine frames_card_bind (fun _ _ => ?_) | refine frames_ite ?_ ?_ | apply frames_card | apply frames_op
    | apply frames_hamper | apply frames_ring | refine frames_upd (fun _ _ => ?_) | apply frames_wkWr
    | (refine frames_bind ?_ (fun _ => ?_)) | apply frame_draw | apply frame_wkCount | refine frame_ite ?_ ?_
    | simp (disch := (refine rest_intro fun x => ?_; cases x <;> (first | exact Or.inr rfl | exact Or.inl (needs_mem hp (by decide))))) only [frame_mk_tap, frame_mk_grSets]
    | dsimp only

theorem frames_zcRow (hp : Needs [.regs, .pace, .tlb, .pools, .mem, .sram, .dram, .memctl, .freeze, .faults, .epochs, .links, .out] fr) (d : Desc) (start : Nat) (l : List (List Byte)) (w : Nat) :
    Holds fr c₀ (Eng.zcRow d start l w) := by
  induction l generalizing w with
  | nil => exact frames_pure _
  | cons b t ih =>
    unfold Eng.zcRow
    repeat' with_reducible first
      | assumption | exact needs_of hp (by decide) | apply ih | apply frames_failInput | refine frames_ite ?_ ?_
      | apply frames_hamper | refine frames_upd (fun _ _ => ?_) | apply frames_wkWr
      | (refine frames_bind ?_ (fun _ => ?_)) | apply frame_setBit
      | simp (disch := (refine rest_intro fun x => ?_; cases x <;> (first | exact Or.inr rfl | exact Or.inl (needs_mem hp (by decide))))) only [frame_mk_tap, frame_mk_grSets]
      | split | dsimp only

theorem frames_zcEntry (hp : Needs [.regs, .pace, .tlb, .pools, .mem, .sram, .dram, .memctl, .freeze, .faults, .epochs,
    .links, .out] fr) (d : Desc) (i w : Nat) : Holds fr c₀ (Eng.zcEntry d i w) := by
  unfold Eng.zcEntry
  repeat' with_reducible first
    | assumption | exact needs_of hp (by decide) | apply frames_pure | apply frames_throw
    | refine frames_card_bind (fun _ _ => ?_) | refine frames_ite ?_ ?_ | apply frames_card | apply frames_op
    | apply frames_hamper | apply frames_ring | refine frames_upd (fun _ _ => ?_) | apply frames_failInput
    | apply frames_wkWr | (refine frames_bind ?_ (fun _ => ?_)) | apply frame_setBit | refine frame_ite ?_ ?_
    | simp (disch := (refine rest_intro fun x => ?_; cases x <;> (first | exact Or.inr rfl | exact Or.inl (needs_mem hp (by decide))))) only [frame_mk_tap, frame_mk_grSets]
    | dsimp only

theorem frames_zcRows (hp : Needs [.regs, .pace, .tlb, .pools, .mem, .sram, .dram, .memctl, .freeze, .faults, .epochs, .links, .out] fr) (d : Desc) (start : Nat) (rows : List (List Byte)) :
    Holds fr c₀ (Eng.zcRows d start rows) := by
  unfold Eng.zcRows
  repeat' with_reducible first
    | assumption | exact needs_of hp (by decide) | apply frames_zcEntry | apply frames_zcRow | apply frames_pure
    | (refine frames_forIn _ _ (fun _ _ => ?_)) | (refine frames_bind ?_ (fun _ => ?_)) | refine frame_ite ?_ ?_
    | simp (disch := (refine rest_intro fun x => ?_; cases x <;> (first | exact Or.inr rfl | exact Or.inl (needs_mem hp (by decide))))) only [frame_mk_tap, frame_mk_grSets]
    | split | dsimp only

theorem frames_zcWrite (hp : Needs [.regs, .pace, .tlb, .pools, .mem, .sram, .dram, .memctl, .freeze, .faults, .epochs,
    .links, .out] fr) (d : Desc) (rows : List (List Nat)) : Holds fr c₀ (Eng.zcWrite d rows) := by
  unfold Eng.zcWrite
  repeat' with_reducible first
    | assumption | exact needs_of hp (by decide) | apply frames_pure | apply frames_throw
    | refine frames_card_bind (fun _ _ => ?_) | refine frames_ite ?_ ?_ | apply frames_card | apply frames_op
    | apply frames_hamper | apply frames_ring | refine frames_upd (fun _ _ => ?_) | apply frames_zcRows
    | (refine frames_bind ?_ (fun _ => ?_)) | apply frame_wkCount | refine frame_ite ?_ ?_
    | simp (disch := (refine rest_intro fun x => ?_; cases x <;> (first | exact Or.inr rfl | exact Or.inl (needs_mem hp (by decide))))) only [frame_mk_tap, frame_mk_grSets]
    | dsimp only

theorem frames_wkBody (hp : Needs [] fr) : Holds fr c₀ (Eng.wkBody ) := by
  unfold Eng.wkBody
  repeat' with_reducible first
    | assumption | exact needs_of hp (by decide) | apply frames_pure | apply frames_throw
    | refine frames_card_bind (fun _ _ => ?_) | refine frames_ite ?_ ?_ | apply frames_card | apply frames_op
    | apply frames_hamper | apply frames_ring | (refine frames_bind ?_ (fun _ => ?_)) | dsimp only

theorem frames_wkSize (hp : Needs [] fr) (w : WkBody) : Holds fr c₀ (Eng.wkSize w) := by
  unfold Eng.wkSize
  repeat' with_reducible first
    | assumption | exact needs_of hp (by decide) | apply frames_pure | apply frames_throw
    | refine frames_card_bind (fun _ _ => ?_) | refine frames_ite ?_ ?_ | apply frames_card | apply frames_op
    | apply frames_hamper | apply frames_ring | (refine frames_bind ?_ (fun _ => ?_)) | dsimp only

theorem frames_wkCheck (hp : Needs [] fr) (ok : Bool) (l : List (Desc × Nat × Nat × Bool)) : Holds fr c₀ (Eng.wkCheck ok l)
    := by
  unfold Eng.wkCheck
  repeat' with_reducible first
    | assumption | exact needs_of hp (by decide) | apply frames_pure | apply frames_throw
    | refine frames_card_bind (fun _ _ => ?_) | refine frames_ite ?_ ?_ | apply frames_card | apply frames_op
    | apply frames_hamper | apply frames_ring | apply frames_check | apply frames_wkPages | apply frames_wkStaging
    | (refine frames_forIn _ _ (fun _ _ => ?_)) | (refine frames_bind ?_ (fun _ => ?_)) | dsimp only

theorem frames_mapWork (hp : Needs [.regs, .pace, .tlb, .pools, .mem, .sram, .dram, .memctl, .freeze, .faults, .epochs,
    .links, .fresh, .out] fr) : Holds fr c₀ (mapWork ) := by
  unfold mapWork
  repeat' with_reducible first
    | assumption | exact needs_of hp (by decide) | apply frames_pure | apply frames_throw
    | refine frames_card_bind (fun _ _ => ?_) | refine frames_ite ?_ ?_ | apply frames_card | apply frames_op
    | apply frames_hamper | apply frames_ring | apply frames_wkRd | apply frames_wkRow | apply frames_wkPut
    | apply frames_zcWrite | apply frames_wkBody | apply frames_wkSize | apply frames_wkCheck
    | (refine frames_forIn _ _ (fun _ _ => ?_)) | (refine frames_mapM _ (fun _ => ?_))
    | (refine frames_bind ?_ (fun _ => ?_)) | dsimp only

theorem frames_reduceWork (hp : Needs [.regs, .pace, .tlb, .pools, .mem, .sram, .dram, .memctl, .freeze, .faults, .epochs,
    .links, .fresh, .out] fr) : Holds fr c₀ (reduceWork ) := by
  unfold reduceWork
  repeat' with_reducible first
    | assumption | exact needs_of hp (by decide) | apply frames_pure | apply frames_throw
    | refine frames_card_bind (fun _ _ => ?_) | refine frames_ite ?_ ?_ | apply frames_card | apply frames_op
    | apply frames_hamper | apply frames_ring | refine frames_upd (fun _ _ => ?_) | apply frames_wkWr
    | apply frames_wkRow | apply frames_wkPut | apply frames_wkBody | apply frames_wkSize | apply frames_wkCheck
    | (refine frames_forIn _ _ (fun _ _ => ?_)) | (refine frames_mapM _ (fun _ => ?_))
    | (refine frames_bind ?_ (fun _ => ?_)) | apply frame_draw | refine frame_ite ?_ ?_
    | simp (disch := (refine rest_intro fun x => ?_; cases x <;> (first | exact Or.inr rfl | exact Or.inl (needs_mem hp (by decide))))) only [frame_mk_tap, frame_mk_grSets]
    | (refine frame_foldl (fun _ _ _ => ?_) _ ?_) | split | dsimp only

theorem frames_normWork (hp : Needs [.regs, .pace, .tlb, .pools, .mem, .sram, .dram, .memctl, .freeze, .faults, .epochs,
    .links, .fresh, .out] fr) : Holds fr c₀ (normWork ) := by
  unfold normWork
  repeat' with_reducible first
    | assumption | exact needs_of hp (by decide) | apply frames_pure | apply frames_throw
    | refine frames_card_bind (fun _ _ => ?_) | refine frames_ite ?_ ?_ | apply frames_card | apply frames_op
    | apply frames_hamper | apply frames_ring | apply frames_wkRow | apply frames_wkPut | apply frames_wkBody
    | apply frames_wkSize | apply frames_wkCheck | (refine frames_forIn _ _ (fun _ _ => ?_))
    | (refine frames_mapM _ (fun _ => ?_)) | (refine frames_bind ?_ (fun _ => ?_)) | dsimp only

theorem frames_dwWork (hp : Needs [.regs, .pace, .tlb, .pools, .mem, .sram, .dram, .memctl, .freeze, .faults, .epochs,
    .links, .fresh, .out] fr) : Holds fr c₀ (dwWork ) := by
  unfold dwWork
  repeat' with_reducible first
    | assumption | exact needs_of hp (by decide) | apply frames_pure | apply frames_throw
    | refine frames_card_bind (fun _ _ => ?_) | refine frames_ite ?_ ?_ | apply frames_card | apply frames_op
    | apply frames_hamper | apply frames_ring | refine frames_upd (fun _ _ => ?_) | apply frames_refuse
    | apply frames_check | apply frames_precheck | apply frames_wkStaging | apply frames_wkRd | apply frames_wkWr
    | apply frames_zcWrite | (refine frames_forIn _ _ (fun _ _ => ?_)) | (refine frames_bind ?_ (fun _ => ?_))
    | apply frame_wkCount | refine frame_ite ?_ ?_
    | simp (disch := (refine rest_intro fun x => ?_; cases x <;> (first | exact Or.inr rfl | exact Or.inl (needs_mem hp (by decide))))) only [frame_mk_tap, frame_mk_grSets]
    | split | dsimp only

end Sys2Proof.Laws
end

