-- ==== Sys2Proof/Laws/Kept.lean ====
section
/-! SUPPORT. What every operation of the machine keeps: one lemma for each function that yields a card, and one for each piece
of an operation's work. The steps of the machine are put together from these. -/

namespace Sys2Proof.Laws

set_option linter.all false
set_option maxRecDepth 10000

open Sys2Proof Sys2Proof.Machine

/-- What every operation below keeps, from a card whose blown fuse bits are `fz` and whose time is `tz`: the canonical
forms, the blown bits, and that time has not gone back. -/
structure Kept (fz : Tab Word) (tz : Nat) (c : Card) : Prop where
  mem : Memory.wf c.mem = true
  sram : Memory.wf c.sram = true
  regs : tabWf regReset c.regs = true
  sems : tabWf (fun _ => 0) c.sems = true
  fuses : ∀ w, tabGet 0 fz w &&& ~~~ (tabGet 0 c.blown w) = 0
  time : tz ≤ c.clk.now

variable {fz : Tab Word} {tz : Nat}

/-- Blowing more bits of a word keeps what was blown. -/
theorem fuse_put {t : Tab Word} {w : Nat} {bits : Word} (h : ∀ k, tabGet 0 fz k &&& ~~~ (tabGet 0 t k) = 0) (k : Nat) :
    tabGet 0 fz k &&& ~~~ (tabGet 0 (tabPut 0 t w (tabGet 0 t w ||| bits)) k) = 0 := by
  by_cases hk : k = w
  · subst hk
    by_cases hz : tabGet 0 t k ||| bits = 0
    · have hz' : tabGet 0 t k = 0 := by
        apply BitVec.eq_of_getLsbD_eq
        intro i hi
        have := congrArg (fun x => x.getLsbD i) hz
        simp only [BitVec.getLsbD_or] at this
        simp at this
        simp [this.1]
      have h0 := h k
      rw [hz'] at h0
      rw [show ~~~(0 : Word) = BitVec.allOnes 32 from by decide, BitVec.and_allOnes] at h0
      rw [h0]; simp
    · rw [tabPut, if_neg hz, tabGet_ins_self]
      have h0 := h k
      apply BitVec.eq_of_getLsbD_eq
      intro i hi
      have := congrArg (fun x => x.getLsbD i) h0
      simp [hi] at this ⊢
      intro hf
      simp [this hf]
  · rw [tabGet_put_ne _ _ hk]; exact h k

theorem kept_mk {c : Card} {x_caps x_holds x_cfg x_aer x_fns x_pace x_avs x_active x_pendLay x_loader x_rings x_reads x_cpls
    x_nextRid x_ctxs x_owners x_tlb x_xlDraw x_bufs x_poolChk x_rowsOpen x_cache x_useCount x_delays x_staged x_lastUse
    x_driftAt x_migr x_redirect x_migrQ x_heldAcc x_on x_timerFrac x_winAt x_winFrozen x_refreeze x_noRetention x_stamps
    x_fltMsg x_matchHits x_bursts x_sramBad x_ceLog x_dlyPend x_lost x_windows x_colPanic x_rpBuf x_rpPanic x_colFence x_rot
    x_heldSigs x_acceptNo x_recs x_epochs x_epochAt x_stTag x_provLeaves x_streams x_slices x_keys x_trackers x_ports
    x_remotes x_nextRemote x_vcs x_grSets x_keep x_presence x_fuseJob x_gov x_pin x_freezeN x_tap x_board x_coldMarginal
    x_fresh x_out} : Kept fz tz (Card.mk c.clk c.regs x_caps x_holds x_cfg x_aer x_fns x_pace x_avs x_active x_pendLay
    x_loader x_rings c.sems x_reads x_cpls x_nextRid x_ctxs x_owners x_tlb x_xlDraw x_bufs x_poolChk c.mem c.sram x_rowsOpen
    x_cache x_useCount x_delays x_staged x_lastUse x_driftAt x_migr x_redirect x_migrQ x_heldAcc x_on x_timerFrac x_winAt
    x_winFrozen x_refreeze x_noRetention x_stamps x_fltMsg x_matchHits x_bursts x_sramBad x_ceLog x_dlyPend x_lost x_windows
    x_colPanic x_rpBuf x_rpPanic x_colFence x_rot x_heldSigs x_acceptNo x_recs x_epochs x_epochAt x_stTag x_provLeaves
    x_streams x_slices x_keys x_trackers x_ports x_remotes x_nextRemote x_vcs x_grSets x_keep x_presence c.blown x_fuseJob
    x_gov x_pin x_freezeN x_tap x_board x_coldMarginal x_fresh x_out) ↔ Kept fz tz c := ⟨fun h => ⟨h.mem, h.sram, h.regs,
    h.sems, h.fuses, h.time⟩, fun h => ⟨h.mem, h.sram, h.regs, h.sems, h.fuses, h.time⟩⟩

theorem kept_ite {p : Prop} [Decidable p] {a b : Card} (ha : Kept fz tz a) (hb : Kept fz tz b) :
    Kept fz tz (if p then a else b) := by
  split <;> assumption

theorem kept_foldl {α : Type} {f : Card → α → Card} (hf : ∀ c x, Kept fz tz c → Kept fz tz (f c x)) (l : List α) {c : Card}
    (h : Kept fz tz c) : Kept fz tz (l.foldl f c) := by
  induction l generalizing c with
  | nil => exact h
  | cons x t ih => exact ih (hf c x h)

theorem kept_foldl_fst {α β : Type} {f : Card × β → α → Card × β} (hf : ∀ c x, Kept fz tz c.1 → Kept fz tz (f c x).1)
    (l : List α) {c : Card × β} (h : Kept fz tz c.1) : Kept fz tz (l.foldl f c).1 := by
  induction l generalizing c with
  | nil => exact h
  | cons x t ih => exact ih (hf c x h)

theorem kept_of_fst {α : Type} {p : Card × α} {a : Card} {b : α} (e : p = (a, b)) (h : Kept fz tz p.1) : Kept fz tz a := by
  subst e; exact h

theorem kept_setReg (c : Card) (k : Nat) (w : Word) (h : Kept fz tz c) : Kept fz tz (Card.setReg c k w) :=
  { h with regs := tabWf_put k w h.regs }

theorem kept_setF (c : Card) (k hi lo v : Nat) (hC : Kept fz tz c) : Kept fz tz (Card.setF c k hi lo v) := by
  unfold Card.setF
  repeat' with_reducible first
    | assumption | apply kept_setReg | simp only [kept_mk]

theorem kept_setBit (c : Card) (k i : Nat) (b : Bool) (hC : Kept fz tz c) : Kept fz tz (Card.setBit c k i b) := by
  unfold Card.setBit
  repeat' with_reducible first
    | assumption | apply kept_setF | simp only [kept_mk]

theorem kept_setN (c : Card) (k v : Nat) (hC : Kept fz tz c) : Kept fz tz (Card.setN c k v) := by
  unfold Card.setN
  repeat' with_reducible first
    | assumption | apply kept_setReg | simp only [kept_mk]

theorem kept_bumpF (c : Card) (k hi lo n : Nat) (hC : Kept fz tz c) : Kept fz tz (Card.bumpF c k hi lo n) := by
  unfold Card.bumpF
  repeat' with_reducible first
    | assumption | apply kept_setF | simp only [kept_mk]

theorem kept_bump (c : Card) (k n : Nat) (hC : Kept fz tz c) : Kept fz tz (Card.bump c k n) := by
  unfold Card.bump
  repeat' with_reducible first
    | assumption | apply kept_bumpF | simp only [kept_mk]

theorem kept_setPair (c : Card) (lo hi v : Nat) (hC : Kept fz tz c) : Kept fz tz (Card.setPair c lo hi v) := by
  unfold Card.setPair
  repeat' with_reducible first
    | assumption | apply kept_setN | simp only [kept_mk]

theorem kept_resetRegs (c : Card) (a b : Nat) (h : Kept fz tz c) : Kept fz tz (Card.resetRegs c a b) :=
  { h with regs := tabWf_filter _ h.regs }

theorem kept_draw (c : Card) (hC : Kept fz tz c) : Kept fz tz (Card.draw c) := by
  unfold Card.draw
  repeat' with_reducible first
    | assumption | simp only [kept_mk]

theorem kept_emit (c : Card) (o : Out) (hC : Kept fz tz c) : Kept fz tz (Card.emit c o) := by
  unfold Card.emit
  repeat' with_reducible first
    | assumption | simp only [kept_mk]

theorem kept_setCfg (c : Card) (n : Nat) (v : Cfg) (hC : Kept fz tz c) : Kept fz tz (Card.setCfg c n v) := by
  unfold Card.setCfg
  repeat' with_reducible first
    | assumption | simp only [kept_mk]

theorem kept_setFn (c : Card) (n : Nat) (v : FnState) (hC : Kept fz tz c) : Kept fz tz (Card.setFn c n v) := by
  unfold Card.setFn
  repeat' with_reducible first
    | assumption | simp only [kept_mk]

theorem kept_aerLog (c : Card) (pf : Nat) (e : AerErr) (hdr : Option Nat) (hC : Kept fz tz c) : Kept fz tz (Card.aerLog c pf
    e hdr) := by
  unfold Card.aerLog
  repeat' with_reducible first
    | assumption | refine kept_ite ?_ ?_ | (refine kept_of_fst (by assumption) ?_) | split | simp only [kept_mk]

theorem kept_msixSend (c : Card) (n v : Nat) (hC : Kept fz tz c) : Kept fz tz (Card.msixSend c n v) := by
  unfold Card.msixSend
  repeat' with_reducible first
    | assumption | apply kept_emit | simp only [kept_mk]

theorem kept_raise (c : Card) (n v : Nat) (hC : Kept fz tz c) : Kept fz tz (Card.raise c n v) := by
  unfold Card.raise
  repeat' with_reducible first
    | assumption | refine kept_ite ?_ ?_ | apply kept_msixSend | apply kept_setBit | simp only [kept_mk]

theorem kept_msixRelease (c : Card) (n : Nat) (hC : Kept fz tz c) : Kept fz tz (Card.msixRelease c n) := by
  unfold Card.msixRelease
  repeat' with_reducible first
    | assumption | refine kept_ite ?_ ?_ | (refine kept_foldl (fun _ _ _ => ?_) _ ?_) | apply kept_msixSend
    | apply kept_setBit | simp only [kept_mk]

theorem kept_event (c : Card) (off bit vec : Nat) (hC : Kept fz tz c) : Kept fz tz (Card.event c off bit vec) := by
  unfold Card.event
  repeat' with_reducible first
    | assumption | apply kept_raise | apply kept_setBit | simp only [kept_mk]

theorem kept_hpEvent (c : Card) (h off bit vec : Nat) (hC : Kept fz tz c) : Kept fz tz (Card.hpEvent c h off bit vec) := by
  unfold Card.hpEvent
  repeat' with_reducible first
    | assumption | apply kept_raise | apply kept_setBit | simp only [kept_mk]

theorem kept_setRing (c : Card) (h r : Nat) (v : Ring) (hC : Kept fz tz c) : Kept fz tz (Card.setRing c h r v) := by
  unfold Card.setRing
  repeat' with_reducible first
    | assumption | simp only [kept_mk]

theorem kept_setPace (c : Card) (h : Nat) (p : Pace) (hC : Kept fz tz c) : Kept fz tz (Card.setPace c h p) := by
  unfold Card.setPace
  repeat' with_reducible first
    | assumption | simp only [kept_mk]

theorem kept_runTimer (c : Card) (k unit dt : Nat) (hC : Kept fz tz c) : Kept fz tz (Card.runTimer c k unit dt) := by
  unfold Card.runTimer
  repeat' with_reducible first
    | assumption | apply kept_bump | simp only [kept_mk]

theorem kept_advance (c : Card) (dt : Nat) (hC : Kept fz tz c) : Kept fz tz (Card.advance c dt) := by
  have h0 : Kept fz tz { c with clk := { c.clk with now := c.clk.now + dt } } :=
    { hC with time := Nat.le_trans hC.time (Nat.le_add_right _ _) }
  unfold Card.advance
  dsimp only
  repeat' with_reducible first
    | assumption | refine kept_ite ?_ ?_ | (refine kept_foldl (fun _ _ _ => ?_) _ ?_) | apply kept_runTimer
    | apply kept_setPace

theorem kept_advanceTo (c : Card) (t : Nat) (hC : Kept fz tz c) : Kept fz tz (Card.advanceTo c t) := by
  unfold Card.advanceTo
  repeat' with_reducible first
    | assumption | refine kept_ite ?_ ?_ | apply kept_advance | simp only [kept_mk]

theorem kept_tick (c : Card) (hC : Kept fz tz c) : Kept fz tz (Card.tick c) := by
  unfold Card.tick
  repeat' with_reducible first
    | assumption | refine kept_ite ?_ ?_ | apply kept_advance | simp only [kept_mk]

theorem kept_setRec (c : Card) (h r : Nat) (v : RecRing) (hC : Kept fz tz c) : Kept fz tz (Card.setRec c h r v) := by
  unfold Card.setRec
  repeat' with_reducible first
    | assumption | simp only [kept_mk]

theorem kept_setEpoch (c : Card) (h e : Nat) (v : Epoch) (hC : Kept fz tz c) : Kept fz tz (Card.setEpoch c h e v) := by
  unfold Card.setEpoch
  repeat' with_reducible first
    | assumption | simp only [kept_mk]

theorem kept_setStream (c : Card) (h s : Nat) (v : Option Stream) (hC : Kept fz tz c) : Kept fz tz (Card.setStream c h s v)
    := by
  unfold Card.setStream
  repeat' with_reducible first
    | assumption | simp only [kept_mk]

theorem kept_setTracker (c : Card) (h : Nat) (v : Tracker) (hC : Kept fz tz c) : Kept fz tz (Card.setTracker c h v) := by
  unfold Card.setTracker
  repeat' with_reducible first
    | assumption | simp only [kept_mk]

theorem kept_setPort (c : Card) (p : Nat) (v : Port) (hC : Kept fz tz c) : Kept fz tz (Card.setPort c p v) := by
  unfold Card.setPort
  repeat' with_reducible first
    | assumption | simp only [kept_mk]

theorem kept_setGr (c : Card) (h u : Nat) (v : GrUnit) (hC : Kept fz tz c) : Kept fz tz (Card.setGr c h u v) := by
  unfold Card.setGr
  repeat' with_reducible first
    | assumption | simp only [kept_mk]

theorem kept_setVc (c : Card) (h k : Nat) (v : RpVc) (hC : Kept fz tz c) : Kept fz tz (Card.setVc c h k v) := by
  unfold Card.setVc
  repeat' with_reducible first
    | assumption | simp only [kept_mk]

theorem kept_unclaimed (c : Card) (fn : Fn) (write : Bool) (hdr : Option Nat) (hC : Kept fz tz c) : Kept fz tz
    (Card.unclaimed c fn write hdr) := by
  unfold Card.unclaimed
  repeat' with_reducible first
    | assumption | refine kept_ite ?_ ?_ | apply kept_aerLog | apply kept_emit | simp only [kept_mk]

theorem kept_hostWrite (c : Card) (fn : Fn) (off : Nat) (k : Card → Card) (hC : Kept fz tz c) (h_k : ∀ c, Kept fz tz c → Kept
    fz tz (k c)) : Kept fz tz (Card.hostWrite c fn off k) := by
  unfold Card.hostWrite
  repeat' with_reducible first
    | assumption | apply h_k | refine kept_ite ?_ ?_ | apply kept_bump | apply kept_draw | apply kept_unclaimed
    | (refine kept_of_fst (by assumption) ?_) | split | simp only [kept_mk]

theorem kept_settleB (c : Card) (hC : Kept fz tz c) : Kept fz tz (Card.settleB c) := by
  unfold Card.settleB
  repeat' with_reducible first
    | assumption | simp only [kept_mk]

theorem kept_noteGov (c : Card) (hC : Kept fz tz c) : Kept fz tz (Card.noteGov c) := by
  unfold Card.noteGov
  repeat' with_reducible first
    | assumption | refine kept_ite ?_ ?_ | apply kept_settleB | simp only [kept_mk]

theorem kept_clearRc (c : Card) (k : Nat) (hC : Kept fz tz c) : Kept fz tz (Card.clearRc c k) := by
  unfold Card.clearRc
  repeat' with_reducible first
    | assumption | refine kept_ite ?_ ?_ | (refine kept_foldl (fun _ _ _ => ?_) _ ?_) | apply kept_setReg
    | (refine kept_of_fst (by assumption) ?_) | split | simp only [kept_mk]

theorem kept_fullRead (c : Card) (k : Nat) (hC : Kept fz tz c) : Kept fz tz (Card.fullRead c k) := by
  unfold Card.fullRead
  repeat' with_reducible first
    | assumption | refine kept_ite ?_ ?_ | apply kept_clearRc | simp only [kept_mk]

theorem kept_readWord (c : Card) (fn : Fn) (off : Nat) (hC : Kept fz tz c) : Kept fz tz (Card.readWord c fn off).2 := by
  unfold Card.readWord
  split
  · exact hC
  · split
    · exact hC
    · exact kept_fullRead _ _ hC

theorem kept_read32 (c : Card) (fn : Fn) (off size : Nat) (hC : Kept fz tz c) : Kept fz tz (Card.read32 c fn off size) := by
  unfold Card.read32
  repeat' with_reducible first
    | assumption | refine kept_ite ?_ ?_ | apply kept_draw | apply kept_emit | apply kept_fullRead | apply kept_unclaimed
    | apply kept_readWord | split | dsimp only

theorem kept_trainPort (c : Card) (p : Nat) (hC : Kept fz tz c) : Kept fz tz (Card.trainPort c p) := by
  unfold Card.trainPort
  repeat' with_reducible first
    | assumption | refine kept_ite ?_ ?_ | apply kept_setF | simp only [kept_mk]

theorem kept_judgeHeld (c : Card) (hC : Kept fz tz c) : Kept fz tz (Card.judgeHeld c) := by
  unfold Card.judgeHeld
  repeat' with_reducible first
    | assumption | simp only [kept_mk]

theorem kept_refuseSearches (c : Card) (hC : Kept fz tz c) : Kept fz tz (Card.refuseSearches c) := by
  unfold Card.refuseSearches
  repeat' with_reducible first
    | assumption | refine kept_ite ?_ ?_ | (refine kept_foldl (fun _ _ _ => ?_) _ ?_) | apply kept_setRing
    | simp only [kept_mk]

theorem kept_writeReg (c : Card) (k : Nat) (v : Word) (hC : Kept fz tz c) : Kept fz tz (Card.writeReg c k v) := by
  unfold Card.writeReg
  repeat' with_reducible first
    | assumption | refine kept_ite ?_ ?_ | apply kept_bump | apply kept_judgeHeld | apply kept_noteGov
    | apply kept_refuseSearches | apply kept_setReg | apply kept_trainPort | (refine kept_of_fst (by assumption) ?_)
    | split | simp only [kept_mk]

theorem kept_holdLo (c : Card) (k : Nat) (v : Word) (hC : Kept fz tz c) : Kept fz tz (Card.holdLo c k v) := by
  unfold Card.holdLo
  repeat' with_reducible first
    | assumption | simp only [kept_mk]

theorem kept_dropHold (c : Card) (k : Nat) (hC : Kept fz tz c) : Kept fz tz (Card.dropHold c k) := by
  unfold Card.dropHold
  repeat' with_reducible first
    | assumption | simp only [kept_mk]

theorem kept_applyHi (c : Card) (k : Nat) (v : Word) (hC : Kept fz tz c) : Kept fz tz (Card.applyHi c k v) := by
  unfold Card.applyHi
  repeat' with_reducible first
    | assumption | apply kept_dropHold | apply kept_writeReg | simp only [kept_mk]

theorem kept_write32 (c : Card) (k : Nat) (v : Word) (hC : Kept fz tz c) : Kept fz tz (Card.write32 c k v) := by
  unfold Card.write32
  repeat' with_reducible first
    | assumption | refine kept_ite ?_ ?_ | apply kept_applyHi | apply kept_holdLo | apply kept_writeReg | simp only [kept_mk]

theorem kept_mmioWrite (c : Card) (fn : Fn) (off size value : Nat) (hC : Kept fz tz c) : Kept fz tz (Card.mmioWrite c fn off
    size value) := by
  unfold Card.mmioWrite
  repeat' with_reducible first
    | assumption | refine kept_ite ?_ ?_ | apply kept_hostWrite | apply kept_write32 | (rw [id_eq]; assumption)
    | (refine kept_of_fst (by assumption) ?_) | split | simp only [kept_mk] | intro _ _

theorem kept_bar4Write (c : Card) (fn : Fn) (off : Nat) (hC : Kept fz tz c) : Kept fz tz (Card.bar4Write c fn off) := by
  unfold Card.bar4Write
  repeat' with_reducible first
    | assumption | apply kept_hostWrite | (rw [id_eq]; assumption) | (refine kept_of_fst (by assumption) ?_) | split
    | simp only [kept_mk] | intro _ _

theorem kept_bar4Read (c : Card) (fn : Fn) (off size : Nat) (hC : Kept fz tz c) : Kept fz tz (Card.bar4Read c fn off size) :=
    by
  unfold Card.bar4Read
  repeat' with_reducible first
    | assumption | refine kept_ite ?_ ?_ | apply kept_draw | apply kept_emit | apply kept_unclaimed
    | (refine kept_of_fst (by assumption) ?_) | split | simp only [kept_mk]

theorem kept_configRead (c : Card) (fn : Fn) (fl : CfgField) (hC : Kept fz tz c) : Kept fz tz (Card.configRead c fn fl) := by
  unfold Card.configRead
  repeat' with_reducible first
    | assumption | refine kept_ite ?_ ?_ | apply kept_emit | simp only [kept_mk]

theorem kept_configWrite (c : Card) (fn : Fn) (fl : CfgField) (v : Nat) (hC : Kept fz tz c) : Kept fz tz (Card.configWrite c
    fn fl v) := by
  unfold Card.configWrite
  repeat' with_reducible first
    | assumption | refine kept_ite ?_ ?_ | apply kept_setCfg | (refine kept_of_fst (by assumption) ?_) | split
    | simp only [kept_mk]

theorem kept_memPut (c : Card) (key : Nat) (b : Byte) (h : Kept fz tz c) : Kept fz tz (Card.memPut c key b) :=
  { h with mem := tabWf_put (d := fun _ => memDefault) key b h.mem }

theorem kept_setPoison (c : Card) (key : Nat) (b : Bool) (hC : Kept fz tz c) : Kept fz tz (Card.setPoison c key b) := by
  unfold Card.setPoison
  repeat' with_reducible first
    | assumption | apply kept_memPut | simp only [kept_mk]

theorem kept_putBytes (c : Card) (e : RegionEnt) (d : Nat) (bs : List Byte) (hC : Kept fz tz c) :
    Kept fz tz (Card.putBytes c e d bs) := by
  induction bs generalizing c d with
  | nil => exact hC
  | cons b t ih =>
    unfold Card.putBytes
    split
    · exact ih c (d + 1) hC
    · exact ih _ (d + 1) (kept_memPut c _ b hC)

theorem kept_clearLines (c : Card) (e : RegionEnt) (d n : Nat) (hC : Kept fz tz c) : Kept fz tz (Card.clearLines c e d n) :=
    by
  unfold Card.clearLines
  repeat' with_reducible first
    | assumption | refine kept_ite ?_ ?_ | (refine kept_foldl (fun _ _ _ => ?_) _ ?_) | apply kept_setPoison
    | (refine kept_of_fst (by assumption) ?_) | split | simp only [kept_mk]

theorem kept_wrRegion (c : Card) (e : RegionEnt) (d : Nat) (bs : List Byte) (hC : Kept fz tz c) : Kept fz tz (Card.wrRegion c
    e d bs) := by
  unfold Card.wrRegion
  repeat' with_reducible first
    | assumption | apply kept_clearLines | apply kept_putBytes | simp only [kept_mk]

theorem kept_sramWr (c : Card) (h o : Nat) (bs : List Byte) (hC : Kept fz tz c) : Kept fz tz (Card.sramWr c h o bs) := by
  induction bs generalizing c o with
  | nil => exact hC
  | cons b t ih => exact ih _ (o + 1) { hC with sram := tabWf_put (d := fun _ => memDefault) _ b hC.sram }

theorem kept_wakeChannel (c : Card) (ch : Nat) (hC : Kept fz tz c) : Kept fz tz (Card.wakeChannel c ch) := by
  unfold Card.wakeChannel
  repeat' with_reducible first
    | assumption | refine kept_ite ?_ ?_ | apply kept_setF | simp only [kept_mk]

theorem kept_dramTouch (c : Card) (rank a : Nat) (hC : Kept fz tz c) : Kept fz tz (Card.dramTouch c rank a) := by
  unfold Card.dramTouch
  repeat' with_reducible first
    | assumption | refine kept_ite ?_ ?_ | apply kept_bump | apply kept_wakeChannel | simp only [kept_mk]

theorem kept_rowsTouch (c : Card) (p a b : Nat) (hC : Kept fz tz c) : Kept fz tz (Card.rowsTouch c p a b) := by
  unfold Card.rowsTouch
  repeat' with_reducible first
    | assumption | (refine kept_foldl (fun _ _ _ => ?_) _ ?_) | apply kept_bump | apply kept_wakeChannel | simp only [kept_mk]

theorem kept_dropLines (c : Card) (p : Nat → Nat → Bool) (hC : Kept fz tz c) : Kept fz tz (Card.dropLines c p) := by
  unfold Card.dropLines
  repeat' with_reducible first
    | assumption | simp only [kept_mk]

theorem kept_zeroRows (c : Card) (l : List (Nat × Nat × Nat)) (hC : Kept fz tz c) : Kept fz tz (Card.zeroRows c l) := by
  have hd := kept_dropLines c (inRows l) hC
  unfold Card.zeroRows
  refine kept_foldl (fun _ _ h => ?_) _ { hd with mem := tabWf_filter _ hC.mem }
  split
  · exact kept_rowsTouch _ _ _ _ h
  · exact h

theorem kept_setWay (c : Card) (ch set w : Nat) (l : Option CacheLine) (hC : Kept fz tz c) : Kept fz tz (Card.setWay c ch set
    w l) := by
  unfold Card.setWay
  repeat' with_reducible first
    | assumption | simp only [kept_mk]

theorem kept_countUse (c : Card) (hC : Kept fz tz c) : Kept fz tz (Card.countUse c) := by
  unfold Card.countUse
  repeat' with_reducible first
    | assumption | simp only [kept_mk]

theorem kept_lineDram (c : Card) (ch a : Nat) (hC : Kept fz tz c) : Kept fz tz (Card.lineDram c ch a) := by
  unfold Card.lineDram
  repeat' with_reducible first
    | assumption | apply kept_dramTouch | (refine kept_of_fst (by assumption) ?_) | split | simp only [kept_mk]

theorem kept_lineTouch (c : Card) (h : Option Nat) (through : Bool) (ch a : Nat) (write : Bool) (ep : Option Nat) (hC : Kept
    fz tz c) : Kept fz tz (Card.lineTouch c h through ch a write ep) := by
  unfold Card.lineTouch
  repeat' with_reducible first
    | assumption | refine kept_ite ?_ ?_ | apply kept_countUse | apply kept_lineDram | apply kept_setWay
    | (refine kept_of_fst (by assumption) ?_) | split | simp only [kept_mk]

theorem kept_touch (c : Card) (h : Option Nat) (e : RegionEnt) (d n : Nat) (write : Bool) (ep : Option Nat) (hC : Kept fz tz
    c) : Kept fz tz (Card.touch c h e d n write ep) := by
  unfold Card.touch
  repeat' with_reducible first
    | assumption | refine kept_ite ?_ ?_ | (refine kept_foldl (fun _ _ _ => ?_) _ ?_) | apply kept_lineTouch
    | simp only [kept_mk]

theorem kept_capture (c : Card) (rank a kind : Nat) (hC : Kept fz tz c) : Kept fz tz (Card.capture c rank a kind) := by
  unfold Card.capture
  repeat' with_reducible first
    | assumption | refine kept_ite ?_ ?_ | apply kept_bump | apply kept_event | apply kept_setBit | apply kept_setF
    | apply kept_setN | simp only [kept_mk]

theorem kept_countCe (c : Card) (ch n : Nat) (replay : Bool) (hC : Kept fz tz c) : Kept fz tz (Card.countCe c ch n replay) :=
    by
  unfold Card.countCe
  repeat' with_reducible first
    | assumption | refine kept_ite ?_ ?_ | apply kept_bump | simp only [kept_mk]

theorem kept_setCapacity (c : Card) (hC : Kept fz tz c) : Kept fz tz (Card.setCapacity c) := by
  unfold Card.setCapacity
  repeat' with_reducible first
    | assumption | apply kept_setN | simp only [kept_mk]

theorem kept_setRank (c : Card) (k state peer : Nat) (hC : Kept fz tz c) : Kept fz tz (Card.setRank c k state peer) := by
  unfold Card.setRank
  repeat' with_reducible first
    | assumption | apply kept_setF | simp only [kept_mk]

theorem kept_setBuf (c : Card) (h p i : Nat) (b : Option Buf) (hC : Kept fz tz c) : Kept fz tz (Card.setBuf c h p i b) := by
  unfold Card.setBuf
  repeat' with_reducible first
    | assumption | simp only [kept_mk]

theorem kept_poolMin (c : Card) (h p : Nat) (hC : Kept fz tz c) : Kept fz tz (Card.poolMin c h p) := by
  unfold Card.poolMin
  repeat' with_reducible first
    | assumption | apply kept_setF | simp only [kept_mk]

theorem kept_ladderTake (c : Card) (h : Nat) (ps : List Nat) (hC : Kept fz tz c) : Kept fz tz (Card.ladderTake c h ps).1 := by
  induction ps generalizing c with
  | nil => exact hC
  | cons q rest ih =>
    unfold Card.ladderTake
    split
    · exact hC
    · split
      · exact kept_bump _ _ _ hC
      · exact ih _ (kept_bump _ _ _ hC)

theorem kept_poolFind (c : Card) (h sel n : Nat) (hC : Kept fz tz c) : Kept fz tz (Card.poolFind c h sel n).1 := by
  unfold Card.poolFind
  repeat' with_reducible first
    | assumption | refine kept_ite ?_ ?_ | apply kept_bump | apply kept_ladderTake | (refine kept_of_fst (by assumption) ?_)
    | split | split | dsimp only

theorem kept_poolTakeAt (c : Card) (h p i ctx ring : Nat) (ep : Option Nat) (hC : Kept fz tz c) : Kept fz tz (Card.poolTakeAt
    c h p i ctx ring ep) := by
  unfold Card.poolTakeAt
  repeat' with_reducible first
    | assumption | refine kept_ite ?_ ?_ | apply kept_hpEvent | apply kept_poolMin | apply kept_setBuf | simp only [kept_mk]

theorem kept_poolTake (c : Card) (h sel n ctx ring : Nat) (ep : Option Nat) (hC : Kept fz tz c) : Kept fz tz (Card.poolTake c
    h sel n ctx ring ep).1 := by
  unfold Card.poolTake
  repeat' with_reducible first
    | assumption | apply kept_poolFind | apply kept_poolTakeAt | (refine kept_of_fst (by assumption) ?_) | split | split
    | dsimp only

theorem kept_poolFree (c : Card) (h p i ctx ring : Nat) (host late : Bool) (hC : Kept fz tz c) : Kept fz tz (Card.poolFree c
    h p i ctx ring host late) := by
  unfold Card.poolFree
  repeat' with_reducible first
    | assumption | refine kept_ite ?_ ?_ | apply kept_bump | apply kept_hpEvent | apply kept_poolMin | apply kept_setBuf
    | apply kept_setN | (refine kept_of_fst (by assumption) ?_) | split | simp only [kept_mk]

theorem kept_freeWhere (c : Card) (f : Nat → Buf → Bool) (hC : Kept fz tz c) : Kept fz tz (Card.freeWhere c f) := by
  unfold Card.freeWhere
  repeat' with_reducible first
    | assumption | (refine kept_foldl (fun _ _ _ => ?_) _ ?_) | apply kept_poolMin | simp only [kept_mk]

theorem kept_setPoolChk (c : Card) (h : Nat) (k : Option PoolCheck) (hC : Kept fz tz c) : Kept fz tz (Card.setPoolChk c h k)
    := by
  unfold Card.setPoolChk
  repeat' with_reducible first
    | assumption | simp only [kept_mk]

theorem kept_drawXlate (c : Card) (hC : Kept fz tz c) : Kept fz tz (Card.drawXlate c) := by
  unfold Card.drawXlate
  repeat' with_reducible first
    | assumption | simp only [kept_mk]

theorem kept_touchWalk (c : Card) (h ctx va : Nat) (hC : Kept fz tz c) : Kept fz tz (Card.touchWalk c h ctx va) := by
  unfold Card.touchWalk
  repeat' with_reducible first
    | assumption | refine kept_ite ?_ ?_ | (refine kept_foldl (fun _ _ _ => ?_) _ ?_) | apply kept_touch
    | (refine kept_of_fst (by assumption) ?_) | split | simp only [kept_mk]

theorem kept_cachePage (c : Card) (h ctx va : Nat) (hC : Kept fz tz c) : Kept fz tz (Card.cachePage c h ctx va) := by
  unfold Card.cachePage
  repeat' with_reducible first
    | assumption | refine kept_ite ?_ ?_ | (refine kept_of_fst (by assumption) ?_) | split | simp only [kept_mk]

theorem kept_cacheXlate (c : Card) (h ctx va n : Nat) (hC : Kept fz tz c) : Kept fz tz (Card.cacheXlate c h ctx va n) := by
  unfold Card.cacheXlate
  repeat' with_reducible first
    | assumption | (refine kept_foldl (fun _ _ _ => ?_) _ ?_) | apply kept_cachePage | apply kept_touchWalk
    | simp only [kept_mk]

theorem kept_readDone (c : Card) (h ctx va n : Nat) (hC : Kept fz tz c) : Kept fz tz (Card.readDone c h ctx va n) := by
  unfold Card.readDone
  repeat' with_reducible first
    | assumption | (refine kept_foldl (fun _ _ _ => ?_) _ ?_) | apply kept_cacheXlate | apply kept_touch | simp only [kept_mk]

theorem kept_dropXlate (c : Card) (reg off : Nat) (hC : Kept fz tz c) : Kept fz tz (Card.dropXlate c reg off) := by
  unfold Card.dropXlate
  repeat' with_reducible first
    | assumption | simp only [kept_mk]

theorem kept_rewriteLeaf {c c' : Card} {l : Leaf} {e : Nat} (hC : Kept fz tz c) (he : c.rewriteLeaf l e = .ok c') :
    Kept fz tz c' := by
  unfold Card.rewriteLeaf at he
  simp only [bind, Except.bind, pure, Except.pure] at he
  split at he
  · cases he
  · split at he
    · cases he
    · cases he
      exact kept_dropXlate _ _ _ (kept_wrRegion _ _ _ _ hC)

theorem kept_sparseBack (c : Card) (h ctx ring : Nat) (ep : Option Nat) (l : Leaf) (err : Option Nat) (hC : Kept fz tz c) :
    Kept fz tz (Card.sparseBack c h ctx ring ep l err).1 := by
  unfold Card.sparseBack
  dsimp only
  repeat' with_reducible first
    | assumption | apply kept_bump | apply kept_poolFree | apply kept_poolTakeAt | split
  exact kept_rewriteLeaf (kept_wrRegion _ _ _ _ (kept_poolTakeAt _ _ _ _ _ _ _ hC)) ‹_›

theorem kept_vwritePage (c : Card) (h ctx ring : Nat) (ep : Option Nat) (va : Nat) (bs : List Byte) (hC : Kept fz tz c) :
    Kept fz tz (Card.vwritePage c h ctx ring ep va bs).card := by
  unfold Card.vwritePage
  split
  · exact hC
  · split
    · exact hC
    · split <;> exact hC
    · split
      · exact hC
      · have hp : ∀ p : Card × Res (Nat × Nat), Kept fz tz p.1 → ∀ l : Leaf, Kept fz tz (match p with
          | (c, .error d) => ({ card := c, fault := some ⟨d, 0, va⟩ } : WRes)
          | (c, .ok (reg, off)) =>
            match c.region ctx reg (off + l.pageOff va) bs.length with
            | .error d => { card := c, fault := some ⟨d, 0, va⟩ }
            | .ok e =>
              let d := off + l.pageOff va
              let c' := (c.wrRegion e d bs).touch (some h) e d bs.length true (ep.map (fun x => 65536 * h + x))
              { card := c', undo := c.undoOf e d bs.length,
                fault := if c.anyLost e d bs.length then some ⟨dRankLost, 0, va⟩ else none }).card := by
          rintro ⟨c, _ | ⟨reg, off⟩⟩ h1 l
          · exact h1
          · dsimp only
            split
            · exact h1
            · exact kept_touch _ _ _ _ _ _ _ (kept_wrRegion _ _ _ _ h1)
        refine hp _ ?_ _
        split
        · exact kept_sparseBack _ _ _ _ _ _ _ hC
        · exact hC

theorem kept_vwriteGo (h ctx ring : Nat) (ep : Option Nat) (fuel : Nat) (c : Card) (va : Nat) (bs : List Byte)
    (hC : Kept fz tz c) : Kept fz tz (Card.vwriteGo h ctx ring ep fuel c va bs).card := by
  induction fuel generalizing c va bs with
  | zero => exact hC
  | succ n ih =>
    have h1 := kept_vwritePage c h ctx ring ep va (bs.take (pageRest va)) hC
    unfold Card.vwriteGo
    split
    · exact hC
    · dsimp only
      split
      · exact h1
      · exact ih _ _ _ h1

theorem kept_vwrite (c : Card) (h ctx ring : Nat) (ep : Option Nat) (va : Nat) (bs : List Byte) (hC : Kept fz tz c) :
    Kept fz tz (Card.vwrite c h ctx ring ep va bs).card := kept_vwriteGo _ _ _ _ _ _ _ _ hC

theorem kept_xlFault (c : Card) (h ring ctx : Nat) (f : XFault) (hC : Kept fz tz c) : Kept fz tz (Card.xlFault c h ring ctx
    f) := by
  unfold Card.xlFault
  repeat' with_reducible first
    | assumption | refine kept_ite ?_ ?_ | apply kept_bump | apply kept_raise | apply kept_setN | apply kept_setPair
    | (refine kept_of_fst (by assumption) ?_) | split | simp only [kept_mk]

theorem kept_poisonPartial (c : Card) (e : RegionEnt) (d n : Nat) (bad : List Nat) (hC : Kept fz tz c) : Kept fz tz
    (Card.poisonPartial c e d n bad) := by
  unfold Card.poisonPartial
  repeat' with_reducible first
    | assumption | refine kept_ite ?_ ?_ | (refine kept_foldl (fun _ _ _ => ?_) _ ?_) | apply kept_setPoison
    | (refine kept_of_fst (by assumption) ?_) | split | simp only [kept_mk]

theorem kept_ctxWrite (c : Card) (h : Nat) (t : Stream) (va : Nat) (bs : List Byte) (hC : Kept fz tz c) : Kept fz tz
    (Card.ctxWrite c h t va bs) := by
  unfold Card.ctxWrite
  repeat' with_reducible first
    | assumption | apply kept_vwrite | apply kept_xlFault | (refine kept_of_fst (by assumption) ?_) | split
    | simp only [kept_mk]

theorem kept_enqueue (c : Card) (h s : Nat) (t : Stream) (m : FeedMark) (bs : List Byte) (hC : Kept fz tz c) : Kept fz tz
    (Card.enqueue c h s t m bs).1 := by
  unfold Card.enqueue
  repeat' with_reducible first
    | assumption | apply kept_ctxWrite | apply kept_setStream | simp only [kept_mk] | split | dsimp only

theorem kept_feedCut (c : Card) (h : Nat) (o : Op) (starts : List Nat) (hC : Kept fz tz c) : Kept fz tz (Card.feedCut c h o
    starts) := by
  unfold Card.feedCut
  repeat' with_reducible first
    | assumption | refine kept_ite ?_ ?_ | apply kept_enqueue | apply kept_setStream | (refine kept_of_fst (by assumption) ?_)
    | split | simp only [kept_mk]

theorem kept_endHeldReads (c : Card) (hC : Kept fz tz c) : Kept fz tz (Card.endHeldReads c) := by
  unfold Card.endHeldReads
  repeat' with_reducible first
    | assumption | refine kept_ite ?_ ?_ | (refine kept_foldl (fun _ _ _ => ?_) _ ?_) | apply kept_emit | simp only [kept_mk]

theorem kept_holdWindows (c : Card) (hC : Kept fz tz c) : Kept fz tz (Card.holdWindows c) := by
  unfold Card.holdWindows
  repeat' with_reducible first
    | assumption | simp only [kept_mk]

theorem kept_freezeWave (c : Card) (src : Nat) (hC : Kept fz tz c) : Kept fz tz (Card.freezeWave c src) := by
  unfold Card.freezeWave
  repeat' with_reducible first
    | assumption | refine kept_ite ?_ ?_ | (refine kept_foldl (fun _ _ _ => ?_) _ ?_) | apply kept_bump | apply kept_emit
    | apply kept_endHeldReads | apply kept_holdWindows | apply kept_setBit | apply kept_setF | apply kept_setPair
    | simp only [kept_mk]

theorem kept_freezeRequest (c : Card) (src : Nat) (hC : Kept fz tz c) : Kept fz tz (Card.freezeRequest c src) := by
  unfold Card.freezeRequest
  repeat' with_reducible first
    | assumption | refine kept_ite ?_ ?_ | apply kept_freezeWave | apply kept_setBit | simp only [kept_mk]

theorem kept_govFlags (c : Card) (hC : Kept fz tz c) : Kept fz tz (Card.govFlags c) := by
  unfold Card.govFlags
  repeat' with_reducible first
    | assumption | refine kept_ite ?_ ?_ | apply kept_bump | apply kept_event | apply kept_setBit | apply kept_settleB
    | (refine kept_of_fst (by assumption) ?_) | split | simp only [kept_mk]

theorem kept_stopShares (c : Card) (n : Nat) (hC : Kept fz tz c) : Kept fz tz (Card.stopShares c n) := by
  unfold Card.stopShares
  repeat' with_reducible first
    | assumption | apply kept_setF | simp only [kept_mk]

theorem kept_loadOn (c : Card) (l : Load) (hC : Kept fz tz c) : Kept fz tz (Card.loadOn c l) := by
  unfold Card.loadOn
  repeat' with_reducible first
    | assumption | apply kept_setBit | apply kept_setF | (refine kept_of_fst (by assumption) ?_) | split | simp only [kept_mk]

theorem kept_acknowledge (c : Card) (x : GovStart) (hC : Kept fz tz c) : Kept fz tz (Card.acknowledge c x) := by
  unfold Card.acknowledge
  repeat' with_reducible first
    | assumption | apply kept_loadOn | (refine kept_of_fst (by assumption) ?_) | split | simp only [kept_mk]

theorem kept_sharesFor (c : Card) (x : GovStart) (hC : Kept fz tz c) : Kept fz tz (Card.sharesFor c x) := by
  unfold Card.sharesFor
  repeat' with_reducible first
    | assumption | refine kept_ite ?_ ?_ | apply kept_stopShares | (refine kept_of_fst (by assumption) ?_) | split
    | simp only [kept_mk]

theorem kept_govStart (c : Card) (load : Load) (lc : Bool) (op : Option (Nat × Nat)) (hC : Kept fz tz c) : Kept fz tz
    (Card.govStart c load lc op) := by
  unfold Card.govStart
  repeat' with_reducible first
    | assumption | refine kept_ite ?_ ?_ | apply kept_acknowledge | apply kept_govFlags | apply kept_settleB
    | apply kept_sharesFor | simp only [kept_mk]

theorem kept_govStopAll (c : Card) (mine : Load → Option (Nat × Nat) → Bool) (hC : Kept fz tz c) : Kept fz tz
    (Card.govStopAll c mine) := by
  unfold Card.govStopAll
  repeat' with_reducible first
    | assumption | refine kept_ite ?_ ?_ | apply kept_govFlags | apply kept_settleB | simp only [kept_mk]

theorem kept_govStop (c : Card) (l : Load) (hC : Kept fz tz c) : Kept fz tz (Card.govStop c l) := by
  unfold Card.govStop
  repeat' with_reducible first
    | assumption | apply kept_govStopAll | simp only [kept_mk]

theorem kept_govDrop (c : Card) (h r : Nat) (hC : Kept fz tz c) : Kept fz tz (Card.govDrop c h r) := by
  unfold Card.govDrop
  repeat' with_reducible first
    | assumption | apply kept_govStopAll | simp only [kept_mk]

theorem kept_govDropOp (c : Card) (h r seq : Nat) (hC : Kept fz tz c) : Kept fz tz (Card.govDropOp c h r seq) := by
  unfold Card.govDropOp
  repeat' with_reducible first
    | assumption | apply kept_govStopAll | simp only [kept_mk]

theorem kept_checkSupplies (c : Card) (hC : Kept fz tz c) : Kept fz tz (Card.checkSupplies c) := by
  unfold Card.checkSupplies
  repeat' with_reducible first
    | assumption | refine kept_ite ?_ ?_ | (refine kept_foldl (fun _ _ _ => ?_) _ ?_) | apply kept_govStart
    | apply kept_govStop | apply kept_setBit | simp only [kept_mk]

theorem kept_noteFltMsg (c : Card) (hC : Kept fz tz c) : Kept fz tz (Card.noteFltMsg c) := by
  unfold Card.noteFltMsg
  repeat' with_reducible first
    | assumption | simp only [kept_mk]

theorem kept_countMatch (c : Card) (hC : Kept fz tz c) : Kept fz tz (Card.countMatch c) := by
  unfold Card.countMatch
  repeat' with_reducible first
    | assumption | (refine kept_of_fst (by assumption) ?_) | split | simp only [kept_mk]

theorem kept_log (c : Card) (e : LogEntry) (hC : Kept fz tz c) : Kept fz tz (Card.log c e) := by
  unfold Card.log
  repeat' with_reducible first
    | assumption | refine kept_ite ?_ ?_ | (refine kept_foldl (fun _ _ _ => ?_) _ ?_) | apply kept_bump
    | apply kept_countMatch | apply kept_freezeRequest | apply kept_noteFltMsg | apply kept_raise | apply kept_setBit
    | apply kept_setN | (refine kept_of_fst (by assumption) ?_) | split | simp only [kept_mk]

theorem kept_setFence (c : Card) (h cls u : Nat) (b : Bool) (hC : Kept fz tz c) : Kept fz tz (Card.setFence c h cls u b) :=
    by
  unfold Card.setFence
  repeat' with_reducible first
    | assumption | refine kept_ite ?_ ?_ | (refine kept_foldl (fun _ _ _ => ?_) _ ?_) | apply kept_setBit
    | simp only [kept_mk]

theorem kept_fenceUnit (c : Card) (h cls u : Nat) (hC : Kept fz tz c) : Kept fz tz (Card.fenceUnit c h cls u) := by
  unfold Card.fenceUnit
  repeat' with_reducible first
    | assumption | refine kept_ite ?_ ?_ | apply kept_event | apply kept_hpEvent | apply kept_setFence | simp only [kept_mk]

theorem kept_transient (c : Card) (h cls u ring ctx kind : Nat) (hC : Kept fz tz c) : Kept fz tz (Card.transient c h cls u
    ring ctx kind) := by
  unfold Card.transient
  repeat' with_reducible first
    | assumption | refine kept_ite ?_ ?_ | apply kept_bumpF | apply kept_fenceUnit | apply kept_hpEvent | apply kept_log
    | simp only [kept_mk]

theorem kept_retireCause (c : Card) (rank chunk : Nat) (hC : Kept fz tz c) : Kept fz tz (Card.retireCause c rank chunk) := by
  unfold Card.retireCause
  repeat' with_reducible first
    | assumption | refine kept_ite ?_ ?_ | simp only [kept_mk]

theorem kept_recordsChanged (c : Card) (urgent : Bool) (f : KsRecords → KsRecords) (hC : Kept fz tz c) : Kept fz tz
    (Card.recordsChanged c urgent f) := by
  unfold Card.recordsChanged
  repeat' with_reducible first
    | assumption | simp only [kept_mk]

theorem kept_recordRetired (c : Card) (k : Nat) (hC : Kept fz tz c) : Kept fz tz (Card.recordRetired c k) := by
  unfold Card.recordRetired
  repeat' with_reducible first
    | assumption | apply kept_recordsChanged | simp only [kept_mk]

theorem kept_targetFailed (c : Card) (hC : Kept fz tz c) : Kept fz tz (Card.targetFailed c) := by
  unfold Card.targetFailed
  repeat' with_reducible first
    | assumption | apply kept_recordRetired | apply kept_setCapacity | apply kept_setRank
    | (refine kept_of_fst (by assumption) ?_) | split | simp only [kept_mk]

theorem kept_cause (c : Card) (rank chunk : Nat) (hC : Kept fz tz c) : Kept fz tz (Card.cause c rank chunk) := by
  unfold Card.cause
  repeat' with_reducible first
    | assumption | refine kept_ite ?_ ?_ | apply kept_retireCause | apply kept_targetFailed | simp only [kept_mk]

theorem kept_scramble (c : Card) (key : Nat) (hC : Kept fz tz c) : Kept fz tz (Card.scramble c key) := by
  unfold Card.scramble
  repeat' with_reducible first
    | assumption | (refine kept_foldl (fun _ _ _ => ?_) _ ?_) | apply kept_memPut | simp only [kept_mk]

theorem kept_dropLine (c : Card) (ch line : Nat) (hC : Kept fz tz c) : Kept fz tz (Card.dropLine c ch line) := by
  unfold Card.dropLine
  repeat' with_reducible first
    | assumption | simp only [kept_mk]

theorem kept_markSram (c : Card) (word : Nat) (hC : Kept fz tz c) : Kept fz tz (Card.markSram c word) := by
  unfold Card.markSram
  repeat' with_reducible first
    | assumption | simp only [kept_mk]

theorem kept_noteCe (c : Card) (ch : Nat) (hC : Kept fz tz c) : Kept fz tz (Card.noteCe c ch) := by
  unfold Card.noteCe
  repeat' with_reducible first
    | assumption | simp only [kept_mk]

theorem kept_memErr (c : Card) (h ring ctx : Nat) (e : MemErr) (hC : Kept fz tz c) : Kept fz tz (Card.memErr c h ring ctx
    e).1 := by
  unfold Card.memErr
  repeat' with_reducible first
    | assumption | refine kept_ite ?_ ?_ | apply kept_aerLog | apply kept_bump | apply kept_capture | apply kept_cause
    | apply kept_countCe | apply kept_draw | apply kept_dropLine | apply kept_log | apply kept_markSram
    | apply kept_noteCe | apply kept_scramble | apply kept_setPoison | (refine kept_of_fst (by assumption) ?_) | split
    | simp only [kept_mk] | split | dsimp only

theorem kept_memErrs (c : Card) (h ring ctx : Nat) (es : List MemErr) (hC : Kept fz tz c) :
    Kept fz tz (Card.memErrs c h ring ctx es).1 := by
  induction es generalizing c with
  | nil => exact hC
  | cons e t ih => exact ih _ (kept_memErr c h ring ctx e hC)

theorem kept_bookErr (c : Card) (h p i : Nat) (hC : Kept fz tz c) : Kept fz tz (Card.bookErr c h p i) := by
  unfold Card.bookErr
  repeat' with_reducible first
    | assumption | apply kept_log | apply kept_setBuf | simp only [kept_mk]

theorem kept_recDiscard (c : Card) (h n : Nat) (hC : Kept fz tz c) : Kept fz tz (Card.recDiscard c h n) := by
  unfold Card.recDiscard
  repeat' with_reducible first
    | assumption | apply kept_bump | simp only [kept_mk]

theorem kept_markFirst (c : Card) (h r e pos : Nat) (hC : Kept fz tz c) : Kept fz tz (Card.markFirst c h r e pos) := by
  unfold Card.markFirst
  repeat' with_reducible first
    | assumption | refine kept_ite ?_ ?_ | apply kept_setEpoch | simp only [kept_mk]

theorem kept_recMessage (c : Card) (h r : Nat) (hC : Kept fz tz c) : Kept fz tz (Card.recMessage c h r) := by
  unfold Card.recMessage
  repeat' with_reducible first
    | assumption | refine kept_ite ?_ ?_ | apply kept_raise | apply kept_setRec | simp only [kept_mk]

theorem kept_recEntry (c : Card) (h r : Nat) (e : List Byte) (hC : Kept fz tz c) : Kept fz tz (Card.recEntry c h r e) := by
  unfold Card.recEntry
  repeat' with_reducible first
    | assumption | refine kept_ite ?_ ?_ | apply kept_emit | apply kept_hostWrite | apply kept_markFirst
    | apply kept_recMessage | apply kept_setN | simp only [kept_mk] | intro _ _

theorem kept_recCount (c : Card) (h r : Nat) (hC : Kept fz tz c) : Kept fz tz (Card.recCount c h r) := by
  unfold Card.recCount
  repeat' with_reducible first
    | assumption | apply kept_bump | apply kept_setPace | apply kept_setRec | simp only [kept_mk]

theorem kept_flushGo (h r fuel : Nat) (c : Card) (hC : Kept fz tz c) : Kept fz tz (Card.flushGo h r fuel c) := by
  induction fuel generalizing c with
  | zero => exact hC
  | succ n ih =>
    unfold Card.flushGo
    repeat' with_reducible first
      | assumption | apply ih | refine kept_ite ?_ ?_ | apply kept_recCount | apply kept_recEntry | apply kept_bump
      | apply kept_setRec | split

theorem kept_recFlush (c : Card) (h r : Nat) (hC : Kept fz tz c) : Kept fz tz (Card.recFlush c h r) := by
  unfold Card.recFlush
  repeat' with_reducible first
    | assumption | apply kept_flushGo | simp only [kept_mk]

theorem kept_originate (c : Card) (h r : Nat) (x : CardRec) (hC : Kept fz tz c) : Kept fz tz (Card.originate c h r x).1 := by
  unfold Card.originate
  repeat' with_reducible first
    | assumption | refine kept_ite ?_ ?_ | apply kept_recDiscard | apply kept_recFlush | apply kept_setRec
    | simp only [kept_mk] | split | dsimp only

theorem kept_opRecords (c : Card) (h r : Nat) (es : List (List Byte)) (hC : Kept fz tz c) :
    Kept fz tz (Card.opRecords c h r es).1 := by
  induction es generalizing c with
  | nil => exact kept_setRec _ _ _ _ hC
  | cons e es ih =>
    unfold Card.opRecords
    repeat' with_reducible first
      | assumption | apply ih | apply kept_recDiscard | apply kept_recCount | apply kept_recEntry | apply kept_setRec
      | split

theorem kept_streamEvent (c : Card) (h s kind frame epoch : Nat) (detail : List Byte) (hC : Kept fz tz c) : Kept fz tz
    (Card.streamEvent c h s kind frame epoch detail).1 := by
  unfold Card.streamEvent
  repeat' with_reducible first
    | assumption | refine kept_ite ?_ ?_ | apply kept_hpEvent | apply kept_originate | apply kept_setStream
    | (refine kept_of_fst (by assumption) ?_) | split | simp only [kept_mk] | split | dsimp only

theorem kept_dropRecords (c : Card) (h e : Nat) (hC : Kept fz tz c) : Kept fz tz (Card.dropRecords c h e) := by
  unfold Card.dropRecords
  repeat' with_reducible first
    | assumption | (refine kept_foldl (fun _ _ _ => ?_) _ ?_) | apply kept_recDiscard | apply kept_setRec | apply kept_setRing
    | simp only [kept_mk]

theorem kept_retract (c : Card) (h e cause : Nat) (by_ : Option Nat) (hC : Kept fz tz c) : Kept fz tz (Card.retract c h e
    cause by_) := by
  unfold Card.retract
  repeat' with_reducible first
    | assumption | (refine kept_foldl (fun _ _ _ => ?_) _ ?_) | apply kept_originate | simp only [kept_mk]

theorem kept_setOp (c : Card) (h r : Nat) (o : Op) (hC : Kept fz tz c) : Kept fz tz (Card.setOp c h r o) := by
  unfold Card.setOp
  repeat' with_reducible first
    | assumption | refine kept_ite ?_ ?_ | apply kept_setRing | simp only [kept_mk]

theorem kept_semApply (c : Card) (g op val : Nat) (hC : Kept fz tz c) : Kept fz tz (Card.semApply c g op val) := by
  unfold Card.semApply
  repeat' with_reducible first
    | assumption | refine kept_ite ?_ ?_ | apply kept_bump
  all_goals exact { hC with sems := tabWf_put (d := fun _ => 0) _ _ hC.sems }

theorem kept_semReport (c : Card) (g fnNum : Nat) (hC : Kept fz tz c) : Kept fz tz (Card.semReport c g fnNum) := by
  unfold Card.semReport
  repeat' with_reducible first
    | assumption | refine kept_ite ?_ ?_ | apply kept_emit | apply kept_hostWrite | simp only [kept_mk] | intro _ _

theorem kept_releaseOp (c : Card) (h r : Nat) (o : Op) (hC : Kept fz tz c) : Kept fz tz (Card.releaseOp c h r o) := by
  unfold Card.releaseOp
  repeat' with_reducible first
    | assumption | refine kept_ite ?_ ?_ | apply kept_emit | apply kept_hostWrite | apply kept_semApply | apply kept_semReport
    | apply kept_setBit | apply kept_setRing | (refine kept_of_fst (by assumption) ?_) | split | simp only [kept_mk]
    | intro _ _

theorem kept_applySigs (hs : List HeldSig) (stuck : List (Nat × Nat)) (c : Card) (hC : Kept fz tz c) :
    Kept fz tz (Card.applySigs hs stuck c) := by
  induction hs generalizing c stuck with
  | nil => exact hC
  | cons x t ih =>
    unfold Card.applySigs
    repeat' with_reducible first
      | assumption | apply ih | refine kept_ite ?_ ?_ | apply kept_semApply | apply kept_semReport | simp only [kept_mk]

theorem kept_settleSigs (c : Card) (hC : Kept fz tz c) : Kept fz tz (Card.settleSigs c) := by
  unfold Card.settleSigs
  repeat' with_reducible first
    | assumption | apply kept_applySigs | simp only [kept_mk]

theorem kept_releaseGo (h r fuel : Nat) (c : Card) (w : Bool) (hC : Kept fz tz c) :
    Kept fz tz (Card.releaseGo h r fuel c w).1 := by
  induction fuel generalizing c w with
  | zero => exact hC
  | succ n ih =>
    unfold Card.releaseGo
    repeat' with_reducible first
      | assumption | apply ih | apply kept_releaseOp | apply kept_setBit | apply kept_setOp | apply kept_opRecords
      | split | dsimp only

theorem kept_cplMessage (c : Card) (h r : Nat) (hC : Kept fz tz c) : Kept fz tz (Card.cplMessage c h r) := by
  unfold Card.cplMessage
  repeat' with_reducible first
    | assumption | refine kept_ite ?_ ?_ | apply kept_raise | apply kept_setRing | simp only [kept_mk]

theorem kept_release (c : Card) (h r : Nat) (hC : Kept fz tz c) : Kept fz tz (Card.release c h r) := by
  unfold Card.release
  repeat' with_reducible first
    | assumption | refine kept_ite ?_ ?_ | apply kept_cplMessage | apply kept_recFlush | apply kept_releaseGo
    | simp only [kept_mk]

theorem kept_issueRead (c : Card) (h r : Nat) (seq : Option Nat) (addr len : Nat) (hC : Kept fz tz c) : Kept fz tz
    (Card.issueRead c h r seq addr len).1 := by
  unfold Card.issueRead
  repeat' with_reducible first
    | assumption | apply kept_emit | simp only [kept_mk] | split | dsimp only

theorem kept_issueReads (c : Card) (h r : Nat) (seq : Option Nat) (got : List HostBytes) (addr n : Nat) (hC : Kept fz tz c) :
    Kept fz tz (Card.issueReads c h r seq got addr n).1 := by
  unfold Card.issueReads
  repeat' with_reducible first
    | assumption | refine kept_ite ?_ ?_ | (refine kept_foldl (fun _ _ _ => ?_) _ ?_) | apply kept_issueRead
    | (refine kept_foldl_fst (fun _ _ _ => ?_) _ ?_) | split | dsimp only

theorem kept_fetchNext (c : Card) (h r : Nat) (hC : Kept fz tz c) : Kept fz tz (Card.fetchNext c h r) := by
  unfold Card.fetchNext
  repeat' with_reducible first
    | assumption | refine kept_ite ?_ ?_ | apply kept_issueRead | apply kept_setRing | simp only [kept_mk]

theorem kept_headGo (h r fuel : Nat) (c : Card) (hC : Kept fz tz c) : Kept fz tz (Card.headGo h r fuel c) := by
  induction fuel generalizing c with
  | zero => exact hC
  | succ n ih =>
    unfold Card.headGo
    repeat' with_reducible first
      | assumption | apply ih | refine kept_ite ?_ ?_ | apply kept_setOp | split

theorem kept_pump (c : Card) (h r : Nat) (hC : Kept fz tz c) : Kept fz tz (Card.pump c h r) := by
  unfold Card.pump
  repeat' with_reducible first
    | assumption | refine kept_ite ?_ ?_ | apply kept_fetchNext | apply kept_headGo | apply kept_release | simp only [kept_mk]

theorem kept_pushOp (c : Card) (h r : Nat) (o : Op) (hC : Kept fz tz c) : Kept fz tz (Card.pushOp c h r o) := by
  unfold Card.pushOp
  repeat' with_reducible first
    | assumption | apply kept_setRing | simp only [kept_mk]

theorem kept_decodeGo (h r ctx fuel : Nat) (c : Card) (bs : List Byte) (hC : Kept fz tz c) :
    Kept fz tz (Card.decodeGo h r ctx fuel c bs) := by
  induction fuel generalizing c bs with
  | zero => exact hC
  | succ n ih =>
    unfold Card.decodeGo
    repeat' with_reducible first
      | assumption | apply ih | refine kept_ite ?_ ?_ | apply kept_pushOp | dsimp only

theorem kept_pushDead (c : Card) (h r ctx status detail : Nat) (hC : Kept fz tz c) : Kept fz tz (Card.pushDead c h r ctx
    status detail) := by
  unfold Card.pushDead
  repeat' with_reducible first
    | assumption | apply kept_pushOp | simp only [kept_mk]

theorem kept_decodeList (c : Card) (h r ctx : Nat) (data : List Byte) (detail : Nat) (hC : Kept fz tz c) : Kept fz tz
    (Card.decodeList c h r ctx data detail) := by
  unfold Card.decodeList
  repeat' with_reducible first
    | assumption | refine kept_ite ?_ ?_ | apply kept_decodeGo | apply kept_pushDead | simp only [kept_mk]

theorem kept_decodeArrived (c : Card) (h r ctx units addr : Nat) (card : Bool) (got : List HostBytes) (hC : Kept fz tz c) :
    Kept fz tz (Card.decodeArrived c h r ctx units addr card got) := by
  unfold Card.decodeArrived
  repeat' with_reducible first
    | assumption | refine kept_ite ?_ ?_ | apply kept_decodeList | apply kept_readDone | apply kept_xlFault
    | (refine kept_of_fst (by assumption) ?_) | split | simp only [kept_mk]

theorem kept_fetchList (c : Card) (h r ctx units addr : Nat) (card : Bool) (needs : List (Nat × Nat)) (hC : Kept fz tz c) :
    Kept fz tz (Card.fetchList c h r ctx units addr card needs) := by
  unfold Card.fetchList
  repeat' with_reducible first
    | assumption | (refine kept_foldl_fst (fun _ _ _ => ?_) _ ?_) | apply kept_issueReads | apply kept_setRing | dsimp only

theorem kept_decodeSlot (c : Card) (h r : Nat) (b : List Byte) (hC : Kept fz tz c) : Kept fz tz (Card.decodeSlot c h r b) :=
    by
  unfold Card.decodeSlot
  repeat' with_reducible first
    | assumption | refine kept_ite ?_ ?_ | apply kept_decodeArrived | apply kept_decodeList | apply kept_fetchList
    | apply kept_pushDead | (refine kept_of_fst (by assumption) ?_) | split | simp only [kept_mk]

theorem kept_opFetchFailed (c : Card) (h r seq : Nat) (hC : Kept fz tz c) : Kept fz tz (Card.opFetchFailed c h r seq) := by
  unfold Card.opFetchFailed
  repeat' with_reducible first
    | assumption | refine kept_ite ?_ ?_ | apply kept_feedCut | apply kept_setOp | (refine kept_of_fst (by assumption) ?_)
    | split | simp only [kept_mk]

theorem kept_endRead (c : Card) (rid : Nat) (hC : Kept fz tz c) : Kept fz tz (Card.endRead c rid) := by
  unfold Card.endRead
  repeat' with_reducible first
    | assumption | simp only [kept_mk]

theorem kept_discardFetch (c : Card) (h r : Nat) (hC : Kept fz tz c) : Kept fz tz (Card.discardFetch c h r) := by
  unfold Card.discardFetch
  repeat' with_reducible first
    | assumption | refine kept_ite ?_ ?_ | simp only [kept_mk]

theorem kept_fetchFailed (c : Card) (x : HostRead) (hC : Kept fz tz c) : Kept fz tz (Card.fetchFailed c x) := by
  unfold Card.fetchFailed
  repeat' with_reducible first
    | assumption | apply kept_discardFetch | apply kept_opFetchFailed | apply kept_pump | apply kept_pushDead
    | apply kept_setRing | (refine kept_of_fst (by assumption) ?_) | split | simp only [kept_mk]

theorem kept_fetchArrived (c : Card) (x : HostRead) (data : List Byte) (hC : Kept fz tz c) : Kept fz tz (Card.fetchArrived c
    x data) := by
  unfold Card.fetchArrived
  repeat' with_reducible first
    | assumption | refine kept_ite ?_ ?_ | apply kept_endRead | apply kept_setOp | apply kept_setRing
    | (refine kept_of_fst (by assumption) ?_) | split | simp only [kept_mk]

theorem kept_completion (c : Card) (rid : Nat) (poisoned : Bool) (data : List Byte) (hC : Kept fz tz c) : Kept fz tz
    (Card.completion c rid poisoned data) := by
  unfold Card.completion
  repeat' with_reducible first
    | assumption | refine kept_ite ?_ ?_ | apply kept_aerLog | apply kept_draw | apply kept_endRead | apply kept_fetchArrived
    | apply kept_fetchFailed | (refine kept_of_fst (by assumption) ?_) | split | simp only [kept_mk]

theorem kept_ringBell (c : Card) (h r prod : Nat) (hC : Kept fz tz c) : Kept fz tz (Card.ringBell c h r prod) := by
  unfold Card.ringBell
  repeat' with_reducible first
    | assumption | refine kept_ite ?_ ?_ | apply kept_pump | apply kept_setBit | apply kept_setRing | simp only [kept_mk]

theorem kept_endOp (c : Card) (h r : Nat) (o : Op) (status detail ext : Nat) (hC : Kept fz tz c) : Kept fz tz (Card.endOp c h
    r o status detail ext) := by
  unfold Card.endOp
  repeat' with_reducible first
    | assumption | apply kept_pump | apply kept_setOp | simp only [kept_mk]

theorem kept_ringStart (c : Card) (h r : Nat) (hC : Kept fz tz c) : Kept fz tz (Card.ringStart c h r) := by
  unfold Card.ringStart
  repeat' with_reducible first
    | assumption | apply kept_pump | apply kept_setBit | apply kept_setN | apply kept_setRing | simp only [kept_mk]

theorem kept_chargeWait (c : Card) (h : Nat) (o : Op) (ns : Nat) (hC : Kept fz tz c) : Kept fz tz (Card.chargeWait c h o ns)
    := by
  unfold Card.chargeWait
  repeat' with_reducible first
    | assumption | apply kept_setN | apply kept_setPair | simp only [kept_mk]

theorem kept_chargeCount (c : Card) (h : Nat) (o : Op) (off : Nat) (hC : Kept fz tz c) : Kept fz tz (Card.chargeCount c h o
    off) := by
  unfold Card.chargeCount
  repeat' with_reducible first
    | assumption | apply kept_bump | simp only [kept_mk]

theorem kept_acceptOp (c : Card) (h r : Nat) (o : Op) (hC : Kept fz tz c) : Kept fz tz (Card.acceptOp c h r o) := by
  unfold Card.acceptOp
  repeat' with_reducible first
    | assumption | refine kept_ite ?_ ?_ | apply kept_setOp | apply kept_setPace | (refine kept_of_fst (by assumption) ?_)
    | split | simp only [kept_mk]


/-- A piece of an operation's work that leaves the card canonical whenever it was. -/
def Keeps (fz : Tab Word) (tz : Nat) {α : Type} (m : Eng α) : Prop := ∀ x : Run, Kept fz tz x.card → Kept fz tz (m.run.run x).2.card

theorem keeps_pure {α : Type} (a : α) : Keeps fz tz (pure a : Eng α) := fun _ h => h

theorem keeps_throw {α : Type} (e : Stop) : Keeps fz tz (throw e : Eng α) := fun _ h => h

theorem keeps_bind {α β : Type} {m : Eng α} {f : α → Eng β} (hm : Keeps fz tz m) (hf : ∀ a, Keeps fz tz (f a)) : Keeps fz tz (m >>= f) := by
  intro x hx
  have h1 := hm x hx
  show Kept fz tz (StateT.run (ExceptT.run (m >>= f)) x).2.card
  rw [ExceptT.run_bind, StateT.run_bind]
  generalize hr : (StateT.run (ExceptT.run m) x) = p at h1
  obtain ⟨r, y⟩ := p
  cases r with
  | error e => exact h1
  | ok a => exact hf a y h1

theorem keeps_ite {α : Type} {p : Prop} [Decidable p] {a b : Eng α} (ha : Keeps fz tz a) (hb : Keeps fz tz b) : Keeps fz tz (if p then a else b) := by
  split <;> assumption

theorem keeps_forIn {α β : Type} {f : α → β → Eng (ForInStep β)} (l : List α) (b : β) (hf : ∀ a b, Keeps fz tz (f a b)) :
    Keeps fz tz (forIn l b f) := by
  induction l generalizing b with
  | nil => exact keeps_pure _
  | cons x t ih =>
    rw [List.forIn_cons]
    refine keeps_bind (hf x b) (fun r => ?_)
    cases r with
    | done b => exact keeps_pure _
    | yield b => exact ih b

theorem keeps_mapM {α β : Type} {f : α → Eng β} (l : List α) (hf : ∀ a, Keeps fz tz (f a)) : Keeps fz tz (l.mapM f) := by
  induction l with
  | nil => rw [List.mapM_nil]; exact keeps_pure _
  | cons x t ih =>
    rw [List.mapM_cons]
    exact keeps_bind (hf x) (fun _ => keeps_bind ih (fun _ => keeps_pure _))

theorem keeps_card : Keeps fz tz Eng.card := fun _ h => h
theorem keeps_op : Keeps fz tz Eng.op := fun _ h => h
theorem keeps_hamper : Keeps fz tz Eng.hamper := fun _ h => h
theorem keeps_ring : Keeps fz tz Eng.ring := fun _ h => h
theorem keeps_updOp (f : Op → Op) : Keeps fz tz (Eng.updOp f) := fun _ h => h
theorem keeps_upd {f : Card → Card} (hf : ∀ c, Kept fz tz c → Kept fz tz (f c)) : Keeps fz tz (Eng.upd f) := fun x h => hf x.card h
theorem keeps_refuse {α : Type} (d : Nat) : Keeps fz tz (Eng.refuse d : Eng α) := fun _ h => h
theorem keeps_refuseFree {α : Type} : Keeps fz tz (Eng.refuseFree : Eng α) := fun _ h => h
theorem keeps_failInput {α : Type} (d : Nat) : Keeps fz tz (Eng.failInput d : Eng α) := fun _ h => h

theorem keeps_card_bind {β : Type} {f : Card → Eng β} (hf : ∀ c, Kept fz tz c → Keeps fz tz (f c)) : Keeps fz tz (Eng.card >>= f) :=
  fun x hx => hf x.card hx x hx

theorem keeps_check (ok : Bool) (detail : Nat) : Keeps fz tz (Eng.check ok detail) := by
  unfold Eng.check
  repeat' with_reducible first
    | assumption | apply keeps_pure | apply keeps_throw | refine keeps_card_bind (fun _ _ => ?_) | refine keeps_ite ?_ ?_
    | apply keeps_card | apply keeps_op | apply keeps_hamper | apply keeps_ring | apply keeps_refuse
    | (refine keeps_bind ?_ (fun _ => ?_)) | dsimp only

theorem keeps_join (e : Nat) : Keeps fz tz (Eng.join e) := by
  unfold Eng.join
  repeat' with_reducible first
    | assumption | apply keeps_pure | apply keeps_throw | refine keeps_card_bind (fun _ _ => ?_) | refine keeps_ite ?_ ?_
    | apply keeps_card | apply keeps_op | apply keeps_hamper | apply keeps_ring | apply keeps_updOp
    | (refine keeps_bind ?_ (fun _ => ?_)) | refine kept_ite ?_ ?_ | simp only [kept_mk] | split | dsimp only

theorem keeps_rd (va n : Nat) : Keeps fz tz (Eng.rd va n) := by
  unfold Eng.rd
  repeat' with_reducible first
    | assumption | apply keeps_pure | apply keeps_throw | refine keeps_card_bind (fun _ _ => ?_) | refine keeps_ite ?_ ?_
    | apply keeps_card | apply keeps_op | apply keeps_hamper | apply keeps_ring | refine keeps_upd (fun _ _ => ?_)
    | apply keeps_refuse | apply keeps_join | (refine keeps_forIn _ _ (fun _ _ => ?_))
    | (refine keeps_bind ?_ (fun _ => ?_)) | apply kept_cacheXlate | apply kept_readDone | refine kept_ite ?_ ?_
    | simp only [kept_mk] | split | dsimp only

theorem keeps_rdNat (va n : Nat) : Keeps fz tz (Eng.rdNat va n) := by
  unfold Eng.rdNat
  repeat' with_reducible first
    | assumption | apply keeps_pure | apply keeps_throw | refine keeps_card_bind (fun _ _ => ?_) | refine keeps_ite ?_ ?_
    | apply keeps_card | apply keeps_op | apply keeps_hamper | apply keeps_ring | apply keeps_rd
    | (refine keeps_bind ?_ (fun _ => ?_)) | dsimp only

theorem kept_noteBacked (c c' : Card) (h ctx e va n : Nat) (hC : Kept fz tz c) (hC_c' : Kept fz tz c') : Kept fz tz
    (Card.noteBacked c c' h ctx e va n) := by
  unfold Card.noteBacked
  repeat' with_reducible first
    | assumption | refine kept_ite ?_ ?_ | (refine kept_of_fst (by assumption) ?_) | split | simp only [kept_mk]

theorem kept_sendPacket (c : Card) (port kind : Nat) (args : List Nat) (data : List Byte) (hC : Kept fz tz c) : Kept fz tz
    (Card.sendPacket c port kind args data) := by
  unfold Card.sendPacket
  repeat' with_reducible first
    | assumption | refine kept_ite ?_ ?_ | apply kept_emit | apply kept_setPair | apply kept_setPort | simp only [kept_mk]

theorem kept_pumpPort (c : Card) (p : Nat) (hC : Kept fz tz c) : Kept fz tz (Card.pumpPort c p) := by
  unfold Card.pumpPort
  repeat' with_reducible first
    | assumption | refine kept_ite ?_ ?_ | (refine kept_foldl (fun _ _ _ => ?_) _ ?_) | apply kept_sendPacket
    | simp only [kept_mk]

theorem kept_sendRemote (c : Card) (h r : Nat) (o : Op) (port kind : Nat) (args : List Nat) (data : List Byte) (va key len :
    Nat) (hC : Kept fz tz c) : Kept fz tz (Card.sendRemote c h r o port kind args data va key len) := by
  unfold Card.sendRemote
  repeat' with_reducible first
    | assumption | apply kept_pumpPort | (rw [id_eq]; assumption) | simp only [kept_mk]

theorem keeps_wrUnder (ep : Option Nat) (va : Nat) (bs : List Byte) : Keeps fz tz (Eng.wrUnder ep va bs) := by
  unfold Eng.wrUnder
  repeat' with_reducible first
    | assumption | apply keeps_pure | apply keeps_throw | refine keeps_card_bind (fun _ _ => ?_) | refine keeps_ite ?_ ?_
    | apply keeps_card | apply keeps_op | apply keeps_hamper | apply keeps_ring | refine keeps_upd (fun _ _ => ?_)
    | apply keeps_updOp | apply keeps_refuse | apply keeps_failInput | (refine keeps_forIn _ _ (fun _ _ => ?_))
    | (refine keeps_bind ?_ (fun _ => ?_)) | apply kept_cacheXlate | apply kept_noteBacked | apply kept_sendRemote
    | apply kept_vwrite | refine kept_ite ?_ ?_ | simp only [kept_mk] | split | dsimp only

theorem keeps_wr (va : Nat) (bs : List Byte) : Keeps fz tz (Eng.wr va bs) := by
  unfold Eng.wr
  repeat' with_reducible first
    | assumption | apply keeps_pure | apply keeps_throw | refine keeps_card_bind (fun _ _ => ?_) | refine keeps_ite ?_ ?_
    | apply keeps_card | apply keeps_op | apply keeps_hamper | apply keeps_ring | apply keeps_wrUnder
    | (refine keeps_bind ?_ (fun _ => ?_)) | dsimp only

theorem keeps_sram (o n : Nat) : Keeps fz tz (Eng.sram o n) := by
  unfold Eng.sram
  repeat' with_reducible first
    | assumption | apply keeps_pure | apply keeps_throw | refine keeps_card_bind (fun _ _ => ?_) | refine keeps_ite ?_ ?_
    | apply keeps_card | apply keeps_op | apply keeps_hamper | apply keeps_ring | refine keeps_upd (fun _ _ => ?_)
    | apply keeps_failInput | (refine keeps_bind ?_ (fun _ => ?_)) | apply kept_bump | apply kept_log
    | refine kept_ite ?_ ?_ | simp only [kept_mk] | dsimp only

theorem keeps_stRd (off n : Nat) : Keeps fz tz (Eng.stRd off n) := by
  unfold Eng.stRd
  repeat' with_reducible first
    | assumption | apply keeps_pure | apply keeps_throw | refine keeps_card_bind (fun _ _ => ?_) | refine keeps_ite ?_ ?_
    | apply keeps_card | apply keeps_op | apply keeps_hamper | apply keeps_ring | apply keeps_join | apply keeps_sram
    | (refine keeps_forIn _ _ (fun _ _ => ?_)) | (refine keeps_bind ?_ (fun _ => ?_)) | dsimp only

theorem kept_sramPut (c : Card) (h o : Nat) (bs : List Byte) (hC : Kept fz tz c) : Kept fz tz (Card.sramPut c h o bs) := by
  unfold Card.sramPut
  repeat' with_reducible first
    | assumption | apply kept_sramWr | simp only [kept_mk]

theorem kept_stWrite (c : Card) (h off e : Nat) (bs : List Byte) (hC : Kept fz tz c) : Kept fz tz (Card.stWrite c h off e bs)
    := by
  unfold Card.stWrite
  repeat' with_reducible first
    | assumption | (refine kept_foldl (fun _ _ _ => ?_) _ ?_) | apply kept_sramPut | simp only [kept_mk]

theorem keeps_stWr (off : Nat) (bs : List Byte) : Keeps fz tz (Eng.stWr off bs) := by
  unfold Eng.stWr
  repeat' with_reducible first
    | assumption | apply keeps_pure | apply keeps_throw | refine keeps_card_bind (fun _ _ => ?_) | refine keeps_ite ?_ ?_
    | apply keeps_card | apply keeps_op | apply keeps_hamper | apply keeps_ring | refine keeps_upd (fun _ _ => ?_)
    | (refine keeps_bind ?_ (fun _ => ?_)) | apply kept_stWrite | refine kept_ite ?_ ?_ | simp only [kept_mk] | split
    | dsimp only

theorem kept_startOp (c : Card) (h : Nat) (o : Op) (u : Nat) (hC : Kept fz tz c) : Kept fz tz (Card.startOp c h o u).1 := by
  unfold Card.startOp
  repeat' with_reducible first
    | assumption | refine kept_ite ?_ ?_ | apply kept_chargeCount | apply kept_chargeWait | apply kept_drawXlate
    | simp only [kept_mk] | split | dsimp only

theorem kept_askFor (c : Card) (h r : Nat) (o : Op) (l : List Need) (hC : Kept fz tz c) : Kept fz tz (Card.askFor c h r o
    l).1 := by
  unfold Card.askFor
  repeat' with_reducible first
    | assumption | refine kept_ite ?_ ?_ | (refine kept_foldl (fun _ _ _ => ?_) _ ?_) | apply kept_issueReads
    | apply kept_sendRemote | (refine kept_of_fst (by assumption) ?_) | split | simp only [kept_mk]
    | (refine kept_foldl_fst (fun _ _ _ => ?_) _ ?_) | split | dsimp only

theorem kept_applyRun (c : Card) (h r : Nat) (o : Op) (res : Except Stop Unit × Run) (hC : Kept fz tz c)
    (hR : Kept fz tz res.2.card) : Kept fz tz (Card.applyRun c h r o res) := by
  unfold Card.applyRun
  repeat' with_reducible first
    | assumption | apply kept_setOp | apply kept_askFor | apply kept_xlFault | split

theorem kept_runStep (c : Card) (h r : Nat) (o : Op) (work : Eng Unit) (last : Op → Bool) (hC : Kept fz tz c)
    (hW : Keeps fz tz work) : Kept fz tz (Card.runStep c h r o work last) := by
  have hr := hW { card := c, op := o, h := h, r := r } hC
  have ha := kept_applyRun c h r o _ hC hr
  unfold Card.runStep
  dsimp only
  split
  · exact kept_ite ha (kept_setOp _ _ _ _ hr)
  · exact ha

theorem kept_runFirst (c : Card) (h r : Nat) (p : Card × Op) (work : Eng Unit) (last : Op → Bool) (hC : Kept fz tz c)
    (hP : Kept fz tz p.1) (hW : Keeps fz tz work) : Kept fz tz (Card.runFirst c h r p work last) := by
  unfold Card.runFirst
  split
  · exact hC
  · exact kept_runStep _ _ _ _ _ _ hP hW

theorem kept_engine (c : Card) (h r seq cls opc : Nat) (work : Eng Unit) (hC : Kept fz tz c) (hW : Keeps fz tz work) :
    Kept fz tz (Card.engine c h r seq cls opc work) := by
  unfold Card.engine
  split
  · exact hC
  · exact kept_ite (kept_setOp _ _ _ _ (kept_chargeCount _ _ _ _ hC))
      (kept_runFirst _ _ _ _ _ _ hC (kept_startOp c h ‹Op› ‹Nat› hC) hW)

theorem kept_takeBack (c : Card) (o : Op) (hC : Kept fz tz c) : Kept fz tz (Card.takeBack c o) := by
  unfold Card.takeBack
  repeat' with_reducible first
    | assumption | (refine kept_foldl (fun _ _ _ => ?_) _ ?_) | apply kept_draw | apply kept_memPut | simp only [kept_mk]

theorem kept_settleGroups (c : Card) (h : Nat) (hC : Kept fz tz c) : Kept fz tz (Card.settleGroups c h) := by
  unfold Card.settleGroups
  repeat' with_reducible first
    | assumption | (refine kept_foldl (fun _ _ _ => ?_) _ ?_) | apply kept_setOp | simp only [kept_mk]

theorem kept_accClear (c : Card) (h s : Nat) (hC : Kept fz tz c) : Kept fz tz (Card.accClear c h s) := by
  unfold Card.accClear
  repeat' with_reducible first
    | assumption | apply kept_resetRegs | simp only [kept_mk]

theorem kept_aperError (c : Card) (h : Nat) (hC : Kept fz tz c) : Kept fz tz (Card.aperError c h) := by
  unfold Card.aperError
  repeat' with_reducible first
    | assumption | apply kept_bumpF | simp only [kept_mk]

theorem kept_aperMiss (c : Card) (h : Nat) (hC : Kept fz tz c) : Kept fz tz (Card.aperMiss c h) := by
  unfold Card.aperMiss
  repeat' with_reducible first
    | assumption | apply kept_bump | simp only [kept_mk]

theorem kept_aperRead (c : Card) (h fnNum off len : Nat) (e : RegionEnt) (d m : Nat) (errs : List MemErr) (hC : Kept fz tz c)
    : Kept fz tz (Card.aperRead c h fnNum off len e d m errs) := by
  unfold Card.aperRead
  repeat' with_reducible first
    | assumption | refine kept_ite ?_ ?_ | apply kept_aperError | apply kept_emit | apply kept_memErrs | apply kept_touch
    | (refine kept_of_fst (by assumption) ?_) | split | simp only [kept_mk]

theorem kept_aperWrite (c : Card) (h reg : Nat) (e : RegionEnt) (d : Nat) (bs : List Byte) (errs : List MemErr) (hC : Kept fz
    tz c) : Kept fz tz (Card.aperWrite c h reg e d bs errs) := by
  unfold Card.aperWrite
  repeat' with_reducible first
    | assumption | refine kept_ite ?_ ?_ | apply kept_aperError | apply kept_memErrs | apply kept_poisonPartial
    | apply kept_touch | apply kept_wrRegion | simp only [kept_mk]

theorem kept_aperDo (c : Card) (h fnNum off len reg : Nat) (e : RegionEnt) (d m : Nat) (wdata : Option (List Byte)) (errs :
    List MemErr) (hC : Kept fz tz c) : Kept fz tz (Card.aperDo c h fnNum off len reg e d m wdata errs) := by
  unfold Card.aperDo
  repeat' with_reducible first
    | assumption | refine kept_ite ?_ ?_ | apply kept_aperRead | apply kept_aperWrite | apply kept_memErrs
    | (refine kept_of_fst (by assumption) ?_) | split | simp only [kept_mk]

theorem keeps_pagesOr (ps : List Nat) (write : Bool) (bad : XFault → Eng PageView) (hb : ∀ f, Keeps fz tz (bad f)) :
    Keeps fz tz (Eng.pagesOr ps write bad) := by
  unfold Eng.pagesOr
  repeat' with_reducible first
    | assumption | exact hb _ | apply keeps_pure | apply keeps_throw | refine keeps_ite ?_ ?_ | apply keeps_card
    | apply keeps_hamper | apply keeps_op | (refine keeps_mapM _ (fun _ => ?_)) | (refine keeps_bind ?_ (fun _ => ?_))
    | split | dsimp only

theorem keeps_precheck (va n : Nat) (write : Bool) : Keeps fz tz (Eng.precheck va n write) := by
  unfold Eng.precheck
  repeat' with_reducible first
    | assumption | apply keeps_pure | apply keeps_throw | refine keeps_card_bind (fun _ _ => ?_) | refine keeps_ite ?_ ?_
    | apply keeps_card | apply keeps_op | apply keeps_hamper | apply keeps_ring | apply keeps_pagesOr | (intro _)
    | (refine keeps_bind ?_ (fun _ => ?_)) | dsimp only

theorem keeps_want (va n : Nat) : Keeps fz tz (Eng.want va n) := by
  unfold Eng.want
  repeat' with_reducible first
    | assumption | apply keeps_pure | apply keeps_throw | refine keeps_card_bind (fun _ _ => ?_) | refine keeps_ite ?_ ?_
    | apply keeps_card | apply keeps_op | apply keeps_hamper | apply keeps_ring | (refine keeps_bind ?_ (fun _ => ?_))
    | split | dsimp only

theorem keeps_wants (rs : List (Nat × Nat)) : Keeps fz tz (Eng.wants rs) := by
  unfold Eng.wants
  repeat' with_reducible first
    | assumption | apply keeps_pure | apply keeps_throw | refine keeps_card_bind (fun _ _ => ?_) | refine keeps_ite ?_ ?_
    | apply keeps_card | apply keeps_op | apply keeps_hamper | apply keeps_ring | (refine keeps_bind ?_ (fun _ => ?_))
    | split | dsimp only

theorem keeps_confine (status src dst n : Nat) : Keeps fz tz (Eng.confine status src dst n) := by
  unfold Eng.confine
  repeat' with_reducible first
    | assumption | apply keeps_pure | apply keeps_throw | refine keeps_card_bind (fun _ _ => ?_) | refine keeps_ite ?_ ?_
    | apply keeps_card | apply keeps_op | apply keeps_hamper | apply keeps_ring | (refine keeps_bind ?_ (fun _ => ?_))
    | split | dsimp only

theorem keeps_copyWork : Keeps fz tz (copyWork ) := by
  unfold copyWork
  repeat' with_reducible first
    | assumption | apply keeps_pure | apply keeps_throw | refine keeps_card_bind (fun _ _ => ?_) | refine keeps_ite ?_ ?_
    | apply keeps_card | apply keeps_op | apply keeps_hamper | apply keeps_ring | refine keeps_upd (fun _ _ => ?_)
    | apply keeps_refuse | apply keeps_refuseFree | apply keeps_rd | apply keeps_wr | apply keeps_precheck
    | apply keeps_want | apply keeps_confine | (refine keeps_forIn _ _ (fun _ _ => ?_))
    | (refine keeps_bind ?_ (fun _ => ?_)) | refine kept_ite ?_ ?_ | simp only [kept_mk] | dsimp only

theorem keeps_fillWork : Keeps fz tz (fillWork ) := by
  unfold fillWork
  repeat' with_reducible first
    | assumption | apply keeps_pure | apply keeps_throw | refine keeps_card_bind (fun _ _ => ?_) | refine keeps_ite ?_ ?_
    | apply keeps_card | apply keeps_op | apply keeps_hamper | apply keeps_ring | apply keeps_refuseFree
    | apply keeps_wr | apply keeps_precheck | (refine keeps_forIn _ _ (fun _ _ => ?_))
    | (refine keeps_bind ?_ (fun _ => ?_)) | dsimp only

theorem kept_unbackPage (c : Card) (h ctx ring va : Nat) (hC : Kept fz tz c) : Kept fz tz (Card.unbackPage c h ctx ring va) := by
  have hw : ∀ c' : Card, Kept fz tz c' → ∀ l e, Kept fz tz (match c'.rewriteLeaf l e with
      | .ok c'' => c''
      | .error _ => c') := by
    intro c' h' l e
    split
    · exact kept_rewriteLeaf h' ‹_›
    · exact h'
  unfold Card.unbackPage
  split
  · split
    · split
      · refine hw _ ?_ _ _
        split
        · exact kept_poolFree _ _ _ _ _ _ _ _ hC
        · exact kept_bump _ _ _ hC
      · exact hC
    · exact hC
  · exact hC

theorem keeps_unbackWork : Keeps fz tz (unbackWork ) := by
  unfold unbackWork
  repeat' with_reducible first
    | assumption | apply keeps_pure | apply keeps_throw | refine keeps_card_bind (fun _ _ => ?_) | refine keeps_ite ?_ ?_
    | apply keeps_card | apply keeps_op | apply keeps_hamper | apply keeps_ring | refine keeps_upd (fun _ _ => ?_)
    | apply keeps_refuseFree | apply keeps_check | (refine keeps_forIn _ _ (fun _ _ => ?_))
    | (refine keeps_mapM _ (fun _ => ?_)) | (refine keeps_bind ?_ (fun _ => ?_)) | apply kept_unbackPage
    | refine kept_ite ?_ ?_ | simp only [kept_mk] | split | dsimp only

theorem keeps_sendWork : Keeps fz tz (sendWork ) := by
  unfold sendWork
  repeat' with_reducible first
    | assumption | apply keeps_pure | apply keeps_throw | refine keeps_card_bind (fun _ _ => ?_) | refine keeps_ite ?_ ?_
    | apply keeps_card | apply keeps_op | apply keeps_hamper | apply keeps_ring | refine keeps_upd (fun _ _ => ?_)
    | apply keeps_refuse | apply keeps_check | apply keeps_failInput | apply keeps_rd | apply keeps_precheck
    | apply keeps_want | (refine keeps_bind ?_ (fun _ => ?_)) | apply kept_sendRemote | refine kept_ite ?_ ?_
    | simp only [kept_mk] | split | dsimp only

theorem kept_drawEpoch (c : Card) (h stream decodeNo opener : Nat) (hC : Kept fz tz c) : Kept fz tz (Card.drawEpoch c h
    stream decodeNo opener).1 := by
  unfold Card.drawEpoch
  repeat' with_reducible first
    | assumption | apply kept_setEpoch | (refine kept_of_fst (by assumption) ?_) | split | simp only [kept_mk] | split
    | dsimp only

theorem kept_mapOps (c : Card) (h : Nat) (f : Nat → Op → Op) (hC : Kept fz tz c) : Kept fz tz (Card.mapOps c h f) := by
  unfold Card.mapOps
  repeat' with_reducible first
    | assumption | (refine kept_foldl (fun _ _ _ => ?_) _ ?_) | apply kept_setRing | simp only [kept_mk]

theorem kept_commitTracks (c : Card) (h e : Nat) (hC : Kept fz tz c) : Kept fz tz (Card.commitTracks c h e) := by
  unfold Card.commitTracks
  repeat' with_reducible first
    | assumption | refine kept_ite ?_ ?_ | (refine kept_foldl (fun _ _ _ => ?_) _ ?_) | apply kept_semApply
    | apply kept_setTracker | simp only [kept_mk]

theorem kept_commitEpoch (c : Card) (h e : Nat) (hC : Kept fz tz c) : Kept fz tz (Card.commitEpoch c h e) := by
  unfold Card.commitEpoch
  repeat' with_reducible first
    | assumption | refine kept_ite ?_ ?_ | apply kept_commitTracks | apply kept_mapOps | apply kept_setEpoch
    | apply kept_settleSigs | simp only [kept_mk]

theorem kept_abandonRetry (c : Card) (h r : Nat) (o : Op) (hC : Kept fz tz c) : Kept fz tz (Card.abandonRetry c h r o) := by
  unfold Card.abandonRetry
  repeat' with_reducible first
    | assumption | refine kept_ite ?_ ?_ | apply kept_setFence | apply kept_settleGroups | apply kept_transient
    | (refine kept_of_fst (by assumption) ?_) | split | simp only [kept_mk]

theorem kept_abandonPics (c : Card) (h : Nat) (mine : Stream → Bool) (hC : Kept fz tz c) : Kept fz tz (Card.abandonPics c h
    mine) := by
  unfold Card.abandonPics
  repeat' with_reducible first
    | assumption | refine kept_ite ?_ ?_ | (refine kept_foldl (fun _ _ _ => ?_) _ ?_) | apply kept_setFence
    | apply kept_settleGroups | apply kept_transient | simp only [kept_mk]

theorem kept_dropTraffic (c : Card) (h : Nat) (mine : List (Nat × Op)) (hC : Kept fz tz c) : Kept fz tz (Card.dropTraffic c h
    mine) := by
  unfold Card.dropTraffic
  repeat' with_reducible first
    | assumption | refine kept_ite ?_ ?_ | simp only [kept_mk]

theorem kept_cancelOps (c : Card) (h e : Nat) (hC : Kept fz tz c) : Kept fz tz (Card.cancelOps c h e) := by
  unfold Card.cancelOps
  repeat' with_reducible first
    | assumption | refine kept_ite ?_ ?_ | (refine kept_foldl (fun _ _ _ => ?_) _ ?_) | apply kept_abandonRetry
    | apply kept_dropTraffic | apply kept_govDropOp | apply kept_mapOps | simp only [kept_mk]

theorem kept_bindWaiters (c : Card) (h s no e : Nat) (hC : Kept fz tz c) : Kept fz tz (Card.bindWaiters c h s no e) := by
  unfold Card.bindWaiters
  repeat' with_reducible first
    | assumption | refine kept_ite ?_ ?_ | apply kept_mapOps | simp only [kept_mk]

theorem kept_cancelWaiters (c : Card) (h s : Nat) (hC : Kept fz tz c) : Kept fz tz (Card.cancelWaiters c h s) := by
  unfold Card.cancelWaiters
  repeat' with_reducible first
    | assumption | refine kept_ite ?_ ?_ | apply kept_mapOps | simp only [kept_mk]

theorem kept_unbackLeaves (c : Card) (h e : Nat) (hC : Kept fz tz c) : Kept fz tz (Card.unbackLeaves c h e) := by
  unfold Card.unbackLeaves
  repeat' with_reducible first
    | assumption | (refine kept_foldl (fun _ _ _ => ?_) _ ?_) | apply kept_dropXlate | apply kept_wrRegion
    | (refine kept_of_fst (by assumption) ?_) | split | simp only [kept_mk]

theorem kept_closeBatch (c : Card) (h : Nat) (hC : Kept fz tz c) : Kept fz tz (Card.closeBatch c h) := by
  unfold Card.closeBatch
  repeat' with_reducible first
    | assumption | refine kept_ite ?_ ?_ | apply kept_mapOps | apply kept_setTracker | (refine kept_of_fst (by assumption) ?_)
    | split | simp only [kept_mk]

theorem kept_withdrawTracks (c : Card) (h e : Nat) (hC : Kept fz tz c) : Kept fz tz (Card.withdrawTracks c h e) := by
  unfold Card.withdrawTracks
  repeat' with_reducible first
    | assumption | refine kept_ite ?_ ?_ | (refine kept_foldl (fun _ _ _ => ?_) _ ?_) | apply kept_bump
    | apply kept_setTracker | simp only [kept_mk]

theorem kept_dropUnsettled (c : Card) (h e : Nat) (hC : Kept fz tz c) : Kept fz tz (Card.dropUnsettled c h e) := by
  unfold Card.dropUnsettled
  repeat' with_reducible first
    | assumption | apply kept_freeWhere | simp only [kept_mk]

theorem kept_withdrawEpoch (c : Card) (h e cause : Nat) (by_ : Option Nat) (hC : Kept fz tz c) : Kept fz tz
    (Card.withdrawEpoch c h e cause by_) := by
  unfold Card.withdrawEpoch
  repeat' with_reducible first
    | assumption | refine kept_ite ?_ ?_ | apply kept_cancelOps | apply kept_dropRecords | apply kept_dropUnsettled
    | apply kept_retract | apply kept_setEpoch | apply kept_settleSigs | apply kept_unbackLeaves
    | apply kept_withdrawTracks | simp only [kept_mk]

theorem kept_releaseSlot (c : Card) (h : Nat) (t : Stream) (k : Nat) (hC : Kept fz tz c) : Kept fz tz (Card.releaseSlot c h t
    k) := by
  unfold Card.releaseSlot
  repeat' with_reducible first
    | assumption | (refine kept_foldl (fun _ _ _ => ?_) _ ?_) | apply kept_unbackPage | simp only [kept_mk]

theorem kept_putSamples (c : Card) (h : Nat) (t : Stream) (k : Nat) (l : List Samples) (hC : Kept fz tz c) : Kept fz tz
    (Card.putSamples c h t k l) := by
  unfold Card.putSamples
  repeat' with_reducible first
    | assumption | (refine kept_foldl (fun _ _ _ => ?_) _ ?_) | apply kept_ctxWrite | simp only [kept_mk]

theorem keeps_openWork : Keeps fz tz (openWork ) := by
  unfold openWork
  repeat' with_reducible first
    | assumption | apply keeps_pure | apply keeps_throw | refine keeps_card_bind (fun _ _ => ?_) | refine keeps_ite ?_ ?_
    | apply keeps_card | apply keeps_op | apply keeps_hamper | apply keeps_ring | refine keeps_upd (fun _ _ => ?_)
    | apply keeps_check | (refine keeps_bind ?_ (fun _ => ?_)) | apply kept_setStream | refine kept_ite ?_ ?_
    | simp only [kept_mk] | split | dsimp only

theorem keeps_needStream (s : Nat) : Keeps fz tz (Eng.needStream s) := by
  unfold Eng.needStream
  repeat' with_reducible first
    | assumption | apply keeps_pure | apply keeps_throw | refine keeps_card_bind (fun _ _ => ?_) | refine keeps_ite ?_ ?_
    | apply keeps_card | apply keeps_op | apply keeps_hamper | apply keeps_ring | apply keeps_refuse
    | (refine keeps_bind ?_ (fun _ => ?_)) | split | dsimp only

theorem keeps_feedWork (starts : List Nat) : Keeps fz tz (feedWork starts) := by
  unfold feedWork
  repeat' with_reducible first
    | assumption | apply keeps_pure | apply keeps_throw | refine keeps_card_bind (fun _ _ => ?_) | refine keeps_ite ?_ ?_
    | apply keeps_card | apply keeps_op | apply keeps_hamper | apply keeps_ring | refine keeps_upd (fun _ _ => ?_)
    | apply keeps_updOp | apply keeps_check | apply keeps_rd | apply keeps_want | apply keeps_needStream
    | (refine keeps_bind ?_ (fun _ => ?_)) | apply kept_enqueue | apply kept_feedCut | refine kept_ite ?_ ?_
    | simp only [kept_mk] | split | dsimp only

theorem kept_grainRecord (c : Card) (h s : Nat) (t : Stream) (p : Pic) (out : Nat) (hC : Kept fz tz c) : Kept fz tz
    (Card.grainRecord c h s t p out) := by
  unfold Card.grainRecord
  repeat' with_reducible first
    | assumption | refine kept_ite ?_ ?_ | apply kept_originate | (refine kept_of_fst (by assumption) ?_) | split
    | simp only [kept_mk]

theorem kept_outputPic (c : Card) (h s decodeNo : Nat) (hC : Kept fz tz c) : Kept fz tz (Card.outputPic c h s decodeNo) := by
  unfold Card.outputPic
  repeat' with_reducible first
    | assumption | refine kept_ite ?_ ?_ | apply kept_bump | apply kept_commitEpoch | apply kept_ctxWrite
    | apply kept_grainRecord | apply kept_semApply | apply kept_setStream | (refine kept_of_fst (by assumption) ?_)
    | split | simp only [kept_mk]

theorem kept_outputAll (c : Card) (h s : Nat) (order : List Nat) (hC : Kept fz tz c) : Kept fz tz (Card.outputAll c h s
    order) := by
  unfold Card.outputAll
  repeat' with_reducible first
    | assumption | (refine kept_foldl (fun _ _ _ => ?_) _ ?_) | apply kept_outputPic | (refine kept_of_fst (by assumption) ?_)
    | split | simp only [kept_mk]

theorem kept_retractPic (c : Card) (h s e cause : Nat) (hC : Kept fz tz c) : Kept fz tz (Card.retractPic c h s e cause) := by
  unfold Card.retractPic
  repeat' with_reducible first
    | assumption | refine kept_ite ?_ ?_ | apply kept_bump | apply kept_withdrawEpoch | simp only [kept_mk]

theorem kept_discardEpochs (c : Card) (h s : Nat) (l : List Pic) (hC : Kept fz tz c) : Kept fz tz (Card.discardEpochs c h s
    l) := by
  unfold Card.discardEpochs
  repeat' with_reducible first
    | assumption | refine kept_ite ?_ ?_ | (refine kept_foldl (fun _ _ _ => ?_) _ ?_) | apply kept_draw
    | apply kept_retractPic | simp only [kept_mk]

theorem kept_closeStream (c : Card) (h s : Nat) (hC : Kept fz tz c) : Kept fz tz (Card.closeStream c h s) := by
  unfold Card.closeStream
  repeat' with_reducible first
    | assumption | (refine kept_foldl (fun _ _ _ => ?_) _ ?_) | apply kept_cancelWaiters | apply kept_discardEpochs
    | apply kept_releaseSlot | apply kept_setStream | (refine kept_of_fst (by assumption) ?_) | split
    | simp only [kept_mk]

theorem kept_freeSlices (c : Card) (h s : Nat) (hC : Kept fz tz c) : Kept fz tz (Card.freeSlices c h s) := by
  unfold Card.freeSlices
  repeat' with_reducible first
    | assumption | simp only [kept_mk]

theorem keeps_drainWork (order : List Nat) : Keeps fz tz (drainWork order) := by
  unfold drainWork
  repeat' with_reducible first
    | assumption | apply keeps_pure | apply keeps_throw | refine keeps_card_bind (fun _ _ => ?_) | refine keeps_ite ?_ ?_
    | apply keeps_card | apply keeps_op | apply keeps_hamper | apply keeps_ring | refine keeps_upd (fun _ _ => ?_)
    | apply keeps_check | apply keeps_needStream | (refine keeps_forIn _ _ (fun _ _ => ?_))
    | (refine keeps_bind ?_ (fun _ => ?_)) | apply kept_discardEpochs | apply kept_outputAll | apply kept_releaseSlot
    | apply kept_setStream | refine kept_ite ?_ ?_ | simp only [kept_mk] | dsimp only

theorem keeps_closeWork : Keeps fz tz (closeWork ) := by
  unfold closeWork
  repeat' with_reducible first
    | assumption | apply keeps_pure | apply keeps_throw | refine keeps_card_bind (fun _ _ => ?_) | refine keeps_ite ?_ ?_
    | apply keeps_card | apply keeps_op | apply keeps_hamper | apply keeps_ring | refine keeps_upd (fun _ _ => ?_)
    | apply keeps_check | apply keeps_needStream | (refine keeps_bind ?_ (fun _ => ?_)) | apply kept_closeStream
    | apply kept_setStream | refine kept_ite ?_ ?_ | simp only [kept_mk] | dsimp only

theorem kept_endClose (c : Card) (h s : Nat) (hC : Kept fz tz c) : Kept fz tz (Card.endClose c h s) := by
  unfold Card.endClose
  repeat' with_reducible first
    | assumption | refine kept_ite ?_ ?_ | apply kept_mapOps | simp only [kept_mk]

theorem kept_setKey (c : Card) (h slot : Nat) (k : Option KeySlot) (hC : Kept fz tz c) : Kept fz tz (Card.setKey c h slot k)
    := by
  unfold Card.setKey
  repeat' with_reducible first
    | assumption | simp only [kept_mk]

theorem kept_countDropped (c : Card) (h s n : Nat) (hC : Kept fz tz c) : Kept fz tz (Card.countDropped c h s n) := by
  unfold Card.countDropped
  repeat' with_reducible first
    | assumption | apply kept_bump | simp only [kept_mk]

theorem kept_takeSlice (c : Card) (h d s : Nat) (hC : Kept fz tz c) : Kept fz tz (Card.takeSlice c h d s) := by
  unfold Card.takeSlice
  repeat' with_reducible first
    | assumption | simp only [kept_mk]

theorem kept_picEpoch (c : Card) (h s : Nat) (t : Stream) (hC : Kept fz tz c) : Kept fz tz (Card.picEpoch c h s t).1 := by
  unfold Card.picEpoch
  repeat' with_reducible first
    | assumption | refine kept_ite ?_ ?_ | apply kept_drawEpoch | split | dsimp only

theorem kept_beginPic (c : Card) (h s : Nat) (t : Stream) (k d : Nat) (missing : List MissingRef) (hC : Kept fz tz c) : Kept
    fz tz (Card.beginPic c h s t k d missing) := by
  unfold Card.beginPic
  repeat' with_reducible first
    | assumption | refine kept_ite ?_ ?_ | (refine kept_foldl (fun _ _ _ => ?_) _ ?_) | apply kept_bindWaiters
    | apply kept_picEpoch | apply kept_retractPic | apply kept_setStream | apply kept_streamEvent | apply kept_takeSlice
    | simp only [kept_mk]

theorem kept_copyBlock (c : Card) (h : Nat) (t : Stream) (from_ to_ off pitch x y w rows : Nat) (hC : Kept fz tz c) : Kept fz
    tz (Card.copyBlock c h t from_ to_ off pitch x y w rows) := by
  unfold Card.copyBlock
  repeat' with_reducible first
    | assumption | (refine kept_foldl (fun _ _ _ => ?_) _ ?_) | apply kept_ctxWrite | (refine kept_of_fst (by assumption) ?_)
    | split | simp only [kept_mk]

theorem kept_concealUnit (c : Card) (h : Nat) (t : Stream) (from_ to_ u : Nat) (hC : Kept fz tz c) : Kept fz tz
    (Card.concealUnit c h t from_ to_ u) := by
  unfold Card.concealUnit
  repeat' with_reducible first
    | assumption | refine kept_ite ?_ ?_ | apply kept_copyBlock | simp only [kept_mk]

theorem kept_weavePlane (c : Card) (h : Nat) (t : Stream) (k off pitch w rows : Nat) (bottom : Bool) (hC : Kept fz tz c) :
    Kept fz tz (Card.weavePlane c h t k off pitch w rows bottom) := by
  unfold Card.weavePlane
  repeat' with_reducible first
    | assumption | (refine kept_foldl (fun _ _ _ => ?_) _ ?_) | apply kept_ctxWrite | (refine kept_of_fst (by assumption) ?_)
    | split | simp only [kept_mk]

theorem kept_weave (c : Card) (h : Nat) (t : Stream) (k rows : Nat) (bottom : Bool) (hC : Kept fz tz c) : Kept fz tz
    (Card.weave c h t k rows bottom) := by
  unfold Card.weave
  repeat' with_reducible first
    | assumption | refine kept_ite ?_ ?_ | apply kept_weavePlane | simp only [kept_mk]

theorem keeps_recSources (l : List (Nat × Nat)) : Keeps fz tz (Eng.recSources l) := by
  unfold Eng.recSources
  repeat' with_reducible first
    | assumption | apply keeps_pure | apply keeps_throw | refine keeps_card_bind (fun _ _ => ?_) | refine keeps_ite ?_ ?_
    | apply keeps_card | apply keeps_op | apply keeps_hamper | apply keeps_ring | refine keeps_upd (fun _ _ => ?_)
    | apply keeps_refuse | apply keeps_check | apply keeps_pagesOr | apply keeps_wants | (intro _)
    | (refine keeps_bind ?_ (fun _ => ?_)) | apply kept_xlFault | refine kept_ite ?_ ?_ | simp only [kept_mk]
    | dsimp only

theorem keeps_recEpoch : Keeps fz tz (Eng.recEpoch ) := by
  unfold Eng.recEpoch
  repeat' with_reducible first
    | assumption | apply keeps_pure | apply keeps_throw | refine keeps_card_bind (fun _ _ => ?_) | refine keeps_ite ?_ ?_
    | apply keeps_card | apply keeps_op | apply keeps_hamper | apply keeps_ring | (refine keeps_bind ?_ (fun _ => ?_))
    | split | dsimp only

theorem keeps_emitMotionWork : Keeps fz tz (emitMotionWork ) := by
  unfold emitMotionWork
  repeat' with_reducible first
    | assumption | apply keeps_pure | apply keeps_throw | refine keeps_card_bind (fun _ _ => ?_) | refine keeps_ite ?_ ?_
    | apply keeps_card | apply keeps_op | apply keeps_hamper | apply keeps_ring | apply keeps_updOp | apply keeps_check
    | apply keeps_rd | apply keeps_recSources | apply keeps_recEpoch | (refine keeps_bind ?_ (fun _ => ?_))
    | refine kept_ite ?_ ?_ | simp only [kept_mk] | dsimp only

theorem keeps_emitWork : Keeps fz tz (emitWork ) := by
  unfold emitWork
  repeat' with_reducible first
    | assumption | apply keeps_pure | apply keeps_throw | refine keeps_card_bind (fun _ _ => ?_) | refine keeps_ite ?_ ?_
    | apply keeps_card | apply keeps_op | apply keeps_hamper | apply keeps_ring | apply keeps_updOp | apply keeps_check
    | apply keeps_rd | apply keeps_recSources | apply keeps_recEpoch | (refine keeps_bind ?_ (fun _ => ?_))
    | refine kept_ite ?_ ?_ | simp only [kept_mk] | dsimp only

theorem keeps_searchCheck : Keeps fz tz (searchCheck ) := by
  unfold searchCheck
  repeat' with_reducible first
    | assumption | apply keeps_pure | apply keeps_throw | refine keeps_card_bind (fun _ _ => ?_) | refine keeps_ite ?_ ?_
    | apply keeps_card | apply keeps_op | apply keeps_hamper | apply keeps_ring | apply keeps_updOp | apply keeps_refuse
    | apply keeps_check | apply keeps_precheck | (refine keeps_bind ?_ (fun _ => ?_)) | refine kept_ite ?_ ?_
    | simp only [kept_mk] | split | dsimp only

theorem kept_setWindow (c : Card) (m : Nat) (l : List WinLine) (hC : Kept fz tz c) : Kept fz tz (Card.setWindow c m l) := by
  unfold Card.setWindow
  repeat' with_reducible first
    | assumption | simp only [kept_mk]

theorem kept_colUrge (c : Card) (m : Nat) (hC : Kept fz tz c) : Kept fz tz (Card.colUrge c m) := by
  unfold Card.colUrge
  repeat' with_reducible first
    | assumption | simp only [kept_mk]

theorem kept_nearTouch (c : Card) (m : Nat) (e : RegionEnt) (d : Nat) (hC : Kept fz tz c) : Kept fz tz (Card.nearTouch c m e
    d) := by
  unfold Card.nearTouch
  repeat' with_reducible first
    | assumption | apply kept_bump | apply kept_dramTouch | (refine kept_of_fst (by assumption) ?_) | split
    | simp only [kept_mk]

theorem keeps_nearLine (use : Bool) (va : Nat) : Keeps fz tz (Eng.nearLine use va) := by
  unfold Eng.nearLine
  repeat' with_reducible first
    | assumption | apply keeps_pure | apply keeps_throw | refine keeps_card_bind (fun _ _ => ?_) | refine keeps_ite ?_ ?_
    | apply keeps_card | apply keeps_op | apply keeps_hamper | apply keeps_ring | refine keeps_upd (fun _ _ => ?_)
    | apply keeps_refuse | apply keeps_join | (refine keeps_forIn _ _ (fun _ _ => ?_))
    | (refine keeps_bind ?_ (fun _ => ?_)) | apply kept_cacheXlate | apply kept_nearTouch | apply kept_setWindow
    | refine kept_ite ?_ ?_ | simp only [kept_mk] | split | dsimp only

theorem keeps_rect (p : Plane) (x y w n : Nat) : Keeps fz tz (Eng.rect p x y w n) := by
  unfold Eng.rect
  repeat' with_reducible first
    | assumption | apply keeps_pure | apply keeps_throw | refine keeps_card_bind (fun _ _ => ?_) | refine keeps_ite ?_ ?_
    | apply keeps_card | apply keeps_op | apply keeps_hamper | apply keeps_ring | apply keeps_nearLine
    | (refine keeps_mapM _ (fun _ => ?_)) | (refine keeps_bind ?_ (fun _ => ?_)) | dsimp only

theorem keeps_blockWork (b e : List Byte) : Keeps fz tz (blockWork b e) := by
  unfold blockWork
  repeat' with_reducible first
    | assumption | apply keeps_pure | apply keeps_throw | refine keeps_card_bind (fun _ _ => ?_) | refine keeps_ite ?_ ?_
    | apply keeps_card | apply keeps_op | apply keeps_hamper | apply keeps_ring | apply keeps_rect
    | (refine keeps_bind ?_ (fun _ => ?_)) | split | dsimp only

theorem keeps_prefetch (b : List Byte) (l : List (List Byte)) : Keeps fz tz (prefetch b l) := by
  induction l with
  | nil => exact keeps_pure _
  | cons e t ih =>
    unfold prefetch
    repeat' with_reducible first
      | assumption | exact ih | apply keeps_pure | refine keeps_card_bind (fun _ _ => ?_) | refine keeps_ite ?_ ?_
      | apply keeps_hamper | apply keeps_op | apply keeps_nearLine | (refine keeps_forIn _ _ (fun _ _ => ?_))
      | (refine keeps_bind ?_ (fun _ => ?_)) | split | dsimp only

theorem keeps_searchStep : Keeps fz tz (searchStep ) := by
  unfold searchStep
  repeat' with_reducible first
    | assumption | apply keeps_pure | apply keeps_throw | refine keeps_card_bind (fun _ _ => ?_) | refine keeps_ite ?_ ?_
    | apply keeps_card | apply keeps_op | apply keeps_hamper | apply keeps_ring | refine keeps_upd (fun _ _ => ?_)
    | apply keeps_updOp | apply keeps_wr | apply keeps_blockWork | apply keeps_prefetch
    | (refine keeps_bind ?_ (fun _ => ?_)) | apply kept_bump | apply kept_colUrge | refine kept_ite ?_ ?_
    | simp only [kept_mk] | dsimp only

theorem keeps_searchOpen : Keeps fz tz (searchOpen ) := by
  unfold searchOpen
  repeat' with_reducible first
    | assumption | apply keeps_pure | apply keeps_throw | refine keeps_card_bind (fun _ _ => ?_) | refine keeps_ite ?_ ?_
    | apply keeps_card | apply keeps_op | apply keeps_hamper | apply keeps_ring | refine keeps_upd (fun _ _ => ?_)
    | apply keeps_updOp | apply keeps_rd | (refine keeps_bind ?_ (fun _ => ?_)) | apply kept_colUrge
    | apply kept_setWindow | refine kept_ite ?_ ?_ | simp only [kept_mk] | dsimp only

theorem kept_searchBlock (c : Card) (m : Nat) (hC : Kept fz tz c) : Kept fz tz (Card.searchBlock c m) := by
  unfold Card.searchBlock
  repeat' with_reducible first
    | assumption | apply kept_drawXlate | apply kept_runStep | apply keeps_searchStep
    | (refine kept_of_fst (by assumption) ?_) | split | simp only [kept_mk]

theorem kept_searchBlocks (m n : Nat) (c : Card) (hC : Kept fz tz c) : Kept fz tz (Card.searchBlocks m n c) := by
  induction n generalizing c with
  | zero => exact hC
  | succ n ih =>
    unfold Card.searchBlocks
    exact kept_ite hC (ih _ (kept_searchBlock _ _ hC))

theorem kept_searchEnd (c : Card) (m : Nat) (hC : Kept fz tz c) : Kept fz tz (Card.searchEnd c m) := by
  unfold Card.searchEnd
  repeat' with_reducible first
    | assumption | apply kept_searchBlocks | (refine kept_of_fst (by assumption) ?_) | split | simp only [kept_mk]

theorem kept_resumeSearch (c : Card) (h r : Nat) (o : Op) (hC : Kept fz tz c) : Kept fz tz (Card.resumeSearch c h r o) := by
  unfold Card.resumeSearch
  repeat' with_reducible first
    | assumption | refine kept_ite ?_ ?_ | apply kept_setOp | apply kept_setWindow | (refine kept_of_fst (by assumption) ?_)
    | split | simp only [kept_mk]

theorem kept_rpEvent (c : Card) (h b : Nat) (hC : Kept fz tz c) : Kept fz tz (Card.rpEvent c h b) := by
  unfold Card.rpEvent
  repeat' with_reducible first
    | assumption | apply kept_hpEvent | simp only [kept_mk]

theorem kept_flagNo (c : Card) (h k no b : Nat) (hC : Kept fz tz c) : Kept fz tz (Card.flagNo c h k no b) := by
  unfold Card.flagNo
  repeat' with_reducible first
    | assumption | refine kept_ite ?_ ?_ | apply kept_setVc | simp only [kept_mk]

theorem kept_rpPut (c : Card) (h k no ctx va : Nat) (bs : List Byte) (hC : Kept fz tz c) : Kept fz tz (Card.rpPut c h k no
    ctx va bs) := by
  unfold Card.rpPut
  repeat' with_reducible first
    | assumption | apply kept_flagNo | apply kept_vwrite | apply kept_xlFault | (refine kept_of_fst (by assumption) ?_)
    | split | simp only [kept_mk]

theorem kept_setRpBuf (c : Card) (h : Nat) (l : List RpWrite) (hC : Kept fz tz c) : Kept fz tz (Card.setRpBuf c h l) := by
  unfold Card.setRpBuf
  repeat' with_reducible first
    | assumption | simp only [kept_mk]

theorem kept_rpRelease (h : Nat) (l : List RpWrite) (c : Card) (hC : Kept fz tz c) : Kept fz tz (Card.rpRelease h l c).1 := by
  induction l generalizing c with
  | nil => exact hC
  | cons w t ih =>
    unfold Card.rpRelease
    split
    · exact ih _ hC
    · split
      · exact hC
      · exact ih _ (kept_rpPut _ _ _ _ _ _ _ hC)

theorem kept_rpDrain (c : Card) (h n : Nat) (hC : Kept fz tz c) : Kept fz tz (Card.rpDrain c h n) := by
  unfold Card.rpDrain
  repeat' with_reducible first
    | assumption | apply kept_rpRelease | apply kept_setRpBuf | simp only [kept_mk]

theorem kept_rpWrite (c : Card) (h k no ctx va bytes : Nat) (bs : List Byte) (hC : Kept fz tz c) : Kept fz tz (Card.rpWrite c
    h k no ctx va bytes bs) := by
  unfold Card.rpWrite
  repeat' with_reducible first
    | assumption | refine kept_ite ?_ ?_ | apply kept_rpPut | apply kept_setRpBuf | simp only [kept_mk]

theorem kept_rpRow (c : Card) (h k : Nat) (g : VcCfg) (no addr line bytes : Nat) (rows : List (Nat × List Nat)) (hC : Kept fz
    tz c) : Kept fz tz (Card.rpRow c h k g no addr line bytes rows) := by
  unfold Card.rpRow
  repeat' with_reducible first
    | assumption | refine kept_ite ?_ ?_ | (refine kept_foldl (fun _ _ _ => ?_) _ ?_) | apply kept_rpWrite
    | simp only [kept_mk]

theorem kept_rpPad (c : Card) (h k : Nat) (g : VcCfg) (no addr first : Nat) (hC : Kept fz tz c) : Kept fz tz (Card.rpPad c h
    k g no addr first) := by
  unfold Card.rpPad
  repeat' with_reducible first
    | assumption | (refine kept_foldl (fun _ _ _ => ?_) _ ?_) | apply kept_rpRow | simp only [kept_mk]

theorem kept_latch (c : Card) (h k : Nat) (flags : List Nat) (hC : Kept fz tz c) : Kept fz tz (Card.latch c h k flags) := by
  unfold Card.latch
  repeat' with_reducible first
    | assumption | refine kept_ite ?_ ?_ | (refine kept_foldl (fun _ _ _ => ?_) _ ?_) | apply kept_rpPad | apply kept_setVc
    | (refine kept_of_fst (by assumption) ?_) | split | simp only [kept_mk]

theorem kept_flagFrame (c : Card) (h k b : Nat) (hC : Kept fz tz c) : Kept fz tz (Card.flagFrame c h k b) := by
  unfold Card.flagFrame
  repeat' with_reducible first
    | assumption | apply kept_flagNo | (refine kept_of_fst (by assumption) ?_) | split | simp only [kept_mk]

theorem kept_rpHeader (c : Card) (h k : Nat) (hdr : PktHeader) (go : Card → Card) (hC : Kept fz tz c) (h_go : ∀ c, Kept fz tz
    c → Kept fz tz (go c)) : Kept fz tz (Card.rpHeader c h k hdr go) := by
  unfold Card.rpHeader
  repeat' with_reducible first
    | assumption | apply h_go | apply kept_bump | apply kept_flagFrame | apply kept_rpEvent | apply kept_setVc
    | (refine kept_of_fst (by assumption) ?_) | split | simp only [kept_mk]

theorem kept_openFrame (c : Card) (h k num : Nat) (hC : Kept fz tz c) : Kept fz tz (Card.openFrame c h k num) := by
  unfold Card.openFrame
  repeat' with_reducible first
    | assumption | refine kept_ite ?_ ?_ | (refine kept_foldl (fun _ _ _ => ?_) _ ?_) | apply kept_setVc | simp only [kept_mk]

theorem kept_dtDrop (c : Card) (h : Nat) (hC : Kept fz tz c) : Kept fz tz (Card.dtDrop c h) := by
  unfold Card.dtDrop
  repeat' with_reducible first
    | assumption | apply kept_bump | simp only [kept_mk]

theorem kept_rpLine (c : Card) (h k : Nat) (f : RpFrame) (pk : CsiPacket) (hC : Kept fz tz c) : Kept fz tz (Card.rpLine c h k
    f pk) := by
  unfold Card.rpLine
  repeat' with_reducible first
    | assumption | refine kept_ite ?_ ?_ | apply kept_bump | apply kept_latch | apply kept_rpEvent | apply kept_rpRow
    | apply kept_setVc | (refine kept_of_fst (by assumption) ?_) | split | simp only [kept_mk]

theorem kept_linkFall (c : Card) (h : Nat) (hC : Kept fz tz c) : Kept fz tz (Card.linkFall c h) := by
  unfold Card.linkFall
  repeat' with_reducible first
    | assumption | (refine kept_foldl (fun _ _ _ => ?_) _ ?_) | apply kept_latch | simp only [kept_mk]

theorem kept_setLink (c : Card) (h : Nat) (up hs : Bool) (rate : Nat) (hC : Kept fz tz c) : Kept fz tz (Card.setLink c h up
    hs rate) := by
  unfold Card.setLink
  repeat' with_reducible first
    | assumption | refine kept_ite ?_ ?_ | apply kept_linkFall | apply kept_rpEvent | apply kept_setN | simp only [kept_mk]

theorem kept_commitLate (c : Card) (h k : Nat) (hC : Kept fz tz c) : Kept fz tz (Card.commitLate c h k) := by
  unfold Card.commitLate
  repeat' with_reducible first
    | assumption | apply kept_bump | apply kept_raise | apply kept_setBit | simp only [kept_mk]

theorem kept_commit (c : Card) (h k addr : Nat) (hC : Kept fz tz c) : Kept fz tz (Card.commit c h k addr) := by
  unfold Card.commit
  repeat' with_reducible first
    | assumption | refine kept_ite ?_ ?_ | apply kept_bump | apply kept_commitLate | apply kept_setVc | simp only [kept_mk]

theorem keeps_commitWork : Keeps fz tz (commitWork ) := by
  unfold commitWork
  repeat' with_reducible first
    | assumption | apply keeps_pure | apply keeps_throw | refine keeps_card_bind (fun _ _ => ?_) | refine keeps_ite ?_ ?_
    | apply keeps_card | apply keeps_op | apply keeps_hamper | apply keeps_ring | refine keeps_upd (fun _ _ => ?_)
    | apply keeps_refuseFree | apply keeps_check | (refine keeps_bind ?_ (fun _ => ?_)) | apply kept_commit
    | refine kept_ite ?_ ?_ | simp only [kept_mk] | dsimp only

theorem kept_vcOff (c : Card) (h k : Nat) (hC : Kept fz tz c) : Kept fz tz (Card.vcOff c h k) := by
  unfold Card.vcOff
  repeat' with_reducible first
    | assumption | apply kept_setRpBuf | apply kept_setVc | simp only [kept_mk]

theorem keeps_srcAt (s : Src) (plane : Nat) (x y : Int) : Keeps fz tz (Eng.srcAt s plane x y) := by
  unfold Eng.srcAt
  repeat' with_reducible first
    | assumption | apply keeps_pure | apply keeps_throw | refine keeps_card_bind (fun _ _ => ?_) | refine keeps_ite ?_ ?_
    | apply keeps_card | apply keeps_op | apply keeps_hamper | apply keeps_ring | apply keeps_rdNat
    | (refine keeps_bind ?_ (fun _ => ?_)) | dsimp only

theorem keeps_sampleAt (s : Src) (plane filter : Nat) (map : Nat → Nat) (ax ay : Axis) : Keeps fz tz (Eng.sampleAt s plane
    filter map ax ay) := by
  unfold Eng.sampleAt
  repeat' with_reducible first
    | assumption | apply keeps_pure | apply keeps_throw | refine keeps_card_bind (fun _ _ => ?_) | refine keeps_ite ?_ ?_
    | apply keeps_card | apply keeps_op | apply keeps_hamper | apply keeps_ring | apply keeps_srcAt
    | (refine keeps_mapM _ (fun _ => ?_)) | (refine keeps_bind ?_ (fun _ => ?_)) | dsimp only

theorem keeps_pixel (p : Prep) (s : Src) (q : Smp) (x y : Nat) : Keeps fz tz (Eng.pixel p s q x y) := by
  unfold Eng.pixel
  repeat' with_reducible first
    | assumption | apply keeps_pure | apply keeps_throw | refine keeps_card_bind (fun _ _ => ?_) | refine keeps_ite ?_ ?_
    | apply keeps_card | apply keeps_op | apply keeps_hamper | apply keeps_ring | apply keeps_sampleAt
    | (refine keeps_bind ?_ (fun _ => ?_)) | dsimp only

theorem keeps_elems (p : Prep) (s : Src) (q : Smp) (x y : Nat) : Keeps fz tz (Eng.elems p s q x y) := by
  unfold Eng.elems
  repeat' with_reducible first
    | assumption | apply keeps_pure | apply keeps_throw | refine keeps_card_bind (fun _ _ => ?_) | refine keeps_ite ?_ ?_
    | apply keeps_card | apply keeps_op | apply keeps_hamper | apply keeps_ring | apply keeps_rd | apply keeps_pixel
    | (refine keeps_bind ?_ (fun _ => ?_)) | dsimp only

theorem kept_progHold (c : Card) (h r : Nat) (o : Op) (hC : Kept fz tz c) : Kept fz tz (Card.progHold c h r o) := by
  unfold Card.progHold
  repeat' with_reducible first
    | assumption | refine kept_ite ?_ ?_ | apply kept_setOp | simp only [kept_mk]

theorem keeps_prepCheck : Keeps fz tz (prepCheck ) := by
  unfold prepCheck
  repeat' with_reducible first
    | assumption | apply keeps_pure | apply keeps_throw | refine keeps_card_bind (fun _ _ => ?_) | refine keeps_ite ?_ ?_
    | apply keeps_card | apply keeps_op | apply keeps_hamper | apply keeps_ring | apply keeps_refuse | apply keeps_check
    | apply keeps_rd | apply keeps_precheck | apply keeps_want | apply keeps_wants | (refine keeps_mapM _ (fun _ => ?_))
    | (refine keeps_bind ?_ (fun _ => ?_)) | dsimp only

theorem keeps_sampleWork (p : Prep) (pos idx : Nat) : Keeps fz tz (sampleWork p pos idx) := by
  unfold sampleWork
  repeat' with_reducible first
    | assumption | apply keeps_pure | apply keeps_throw | refine keeps_card_bind (fun _ _ => ?_) | refine keeps_ite ?_ ?_
    | apply keeps_card | apply keeps_op | apply keeps_hamper | apply keeps_ring | refine keeps_upd (fun _ _ => ?_)
    | apply keeps_wr | apply keeps_stWr | apply keeps_elems | (refine keeps_mapM _ (fun _ => ?_))
    | (refine keeps_bind ?_ (fun _ => ?_)) | apply kept_bump | apply kept_bumpF | refine kept_ite ?_ ?_
    | simp only [kept_mk] | split | dsimp only

theorem keeps_sampleStep : Keeps fz tz (sampleStep ) := by
  unfold sampleStep
  repeat' with_reducible first
    | assumption | apply keeps_pure | apply keeps_throw | refine keeps_card_bind (fun _ _ => ?_) | refine keeps_ite ?_ ?_
    | apply keeps_card | apply keeps_op | apply keeps_hamper | apply keeps_ring | refine keeps_upd (fun _ _ => ?_)
    | apply keeps_updOp | apply keeps_sampleWork | (refine keeps_bind ?_ (fun _ => ?_)) | refine kept_ite ?_ ?_
    | simp only [kept_mk] | dsimp only

theorem keeps_prepareWork (done : List Nat) : Keeps fz tz (prepareWork done) := by
  unfold prepareWork
  repeat' with_reducible first
    | assumption | apply keeps_pure | apply keeps_throw | refine keeps_card_bind (fun _ _ => ?_) | refine keeps_ite ?_ ?_
    | apply keeps_card | apply keeps_op | apply keeps_hamper | apply keeps_ring | apply keeps_updOp | apply keeps_join
    | apply keeps_prepCheck | (refine keeps_bind ?_ (fun _ => ?_)) | refine kept_ite ?_ ?_ | simp only [kept_mk] | split
    | dsimp only

theorem keeps_passAt (i : Nat) : Keeps fz tz (Eng.passAt i) := by
  unfold Eng.passAt
  repeat' with_reducible first
    | assumption | apply keeps_pure | apply keeps_throw | refine keeps_card_bind (fun _ _ => ?_) | refine keeps_ite ?_ ?_
    | apply keeps_card | apply keeps_op | apply keeps_hamper | apply keeps_ring | apply keeps_refuse
    | apply keeps_failInput | apply keeps_rd | (refine keeps_bind ?_ (fun _ => ?_)) | split | dsimp only

theorem keeps_blockRd (off n : Nat) : Keeps fz tz (Eng.blockRd off n) := by
  unfold Eng.blockRd
  repeat' with_reducible first
    | assumption | apply keeps_pure | apply keeps_throw | refine keeps_card_bind (fun _ _ => ?_) | refine keeps_ite ?_ ?_
    | apply keeps_card | apply keeps_op | apply keeps_hamper | apply keeps_ring | refine keeps_upd (fun _ _ => ?_)
    | apply keeps_stRd | (refine keeps_bind ?_ (fun _ => ?_)) | apply kept_draw | refine kept_ite ?_ ?_
    | simp only [kept_mk] | dsimp only

theorem keeps_weights (p : Pass) : Keeps fz tz (Eng.weights p) := by
  unfold Eng.weights
  repeat' with_reducible first
    | assumption | apply keeps_pure | apply keeps_throw | refine keeps_card_bind (fun _ _ => ?_) | refine keeps_ite ?_ ?_
    | apply keeps_card | apply keeps_op | apply keeps_hamper | apply keeps_ring | apply keeps_blockRd
    | (refine keeps_bind ?_ (fun _ => ?_)) | dsimp only

theorem kept_loadShadow (c : Card) (h u : Nat) (w : List Byte) (hC : Kept fz tz c) : Kept fz tz (Card.loadShadow c h u w) :=
    by
  unfold Card.loadShadow
  repeat' with_reducible first
    | assumption | refine kept_ite ?_ ?_ | apply kept_setBit | apply kept_setGr | simp only [kept_mk]

theorem kept_swapSets (c : Card) (h u : Nat) (be : Bool) (hC : Kept fz tz c) : Kept fz tz (Card.swapSets c h u be) := by
  unfold Card.swapSets
  repeat' with_reducible first
    | assumption | apply kept_setGr | simp only [kept_mk]

theorem keeps_loadAhead (i : Nat) : Keeps fz tz (loadAhead i) := by
  unfold loadAhead
  repeat' with_reducible first
    | assumption | apply keeps_pure | apply keeps_throw | refine keeps_card_bind (fun _ _ => ?_) | refine keeps_ite ?_ ?_
    | apply keeps_card | apply keeps_op | apply keeps_hamper | apply keeps_ring | refine keeps_upd (fun _ _ => ?_)
    | apply keeps_updOp | apply keeps_weights | (refine keeps_bind ?_ (fun _ => ?_)) | apply kept_loadShadow
    | apply kept_readDone | refine kept_ite ?_ ?_ | simp only [kept_mk] | split | dsimp only

theorem keeps_openPass (i : Nat) (bs : List Byte) : Keeps fz tz (openPass i bs) := by
  unfold openPass
  repeat' with_reducible first
    | assumption | apply keeps_pure | apply keeps_throw | refine keeps_card_bind (fun _ _ => ?_) | refine keeps_ite ?_ ?_
    | apply keeps_card | apply keeps_op | apply keeps_hamper | apply keeps_ring | apply keeps_updOp
    | apply keeps_loadAhead | (refine keeps_bind ?_ (fun _ => ?_)) | refine kept_ite ?_ ?_ | simp only [kept_mk]
    | dsimp only

theorem keeps_beginPass (i : Nat) : Keeps fz tz (beginPass i) := by
  unfold beginPass
  repeat' with_reducible first
    | assumption | apply keeps_pure | apply keeps_throw | refine keeps_card_bind (fun _ _ => ?_) | refine keeps_ite ?_ ?_
    | apply keeps_card | apply keeps_op | apply keeps_hamper | apply keeps_ring | refine keeps_upd (fun _ _ => ?_)
    | apply keeps_passAt | apply keeps_weights | apply keeps_openPass | (refine keeps_bind ?_ (fun _ => ?_))
    | apply kept_loadShadow | apply kept_setGr | apply kept_swapSets | refine kept_ite ?_ ?_ | simp only [kept_mk]
    | dsimp only

theorem keeps_tileRow (p : Pass) (g : Nat × Nat) (act w : List Byte) (m : Nat) : Keeps fz tz (tileRow p g act w m) := by
  unfold tileRow
  repeat' with_reducible first
    | assumption | apply keeps_pure | apply keeps_throw | refine keeps_card_bind (fun _ _ => ?_) | refine keeps_ite ?_ ?_
    | apply keeps_card | apply keeps_op | apply keeps_hamper | apply keeps_ring | refine keeps_upd (fun _ _ => ?_)
    | apply keeps_updOp | apply keeps_stRd | apply keeps_stWr | (refine keeps_bind ?_ (fun _ => ?_)) | apply kept_bump
    | apply kept_setBit | refine kept_ite ?_ ?_ | simp only [kept_mk] | dsimp only

theorem keeps_tileRows (p : Pass) (g : Nat × Nat) (act w : List Byte) (l : List Nat) : Keeps fz tz (tileRows p g act w l) := by
  induction l with
  | nil => exact keeps_pure _
  | cons m t ih => exact keeps_bind (keeps_tileRow _ _ _ _ _) (fun _ => ih)

theorem keeps_endPass : Keeps fz tz (endPass ) := by
  unfold endPass
  repeat' with_reducible first
    | assumption | apply keeps_pure | apply keeps_throw | refine keeps_card_bind (fun _ _ => ?_) | refine keeps_ite ?_ ?_
    | apply keeps_card | apply keeps_op | apply keeps_hamper | apply keeps_ring | refine keeps_upd (fun _ _ => ?_)
    | apply keeps_updOp | apply keeps_blockRd | apply keeps_tileRows | (refine keeps_bind ?_ (fun _ => ?_))
    | apply kept_bump | apply kept_draw | refine kept_ite ?_ ?_ | simp only [kept_mk] | dsimp only

theorem kept_runPart (c : Card) (h r : Nat) (o : Op) (work : Eng Unit) (hC : Kept fz tz c) (hW : Keeps fz tz work) :
    Kept fz tz (Card.runPart c h r o work) := kept_runStep _ _ _ _ _ _ hC hW

theorem keeps_runStart : Keeps fz tz (runStart ) := by
  unfold runStart
  repeat' with_reducible first
    | assumption | apply keeps_pure | apply keeps_throw | refine keeps_card_bind (fun _ _ => ?_) | refine keeps_ite ?_ ?_
    | apply keeps_card | apply keeps_op | apply keeps_hamper | apply keeps_ring | apply keeps_check
    | apply keeps_beginPass | (refine keeps_bind ?_ (fun _ => ?_)) | dsimp only

theorem keeps_runAhead (u : Nat) : Keeps fz tz (runAhead u) := by
  unfold runAhead
  repeat' with_reducible first
    | assumption | apply keeps_pure | apply keeps_throw | refine keeps_card_bind (fun _ _ => ?_) | refine keeps_ite ?_ ?_
    | apply keeps_card | apply keeps_op | apply keeps_hamper | apply keeps_ring | refine keeps_upd (fun _ _ => ?_)
    | apply keeps_updOp | apply keeps_check | apply keeps_passAt | apply keeps_weights
    | (refine keeps_bind ?_ (fun _ => ?_)) | apply kept_loadShadow | refine kept_ite ?_ ?_ | simp only [kept_mk]
    | dsimp only

theorem kept_makeDue (c : Card) (h r : Nat) (o : Op) (u : Nat) (hC : Kept fz tz c) : Kept fz tz (Card.makeDue c h r o u) :=
    by
  unfold Card.makeDue
  repeat' with_reducible first
    | assumption | refine kept_ite ?_ ?_ | apply kept_draw | apply kept_drawXlate | apply kept_runPart | apply kept_setOp
    | apply keeps_runAhead | (refine kept_of_fst (by assumption) ?_) | split | simp only [kept_mk]

theorem kept_resumePaused (c : Card) (h u : Nat) (hC : Kept fz tz c) : Kept fz tz (Card.resumePaused c h u) := by
  unfold Card.resumePaused
  repeat' with_reducible first
    | assumption | refine kept_ite ?_ ?_ | apply kept_bump | apply kept_chargeWait | apply kept_runPart | apply kept_setGr
    | apply kept_setOp | apply kept_swapSets | apply keeps_beginPass | (refine kept_of_fst (by assumption) ?_) | split
    | simp only [kept_mk]

theorem kept_preempt (c : Card) (h r : Nat) (be : Op) (r' : Nat) (lc : Op) (hC : Kept fz tz c) : Kept fz tz (Card.preempt c h
    r be r' lc) := by
  unfold Card.preempt
  repeat' with_reducible first
    | assumption | apply kept_bump | apply kept_chargeCount | apply kept_runPart | apply kept_setOp | apply kept_startOp
    | apply kept_swapSets | apply keeps_openPass | simp only [kept_mk]

theorem kept_nextPass (c : Card) (h r : Nat) (o : Op) (hC : Kept fz tz c) : Kept fz tz (Card.nextPass c h r o) := by
  unfold Card.nextPass
  repeat' with_reducible first
    | assumption | refine kept_ite ?_ ?_ | apply kept_resumePaused | apply kept_runPart | apply keeps_beginPass
    | (refine kept_of_fst (by assumption) ?_) | split | simp only [kept_mk]

theorem kept_setSync (c : Card) (v : Nat) (hC : Kept fz tz c) : Kept fz tz (Card.setSync c v) := by
  unfold Card.setSync
  repeat' with_reducible first
    | assumption | apply kept_setF | simp only [kept_mk]

theorem kept_discipline (c : Card) (offset : Int) (ms : Nat) (hC : Kept fz tz c) : Kept fz tz (Card.discipline c offset ms) := by
  have h0 : Kept fz tz ((c.setN (mg 0x1050) (toBits 32 (clampI (-(2 ^ 31 - 1)) (2 ^ 31 - 1) offset))).setSync 1) :=
    kept_setSync _ _ (kept_setN _ _ _ hC)
  have h1 : Kept fz tz { (c.setN (mg 0x1050) (toBits 32 (clampI (-(2 ^ 31 - 1)) (2 ^ 31 - 1) offset))).setSync 1 with
      clk := { c.clk with missed := 0, open_ := false } } := { h0 with time := h0.time }
  unfold Card.discipline
  dsimp only
  split
  · refine kept_setBit _ _ _ _ (kept_bumpF _ _ _ _ _ ?_)
    exact { h1 with time := Nat.le_trans h1.time (Nat.le_add_right _ _) }
  · split
    · have h2 := kept_setBit _ (mg 0x104C) 2 true h1
      exact { h2 with time := h2.time }
    · have h2 := kept_setBit _ (mg 0x104C) 2 false h1
      exact { h2 with time := h2.time }

theorem kept_missedInterval (c : Card) (hC : Kept fz tz c) : Kept fz tz (Card.missedInterval c) := by
  have h0 : Kept fz tz { c with clk := { c.clk with missed := c.clk.missed + 1 } } := { hC with time := hC.time }
  unfold Card.missedInterval
  dsimp only
  exact kept_ite (kept_setSync _ _ h0) h0

theorem kept_paceMiss (c : Card) (h fig : Nat) (hC : Kept fz tz c) : Kept fz tz (Card.paceMiss c h fig) := by
  unfold Card.paceMiss
  repeat' with_reducible first
    | assumption | refine kept_ite ?_ ?_ | (refine kept_foldl (fun _ _ _ => ?_) _ ?_) | apply kept_setStream
    | apply kept_streamEvent | (refine kept_of_fst (by assumption) ?_) | split | simp only [kept_mk]

theorem kept_countPaceWin (c : Card) (h : Nat) (hC : Kept fz tz c) : Kept fz tz (Card.countPaceWin c h) := by
  unfold Card.countPaceWin
  repeat' with_reducible first
    | assumption | (refine kept_foldl (fun _ _ _ => ?_) _ ?_) | apply kept_setStream | simp only [kept_mk]

theorem kept_endWindow (c : Card) (h : Nat) (held : Bool) (hC : Kept fz tz c) : Kept fz tz (Card.endWindow c h held) := by
  unfold Card.endWindow
  repeat' with_reducible first
    | assumption | refine kept_ite ?_ ?_ | apply kept_bump | apply kept_countPaceWin | apply kept_paceMiss | apply kept_raise
    | apply kept_setN | apply kept_setPace | simp only [kept_mk]

theorem kept_avsSend (c : Card) (mv : Nat) (hC : Kept fz tz c) : Kept fz tz (Card.avsSend c mv) := by
  unfold Card.avsSend
  repeat' with_reducible first
    | assumption | refine kept_ite ?_ ?_ | apply kept_emit | simp only [kept_mk]

theorem kept_voltageStep (c : Card) (slipped : Bool) (hC : Kept fz tz c) : Kept fz tz (Card.voltageStep c slipped) := by
  unfold Card.voltageStep
  repeat' with_reducible first
    | assumption | refine kept_ite ?_ ?_ | (refine kept_foldl (fun _ _ _ => ?_) _ ?_) | apply kept_avsSend
    | apply kept_setPace | simp only [kept_mk]

theorem kept_openWindow (c : Card) (fin : Nat) (hC : Kept fz tz c) : Kept fz tz (Card.openWindow c fin) := by
  unfold Card.openWindow
  repeat' with_reducible first
    | assumption | simp only [kept_mk]

theorem kept_notePoint (c : Card) (hC : Kept fz tz c) : Kept fz tz (Card.notePoint c) := by
  unfold Card.notePoint
  repeat' with_reducible first
    | assumption | simp only [kept_mk]

theorem kept_portEvent (c : Card) (p b : Nat) (hC : Kept fz tz c) : Kept fz tz (Card.portEvent c p b) := by
  unfold Card.portEvent
  repeat' with_reducible first
    | assumption | apply kept_event | simp only [kept_mk]

theorem kept_remoteDone (c : Card) (x : Remote) (hC : Kept fz tz c) : Kept fz tz (Card.remoteDone c x) := by
  unfold Card.remoteDone
  repeat' with_reducible first
    | assumption | apply kept_pumpPort | simp only [kept_mk]

theorem kept_remoteFail (c : Card) (x : Remote) (detail : Nat) (hC : Kept fz tz c) : Kept fz tz (Card.remoteFail c x detail)
    := by
  unfold Card.remoteFail
  repeat' with_reducible first
    | assumption | refine kept_ite ?_ ?_ | apply kept_remoteDone | apply kept_setOp | apply kept_xlFault
    | (refine kept_of_fst (by assumption) ?_) | split | simp only [kept_mk]

theorem kept_portFail (c : Card) (p : Nat) (hC : Kept fz tz c) : Kept fz tz (Card.portFail c p) := by
  unfold Card.portFail
  repeat' with_reducible first
    | assumption | (refine kept_foldl (fun _ _ _ => ?_) _ ?_) | apply kept_remoteFail | simp only [kept_mk]

theorem kept_replayFrom (c : Card) (p : Nat) (from_ : Nat) (hC : Kept fz tz c) : Kept fz tz (Card.replayFrom c p from_) := by
  unfold Card.replayFrom
  repeat' with_reducible first
    | assumption | refine kept_ite ?_ ?_ | (refine kept_foldl (fun _ _ _ => ?_) _ ?_) | apply kept_bump | apply kept_emit
    | apply kept_setPort | simp only [kept_mk]

theorem kept_retrain (c : Card) (p : Nat) (hC : Kept fz tz c) : Kept fz tz (Card.retrain c p) := by
  unfold Card.retrain
  repeat' with_reducible first
    | assumption | refine kept_ite ?_ ?_ | apply kept_bump | apply kept_portEvent | apply kept_setF | apply kept_setPort
    | simp only [kept_mk]

theorem kept_dvBody (c : Card) (p : Nat) (b : DvBody) (hC : Kept fz tz c) : Kept fz tz (Card.dvBody c p b) := by
  unfold Card.dvBody
  repeat' with_reducible first
    | assumption | apply kept_setOp | apply kept_remoteDone | apply kept_remoteFail | apply kept_sendPacket | split
    | dsimp only

theorem kept_denyRemote (c : Card) (p id : Nat) (hC : Kept fz tz c) : Kept fz tz (Card.denyRemote c p id) := by
  unfold Card.denyRemote
  repeat' with_reducible first
    | assumption | apply kept_bump | apply kept_portEvent | apply kept_sendPacket | (rw [id_eq]; assumption)
    | simp only [kept_mk]

theorem kept_serveRemote (c : Card) (p id : Nat) (e : RegionEnt) (d len : Nat) (wdata : Option (List Byte)) (hC : Kept fz tz
    c) : Kept fz tz (Card.serveRemote c p id e d len wdata) := by
  unfold Card.serveRemote
  repeat' with_reducible first
    | assumption | apply kept_denyRemote | apply kept_sendPacket | apply kept_touch | apply kept_wrRegion
    | (rw [id_eq]; assumption) | (refine kept_of_fst (by assumption) ?_) | split | simp only [kept_mk]

theorem kept_releaseOne (c : Card) (x : HeldAccess) (hC : Kept fz tz c) : Kept fz tz (Card.releaseOne c x) := by
  unfold Card.releaseOne
  repeat' with_reducible first
    | assumption | refine kept_ite ?_ ?_ | apply kept_aperDo | apply kept_denyRemote | apply kept_emit | apply kept_ringBell
    | apply kept_serveRemote | apply kept_zeroRows | (rw [id_eq]; assumption) | (refine kept_of_fst (by assumption) ?_)
    | split | simp only [kept_mk]

theorem kept_releaseAll (c : Card) (hC : Kept fz tz c) : Kept fz tz (Card.releaseAll c) := by
  unfold Card.releaseAll
  repeat' with_reducible first
    | assumption | (refine kept_foldl (fun _ _ _ => ?_) _ ?_) | apply kept_releaseOne | simp only [kept_mk]

theorem kept_putMessage (c : Card) (p : Nat) (m : HeldMsg) (hC : Kept fz tz c) : Kept fz tz (Card.putMessage c p m) := by
  unfold Card.putMessage
  repeat' with_reducible first
    | assumption | apply kept_semApply | apply kept_sendPacket | apply kept_setN | apply kept_touch | apply kept_wrRegion
    | (refine kept_of_fst (by assumption) ?_) | split | simp only [kept_mk]

theorem kept_pumpMsgs (p fuel : Nat) (c : Card) (hC : Kept fz tz c) : Kept fz tz (Card.pumpMsgs p fuel c) := by
  induction fuel generalizing c with
  | zero => exact hC
  | succ n ih =>
    unfold Card.pumpMsgs
    repeat' with_reducible first
      | assumption | apply ih | refine kept_ite ?_ ?_ | apply kept_putMessage | apply kept_setPort | split

theorem kept_denyHeld (c : Card) (p : Nat) (hC : Kept fz tz c) : Kept fz tz (Card.denyHeld c p) := by
  unfold Card.denyHeld
  repeat' with_reducible first
    | assumption | (refine kept_foldl (fun _ _ _ => ?_) _ ?_) | apply kept_denyRemote | apply kept_setPort
    | simp only [kept_mk]

theorem kept_recheckMsg (c : Card) (h p : Nat) (hC : Kept fz tz c) : Kept fz tz (Card.recheckMsg c h p) := by
  unfold Card.recheckMsg
  repeat' with_reducible first
    | assumption | refine kept_ite ?_ ?_ | apply kept_denyHeld | apply kept_portEvent | apply kept_setBit
    | simp only [kept_mk]

theorem kept_noteCheck (c : Card) (h : Nat) (l : Layout) (hC : Kept fz tz c) : Kept fz tz (Card.noteCheck c h l) := by
  unfold Card.noteCheck
  repeat' with_reducible first
    | assumption | apply kept_setBit | simp only [kept_mk]

theorem kept_noteImage (c : Card) (h : Nat) (img : List Byte) (hC : Kept fz tz c) : Kept fz tz (Card.noteImage c h img) := by
  unfold Card.noteImage
  repeat' with_reducible first
    | assumption | refine kept_ite ?_ ?_ | apply kept_noteCheck | apply kept_setBit | simp only [kept_mk]

theorem kept_loaderResult (c : Card) (code off : Nat) (hC : Kept fz tz c) : Kept fz tz (Card.loaderResult c code off) := by
  unfold Card.loaderResult
  repeat' with_reducible first
    | assumption | apply kept_raise | apply kept_setBit | apply kept_setF | simp only [kept_mk]

theorem kept_lastResult (c : Card) (h code : Nat) (hC : Kept fz tz c) : Kept fz tz (Card.lastResult c h code) := by
  unfold Card.lastResult
  repeat' with_reducible first
    | assumption | apply kept_setF | simp only [kept_mk]

theorem kept_holdRetain (c : Card) (hC : Kept fz tz c) : Kept fz tz (Card.holdRetain c) := by
  unfold Card.holdRetain
  repeat' with_reducible first
    | assumption | (refine kept_foldl (fun _ _ _ => ?_) _ ?_) | apply kept_setReg | simp only [kept_mk]

theorem kept_fillWindow (c : Card) (img : List Byte) (hC : Kept fz tz c) : Kept fz tz (Card.fillWindow c img) := by
  unfold Card.fillWindow
  repeat' with_reducible first
    | assumption | (refine kept_foldl (fun _ _ _ => ?_) _ ?_) | apply kept_setN | simp only [kept_mk]

theorem kept_loaderGo (c : Card) (cmd h : Nat) (go : Card → Card) (hC : Kept fz tz c) (h_go : ∀ c, Kept fz tz c → Kept fz tz
    (go c)) : Kept fz tz (Card.loaderGo c cmd h go) := by
  unfold Card.loaderGo
  repeat' with_reducible first
    | assumption | apply h_go | refine kept_ite ?_ ?_ | apply kept_bump | apply kept_loaderResult | apply kept_setF
    | simp only [kept_mk]

theorem kept_loaderStart (c : Card) (cmd h : Nat) (hC : Kept fz tz c) : Kept fz tz (Card.loaderStart c cmd h) := by
  unfold Card.loaderStart
  repeat' with_reducible first
    | assumption | apply kept_setBit | simp only [kept_mk]

theorem kept_loaderIdle (c : Card) (hC : Kept fz tz c) : Kept fz tz (Card.loaderIdle c) := by
  unfold Card.loaderIdle
  repeat' with_reducible first
    | assumption | simp only [kept_mk]

theorem kept_stageImage (c : Card) (h : Nat) (img : List Byte) (hC : Kept fz tz c) : Kept fz tz (Card.stageImage c h img) :=
    by
  unfold Card.stageImage
  repeat' with_reducible first
    | assumption | simp only [kept_mk]

theorem kept_loaderEnd (c : Card) (h code : Nat) (hC : Kept fz tz c) : Kept fz tz (Card.loaderEnd c h code) := by
  unfold Card.loaderEnd
  repeat' with_reducible first
    | assumption | apply kept_lastResult | apply kept_loaderResult | simp only [kept_mk]

theorem kept_makePending (c : Card) (h : Nat) (l : Layout) (hC : Kept fz tz c) : Kept fz tz (Card.makePending c h l) := by
  unfold Card.makePending
  repeat' with_reducible first
    | assumption | refine kept_ite ?_ ?_ | apply kept_holdRetain | apply kept_setBit | apply kept_setFn | apply kept_setN
    | simp only [kept_mk]

theorem kept_zeroFill (c : Card) (h : Nat) (l : List RegionEnt) (hC : Kept fz tz c) : Kept fz tz (Card.zeroFill c h l) := by
  unfold Card.zeroFill
  repeat' with_reducible first
    | assumption | refine kept_ite ?_ ?_ | apply kept_zeroRows | (refine kept_of_fst (by assumption) ?_) | split
    | simp only [kept_mk]

theorem kept_dropAperture (c : Card) (hC : Kept fz tz c) : Kept fz tz (Card.dropAperture c) := by
  unfold Card.dropAperture
  repeat' with_reducible first
    | assumption | refine kept_ite ?_ ?_ | (refine kept_foldl (fun _ _ _ => ?_) _ ?_) | apply kept_setBit
    | simp only [kept_mk]

theorem kept_applySpares (c : Card) (old : Option Layout) (l : Layout) (hC : Kept fz tz c) : Kept fz tz (Card.applySpares c
    old l) := by
  unfold Card.applySpares
  repeat' with_reducible first
    | assumption | refine kept_ite ?_ ?_ | (refine kept_foldl (fun _ _ _ => ?_) _ ?_) | apply kept_setRank
    | simp only [kept_mk]

theorem kept_fnReady (c : Card) (h : Nat) (hC : Kept fz tz c) : Kept fz tz (Card.fnReady c h) := by
  unfold Card.fnReady
  repeat' with_reducible first
    | assumption | refine kept_ite ?_ ?_ | (refine kept_foldl (fun _ _ _ => ?_) _ ?_) | apply kept_bumpF | apply kept_cause
    | apply kept_raise | apply kept_setBit | apply kept_setF | apply kept_setFn | apply kept_setRing
    | simp only [kept_mk]

theorem kept_clearGriddleCounts (c : Card) (h : Nat) (old : Option Layout) (l : Layout) (hC : Kept fz tz c) : Kept fz tz
    (Card.clearGriddleCounts c h old l) := by
  unfold Card.clearGriddleCounts
  repeat' with_reducible first
    | assumption | refine kept_ite ?_ ?_ | apply kept_resetRegs | simp only [kept_mk]

theorem kept_applyLayout (c : Card) (h : Nat) (l : Layout) (hC : Kept fz tz c) : Kept fz tz (Card.applyLayout c h l) := by
  unfold Card.applyLayout
  repeat' with_reducible first
    | assumption | refine kept_ite ?_ ?_ | (refine kept_foldl (fun _ _ _ => ?_) _ ?_) | apply kept_applySpares
    | apply kept_clearGriddleCounts | apply kept_dropAperture | apply kept_fnReady | apply kept_holdRetain
    | apply kept_recheckMsg | apply kept_setBit | apply kept_setF | apply kept_setFn | apply kept_setN
    | apply kept_zeroFill | simp only [kept_mk]

theorem keeps_trackReady (ok : Bool) : Keeps fz tz (Eng.trackReady ok) := by
  unfold Eng.trackReady
  repeat' with_reducible first
    | assumption | apply keeps_pure | apply keeps_throw | refine keeps_card_bind (fun _ _ => ?_) | refine keeps_ite ?_ ?_
    | apply keeps_card | apply keeps_op | apply keeps_hamper | apply keeps_ring | apply keeps_check
    | (refine keeps_bind ?_ (fun _ => ?_)) | dsimp only

theorem kept_settleReqs (c : Card) (h : Nat) (hC : Kept fz tz c) : Kept fz tz (Card.settleReqs c h) := by
  unfold Card.settleReqs
  repeat' with_reducible first
    | assumption | refine kept_ite ?_ ?_ | (refine kept_foldl (fun _ _ _ => ?_) _ ?_) | apply kept_semApply
    | apply kept_setTracker | simp only [kept_mk]

theorem keeps_stepWork : Keeps fz tz (stepWork ) := by
  unfold stepWork
  repeat' with_reducible first
    | assumption | apply keeps_pure | apply keeps_throw | refine keeps_card_bind (fun _ _ => ?_) | refine keeps_ite ?_ ?_
    | apply keeps_card | apply keeps_op | apply keeps_hamper | apply keeps_ring | refine keeps_upd (fun _ _ => ?_)
    | apply keeps_check | apply keeps_join | apply keeps_rd | apply keeps_wants | apply keeps_trackReady
    | (refine keeps_bind ?_ (fun _ => ?_)) | apply kept_bump | apply kept_setTracker | apply kept_settleReqs
    | refine kept_ite ?_ ?_ | simp only [kept_mk] | split | dsimp only

theorem keeps_stPut (e off : Nat) (bs : List Byte) : Keeps fz tz (Eng.stPut e off bs) := by
  unfold Eng.stPut
  repeat' with_reducible first
    | assumption | apply keeps_pure | apply keeps_throw | refine keeps_card_bind (fun _ _ => ?_) | refine keeps_ite ?_ ?_
    | apply keeps_card | apply keeps_op | apply keeps_hamper | apply keeps_ring | refine keeps_upd (fun _ _ => ?_)
    | (refine keeps_bind ?_ (fun _ => ?_)) | apply kept_stWrite | refine kept_ite ?_ ?_ | simp only [kept_mk]
    | dsimp only

theorem keeps_stGather (e off n : Nat) : Keeps fz tz (Eng.stGather e off n) := by
  unfold Eng.stGather
  repeat' with_reducible first
    | assumption | apply keeps_pure | apply keeps_throw | refine keeps_card_bind (fun _ _ => ?_) | refine keeps_ite ?_ ?_
    | apply keeps_card | apply keeps_op | apply keeps_hamper | apply keeps_ring | apply keeps_join | apply keeps_sram
    | (refine keeps_forIn _ _ (fun _ _ => ?_)) | (refine keeps_bind ?_ (fun _ => ?_)) | dsimp only

theorem keeps_gatherPos (e stateOff kvOff maskOff i : Nat) (p : Option BatchPos) : Keeps fz tz (gatherPos e stateOff kvOff
    maskOff i p) := by
  unfold gatherPos
  repeat' with_reducible first
    | assumption | apply keeps_pure | apply keeps_throw | refine keeps_card_bind (fun _ _ => ?_) | refine keeps_ite ?_ ?_
    | apply keeps_card | apply keeps_op | apply keeps_hamper | apply keeps_ring | apply keeps_rd | apply keeps_sram
    | apply keeps_stPut | apply keeps_stGather | (refine keeps_mapM _ (fun _ => ?_))
    | (refine keeps_bind ?_ (fun _ => ?_)) | split | dsimp only

theorem keeps_batchWork : Keeps fz tz (batchWork ) := by
  unfold batchWork
  repeat' with_reducible first
    | assumption | apply keeps_pure | apply keeps_throw | refine keeps_card_bind (fun _ _ => ?_) | refine keeps_ite ?_ ?_
    | apply keeps_card | apply keeps_op | apply keeps_hamper | apply keeps_ring | refine keeps_upd (fun _ _ => ?_)
    | apply keeps_updOp | apply keeps_wr | apply keeps_trackReady | apply keeps_gatherPos
    | (refine keeps_forIn _ _ (fun _ _ => ?_)) | (refine keeps_bind ?_ (fun _ => ?_)) | apply kept_bump
    | apply kept_setTracker | apply kept_settleReqs | refine kept_ite ?_ ?_ | simp only [kept_mk] | split | dsimp only

theorem keeps_updatePos (b : Batch) (resOff stateOff kvOff i : Nat) (p : BatchPos) : Keeps fz tz (updatePos b resOff stateOff
    kvOff i p) := by
  unfold updatePos
  repeat' with_reducible first
    | assumption | apply keeps_pure | apply keeps_throw | refine keeps_card_bind (fun _ _ => ?_) | refine keeps_ite ?_ ?_
    | apply keeps_card | apply keeps_op | apply keeps_hamper | apply keeps_ring | refine keeps_upd (fun _ _ => ?_)
    | apply keeps_updOp | apply keeps_wrUnder | apply keeps_stRd | (refine keeps_bind ?_ (fun _ => ?_))
    | apply kept_setTracker | apply kept_sramPut | refine kept_ite ?_ ?_ | simp only [kept_mk] | dsimp only

theorem kept_finishBatch (c : Card) (h : Nat) (b : Batch) (hC : Kept fz tz c) : Kept fz tz (Card.finishBatch c h b) := by
  unfold Card.finishBatch
  repeat' with_reducible first
    | assumption | apply kept_closeBatch | apply kept_setTracker | apply kept_settleReqs | simp only [kept_mk]

theorem keeps_updateWork : Keeps fz tz (updateWork ) := by
  unfold updateWork
  repeat' with_reducible first
    | assumption | apply keeps_pure | apply keeps_throw | refine keeps_card_bind (fun _ _ => ?_) | refine keeps_ite ?_ ?_
    | apply keeps_card | apply keeps_op | apply keeps_hamper | apply keeps_ring | refine keeps_upd (fun _ _ => ?_)
    | apply keeps_refuse | apply keeps_join | apply keeps_trackReady | apply keeps_updatePos
    | (refine keeps_forIn _ _ (fun _ _ => ?_)) | (refine keeps_bind ?_ (fun _ => ?_)) | apply kept_closeBatch
    | apply kept_finishBatch | refine kept_ite ?_ ?_ | simp only [kept_mk] | split | dsimp only

theorem keeps_swapWork : Keeps fz tz (swapWork ) := by
  unfold swapWork
  repeat' with_reducible first
    | assumption | apply keeps_pure | apply keeps_throw | refine keeps_card_bind (fun _ _ => ?_) | refine keeps_ite ?_ ?_
    | apply keeps_card | apply keeps_op | apply keeps_hamper | apply keeps_ring | refine keeps_upd (fun _ _ => ?_)
    | apply keeps_rd | apply keeps_wr | apply keeps_want | apply keeps_trackReady
    | (refine keeps_forIn _ _ (fun _ _ => ?_)) | (refine keeps_bind ?_ (fun _ => ?_)) | apply kept_setN
    | refine kept_ite ?_ ?_ | simp only [kept_mk] | dsimp only

theorem keeps_withdrawWork : Keeps fz tz (withdrawWork ) := by
  unfold withdrawWork
  repeat' with_reducible first
    | assumption | apply keeps_pure | apply keeps_throw | refine keeps_card_bind (fun _ _ => ?_) | refine keeps_ite ?_ ?_
    | apply keeps_card | apply keeps_op | apply keeps_hamper | apply keeps_ring | refine keeps_upd (fun _ _ => ?_)
    | apply keeps_check | apply keeps_trackReady | (refine keeps_bind ?_ (fun _ => ?_)) | apply kept_bump
    | apply kept_withdrawEpoch | refine kept_ite ?_ ?_ | simp only [kept_mk] | dsimp only

theorem kept_flushRing (c : Card) (h r : Nat) (hC : Kept fz tz c) : Kept fz tz (Card.flushRing c h r).1 := by
  unfold Card.flushRing
  repeat' with_reducible first
    | assumption | refine kept_ite ?_ ?_ | (refine kept_foldl (fun _ _ _ => ?_) _ ?_) | apply kept_abandonRetry
    | apply kept_govDrop | apply kept_resetRegs | apply kept_setRec | apply kept_setRing | simp only [kept_mk]
    | (refine kept_foldl_fst (fun _ _ _ => ?_) _ ?_) | split | dsimp only

theorem kept_flushRings (c : Card) (h : Nat) (rs : List Nat) (hC : Kept fz tz c) : Kept fz tz (Card.flushRings c h rs).1 :=
    by
  unfold Card.flushRings
  repeat' with_reducible first
    | assumption | (refine kept_foldl (fun _ _ _ => ?_) _ ?_) | apply kept_flushRing
    | (refine kept_foldl_fst (fun _ _ _ => ?_) _ ?_) | split | dsimp only

theorem kept_endPasses (c : Card) (h : Nat) (rs : List Nat) (hC : Kept fz tz c) : Kept fz tz (Card.endPasses c h rs) := by
  unfold Card.endPasses
  repeat' with_reducible first
    | assumption | (refine kept_foldl (fun _ _ _ => ?_) _ ?_) | apply kept_runPart | apply keeps_endPass | simp only [kept_mk]

theorem kept_dropShadows (c : Card) (h : Nat) (hC : Kept fz tz c) : Kept fz tz (Card.dropShadows c h) := by
  unfold Card.dropShadows
  repeat' with_reducible first
    | assumption | refine kept_ite ?_ ?_ | (refine kept_foldl (fun _ _ _ => ?_) _ ?_) | apply kept_resumePaused
    | simp only [kept_mk]

theorem kept_dropProv (c : Card) (h e : Nat) (hC : Kept fz tz c) : Kept fz tz (Card.dropProv c h e) := by
  unfold Card.dropProv
  repeat' with_reducible first
    | assumption | simp only [kept_mk]

theorem kept_cancelEpoch (c : Card) (h e : Nat) (hC : Kept fz tz c) : Kept fz tz (Card.cancelEpoch c h e) := by
  unfold Card.cancelEpoch
  repeat' with_reducible first
    | assumption | refine kept_ite ?_ ?_ | apply kept_cancelOps | apply kept_dropProv | apply kept_dropRecords
    | apply kept_dropUnsettled | apply kept_setEpoch | apply kept_settleSigs | apply kept_withdrawTracks
    | simp only [kept_mk]

theorem kept_closeVfStreams (c : Card) (h n : Nat) (hC : Kept fz tz c) : Kept fz tz (Card.closeVfStreams c h n) := by
  unfold Card.closeVfStreams
  repeat' with_reducible first
    | assumption | (refine kept_foldl (fun _ _ _ => ?_) _ ?_) | apply kept_abandonPics | apply kept_cancelEpoch
    | apply kept_cancelWaiters | simp only [kept_mk]

theorem kept_endVfTracks (c : Card) (h v n : Nat) (hC : Kept fz tz c) : Kept fz tz (Card.endVfTracks c h v n) := by
  unfold Card.endVfTracks
  repeat' with_reducible first
    | assumption | refine kept_ite ?_ ?_ | apply kept_setTracker | simp only [kept_mk]

theorem kept_reclaimVf (c : Card) (h v : Nat) (rs : List Nat) (hC : Kept fz tz c) : Kept fz tz (Card.reclaimVf c h v rs) :=
    by
  unfold Card.reclaimVf
  repeat' with_reducible first
    | assumption | refine kept_ite ?_ ?_ | (refine kept_foldl (fun _ _ _ => ?_) _ ?_) | apply kept_bump | apply kept_freeWhere
    | simp only [kept_mk]

theorem kept_dropVfTables (c : Card) (h v : Nat) (hC : Kept fz tz c) : Kept fz tz (Card.dropVfTables c h v) := by
  unfold Card.dropVfTables
  repeat' with_reducible first
    | assumption | simp only [kept_mk]

theorem kept_resetVf (c : Card) (h v : Nat) (hC : Kept fz tz c) : Kept fz tz (Card.resetVf c h v).1 := by
  unfold Card.resetVf
  repeat' with_reducible first
    | assumption | apply kept_closeVfStreams | apply kept_dropShadows | apply kept_dropVfTables | apply kept_endPasses
    | apply kept_endVfTracks | apply kept_flushRings | apply kept_reclaimVf | apply kept_resetRegs | split | dsimp only

theorem kept_resetVc (c : Card) (h k : Nat) (hC : Kept fz tz c) : Kept fz tz (Card.resetVc c h k) := by
  unfold Card.resetVc
  repeat' with_reducible first
    | assumption | refine kept_ite ?_ ?_ | apply kept_setVc | simp only [kept_mk]

theorem kept_dropPfTables (c : Card) (h : Nat) (declared : Option (List Nat)) (hC : Kept fz tz c) : Kept fz tz
    (Card.dropPfTables c h declared) := by
  unfold Card.dropPfTables
  repeat' with_reducible first
    | assumption | simp only [kept_mk]

theorem kept_resetPf (c : Card) (h : Nat) (hC : Kept fz tz c) : Kept fz tz (Card.resetPf c h).1 := by
  unfold Card.resetPf
  repeat' with_reducible first
    | assumption | (refine kept_foldl (fun _ _ _ => ?_) _ ?_) | apply kept_abandonPics | apply kept_dropPfTables
    | apply kept_dropShadows | apply kept_endPasses | apply kept_flushRings | apply kept_resetRegs | apply kept_resetVc
    | apply kept_setF | apply kept_setPace | apply kept_setTracker | simp only [kept_mk]
    | (refine kept_foldl_fst (fun _ _ _ => ?_) _ ?_) | split | dsimp only

theorem kept_dropVfs (c : Card) (h : Nat) (hC : Kept fz tz c) : Kept fz tz (Card.dropVfs c h) := by
  unfold Card.dropVfs
  repeat' with_reducible first
    | assumption | (refine kept_foldl (fun _ _ _ => ?_) _ ?_) | apply kept_resetRegs | apply kept_setCfg | apply kept_setFn
    | simp only [kept_mk]

theorem kept_beginPfReset (c : Card) (h cause : Nat) (d3 hot : Bool) (hC : Kept fz tz c) : Kept fz tz (Card.beginPfReset c h
    cause d3 hot) := by
  unfold Card.beginPfReset
  repeat' with_reducible first
    | assumption | refine kept_ite ?_ ?_ | apply kept_dropVfs | apply kept_resetPf | apply kept_resetRegs | apply kept_setBit
    | apply kept_setCfg | apply kept_setF | apply kept_setFn | simp only [kept_mk]

theorem kept_askPfReset (c : Card) (h cause : Nat) (d3 hot : Bool) (hC : Kept fz tz c) : Kept fz tz (Card.askPfReset c h
    cause d3 hot) := by
  unfold Card.askPfReset
  repeat' with_reducible first
    | assumption | refine kept_ite ?_ ?_ | apply kept_beginPfReset | apply kept_setFn | simp only [kept_mk]

theorem kept_beginVfReset (c : Card) (h v : Nat) (hC : Kept fz tz c) : Kept fz tz (Card.beginVfReset c h v) := by
  unfold Card.beginVfReset
  repeat' with_reducible first
    | assumption | apply kept_resetVf | apply kept_setF | apply kept_setFn | simp only [kept_mk]

theorem kept_askVfReset (c : Card) (h v : Nat) (hC : Kept fz tz c) : Kept fz tz (Card.askVfReset c h v) := by
  unfold Card.askVfReset
  repeat' with_reducible first
    | assumption | refine kept_ite ?_ ?_ | apply kept_beginVfReset | apply kept_setFn | simp only [kept_mk]

theorem kept_heldResets (c : Card) (hC : Kept fz tz c) : Kept fz tz (Card.heldResets c) := by
  unfold Card.heldResets
  repeat' with_reducible first
    | assumption | refine kept_ite ?_ ?_ | (refine kept_foldl (fun _ _ _ => ?_) _ ?_) | apply kept_askPfReset
    | apply kept_askVfReset | apply kept_setFn | simp only [kept_mk]

theorem kept_pfReadable (c : Card) (h : Nat) (hC : Kept fz tz c) : Kept fz tz (Card.pfReadable c h) := by
  unfold Card.pfReadable
  repeat' with_reducible first
    | assumption | apply kept_setF | apply kept_setFn | simp only [kept_mk]

theorem kept_stageSet (c : Card) (ch : Nat) (p : List Byte) (hC : Kept fz tz c) : Kept fz tz (Card.stageSet c ch p) := by
  unfold Card.stageSet
  repeat' with_reducible first
    | assumption | (refine kept_foldl (fun _ _ _ => ?_) _ ?_) | simp only [kept_mk]

theorem kept_applyDelays (c : Card) (ch : Nat) (hC : Kept fz tz c) : Kept fz tz (Card.applyDelays c ch) := by
  unfold Card.applyDelays
  repeat' with_reducible first
    | assumption | apply kept_setBit | simp only [kept_mk]

theorem kept_enforce (c : Card) (ch sub : Nat) (hC : Kept fz tz c) : Kept fz tz (Card.enforce c ch sub) := by
  unfold Card.enforce
  repeat' with_reducible first
    | assumption | refine kept_ite ?_ ?_ | (refine kept_foldl (fun _ _ _ => ?_) _ ?_) | simp only [kept_mk]

theorem kept_delayCtl (c : Card) (ch : Nat) (v : Word) (hC : Kept fz tz c) : Kept fz tz (Card.delayCtl c ch v) := by
  unfold Card.delayCtl
  repeat' with_reducible first
    | assumption | refine kept_ite ?_ ?_ | apply kept_applyDelays | apply kept_stageSet | apply kept_writeReg
    | (refine kept_of_fst (by assumption) ?_) | split | simp only [kept_mk]

theorem kept_bandSample (c : Card) (ch : Nat) (t : Int) (hC : Kept fz tz c) : Kept fz tz (Card.bandSample c ch t) := by
  unfold Card.bandSample
  repeat' with_reducible first
    | assumption | refine kept_ite ?_ ?_ | apply kept_applyDelays | apply kept_event | apply kept_setF | apply kept_stageSet
    | (refine kept_of_fst (by assumption) ?_) | split | simp only [kept_mk]

theorem kept_restartDrift (c : Card) (hC : Kept fz tz c) : Kept fz tz (Card.restartDrift c) := by
  unfold Card.restartDrift
  repeat' with_reducible first
    | assumption | simp only [kept_mk]

theorem kept_loseSegments (c : Card) (ch : Nat) (hC : Kept fz tz c) : Kept fz tz (Card.loseSegments c ch) :=
  { hC with mem := tabWf_filter _ hC.mem }

theorem kept_closeRows (c : Card) (ch : Nat) (hC : Kept fz tz c) : Kept fz tz (Card.closeRows c ch) := by
  unfold Card.closeRows
  repeat' with_reducible first
    | assumption | simp only [kept_mk]

theorem kept_loseRank (c : Card) (k : Nat) (hC : Kept fz tz c) : Kept fz tz (Card.loseRank c k) := by
  unfold Card.loseRank
  repeat' with_reducible first
    | assumption | apply kept_aerLog | apply kept_event | apply kept_setCapacity | apply kept_setRank | simp only [kept_mk]

theorem kept_holdSearches (c : Card) (source : Nat) (hC : Kept fz tz c) : Kept fz tz (Card.holdSearches c source) := by
  unfold Card.holdSearches
  repeat' with_reducible first
    | assumption | refine kept_ite ?_ ?_ | (refine kept_foldl (fun _ _ _ => ?_) _ ?_) | apply kept_event | apply kept_setOp
    | simp only [kept_mk]

theorem kept_resumeSearches (c : Card) (hC : Kept fz tz c) : Kept fz tz (Card.resumeSearches c) := by
  unfold Card.resumeSearches
  repeat' with_reducible first
    | assumption | (refine kept_foldl (fun _ _ _ => ?_) _ ?_) | apply kept_resumeSearch | simp only [kept_mk]

theorem kept_abandonMigration (c : Card) (source : Nat) (hC : Kept fz tz c) : Kept fz tz (Card.abandonMigration c source) :=
    by
  unfold Card.abandonMigration
  repeat' with_reducible first
    | assumption | apply kept_loseRank | apply kept_releaseAll | apply kept_resumeSearches | simp only [kept_mk]

theorem kept_beginMigration (c : Card) (source target : Nat) (hC : Kept fz tz c) : Kept fz tz (Card.beginMigration c source
    target) := by
  unfold Card.beginMigration
  repeat' with_reducible first
    | assumption | apply kept_event | apply kept_holdSearches | apply kept_setF | apply kept_setRank | apply kept_wakeChannel
    | simp only [kept_mk]

theorem kept_setMigr (c : Card) (m : Option Migration) (hC : Kept fz tz c) : Kept fz tz (Card.setMigr c m) := by
  unfold Card.setMigr
  repeat' with_reducible first
    | assumption | simp only [kept_mk]

theorem kept_setMigrQ (c : Card) (q : List (Nat × Nat)) (hC : Kept fz tz c) : Kept fz tz (Card.setMigrQ c q) := by
  unfold Card.setMigrQ
  repeat' with_reducible first
    | assumption | simp only [kept_mk]

theorem kept_copyChunk (c : Card) (src dst chunk : Nat) (hC : Kept fz tz c) : Kept fz tz (Card.copyChunk c src dst chunk) := by
  unfold Card.copyChunk
  refine kept_rowsTouch _ _ _ _ (kept_rowsTouch _ _ _ _ (kept_mk.2 ?_))
  refine kept_foldl (fun _ _ h => kept_memPut _ _ _ h) _ ?_
  exact { hC with mem := tabWf_filter _ hC.mem }

theorem kept_poisonLine (c : Card) (key : Nat) (hC : Kept fz tz c) : Kept fz tz (Card.poisonLine c key) := by
  unfold Card.poisonLine
  repeat' with_reducible first
    | assumption | refine kept_ite ?_ ?_ | apply kept_bump | apply kept_scramble | apply kept_setPoison | simp only [kept_mk]

theorem kept_endMigration (c : Card) (m : Migration) (hC : Kept fz tz c) : Kept fz tz (Card.endMigration c m) := by
  unfold Card.endMigration
  repeat' with_reducible first
    | assumption | refine kept_ite ?_ ?_ | apply kept_event | apply kept_recordRetired | apply kept_resumeSearches
    | apply kept_setCapacity | apply kept_setRank | simp only [kept_mk]

theorem kept_logVerdict (c : Card) (h cls u kind ring ctx : Nat) (hC : Kept fz tz c) : Kept fz tz (Card.logVerdict c h cls u
    kind ring ctx) := by
  unfold Card.logVerdict
  repeat' with_reducible first
    | assumption | apply kept_log | simp only [kept_mk]

theorem kept_inputVerdict (c : Card) (h cls u ring ctx : Nat) (hC : Kept fz tz c) : Kept fz tz (Card.inputVerdict c h cls u
    ring ctx) := by
  unfold Card.inputVerdict
  repeat' with_reducible first
    | assumption | refine kept_ite ?_ ?_ | apply kept_bumpF | apply kept_hpEvent | apply kept_logVerdict | simp only [kept_mk]

theorem kept_dropRecs (c : Card) (h : Nat) (hC : Kept fz tz c) : Kept fz tz (Card.dropRecs c h) := by
  unfold Card.dropRecs
  repeat' with_reducible first
    | assumption | refine kept_ite ?_ ?_ | (refine kept_foldl (fun _ _ _ => ?_) _ ?_) | apply kept_draw
    | apply kept_recDiscard | apply kept_setOp | apply kept_setRec | simp only [kept_mk]

theorem kept_stepFails (c : Card) (h r : Nat) (o : Op) (input : Bool) (hC : Kept fz tz c) : Kept fz tz (Card.stepFails c h r
    o input) := by
  unfold Card.stepFails
  repeat' with_reducible first
    | assumption | refine kept_ite ?_ ?_ | apply kept_govDropOp | apply kept_resumePaused | apply kept_setOp
    | apply kept_takeBack | simp only [kept_mk]

theorem kept_settleRetries (c : Card) (h : Nat) (hC : Kept fz tz c) : Kept fz tz (Card.settleRetries c h) := by
  unfold Card.settleRetries
  repeat' with_reducible first
    | assumption | refine kept_ite ?_ ?_ | (refine kept_foldl (fun _ _ _ => ?_) _ ?_) | apply kept_logVerdict
    | apply kept_setOp | apply kept_setStream | apply kept_stepFails | (refine kept_of_fst (by assumption) ?_) | split
    | simp only [kept_mk]

theorem kept_settleFences (c : Card) (h : Nat) (hC : Kept fz tz c) : Kept fz tz (Card.settleFences c h) := by
  unfold Card.settleFences
  repeat' with_reducible first
    | assumption | apply kept_dropRecs | apply kept_refuseSearches | apply kept_settleGroups | apply kept_settleRetries
    | simp only [kept_mk]

theorem kept_moveOp (c : Card) (h r : Nat) (o : Op) (v : Nat) (hC : Kept fz tz c) : Kept fz tz (Card.moveOp c h r o v) := by
  unfold Card.moveOp
  repeat' with_reducible first
    | assumption | refine kept_ite ?_ ?_ | apply kept_resumePaused | apply kept_setGr | apply kept_setOp | simp only [kept_mk]

theorem kept_retryOnEqual (c : Card) (h r : Nat) (o : Op) (u v : Nat) (ok : Bool) (hC : Kept fz tz c) : Kept fz tz
    (Card.retryOnEqual c h r o u v ok) := by
  unfold Card.retryOnEqual
  repeat' with_reducible first
    | assumption | refine kept_ite ?_ ?_ | apply kept_inputVerdict | apply kept_logVerdict | apply kept_moveOp
    | apply kept_setFence | apply kept_stepFails | simp only [kept_mk]

theorem kept_opStepFails (c : Card) (h r : Nat) (o : Op) (u : Nat) (again equal : Bool) (hC : Kept fz tz c) : Kept fz tz
    (Card.opStepFails c h r o u again equal) := by
  unfold Card.opStepFails
  repeat' with_reducible first
    | assumption | refine kept_ite ?_ ?_ | apply kept_fenceUnit | apply kept_logVerdict | apply kept_retryOnEqual
    | apply kept_setOp | apply kept_stepFails | apply kept_transient | (refine kept_of_fst (by assumption) ?_) | split
    | simp only [kept_mk]

theorem kept_moveSlice (c : Card) (h s u v : Nat) (hC : Kept fz tz c) : Kept fz tz (Card.moveSlice c h s u v) := by
  unfold Card.moveSlice
  repeat' with_reducible first
    | assumption | refine kept_ite ?_ ?_ | apply kept_setStream | simp only [kept_mk]

theorem kept_sliceOnEqual (c : Card) (h s : Nat) (t : Stream) (own : Bool) (u v : Nat) (ok : Bool) (hC : Kept fz tz c) : Kept
    fz tz (Card.sliceOnEqual c h s t own u v ok) := by
  unfold Card.sliceOnEqual
  repeat' with_reducible first
    | assumption | refine kept_ite ?_ ?_ | apply kept_inputVerdict | apply kept_logVerdict | apply kept_moveSlice
    | apply kept_setFence | apply kept_setStream | simp only [kept_mk]

theorem kept_sliceFails (c : Card) (h u : Nat) (again equal : Bool) (hC : Kept fz tz c) : Kept fz tz (Card.sliceFails c h u
    again equal) := by
  unfold Card.sliceFails
  repeat' with_reducible first
    | assumption | refine kept_ite ?_ ?_ | apply kept_fenceUnit | apply kept_logVerdict | apply kept_setStream
    | apply kept_sliceOnEqual | apply kept_transient | (refine kept_of_fst (by assumption) ?_) | split
    | simp only [kept_mk]

theorem kept_recStepFails (c : Card) (h : Nat) (again : Bool) (hC : Kept fz tz c) : Kept fz tz (Card.recStepFails c h again)
    := by
  unfold Card.recStepFails
  repeat' with_reducible first
    | assumption | refine kept_ite ?_ ?_ | apply kept_fenceUnit | apply kept_logVerdict | apply kept_transient
    | simp only [kept_mk]

theorem kept_opRecFails (c : Card) (h r : Nat) (o : Op) (again : Bool) (hC : Kept fz tz c) : Kept fz tz (Card.opRecFails c h
    r o again) := by
  unfold Card.opRecFails
  repeat' with_reducible first
    | assumption | refine kept_ite ?_ ?_ | apply kept_fenceUnit | apply kept_logVerdict | apply kept_setOp | apply kept_setRec
    | apply kept_transient | simp only [kept_mk]

theorem kept_stepFault (c : Card) (f : StepFault) (hC : Kept fz tz c) : Kept fz tz (Card.stepFault c f) := by
  unfold Card.stepFault
  repeat' with_reducible first
    | assumption | refine kept_ite ?_ ?_ | apply kept_opRecFails | apply kept_opStepFails | apply kept_pump
    | apply kept_recStepFails | apply kept_settleFences | apply kept_sliceFails
    | (refine kept_of_fst (by assumption) ?_) | split | simp only [kept_mk]

theorem kept_reinstated (c : Card) (h cls u : Nat) (hC : Kept fz tz c) : Kept fz tz (Card.reinstated c h cls u) := by
  unfold Card.reinstated
  repeat' with_reducible first
    | assumption | apply kept_setFence | apply kept_setN | simp only [kept_mk]

theorem kept_pwrEvent (c : Card) (b : Nat) (hC : Kept fz tz c) : Kept fz tz (Card.pwrEvent c b) := by
  unfold Card.pwrEvent
  repeat' with_reducible first
    | assumption | apply kept_event | simp only [kept_mk]

theorem kept_coreDown (c : Card) (hC : Kept fz tz c) : Kept fz tz (Card.coreDown c) := by
  have h0 : Kept fz tz (if c.keep.host.isSome then ((c.setBit (mg 0x3004) 31 false).setBit (mg 0x3004) 30 false).setF (mg 0x3004) 27 24 6
      else c) := kept_ite (kept_setF _ _ _ _ _ (kept_setBit _ _ _ _ (kept_setBit _ _ _ _ hC))) hC
  unfold Card.coreDown
  dsimp only
  refine kept_setF _ _ _ _ _ (kept_setF _ _ _ _ _ (kept_setF _ _ _ _ _ (kept_setF _ _ _ _ _ ?_)))
  refine kept_foldl (fun _ _ h => kept_setBit _ _ _ _ h) _ ?_
  exact { mem := rfl, sram := rfl, regs := tabWf_filter _ h0.regs, sems := rfl, fuses := h0.fuses, time := h0.time }

theorem kept_powerDown (c : Card) (hC : Kept fz tz c) : Kept fz 0 (Card.powerDown c) := by
  unfold Card.powerDown
  exact kept_setF _ _ _ _ _ { mem := rfl, sram := rfl, regs := rfl, sems := rfl, fuses := hC.fuses, time := Nat.zero_le _ }

theorem kept_startQual (c : Card) (hC : Kept fz tz c) : Kept fz tz (Card.startQual c) := by
  unfold Card.startQual
  repeat' with_reducible first
    | assumption | refine kept_ite ?_ ?_ | simp only [kept_mk]

theorem kept_bootVoltage (c : Card) (hC : Kept fz tz c) : Kept fz tz (Card.bootVoltage c) := by
  unfold Card.bootVoltage
  repeat' with_reducible first
    | assumption | apply kept_emit | simp only [kept_mk]

theorem kept_endQual (c : Card) (hC : Kept fz tz c) : Kept fz tz (Card.endQual c) := by
  unfold Card.endQual
  repeat' with_reducible first
    | assumption | simp only [kept_mk]

theorem kept_writeEn (c : Card) (i : Nat) (on : Bool) (hC : Kept fz tz c) : Kept fz tz (Card.writeEn c i on) := by
  unfold Card.writeEn
  repeat' with_reducible first
    | assumption | refine kept_ite ?_ ?_ | apply kept_setBit | simp only [kept_mk]

theorem kept_thmEvent (c : Card) (b : Nat) (hC : Kept fz tz c) : Kept fz tz (Card.thmEvent c b) := by
  unfold Card.thmEvent
  repeat' with_reducible first
    | assumption | apply kept_event | simp only [kept_mk]

theorem kept_setSensor (c : Card) (i : Nat) (t : Option Int) (hC : Kept fz tz c) : Kept fz tz (Card.setSensor c i t) := by
  unfold Card.setSensor
  repeat' with_reducible first
    | assumption | refine kept_ite ?_ ?_ | apply kept_setBit | apply kept_setN | apply kept_thmEvent
    | (refine kept_of_fst (by assumption) ?_) | split | simp only [kept_mk]

theorem kept_pinHot (c : Card) (hC : Kept fz tz c) : Kept fz tz (Card.pinHot c) := by
  unfold Card.pinHot
  repeat' with_reducible first
    | assumption | simp only [kept_mk]

theorem kept_trip (c : Card) (sensor : Nat) (t : Int) (hC : Kept fz tz c) : Kept fz tz (Card.trip c sensor t) := by
  unfold Card.trip
  repeat' with_reducible first
    | assumption | apply kept_coreDown | apply kept_pinHot | apply kept_recordsChanged | apply kept_setF | simp only [kept_mk]

theorem kept_stageFor (c : Card) (tj : Int) (hC : Kept fz tz c) : Kept fz tz (Card.stageFor c tj) := by
  unfold Card.stageFor
  repeat' with_reducible first
    | assumption | refine kept_ite ?_ ?_ | apply kept_govFlags | apply kept_judgeHeld | apply kept_setF | apply kept_thmEvent
    | simp only [kept_mk]

theorem kept_presenceLog (c : Card) (op means result detail : Nat) (hC : Kept fz tz c) : Kept fz tz (Card.presenceLog c op
    means result detail) := by
  unfold Card.presenceLog
  repeat' with_reducible first
    | assumption | refine kept_ite ?_ ?_ | apply kept_recordsChanged | simp only [kept_mk]

theorem kept_fuseLog (c : Card) (w cls phase action mask value : Nat) (hC : Kept fz tz c) : Kept fz tz (Card.fuseLog c w cls
    phase action mask value) := by
  unfold Card.fuseLog
  repeat' with_reducible first
    | assumption | apply kept_recordsChanged | simp only [kept_mk]

theorem kept_ksEvent (c : Card) (b : Nat) (hC : Kept fz tz c) : Kept fz tz (Card.ksEvent c b) := by
  unfold Card.ksEvent
  repeat' with_reducible first
    | assumption | apply kept_event | simp only [kept_mk]

theorem kept_giveBack (c : Card) (j : KsJob) (hC : Kept fz tz c) : Kept fz tz (Card.giveBack c j) := by
  unfold Card.giveBack
  repeat' with_reducible first
    | assumption | simp only [kept_mk]

theorem kept_ksEnd (c : Card) (result : Nat) (hC : Kept fz tz c) : Kept fz tz (Card.ksEnd c result) := by
  unfold Card.ksEnd
  repeat' with_reducible first
    | assumption | refine kept_ite ?_ ?_ | apply kept_giveBack | apply kept_ksEvent | apply kept_setBit | apply kept_setF
    | (refine kept_of_fst (by assumption) ?_) | split | simp only [kept_mk]

theorem kept_writeBank (c : Card) (n : Nat) (hC : Kept fz tz c) : Kept fz tz (Card.writeBank c n) := by
  unfold Card.writeBank
  repeat' with_reducible first
    | assumption | apply kept_setN | simp only [kept_mk]

theorem kept_hostWriteBank (c : Card) (j : KsJob) (hC : Kept fz tz c) : Kept fz tz (Card.hostWriteBank c j) := by
  unfold Card.hostWriteBank
  repeat' with_reducible first
    | assumption | apply kept_setBit | apply kept_writeBank | (refine kept_of_fst (by assumption) ?_) | split
    | simp only [kept_mk]

theorem kept_askPresence (c : Card) (op detail : Nat) (granted refused opened : Card → Card) (hC : Kept fz tz c) (h_granted :
    ∀ c, Kept fz tz c → Kept fz tz (granted c)) (h_refused : ∀ c, Kept fz tz c → Kept fz tz (refused c)) (h_opened : ∀ c,
    Kept fz tz c → Kept fz tz (opened c)) : Kept fz tz (Card.askPresence c op detail granted refused opened) := by
  unfold Card.askPresence
  repeat' with_reducible first
    | assumption | apply h_granted | apply h_refused | apply h_opened | refine kept_ite ?_ ?_ | apply kept_ksEvent
    | apply kept_presenceLog | simp only [kept_mk]

theorem kept_startHostStore (c : Card) (j : KsJob) (hC : Kept fz tz c) : Kept fz tz (Card.startHostStore c j) := by
  unfold Card.startHostStore
  repeat' with_reducible first
    | assumption | refine kept_ite ?_ ?_ | (refine kept_foldl (fun _ _ _ => ?_) _ ?_) | apply kept_askPresence
    | apply kept_draw | apply kept_hostWriteBank | apply kept_ksEnd | apply kept_setBit | apply kept_setF
    | (refine kept_of_fst (by assumption) ?_) | split | simp only [kept_mk] | intro _ _

theorem kept_ksGo (c : Card) (v : Word) (cmd : Nat) (run : Card → Card) (hC : Kept fz tz c) (h_run : ∀ c, Kept fz tz c → Kept
    fz tz (run c)) : Kept fz tz (Card.ksGo c v cmd run) := by
  unfold Card.ksGo
  repeat' with_reducible first
    | assumption | apply h_run | refine kept_ite ?_ ?_ | apply kept_writeReg | simp only [kept_mk]

theorem kept_beginHostStore (c : Card) (cmd : Nat) (hC : Kept fz tz c) : Kept fz tz (Card.beginHostStore c cmd) := by
  unfold Card.beginHostStore
  repeat' with_reducible first
    | assumption | refine kept_ite ?_ ?_ | apply kept_setBit | apply kept_startHostStore | simp only [kept_mk]

theorem kept_commitBank (c : Card) (n : Nat) (img : List Byte) (ok : Bool) (hC : Kept fz tz c) : Kept fz tz (Card.commitBank
    c n img ok) := by
  unfold Card.commitBank
  repeat' with_reducible first
    | assumption | refine kept_ite ?_ ?_ | apply kept_setBit | apply kept_setF | apply kept_setN | simp only [kept_mk]

theorem kept_stgStep (c : Card) (hC : Kept fz tz c) : Kept fz tz (Card.stgStep c) := by
  unfold Card.stgStep
  repeat' with_reducible first
    | assumption | apply kept_setF | simp only [kept_mk]

theorem kept_startFuse (c : Card) (hC : Kept fz tz c) : Kept fz tz (Card.startFuse c) := by
  unfold Card.startFuse
  repeat' with_reducible first
    | assumption | apply kept_setBit | (refine kept_of_fst (by assumption) ?_) | split | simp only [kept_mk]

theorem kept_fuseEnd (c : Card) (result : Nat) (hC : Kept fz tz c) : Kept fz tz (Card.fuseEnd c result) := by
  unfold Card.fuseEnd
  repeat' with_reducible first
    | assumption | apply kept_event | apply kept_setBit | apply kept_setF | simp only [kept_mk]

theorem kept_grantReadout (c : Card) (jumper : Bool) (hC : Kept fz tz c) : Kept fz tz (Card.grantReadout c jumper) := by
  unfold Card.grantReadout
  repeat' with_reducible first
    | assumption | apply kept_setBit | simp only [kept_mk]

theorem kept_grantWindow (c : Card) (means : Nat) (hC : Kept fz tz c) : Kept fz tz (Card.grantWindow c means) := by
  unfold Card.grantWindow
  repeat' with_reducible first
    | assumption | refine kept_ite ?_ ?_ | apply kept_grantReadout | apply kept_hostWriteBank | apply kept_ksEvent
    | apply kept_presenceLog | apply kept_startFuse | (refine kept_of_fst (by assumption) ?_) | split
    | simp only [kept_mk]

theorem kept_endPresence (c : Card) (hC : Kept fz tz c) : Kept fz tz (Card.endPresence c) := by
  unfold Card.endPresence
  repeat' with_reducible first
    | assumption | simp only [kept_mk]

theorem kept_blow (c : Card) (w : Nat) (bits : Word) (hC : Kept fz tz c) : Kept fz tz (Card.blow c w bits) :=
  { hC with fuses := fun k => fuse_put hC.fuses k }

theorem kept_fuseEvents (c : Card) (w phase : Nat) (hC : Kept fz tz c) : Kept fz tz (Card.fuseEvents c w phase) := by
  unfold Card.fuseEvents
  repeat' with_reducible first
    | assumption | refine kept_ite ?_ ?_ | apply kept_event | (refine kept_of_fst (by assumption) ?_) | split
    | simp only [kept_mk]

theorem kept_countMargins (c : Card) (hC : Kept fz tz c) : Kept fz tz (Card.countMargins c) := by
  unfold Card.countMargins
  repeat' with_reducible first
    | assumption | apply kept_setF | simp only [kept_mk]

theorem kept_setUnits (c : Card) (hC : Kept fz tz c) : Kept fz tz (Card.setUnits c) := by
  unfold Card.setUnits
  repeat' with_reducible first
    | assumption | (refine kept_foldl (fun _ _ _ => ?_) _ ?_) | apply kept_setN | simp only [kept_mk]

theorem kept_recordSeal (c : Card) (hC : Kept fz tz c) : Kept fz tz (Card.recordSeal c) := by
  unfold Card.recordSeal
  repeat' with_reducible first
    | assumption | refine kept_ite ?_ ?_ | apply kept_blow | apply kept_ksEvent | apply kept_recordsChanged
    | apply kept_setBit | simp only [kept_mk]

theorem kept_enterStage (c : Card) (n : Nat) (hC : Kept fz tz c) : Kept fz tz (Card.enterStage c n) := by
  unfold Card.enterStage
  repeat' with_reducible first
    | assumption | apply kept_event | apply kept_setF | apply kept_setN | simp only [kept_mk]

theorem kept_powerUp (c : Card) (hC : Kept fz tz c) : Kept fz 0 (Card.powerUp c) := by
  have h0 : Kept fz 0 { c with on := true, clk := {} } := { hC with time := Nat.zero_le _ }
  unfold Card.powerUp
  repeat' with_reducible first
    | assumption | apply kept_checkSupplies | apply kept_startQual | apply kept_enterStage | apply kept_setBit

theorem kept_loadBanks (c : Card) (hC : Kept fz tz c) : Kept fz tz (Card.loadBanks c) := by
  unfold Card.loadBanks
  repeat' with_reducible first
    | assumption | refine kept_ite ?_ ?_ | apply kept_setF | apply kept_setN | simp only [kept_mk]

theorem kept_readFuse (c : Card) (ms : List FuseMargin) (w : Nat) (hC : Kept fz tz c) : Kept fz tz (Card.readFuse c ms w) :=
    by
  unfold Card.readFuse
  repeat' with_reducible first
    | assumption | refine kept_ite ?_ ?_ | apply kept_setReg | simp only [kept_mk]

theorem kept_bringChannel (c : Card) (ch : Nat) (m : ModuleResult) (hC : Kept fz tz c) : Kept fz tz (Card.bringChannel c ch
    m) := by
  unfold Card.bringChannel
  repeat' with_reducible first
    | assumption | refine kept_ite ?_ ?_ | apply kept_enforce | apply kept_setBit | apply kept_setF | apply kept_stageSet
    | (refine kept_of_fst (by assumption) ?_) | split | simp only [kept_mk]

theorem kept_emptyCache (c : Card) (hC : Kept fz tz c) : Kept fz tz (Card.emptyCache c) := by
  unfold Card.emptyCache
  repeat' with_reducible first
    | assumption | simp only [kept_mk]

theorem kept_redirectRank (c : Card) (k t : Nat) (hC : Kept fz tz c) : Kept fz tz (Card.redirectRank c k t) := by
  unfold Card.redirectRank
  repeat' with_reducible first
    | assumption | simp only [kept_mk]

theorem kept_defaultFailed (c : Card) (h code : Nat) (hC : Kept fz tz c) : Kept fz tz (Card.defaultFailed c h code) := by
  unfold Card.defaultFailed
  repeat' with_reducible first
    | assumption | apply kept_lastResult | apply kept_setBit | simp only [kept_mk]

theorem kept_checkDefault (c : Card) (h : Nat) (hC : Kept fz tz c) : Kept fz tz (Card.checkDefault c h) := by
  unfold Card.checkDefault
  repeat' with_reducible first
    | assumption | refine kept_ite ?_ ?_ | apply kept_defaultFailed | apply kept_lastResult | apply kept_makePending
    | apply kept_noteCheck | apply kept_noteImage | apply kept_setFn | (refine kept_of_fst (by assumption) ?_) | split
    | simp only [kept_mk]

theorem kept_startWindows (c : Card) (hC : Kept fz tz c) : Kept fz tz (Card.startWindows c) := by
  unfold Card.startWindows
  repeat' with_reducible first
    | assumption | simp only [kept_mk]

theorem kept_restartPtm (c : Card) (hC : Kept fz tz c) : Kept fz tz (Card.restartPtm c) := { hC with time := hC.time }

theorem kept_clearCfg (c : Card) (hC : Kept fz tz c) : Kept fz tz (Card.clearCfg c) := by
  unfold Card.clearCfg
  repeat' with_reducible first
    | assumption | simp only [kept_mk]

theorem kept_startVfs (c : Card) (h : Nat) (hC : Kept fz tz c) : Kept fz tz (Card.startVfs c h) := by
  unfold Card.startVfs
  repeat' with_reducible first
    | assumption | (refine kept_foldl (fun _ _ _ => ?_) _ ?_) | apply kept_dropVfs | apply kept_setBit | apply kept_setFn
    | simp only [kept_mk]

theorem kept_pumpFn (c : Card) (n : Nat) (hC : Kept fz tz c) : Kept fz tz (Card.pumpFn c n) := by
  unfold Card.pumpFn
  repeat' with_reducible first
    | assumption | refine kept_ite ?_ ?_ | (refine kept_foldl (fun _ _ _ => ?_) _ ?_) | apply kept_pump | simp only [kept_mk]

theorem kept_thawRequest (c : Card) (hC : Kept fz tz c) : Kept fz tz (Card.thawRequest c) := by
  unfold Card.thawRequest
  repeat' with_reducible first
    | assumption | refine kept_ite ?_ ?_ | apply kept_setBit | apply kept_setF | simp only [kept_mk]

theorem kept_frzCtl (c : Card) (v : Word) (hC : Kept fz tz c) : Kept fz tz (Card.frzCtl c v) := by
  unfold Card.frzCtl
  repeat' with_reducible first
    | assumption | refine kept_ite ?_ ?_ | apply kept_freezeRequest | apply kept_thawRequest | apply kept_writeReg
    | simp only [kept_mk]

theorem kept_stampUnits (c : Card) (hC : Kept fz tz c) : Kept fz tz (Card.stampUnits c) := by
  unfold Card.stampUnits
  repeat' with_reducible first
    | assumption | (refine kept_foldl (fun _ _ _ => ?_) _ ?_) | simp only [kept_mk]

theorem kept_settleStop (c : Card) (hC : Kept fz tz c) : Kept fz tz (Card.settleStop c) := by
  unfold Card.settleStop
  repeat' with_reducible first
    | assumption | simp only [kept_mk]

theorem kept_shiftTimers (c : Card) (dt : Nat) (hC : Kept fz tz c) : Kept fz tz (Card.shiftTimers c dt) := by
  unfold Card.shiftTimers
  repeat' with_reducible first
    | assumption | simp only [kept_mk]

theorem kept_thawRaster (c : Card) (h k : Nat) (hC : Kept fz tz c) : Kept fz tz (Card.thawRaster c h k) := by
  unfold Card.thawRaster
  repeat' with_reducible first
    | assumption | refine kept_ite ?_ ?_ | apply kept_latch | apply kept_setVc | simp only [kept_mk]

theorem kept_resume (c : Card) (hC : Kept fz tz c) : Kept fz tz (Card.resume c) := by
  unfold Card.resume
  repeat' with_reducible first
    | assumption | (refine kept_foldl (fun _ _ _ => ?_) _ ?_) | apply kept_completion | apply kept_heldResets
    | apply kept_msixRelease | apply kept_pump | apply kept_pumpPort | apply kept_releaseAll | apply kept_thawRaster
    | simp only [kept_mk]

theorem kept_loseRetention (c : Card) (hC : Kept fz tz c) : Kept fz tz (Card.loseRetention c) := by
  unfold Card.loseRetention
  repeat' with_reducible first
    | assumption | simp only [kept_mk]

theorem kept_endRefreeze (c : Card) (hC : Kept fz tz c) : Kept fz tz (Card.endRefreeze c) := by
  unfold Card.endRefreeze
  repeat' with_reducible first
    | assumption | simp only [kept_mk]

theorem kept_fillRo (c : Card) (bs : List Byte) (hC : Kept fz tz c) : Kept fz tz (Card.fillRo c bs) := by
  unfold Card.fillRo
  repeat' with_reducible first
    | assumption | (refine kept_foldl (fun _ _ _ => ?_) _ ?_) | apply kept_setN | simp only [kept_mk]

theorem kept_roCtl (c : Card) (v : Word) (hC : Kept fz tz c) : Kept fz tz (Card.roCtl c v) := by
  unfold Card.roCtl
  repeat' with_reducible first
    | assumption | refine kept_ite ?_ ?_ | apply kept_fillRo | apply kept_setBit | apply kept_setF | apply kept_writeReg
    | (refine kept_of_fst (by assumption) ?_) | split | simp only [kept_mk]

theorem kept_roUnlock (c : Card) (v : Word) (hC : Kept fz tz c) : Kept fz tz (Card.roUnlock c v) := by
  unfold Card.roUnlock
  repeat' with_reducible first
    | assumption | refine kept_ite ?_ ?_ | apply kept_askPresence | apply kept_grantReadout | apply kept_ksEvent
    | apply kept_setBit | simp only [kept_mk] | intro _ _

theorem kept_jtagIr (c : Card) (code : Nat) (hC : Kept fz tz c) : Kept fz tz (Card.jtagIr c code) := by
  unfold Card.jtagIr
  repeat' with_reducible first
    | assumption | simp only [kept_mk]

theorem kept_jtagShift (c : Card) (dr len : Nat) (hC : Kept fz tz c) : Kept fz tz (Card.jtagShift c dr len) := by
  unfold Card.jtagShift
  repeat' with_reducible first
    | assumption | apply kept_emit | simp only [kept_mk]

theorem kept_frzWrite (c : Card) (off : Nat) (v : Word) (hC : Kept fz tz c) : Kept fz tz (Card.frzWrite c off v) := by
  unfold Card.frzWrite
  repeat' with_reducible first
    | assumption | refine kept_ite ?_ ?_ | apply kept_frzCtl | apply kept_roCtl | apply kept_roUnlock | apply kept_write32
    | simp only [kept_mk]

theorem kept_jtagPins (c : Card) (len : Nat) (hC : Kept fz tz c) : Kept fz tz (Card.jtagPins c len) := by
  unfold Card.jtagPins
  repeat' with_reducible first
    | assumption | apply kept_draw | apply kept_emit | simp only [kept_mk]

theorem kept_smbusAnswer (c : Card) (code : Nat) (data : List Byte) (hC : Kept fz tz c) : Kept fz tz (Card.smbusAnswer c code
    data) := by
  unfold Card.smbusAnswer
  repeat' with_reducible first
    | assumption | apply kept_emit | simp only [kept_mk]

theorem kept_boardWrite (c : Card) (code v : Nat) (hC : Kept fz tz c) : Kept fz tz (Card.boardWrite c code v) := by
  unfold Card.boardWrite
  repeat' with_reducible first
    | assumption | refine kept_ite ?_ ?_ | (refine kept_of_fst (by assumption) ?_) | split | simp only [kept_mk]

theorem kept_smbusWrite (c : Card) (code : Nat) (v : Byte) (pec : Option Byte) (hC : Kept fz tz c) : Kept fz tz
    (Card.smbusWrite c code v pec) := by
  unfold Card.smbusWrite
  repeat' with_reducible first
    | assumption | refine kept_ite ?_ ?_ | apply kept_boardWrite | apply kept_emit | (refine kept_of_fst (by assumption) ?_)
    | split | simp only [kept_mk]

theorem kept_sampleNext (c : Card) (h r : Nat) (o : Op) (hC : Kept fz tz c) : Kept fz tz (Card.sampleNext c h r o) := by
  unfold Card.sampleNext
  repeat' with_reducible first
    | assumption | apply kept_drawXlate | apply kept_runStep | apply keeps_sampleStep | simp only [kept_mk]

theorem kept_stepOp (c : Card) (h r seq : Nat) (hC : Kept fz tz c) : Kept fz tz (Card.stepOp c h r seq) := by
  unfold Card.stepOp
  repeat' with_reducible first
    | assumption | refine kept_ite ?_ ?_ | apply kept_sampleNext | apply kept_searchBlock
    | (refine kept_of_fst (by assumption) ?_) | split | simp only [kept_mk]

theorem kept_stepsOp (h r seq n : Nat) (c : Card) (hC : Kept fz tz c) : Kept fz tz (Card.stepsOp h r seq n c) := by
  induction n generalizing c with
  | zero => exact hC
  | succ n ih =>
    unfold Card.stepsOp
    exact ih _ (kept_stepOp _ _ _ _ hC)

theorem kept_lastSteps (c : Card) (h r : Nat) (o : Op) (bad : Bool) (hC : Kept fz tz c) : Kept fz tz (Card.lastSteps c h r o
    bad) := by
  unfold Card.lastSteps
  repeat' with_reducible first
    | assumption | refine kept_ite ?_ ?_ | apply kept_draw | apply kept_mapOps | apply kept_stepsOp | simp only [kept_mk]

theorem kept_failData (c : Card) (o : Op) (bad : Option Nat) (hC : Kept fz tz c) : Kept fz tz (Card.failData c o bad).1 := by
  unfold Card.failData
  repeat' with_reducible first
    | assumption | refine kept_ite ?_ ?_ | apply kept_takeBack | (refine kept_of_fst (by assumption) ?_) | split | split
    | dsimp only

theorem kept_retireRan (c : Card) (h r : Nat) (o : Op) (hC : Kept fz tz c) : Kept fz tz (Card.retireRan c h r o) := by
  unfold Card.retireRan
  repeat' with_reducible first
    | assumption | refine kept_ite ?_ ?_ | apply kept_bump | apply kept_draw | apply kept_pump | apply kept_setOp
    | simp only [kept_mk]

theorem kept_tickWork (c : Card) (hC : Kept fz tz c) : Kept fz tz (Card.tickWork c) := by
  unfold Card.tickWork
  repeat' with_reducible first
    | assumption | refine kept_ite ?_ ?_ | (refine kept_foldl (fun _ _ _ => ?_) _ ?_) | apply kept_draw | apply kept_rpDrain
    | apply kept_searchBlock | apply kept_stepOp | simp only [kept_mk]

theorem keeps_stageSource (staged : Bool) (rs : List (Nat × Nat)) : Keeps fz tz (Eng.stageSource staged rs) := by
  unfold Eng.stageSource
  repeat' with_reducible first
    | assumption | apply keeps_pure | apply keeps_throw | refine keeps_card_bind (fun _ _ => ?_) | refine keeps_ite ?_ ?_
    | apply keeps_card | apply keeps_op | apply keeps_hamper | apply keeps_ring | apply keeps_check
    | apply keeps_precheck | apply keeps_wants | (refine keeps_mapM _ (fun _ => ?_))
    | (refine keeps_bind ?_ (fun _ => ?_)) | dsimp only

theorem keeps_srcRd (staged : Bool) (src n : Nat) : Keeps fz tz (Eng.srcRd staged src n) := by
  unfold Eng.srcRd
  repeat' with_reducible first
    | assumption | apply keeps_pure | apply keeps_throw | refine keeps_card_bind (fun _ _ => ?_) | refine keeps_ite ?_ ?_
    | apply keeps_card | apply keeps_op | apply keeps_hamper | apply keeps_ring | apply keeps_rd | apply keeps_stRd
    | (refine keeps_bind ?_ (fun _ => ?_)) | dsimp only

theorem keeps_stageDest (dst n : Nat) : Keeps fz tz (Eng.stageDest dst n) := by
  unfold Eng.stageDest
  repeat' with_reducible first
    | assumption | apply keeps_pure | apply keeps_throw | refine keeps_card_bind (fun _ _ => ?_) | refine keeps_ite ?_ ?_
    | apply keeps_card | apply keeps_op | apply keeps_hamper | apply keeps_ring | apply keeps_check
    | (refine keeps_bind ?_ (fun _ => ?_)) | dsimp only

theorem keeps_stageRowsWork : Keeps fz tz (stageRowsWork ) := by
  unfold stageRowsWork
  repeat' with_reducible first
    | assumption | apply keeps_pure | apply keeps_throw | refine keeps_card_bind (fun _ _ => ?_) | refine keeps_ite ?_ ?_
    | apply keeps_card | apply keeps_op | apply keeps_hamper | apply keeps_ring | apply keeps_check | apply keeps_stWr
    | apply keeps_stageSource | apply keeps_srcRd | apply keeps_stageDest | (refine keeps_mapM _ (fun _ => ?_))
    | (refine keeps_bind ?_ (fun _ => ?_)) | dsimp only

theorem keeps_stageWeightsWork : Keeps fz tz (stageWeightsWork ) := by
  unfold stageWeightsWork
  repeat' with_reducible first
    | assumption | apply keeps_pure | apply keeps_throw | refine keeps_card_bind (fun _ _ => ?_) | refine keeps_ite ?_ ?_
    | apply keeps_card | apply keeps_op | apply keeps_hamper | apply keeps_ring | apply keeps_check | apply keeps_stWr
    | apply keeps_stageSource | apply keeps_srcRd | apply keeps_stageDest | (refine keeps_mapM _ (fun _ => ?_))
    | (refine keeps_bind ?_ (fun _ => ?_)) | dsimp only

theorem keeps_stageConvWork : Keeps fz tz (stageConvWork ) := by
  unfold stageConvWork
  repeat' with_reducible first
    | assumption | apply keeps_pure | apply keeps_throw | refine keeps_card_bind (fun _ _ => ?_) | refine keeps_ite ?_ ?_
    | apply keeps_card | apply keeps_op | apply keeps_hamper | apply keeps_ring | refine keeps_upd (fun _ _ => ?_)
    | apply keeps_check | apply keeps_failInput | apply keeps_stWr | apply keeps_stageSource | apply keeps_srcRd
    | apply keeps_stageDest | (refine keeps_mapM _ (fun _ => ?_)) | (refine keeps_bind ?_ (fun _ => ?_))
    | apply kept_draw | apply kept_setBit | refine kept_ite ?_ ?_ | simp only [kept_mk] | dsimp only

theorem kept_wkCount (c : Card) (h : Nat) (n : WkCount) (hC : Kept fz tz c) : Kept fz tz (Card.wkCount c h n) := by
  unfold Card.wkCount
  repeat' with_reducible first
    | assumption | refine kept_ite ?_ ?_ | apply kept_bump | apply kept_setBit | simp only [kept_mk]

theorem keeps_wkPages (d : Desc) (rows cols : Nat) (write : Bool) : Keeps fz tz (Eng.wkPages d rows cols write) := by
  unfold Eng.wkPages
  repeat' with_reducible first
    | assumption | apply keeps_pure | apply keeps_throw | refine keeps_card_bind (fun _ _ => ?_) | refine keeps_ite ?_ ?_
    | apply keeps_card | apply keeps_op | apply keeps_hamper | apply keeps_ring | apply keeps_refuse
    | apply keeps_precheck | (refine keeps_forIn _ _ (fun _ _ => ?_)) | (refine keeps_bind ?_ (fun _ => ?_))
    | dsimp only

theorem keeps_wkStaging (d : Desc) (n : Nat) : Keeps fz tz (Eng.wkStaging d n) := by
  unfold Eng.wkStaging
  repeat' with_reducible first
    | assumption | apply keeps_pure | apply keeps_throw | refine keeps_card_bind (fun _ _ => ?_) | refine keeps_ite ?_ ?_
    | apply keeps_card | apply keeps_op | apply keeps_hamper | apply keeps_ring | apply keeps_check
    | (refine keeps_bind ?_ (fun _ => ?_)) | dsimp only

theorem keeps_wkRd (d : Desc) (off n : Nat) (dst : Option (Bool × Nat × Nat)) : Keeps fz tz (Eng.wkRd d off n dst) := by
  unfold Eng.wkRd
  repeat' with_reducible first
    | assumption | apply keeps_pure | apply keeps_throw | refine keeps_card_bind (fun _ _ => ?_) | refine keeps_ite ?_ ?_
    | apply keeps_card | apply keeps_op | apply keeps_hamper | apply keeps_ring | refine keeps_upd (fun _ _ => ?_)
    | apply keeps_srcRd | (refine keeps_bind ?_ (fun _ => ?_)) | refine kept_ite ?_ ?_ | simp only [kept_mk] | split
    | dsimp only

theorem keeps_wkWr (d : Desc) (off : Nat) (bs : List Byte) : Keeps fz tz (Eng.wkWr d off bs) := by
  unfold Eng.wkWr
  repeat' with_reducible first
    | assumption | apply keeps_pure | apply keeps_throw | refine keeps_card_bind (fun _ _ => ?_) | refine keeps_ite ?_ ?_
    | apply keeps_card | apply keeps_op | apply keeps_hamper | apply keeps_ring | apply keeps_wr | apply keeps_stWr
    | (refine keeps_bind ?_ (fun _ => ?_)) | dsimp only

theorem keeps_wkRow (d : Desc) (cols i : Nat) (dst : Option (Bool × Nat × Nat)) : Keeps fz tz (Eng.wkRow d cols i dst) := by
  unfold Eng.wkRow
  repeat' with_reducible first
    | assumption | apply keeps_pure | apply keeps_throw | refine keeps_card_bind (fun _ _ => ?_) | refine keeps_ite ?_ ?_
    | apply keeps_card | apply keeps_op | apply keeps_hamper | apply keeps_ring | apply keeps_wkRd
    | (refine keeps_bind ?_ (fun _ => ?_)) | dsimp only

theorem keeps_wkPut (d : Desc) (amax : Option Nat) (i : Nat) (xs : List Nat) : Keeps fz tz (Eng.wkPut d amax i xs) := by
  unfold Eng.wkPut
  repeat' with_reducible first
    | assumption | apply keeps_pure | apply keeps_throw | refine keeps_card_bind (fun _ _ => ?_) | refine keeps_ite ?_ ?_
    | apply keeps_card | apply keeps_op | apply keeps_hamper | apply keeps_ring | refine keeps_upd (fun _ _ => ?_)
    | apply keeps_wkWr | (refine keeps_bind ?_ (fun _ => ?_)) | apply kept_draw | apply kept_wkCount
    | refine kept_ite ?_ ?_ | simp only [kept_mk] | dsimp only

theorem keeps_zcRow (d : Desc) (start : Nat) (l : List (List Byte)) (w : Nat) : Keeps fz tz (Eng.zcRow d start l w) := by
  induction l generalizing w with
  | nil => exact keeps_pure _
  | cons b t ih =>
    unfold Eng.zcRow
    repeat' with_reducible first
      | assumption | apply ih | apply keeps_failInput | refine keeps_ite ?_ ?_ | apply keeps_hamper
      | refine keeps_upd (fun _ _ => ?_) | apply keeps_wkWr | (refine keeps_bind ?_ (fun _ => ?_)) | apply kept_setBit
      | dsimp only

theorem keeps_zcEntry (d : Desc) (i w : Nat) : Keeps fz tz (Eng.zcEntry d i w) := by
  unfold Eng.zcEntry
  repeat' with_reducible first
    | assumption | apply keeps_pure | apply keeps_throw | refine keeps_card_bind (fun _ _ => ?_) | refine keeps_ite ?_ ?_
    | apply keeps_card | apply keeps_op | apply keeps_hamper | apply keeps_ring | refine keeps_upd (fun _ _ => ?_)
    | apply keeps_failInput | apply keeps_wkWr | (refine keeps_bind ?_ (fun _ => ?_)) | apply kept_setBit
    | refine kept_ite ?_ ?_ | simp only [kept_mk] | dsimp only

theorem keeps_zcRows (d : Desc) (start : Nat) (rows : List (List Byte)) : Keeps fz tz (Eng.zcRows d start rows) := by
  unfold Eng.zcRows
  repeat' with_reducible first
    | assumption | apply keeps_zcEntry | apply keeps_zcRow | apply keeps_pure | (refine keeps_forIn _ _ (fun _ _ => ?_))
    | (refine keeps_bind ?_ (fun _ => ?_)) | dsimp only

theorem keeps_zcWrite (d : Desc) (rows : List (List Nat)) : Keeps fz tz (Eng.zcWrite d rows) := by
  unfold Eng.zcWrite
  repeat' with_reducible first
    | assumption | apply keeps_pure | apply keeps_throw | refine keeps_card_bind (fun _ _ => ?_) | refine keeps_ite ?_ ?_
    | apply keeps_card | apply keeps_op | apply keeps_hamper | apply keeps_ring | refine keeps_upd (fun _ _ => ?_)
    | apply keeps_zcRows | (refine keeps_bind ?_ (fun _ => ?_)) | apply kept_wkCount | refine kept_ite ?_ ?_
    | simp only [kept_mk] | dsimp only

theorem keeps_wkBody : Keeps fz tz (Eng.wkBody ) := by
  unfold Eng.wkBody
  repeat' with_reducible first
    | assumption | apply keeps_pure | apply keeps_throw | refine keeps_card_bind (fun _ _ => ?_) | refine keeps_ite ?_ ?_
    | apply keeps_card | apply keeps_op | apply keeps_hamper | apply keeps_ring | (refine keeps_bind ?_ (fun _ => ?_))
    | dsimp only

theorem keeps_wkSize (w : WkBody) : Keeps fz tz (Eng.wkSize w) := by
  unfold Eng.wkSize
  repeat' with_reducible first
    | assumption | apply keeps_pure | apply keeps_throw | refine keeps_card_bind (fun _ _ => ?_) | refine keeps_ite ?_ ?_
    | apply keeps_card | apply keeps_op | apply keeps_hamper | apply keeps_ring | (refine keeps_bind ?_ (fun _ => ?_))
    | dsimp only

theorem keeps_wkCheck (ok : Bool) (l : List (Desc × Nat × Nat × Bool)) : Keeps fz tz (Eng.wkCheck ok l) := by
  unfold Eng.wkCheck
  repeat' with_reducible first
    | assumption | apply keeps_pure | apply keeps_throw | refine keeps_card_bind (fun _ _ => ?_) | refine keeps_ite ?_ ?_
    | apply keeps_card | apply keeps_op | apply keeps_hamper | apply keeps_ring | apply keeps_check
    | apply keeps_wkPages | apply keeps_wkStaging | (refine keeps_forIn _ _ (fun _ _ => ?_))
    | (refine keeps_bind ?_ (fun _ => ?_)) | dsimp only

theorem keeps_mapWork : Keeps fz tz (mapWork ) := by
  unfold mapWork
  repeat' with_reducible first
    | assumption | apply keeps_pure | apply keeps_throw | refine keeps_card_bind (fun _ _ => ?_) | refine keeps_ite ?_ ?_
    | apply keeps_card | apply keeps_op | apply keeps_hamper | apply keeps_ring | apply keeps_wkRd | apply keeps_wkRow
    | apply keeps_wkPut | apply keeps_zcWrite | apply keeps_wkBody | apply keeps_wkSize | apply keeps_wkCheck
    | (refine keeps_forIn _ _ (fun _ _ => ?_)) | (refine keeps_mapM _ (fun _ => ?_))
    | (refine keeps_bind ?_ (fun _ => ?_)) | dsimp only

theorem keeps_reduceWork : Keeps fz tz (reduceWork ) := by
  unfold reduceWork
  repeat' with_reducible first
    | assumption | apply keeps_pure | apply keeps_throw | refine keeps_card_bind (fun _ _ => ?_) | refine keeps_ite ?_ ?_
    | apply keeps_card | apply keeps_op | apply keeps_hamper | apply keeps_ring | refine keeps_upd (fun _ _ => ?_)
    | apply keeps_wkWr | apply keeps_wkRow | apply keeps_wkPut | apply keeps_wkBody | apply keeps_wkSize
    | apply keeps_wkCheck | (refine keeps_forIn _ _ (fun _ _ => ?_)) | (refine keeps_mapM _ (fun _ => ?_))
    | (refine keeps_bind ?_ (fun _ => ?_)) | apply kept_draw | refine kept_ite ?_ ?_ | simp only [kept_mk]
    | (refine kept_foldl (fun _ _ _ => ?_) _ ?_) | split | dsimp only

theorem keeps_normWork : Keeps fz tz (normWork ) := by
  unfold normWork
  repeat' with_reducible first
    | assumption | apply keeps_pure | apply keeps_throw | refine keeps_card_bind (fun _ _ => ?_) | refine keeps_ite ?_ ?_
    | apply keeps_card | apply keeps_op | apply keeps_hamper | apply keeps_ring | apply keeps_wkRow | apply keeps_wkPut
    | apply keeps_wkBody | apply keeps_wkSize | apply keeps_wkCheck | (refine keeps_forIn _ _ (fun _ _ => ?_))
    | (refine keeps_mapM _ (fun _ => ?_)) | (refine keeps_bind ?_ (fun _ => ?_)) | dsimp only

theorem keeps_dwWork : Keeps fz tz (dwWork ) := by
  unfold dwWork
  repeat' with_reducible first
    | assumption | apply keeps_pure | apply keeps_throw | refine keeps_card_bind (fun _ _ => ?_) | refine keeps_ite ?_ ?_
    | apply keeps_card | apply keeps_op | apply keeps_hamper | apply keeps_ring | refine keeps_upd (fun _ _ => ?_)
    | apply keeps_refuse | apply keeps_check | apply keeps_precheck | apply keeps_wkStaging | apply keeps_wkRd
    | apply keeps_wkWr | apply keeps_zcWrite | (refine keeps_forIn _ _ (fun _ _ => ?_))
    | (refine keeps_bind ?_ (fun _ => ?_)) | apply kept_wkCount | refine kept_ite ?_ ?_ | simp only [kept_mk] | split
    | dsimp only

end Sys2Proof.Laws
end

