-- ==== Sys2Proof/Laws/Memory.lean ====
section
/-! SUPPORT. The laws of card memory: a read after a write, and that a write keeps the canonical form. -/

namespace Sys2Proof.Laws

open Sys2Proof Sys2Proof.Machine

/-- A write of one byte keeps memory's canonical form. -/
theorem memoryWf_memPut {c : Card} (a : Nat) (b : Byte) (h : Memory.wf c.mem = true) : Memory.wf (c.memPut a b).mem = true :=
  tabWf_put (d := fun _ => memDefault) a b h

/-- The byte written is the byte read. -/
@[simp] theorem memAt_memPut_self (c : Card) (a : Nat) (b : Byte) : (c.memPut a b).memAt a = b :=
  tabGet_put_self memDefault c.mem a b

/-- Every other byte reads as before. -/
theorem memAt_memPut_ne {c : Card} {a j : Nat} {b : Byte} (h : j ≠ a) : (c.memPut a b).memAt j = c.memAt j :=
  tabGet_put_ne _ b h

end Sys2Proof.Laws
end

