-- ==== Sys2Proof/WellFormed.lean ====
section
/-! DEFINITION. What a command's operands must be for the outside world to be able to give it: the checks below refuse an
operand that no host access, packet, sensor or scan can carry. The card's own checks of a command are part of its meaning, not of
these. -/

namespace Sys2Proof

/-- An access to BAR0 (R6): 1, 2, 4 or 8 bytes, inside the 1 MiB of a hamper function or the 64 KiB of PF0. -/
def accessWf (off size : Nat) : Bool := [1, 2, 4, 8].contains size && decide (off + size ≤ 2 ^ 20)

/-- A register's offset (R6): 4-byte aligned, inside BAR0. -/
def regOffWf (off : Nat) : Bool := off % 4 == 0 && decide (off + 4 ≤ 2 ^ 20)

/-- An access to BAR4 (R81): 1, 2, 4 or 8 bytes, inside its 64 KiB. -/
def bar4Wf (off size : Nat) : Bool := [1, 2, 4, 8].contains size && decide (off + size ≤ 2 ^ 16)

/-- A host write's value fits its size; a BAR4 write that rings a doorbell (R82) is the row DOORBELL. -/
def RegWrite.wf : RegWrite → Bool
  | .mmio _ off size value => accessWf off size && decide (value < 2 ^ (8 * size))
  | .bar4 _ off size value => bar4Wf off size && decide (value < 2 ^ (8 * size)) && (off % 4096 != 0 || decide (size < 4))
  | .config _ _ value => decide (value < 2 ^ 64)

/-- A host read lies inside its BAR. -/
def RegRead.wf (size : Nat) : RegRead → Bool
  | .mmio off => accessWf off size
  | .bar4 off => bar4Wf off size
  | .config _ => true

/-- A request or a completion carries between 1 and 4,096 bytes (PRESUMED, the largest payload that PCIe defines; log entry 24). -/
def lengthWf (n : Nat) : Bool := decide (0 < n) && decide (n ≤ 4096)

/-- A read or write of `len` bytes: a write carries as many bytes as it says. -/
def transferWf (len : Nat) (wdata : Option (List Byte)) : Bool :=
  lengthWf len && wdata.all (fun d => d.length == len)

/-- An access to BAR2 (R81): inside the 32 GiB of a hamper PF or the 4 GiB of a VF; PF0 has none. -/
def apertureWf : Fn → Nat → Nat → Bool
  | .pf0, _, _ => true
  | .pf _, addr, len => decide (addr + len ≤ 2 ^ 35)
  | .vf _ _, addr, len => decide (addr + len ≤ 2 ^ 32)

/-- A CSI-2 long packet (R265): six bits of data type. -/
def CsiPacket.wf (pk : CsiPacket) : Bool := decide (pk.dt < 64)

/-- The bits shifted in are no more than the scan's length. -/
def scanWf (dr len : Nat) : Bool := decide (dr < 2 ^ len)

/-- The low reading is given for the marginal bits only (R494). -/
def FuseMargin.wf (m : FuseMargin) : Bool := m.low &&& ~~~ m.mask == 0

/-- A message carries up to 256 bytes (R535). -/
def DvMessage.wf (m : DvMessage) : Bool := decide (m.data.length ≤ 256)

/-- A picture's cropped form lies in the decoder's limits, and no picture is listed twice as output (R236). -/
def PicEnd.wf (pe : PicEnd) : Bool := decide (0 < pe.width) && decide (0 < pe.height) && decide pe.outputs.Nodup

/-- The sequence number of an operation is 32 bits wide (R102). -/
def seqWf (seq : Nat) : Bool := decide (seq < 2 ^ 32)

/-- Can the outside world give this command? -/
def Instr.wf : Instr → Bool
  | .registerWrite w => w.wf
  | .rcFieldRead _ r size => r.wf size
  | .pairLoRead _ off => regOffWf off
  | .pairLoWrite _ off _ => regOffWf off
  | .pairHiWrite _ off _ => regOffWf off
  | .frozenBarAccess _ acc => lengthWf acc.len
  | .unclaimedMemoryRequest _ _ _ => true
  | .poisonedWriteReceived _ _ => true
  | .ptmIntervalExpiry => true
  | .ptmExchangeDone _ => true
  | .ptmDisable => true
  | .paceWindowEnd => true
  | .avsWriteAck => true
  | .avsWriteTimeout => true
  | .avsPoll _ => true
  | .layoutCheck _ => true
  | .layoutLoad _ => true
  | .setDefault _ => true
  | .loadDefault _ => true
  | .layoutCommandDone => true
  | .layoutApplication _ => true
  | .zeroFillDone _ => true
  | .pfFlr _ => true
  | .vfFlr _ _ => true
  | .flrDrainDone _ _ => true
  | .pfD3hotEntry _ => true
  | .pfD3hotExit _ => true
  | .vfEnableWrite _ _ num => num.all (fun n => decide (n < 2 ^ 16))
  | .busMasterEnableWrite _ _ => true
  | .msixMessageRelease _ => true
  | .vfResourceWrite _ _ _ _ => true
  | .flushHeldDiscard _ _ => true
  | .fetchCompletionTimeout _ => true
  | .hostReadCompletion _ _ data => lengthWf data.length
  | .doorbell _ _ _ => true
  | .commandFetchDone _ _ => true
  | .waitSatisfied _ _ => true
  | .frontNop _ _ => true
  | .frontBarrier _ _ => true
  | .frontStamp _ _ => true
  | .operationRetire _ _ seq _ => seqWf seq
  | .semaphoreHostWrite _ _ _ => true
  | .waitTimeout _ _ => true
  | .ringEnable _ _ _ => true
  | .ringDisable _ _ _ => true
  | .ringDrainDone _ _ => true
  | .completionHeadWrite _ _ _ => true
  | .contextEntryWrite _ _ => true
  | .translationInvalidate _ _ => true
  | .invalidationDone _ => true
  | .sparseFirstWrite _ _ seq _ _ _ => seqWf seq
  | .regionOwnerWrite _ _ => true
  | .apertureMapWrite _ _ _ _ => true
  | .apertureAccess fn addr len wdata _ => transferWf len wdata && apertureWf fn addr len
  | .remoteRequestReceived _ q => transferWf q.len q.wdata
  | .moveCopy _ _ seq => seqWf seq
  | .moveFill _ _ seq => seqWf seq
  | .moveUnback _ _ seq => seqWf seq
  | .poolEnable _ _ _ => true
  | .poolDisable _ _ _ => true
  | .poolCheckDone _ => true
  | .poolHostTake _ _ => true
  | .poolHostFree _ _ => true
  | .poolAudit _ _ => true
  | .auditScanDone _ => true
  | .refresh _ _ => true
  | .moduleTempSample _ _ => true
  | .delayApply _ _ => true
  | .delayLoad _ _ => true
  | .driftWindowEnd => true
  | .idleSelfRefresh _ => true
  | .rankRetire _ => true
  | .migrationStart => true
  | .migrationChunkDone _ _ _ => true
  | .search _ _ seq => seqWf seq
  | .colanderSearchStart _ => true
  | .decodeOpen _ _ seq => seqWf seq
  | .decodeFeed _ _ feed => seqWf feed.seq
  | .feedBytesQueued _ _ seq => seqWf seq
  | .decodeDrain _ _ seq _ => seqWf seq
  | .decodeClose _ _ seq => seqWf seq
  | .keyCommit _ _ => true
  | .keyClear _ _ => true
  | .pictureDecodeStart _ _ _ _ => true
  | .sequenceHeader _ _ _ => true
  | .partitionReconstructed _ _ _ _ => true
  | .damageDetected _ _ _ => true
  | .pictureComplete _ _ pe => pe.wf
  | .frameStart _ _ num _ => decide (num < 2 ^ 16)
  | .frameEnd _ _ _ => true
  | .longPacket _ _ pk _ => pk.wf
  | .lineMarker _ _ _ => true
  | .frameWritesComplete _ _ => true
  | .rasterCommitWrite _ _ _ => true
  | .moveCommit _ _ seq => seqWf seq
  | .rasterVcEnable _ _ _ => true
  | .rasterPacketTimeout _ _ => true
  | .rasterLinkChange _ _ _ _ => true
  | .prepare _ _ seq _ => seqWf seq
  | .prepareProgressRelease _ _ seq _ => seqWf seq
  | .backlogRefresh _ => true
  | .griddleRun _ _ seq => seqWf seq
  | .stageRows _ _ seq => seqWf seq
  | .stageWeights _ _ seq => seqWf seq
  | .stageConv _ _ seq => seqWf seq
  | .griddlePassEnd _ _ => true
  | .whiskMap _ _ seq => seqWf seq
  | .whiskReduce _ _ seq => seqWf seq
  | .whiskNorm _ _ seq => seqWf seq
  | .dwconv _ _ seq => seqWf seq
  | .trackStep _ _ seq => seqWf seq
  | .trackBatch _ _ seq => seqWf seq
  | .trackUpdate _ _ seq => seqWf seq
  | .trackSwap _ _ seq => seqWf seq
  | .trackWithdraw _ _ seq => seqWf seq
  | .accClearAll _ _ => true
  | .accClearSlot _ _ => true
  | .accSlotCfgWrite _ _ _ => true
  | .emitMotion _ _ seq => seqWf seq
  | .emit _ _ seq => seqWf seq
  | .heartbeat _ _ => true
  | .recordRingEnable _ _ _ => true
  | .recordRingDisable _ _ _ => true
  | .recordHeadWrite _ _ _ => true
  | .unitStepFailure _ => true
  | .watchdogExpiry _ => true
  | .equalUnitRetryStart _ _ _ _ => true
  | .unitReinstate _ _ => true
  | .colanderReinstate _ => true
  | .selfTestDone _ _ => true
  | .faultLogHeadWrite _ => true
  | .faultLogClear _ => true
  | .freezePin _ => true
  | .freezeRegister _ => true
  | .freezeLinkPulse _ => true
  | .freezeMatchTime => true
  | .freezeSettled => true
  | .thaw _ => true
  | .thawComplete _ => true
  | .readoutStart _ => true
  | .readoutDone _ => true
  | .readoutUnlockRequest _ => true
  | .jtagFreeze => true
  | .jtagThaw => true
  | .jtagRoAccess _ => true
  | .jtagExtest dr len => scanWf dr len
  | .jtagSamplePreload dr len => scanWf dr len
  | .jtagIdcode => true
  | .jtagBypass dr len => scanWf dr len
  | .tapReset => true
  | .unitStartRequest _ => true
  | .unitStop _ => true
  | .startAcknowledged => true
  | .ballastDecayTick _ => true
  | .slopeExceeded => true
  | .backfeedBlocked => true
  | .uvWarn _ => true
  | .auxPowerLost _ => true
  | .senseChanged => true
  | .slotPowerLost => true
  | .supplyLimiterTrip _ => true
  | .outwardSupplyEnableWrite _ => true
  | .slot12vRise => true
  | .auxCableConnect _ => true
  | .auxQualifyExpiry => true
  | .hubSensorSample ts => decide (ts.length = 10)
  | .warmingTick _ => true
  | .airflowUpdate => true
  | .warmRecheck ms => ms.all FuseMargin.wf
  | .keepStore _ => true
  | .storeCommit _ => true
  | .restage _ => true
  | .clearRetire _ => true
  | .abandon _ => true
  | .internalStore => true
  | .ksStagingAccess _ => true
  | .buttonPress _ => true
  | .presenceTimeout => true
  | .jumperFitted _ => true
  | .fuseProgram _ => true
  | .fuseProgramDone _ => true
  | .powerGood => true
  | .regulatorRetry => true
  | .fuseRead => true
  | .keepLoad ms => ms.all FuseMargin.wf
  | .memDelays rs => decide (rs.length = 8)
  | .memReady => true
  | .layoutDefault => true
  | .hampersReady => true
  | .conventionalReset => true
  | .hotReset => true
  | .dravazCableDetect _ _ => true
  | .linkTrained _ _ _ => true
  | .linkRetrain _ => true
  | .portRetrain _ _ => true
  | .linkDownTimeout _ => true
  | .dravazPacketReceived _ _ => true
  | .remoteWriteAck _ _ => true
  | .remoteTimeout _ => true
  | .send _ _ seq => seqWf seq
  | .messageReceived _ m => m.wf
  | .msgRingEnable _ _ => true
  | .msgHeadWrite _ _ => true
  | .windowCtlWrite _ _ _ => true
  | .timeExchange _ => true
  | .smbusReadByte _ => true
  | .smbusReadWord _ => true
  | .smbusWriteByte _ _ _ => true
  | .smbusBlockRead _ => true
  | .smbusTimeout => true
  | .clearPeak _ _ => true
  | .boardHubPoll => true
  | .boardSensorPoll _ => true
  | .identifyTick => true
  | .aux3v3Lost => true
  | .daughterboardRemoved => true
  | .daughterboardFitted => true
  | .aux3v3Good => true
  | .sealBreak => true
  | .smbusUnsupportedTransaction _ => true
  | .pcieLinkError _ => true
  | .tlpErrorReceived _ _ _ => true
  | .loaderBadCommand _ => true
  | .ksBadCommand _ => true

end Sys2Proof
end

