-- ==== Sys2Proof/Tests/Slice0.lean ====
section
/-! SUPPORT. The author's own tests: a small state and operands for the hypotheses of every statement, clause by clause, and an
ill-formed command for each check of well-formedness. -/

namespace Sys2Proof.Tests

set_option maxRecDepth 10000
set_option Elab.async false
set_option linter.unusedVariables false

open Sys2Proof Sys2Proof.Machine

/-- A card in service: powered, every stage of bring-up behind it, and hamper 0 with one VF exposed, READY and claiming
requests. -/
def upCard : Card :=
  { on := true, regs := [(0x30, 7), (0x100000, 0x80000000), (0x1000000, 0x80000000)],
    cfg := [(0, { mse := true, bme := true }), (1, { mse := true, bme := true, vfEn := true, vfMse := true, numVfs := 1 })],
    fns := [(1, { phase := .ready, exposed := true })] }

/-- A layout of hamper 0: one group and one region. -/
def aLayout : Layout :=
  { imageId := 1, hamper := 0, channels := 1, raster := 0xFF, spare := 0, ways := 0, mode := 0, pool := 96, staging := 64, track := 32,
    ringClass := 1, groups := [⟨5, 0, 1, 1, 0⟩], regions := [⟨1, 0, 1, 0, 16⟩], fromDefault := false }

/-- The card with channel 0's module in service and every unit in place. -/
def modCard : Card := { upCard with regs := [(0x10, 0xFFFFFFFF), (0x20, 1)] ++ upCard.regs.take 1 ++ [(0x8100, 1)] ++ upCard.regs.drop 1 }

/-- That card with the layout's image in the loader's window (R56 to R59), which a CHECK command is reading. -/
def imageCard : Card :=
  { modCard with
    loader := some ⟨1, 0⟩
    regs := [(0x10, 0xFFFFFFFF), (0x20, 1), (0x30, 7), (0x6800, 0x594C564B), (0x6804, 0x00A00001), (0x6808, 0x01000141), (0x680C, 1),
      (0x6810, 1), (0x683C, 2657848689), (0x6840, 0x0000FF01), (0x6848, 0x00400060), (0x684C, 32), (0x6850, 1), (0x6880, 0x00010005),
      (0x6884, 1), (0x6890, 0x00010001), (0x6898, 16), (0x8100, 1), (0x100000, 0x80000000), (0x1000000, 0x80000000)] }

/-- A layout of hamper 0 with an ECC region for tables, a plain one and a PICTURE one. -/
def mapLayout : Layout :=
  { aLayout with raster := 0, regions := [⟨1, 1, 1, 0, 1⟩, ⟨2, 0, 1, 1, 2⟩, ⟨3, 2, 1, 3, 2⟩] }

/-- That card with the layout active, pool 0 serving the PICTURE region, and the tables of context 1: a page of the plain
region, one of the PICTURE region, a sparse one, a host one, another sparse one and a second page of the plain region. -/
def mapCard : Card :=
  { modCard with
    regs := [(0x10, 0xFFFFFFFF), (0x20, 1), (0x28, 2), (0x30, 7), (0x8010, 0x101), (0x8100, 1), (0x100000, 0x80000000),
      (0x110008, 0x800F0010), (0x150000, 0x80030010), (0x150008, 4), (0x170000, 0x80000000), (0x1000000, 0x80000000)]
    active := [(0, some mapLayout)]
    ctxs := [(1, some ⟨0, 0x101⟩)]
    owners := [(2, { mask := 0 }), (3, { mask := 0 })]
    mem := [(0, 0x01), (1, 0x01), (2, 0x20), (9344, 0x01), (9345, 0x01), (9346, 0x30), (14016, 0x0B), (14017, 0x02), (14024, 0x0B),
      (14025, 0x03), (14032, 0x1B), (14040, 0x05), (14042, 0x07), (14048, 0x1B),
      (14056, 0x0B), (14057, 0x02), (14058, 0x01)] }

/-- An operation of ring 0 of hamper 0 under context 1. -/
def anOp : Op :=
  { seq := 1, gen := 0, fnNum := 1, ctx := 1, opcode := 0, front := false, group := 0, cls := 5, tag := 0, param := 0, report := false,
    mirror := false, waits := [], signal := none, body := [], phase := .running, accepted := true, started := true }

/-- A stream context that ring 0 opened. -/
def aStream : Stream :=
  { ring := 0, fnNum := 1, ctx := 1, lc := false, codec := 2, mode := 0, depth := 8, maxW := 64, maxH := 64, fps := 30, slots := 3,
    guard := 0, gang := 1, dpb := 0x20000, slotBytes := 0x10000, stateVa := 0x10000, state64 := 16, outSem := 0, desc := 0, relSem := 0,
    header := true, width := 64, height := 64 }

/-- A picture's end as the decoder reports it. -/
def aPicEnd : PicEnd := ⟨0, 64, 64, 0, 0, 8, false, none, none, [], some 0, [], []⟩

/-- The card with an operation on its unit. -/
def opCard (o : Op) : Card := mapCard.setRing 0 0 { q := [o] }

/-- The operation with a body, which the zeros of a full body follow. -/
def bodyOp (cls opc : Nat) (b : List Byte) : Op := { anOp with cls := cls, opcode := opc, body := b ++ List.replicate (96 - b.length) 0 }

/-- The card after a read, and the card and the operation after a write, of hamper 0 and ring 0 under context 1. -/
def readOf (va n : Nat) (c : Card) : Card := c.readDone 0 1 va n
def writeOf (va : Nat) (bs : List Byte) (a : Card × Op) : Card × Op :=
  ((a.1.vwrite 0 a.2.ctx 0 none va bs).card.cacheXlate 0 a.2.ctx va bs.length, { a.2 with undo := (a.1.vwrite 0 a.2.ctx 0 none va bs).undo ++ a.2.undo })

theorem reads_one {h : Nat} {o : Op} {x : Nat × Nat} {l : List (Nat × Nat)} {c d : Card} {b : List Byte} {bs : List (List Byte)}
    (e : l = [x]) (e' : bs = [b]) (hv : c.heldVa h o.ctx false x.1 x.2 = false ∧ c.vread h o.ctx o.host x.1 x.2 = .ok b ∧ c.rangeEpochs h o.ctx x.1 x.2 = [])
    (hd : d = c.readDone h o.ctx x.1 x.2) : ReadsTo h o l c bs d := by
  subst e e' hd; exact ⟨b, [], hv.1, hv.2.1, hv.2.2, rfl, rfl, rfl⟩

theorem reads_cons {h : Nat} {o : Op} {x : Nat × Nat} {l t : List (Nat × Nat)} {c d : Card} {b : List Byte} {bs u : List (List Byte)}
    (e : l = x :: t) (e' : bs = b :: u) (hv : c.heldVa h o.ctx false x.1 x.2 = false ∧ c.vread h o.ctx o.host x.1 x.2 = .ok b ∧ c.rangeEpochs h o.ctx x.1 x.2 = [])
    (hd : ReadsTo h o t (c.readDone h o.ctx x.1 x.2) u d) : ReadsTo h o l c bs d := by
  subst e e'; exact ⟨b, u, hv.1, hv.2.1, hv.2.2, rfl, hd⟩

theorem ok_of_leaf {ε α : Type} {x : Except ε α} {l : α} (e : x.toOption = some l) : x = .ok l := by
  cases x with
  | error f => cases e
  | ok a => exact congrArg Except.ok (Option.some.inj e)

theorem error_of {ε α : Type} {x : Except ε α} {f : ε} (e : (match x with | .error g => some g | .ok _ => none) = some f) : x = .error f := by
  cases x with
  | ok a => cases e
  | error g => exact congrArg Except.error (Option.some.inj e)

theorem writes_one {h r : Nat} {x : Nat × List Byte} {l : List (Nat × List Byte)} {a b : Card × Op} (e : l = [x])
    (w : WriteTo h r x.1 x.2 a b) : WritesTo h r l a b := by
  subst e; exact ⟨b, w, rfl⟩

theorem copies_one {h r src dst : Nat} {x : Nat × Nat} {l : List (Nat × Nat)} {a b : Card × Op} {bs : List Byte} {d : Card} (e : l = [x])
    (hs : a.1.copyStays h a.2.ctx (src + x.1) (dst + x.1) x.2) (hr : ReadsTo h a.2 [(src + x.1, x.2)] a.1 [bs] d) (w : WriteTo h r (dst + x.1) bs (d, a.2) b) : CopiesTo h r src dst l a b := by
  subst e; exact ⟨hs, b, bs, d, hr, w, rfl⟩

theorem source_reads {h : Nat} {o : Op} {f : Bool} {l : List (Nat × Nat)} {c d : Card} {bs : List (List Byte)} (hf : f = false)
    (r : ReadsTo h o l c bs d) : SourceTo h o f l c bs d := by
  subst hf; exact r

/-- The card with the KV fields of hamper 0's track scheduler set (R369). -/
def trackCard (o : Op) : Card := (((opCard o).setN 0x1B0008 0x100).setN 0x1B0010 1).setN 0x1B0014 (64 * 65536 + 8)

/-- Reads that leave the card as it is: the pages are cached. -/
theorem reads_steady {h : Nat} {o : Op} {l : List (Nat × Nat)} {c : Card} {bs : List (List Byte)} (hl : l.length = bs.length)
    (e : (l.zip bs).all (fun x => !c.heldVa h o.ctx false x.1.1 x.1.2 && decide (c.vread h o.ctx o.host x.1.1 x.1.2 = .ok x.2) &&
      (c.rangeEpochs h o.ctx x.1.1 x.1.2).isEmpty) = true)
    (t : l.all (fun x => decide (c.readDone h o.ctx x.1 x.2 = c)) = true) : ReadsTo h o l c bs c := by
  induction l generalizing bs with
  | nil => cases bs with
    | nil => exact ⟨rfl, rfl⟩
    | cons b bs => simp at hl
  | cons x u ih =>
    cases bs with
    | nil => simp at hl
    | cons b bs =>
      simp only [List.zip_cons_cons, List.all_cons, Bool.and_eq_true, decide_eq_true_eq, List.isEmpty_iff, Bool.not_eq_true'] at e t
      refine ⟨b, bs, e.1.1.1, e.1.1.2, e.1.2, rfl, ?_⟩
      rw [t.1]
      exact ih (by simpa using hl) (by simpa using e.2) (by simpa using t.2)

/-! ### The hypotheses of the completion statements are met -/

theorem test_hyps_registerWrite_1 :
    ∃ (c : Card) (fn : Fn) (off k : Nat) (v : Word), c.reaches fn off = true ∧ off % 4 = 0 ∧ c.pageBlocked fn off = false ∧
        c.regAt fn off = some k ∧ keyIsLo k = false ∧ keyIsHi k = false :=
  ⟨upCard, (.pf 0), 0x40000, (upCard.regAt (.pf 0) 0x40000).getD 0, 0, by decide +kernel⟩

theorem test_hyps_registerWrite_2 :
    ∃ (c : Card) (h : Fin 4) (v : Nat), c.fnThere (.pf h) = true :=
  ⟨upCard, 0, 0, by decide +kernel⟩

theorem test_hyps_rcFieldRead :
    ∃ (c : Card) (fn : Fn) (off k : Nat), c.readable fn off = true ∧ off % 4 = 0 ∧ c.target fn off = some k ∧ keyIsLo k = false :=
  ⟨upCard, .pf0, 0x2000, (upCard.target .pf0 0x2000).getD 0, by decide +kernel⟩

theorem test_hyps_pairLoRead :
    ∃ (c : Card) (fn : Fn) (off k : Nat), c.readable fn off = true ∧ off % 4 = 0 ∧ c.target fn off = some k ∧ keyIsLo k = true :=
  ⟨upCard, (.pf 0), 0xB0008, (upCard.target (.pf 0) 0xB0008).getD 0, by decide +kernel⟩

theorem test_hyps_pairLoWrite :
    ∃ (c : Card) (fn : Fn) (off k : Nat) (v : Word), c.reaches fn off = true ∧ c.pageBlocked fn off = false ∧ c.target fn off =
        some k ∧ keyIsLo k = true :=
  ⟨upCard, (.pf 0), 0x40008, (upCard.target (.pf 0) 0x40008).getD 0, 0, by decide +kernel⟩

theorem test_hyps_pairHiWrite :
    ∃ (c : Card) (fn : Fn) (off k : Nat) (v : Word), c.reaches fn off = true ∧ c.pageBlocked fn off = false ∧ c.regAt fn off =
        some k ∧ keyIsHi k = true ∧ hiIsOwn k = false :=
  ⟨upCard, (.pf 0), 0xB000C, (upCard.regAt (.pf 0) 0xB000C).getD 0, 0, by decide +kernel⟩

theorem test_hyps_frozenBarAccess_1 :
    ∃ (c : Card) (h : Fin 4) (acc : BarAccess), c.frozen = true ∧ acc.fn.hamper = some h.val ∧ c.claims acc.fn = true ∧
        acc.write = true :=
  ⟨upCard.setBit (mg 0x5004) 31 true, 0, ⟨.pf 0, true, 4⟩, by decide +kernel⟩

theorem test_hyps_frozenBarAccess_2 :
    ∃ (c : Card) (h : Fin 4) (acc : BarAccess), c.frozen = true ∧ acc.fn.hamper = some h.val ∧ c.claims acc.fn = true ∧
        acc.write = false :=
  ⟨upCard.setBit (mg 0x5004) 31 true, 0, ⟨.pf 0, false, 4⟩, by decide +kernel⟩

theorem test_hyps_unclaimedMemoryRequest_1 :
    ∃ (c : Card) (fn : Fn) (hdr : Nat), c.on = true ∧ c.claims fn = false :=
  ⟨upCard.setCfg 1 {}, (.pf 0), 0, by decide +kernel⟩

theorem test_hyps_unclaimedMemoryRequest_2 :
    ∃ (c : Card) (fn : Fn) (hdr : Nat), c.on = true ∧ c.claims fn = false :=
  ⟨upCard.setCfg 1 {}, (.pf 0), 0, by decide +kernel⟩

theorem test_hyps_poisonedWriteReceived :
    ∃ (c : Card) (fn : Fn) (hdr : Nat), c.on = true :=
  ⟨upCard, (.pf 0), 0, by decide +kernel⟩

theorem test_hyps_pcieLinkError :
    ∃ (c : Card) (p : LinkError × AerErr), p ∈ [(LinkError.receiver, AerErr.receiver), (.badTlp, .badTlp), (.badDllp, .badDllp),
        (.replayTimeout, .replayTimeout), (.replayRollover, .replayRollover), (.dataLinkProtocol, .dataLink),
        (.receiverOverflow, .receiverOverflow)] ∧ c.on = true :=
  ⟨upCard, (.badTlp, .badTlp), by decide +kernel⟩

theorem test_hyps_tlpErrorReceived :
    ∃ (c : Card) (fn : Fn) (p : TlpError × AerErr) (hdr : Nat), p ∈ [(TlpError.malformed, AerErr.malformed), (.ecrc, .ecrc),
        (.unexpectedCompletion, .unexpectedCompletion)] ∧ c.on = true :=
  ⟨upCard, (.pf 0), (.ecrc, .ecrc), 0, by decide +kernel⟩

theorem test_hyps_busMasterEnableWrite_1 :
    ∃ (c : Card) (fn : Fn), c.on = true :=
  ⟨upCard, (.pf 0), by decide +kernel⟩

theorem test_hyps_busMasterEnableWrite_2 :
    ∃ (c : Card) (fn : Fn), c.on = true ∧ ((c.setCfg fn.num { c.cfgOf fn.num with bme := true }).msixRelease fn.num).live =
        false :=
  ⟨upCard.setBit (mg 0x5004) 31 true, (.pf 0), by decide +kernel⟩

theorem test_hyps_busMasterEnableWrite_3 :
    ∃ (c : Card) (fn : Fn), c.on = true ∧ ((c.setCfg fn.num { c.cfgOf fn.num with bme := true }).msixRelease fn.num).live = true :=
  ⟨upCard, (.pf 0), by decide +kernel⟩

theorem test_hyps_msixMessageRelease :
    ∃ (c : Card) (fn : Fn), c.on = true :=
  ⟨upCard, (.pf 0), by decide +kernel⟩

theorem test_hyps_vfEnableWrite_1 :
    ∃ (c : Card) (h : Fin 4) (n : Nat), c.on = true ∧ (c.fnOf (h.val + 1)).exposed = true ∧ (c.cfgOf (h.val + 1)).vfEn = false ∧
        n ≤ 8 :=
  ⟨upCard.setCfg 1 { mse := true }, 0, 8, by decide +kernel⟩

theorem test_hyps_vfEnableWrite_2 :
    ∃ (c : Card) (h : Fin 4) (n : Nat), c.on = true ∧ (c.fnOf (h.val + 1)).exposed = true ∧ (c.cfgOf (h.val + 1)).vfEn = false ∧
        (c.cfgOf 1).ari = true ∧ n ≤ 8 :=
  ⟨upCard.setCfg 1 { mse := true, ari := true }, 0, 8, by decide +kernel⟩

theorem test_hyps_vfResourceWrite_1 :
    ∃ (c : Card) (h : Fin 4) (v : Fin 8) (x : Word), c.reaches (.pf h) (0x100 + 4 * v.val) = true ∧ c.vfExists h.val v.val =
        false ∧ c.vfResourceOk h.val v.val .rings x = true :=
  ⟨upCard.setCfg 1 { mse := true }, 0, 0, 0, by decide +kernel⟩

theorem test_hyps_vfResourceWrite_2 :
    ∃ (c : Card) (h : Fin 4) (v : Fin 8) (x : Word), c.reaches (.pf h) (0x120 + 4 * v.val) = true ∧ c.vfExists h.val v.val =
        false ∧ c.vfResourceOk h.val v.val .sems x = true :=
  ⟨upCard.setCfg 1 { mse := true }, 0, 0, 0, by decide +kernel⟩

theorem test_hyps_vfResourceWrite_3 :
    ∃ (c : Card) (h : Fin 4) (v : Fin 8) (x : Word), c.reaches (.pf h) (0x140 + 4 * v.val) = true ∧ c.vfExists h.val v.val =
        false ∧ c.vfResourceOk h.val v.val .ctx x = true :=
  ⟨upCard.setCfg 1 { mse := true }, 0, 0, 0, by decide +kernel⟩

theorem test_hyps_pfFlr :
    ∃ (c : Card) (h : Fin 4), c.live = true ∧ (c.fnOf (h.val + 1)).phase = .ready :=
  ⟨upCard, 0, by decide +kernel⟩

theorem test_hyps_vfFlr :
    ∃ (c : Card) (h : Fin 4) (v : Fin 8), c.live = true ∧ c.vfExists h.val v.val = true ∧ (c.fnOf (h.val + 1)).phase = .ready ∧
        (c.fnOf (vfNum h.val v.val)).phase = .ready :=
  ⟨upCard.setFn (vfNum 0 0) { phase := .ready }, 0, 0, by decide +kernel⟩

theorem test_hyps_flrDrainDone :
    ∃ (c : Card) (h : Fin 4), c.live = true ∧ (c.fnOf (h.val + 1)).phase = .draining ∧ (c.fnOf (h.val + 1)).d3 = false :=
  ⟨upCard.setFn 1 { phase := .draining }, 0, by decide +kernel⟩

theorem test_hyps_pfD3hotEntry :
    ∃ (c : Card) (h : Fin 4), c.live = true ∧ (c.fnOf (h.val + 1)).phase = .ready ∧ (c.cfgOf (h.val + 1)).d3 = false :=
  ⟨upCard, 0, by decide +kernel⟩

theorem test_hyps_pfD3hotExit :
    ∃ (c : Card) (h : Fin 4), (c.cfgOf (h.val + 1)).d3 = true ∧ (c.fnOf (h.val + 1)).phase = .held :=
  ⟨(upCard.setCfg 1 { d3 := true }).setFn 1 { phase := .held }, 0, by decide +kernel⟩

theorem test_hyps_ptmIntervalExpiry :
    ∃ (c : Card), c.on = true ∧ (c.cfgOf 0).ptmEn = true ∧ c.timeUp = 0 ∧ c.clk.open_ = false :=
  ⟨upCard.setCfg 0 { ptmEn := true }, by decide +kernel⟩

theorem test_hyps_ptmExchangeDone :
    ∃ (c : Card) (offset : Int), c.on = true ∧ (c.cfgOf 0).ptmEn = true ∧ c.clk.open_ = true :=
  ⟨({ upCard.setCfg 0 { ptmEn := true } with clk := { upCard.clk with open_ := true } } : Card), 0, by decide +kernel⟩

theorem test_hyps_ptmDisable :
    ∃ (c : Card), c.on = true :=
  ⟨upCard, by decide +kernel⟩

theorem test_hyps_timeExchange_1 :
    ∃ (c : Card), c.on = true ∧ c.timeUp ≠ 0 ∧ c.portUp (c.timeUp - 1) = false :=
  ⟨upCard.setF (mg 0xA000) 5 4 1, by decide +kernel⟩

theorem test_hyps_timeExchange_2 :
    ∃ (c : Card), c.on = true ∧ c.timeUp ≠ 0 ∧ c.portUp (c.timeUp - 1) = true :=
  ⟨(upCard.setF (mg 0xA000) 5 4 1).setF (mg 0xA104) 2 0 2, by decide +kernel⟩

theorem test_hyps_timeExchange_3 :
    ∃ (c : Card) (t : TimeStamp) (p : Nat), c.on = true ∧ c.timeUp = p + 1 ∧ c.portUp p = true ∧ t.hops < 7 :=
  ⟨(upCard.setF (mg 0xA000) 5 4 1).setF (mg 0xA104) 2 0 2, ⟨1, 5⟩, 0, by decide +kernel⟩

theorem test_hyps_paceWindowEnd :
    ∃ (c : Card), c.on = true ∧ 7 ≤ c.stage :=
  ⟨upCard, by decide +kernel⟩

theorem test_hyps_avsWriteAck :
    ∃ (c : Card) (mv : Nat), c.avs.pending = some mv :=
  ⟨({ upCard with avs := { upCard.avs with pending := some 800 } } : Card), 800, by decide +kernel⟩

theorem test_hyps_avsWriteTimeout :
    ∃ (c : Card) (mv : Nat), c.avs.pending = some mv ∧ c.avs.up = true :=
  ⟨({ upCard with avs := { upCard.avs with pending := some 800, up := true } } : Card), 800, by decide +kernel⟩

theorem test_hyps_avsPoll_1 :
    ∃ (c : Card) (p : AvsPoll), c.on = true ∧ c.coreOff = false ∧ p.fault = false ∧ p.temp < 125 :=
  ⟨upCard, ⟨false, 80, 40⟩, by decide +kernel⟩

theorem test_hyps_avsPoll_2 :
    ∃ (c : Card) (p : AvsPoll), c.on = true ∧ c.coreOff = false ∧ p.fault = true ∧ p.temp < 125 :=
  ⟨upCard, ⟨true, 80, 40⟩, by decide +kernel⟩

theorem test_hyps_layoutCheck :
    ∃ (c : Card) (h : Fin 4), c.reaches .pf0 0x6000 = true ∧ c.loader = none ∧ c.frozen = false :=
  ⟨upCard, 0, by decide +kernel⟩

theorem test_hyps_layoutLoad :
    ∃ (c : Card) (h : Fin 4), c.reaches .pf0 0x6000 = true ∧ c.loader = none ∧ c.frozen = false ∧ c.bit (mg (0x0010 + 4 *
        h.val)) 31 = true :=
  ⟨modCard, 0, by decide +kernel⟩

theorem test_hyps_setDefault :
    ∃ (c : Card) (h : Fin 4), c.reaches .pf0 0x6000 = true ∧ c.loader = none ∧ c.frozen = false ∧ c.bit (mg 0x3004) 31 = false :=
  ⟨upCard, 0, by decide +kernel⟩

theorem test_hyps_loadDefault :
    ∃ (c : Card) (h : Fin 4) (img : List Byte), c.reaches .pf0 0x6000 = true ∧ c.loader = none ∧ c.frozen = false ∧ c.bit (mg
        (0x0010 + 4 * h.val)) 31 = true ∧ ksFind c.keepImage 2 h.val = some img :=
  ⟨({ modCard.setF (mg 0x3004) 21 20 1 with keep := { modCard.keep with banks := [(0, { modCard.keep.banks.head? |>.map (fun x => x.2) |>.getD {} with data := ksBuild 1 [⟨2, 0, 2, [1]⟩] })] } } : Card), 0, [1], by decide +kernel⟩

theorem test_hyps_loaderBadCommand :
    ∃ (c : Card) (v : Word), c.reaches .pf0 0x6000 = true ∧ fld v 31 31 = 1 ∧ (¬ (1 ≤ fld v 7 4 ∧ fld v 7 4 ≤ 4)) ∧ c.loader =
        none ∧ c.frozen = false :=
  ⟨upCard, 0x80000000, by decide +kernel⟩

theorem test_hyps_layoutCommandDone_1 :
    ∃ (c : Card) (j : Loader) (l : Layout), c.loader = some j ∧ c.live = true ∧ (c.loaderIdle.noteImage j.hamper
        c.layoutWindow).checkImage j.hamper c.layoutWindow (j.cmd == 4) = .ok l ∧ j.cmd = 1 :=
  by
  refine ⟨imageCard, ⟨1, 0⟩, aLayout, ?w1, ?w2, ?w3, ?w4⟩
  case w3 => exact ok_of_leaf (by decide +kernel)
  all_goals decide +kernel

theorem test_hyps_layoutCommandDone_2 :
    ∃ (c : Card) (j : Loader) (f : Nat × Nat), c.loader = some j ∧ c.live = true ∧ (c.loaderIdle.noteImage j.hamper
        c.layoutWindow).checkImage j.hamper c.layoutWindow (j.cmd == 4) = .error f :=
  by
  refine ⟨{ modCard with loader := some ⟨1, 0⟩ }, ⟨1, 0⟩, (1, 0), ?w1, ?w2, ?w3⟩
  case w3 => exact error_of (by decide +kernel)
  all_goals decide +kernel

theorem test_hyps_layoutApplication :
    ∃ (c : Card) (h : Fin 4) (l : Layout), c.live = true ∧ (c.fnOf (h.val + 1)).phase = .starting ∧ c.loader = none ∧ tabGet
        none c.pendLay h.val = none ∧ c.lay h.val = some l :=
  ⟨({ upCard.setFn 1 { phase := .starting } with active := [(0, some aLayout)] } : Card), 0, aLayout, by decide +kernel⟩

theorem test_hyps_zeroFillDone :
    ∃ (c : Card) (h : Fin 4), c.live = true ∧ (c.fnOf (h.val + 1)).phase = .filling ∧ c.heldAcc.any (fun x => x.fill && x.hamper
        == h.val) = false :=
  ⟨upCard.setFn 1 { phase := .filling }, 0, by decide +kernel⟩

theorem test_hyps_fetchCompletionTimeout :
    ∃ (c : Card) (x : HostRead), c.reads.find? (fun y => y.rid == x.rid) = some x ∧ c.live = true ∧ (c.cfgOf (pfOf
        x.fnNum)).ctoDis = false ∧ x.discard = false ∧ x.dead = false :=
  ⟨({ upCard with reads := [⟨5, 1, 0, 0, none, 64, 64, false, false, []⟩] } : Card), ⟨5, 1, 0, 0, none, 64, 64, false, false, []⟩, by decide +kernel⟩

theorem test_hyps_hostReadCompletion_1 :
    ∃ (c : Card) (rid : Nat) (poisoned : Bool) (data : List Byte), c.on = true ∧ c.live = true ∧ c.reads.any (fun x => x.rid ==
        rid) = true :=
  ⟨({ upCard with reads := [⟨0, 1, 0, 0, none, 64, 64, false, false, []⟩] } : Card), 0, false, [], by decide +kernel⟩

theorem test_hyps_hostReadCompletion_2 :
    ∃ (c : Card) (rid : Nat) (poisoned : Bool) (data : List Byte), c.on = true ∧ c.live = false ∧ c.reads.any (fun x => x.rid ==
        rid) = true :=
  ⟨({ upCard.setBit (mg 0x5004) 31 true with reads := [⟨0, 1, 0, 0, none, 64, 64, false, false, []⟩] } : Card), 0, false, [], by decide +kernel⟩

theorem test_hyps_hostReadCompletion_3 :
    ∃ (c : Card) (rid : Nat) (poisoned : Bool) (data : List Byte), c.on = true ∧ c.reads.any (fun x => x.rid == rid) = false :=
  ⟨upCard, 0, false, [], by decide +kernel⟩

theorem test_hyps_commandFetchDone_1 :
    ∃ (c : Card) (h : Fin 4) (r : Fin 16) (b : List Byte), c.live = true ∧ (c.ring h.val r.val).fetch = .slotData b ∧ leAt b 0 1
        ≠ 3 ∧ (¬ (leAt b 0 1 = 2 ∧ c.ringBme h.val r.val = false)) :=
  ⟨upCard.setRing 0 0 { fetch := .slotData [0] }, 0, 0, [0], by decide +kernel⟩

theorem test_hyps_commandFetchDone_2 :
    ∃ (c : Card) (h : Fin 4) (r : Fin 16) (b : List Byte), c.live = true ∧ (c.ring h.val r.val).fetch = .slotData b ∧ leAt b 0 1
        = 3 ∧ leAt b 0x10 4 ≤ 65536 ∧ c.heldVa h.val (leAt b 4 2 % 4096) false (leAt b 8 8) (16 * leAt b 0x10 4) = false ∧
        ((c.cardNeeds h.val (leAt b 4 2 % 4096) (leAt b 8 8) (leAt b 0x10 4)).isEmpty = true ∨ c.ringBme h.val r.val = true) :=
  ⟨upCard.setRing 0 0 { fetch := .slotData [3] }, 0, 0, [3], by decide +kernel⟩

theorem test_hyps_commandFetchDone_3 :
    ∃ (c : Card) (h : Fin 4) (r : Fin 16) (ctx units addr : Nat) (card : Bool) (got : List HostBytes), c.live = true ∧ (c.ring
        h.val r.val).fetch = .listData ctx units addr card got ∧ (card && c.heldVa h.val ctx false addr (16 * units)) = false :=
  ⟨upCard.setRing 0 0 { fetch := .listData 1 1 0 false [] }, 0, 0, 1, 1, 0, false, [], by decide +kernel⟩

theorem test_hyps_doorbell_1 :
    ∃ (c : Card) (fn : Fn) (r : Fin 16) (v : Word) (h : Nat), c.reaches fn (0x10000 + 0x1000 * r.val) = true ∧ c.ownsRing fn
        r.val = some h ∧ c.ringOn h r.val = true ∧ (c.ring h r.val).draining = false ∧ diff32 v.toNat (c.ring h r.val).cons ≤ 2
        ^ c.f (ringReg h r.val 8) 20 16 ∧ c.heldAcc.any (fun x => x.before fn.num) = false :=
  ⟨mapCard, (.pf 0), 0, 0, 0, by decide +kernel⟩

theorem test_hyps_doorbell_2 :
    ∃ (c : Card) (fn : Fn) (r : Fin 16) (v : Word) (h : Nat), c.reaches fn (0x10000 + 0x1000 * r.val) = true ∧ c.ownsRing fn
        r.val = some h ∧ c.heldAcc.any (fun x => x.before fn.num) = true :=
  ⟨({ mapCard with heldAcc := [⟨1, 0, 1, 0, 4, some [0], 0, none, false, false, none⟩] } : Card), (.pf 0), 0, 0, 0, by decide +kernel⟩

theorem test_hyps_ringEnable :
    ∃ (c : Card) (fn : Fn) (r : Fin 16) (v : Word) (h : Nat), c.reaches fn (0x10008 + 0x1000 * r.val) = true ∧ c.ownsRing fn
        r.val = some h ∧ c.ringOn h r.val = false ∧ (c.writeReg (ringReg h r.val 8) v).ringClass h r.val ≠ 0 ∧ ((c.writeReg
        (ringReg h r.val 8) v).ring h r.val).draining = false :=
  ⟨mapCard.setN 0x110008 0, (.pf 0), 0, 0, 0, by decide +kernel⟩

theorem test_hyps_ringDisable :
    ∃ (c : Card) (fn : Fn) (r : Fin 16) (v : Word) (h : Nat), c.reaches fn (0x10008 + 0x1000 * r.val) = true ∧ c.ownsRing fn
        r.val = some h ∧ c.ringOn h r.val = true :=
  ⟨mapCard, (.pf 0), 0, 0, 0, by decide +kernel⟩

theorem test_hyps_ringDrainDone_1 :
    ∃ (c : Card) (h : Fin 4) (r : Fin 16), c.live = true ∧ (c.ring h.val r.val).draining = true ∧ (c.ring h.val r.val).q = [] ∧
        c.ringOn h.val r.val = false :=
  ⟨(mapCard.setN 0x110008 0).setRing 0 0 { draining := true }, 0, 0, by decide +kernel⟩

theorem test_hyps_ringDrainDone_2 :
    ∃ (c : Card) (h : Fin 4) (r : Fin 16), c.live = true ∧ (c.ring h.val r.val).draining = true ∧ (c.ring h.val r.val).q = [] ∧
        c.ringOn h.val r.val = true :=
  ⟨mapCard.setRing 0 0 { draining := true }, 0, 0, by decide +kernel⟩

theorem test_hyps_completionHeadWrite :
    ∃ (c : Card) (fn : Fn) (r : Fin 16) (v : Word) (h : Nat), c.reaches fn (0x10018 + 0x1000 * r.val) = true ∧ c.ownsRing fn
        r.val = some h ∧ (c.ring h r.val).pos = v.toNat :=
  ⟨upCard, (.pf 0), 0, 0, 0, by decide +kernel⟩

theorem test_hyps_flushHeldDiscard :
    ∃ (c : Card) (h : Fin 4) (mask : Word), c.reaches (.pf h) 0xC = true :=
  ⟨upCard, 0, 0, by decide +kernel⟩

theorem test_hyps_semaphoreHostWrite :
    ∃ (c : Card) (h : Fin 4) (idx : Nat) (v : Word), c.reaches (.pf h) 0x20000 = true ∧ idx < 4096 ∧ c.target (.pf h) (0x20000 +
        8 * idx) = some (hp h.val (0x20000 + 8 * idx)) :=
  ⟨upCard, 0, 0, 0, by decide +kernel⟩

theorem test_hyps_waitSatisfied :
    ∃ (c : Card) (h : Fin 4) (r : Fin 16) (o : Op), (c.ring h.val r.val).q.find? (fun x => x.phase == .waiting) = some o ∧
        c.live = true ∧ c.ringOn h.val r.val = true ∧ (c.ring h.val r.val).stopped = false ∧ o.waitOk = true ∧ o.waits.all (fun
        w => decide (w.val ≤ c.sem w.sem)) = true ∧ c.roomFor h.val r.val = true ∧ o.front = true :=
  ⟨mapCard.setRing 0 0 { q := [{ anOp with phase := .waiting, front := true, waitOk := true, waits := [⟨0, 0, 0⟩] }] }, 0, 0, { anOp with phase := .waiting, front := true, waitOk := true, waits := [⟨0, 0, 0⟩] }, by decide +kernel⟩

theorem test_hyps_waitTimeout :
    ∃ (c : Card) (h : Fin 4) (r : Fin 16) (o : Op) (t : Nat), (c.ring h.val r.val).q.find? (fun x => x.phase == .waiting) = some
        o ∧ o.headAt = some t ∧ c.live = true ∧ (c.reg (ringReg h.val r.val 0xC)).toNat ≠ 0 ∧ o.waits.all (fun w => decide
        (w.val ≤ c.sem w.sem)) = false :=
  ⟨(mapCard.setN 0x11000C 5).setRing 0 0 { q := [{ anOp with phase := .waiting, headAt := some 0, waits := [⟨0, 0, 1⟩] }] }, 0, 0, { anOp with phase := .waiting, headAt := some 0, waits := [⟨0, 0, 1⟩] }, 0, by decide +kernel⟩

theorem test_hyps_frontNop :
    ∃ (c : Card) (h : Fin 4) (r : Fin 16) (o : Op), c.frontOp h.val r.val 0 = some o ∧ c.live = true :=
  ⟨mapCard.setRing 0 0 { q := [{ anOp with front := true }] }, 0, 0, { anOp with front := true }, by decide +kernel⟩

theorem test_hyps_frontBarrier :
    ∃ (c : Card) (h : Fin 4) (r : Fin 16) (o : Op), c.frontOp h.val r.val 1 = some o ∧ c.live = true ∧ ((c.ring h.val
        r.val).q.takeWhile (fun x => !(x.seq == o.seq && x.gen == o.gen))).all (fun x => x.phase == .retired) = true :=
  ⟨mapCard.setRing 0 0 { q := [{ anOp with phase := .retired, seq := 0 }, { anOp with front := true, opcode := 1 }] }, 0, 0, { anOp with front := true, opcode := 1 }, by decide +kernel⟩

theorem test_hyps_frontStamp :
    ∃ (c : Card) (h : Fin 4) (r : Fin 16) (o : Op), c.frontOp h.val r.val 2 = some o ∧ c.live = true :=
  ⟨mapCard.setRing 0 0 { q := [{ anOp with front := true, opcode := 2 }] }, 0, 0, { anOp with front := true, opcode := 2 }, by decide +kernel⟩

theorem test_hyps_operationRetire :
    ∃ (c : Card) (h : Fin 4) (r : Fin 16) (seq : Nat) (o : Op), c.opOf h.val r.val seq = some o ∧ c.live = true ∧ o.phase = .ran
        ∧ o.held = false ∧ o.retryOn = none ∧ o.records = [] ∧ o.await = [] ∧ o.cls ≠ 4 ∧ c.remotes.any (fun y => y.hamper ==
        h.val && y.ring == r.val && y.seq == seq && y.gen == o.gen) = false :=
  ⟨mapCard.setRing 0 0 { q := [{ anOp with phase := .ran }] }, 0, 0, 1, { anOp with phase := .ran }, by decide +kernel⟩

def ceC : Card := { mapCard.setN 0x140000 1 with holds := [(0x140008, 0x101)] }
theorem test_hyps_contextEntryWrite_1 :
    ∃ (c : Card) (h : Fin 4) (v : Word) (e x : Nat) (d : Card), c.reaches (.pf h) 0x4000C = true ∧ d = c.dropHold (hp h.val
        0x40008) ∧ e = (c.loFor (hp h.val 0x40008)).toNat + 2 ^ 32 * v.toNat ∧ x = d.f (hp h.val 0x40000) 11 0 ∧ tableForm e =
        true ∧ e % 2 = 1 ∧ (d.tablePtr h.val e 8192).isSome = true ∧ (tabGet none d.ctxs x).all (fun y => y.hamper == h.val) =
        true :=
  ⟨ceC, 0, 0, 0x101, 1, ceC.dropHold 0x140008, by decide +kernel⟩

def cfC : Card := { mapCard.setN 0x140000 1 with holds := [(0x140008, 0)] }
theorem test_hyps_contextEntryWrite_2 :
    ∃ (c : Card) (h : Fin 4) (v : Word) (e x : Nat) (d : Card), c.reaches (.pf h) 0x4000C = true ∧ d = c.dropHold (hp h.val
        0x40008) ∧ e = (c.loFor (hp h.val 0x40008)).toNat + 2 ^ 32 * v.toNat ∧ x = d.f (hp h.val 0x40000) 11 0 ∧ tableForm e =
        true ∧ e % 2 = 0 ∧ (tabGet none d.ctxs x).any (fun y => y.hamper == h.val) = true :=
  ⟨cfC, 0, 0, 0, 1, cfC.dropHold 0x140008, by decide +kernel⟩

theorem test_hyps_translationInvalidate :
    ∃ (c : Card) (h : Fin 4) (v : Word), c.reaches (.pf h) 0x40020 = true ∧ c.bit (hp h.val 0x40020) 29 = false ∧ fld v 31 31 =
        1 :=
  ⟨upCard, 0, 0x80000000, by decide +kernel⟩

theorem test_hyps_invalidationDone :
    ∃ (c : Card) (h : Fin 4), c.bit (hp h.val 0x40020) 29 = true ∧ c.frozen = false :=
  ⟨upCard.setBit 0x140020 29 true, 0, by decide +kernel⟩

theorem test_hyps_regionOwnerWrite :
    ∃ (c : Card) (h : Fin 4) (v : Word) (e : RegionEnt), c.reaches (.pf h) 0x40038 = true ∧ c.regionOf (c.f (hp h.val 0x40030) 7
        0) = some (h.val, e) :=
  ⟨mapCard.setN 0x140030 2, 0, 0, ⟨2, 0, 1, 1, 2⟩, by decide +kernel⟩

theorem test_hyps_apertureMapWrite :
    ∃ (c : Card) (h : Fin 4) (e : Nat) (v : Word), e < 64 ∧ c.reaches (.pf h) (aperReg h.val none e - hp h.val 0 + 4) = true ∧
        fld ((c.loFor (aperReg h.val none e)) &&& 0xC00FFFFF) 31 31 = 0 :=
  ⟨upCard, 0, 0, 0, by decide +kernel⟩

theorem test_hyps_apertureAccess_1 :
    ∃ (c : Card) (h : Fin 4) (addr len m x : Nat) (e : RegionEnt), c.claims (.pf h) = true ∧ c.frozen = false ∧ c.dark (.pf h) =
        false ∧ c.aperHit h.val none addr len false = some (e, x, m) ∧ m = len :=
  ⟨mapCard.setN (aperReg 0 none 0) 0x80000002, 0, 0, 4, ((mapCard.setN (aperReg 0 none 0) 0x80000002).aperHit 0 none 0 4 false).elim 0 (fun x => x.2.2), ((mapCard.setN (aperReg 0 none 0) 0x80000002).aperHit 0 none 0 4 false).elim 0 (fun x => x.2.1), ⟨2, 0, 1, 1, 2⟩, by decide +kernel⟩

theorem test_hyps_apertureAccess_2 :
    ∃ (c : Card) (h : Fin 4) (addr len m x : Nat) (e : RegionEnt) (data : List Byte), c.claims (.pf h) = true ∧ c.frozen = false
        ∧ c.ready (.pf h) = true ∧ c.aperHit h.val none addr len true = some (e, x, m) ∧ m = len :=
  ⟨mapCard.setN (aperReg 0 none 0) 0xC0000002, 0, 0, 4, ((mapCard.setN (aperReg 0 none 0) 0xC0000002).aperHit 0 none 0 4 true).elim 0 (fun x => x.2.2), ((mapCard.setN (aperReg 0 none 0) 0xC0000002).aperHit 0 none 0 4 true).elim 0 (fun x => x.2.1), ⟨2, 0, 1, 1, 2⟩, [], by decide +kernel⟩

def sfC : Card := mapCard.setRing 0 0 { q := [anOp] }
theorem test_hyps_sparseFirstWrite :
    ∃ (c : Card) (h : Fin 4) (r : Fin 16) (seq va i off : Nat) (data : List Byte) (o : Op) (l : Leaf) (q : PoolCfg) (e g :
        RegionEnt), c.opOf h.val r.val seq = some o ∧ c.live = true ∧ o.phase = .running ∧ o.front = false ∧ o.epoch = none ∧
        data ≠ [] ∧ data.length ≤ pageRest va ∧ (c.translate h.val o.ctx va).toOption = some l ∧ l.sparse = true ∧ l.backed =
        false ∧ l.write = true ∧ c.heldVa h.val o.ctx true va data.length = false ∧ c.poolServes h.val l.pool = true ∧ q =
        c.poolCfg h.val l.pool ∧ c.firstFree h.val l.pool q.count 0 = some i ∧ off = q.base + i * q.size ∧ (c.region 0 q.region
        off 65536).toOption = some e ∧ c.anyLost e off 65536 = false ∧ (c.region 0 l.atRegion l.atOff 8).toOption = some g ∧
        c.anyLost g l.atOff 8 = false :=
  ⟨sfC, 0, 0, 1, 0x20000, 0, 0, [1], anOp, ⟨.card 0 0, false, true, true, false, false, 0, 0x1B, 1, 0x3010⟩, sfC.poolCfg 0 0, ⟨3, 2, 1, 3, 2⟩, ⟨1, 1, 1, 0, 1⟩, by decide +kernel⟩

theorem test_hyps_poolEnable :
    ∃ (c : Card) (h : Fin 4) (p : Fin 16) (v : Word), c.reaches (.pf h) (0x50000 + 0x40 * p.val) = true ∧ tabGet none c.poolChk
        h.val = none ∧ c.poolOn h.val p.val = false :=
  ⟨upCard, 0, 0, 0, by decide +kernel⟩

theorem test_hyps_poolDisable :
    ∃ (c : Card) (h : Fin 4) (p : Fin 16) (v : Word), c.reaches (.pf h) (0x50000 + 0x40 * p.val) = true ∧ tabGet none c.poolChk
        h.val = none ∧ c.poolOn h.val p.val = true :=
  ⟨mapCard, 0, 0, 0, by decide +kernel⟩

theorem test_hyps_poolCheckDone_1 :
    ∃ (c : Card) (h : Fin 4) (p : Nat), tabGet none c.poolChk h.val = some ⟨p, true⟩ ∧ c.poolEnableCode h.val p = 0 :=
  ⟨mapCard.setPoolChk 0 (some ⟨0, true⟩), 0, 0, by decide +kernel⟩

theorem test_hyps_poolCheckDone_2 :
    ∃ (c : Card) (h : Fin 4) (p : Nat), tabGet none c.poolChk h.val = some ⟨p, false⟩ ∧ c.poolOut h.val p = 0 :=
  ⟨mapCard.setPoolChk 0 (some ⟨0, false⟩), 0, 0, by decide +kernel⟩

theorem test_hyps_poolCheckDone_3 :
    ∃ (c : Card) (h : Fin 4) (p : Nat), tabGet none c.poolChk h.val = some ⟨p, false⟩ ∧ c.poolOut h.val p ≠ 0 :=
  ⟨({ mapCard.setPoolChk 0 (some ⟨0, false⟩) with bufs := [(0, some ⟨none, 1, 0, 0, false⟩)] } : Card), 0, 0, by decide +kernel⟩

theorem test_hyps_poolHostTake :
    ∃ (c : Card) (h : Fin 4) (v : Word), c.reaches (.pf h) 0x50418 = true ∧ fld v 31 31 = 1 ∧ c.ctxOn h.val (c.f (hp h.val
        0x50410) 11 0) = true ∧ (¬ (c.f (hp h.val 0x50414) 22 0 = 0 ∨ 0x400000 < c.f (hp h.val 0x50414) 22 0)) :=
  ⟨(mapCard.setN 0x150410 1).setN 0x150414 64, 0, 0x80000000, by decide +kernel⟩

theorem test_hyps_poolHostFree :
    ∃ (c : Card) (h : Fin 4) (v : Word) (b : Buf), c.reaches (.pf h) 0x50408 = true ∧ c.poolOn h.val (fld v 27 24) = true ∧ fld
        v 19 0 < (c.poolCfg h.val (fld v 27 24)).count ∧ c.buf h.val (fld v 27 24) (fld v 19 0) = some b ∧ b.held = false :=
  ⟨({ mapCard with bufs := [(0, some ⟨none, 1, 0, 0, false⟩)] } : Card), 0, 0, ⟨none, 1, 0, 0, false⟩, by decide +kernel⟩

theorem test_hyps_poolAudit :
    ∃ (c : Card) (h : Fin 4) (v : Word), c.reaches (.pf h) 0x50430 = true ∧ c.bit (hp h.val 0x50430) 30 = false ∧ fld v 31 31 =
        1 :=
  ⟨upCard, 0, 0x80000000, by decide +kernel⟩

theorem test_hyps_auditScanDone :
    ∃ (c : Card) (h : Fin 4), c.bit (hp h.val 0x50430) 30 = true ∧ c.frozen = false :=
  ⟨upCard.setBit 0x150430 30 true, 0, by decide +kernel⟩

theorem test_hyps_refresh_1 :
    ∃ (c : Card) (ch : Fin 8) (sub : Fin 2), c.live = true ∧ c.f (chPage ch.val) 2 0 = 1 ∧ nbit (tabGet 0 c.dlyPend ch.val)
        sub.val = false :=
  ⟨modCard, 0, 0, by decide +kernel⟩

theorem test_hyps_refresh_2 :
    ∃ (c : Card) (ch : Fin 8) (sub : Fin 2), c.live = true ∧ c.f (chPage ch.val) 2 0 = 1 ∧ nbit (tabGet 0 c.dlyPend ch.val)
        sub.val = true :=
  ⟨({ modCard with dlyPend := [(0, 1)] } : Card), 0, 0, by decide +kernel⟩

theorem test_hyps_delayApply :
    ∃ (c : Card) (ch : Fin 8) (v : Word), c.reaches .pf0 (0x8138 + 0x100 * ch.val) = true ∧ fld v 31 31 = 1 ∧ fld v 30 30 = 0 :=
  ⟨upCard, 0, 0x80000000, by decide +kernel⟩

theorem test_hyps_delayLoad :
    ∃ (c : Card) (ch : Fin 8) (v : Word) (p : List Byte), c.reaches .pf0 (0x8138 + 0x100 * ch.val) = true ∧ fld v 31 31 = 0 ∧
        fld v 30 30 = 1 ∧ (c.writeReg (chPage ch.val + 0x38) v).calNear ch.val ((c.writeReg (chPage ch.val + 0x38) v).f (chPage
        ch.val + 0x38) 29 28) = some p :=
  ⟨({ upCard.setF (mg 0x3004) 21 20 1 with keep := { banks := [(0, { data := ksBuild 1 [⟨1, 0, 2, leBytes 4 1 ++ List.replicate 668 0⟩] })] } } : Card), 0, 0x40000000, leBytes 4 1 ++ List.replicate 668 0, by decide +kernel⟩

theorem test_hyps_driftWindowEnd :
    ∃ (c : Card), c.on = true ∧ 5 ≤ c.stage :=
  ⟨upCard, by decide +kernel⟩

theorem test_hyps_idleSelfRefresh :
    ∃ (c : Card) (ch : Fin 8), c.live = true ∧ c.bit (mg 0x8000) 1 = true ∧ c.f (chPage ch.val) 2 0 = 1 :=
  ⟨modCard.setN 0x8000 2, 0, by decide +kernel⟩

theorem test_hyps_moduleTempSample_1 :
    ∃ (c : Card) (ch : Fin 8), c.on = true ∧ c.coreOff = false :=
  ⟨upCard, 0, by decide +kernel⟩

theorem test_hyps_moduleTempSample_2 :
    ∃ (c : Card) (ch : Fin 8) (t : Int), c.on = true ∧ c.coreOff = false ∧ t < 720 :=
  ⟨upCard, 0, 0, by decide +kernel⟩

theorem test_hyps_rankRetire :
    ∃ (c : Card) (v : Word), c.reaches .pf0 0x8028 = true ∧ fld v 31 31 = 1 ∧ (c.writeReg (mg 0x8028) v).frozen = false ∧
        (c.writeReg (mg 0x8028) v).rankState (fld v 3 0) = 1 :=
  ⟨mapCard, 0x80000000, by decide +kernel⟩

theorem test_hyps_migrationStart_1 :
    ∃ (c : Card) (k chunk t : Nat) (rest : List (Nat × Nat)), c.live = true ∧ c.migr = none ∧ c.migrQ = (k, chunk) :: rest ∧
        (c.setMigrQ rest).pickTarget (hampers.filterMap c.lay) k = some t :=
  ⟨(mapCard.setN 0x8010 0x20101).setMigrQ [(0, 0)], 0, 0, 2, [], by decide +kernel⟩

theorem test_hyps_migrationStart_2 :
    ∃ (c : Card) (m : Migration) (t : Nat), c.live = true ∧ c.migr = some m ∧ 16 ≤ m.target ∧ c.pickTarget (hampers.filterMap
        c.lay) m.source = some t :=
  ⟨(mapCard.setN 0x8010 0x20101).setMigr (some ⟨0, 16, 0, 0, []⟩), ⟨0, 16, 0, 0, []⟩, 2, by decide +kernel⟩

theorem test_hyps_migrationChunkDone_1 :
    ∃ (c : Card) (m : Migration), c.live = true ∧ c.migr = some m ∧ m.target < 16 ∧ m.done + 1 < 65536 :=
  ⟨mapCard.setMigr (some ⟨0, 1, 0, 0, []⟩), ⟨0, 1, 0, 0, []⟩, by decide +kernel⟩

theorem test_hyps_migrationChunkDone_2 :
    ∃ (c : Card) (m : Migration), c.live = true ∧ c.migr = some m ∧ m.target < 16 ∧ m.done = 65535 :=
  ⟨mapCard.setMigr (some ⟨0, 1, 0, 65535, []⟩), ⟨0, 1, 0, 65535, []⟩, by decide +kernel⟩

theorem test_hyps_keyCommit :
    ∃ (c : Card) (h : Fin 4) (v : Word), c.reaches (.pf h) 0x60014 = true ∧ fld v 29 29 = 1 :=
  ⟨upCard, 0, 0x20000000, by decide +kernel⟩

theorem test_hyps_keyClear :
    ∃ (c : Card) (h : Fin 4) (v : Word), c.reaches (.pf h) 0x60014 = true ∧ fld v 30 30 = 1 :=
  ⟨upCard, 0, 0x40000000, by decide +kernel⟩

theorem test_hyps_feedBytesQueued :
    ∃ (c : Card) (h : Fin 4) (r : Fin 16) (seq : Nat) (o : Op) (t : Stream), c.opOf h.val r.val seq = some o ∧ c.live = true ∧
        o.phase = .running ∧ o.held = true ∧ o.cls = 1 ∧ o.opcode = 2 ∧ c.stream h.val (leAt o.body 0xC 1) = some t ∧ (c.enqueue
        h.val (leAt o.body 0xC 1) t { feedMark o.body false with disc := false } o.rest).2 = [] :=
  ⟨(mapCard.setRing 0 0 { q := [{ anOp with cls := 1, opcode := 2, held := true }] }).setStream 0 0 (some aStream), 0, 0, 1, { anOp with cls := 1, opcode := 2, held := true }, aStream, by decide +kernel⟩

def psT : Stream := { aStream with tail := 5, starts := [0] }
theorem test_hyps_pictureDecodeStart_1 :
    ∃ (c : Card) (h : Fin 4) (u : Fin 16) (st : Fin 64) (ps : PicStart) (t t1 : Stream) (k : Nat) (c1 : Card), c.stream h.val
        st.val = some t ∧ c.freeSlot t = some k ∧ c.live = true ∧ c.streamState t = 3 ∧ c.unitEnabled h.val 1 u.val = true ∧
        c.fenced h.val 1 u.val = false ∧ tabGet none c.slices (16 * h.val + u.val) = none ∧ c.retryWaits h.val 1 u.val = false ∧
        c.nextContext h.val st.val t = true ∧ 16 ≤ c.storeFree h.val t.ring ∧ t1 = t.consume ps.bytes ∧ t1.holdsStart = true ∧
        c1 = ((c.setStream h.val st.val (some t1)).countDropped h.val st.val ps.dropped).releaseSlot h.val t1 k :=
  ⟨mapCard.setStream 0 0 (some psT), 0, 0, 0, ⟨[], 0, 0⟩, psT, psT.consume 0, 0, (((mapCard.setStream 0 0 (some psT)).setStream 0 0 (some (psT.consume 0))).countDropped 0 0 0).releaseSlot 0 (psT.consume 0) 0, by decide +kernel⟩

theorem test_hyps_pictureDecodeStart_2 :
    ∃ (c : Card) (h : Fin 4) (u : Fin 16) (st : Fin 64) (ps : PicStart) (t t1 : Stream) (k : Nat) (c1 : Card), c.stream h.val
        st.val = some t ∧ c.freeSlot t = some k ∧ c.live = true ∧ c.streamState t = 3 ∧ c.unitEnabled h.val 1 u.val = true ∧
        c.fenced h.val 1 u.val = false ∧ tabGet none c.slices (16 * h.val + u.val) = none ∧ c.retryWaits h.val 1 u.val = false ∧
        c.nextContext h.val st.val t = true ∧ 16 ≤ c.storeFree h.val t.ring ∧ t1 = t.consume ps.bytes ∧ t1.holdsStart = true ∧
        c1 = ((c.setStream h.val st.val (some t1)).countDropped h.val st.val ps.dropped).releaseSlot h.val t1 k ∧ ps.missing =
        [] ∧ t.mode ≠ 1 :=
  ⟨mapCard.setStream 0 0 (some psT), 0, 0, 0, ⟨[], 0, 0⟩, psT, psT.consume 0, 0, (((mapCard.setStream 0 0 (some psT)).setStream 0 0 (some (psT.consume 0))).countDropped 0 0 0).releaseSlot 0 (psT.consume 0) 0, by decide +kernel⟩

theorem test_hyps_sequenceHeader_1 :
    ∃ (c : Card) (h : Fin 4) (st : Fin 64) (hd : SeqHeader) (t : Stream), c.stream h.val st.val = some t ∧ c.live = true ∧
        t.closing = false ∧ t.pics.any (fun p => p.decoding) = false ∧ headerOk hd t.codec = true ∧ hd.width ≤ t.maxW ∧
        hd.height ≤ t.maxH ∧ hd.codedW ≤ roundUp t.maxW 16 ∧ hd.codedH ≤ roundUp t.maxH 16 ∧ hd.needed ≤ t.slots - 1 ∧
        t.pics.any (fun p => p.waiting) = false :=
  ⟨mapCard.setStream 0 0 (some aStream), 0, 0, ⟨.high, 40, 8, false, false, 0, 0, 64, 64, 64, 64, 2, 0, 0, []⟩, aStream, by decide +kernel⟩

def shH : SeqHeader := ⟨.other, 40, 8, false, false, 0, 0, 64, 64, 64, 64, 2, 0, 0, []⟩
def shC : Card := mapCard.setStream 0 0 (some aStream)
theorem test_hyps_sequenceHeader_2 :
    ∃ (c : Card) (h : Fin 4) (st : Fin 64) (hd : SeqHeader) (t : Stream) (e : Card), c.stream h.val st.val = some t ∧ c.live =
        true ∧ t.closing = false ∧ t.pics.any (fun p => p.decoding) = false ∧ headerOk hd t.codec = false ∧ e = (((((c.setStream
        h.val st.val (some (t.consume hd.bytes))).countDropped h.val st.val hd.skipped).outputAll h.val st.val
        hd.flush)).streamEvent h.val st.val 1 0xFFFFFFFF 0 (leBytes 1 t.codec ++ leBytes 1 hd.profile ++ leBytes 1 hd.level)).1 :=
  ⟨shC, 0, 0, shH, aStream, (((((shC.setStream 0 0 (some (aStream.consume 0))).countDropped 0 0 0).outputAll 0 0 [])).streamEvent 0 0 1 0xFFFFFFFF 0 (leBytes 1 2 ++ leBytes 1 0 ++ leBytes 1 0)).1, by decide +kernel⟩

def paT : Stream := { aStream with pics := [{ slot := 0, decodeNo := 0 }] }
theorem test_hyps_partitionReconstructed_1 :
    ∃ (c : Card) (h : Fin 4) (st : Fin 64) (data : List Samples) (part : PartEnd) (t : Stream) (p : Pic), c.stream h.val st.val
        = some t ∧ t.pics.find? (fun p => p.decoding) = some p ∧ c.live = true ∧ part.parsed = false ∧ (¬ (t.mode = 1 ∧
        (c.putSamples h.val t p.slot data).unsettled h.val p.epoch = true)) :=
  ⟨mapCard.setStream 0 0 (some paT), 0, 0, [], ⟨0, false⟩, paT, { slot := 0, decodeNo := 0 }, by decide +kernel⟩

theorem test_hyps_partitionReconstructed_2 :
    ∃ (c : Card) (h : Fin 4) (st : Fin 64) (data : List Samples) (part : PartEnd) (t : Stream) (p : Pic) (e : Card), c.stream
        h.val st.val = some t ∧ t.pics.find? (fun p => p.decoding) = some p ∧ c.live = true ∧ part.parsed = true ∧ e =
        (c.putSamples h.val t p.slot data).freeSlices h.val st.val ∧ (¬ (t.mode = 1 ∧ e.unsettled h.val p.epoch = true)) :=
  ⟨mapCard.setStream 0 0 (some paT), 0, 0, [], ⟨0, true⟩, paT, { slot := 0, decodeNo := 0 }, ((mapCard.setStream 0 0 (some paT)).putSamples 0 paT 0 []).freeSlices 0 0, by decide +kernel⟩

def pbP : Pic := { slot := 0, decodeNo := 0, epoch := 1 }
def pbT : Stream := { aStream with mode := 1, pics := [pbP] }
def pbC : Card := (mapCard.setStream 0 0 (some pbT)).setEpoch 0 1 { state := 1 }
theorem test_hyps_partitionReconstructed_3 :
    ∃ (c : Card) (h : Fin 4) (st : Fin 64) (data : List Samples) (part : PartEnd) (t : Stream) (p : Pic) (e : Card), c.stream
        h.val st.val = some t ∧ t.pics.find? (fun p => p.decoding) = some p ∧ c.live = true ∧ part.parsed = false ∧ e =
        c.putSamples h.val t p.slot data ∧ t.mode = 1 ∧ e.unsettled h.val p.epoch = true :=
  ⟨pbC, 0, 0, [], ⟨0, false⟩, pbT, pbP, pbC.putSamples 0 pbT 0 [], by decide +kernel⟩

theorem test_hyps_damageDetected_1 :
    ∃ (c : Card) (h : Fin 4) (st : Fin 64) (kind id : Nat) (t : Stream), c.stream h.val st.val = some t ∧ c.live = true ∧ kind ≠
        1 :=
  ⟨mapCard.setStream 0 0 (some aStream), 0, 0, 0, 0, aStream, by decide +kernel⟩

theorem test_hyps_damageDetected_2 :
    ∃ (c : Card) (h : Fin 4) (st : Fin 64) (id : Nat) (t : Stream) (e : Card), c.stream h.val st.val = some t ∧ c.live = true ∧
        e = (c.streamEvent h.val st.val 3 0xFFFFFFFF 0 (leBytes 1 1 ++ leBytes 1 id)).1 :=
  ⟨mapCard.setStream 0 0 (some aStream), 0, 0, 0, aStream, ((mapCard.setStream 0 0 (some aStream)).streamEvent 0 0 3 0xFFFFFFFF 0 (leBytes 1 1 ++ leBytes 1 0)).1, by decide +kernel⟩

def pcT : Stream := { aStream with closing := true, pics := [{ slot := 0, decodeNo := 0 }] }
theorem test_hyps_pictureComplete_1 :
    ∃ (c : Card) (h : Fin 4) (st : Fin 64) (pe : PicEnd) (t : Stream) (p : Pic), c.stream h.val st.val = some t ∧ t.pics.find?
        (fun p => p.decoding) = some p ∧ c.live = true ∧ t.closing = true ∧ c.endKnown h.val st.val t pe.bytes = true ∧ pe.lone
        = none :=
  ⟨mapCard.setStream 0 0 (some pcT), 0, 0, aPicEnd, pcT, { slot := 0, decodeNo := 0 }, by decide +kernel⟩

def pdT : Stream := { aStream with codec := 4, pics := [{ slot := 0, decodeNo := 0 }] }
theorem test_hyps_pictureComplete_2 :
    ∃ (c : Card) (h : Fin 4) (st : Fin 64) (pe : PicEnd) (t : Stream) (p : Pic), c.stream h.val st.val = some t ∧ t.pics.find?
        (fun p => p.decoding) = some p ∧ c.live = true ∧ t.closing = false ∧ c.endKnown h.val st.val t pe.bytes = true ∧ pe.lone
        = none ∧ pe.outputs = [] ∧ p.damage = none ∧ t.guard = 0 ∧ pe.number.isSome = true :=
  ⟨mapCard.setStream 0 0 (some pdT), 0, 0, aPicEnd, pdT, { slot := 0, decodeNo := 0 }, by decide +kernel⟩

theorem test_hyps_frameStart :
    ∃ (c : Card) (p vc : Fin 4) (num h : Nat), c.receiver p.val = some h ∧ (c.vc h vc.val).state ≠ 0 ∧ (c.vc h vc.val).cur =
        none :=
  ⟨mapCard.setVc 0 0 { state := 1 }, 0, 0, 0, 0, by decide +kernel⟩

theorem test_hyps_frameEnd :
    ∃ (c : Card) (p vc : Fin 4) (h : Nat), c.receiver p.val = some h ∧ (c.vc h vc.val).state ≠ 0 :=
  ⟨mapCard.setVc 0 0 { state := 2 }, 0, 0, 0, by decide +kernel⟩

theorem test_hyps_lineMarker_1 :
    ∃ (c : Card) (p vc : Fin 4) (h : Nat), c.receiver p.val = some h ∧ (c.vc h vc.val).state ≠ 0 :=
  ⟨mapCard.setVc 0 0 { state := 2 }, 0, 0, 0, by decide +kernel⟩

theorem test_hyps_lineMarker_2 :
    ∃ (c : Card) (p vc : Fin 4) (h : Nat), c.receiver p.val = some h :=
  ⟨mapCard, 0, 0, 0, by decide +kernel⟩

def lpC : Card := mapCard.setVc 0 0 { state := 2, cur := some { no := 0 } }
theorem test_hyps_longPacket_1 :
    ∃ (c : Card) (p vc : Fin 4) (pk : CsiPacket) (h : Nat) (f : RpFrame) (e : Card), c.receiver p.val = some h ∧ e = c.rpDrain h
        pk.drained ∧ (e.vc h vc.val).state ≠ 0 ∧ pk.dt = (e.vcCfg h vc.val).dt ∧ (e.vc h vc.val).cur = some f ∧ (e.vc h
        vc.val).latched = false :=
  ⟨lpC, 0, 0, ⟨30, [], true, 0⟩, 0, { no := 0 }, lpC.rpDrain 0 0, by decide +kernel⟩

theorem test_hyps_longPacket_2 :
    ∃ (c : Card) (p vc : Fin 4) (pk : CsiPacket) (h : Nat) (e : Card), c.receiver p.val = some h ∧ e = c.rpDrain h pk.drained ∧
        (e.vc h vc.val).state = 0 :=
  ⟨mapCard, 0, 0, ⟨0, [], true, 0⟩, 0, mapCard.rpDrain 0 0, by decide +kernel⟩

theorem test_hyps_rasterPacketTimeout :
    ∃ (c : Card) (p vc : Fin 4) (h : Nat), c.receiver p.val = some h ∧ (c.vc h vc.val).cur.isSome = true ∧ (c.vc h
        vc.val).latched = false :=
  ⟨mapCard.setVc 0 0 { state := 2, cur := some { no := 0 } }, 0, 0, 0, by decide +kernel⟩

theorem test_hyps_rasterLinkChange :
    ∃ (c : Card) (p : Fin 4) (hs : Bool) (rate h : Nat), c.receiver p.val = some h ∧ c.bit (hp h 0x70004) 31 = true :=
  ⟨mapCard.setN 0x170004 0x80000000, 0, false, 0, 0, by decide +kernel⟩

def fwF : RpFrame := { no := 0, addr := some 0 }
def fwC : Card := mapCard.setVc 0 0 { done := [fwF] }
def fwE : Card := (fwC.rpDrain 0 0).setRpBuf 0 []
theorem test_hyps_frameWritesComplete :
    ∃ (c : Card) (h vc : Fin 4) (f g : RpFrame) (l rest : List RpFrame) (d e x : Card), (c.vc h.val vc.val).done = f :: l ∧
        c.live = true ∧ d = c.rpDrain h.val 0 ∧ (tabGet [] d.rpBuf h.val).any (fun w => (w.vc == vc.val && w.no == f.no) &&
        !w.data.isEmpty) = false ∧ e = d.setRpBuf h.val ((tabGet [] d.rpBuf h.val).filter (fun w => !(w.vc == vc.val && w.no ==
        f.no))) ∧ (e.vc h.val vc.val).done = g :: rest ∧ g.addr.isSome = true ∧ g.align = none ∧ x = ((e.setVc h.val vc.val
        { e.vc h.val vc.val with done := rest }).rpPut h.val vc.val g.no (e.vcCfg h.val vc.val).ctx ((e.vcCfg h.val vc.val).desc
        + 64 * (g.no % 2 ^ (e.vcCfg h.val vc.val).log2)) (frameDesc g vc.val (e.vcCfg h.val vc.val))).bump (vcReg h.val vc.val
        0x28) 1 :=
  ⟨fwC, 0, 0, fwF, fwF, [], [], fwC.rpDrain 0 0, fwE, ((fwE.setVc 0 0 { fwE.vc 0 0 with done := [] }).rpPut 0 0 0 (fwE.vcCfg 0 0).ctx ((fwE.vcCfg 0 0).desc + 64 * (0 % 2 ^ (fwE.vcCfg 0 0).log2)) (frameDesc fwF 0 (fwE.vcCfg 0 0))).bump (vcReg 0 0 0x28) 1, by decide +kernel⟩

theorem test_hyps_rasterCommitWrite_1 :
    ∃ (c : Card) (h vc : Fin 4) (v : Word) (k : Nat), c.reaches (.pf h) (0x70114 + 0x80 * vc.val) = true ∧ k = vcReg h.val
        vc.val 0x10 ∧ (c.loFor k).toNat + 2 ^ 32 * v.toNat = 0 :=
  ⟨upCard, 0, 0, 0, vcReg 0 0 0x10, by decide +kernel⟩

theorem test_hyps_rasterCommitWrite_2 :
    ∃ (c : Card) (h vc : Fin 4) (v : Word) (k a : Nat), c.reaches (.pf h) (0x70114 + 0x80 * vc.val) = true ∧ k = vcReg h.val
        vc.val 0x10 ∧ a = (c.loFor k).toNat + 2 ^ 32 * v.toNat ∧ (((c.setReg k (c.loFor k)).setReg (k + 4) v).dropHold
        k).bufferOk h.val ((((c.setReg k (c.loFor k)).setReg (k + 4) v).dropHold k).vcCfg h.val vc.val) a = true :=
  ⟨({ (((mapCard.setN (vcReg 0 0 0) 0x2B000001).setN (vcReg 0 0 4) 0x10040).setN (vcReg 0 0 8) 128) with holds := [(vcReg 0 0 0x10, 0x10000)] } : Card), 0, 0, 0, vcReg 0 0 0x10, 0x10000, by decide +kernel⟩

theorem test_hyps_rasterVcEnable_1 :
    ∃ (c : Card) (h vc : Fin 4) (v : Word) (k : Nat), c.reaches (.pf h) (0x70100 + 0x80 * vc.val) = true ∧ k = vcReg h.val
        vc.val 0 ∧ fld v 31 31 = 1 ∧ c.bit k 31 = false ∧ ((c.writeReg k v).vcCfg h.val vc.val).ok = true :=
  ⟨upCard, 0, 0, 0x9E040000, vcReg 0 0 0, by decide +kernel⟩

theorem test_hyps_rasterVcEnable_2 :
    ∃ (c : Card) (h vc : Fin 4) (v : Word) (k : Nat), c.reaches (.pf h) (0x70100 + 0x80 * vc.val) = true ∧ k = vcReg h.val
        vc.val 0 ∧ fld v 31 31 = 0 ∧ c.bit k 31 = true :=
  ⟨upCard.setN (vcReg 0 0 0) 0x80000000, 0, 0, 0, vcReg 0 0 0, by decide +kernel⟩

theorem test_hyps_prepareProgressRelease :
    ∃ (c : Card) (h : Fin 4) (r : Fin 16) (seq : Nat) (order : List Nat) (o : Op), c.opOf h.val r.val seq = some o ∧ c.live =
        true ∧ o.cls = 2 ∧ o.held = true ∧ o.phase = .running ∧ (c.stream h.val (leAt o.body 0x2F 1)).all (fun t => t.closing) =
        false ∧ c.progressed h.val o = true :=
  ⟨(mapCard.setRing 0 0 { q := [{ anOp with cls := 2, opcode := 1, held := true, prog := some 0 }] }).setStream 0 0 (some { aStream with pics := [{ slot := 0, decodeNo := 0, decoding := false }] }), 0, 0, 1, [], { anOp with cls := 2, opcode := 1, held := true, prog := some 0 }, by decide +kernel⟩

theorem test_hyps_backlogRefresh :
    ∃ (c : Card) (h : Fin 4) (l : Layout), c.lay h.val = some l ∧ c.live = true ∧ c.f (hp h.val 0x80010) 15 0 = 0 :=
  ⟨mapCard.setN 0x180010 0, 0, mapLayout, by decide +kernel⟩

theorem test_hyps_accClearAll :
    ∃ (c : Card) (h : Fin 4) (v : Word), c.reaches (.pf h) 0xD0000 = true ∧ fld v 31 31 = 1 :=
  ⟨upCard, 0, 0x80000000, by decide +kernel⟩

theorem test_hyps_accClearSlot :
    ∃ (c : Card) (h : Fin 4) (v : Word), c.reaches (.pf h) 0xD0000 = true ∧ fld v 30 30 = 1 :=
  ⟨upCard, 0, 0x40000000, by decide +kernel⟩

theorem test_hyps_accSlotCfgWrite :
    ∃ (c : Card) (h : Fin 4) (slot : Fin 256) (v : Word), c.reaches (.pf h) (0xD1000 + 0x20 * slot.val) = true :=
  ⟨upCard, 0, 0, 0, by decide +kernel⟩

def gpB : List Byte := [0, 0, 0, 0, 0, 0, 1, 0, 0, 128, 0, 0, 4, 0, 0, 0, 1, 0, 1, 0] ++ List.replicate 12 0
def gpO : Op := { anOp with cls := 3, opcode := 1, body := leBytes 8 0 ++ leBytes 2 1 ++ List.replicate 54 0, pass := gpB }
theorem test_hyps_griddlePassEnd :
    ∃ (c : Card) (h : Fin 4) (u : Fin 8) (r : Nat) (o : Op), (c.allOps h.val).find? (fun y => y.2.cls == 3 && y.2.started &&
        y.2.paused.isNone && y.2.phase == .running && y.2.unit == u.val && !y.2.held && y.2.reads.isEmpty) = some (r, o) ∧
        c.opOf h.val r o.seq = some o ∧ c.live = true ∧ o.retryOn = none ∧ o.plain ∧ c.stagingClean h.val ∧ o.pass ≠ [] ∧ leAt
        o.body 8 2 ≤ o.passes + 1 :=
  by
  refine ⟨mapCard.setRing 0 0 { q := [gpO] }, 0, 0, 0, gpO, ?w1, ?w2, ?w3, ?w4, ?w5, ?w6, ?w7, ?w8⟩
  case w6 => exact ⟨by decide +kernel, fun _ => rfl⟩
  all_goals decide +kernel

def csB : List Byte := leBytes 8 0x20000 ++ leBytes 8 0x20000 ++ leBytes 8 0 ++ leBytes 8 0x40 ++ leBytes 2 16 ++ leBytes 2 16 ++ leBytes 4 64 ++ leBytes 4 1 ++ [3, 0, 1, 0, 1, 1]
def csO : Op := { bodyOp 7 1 csB with started := false, held := true }
def csP : Op := { csO with started := true, held := false }
def csM : Card := { mapCard with active := [(0, some { mapLayout with groups := [⟨7, 0, 1, 1, 0⟩], regions := [⟨1, 1, 1, 0, 1⟩, ⟨2, 0, 1, 1, 2⟩, ⟨3, 6, 1, 3, 2⟩] })], rings := [(0, { q := [csO] })], mem := mapCard.mem ++ [(2097152, 4), (2097154, 4)] }
def csC : Card := ((csM.setN 0x20 0x10001).setN 0xE000 1).setN 0x1D1000 0x80000000
def csC0 : Card := (csC.drawXlate.chargeWait 0 csO 0).chargeCount 0 csO 0x10
theorem test_hyps_colanderSearchStart :
    ∃ (c : Card) (m : Fin 8) (h r : Nat) (o o1 : Op) (c0 c1 : Card) (e : List Byte), c.live = true ∧ c.running m.val = none ∧
        (c.colOps m.val).find? (fun x => x.2.2.started) = none ∧ c.colState m.val = 1 ∧ c.nextSearch m.val = some (h, r, o) ∧
        c.isSuspect h o = false ∧ c.searchModule h o = some m.val ∧ o.plain ∧ c0 = (c.drawXlate.chargeWait h o (c.ns -
        o.at_)).chargeCount h o 0x10 ∧ o1 = { o with started := true, held := false } ∧ ReadsTo h o1 [(leAt o.body 0x10 8, 16 *
        leAt o.body 0x28 4)] c0 [e] c1 :=
  by
  refine ⟨csC, 0, 0, 0, csO, csP, csC0, readOf 0 16 csC0, [4, 0, 4, 0] ++ List.replicate 12 0, ?w1, ?w2, ?w3, ?w4, ?w5, ?w6, ?w7, ?w8, ?w9, ?w10, ?w11⟩
  case w11 => exact reads_one rfl rfl (by decide +kernel) rfl
  all_goals decide +kernel

def seB : List Byte := leBytes 8 0x10000 ++ leBytes 8 0x10000 ++ leBytes 8 0 ++ leBytes 8 0x40 ++ leBytes 2 16 ++ leBytes 2 16 ++ leBytes 4 64 ++ leBytes 4 1 ++ [3, 0, 1, 0, 1, 1]
def saO : Op := { bodyOp 7 1 seB with started := false }
theorem test_hyps_search :
    ∃ (c : Card) (h : Fin 4) (r : Fin 16) (seq : Nat) (o : Op) (u m : Nat), c.runnable h.val r.val seq 7 0x01 = some (o, u) ∧
        o.started = false ∧ o.suspect = false ∧ searchInRange o.body = true ∧ c.passes h.val o.ctx (leAt o.body 0 8) (planeLen
        o.body) false false ∧ c.passes h.val o.ctx (leAt o.body 8 8) (planeLen o.body) false false ∧ (c.planePages h.val o).all
        (fun p => p.any (fun x => x.1.colander)) = true ∧ c.searchModule h.val o = some m ∧ (c.groupOf h.val o.group).any (fun g
        => nbit g.units ((c.searchChannels h.val o).headD 0)) = true ∧ c.colTakes m = true :=
  ⟨{ ((opCard saO).setN 0x20 0x10001).setN 0xE000 1 with active := [(0, some { mapLayout with groups := [⟨7, 0, 1, 1, 0⟩], regions := [⟨1, 1, 1, 0, 1⟩, ⟨2, 0, 1, 1, 2⟩, ⟨3, 6, 1, 3, 2⟩] })] }, 0, 0, 1, saO, 0, 0, by decide +kernel⟩

def grO : Op := { anOp with cls := 3, opcode := 1, body := leBytes 8 0 ++ leBytes 2 1 ++ List.replicate 54 0, started := false }
def grP : Op := { grO with started := true }
def grB : List Byte := [0, 0, 0, 0, 0, 0, 1, 0, 0, 128, 0, 0, 4, 0, 0, 0, 1, 0, 1, 0] ++ List.replicate 12 0
def grM : Card := { mapCard with active := [(0, some { mapLayout with groups := [⟨3, 0, 1, 1, 0⟩] })], rings := [(0, { q := [grO] })], mem := mapCard.mem ++ [(2097158, 1), (2097161, 0x80), (2097164, 4), (2097168, 1), (2097170, 1)] }
def grC : Card := grM.setN 0x1D1000 0x80000000
def grC0 : Card := (grC.startOp 0 grO 0).1
theorem test_hyps_griddleRun :
    ∃ (c : Card) (h : Fin 4) (r : Fin 16) (seq u x y : Nat) (o o1 : Op) (l : Leaf) (c0 c1 : Card) (bs : List Byte) (p : Pass),
        c.readyOp h.val r.val seq 3 0x01 = some o ∧ o.started = false ∧ c.stillDue h.val o = false ∧ c.canStart h.val r.val o =
        some u ∧ c.isSuspect h.val o = false ∧ o.plain ∧ o.tile = [] ∧ c.startOp h.val { o with due := none, next := [] } u =
        (c0, o1) ∧ runInRange o.body = true ∧ leAt o.body 8 2 = 1 ∧ c0.translate h.val o.ctx (leAt o.body 0 8) = .ok l ∧ l.to_ =
        .card x y ∧ ReadsTo h.val o1 [(leAt o.body 0 8, 32)] c0 [bs] c1 ∧ p = readPass bs ∧ passInRange o.body (c0.grGeometry
        h.val) true p = true ∧ passFits o.body (c0.grGeometry h.val) (c0.staging h.val).2 p = true ∧ p.wchg = 0 ∧ p.acc = 0 ∧
        c1.stagingClean h.val :=
  by
  refine ⟨grC, 0, 0, 1, 0, 2, 0, grO, grP, ⟨.card 2 0, false, true, false, false, false, 0, 0x20B, 1, 12288⟩, grC0, readOf 0 32 grC0, grB, readPass grB, ?w1, ?w2, ?w3, ?w4, ?w5, ?w6, ?w7, ?w8, ?w9, ?w10, ?w11, ?w12, ?w13, ?w14, ?w15, ?w16, ?w17, ?w18, ?w19⟩
  case w19 => exact ⟨by decide +kernel, fun _ => rfl⟩
  case w13 => exact reads_one rfl rfl (by decide +kernel) rfl
  case w11 => exact ok_of_leaf (by decide +kernel)
  all_goals decide +kernel

theorem test_hyps_unitStartRequest :
    ∃ (c : Card) (l : UnitLoad), c.live = true ∧ c.draws (.unit l.hamper.val l.cls.val l.index) = false ∧ c.startWaits (.unit
        l.hamper.val l.cls.val l.index) = false ∧ l.op = none :=
  ⟨upCard, ⟨0, 4, 0, true, none⟩, by decide +kernel⟩

theorem test_hyps_unitStop :
    ∃ (c : Card) (l : UnitLoad), c.live = true ∧ c.draws (.unit l.hamper.val l.cls.val l.index) = true :=
  ⟨({ upCard with gov := { drawing := [{ load := .unit 0 4 0 }] } } : Card), ⟨0, 4, 0, true, none⟩, by decide +kernel⟩

theorem test_hyps_heartbeat :
    ∃ (c : Card) (h : Fin 4) (r : Fin 16), c.live = true ∧ c.recEn h.val r.val = true ∧ c.f (ringReg h.val r.val 0x118) 23 0 ≠ 0 :=
  ⟨(mapCard.setN 0x110118 1000).setN 0x110108 0x80000000, 0, 0, by decide +kernel⟩

theorem test_hyps_recordRingEnable :
    ∃ (c : Card) (fn : Fn) (r : Fin 16) (v : Word) (h : Nat), c.reaches fn (0x10108 + 0x1000 * r.val) = true ∧ c.ownsRing fn
        r.val = some h ∧ c.recEn h r.val = false ∧ fld v 31 31 = 1 :=
  ⟨mapCard, (.pf 0), 0, 0x80000000, 0, by decide +kernel⟩

def rdC : Card := mapCard.setN 0x110108 0x80000000
def rdE : Card := rdC.writeReg 0x110108 0
theorem test_hyps_recordRingDisable :
    ∃ (c : Card) (fn : Fn) (r : Fin 16) (v : Word) (h n : Nat) (e g : Card), c.reaches fn (0x10108 + 0x1000 * r.val) = true ∧
        c.ownsRing fn r.val = some h ∧ c.recEn h r.val = true ∧ e = c.writeReg (ringReg h r.val 0x108) v ∧ g = (e.setBit
        (ringReg h r.val 0x108) 31 false).setRec h r.val { e.recRing h r.val with store := [], midOp := false } ∧ n = (e.recRing
        h r.val).store.length + ((e.ring h r.val).q.map (fun o => o.records.length)).sum :=
  ⟨rdC, (.pf 0), 0, 0, 0, 0, rdE, (rdE.setBit 0x110108 31 false).setRec 0 0 { rdE.recRing 0 0 with store := [], midOp := false }, by decide +kernel⟩

theorem test_hyps_recordHeadWrite :
    ∃ (c : Card) (fn : Fn) (r : Fin 16) (v : Word) (h : Nat), c.reaches fn (0x1010C + 0x1000 * r.val) = true ∧ c.ownsRing fn
        r.val = some h ∧ diff32 (c.reg (ringReg h r.val 0x110)).toNat v.toNat ≤ 2 ^ c.f (ringReg h r.val 0x108) 20 16 :=
  ⟨upCard, (.pf 0), 0, 0, 0, by decide +kernel⟩

theorem test_hyps_faultLogHeadWrite :
    ∃ (c : Card) (v : Word), c.reaches .pf0 0xC004 = true ∧ diff32 (c.reg (mg 0xC008)).toNat v.toNat ≤ 256 ∧ c.reg (mg 0xC008) =
        v :=
  ⟨upCard, 0, by decide +kernel⟩

theorem test_hyps_faultLogClear :
    ∃ (c : Card) (v : Word), c.reaches .pf0 0xC000 = true ∧ fld v 31 31 = 1 :=
  ⟨upCard, 0x80000000, by decide +kernel⟩

theorem test_hyps_unitStepFailure :
    ∃ (c : Card) (f : StepFault) (r : Fin 16) (seq : Nat) (o : Op), c.live = true ∧ f.op = some (r, seq) ∧ c.opOf f.hamper.val
        r.val seq = some o ∧ f.cls.val = 4 ∧ o.cls = 4 ∧ o.unit = f.unit ∧ o.started = true ∧ o.active = true ∧ o.held = false ∧
        o.paused = none ∧ o.retryOn = none :=
  ⟨mapCard.setRing 0 0 { q := [{ anOp with cls := 4 }] }, ⟨0, 4, 0, some (0, 1), true, false⟩, 0, 1, { anOp with cls := 4 }, by decide +kernel⟩

theorem test_hyps_watchdogExpiry :
    ∃ (c : Card) (f : StepFault) (r : Fin 16) (seq : Nat) (o : Op), c.awaitsInput f = false ∧ c.live = true ∧ f.op = some (r,
        seq) ∧ c.opOf f.hamper.val r.val seq = some o ∧ f.cls.val = 4 ∧ o.cls = 4 ∧ o.unit = f.unit ∧ o.started = true ∧
        o.active = true ∧ o.held = false ∧ o.paused = none ∧ o.retryOn = none :=
  ⟨mapCard.setRing 0 0 { q := [{ anOp with cls := 4 }] }, ⟨0, 4, 0, some (0, 1), true, false⟩, 0, 1, { anOp with cls := 4 }, by decide +kernel⟩

theorem test_hyps_equalUnitRetryStart :
    ∃ (c : Card) (h : Fin 4) (cls : Fin 9) (u r : Nat) (ok : Bool) (o : Op), c.live = true ∧ c.unitEnabled h.val cls.val u =
        true ∧ cls.val ≠ 1 ∧ (c.allOps h.val).filter (fun x => x.2.cls == cls.val && x.2.retryOn == some u) = [(r, o)] ∧
        c.busyFor h.val o u = false :=
  ⟨mapCard.setRing 0 0 { q := [{ anOp with cls := 4, retryOn := some 0, unit := 1 }] }, 0, 4, 0, 0, true, { anOp with cls := 4, retryOn := some 0, unit := 1 }, by decide +kernel⟩

theorem test_hyps_unitReinstate :
    ∃ (c : Card) (h : Fin 4) (v : Word) (k : Nat), c.reaches (.pf h) 0xE000C = true ∧ k = hp h.val 0xE000C ∧ c.bit k 30 = false
        ∧ fld v 31 31 = 1 ∧ (c.writeReg k v).unitThere h.val ((c.writeReg k v).f k 11 8) ((c.writeReg k v).f k 4 0) = true ∧
        (c.writeReg k v).fenced h.val ((c.writeReg k v).f k 11 8) ((c.writeReg k v).f k 4 0) = true :=
  ⟨(fenceBits 0 5 0).foldl (fun c i => c.setBit (fenceReg 0 5) i true) mapCard, 0, 0x80000500, 0x1E000C, by decide +kernel⟩

theorem test_hyps_colanderReinstate :
    ∃ (c : Card) (v : Word) (k : Nat), c.reaches .pf0 0xC010 = true ∧ k = mg 0xC010 ∧ c.bit k 30 = false ∧ fld v 31 31 = 1 ∧
        (c.writeReg k v).bit (mg 0x0020) (16 + (c.writeReg k v).f k 2 0) = true ∧ (c.writeReg k v).fenced 0 7 ((c.writeReg k
        v).f k 2 0) = true :=
  ⟨({ upCard.setN 0x20 0x10000 with colFence := [(0, true)] } : Card), 0x80000000, 0xC010, by decide +kernel⟩

theorem test_hyps_selfTestDone_1 :
    ∃ (c : Card) (h : Fin 4), c.live = true ∧ c.bit (hp h.val 0xE000C) 30 = true :=
  ⟨upCard.setN 0x1E000C 0x40000000, 0, by decide +kernel⟩

theorem test_hyps_selfTestDone_2 :
    ∃ (c : Card) (h : Fin 4), c.live = true ∧ c.bit (hp h.val 0xE000C) 30 = true :=
  ⟨upCard.setN 0x1E000C 0x40000000, 0, by decide +kernel⟩

theorem test_hyps_selfTestDone_3 :
    ∃ (c : Card), c.live = true ∧ c.bit (mg 0xC010) 30 = true :=
  ⟨upCard.setN 0xC010 0x40000000, by decide +kernel⟩

theorem test_hyps_freezePin_1 :
    ∃ (c : Card), c.freezeN = false :=
  ⟨upCard, by decide +kernel⟩

theorem test_hyps_freezeRegister :
    ∃ (c : Card) (v : Word), c.reaches .pf0 0x5000 = true ∧ fld v 31 31 = 1 ∧ fld v 30 30 = 0 :=
  ⟨upCard, 0x80000000, by decide +kernel⟩

theorem test_hyps_freezeLinkPulse :
    ∃ (c : Card) (p : Fin 2), c.cable p.val = true :=
  ⟨upCard.setN 0x28 4, 0, by decide +kernel⟩

theorem test_hyps_freezeMatchTime :
    ∃ (c : Card), c.on = true ∧ c.bit (mg 0x5030) 31 = true ∧ c.bit (mg 0x5000) 11 = true ∧ c.pair (mg 0x5034) (mg 0x5038) ≠ 0 :=
  ⟨((upCard.setN 0x5030 0x80000000).setN 0x5000 0x800).setN 0x5034 5, by decide +kernel⟩

theorem test_hyps_freezeSettled :
    ∃ (c : Card), c.stopping = true :=
  ⟨upCard.setBit 0x5004 30 true, by decide +kernel⟩

theorem test_hyps_thaw :
    ∃ (c : Card) (v : Word), c.reaches .pf0 0x5000 = true ∧ fld v 31 31 = 0 ∧ fld v 30 30 = 1 ∧ c.frozen = true ∧ c.thawing =
        false ∧ c.freezeN = false ∧ c.noRetention = false ∧ c.bit (mg 0x5100) 30 = false :=
  ⟨upCard.setBit 0x5004 31 true, 0x40000000, by decide +kernel⟩

theorem test_hyps_thawComplete_1 :
    ∃ (c : Card), c.thawing = true :=
  ⟨(upCard.setBit 0x5004 31 true).setBit 0x5004 29 true, by decide +kernel⟩

theorem test_hyps_thawComplete_2 :
    ∃ (c : Card), c.thawing = true :=
  ⟨(upCard.setBit 0x5004 31 true).setBit 0x5004 29 true, by decide +kernel⟩

theorem test_hyps_readoutStart :
    ∃ (c : Card) (v : Word) (k : Nat), c.reaches .pf0 0x5100 = true ∧ k = mg 0x5100 ∧ c.bit k 30 = false ∧ fld v 31 31 = 1 ∧
        ((c.writeReg k v).setF k 29 26 0).roRefused (((c.writeReg k v).setF k 29 26 0).f k 19 16) (((c.writeReg k v).setF k 29
        26 0).f k 15 0) (((c.writeReg k v).setF k 29 26 0).pair (mg 0x5104) (mg 0x5108)) (((c.writeReg k v).setF k 29 26 0).f
        (mg 0x510C) 11 0) = none :=
  ⟨upCard.setBit 0x5004 31 true, 0x80000000, 0x5100, by decide +kernel⟩

theorem test_hyps_readoutDone :
    ∃ (c : Card) (bad : List Nat) (x : List Byte × Bool × Bool), c.frozen = true ∧ c.bit (mg 0x5100) 30 = true ∧ c.roData (c.f
        (mg 0x5100) 19 16) (c.f (mg 0x5100) 15 0) (c.pair (mg 0x5104) (mg 0x5108)) (c.f (mg 0x510C) 11 0) bad = x :=
  by
  refine ⟨(((upCard.setBit 0x5004 31 true).setN 0x5100 0x40000000).setN 0x510C 8), [], (((upCard.setBit 0x5004 31 true).setN 0x5100 0x40000000).setN 0x510C 8).roData 0 0 0 8 [], ?w1, ?w2, ?w3⟩
  case w3 => exact rfl
  all_goals decide +kernel

theorem test_hyps_readoutUnlockRequest :
    ∃ (c : Card) (v : Word), c.reaches .pf0 0x5110 = true ∧ fld v 31 31 = 1 ∧ c.roGranted = false :=
  ⟨upCard, 0x80000000, by decide +kernel⟩

theorem test_hyps_jtagFreeze :
    ∃ (c : Card), c.on = true :=
  ⟨upCard, by decide +kernel⟩

theorem test_hyps_jtagThaw :
    ∃ (c : Card), c.on = true :=
  ⟨upCard, by decide +kernel⟩

theorem test_hyps_jtagRoAccess_1 :
    ∃ (c : Card) (dr : BitVec 48), c.on = true ∧ nbit dr.toNat 47 = false :=
  ⟨upCard, 0, by decide +kernel⟩

theorem test_hyps_jtagRoAccess_2 :
    ∃ (c : Card) (dr : BitVec 48), c.on = true ∧ nbit dr.toNat 47 = true ∧ c.bootOpen 0x5000 = true :=
  ⟨upCard, 0x800000000000, by decide +kernel⟩

theorem test_hyps_jtagExtest_1 :
    ∃ (c : Card) (dr len : Nat), c.on = true ∧ c.frozen = true :=
  ⟨upCard.setBit 0x5004 31 true, 0, 0, by decide +kernel⟩

theorem test_hyps_jtagExtest_2 :
    ∃ (c : Card) (dr len : Nat), c.on = true ∧ c.frozen = false :=
  ⟨upCard, 0, 0, by decide +kernel⟩

theorem test_hyps_jtagSamplePreload :
    ∃ (c : Card) (dr len : Nat), c.on = true :=
  ⟨upCard, 0, 0, by decide +kernel⟩

theorem test_hyps_jtagIdcode :
    ∃ (c : Card), c.on = true :=
  ⟨upCard, by decide +kernel⟩

theorem test_hyps_jtagBypass :
    ∃ (c : Card) (dr len : Nat), c.on = true :=
  ⟨upCard, 0, 0, by decide +kernel⟩

def gsX : GovStart := { load := .unit 0 4 0, lc := false, order := 0 }
def gsC : Card := { upCard with gov := { upCard.gov with b := 10 ^ 15, waiting := [gsX] } }
theorem test_hyps_startAcknowledged :
    ∃ (c : Card) (x : GovStart) (s : Card), s = c.settleB ∧ s.gov.head = some x ∧ s.live = true ∧ s.admits x = true ∧
        s.overLimit (s.weight x.load) = false ∧ s.weight x.load ≤ s.gov.b :=
  ⟨gsC, gsX, gsC.settleB, by decide +kernel⟩

theorem test_hyps_ballastDecayTick :
    ∃ (c : Card) (p : PowerSense), c.on = true ∧ c.coreOff = false :=
  ⟨upCard, ⟨0, 0, 54000, 0⟩, by decide +kernel⟩

theorem test_hyps_slopeExceeded :
    ∃ (c : Card), c.on = true ∧ c.coreOff = false :=
  ⟨upCard, by decide +kernel⟩

theorem test_hyps_backfeedBlocked :
    ∃ (c : Card), c.on = true :=
  ⟨upCard, by decide +kernel⟩

theorem test_hyps_uvWarn :
    ∃ (c : Card) (mv : Nat), c.on = true ∧ mv < 11400 :=
  ⟨upCard, 0, by decide +kernel⟩

theorem test_hyps_senseChanged :
    ∃ (c : Card), c.on = true ∧ c.pin.cable.isSome = true :=
  ⟨({ upCard with pin := { upCard.pin with cable := some 0 } } : Card), by decide +kernel⟩

theorem test_hyps_auxCableConnect_1 :
    ∃ (c : Card) (sense : Fin 4), c.pin.cable = none ∧ c.on = true :=
  ⟨upCard, 0, by decide +kernel⟩

theorem test_hyps_auxCableConnect_2 :
    ∃ (c : Card) (sense : Fin 4), c.pin.cable = none ∧ c.on = false :=
  ⟨({} : Card), 0, by decide +kernel⟩

theorem test_hyps_auxQualifyExpiry :
    ∃ (c : Card) (t cap : Nat), c.pin.qualFrom = some t ∧ c.pin.cable = some cap ∧ c.on = true :=
  ⟨({ upCard with pin := { upCard.pin with cable := some 0, qualFrom := some 0 } } : Card), 0, 0, by decide +kernel⟩

theorem test_hyps_auxPowerLost :
    ∃ (c : Card) (gone : Bool), c.pin.cable.isSome = true ∧ c.on = true ∧ c.f (mg 0x1108) 31 29 = 1 ∧ c.coreOff = false :=
  ⟨({ upCard.setF 0x1108 31 29 1 with pin := { upCard.pin with cable := some 0 } } : Card), false, by decide +kernel⟩

theorem test_hyps_supplyLimiterTrip :
    ∃ (c : Card) (i : Fin 3), c.bit (mg 0x1134) (8 + i.val) = true :=
  ⟨upCard.setN 0x1134 0x100, 0, by decide +kernel⟩

theorem test_hyps_outwardSupplyEnableWrite :
    ∃ (c : Card) (v : Word), c.reaches .pf0 0x1134 = true :=
  ⟨upCard, 0, by decide +kernel⟩

theorem test_hyps_hubSensorSample_1 :
    ∃ (c : Card) (ts : List (Option Int)) (s1 : Card), c.on = true ∧ c.coreOff = false ∧ s1 = (List.range 10).foldl (fun (d :
        Card) i => d.setSensor i (hubValid (ts.getD i none))) c ∧ s1.junction = none :=
  ⟨upCard, [], upCard, by decide +kernel⟩

theorem test_hyps_hubSensorSample_2 :
    ∃ (c : Card) (ts : List (Option Int)) (s1 : Card) (i j : Nat) (t8 v : Int), c.on = true ∧ c.coreOff = false ∧ s1 =
        (List.range 10).foldl (fun (d : Card) i => d.setSensor i (hubValid (ts.getD i none))) c ∧ s1.junction = some (i, t8) ∧
        -((-t8) / 8) ≤ sint 8 (s1.f (mg 0x201C) 7 0) ∧ ((s1.setF (mg 0x2000) 31 24 (toBits 8 (-((-t8) / 8)))).setF (mg 0x2000)
        23 16 i).hottest = some (j, v) ∧ v < 960 :=
  ⟨upCard.setN 0x201C 0x50, List.replicate 10 (some 80), (List.range 10).foldl (fun (d : Card) i => d.setSensor i (hubValid ((List.replicate 10 (some 80) : List (Option Int)).getD i none))) (upCard.setN 0x201C 0x50), 0, 0, 80, 80, by decide +kernel⟩

theorem test_hyps_warmingTick :
    ∃ (c : Card) (mw : Nat), c.on = true :=
  ⟨upCard, 0, by decide +kernel⟩

theorem test_hyps_airflowUpdate :
    ∃ (c : Card), c.on = true :=
  ⟨upCard, by decide +kernel⟩

theorem test_hyps_warmRecheck :
    ∃ (c : Card), c.on = true ∧ c.coreOff = false ∧ c.bit (mg 0x4000) 31 = true ∧ c.bit (mg 0x4000) 30 = false ∧ c.bit (mg
        0x4000) 29 = false ∧ 85 ≤ c.tj :=
  ⟨(upCard.setN 0x4000 0x80000000).setN 0x2000 0x5A000000, by decide +kernel⟩

theorem test_hyps_keepStore :
    ∃ (c : Card) (v : Word), c.reaches .pf0 0x3000 = true ∧ fld v 31 31 = 1 ∧ fld v 3 0 = 1 ∧ c.bit (mg 0x3004) 31 = false :=
  ⟨upCard, 0x80000001, by decide +kernel⟩

theorem test_hyps_clearRetire :
    ∃ (c : Card) (v : Word), c.reaches .pf0 0x3000 = true ∧ fld v 31 31 = 1 ∧ fld v 3 0 = 3 ∧ c.bit (mg 0x3004) 31 = false :=
  ⟨upCard, 0x80000003, by decide +kernel⟩

theorem test_hyps_restage :
    ∃ (c : Card) (v : Word), c.reaches .pf0 0x3000 = true ∧ fld v 31 31 = 1 ∧ fld v 3 0 = 2 ∧ c.bit (mg 0x3004) 31 = false :=
  ⟨upCard, 0x80000002, by decide +kernel⟩

theorem test_hyps_abandon :
    ∃ (c : Card) (v : Word), c.reaches .pf0 0x3000 = true ∧ fld v 31 31 = 1 ∧ fld v 3 0 = 4 ∧ c.bit (mg 0x3004) 31 = true ∧
        c.bit (mg 0x3004) 30 = true ∧ c.presence.any (fun w => w.op == 1 || w.op == 2) = true :=
  ⟨({ upCard.setN 0x3004 0xC0000000 with presence := some ⟨1, 0, 0⟩ } : Card), 0x80000004, by decide +kernel⟩

theorem test_hyps_ksBadCommand :
    ∃ (c : Card) (v : Word), c.reaches .pf0 0x3000 = true ∧ fld v 31 31 = 1 ∧ (¬ (1 ≤ fld v 3 0 ∧ fld v 3 0 ≤ 4)) ∧ c.bit (mg
        0x3004) 31 = false :=
  ⟨upCard, 0x80000000, by decide +kernel⟩

theorem test_hyps_internalStore :
    ∃ (c : Card) (t : Nat), c.keepLoaded = true ∧ c.keep.dirty = some t ∧ c.keep.own = none ∧ c.keep.host = none :=
  ⟨({ upCard with keep := { dirty := some 5 } } : Card), 5, by decide +kernel⟩

theorem test_hyps_storeCommit :
    ∃ (c : Card) (j : KsJob) (x : Nat × List Byte), c.on = true ∧ c.keep.own = some j ∧ j.image = some x ∧ c.keep.host = none :=
  ⟨({ upCard with keep := { own := some ⟨0, [1], false, some (1, [2]), 0, none, false⟩ } } : Card), ⟨0, [1], false, some (1, [2]), 0, none, false⟩, (1, [2]), by decide +kernel⟩

theorem test_hyps_ksStagingAccess_1 :
    ∃ (c : Card) (v : Word), c.reaches .pf0 0x3018 = true ∧ c.bit (mg 0x3014) 16 = false ∧ c.bit (mg 0x3004) 31 = false :=
  ⟨upCard, 0, by decide +kernel⟩

theorem test_hyps_ksStagingAccess_2 :
    ∃ (c : Card), c.claims .pf0 = true ∧ c.bootOpen 0x3018 = true :=
  ⟨upCard, by decide +kernel⟩

theorem test_hyps_buttonPress_1 :
    ∃ (c : Card), c.on = true ∧ c.presence = none :=
  ⟨upCard, by decide +kernel⟩

theorem test_hyps_buttonPress_2 :
    ∃ (c : Card) (w : PresWindow), c.on = true ∧ c.presence = some w :=
  ⟨({ upCard with presence := some ⟨1, 0, 0⟩ } : Card), ⟨1, 0, 0⟩, by decide +kernel⟩

theorem test_hyps_jumperFitted_1 :
    ∃ (c : Card), c.on = true :=
  ⟨upCard, by decide +kernel⟩

theorem test_hyps_presenceTimeout :
    ∃ (c : Card) (w : PresWindow), c.presence = some w ∧ c.on = true ∧ w.op = 1 :=
  ⟨({ upCard with presence := some ⟨1, 0, 0⟩ } : Card), ⟨1, 0, 0⟩, by decide +kernel⟩

theorem test_hyps_fuseProgram :
    ∃ (c : Card) (v : Word), c.reaches .pf0 0x4018 = true ∧ fld v 31 31 = 1 ∧ c.bit (mg 0x4018) 30 = false ∧ c.bit (mg 0x4018)
        29 = false ∧ c.stage ≠ 2 ∧ programmable (c.f (mg 0x4010) 6 0) = true :=
  ⟨upCard.setN 0x4010 36, 0x80000000, by decide +kernel⟩

theorem test_hyps_fuseProgramDone :
    ∃ (c : Card) (solid : Word) (j : FuseJob), c.fuseJob = some j ∧ c.on = true ∧ c.bit (mg 0x4018) 30 = true :=
  ⟨({ upCard.setN 0x4018 0x40000000 with fuseJob := some ⟨36, 1⟩ } : Card), 1, ⟨36, 1⟩, by decide +kernel⟩

theorem test_hyps_sealBreak :
    ∃ (c : Card), c.pin.sealOpen = false ∧ c.keepLoaded = true ∧ c.board.up = false :=
  ⟨upCard, by decide +kernel⟩

theorem test_hyps_powerGood :
    ∃ (c : Card), c.on = false ∧ c.pin.slot12 = true :=
  ⟨({ pin := { slot12 := true } } : Card), by decide +kernel⟩

theorem test_hyps_regulatorRetry :
    ∃ (c : Card), c.on = true ∧ c.stage = 0 ∧ c.f (mg 0x1108) 31 29 = 1 ∧ c.avs.up = false :=
  ⟨(upCard.setN 0x30 0).setN 0x1108 0x20000000, by decide +kernel⟩

theorem test_hyps_fuseRead :
    ∃ (c : Card), c.on = true ∧ c.stage = 0 ∧ c.f (mg 0x1108) 31 29 = 1 ∧ c.avs.up = true ∧ c.tooHot = false :=
  ⟨({ (upCard.setN 0x30 0).setN 0x1108 0x20000000 with avs := { up := true } } : Card), by decide +kernel⟩

theorem test_hyps_keepLoad :
    ∃ (c : Card), c.on = true ∧ c.coreOff = false ∧ c.stage = 1 ∧ c.pin.sealOpen = false :=
  ⟨upCard.setN 0x30 1, by decide +kernel⟩

theorem test_hyps_memDelays :
    ∃ (c : Card) (rs : List ModuleResult), c.on = true ∧ c.coreOff = false ∧ c.stage = 3 :=
  ⟨upCard.setN 0x30 3, List.replicate 8 ⟨.accepted, 200, true, true⟩, by decide +kernel⟩

theorem test_hyps_memReady :
    ∃ (c : Card), c.on = true ∧ c.coreOff = false ∧ c.stage = 4 :=
  ⟨upCard.setN 0x30 4, by decide +kernel⟩

theorem test_hyps_layoutDefault :
    ∃ (c : Card), c.live = true ∧ c.stage = 5 :=
  ⟨upCard.setN 0x30 5, by decide +kernel⟩

theorem test_hyps_hampersReady :
    ∃ (c : Card), c.live = true ∧ c.stage = 6 ∧ hampers.any (fun h => [FnPhase.starting, FnPhase.filling].contains (c.fnOf (h +
        1)).phase && (c.fnOf (h + 1)).cause == 4) = false :=
  ⟨({ upCard.setN 0x30 6 with fns := [] } : Card), by decide +kernel⟩

theorem test_hyps_conventionalReset :
    ∃ (c : Card), c.on = true :=
  ⟨upCard, by decide +kernel⟩

theorem test_hyps_hotReset_1 :
    ∃ (c : Card), c.on = true :=
  ⟨upCard, by decide +kernel⟩

theorem test_hyps_hotReset_2 :
    ∃ (c : Card) (h : Nat), c.live = true ∧ hampers.filter (fun g => (c.fnOf (g + 1)).phase == .ready) = [h] :=
  ⟨upCard, 0, by decide +kernel⟩

theorem test_hyps_remoteWriteAck :
    ∃ (c : Card) (p : Fin 2) (x : Remote), c.remotes.find? (fun y => y.id == x.id && y.port == p.val && y.kind == 1 && y.sent) =
        some x :=
  ⟨({ upCard with remotes := [⟨1, 0, 1, 0, 0, 0, 1, 0, 0, 0, [], [], true, 0⟩] } : Card), 0, ⟨1, 0, 1, 0, 0, 0, 1, 0, 0, 0, [], [], true, 0⟩, by decide +kernel⟩

theorem test_hyps_remoteTimeout :
    ∃ (c : Card) (x : Remote), c.remotes.find? (fun y => y.id == x.id && y.sent) = some x ∧ c.live = true :=
  ⟨({ upCard with remotes := [⟨1, 0, 1, 0, 0, 0, 1, 0, 0, 0, [], [], true, 0⟩] } : Card), ⟨1, 0, 1, 0, 0, 0, 1, 0, 0, 0, [], [], true, 0⟩, by decide +kernel⟩

theorem test_hyps_linkTrained_1 :
    ∃ (c : Card) (p : Fin 2) (card : Fin 8) (q : Fin 2), c.on = true ∧ c.portState p.val = 1 ∧ c.cable p.val = true ∧ c.bit
        (portReg p.val 0) 31 = true ∧ card.val ≠ c.f (mg 0xA000) 2 0 ∧ (c.port p.val).peer = none ∧ (c.port p.val).unacked = [] :=
  ⟨((upCard.setN 0xA100 0x80000000).setN 0xA104 1).setN 0x28 4, 0, 1, 0, by decide +kernel⟩

theorem test_hyps_linkTrained_2 :
    ∃ (c : Card) (p : Fin 2) (card : Fin 8) (q : Fin 2), c.on = true ∧ c.portState p.val = 1 ∧ c.cable p.val = true ∧ c.bit
        (portReg p.val 0) 31 = true ∧ card.val = c.f (mg 0xA000) 2 0 :=
  ⟨((upCard.setN 0xA100 0x80000000).setN 0xA104 1).setN 0x28 4, 0, 0, 0, by decide +kernel⟩

theorem test_hyps_linkRetrain :
    ∃ (c : Card) (p : Fin 2), c.portState p.val = 2 :=
  ⟨upCard.setN 0xA104 2, 0, by decide +kernel⟩

theorem test_hyps_portRetrain :
    ∃ (c : Card) (p : Fin 2) (v : Word), c.reaches .pf0 (0xA100 + 0x100 * p.val) = true ∧ fld v 30 30 = 1 :=
  ⟨upCard, 0, 0x40000000, by decide +kernel⟩

theorem test_hyps_linkDownTimeout :
    ∃ (c : Card) (p : Fin 2) (t : Nat), (c.port p.val).leftUp = some t :=
  ⟨({ upCard with ports := [(0, { leftUp := some 5 })] } : Card), 0, 5, by decide +kernel⟩

theorem test_hyps_dravazPacketReceived_1 :
    ∃ (c : Card) (p : Fin 2) (pk : DvPacket), c.on = true ∧ c.portUp p.val = true ∧ pk.good = true ∧ pk.ack = none ∧ pk.replay =
        none ∧ (c.port p.val).unacked = [] ∧ pk.seq % 4096 = (c.port p.val).rx ∧ pk.body = .empty :=
  ⟨upCard.setN 0xA104 2, 0, ⟨0, true, none, none, .empty⟩, by decide +kernel⟩

theorem test_hyps_dravazPacketReceived_2 :
    ∃ (c : Card) (p : Fin 2) (pk : DvPacket), c.on = true ∧ c.portUp p.val = true ∧ pk.good = false :=
  ⟨upCard.setN 0xA104 2, 0, ⟨0, false, none, none, .empty⟩, by decide +kernel⟩

theorem test_hyps_remoteRequestReceived_1 :
    ∃ (c : Card) (p : Fin 2) (q : RemoteReq) (n x : Nat) (e : RegionEnt), c.live = true ∧ n =
        (match q.wdata with | some b => b.length | none => q.len) ∧ c.windowHit p.val q.window.val q.off n q.wdata.isSome = some
        (e, x) ∧ c.spanHeld e x n = false :=
  ⟨mapCard.setN 0xA400 0xE0000002, 0, ⟨7, 0, 64, 32, none⟩, 32, 64, ⟨2, 0, 1, 1, 2⟩, by decide +kernel⟩

theorem test_hyps_remoteRequestReceived_2 :
    ∃ (c : Card) (p : Fin 2) (q : RemoteReq) (n x : Nat) (e : RegionEnt), c.live = true ∧ n =
        (match q.wdata with | some b => b.length | none => q.len) ∧ c.windowHit p.val q.window.val q.off n q.wdata.isSome = some
        (e, x) ∧ c.spanHeld e x n = true :=
  ⟨({ mapCard.setN 0xA400 0xE0000002 with heldAcc := [⟨1, 0, 2, 64, 32, none, 0, none, false, false, none⟩] } : Card), 0, ⟨7, 0, 64, 32, none⟩, 32, 64, ⟨2, 0, 1, 1, 2⟩, by decide +kernel⟩

theorem test_hyps_remoteRequestReceived_3 :
    ∃ (c : Card) (p : Fin 2) (q : RemoteReq) (n : Nat), c.live = true ∧ n =
        (match q.wdata with | some b => b.length | none => q.len) ∧ c.windowHit p.val q.window.val q.off n q.wdata.isSome = none :=
  ⟨upCard, 0, ⟨7, 0, 64, 0, some [1, 2]⟩, 2, by decide +kernel⟩

theorem test_hyps_messageReceived :
    ∃ (c : Card) (p : Fin 2) (m : DvMessage), c.live = true ∧ c.bit (portReg p.val 0x30) 31 = true ∧ c.msgFull p.val = false ∧
        (c.port p.val).held = [] :=
  ⟨upCard.setN 0xA130 0x80000000, 0, ⟨1, 1, 0, 0, 0, []⟩, by decide +kernel⟩

theorem test_hyps_msgRingEnable :
    ∃ (c : Card) (p : Fin 2) (v : Word) (e : RegionEnt), c.reaches .pf0 (0xA130 + 0x100 * p.val) = true ∧ fld v 31 31 = 1 ∧
        c.bit (portReg p.val 0x30) 31 = false ∧ (c.writeReg (portReg p.val 0x30) v).msgRegionOk p.val = some e :=
  ⟨mapCard.setN 0xA134 0x01000000, 0, 0x80000000, ⟨1, 1, 1, 0, 1⟩, by decide +kernel⟩

theorem test_hyps_msgHeadWrite :
    ∃ (c : Card) (p : Fin 2) (v : Word), c.reaches .pf0 (0xA138 + 0x100 * p.val) = true ∧ diff32 (c.reg (portReg p.val
        0x3C)).toNat v.toNat ≤ 2 ^ c.f (portReg p.val 0x30) 4 0 ∧ (c.port p.val).held = [] :=
  ⟨upCard, 0, 0, by decide +kernel⟩

theorem test_hyps_windowCtlWrite_1 :
    ∃ (c : Card) (p : Fin 2) (w : Fin 64) (v : Word), c.reaches .pf0 (0xA400 + 0x400 * p.val + 16 * w.val) = true ∧ (c.regionOf
        (fld v 7 0)).any (fun x => !x.2.picture) = true :=
  ⟨mapCard, 0, 0, 2, by decide +kernel⟩

theorem test_hyps_windowCtlWrite_2 :
    ∃ (c : Card) (p : Fin 2) (w : Fin 64) (v : Word), c.reaches .pf0 (0xA400 + 0x400 * p.val + 16 * w.val) = true ∧ (c.regionOf
        (fld v 7 0)).any (fun x => !x.2.picture) = false :=
  ⟨upCard, 0, 0, 0, by decide +kernel⟩

theorem test_hyps_boardHubPoll_1 :
    ∃ (c : Card), c.board.up = true ∧ c.on = true :=
  ⟨({ upCard with board := { up := true } } : Card), by decide +kernel⟩

theorem test_hyps_boardHubPoll_2 :
    ∃ (c : Card), c.board.up = true ∧ c.on = false ∧ c.board.missed < 2 :=
  ⟨({ board := { up := true } } : Card), by decide +kernel⟩

theorem test_hyps_boardSensorPoll :
    ∃ (c : Card) (p : BoardSense), c.board.up = true :=
  ⟨({ board := { up := true } } : Card), ⟨none, none, 0, 0, 0⟩, by decide +kernel⟩

theorem test_hyps_identifyTick :
    ∃ (c : Card), c.board.up = true :=
  ⟨({ board := { up := true } } : Card), by decide +kernel⟩

theorem test_hyps_smbusReadByte_1 :
    ∃ (c : Card) (code : Fin 256) (v : Nat), c.board.up = true ∧ c.boardReg code.val = some (.byte v) ∧ code.val ≠ 0x42 :=
  ⟨({ board := { up := true, air := 3 } } : Card), 9, 3, by decide +kernel⟩

theorem test_hyps_smbusReadByte_2 :
    ∃ (c : Card) (v : Nat), c.board.up = true ∧ c.boardReg 0x42 = some (.byte v) :=
  ⟨({ board := { up := true } } : Card), 0, by decide +kernel⟩

theorem test_hyps_smbusReadWord :
    ∃ (c : Card) (code : Fin 256) (v : Nat), c.board.up = true ∧ c.boardReg code.val = some (.word v) :=
  ⟨({ board := { up := true } } : Card), 0, 0x4640, by decide +kernel⟩

theorem test_hyps_smbusBlockRead :
    ∃ (c : Card) (code : Fin 256) (n v : Nat), c.board.up = true ∧ c.boardReg code.val = some (.block n v) :=
  ⟨({ board := { up := true } } : Card), 4, 8, 0, by decide +kernel⟩

theorem test_hyps_smbusWriteByte_1 :
    ∃ (c : Card) (code : Fin 256) (v : Byte), c.board.up = true ∧ c.board.pecReq = false :=
  ⟨({ board := { up := true } } : Card), 0x40, 1, by decide +kernel⟩

theorem test_hyps_smbusWriteByte_2 :
    ∃ (c : Card) (code : Fin 256) (v : Byte), c.board.up = true ∧ c.board.pecReq = true :=
  ⟨({ board := { up := true, pecReq := true } } : Card), 0x40, 1, by decide +kernel⟩

theorem test_hyps_clearPeak :
    ∃ (c : Card) (v : Byte), c.board.up = true ∧ c.board.pecReq = false ∧ nbit v.toNat 7 = true :=
  ⟨({ board := { up := true } } : Card), 0x80, by decide +kernel⟩

theorem test_hyps_aux3v3Good :
    ∃ (c : Card), c.board.up = false :=
  ⟨upCard, by decide +kernel⟩

def mfO : Op := bodyOp 5 2 (leBytes 8 0 ++ leBytes 8 0xAB ++ leBytes 8 4)
theorem test_hyps_moveFill :
    ∃ (c : Card) (h : Fin 4) (r : Fin 16) (seq : Nat) (c0 d : Card) (o o' : Op), c.takenUp h.val r.val seq 5 2 = some (c0, o) ∧
        o.plain ∧ 0 < leAt o.body 0x10 8 ∧ leAt o.body 0x10 8 ≤ 2 ^ 40 ∧ leAt o.body 0xC 4 = 0 ∧ leAt o.body 0x18 8 = 0 ∧
        c0.passes h.val o.ctx (leAt o.body 0 8) (leAt o.body 0x10 8) true false ∧ WritesTo h.val r.val ((chunks (leAt o.body
        0x10 8)).map (fun k => (leAt o.body 0 8 + k.1, (List.range k.2).map (fun i => ((o.body.drop 8).take 4).getD (i % 4)
        0)))) (c0, o) (d, o') :=
  by
  refine ⟨opCard mfO, 0, 0, 1, (opCard mfO).drawXlate, (writeOf 0 [0xAB, 0, 0, 0] ((opCard mfO).drawXlate, mfO)).1, mfO, (writeOf 0 [0xAB, 0, 0, 0] ((opCard mfO).drawXlate, mfO)).2, ?w1, ?w2, ?w3, ?w4, ?w5, ?w6, ?w7, ?w8⟩
  case w8 => exact writes_one (x := (0, [0xAB, 0, 0, 0])) (by decide +kernel) ⟨by decide +kernel, by decide +kernel, by decide +kernel, rfl⟩
  all_goals decide +kernel

def mcO : Op := bodyOp 5 1 (leBytes 8 0 ++ leBytes 8 0x50000 ++ leBytes 8 4)
theorem test_hyps_moveCopy :
    ∃ (c : Card) (h : Fin 4) (r : Fin 16) (seq : Nat) (c0 d : Card) (o o' : Op) (src dst n : Nat), c.takenUp h.val r.val seq 5 1
        = some (c0, o) ∧ o.plain ∧ src = leAt o.body 0 8 ∧ dst = leAt o.body 8 8 ∧ n = leAt o.body 0x10 8 ∧ 0 < n ∧ n ≤ 2 ^ 40 ∧
        leAt o.body 0x18 8 = 0 ∧ c0.passes h.val o.ctx src n false false ∧ c0.copyStays h.val o.ctx src dst n ∧ c0.passes h.val
        o.ctx dst n true false ∧ c0.atHand h.val o src n ∧ (src = dst ∨ rangesMeet src n dst n = false) ∧ CopiesTo h.val r.val
        src dst (chunks n) (c0, o) (d, o') :=
  by
  refine ⟨opCard mcO, 0, 0, 1, (opCard mcO).drawXlate, (writeOf 0x50000 [0, 0, 0, 0] (readOf 0 4 (opCard mcO).drawXlate, mcO)).1, mcO, (writeOf 0x50000 [0, 0, 0, 0] (readOf 0 4 (opCard mcO).drawXlate, mcO)).2, 0, 0x50000, 4, ?w1, ?w2, ?w3, ?w4, ?w5, ?w6, ?w7, ?w8, ?w9, ?w10, ?w11, ?w12, ?w13, ?w14⟩
  case w14 => exact copies_one (h := 0) (r := 0) (src := 0) (dst := 0x50000) (a := ((opCard mcO).drawXlate, mcO)) (x := (0, 4)) (bs := [0, 0, 0, 0]) (by decide +kernel) (by decide +kernel) (reads_one rfl rfl (by decide +kernel) rfl) ⟨by decide +kernel, by decide +kernel, by decide +kernel, rfl⟩
  all_goals decide +kernel

def muO : Op := bodyOp 5 3 (leBytes 8 0x20000 ++ leBytes 8 0 ++ leBytes 8 0x10000)
theorem test_hyps_moveUnback :
    ∃ (c : Card) (h : Fin 4) (r : Fin 16) (seq : Nat) (c0 : Card) (o : Op) (dst n : Nat), c.takenUp h.val r.val seq 5 3 = some
        (c0, o) ∧ o.plain ∧ dst = leAt o.body 0 8 ∧ n = leAt o.body 0x10 8 ∧ 0 < n ∧ n ≤ 2 ^ 40 ∧ leAt o.body 8 8 = 0 ∧ leAt
        o.body 0x18 8 = 0 ∧ dst % 65536 = 0 ∧ n % 65536 = 0 ∧ (∀ p ∈ pagesOf dst n, ∃ l, c0.translate h.val o.ctx p = .ok l ∧
        l.sparse = true ∧ (c0.regionOf l.atRegion).any (fun e => c0.spanHeld e.2 l.atOff 8) = false) :=
  by
  refine ⟨opCard muO, 0, 0, 1, (opCard muO).drawXlate, muO, 0x20000, 0x10000, ?w1, ?w2, ?w3, ?w4, ?w5, ?w6, ?w7, ?w8, ?w9, ?w10, ?w11⟩
  case w11 => exact by rw [show pagesOf 0x20000 0x10000 = [0x20000] by decide +kernel]; simp only [List.mem_singleton, forall_eq]; exact ⟨⟨.card 0 0, false, true, true, false, false, 0, 27, 1, 12304⟩, ok_of_leaf (by decide +kernel), by decide +kernel⟩
  all_goals decide +kernel

def seO : Op := bodyOp 5 0x21 (leBytes 8 0 ++ leBytes 8 0 ++ leBytes 8 4)
theorem test_hyps_send :
    ∃ (c : Card) (h : Fin 4) (r : Fin 16) (seq : Nat) (c0 d : Card) (o : Op) (src port n : Nat) (bs : List Byte), c.takenUp
        h.val r.val seq 5 0x21 = some (c0, o) ∧ o.plain ∧ src = leAt o.body 0 8 ∧ port = leAt o.body 8 1 ∧ n = leAt o.body 0x10
        8 ∧ port ≤ 1 ∧ leAt o.body 9 7 = 0 ∧ 1 ≤ n ∧ n ≤ 256 ∧ c0.passes h.val o.ctx src n false true ∧ ReadsTo h.val o [(src,
        n)] c0 [bs] d ∧ c0.portDown port = false :=
  by
  refine ⟨opCard seO, 0, 0, 1, (opCard seO).drawXlate, readOf 0 4 (opCard seO).drawXlate, seO, 0, 0, 4, [0, 0, 0, 0], ?w1, ?w2, ?w3, ?w4, ?w5, ?w6, ?w7, ?w8, ?w9, ?w10, ?w11, ?w12⟩
  case w11 => exact reads_one rfl rfl (by decide +kernel) rfl
  all_goals decide +kernel

def mmO : Op := bodyOp 5 0x20 []
theorem test_hyps_moveCommit :
    ∃ (c : Card) (h : Fin 4) (r : Fin 16) (seq : Nat) (c0 : Card) (o : Op) (addr k : Nat), c.takenUp h.val r.val seq 5 0x20 =
        some (c0, o) ∧ o.plain ∧ addr = leAt o.body 0 8 ∧ k = leAt o.body 8 1 ∧ leNat (o.body.drop 9) = 0 ∧ (c0.portOf
        h.val).isSome = true ∧ c0.bit (mg 0x28) 1 = true ∧ k < 4 ∧ c0.bit (vcReg h.val k 0) 31 = true ∧ (c0.vcCfg h.val k).ctx =
        o.ctx ∧ (addr = 0 ∨ c0.bufferOk h.val (c0.vcCfg h.val k) addr = true) :=
  ⟨(opCard mmO).setN 0x170100 0x80000001, 0, 0, 1, ((opCard mmO).setN 0x170100 0x80000001).drawXlate, mmO, 0, 0, by decide +kernel⟩

def srO : Op := bodyOp 5 0x10 (leBytes 8 0 ++ leBytes 4 0 ++ leBytes 4 16 ++ leBytes 2 1 ++ leBytes 2 2 ++ leBytes 2 64)
theorem test_hyps_stageRows :
    ∃ (c : Card) (h : Fin 4) (r : Fin 16) (seq : Nat) (c0 d : Card) (o : Op) (src dst pitch m k lanes fl : Nat) (rows : List
        (List Byte)), c.takenUp h.val r.val seq 5 0x10 = some (c0, o) ∧ o.plain ∧ src = leAt o.body 0 8 ∧ dst = leAt o.body 8 4
        ∧ pitch = leAt o.body 0xC 4 ∧ m = leAt o.body 0x10 2 ∧ k = leAt o.body 0x12 2 ∧ lanes = leAt o.body 0x14 2 ∧ fl = leAt
        o.body 0x16 1 ∧ 1 ≤ m ∧ m ≤ 4096 ∧ lanesOk lanes = true ∧ 1 ≤ k ∧ k ≤ lanes ∧ fl &&& 0xFA = 0 ∧ leNat (o.body.drop 0x17)
        = 0 ∧ dst % 64 = 0 ∧ dst + (m + lanes - 1) * lanes * stElem fl ≤ (c0.staging h.val).2 ∧ c0.sourceOk h.val o (stSrc fl)
        ((List.range m).map (fun i => (src + i * pitch, k * stElem fl))) ∧ SourceTo h.val o (stSrc fl) ((List.range m).map (fun
        i => (src + i * pitch, k * stElem fl))) c0 rows d :=
  by
  refine ⟨opCard srO, 0, 0, 1, (opCard srO).drawXlate, readOf 0 2 (opCard srO).drawXlate, srO, 0, 0, 16, 1, 2, 64, 0, [[0, 0]], ?w1, ?w2, ?w3, ?w4, ?w5, ?w6, ?w7, ?w8, ?w9, ?w10, ?w11, ?w12, ?w13, ?w14, ?w15, ?w16, ?w17, ?w18, ?w19, ?w20⟩
  case w20 => exact source_reads (by decide +kernel) (reads_one rfl rfl (by decide +kernel) rfl)
  all_goals decide +kernel

def swO : Op := bodyOp 5 0x11 (leBytes 8 0 ++ leBytes 4 0 ++ leBytes 4 16 ++ leBytes 2 1 ++ leBytes 2 2 ++ leBytes 2 64 ++ leBytes 2 64)
theorem test_hyps_stageWeights :
    ∃ (c : Card) (h : Fin 4) (r : Fin 16) (seq : Nat) (c0 d : Card) (o : Op) (src dst pitch k n ra ca fl : Nat) (rows : List
        (List Byte)), c.takenUp h.val r.val seq 5 0x11 = some (c0, o) ∧ o.plain ∧ src = leAt o.body 0 8 ∧ dst = leAt o.body 8 4
        ∧ pitch = leAt o.body 0xC 4 ∧ k = leAt o.body 0x10 2 ∧ n = leAt o.body 0x12 2 ∧ ra = leAt o.body 0x14 2 ∧ ca = leAt
        o.body 0x16 2 ∧ fl = leAt o.body 0x18 1 ∧ lanesOk ra = true ∧ (ca = 64 ∨ ca = 128) ∧ 1 ≤ k ∧ k ≤ ra ∧ 1 ≤ n ∧ n ≤ ca ∧
        fl &&& 0xFA = 0 ∧ leNat (o.body.drop 0x19) = 0 ∧ dst % 64 = 0 ∧ dst + ra * ca * stElem fl ≤ (c0.staging h.val).2 ∧
        c0.sourceOk h.val o (stSrc fl) ((List.range k).map (fun i => (src + i * pitch, n * stElem fl))) ∧ SourceTo h.val o
        (stSrc fl) ((List.range k).map (fun i => (src + i * pitch, n * stElem fl))) c0 rows d :=
  by
  refine ⟨opCard swO, 0, 0, 1, (opCard swO).drawXlate, readOf 0 2 (opCard swO).drawXlate, swO, 0, 0, 16, 1, 2, 64, 64, 0, [[0, 0]], ?w1, ?w2, ?w3, ?w4, ?w5, ?w6, ?w7, ?w8, ?w9, ?w10, ?w11, ?w12, ?w13, ?w14, ?w15, ?w16, ?w17, ?w18, ?w19, ?w20, ?w21, ?w22⟩
  case w22 => exact source_reads (by decide +kernel) (reads_one rfl rfl (by decide +kernel) rfl)
  all_goals decide +kernel

def scO : Op := bodyOp 5 0x12 (leBytes 8 0 ++ leBytes 4 0 ++ leBytes 4 0 ++ leBytes 4 0 ++ leBytes 2 1 ++ leBytes 2 1 ++ leBytes 2 1 ++ leBytes 2 1 ++ leBytes 2 1 ++ leBytes 2 64 ++ [1, 1, 1, 0, 0, 0])
theorem test_hyps_stageConv :
    ∃ (c : Card) (h : Fin 4) (r : Fin 16) (seq : Nat) (c0 d : Card) (o : Op) (src dst ks ms ml kl lanes fl : Nat) (g : Conv2d)
        (x : List (List Byte)), c.takenUp h.val r.val seq 5 0x12 = some (c0, o) ∧ o.plain ∧ src = leAt o.body 0 8 ∧ dst = leAt
        o.body 8 4 ∧ ks = leAt o.body 0xC 4 ∧ ms = leAt o.body 0x10 4 ∧ ml = leAt o.body 0x1A 2 ∧ kl = leAt o.body 0x1C 2 ∧
        lanes = leAt o.body 0x1E 2 ∧ fl = leAt o.body 0x25 1 ∧ g =
        { h := leAt o.body 0x14 2, w := leAt o.body 0x16 2, c := leAt o.body 0x18 2, rk := leAt o.body 0x20 1, sk := leAt o.body 0x21 1, stride := leAt o.body 0x22 1, pad := leAt o.body 0x23 1, layout := leAt o.body 0x24 1 }
        ∧ g.ok = true ∧ lanesOk lanes = true ∧ 1 ≤ ml ∧ ml ≤ 4096 ∧ 1 ≤ kl ∧ kl ≤ lanes ∧ fl &&& 0xF8 = 0 ∧ nbit fl 1 = false ∧
        leNat (o.body.drop 0x26) = 0 ∧ ms + ml ≤ g.p * g.q ∧ ks + kl ≤ g.rk * g.sk * g.ck ∧ dst % 64 = 0 ∧ dst + (ml + lanes -
        1) * lanes * stElem fl ≤ (c0.staging h.val).2 ∧ c0.sourceOk h.val o (stSrc fl) ((g.reads ks kl ms ml).map (fun k => (src
        + k * stElem fl, stElem fl))) ∧ SourceTo h.val o (stSrc fl) ((g.reads ks kl ms ml).map (fun k => (src + k * stElem fl,
        stElem fl))) c0 x d :=
  by
  refine ⟨opCard scO, 0, 0, 1, (opCard scO).drawXlate, readOf 0 1 (opCard scO).drawXlate, scO, 0, 0, 0, 0, 1, 1, 64, 0, ⟨1, 1, 1, 1, 1, 1, 0, 0⟩, [[0]], ?w1, ?w2, ?w3, ?w4, ?w5, ?w6, ?w7, ?w8, ?w9, ?w10, ?w11, ?w12, ?w13, ?w14, ?w15, ?w16, ?w17, ?w18, ?w19, ?w20, ?w21, ?w22, ?w23, ?w24, ?w25, ?w26⟩
  case w26 => exact source_reads (by decide +kernel) (reads_one rfl rfl (by decide +kernel) rfl)
  all_goals decide +kernel

def doB : List Byte := [0, 2, 0, 8] ++ leBytes 2 64 ++ leBytes 2 64 ++ [30, 3, 0, 0, 1, 0, 0, 0] ++ leBytes 8 0x80000 ++ leBytes 4 0x30000 ++ leBytes 2 16 ++ leBytes 2 0 ++ leBytes 8 0 ++ leBytes 8 0x200000 ++ leBytes 2 0
def doO : Op := bodyOp 1 1 doB
def doC : Card := ({ mapCard with active := [(0, some { mapLayout with ringClass := 2 })], mem := (mapCard.mem.filter (fun x => decide (x.1 < 9347))) ++ [(9352, 0x0B), (9353, 0x03)] ++ (mapCard.mem.filter (fun x => decide (9347 ≤ x.1))) ++ (List.range 9).map (fun i => (14080 + 8 * i, 0x1B)) } : Card).setRing 0 0 { q := [doO] }
theorem test_hyps_decodeOpen :
    ∃ (c : Card) (h : Fin 4) (r : Fin 16) (seq : Nat) (c0 : Card) (o : Op) (b : List Byte), c.takenUp h.val r.val seq 1 1 = some
        (c0, o) ∧ o.plain ∧ b = o.body ∧ leAt b 0 1 < 64 ∧ (1 ≤ leAt b 1 1 ∧ leAt b 1 1 ≤ 5) ∧ leAt b 2 1 ≤ 1 ∧ (leAt b 3 1 = 8
        ∨ (leAt b 3 1 = 10 ∧ leAt b 1 1 ≠ 1 ∧ leAt b 1 1 ≠ 2)) ∧ (16 ≤ leAt b 4 2 ∧ leAt b 4 2 ≤ 8192) ∧ (16 ≤ leAt b 6 2 ∧ leAt
        b 6 2 ≤ 4352) ∧ (1 ≤ leAt b 8 1 ∧ leAt b 8 1 ≤ 120) ∧ (3 ≤ leAt b 9 1 ∧ leAt b 9 1 ≤ 32) ∧ (1 ≤ leAt b 0xC 1 ∧ leAt b
        0xC 1 ≤ 4) ∧ leAt b 0xD 3 = 0 ∧ leAt b 0x10 8 % 65536 = 0 ∧ leAt b 0x18 4 % 65536 = 0 ∧ (slotLayout (leAt b 4 2) (leAt b
        6 2) (leAt b 3 1)).2.2.2 ≤ leAt b 0x18 4 ∧ (16 ≤ leAt b 0x1C 2 ∧ leAt b 0x1C 2 ≤ 1024) ∧ leAt b 0x1E 2 < 4096 ∧ leAt b
        0x20 8 % 64 = 0 ∧ leAt b 0x28 8 % 65536 = 0 ∧ leAt b 0x30 2 < 16384 ∧ leNat (b.drop 0x32) = 0 ∧ c0.stream h.val (leAt b
        0 1) = none ∧ (∀ x, c0.ringVf h.val r.val = some x → c0.vfHasSem h.val x (leAt b 0x1E 2) = true) ∧ c0.semVisible h.val
        (leAt b 0x30 2) = true ∧ c0.sparsePicture h.val o.ctx (leAt b 0x10 8) (leAt b 9 1 * leAt b 0x18 4) = true ∧ c0.inPicture
        h.val o.ctx (leAt b 0x28 8) (leAt b 0x1C 2 * 65536) true = true ∧ c0.inPicture h.val o.ctx (leAt b 0x20 8) (64 * leAt b
        9 1) false = true ∧ c0.ringClass h.val r.val ≠ 1 :=
  ⟨doC, 0, 0, 1, doC.drawXlate, doO, doO.body, by decide +kernel⟩

def dfO : Op := bodyOp 1 2 (leBytes 8 0 ++ leBytes 4 4 ++ [0, 0, 0, 0])
def dfC : Card := (opCard dfO).setStream 0 0 (some aStream)
theorem test_hyps_decodeFeed :
    ∃ (c : Card) (h : Fin 4) (r : Fin 16) (f : FeedScan) (c0 d : Card) (o : Op) (t : Stream) (sid n : Nat) (bs : List Byte) (key
        : Option KeySlot) (e : Card × List Byte), c.takenUp h.val r.val f.seq 1 2 = some (c0, o) ∧ o.plain ∧ sid = leAt o.body
        0xC 1 ∧ n = leAt o.body 8 4 ∧ key = tabGet none c0.keys (64 * h.val + leAt o.body 0xF 1) ∧ feedInRange o.body = true ∧
        c0.stream h.val sid = some t ∧ t.closing = false ∧ t.ring = r.val ∧ c0.feedSource h.val o.ctx (leAt o.body 0 8) n = true
        ∧ (leAt o.body 0xE 1 = 0 ∨ key.any (fun k => k.ctx == o.ctx) = true) ∧ leAt o.body 0x28 2 = 0 ∧ ReadsTo h.val o [(leAt
        o.body 0 8, n)] c0 [bs] d ∧ e = d.enqueue h.val sid
        { t with disc := false, starts := t.starts ++ f.starts.map (fun x => t.tail + x) } (feedMark o.body t.disc) (d.feedClear
        h.val o.body [] bs) ∧ e.2 = [] :=
  by
  refine ⟨dfC, 0, 0, ⟨1, []⟩, dfC.drawXlate, readOf 0 4 dfC.drawXlate, dfO, aStream, 0, 4, [0, 0, 0, 0], none, (readOf 0 4 dfC.drawXlate).enqueue 0 0 { aStream with disc := false, starts := [] } (feedMark dfO.body false) ((readOf 0 4 dfC.drawXlate).feedClear 0 dfO.body [] [0, 0, 0, 0]), ?w1, ?w2, ?w3, ?w4, ?w5, ?w6, ?w7, ?w8, ?w9, ?w10, ?w11, ?w12, ?w13, ?w14, ?w15⟩
  case w14 => exact by decide +kernel
  case w13 => exact reads_one rfl rfl (by decide +kernel) rfl
  all_goals decide +kernel

def ddO : Op := bodyOp 1 3 []
def ddC : Card := (opCard ddO).setStream 0 0 (some aStream)
theorem test_hyps_decodeDrain :
    ∃ (c : Card) (h : Fin 4) (r : Fin 16) (seq : Nat) (order : List Nat) (c0 : Card) (o : Op) (t : Stream) (sid : Nat),
        c.takenUp h.val r.val seq 1 3 = some (c0, o) ∧ o.plain ∧ sid = leAt o.body 0 1 ∧ sid < 64 ∧ leAt o.body 1 1 = 0 ∧ leNat
        (o.body.drop 2) = 0 ∧ c0.stream h.val sid = some t ∧ t.closing = false ∧ t.ring = r.val ∧ t.pics.any (fun p =>
        p.decoding) = false ∧ t.tail = t.head :=
  ⟨ddC, 0, 0, 1, [], ddC.drawXlate, ddO, aStream, 0, by decide +kernel⟩

def dcO : Op := bodyOp 1 4 []
def dcC : Card := (opCard dcO).setStream 0 0 (some aStream)
theorem test_hyps_decodeClose :
    ∃ (c : Card) (h : Fin 4) (r : Fin 16) (seq : Nat) (c0 : Card) (o : Op) (t : Stream) (sid : Nat), c.takenUp h.val r.val seq 1
        4 = some (c0, o) ∧ o.plain ∧ sid = leAt o.body 0 1 ∧ sid < 64 ∧ leNat (o.body.drop 1) = 0 ∧ c0.stream h.val sid = some t
        ∧ t.closing = false ∧ t.ring = r.val ∧ t.pics.any (fun p => p.decoding) = false :=
  ⟨dcC, 0, 0, 1, dcC.drawXlate, dcO, aStream, 0, by decide +kernel⟩

def prO : Op := { bodyOp 2 1 (leBytes 8 0 ++ leBytes 8 0x50000 ++ leBytes 8 0 ++ leBytes 8 0 ++ leBytes 4 1 ++ [1, 1, 0, 0] ++ leBytes 2 1 ++ leBytes 2 1 ++ [1, 0, 1, 0xFF]) with started := false }
def prC : Card := { (opCard prO).setN 0x1D1000 0x80000000 with mem := mapCard.mem ++ [(2097154, 1), (2097164, 16), (2097166, 16), (2097176, 8), (2162695, 128), (2162700, 1), (2162702, 1)] }
def prTab : List Byte := [0, 0, 1, 0] ++ List.replicate 8 0 ++ [16, 0, 16, 0] ++ List.replicate 8 0 ++ [8] ++ List.replicate 7 0
def prLst : List Byte := [0, 0, 0, 0, 0, 0, 0, 128, 0, 0, 0, 0, 1, 0, 1, 0]
def prP : Op := { prO with started := true, unit := 0 }
def prS : Card := (prC.startOp 0 prO 0).1
theorem test_hyps_prepare :
    ∃ (c : Card) (h : Fin 4) (r : Fin 16) (seq : Nat) (order : List Nat) (c0 c1 : Card) (o o1 : Op) (ts ls : List Byte) (p :
        Prep), c.opOf h.val r.val seq = some o1 ∧ o1.started = false ∧ c.takenUp h.val r.val seq 2 1 = some (c0, o) ∧ o.plain ∧
        prepInRange o.body = true ∧ leAt o.body 0x2F 1 = 0xFF ∧ leAt o.body 0x18 8 = 0 ∧ leAt o.body 0x25 1 = 1 ∧ c0.passes
        h.val o.ctx (leAt o.body 0 8) (32 * leAt o.body 0x24 1) false false ∧ c0.passes h.val o.ctx (leAt o.body 8 8) (16 * leAt
        o.body 0x20 4) false false ∧ c0.atHand h.val o (leAt o.body 8 8) (16 * leAt o.body 0x20 4) ∧ ReadsTo h.val o [(leAt
        o.body 0 8, 32 * leAt o.body 0x24 1), (leAt o.body 8 8, 16 * leAt o.body 0x20 4)] c0 [ts, ls] c1 ∧ p =
        { b := o.body, ts := ts, ls := ls } ∧ p.src.all (srcInRange p.chans) = true ∧ p.smp.all (smpInRange p) = true ∧ (∀ g ∈
        p.src.flatMap p.srcRanges, c1.passes h.val o.ctx g.1 g.2 false false ∧ c1.atHand h.val o g.1 g.2) ∧ p.dst + p.count *
        p.bytes ≤ (c1.staging h.val).2 :=
  by
  refine ⟨prC, 0, 0, 1, [0], prS, readOf 0x50000 16 (readOf 0 32 prS), prP, prO, prTab, prLst, { b := prP.body, ts := prTab, ls := prLst }, ?w1, ?w2, ?w3, ?w4, ?w5, ?w6, ?w7, ?w8, ?w9, ?w10, ?w11, ?w12, ?w13, ?w14, ?w15, ?w16, ?w17⟩
  case w12 => exact reads_cons rfl rfl (by decide +kernel) (reads_one rfl rfl (by decide +kernel) rfl)
  all_goals decide +kernel

def wkD (a : Nat) : List Byte := leBytes 8 a ++ leBytes 4 0 ++ [0, 1, 0, 0]
def wkB (fn : Nat) (b : List Byte) : List Byte := leBytes 4 1 ++ leBytes 4 1 ++ leBytes 4 fn ++ leBytes 4 0 ++ wkD 0 ++ b ++ wkD 64
def wkMapO : Op := bodyOp 4 1 (wkB 1 (wkD 32))
theorem test_hyps_whiskMap :
    ∃ (c : Card) (h : Fin 4) (r : Fin 16) (seq : Nat) (c0 : Card) (o : Op) (w : WkBody), c.takenUp h.val r.val seq 4 1 = some
        (c0, o) ∧ o.plain ∧ w =
        { rows := leAt o.body 0 4, cols := leAt o.body 4 4, fn := leAt o.body 8 1, param := leAt o.body 0xC 4, a := descAt o.body 0x10, b := descAt o.body 0x20, d := (descAt o.body 0x30).dest }
        ∧ (1 ≤ w.rows ∧ w.rows < 2 ^ 24) ∧ (1 ≤ w.cols ∧ w.cols ≤ 65536) ∧ leAt o.body 9 3 = 0 ∧ w.fn ≤ 14 ∧ w.a.ok w.cols false
        = true ∧ w.d.ok w.cols true = true ∧ w.d.zc = false ∧ (w.d.narrow && w.d.s2Tensor) = false ∧ (if binaryFn w.fn then
        w.b.ok w.cols false = true ∧ w.b.staging = true ∧ w.b.addr + w.b.extent w.rows w.cols ≤ (c0.staging h.val).2 else
        w.b.none_ = true) ∧ w.a.staging = true ∧ w.a.addr + w.a.extent w.rows w.cols ≤ (c0.staging h.val).2 ∧ w.d.staging = true
        ∧ w.d.addr + w.d.extent w.rows w.cols ≤ (c0.staging h.val).2 ∧ c0.stagingClean h.val :=
  by
  refine ⟨opCard wkMapO, 0, 0, 1, (opCard wkMapO).drawXlate, wkMapO, { rows := leAt wkMapO.body 0 4, cols := leAt wkMapO.body 4 4, fn := leAt wkMapO.body 8 1, param := leAt wkMapO.body 0xC 4, a := descAt wkMapO.body 0x10, b := descAt wkMapO.body 0x20, d := (descAt wkMapO.body 0x30).dest }, ?w1, ?w2, ?w3, ?w4, ?w5, ?w6, ?w7, ?w8, ?w9, ?w10, ?w11, ?w12, ?w13, ?w14, ?w15, ?w16, ?w17⟩
  case w17 => exact ⟨by decide +kernel, fun _ => rfl⟩
  all_goals decide +kernel

def wkReduceO : Op := bodyOp 4 2 (wkB 0 (List.replicate 16 0))
theorem test_hyps_whiskReduce :
    ∃ (c : Card) (h : Fin 4) (r : Fin 16) (seq : Nat) (c0 : Card) (o : Op) (w : WkBody) (d : Desc), c.takenUp h.val r.val seq 4
        2 = some (c0, o) ∧ o.plain ∧ w =
        { rows := leAt o.body 0 4, cols := leAt o.body 4 4, fn := leAt o.body 8 1, param := leAt o.body 0xC 4, a := descAt o.body 0x10, b := descAt o.body 0x20, d := (descAt o.body 0x30).dest }
        ∧ (d = if w.fn % 128 = 5 then { w.d with fmt := 7 } else w.d) ∧ (1 ≤ w.rows ∧ w.rows < 2 ^ 24) ∧ (1 ≤ w.cols ∧ w.cols ≤
        65536) ∧ leAt o.body 9 3 = 0 ∧ w.fn % 128 ≤ 5 ∧ w.a.ok w.cols false = true ∧ w.b.none_ = true ∧ w.d.ok 1 false = true ∧
        d.ok 1 false = true ∧ (w.d.narrow && w.d.s2Tensor) = false ∧ w.a.staging = true ∧ w.a.addr + w.a.extent w.rows w.cols ≤
        (c0.staging h.val).2 ∧ d.staging = true ∧ (d.addr + d.extent (if nbit w.fn 7 then 1 else w.rows) 1 ≤ (c0.staging
        h.val).2) ∧ c0.stagingClean h.val :=
  by
  refine ⟨opCard wkReduceO, 0, 0, 1, (opCard wkReduceO).drawXlate, wkReduceO, { rows := leAt wkReduceO.body 0 4, cols := leAt wkReduceO.body 4 4, fn := leAt wkReduceO.body 8 1, param := leAt wkReduceO.body 0xC 4, a := descAt wkReduceO.body 0x10, b := descAt wkReduceO.body 0x20, d := (descAt wkReduceO.body 0x30).dest }, (descAt wkReduceO.body 0x30).dest, ?w1, ?w2, ?w3, ?w4, ?w5, ?w6, ?w7, ?w8, ?w9, ?w10, ?w11, ?w12, ?w13, ?w14, ?w15, ?w16, ?w17, ?w18⟩
  case w18 => exact ⟨by decide +kernel, fun _ => rfl⟩
  all_goals decide +kernel

def wkNormO : Op := bodyOp 4 3 (wkB 0 (List.replicate 16 0))
theorem test_hyps_whiskNorm :
    ∃ (c : Card) (h : Fin 4) (r : Fin 16) (seq : Nat) (c0 : Card) (o : Op) (w : WkBody), c.takenUp h.val r.val seq 4 3 = some
        (c0, o) ∧ o.plain ∧ w =
        { rows := leAt o.body 0 4, cols := leAt o.body 4 4, fn := leAt o.body 8 1, param := leAt o.body 0xC 4, a := descAt o.body 0x10, b := descAt o.body 0x20, d := (descAt o.body 0x30).dest }
        ∧ (1 ≤ w.rows ∧ w.rows < 2 ^ 24) ∧ (1 ≤ w.cols ∧ w.cols ≤ 65536) ∧ leAt o.body 9 3 = 0 ∧ w.fn ≤ 2 ∧ w.a.ok w.cols false
        = true ∧ (if w.fn = 0 then w.b.none_ = true else w.b.ok w.cols false = true ∧ w.b.staging = true ∧ w.b.addr + w.b.extent
        (if w.fn = 1 then 2 else 1) w.cols ≤ (c0.staging h.val).2) ∧ w.d.ok w.cols false = true ∧ (w.d.narrow && w.d.s2Tensor) =
        false ∧ w.a.staging = true ∧ w.a.addr + w.a.extent w.rows w.cols ≤ (c0.staging h.val).2 ∧ w.d.staging = true ∧ w.d.addr
        + w.d.extent w.rows w.cols ≤ (c0.staging h.val).2 ∧ c0.stagingClean h.val :=
  by
  refine ⟨opCard wkNormO, 0, 0, 1, (opCard wkNormO).drawXlate, wkNormO, { rows := leAt wkNormO.body 0 4, cols := leAt wkNormO.body 4 4, fn := leAt wkNormO.body 8 1, param := leAt wkNormO.body 0xC 4, a := descAt wkNormO.body 0x10, b := descAt wkNormO.body 0x20, d := (descAt wkNormO.body 0x30).dest }, ?w1, ?w2, ?w3, ?w4, ?w5, ?w6, ?w7, ?w8, ?w9, ?w10, ?w11, ?w12, ?w13, ?w14, ?w15, ?w16⟩
  case w16 => exact ⟨by decide +kernel, fun _ => rfl⟩
  all_goals decide +kernel

def dwD (a : Nat) : List Byte := leBytes 8 a ++ leBytes 4 0 ++ [0, 1, 0, 0]
def dwO : Op := bodyOp 4 4 (leBytes 2 1 ++ leBytes 2 1 ++ leBytes 2 1 ++ leBytes 2 1 ++ [1, 1, 1, 0] ++ leBytes 2 1 ++ [0, 0] ++ List.replicate 16 0 ++ dwD 0 ++ dwD 32 ++ dwD 64)
theorem test_hyps_dwconv :
    ∃ (c : Card) (h : Fin 4) (r : Fin 16) (seq : Nat) (c0 : Card) (o : Op) (g : Conv2d) (cout groups : Nat) (a w d : Desc),
        c.takenUp h.val r.val seq 4 4 = some (c0, o) ∧ o.plain ∧ cout = leAt o.body 6 2 ∧ groups = leAt o.body 0xC 2 ∧ g =
        { h := leAt o.body 0 2, w := leAt o.body 2 2, c := leAt o.body 4 2, rk := leAt o.body 8 1, sk := leAt o.body 9 1, stride := leAt o.body 0xA 1, pad := leAt o.body 0xB 1, layout := leAt o.body 0xE 1 }
        ∧ a = descAt o.body 0x20 ∧ w = descAt o.body 0x30 ∧ d = (descAt o.body 0x40).dest ∧ g.ok = true ∧ (1 ≤ cout ∧ cout ≤
        8192) ∧ (1 ≤ groups ∧ groups ≤ 8192) ∧ leAt o.body 0xF 1 ≤ 1 ∧ leAt o.body 0x14 12 = 0 ∧ (g.c % groups = 0 ∧ cout %
        groups = 0) ∧ (1 ≤ g.c / groups ∧ g.c / groups ≤ 16) ∧ (1 ≤ cout / groups ∧ cout / groups ≤ 16) ∧ (∀ x ∈ [a, w, d],
        x.rsv = true ∧ x.fmt ≤ 7 ∧ x.fmt ≠ 1 ∧ x.addr % max 1 (elemBits x.fmt / 8) = 0 ∧ x.staging = true) ∧ fmtInt a.fmt =
        fmtInt w.fmt ∧ a.addr + layChans g.layout g.c * g.h * g.w * elemBits a.fmt / 8 ≤ (c0.staging h.val).2 ∧ w.addr + cout *
        g.rk * g.sk * (g.c / groups) * elemBits w.fmt / 8 ≤ (c0.staging h.val).2 ∧ d.addr + ceilDiv (layChans g.layout cout *
        g.p * g.q * elemBits d.fmt) 8 ≤ (c0.staging h.val).2 ∧ c0.stagingClean h.val :=
  by
  refine ⟨opCard dwO, 0, 0, 1, (opCard dwO).drawXlate, dwO, ⟨1, 1, 1, 1, 1, 1, 0, 0⟩, 1, 1, descAt dwO.body 0x20, descAt dwO.body 0x30, (descAt dwO.body 0x40).dest, ?w1, ?w2, ?w3, ?w4, ?w5, ?w6, ?w7, ?w8, ?w9, ?w10, ?w11, ?w12, ?w13, ?w14, ?w15, ?w16, ?w17, ?w18, ?w19, ?w20, ?w21, ?w22⟩
  case w22 => exact ⟨by decide +kernel, fun _ => rfl⟩
  all_goals decide +kernel

def tsO : Op := bodyOp 6 1 (leBytes 8 0 ++ leBytes 8 0x50000 ++ leBytes 4 7 ++ leBytes 2 0 ++ leBytes 2 1 ++ leBytes 2 1 ++ leBytes 2 0 ++ leBytes 2 0xFFFF)
def tsD : Card := readOf 0x50000 4 (readOf 0 32 (trackCard tsO).drawXlate)
theorem test_hyps_trackStep :
    ∃ (c : Card) (h : Fin 4) (r : Fin 16) (seq : Nat) (c0 d : Card) (o : Op) (dets leaves : List Byte) (nd nl : Nat) (es : List
        StepEntry), c.takenUp h.val r.val seq 6 1 = some (c0, o) ∧ o.plain ∧ nd = leAt o.body 0x16 2 ∧ nl = leAt o.body 0x18 2 ∧
        c0.tracksReady h.val ∧ stepInRange o.body = true ∧ c0.plainRange h.val o.ctx (leAt o.body 0 8) (32 * nd) false = true ∧
        leAt o.body 0x1A 2 = 0 ∧ (leAt o.body 0x1C 2 = 0xFFFF ∨ ∀ x, c0.ringVf h.val r.val = some x → c0.vfHasSem h.val x (leAt
        o.body 0x1C 2) = true) ∧ (c0.tracker h.val).reqs.length < 256 ∧ c0.atHand h.val o (leAt o.body 8 8) (4 * nl) ∧ ReadsTo
        h.val o [(leAt o.body 0 8, 32 * nd), (leAt o.body 8 8, 4 * nl)] c0 [dets, leaves] d ∧ (∀ i < nd, leAt dets (32 * i +
        0x10) 4 % 64 = 0 ∧ leAt dets (32 * i + 0x10) 4 + 992 ≤ (c0.staging h.val).2 ∧ leNat ((dets.drop (32 * i + 0x14)).take
        12) = 0) ∧ es = (c0.stepEntries h.val o.ctx (leAt o.body 0x14 2) ((List.range nl).map (fun i => leAt leaves (4 * i) 4))
        ((List.range nd).map (fun i => (dets.drop (32 * i)).take 32))).1 :=
  by
  refine ⟨trackCard tsO, 0, 0, 1, (trackCard tsO).drawXlate, tsD, tsO, List.replicate 32 0, List.replicate 4 0, 1, 1, ((trackCard tsO).drawXlate.stepEntries 0 1 0 [0] [List.replicate 32 0]).1, ?w1, ?w2, ?w3, ?w4, ?w5, ?w6, ?w7, ?w8, ?w9, ?w10, ?w11, ?w12, ?w13, ?w14⟩
  case w14 => exact rfl
  case w12 => exact reads_cons rfl rfl (by decide +kernel) (reads_one rfl rfl (by decide +kernel) rfl)
  all_goals decide +kernel

def tbO : Op := bodyOp 6 2 (leBytes 8 0 ++ leBytes 4 0 ++ leBytes 4 0x10000 ++ leBytes 4 0x20000 ++ leBytes 2 8)
def tbC : Card := (trackCard tbO).setTracker 0 { reqs := [⟨0, 0, 1, 1, false, 0, 7, 0, 0xFFFF, [⟨2, 0, List.replicate 32 0, 0⟩], 0⟩] }
theorem test_hyps_trackBatch :
    ∃ (c : Card) (h : Fin 4) (r : Fin 16) (seq : Nat) (c0 : Card) (o : Op) (k : Taking) (bucket reg off : Nat) (l : Leaf) (e :
        RegionEnt), c.takenUp h.val r.val seq 6 2 = some (c0, o) ∧ o.plain ∧ c0.tracksReady h.val ∧ (c0.tracker h.val).batch =
        none ∧ k = c0.takeAll h.val (leAt o.body 0x14 2) ∧ bucket = bucketOf k.pos.length ∧ (∀ p ∈ k.pos, p.kind = 2 ∨
        ((c0.tracker h.val).track p.idx).now.len = 0) ∧ leAt o.body 0 8 % 64 = 0 ∧ leAt o.body 8 4 % 64 = 0 ∧ leAt o.body 0xC 4
        % 64 = 0 ∧ leAt o.body 0x10 4 % 64 = 0 ∧ pow2ok (leAt o.body 0x14 2) = true ∧ leNat (o.body.drop 0x16) = 0 ∧
        c0.plainRange h.val o.ctx (leAt o.body 0 8) (64 + 32 * bucket) false = true ∧ leAt o.body 8 4 + bucket * 1024 ≤
        (c0.staging h.val).2 ∧ leAt o.body 0xC 4 + bucket * roundUp ((c0.kvGeom h.val).2.2.2 * (c0.kvGeom h.val).2.2.1) 64 ≤
        (c0.staging h.val).2 ∧ leAt o.body 0x10 4 + bucket * roundUp (2 * (c0.kvGeom h.val).2.2.2) 64 ≤ (c0.staging h.val).2 ∧
        leAt o.body 0 8 % 65536 + 64 + 32 * bucket ≤ 65536 ∧ (c0.translate h.val o.ctx (leAt o.body 0 8)).toOption = some l ∧
        l.to_ = .card reg off ∧ l.write = true ∧ (l.sparse && !l.backed) = false ∧ (c0.region o.ctx reg (off + l.pageOff (leAt
        o.body 0 8)) (64 + 32 * bucket)).toOption = some e ∧ c0.anyLost e (off + l.pageOff (leAt o.body 0 8)) (64 + 32 * bucket)
        = false ∧ c0.heldVa h.val o.ctx true (leAt o.body 0 8) (64 + 32 * bucket) = false ∧ c0.stagingClean h.val :=
  by
  refine ⟨tbC, 0, 0, 1, tbC.drawXlate, tbO, tbC.drawXlate.takeAll 0 8, 8, 2, 0, ⟨.card 2 0, false, true, false, false, false, 0, 0x20B, 1, 12288⟩, ⟨2, 0, 1, 1, 2⟩, ?w1, ?w2, ?w3, ?w4, ?w5, ?w6, ?w7, ?w8, ?w9, ?w10, ?w11, ?w12, ?w13, ?w14, ?w15, ?w16, ?w17, ?w18, ?w19, ?w20, ?w21, ?w22, ?w23, ?w24, ?w25, ?w26⟩
  case w26 => exact ⟨by decide +kernel, fun _ => rfl⟩
  case w5 => exact rfl
  all_goals decide +kernel

def tuO : Op := bodyOp 6 3 (leBytes 4 0 ++ leBytes 4 0x400 ++ leBytes 4 0x800)
def tuP : BatchPos := ⟨0, 2, 0, List.replicate 32 0, 7, 0, 1, 1, false, 0xFFFF⟩
def tuC : Card := (trackCard tuO).setTracker 0 { batch := some ⟨[tuP], 0, false, 1, 0, 0⟩, steps := 1 }
theorem test_hyps_trackUpdate :
    ∃ (c : Card) (h : Fin 4) (r : Fin 16) (seq : Nat) (c0 : Card) (o : Op) (b : Batch) (p : BatchPos) (base stride tok cap :
        Nat) (before : TrackNow) (m : Card × Op), c.takenUp h.val r.val seq 6 3 = some (c0, o) ∧ o.plain ∧ c0.tracksReady h.val
        ∧ leAt o.body 0xC 4 = 0 ∧ (c0.tracker h.val).batch = some b ∧ b.withdrawn = false ∧ b.epoch = 0 ∧ b.pos = [p] ∧
        c0.kvGeom h.val = (base, stride, tok, cap) ∧ leAt o.body 0 4 + 32 ≤ (c0.staging h.val).2 ∧ leAt o.body 4 4 + 1024 ≤
        (c0.staging h.val).2 ∧ leAt o.body 8 4 + roundUp tok 64 ≤ (c0.staging h.val).2 ∧ c0.stagingClean h.val ∧ (before = if
        p.kind = 2 then { half := 1 } else ((c0.tracker h.val).track p.idx).now) ∧ WriteTo h.val r.val (base + p.idx * stride +
        (before.first + before.len) % cap * tok) (c0.sramRd h.val ((c0.staging h.val).1 + leAt o.body 8 4) tok) (c0, o) m :=
  by
  refine ⟨tuC, 0, 0, 1, tuC.drawXlate, tuO, ⟨[tuP], 0, false, 1, 0, 0⟩, tuP, 0x100, 4096, 64, 8, { half := 1 }, writeOf 0x100 (List.replicate 64 0) (tuC.drawXlate, tuO), ?w1, ?w2, ?w3, ?w4, ?w5, ?w6, ?w7, ?w8, ?w9, ?w10, ?w11, ?w12, ?w13, ?w14, ?w15⟩
  case w15 => exact by rw [show tuC.drawXlate.sramRd _ _ _ = List.replicate 64 0 by decide +kernel]; exact ⟨by decide +kernel, by decide +kernel, by decide +kernel, rfl⟩
  case w13 => exact ⟨by decide +kernel, fun _ => rfl⟩
  all_goals decide +kernel

def tpO : Op := bodyOp 6 4 (leBytes 8 0x50000 ++ leBytes 4 64)
def tpC : Card := { (trackCard tpO).setN 0x1B0018 0x100 with owners := [(1, { mask := 0 }), (2, { mask := 0 }), (3, { mask := 0 })], mem := (mapCard.mem.filter (fun x => decide (x.1 < 14056))) ++ [(14056, 0x0B), (14057, 0x01), (14058, 0x01)] }
theorem test_hyps_trackSwap :
    ∃ (c : Card) (h : Fin 4) (r : Fin 16) (seq : Nat) (c0 d : Card) (o o' : Op) (src n : Nat), c.takenUp h.val r.val seq 6 4 =
        some (c0, o) ∧ o.plain ∧ src = leAt o.body 0 8 ∧ n = leAt o.body 8 4 ∧ c0.tracksReady h.val ∧ n % 64 = 0 ∧ n ≤ 0x4000000
        ∧ leAt o.body 0xC 4 = 0 ∧ c0.plainRange h.val o.ctx src n true = true ∧ (c0.tracker h.val).batch = none ∧ c0.atHand
        h.val o src n ∧ CopiesTo h.val r.val src (c0.pair (hp h.val 0xB0018) (hp h.val 0xB001C)) (chunks n) (c0, o) (d, o') :=
  by
  refine ⟨tpC, 0, 0, 1, tpC.drawXlate, (writeOf 0x100 (List.replicate 64 0) (readOf 0x50000 64 tpC.drawXlate, tpO)).1, tpO, (writeOf 0x100 (List.replicate 64 0) (readOf 0x50000 64 tpC.drawXlate, tpO)).2, 0x50000, 64, ?w1, ?w2, ?w3, ?w4, ?w5, ?w6, ?w7, ?w8, ?w9, ?w10, ?w11, ?w12⟩
  case w12 => exact copies_one (x := (0, 64)) (bs := List.replicate 64 0) (by decide +kernel) (by decide +kernel) (reads_one rfl rfl (by decide +kernel) rfl) ⟨by decide +kernel, by decide +kernel, by decide +kernel, by rw [show tpC.drawXlate.pair (hp (0 : Fin 4).val 0xB0018) (hp (0 : Fin 4).val 0xB001C) + ((0, 64) : Nat × Nat).1 = 0x100 from by decide +kernel]; rfl⟩
  all_goals decide +kernel

def twO : Op := bodyOp 6 5 (leBytes 2 1)
def twC : Card := (trackCard twO).setEpoch 0 1 { state := 1 }
theorem test_hyps_trackWithdraw :
    ∃ (c : Card) (h : Fin 4) (r : Fin 16) (seq : Nat) (c0 d : Card) (o : Op) (e : Nat), c.takenUp h.val r.val seq 6 5 = some
        (c0, o) ∧ o.plain ∧ e = leAt o.body 0 2 ∧ c0.tracksReady h.val ∧ e ≠ 0 ∧ leNat (o.body.drop 2) = 0 ∧ c0.unsettled h.val
        e = true ∧ c0.retractRoom h.val e (some r.val) = true ∧ d = c0.withdrawEpoch h.val e 3 (some r.val) :=
  by
  refine ⟨twC, 0, 0, 1, twC.drawXlate, twC.drawXlate.withdrawEpoch 0 1 3 (some 0), twO, 1, ?w1, ?w2, ?w3, ?w4, ?w5, ?w6, ?w7, ?w8, ?w9⟩
  case w9 => exact rfl
  all_goals decide +kernel

def emO : Op := bodyOp 8 2 (leBytes 8 0 ++ leBytes 8 0 ++ leBytes 4 1)
def emC : Card := { opCard emO with mem := mapCard.mem ++ [(2097152, 3)] }
theorem test_hyps_emit :
    ∃ (c : Card) (h : Fin 4) (r : Fin 16) (seq : Nat) (c0 d : Card) (o : Op) (n : Nat) (src : List Byte), c.takenUp h.val r.val
        seq 8 2 = some (c0, o) ∧ o.plain ∧ n = leAt o.body 0x10 4 ∧ leAt o.body 0 8 % 64 = 0 ∧ 1 ≤ n ∧ n ≤ 4096 ∧ c0.passes
        h.val o.ctx (leAt o.body 0 8) (64 * n) false true ∧ ReadsTo h.val o [(leAt o.body 0 8, 64 * n)] c0 [src] d ∧ (∀ i < n,
        imageOk (src.drop (64 * i)) = true) :=
  by
  refine ⟨emC, 0, 0, 1, emC.drawXlate, readOf 0 64 emC.drawXlate, emO, 1, 3 :: List.replicate 63 0, ?w1, ?w2, ?w3, ?w4, ?w5, ?w6, ?w7, ?w8, ?w9⟩
  case w8 => exact reads_one rfl rfl (by decide +kernel) rfl
  all_goals decide +kernel

def etO : Op := bodyOp 8 1 (leBytes 8 0 ++ leBytes 8 0x50000 ++ leBytes 8 0x20000 ++ leBytes 8 0x20000 ++ leBytes 8 0 ++ leBytes 4 1 ++ leBytes 2 0 ++ leBytes 2 16 ++ leBytes 2 16 ++ [3])
theorem test_hyps_emitMotion :
    ∃ (c : Card) (h : Fin 4) (r : Fin 16) (seq : Nat) (c0 d : Card) (o : Op) (n st wd ht bs f : Nat) (res blk : List Byte),
        c.takenUp h.val r.val seq 8 1 = some (c0, o) ∧ o.plain ∧ n = leAt o.body 0x28 4 ∧ st = leAt o.body 0x2C 2 ∧ wd = leAt
        o.body 0x2E 2 ∧ ht = leAt o.body 0x30 2 ∧ bs = leAt o.body 0x32 1 ∧ 1 ≤ n ∧ n ≤ 65536 ∧ (st < 64 ∨ (0x100 ≤ st ∧ st <
        0x110) ∨ st = 0xFFFF) ∧ (16 ≤ wd ∧ wd ≤ 8192) ∧ (16 ≤ ht ∧ ht ≤ 8192) ∧ (3 ≤ bs ∧ bs ≤ 6) ∧ c0.passes h.val o.ctx (leAt
        o.body 0 8) (32 * n) false true ∧ c0.passes h.val o.ctx (leAt o.body 8 8) (16 * n) false true ∧ c0.atHand h.val o (leAt
        o.body 8 8) (16 * n) ∧ ReadsTo h.val o [(leAt o.body 0 8, 32 * n), (leAt o.body 8 8, 16 * n)] c0 [res, blk] d ∧ f =
        d.picFlags h.val o.ctx (leAt o.body 0x10 8) ||| d.picFlags h.val o.ctx (leAt o.body 0x18 8) :=
  by
  refine ⟨opCard etO, 0, 0, 1, (opCard etO).drawXlate, readOf 0x50000 16 (readOf 0 32 (opCard etO).drawXlate), etO, 1, 0, 16, 16, 3, (readOf 0x50000 16 (readOf 0 32 (opCard etO).drawXlate)).picFlags 0 1 0x20000, List.replicate 32 0, List.replicate 16 0, ?w1, ?w2, ?w3, ?w4, ?w5, ?w6, ?w7, ?w8, ?w9, ?w10, ?w11, ?w12, ?w13, ?w14, ?w15, ?w16, ?w17, ?w18⟩
  case w17 => exact reads_cons rfl rfl (by decide +kernel) (reads_one rfl rfl (by decide +kernel) rfl)
  all_goals decide +kernel

/-! ### The hypotheses of the other statements are met -/

/-- The card after a step of its own, hamper 0's function not READY, and the same with its VF. -/
def coldCard : Card := { upCard with regs := [(0x30, 7)] }

theorem test_hyps_IdleStepTicks : ∃ s : State, s.pending = [] := ⟨State.reset, rfl⟩

theorem test_hyps_EngineRowsApplyTheirWork : ∃ (c c0 : Card) (o : Op) (z : Run), c.takenUp 0 0 1 1 4 = some (c0, o) ∧
    closeWork.run.run { card := c0, op := o, h := 0, r := 0 } = (.ok (), z) :=
  ⟨dcC, dcC.drawXlate, dcO, (closeWork.run.run { card := dcC.drawXlate, op := dcO, h := 0, r := 0 }).2, by decide +kernel, Prod.ext rfl rfl⟩

theorem test_hyps_StepsKeepCanonical : ∃ s t : State, s.Canonical ∧ step s = .next t :=
  ⟨State.reset, State.tick State.reset, ⟨rfl, rfl, rfl, rfl⟩, rfl⟩

theorem test_hyps_ReachableCanonical : ∃ s : State, Reachable s := ⟨State.reset, .reset⟩

theorem test_hyps_BlownFusesStayBlown : ∃ (s t : State) (w i : Nat), step s = .next t ∧
    (tabGet 0 s.card.blown w : Word).getLsbD i = true :=
  ⟨{ pending := [], card := { blown := [(36, 1)] } }, _, 36, 0, rfl, by decide⟩

theorem test_hyps_TimeNeverGoesBack : ∃ s t : State, step s = .next t ∧
    ∀ i, s.pending.head? = some i → (match i with | .powerGood | .conventionalReset | .slotPowerLost => False | _ => True) :=
  ⟨State.reset, _, rfl, fun _ h => by cases h⟩

theorem test_hyps_CommandsTouchOnlyTheirFootprint : ∃ (i : Instr) (c d : Card) (part : Part), Becomes i c d ∧ part ∉ footprint i :=
  ⟨.smbusTimeout, {}, {}, .mem, fun _ => rfl, by decide⟩

theorem test_hyps_FrozenHamperAccesses : ∃ (c : Card) (fn : Fn) (h : Nat) (i : Instr) (off : Nat), c.frozen = true ∧
    c.claims fn = true ∧ fn.hamper = some h ∧ hostWriteOf i = some (fn, off) :=
  ⟨upCard.setN 0x5004 0x80000000, .vf 0 0, 0, .doorbell (.vf 0 0) 15 0, _, by decide +kernel, by decide +kernel, rfl, rfl⟩

theorem test_hyps_SearchRanksItsPositions : ∃ (k : Field) (rx ry dx dy : Int), ((dx - k.pdx).natAbs : Int) ≤ rx ∧
    ((dy - k.pdy).natAbs : Int) ≤ ry ∧ k.inside dx dy = true ∧ k.inside dy dx = false :=
  ⟨{ pdx := 1, pdy := 1, inside := fun x y => decide (x < y), sad := fun _ _ => 0 }, 1, 1, 0, 2, by decide⟩

theorem test_hyps_TensorSampleIsWritten : ∃ (c d : Card) (o : Op) (p : Prep) (s : Src) (q : Smp) (px : List (List Byte)),
    o.plain ∧ o.cls = 2 ∧ p = o.prep ∧ p.smp[o.passes]? = some q ∧ p.src[q.src]? = some s ∧ s.fmt = 8 ∧ p.staged = true ∧ p.idVa = 0 ∧
    ReadsTo 0 o ((List.range p.oh).flatMap (fun y => (List.range p.ow).map (fun x => (s.base + y * s.pitch + x * p.c * p.e, p.c * p.e))))
      c.drawXlate px d := by
  refine ⟨prC, readOf 0x10000 1 prC.drawXlate, { prP with rest := prTab ++ prLst }, Op.prep { prP with rest := prTab ++ prLst },
    readSrc prTab, readSmp prLst, [[0]], by decide +kernel, rfl, rfl, by decide +kernel, by decide +kernel, by decide +kernel,
    by decide +kernel, by decide +kernel, reads_one (x := (0x10000, 1)) (by decide +kernel) rfl (by decide +kernel) rfl⟩

theorem test_hyps_NotReadyWritesDropped_pf : ∃ (c : Card) (h : Fin 4) (i : Instr) (off : Nat), c.frozen = false ∧
    hostWriteOf i = some (.pf h, off) ∧ c.claims (.pf h) = true ∧ c.ready (.pf h) = false :=
  ⟨coldCard, 0, .contextEntryWrite 0 0, 0x4000C, by decide +kernel, rfl, by decide +kernel, by decide +kernel⟩

theorem test_hyps_NotReadyWritesDropped_vf : ∃ (c : Card) (h : Fin 4) (v : Fin 8) (i : Instr) (off : Nat), c.frozen = false ∧
    hostWriteOf i = some (.vf h v, off) ∧ c.claims (.vf h v) = true ∧ c.ready (.vf h v) = false :=
  ⟨coldCard, 0, 0, .doorbell (.vf 0 0) 0 1, 0x10000, by decide +kernel, rfl, by decide +kernel, by decide +kernel⟩

theorem test_hyps_DoorbellBeforeReadyDropped : ∃ (c : Card) (h : Fin 4) (u : Fin 8), c.frozen = false ∧ c.claims (.pf h) = true ∧
    c.ready (.pf h) = false ∧ c.claims (.vf h u) = true ∧ c.ready (.vf h u) = false :=
  ⟨coldCard, 0, 0, by decide +kernel⟩

theorem test_hyps_ClosedBlocksDropAndReadReset : ∃ (c : Card) (i : Instr) (off : Nat), c.claims .pf0 = true ∧
    c.bootOpen off = false ∧ hostWriteOf i = some (.pf0, off) ∧ off < 0x10000 ∧ off % 4 = 0 :=
  ⟨upCard.setN 0x30 1, .keepStore 0, 0x3000, by decide +kernel, by decide +kernel, rfl, by decide, by decide⟩

theorem test_hyps_PairWritesHoldTheLowerHalf : ∃ (c : Card) (off k j : Nat), c.reaches .pf0 off = true ∧
    c.pageBlocked .pf0 off = false ∧ c.target .pf0 off = some k ∧ keyIsLo k = true ∧ c.reaches .pf0 (off + 4) = true ∧
    c.regAt .pf0 (off + 4) = some j ∧ keyIsHi j = true ∧ hiIsOwn j = false :=
  ⟨upCard, 0x5034, 0x5034, 0x5038, by decide +kernel⟩

theorem test_hyps_PaceTargetTakesEffectNextWindow : ∃ (c : Card) (h : Fin 4), c.reaches .pf0 (0x1010 + 4 * h.val) = true ∧
    c.on = true ∧ 7 ≤ c.stage :=
  ⟨upCard, 3, by decide +kernel⟩

theorem test_hyps_SenseChangeOnlySetsItsFlag : ∃ c : Card, c.on = true ∧ c.pin.cable.isSome = true :=
  ⟨{ on := true, pin := { cable := some 150 } }, rfl, rfl⟩

theorem test_hyps_SignalsAreAppliedOneByOne : ∃ (c : Card) (h : Fin 4) (g idx op j : Nat), c.reaches (.pf h) 0x20000 = true ∧
    idx < 4096 ∧ op = 1 ∧ j ≠ g :=
  ⟨upCard, 0, 0, 4095, 1, 4096, by decide +kernel⟩

theorem test_hyps_RingFieldsChangeOnlyWhileDisabled : ∃ (c : Card) (h : Fin 4) (r : Fin 16), c.ringState h r ≠ 0 ∧
    c.reaches (.pf h) (0x10008 + 0x1000 * r.val) = true ∧ c.ringVf h r = none :=
  ⟨mapCard, 0, 0, by decide +kernel⟩

theorem test_hyps_RegionAddresses : ∃ (e : RegionEnt) (d x : Nat), maskList e.channels 8 ≠ [] ∧ e.chanAddr d = e.chanAddr x ∧
    d < e.dataSize ∧ e.ecc = true :=
  ⟨⟨1, 1, 0x81, 0, 1⟩, 3670015, 3670015, by decide +kernel⟩

theorem test_hyps_AcceptedLayoutsFit : ∃ (c : Card) (h : Nat) (img : List Byte) (dflt : Bool) (l : Layout),
    (c.checkImage h img dflt).toOption = some l :=
  ⟨imageCard, 0, imageCard.layoutWindow, false, aLayout, by decide +kernel⟩

theorem test_hyps_AcceptedLayoutsKeepRegionsApart : ∃ (c : Card) (l o : Layout) (a b : RegionEnt),
    (c.checkImage 0 imageCard.layoutWindow false).toOption = some l ∧ l.regions[0]? = some a ∧ o ∈ c.otherLayouts 0 ∧
    b ∈ o.regions ∧ maskList b.channels 8 ≠ [] ∧ 0 < a.dataSize ∧ 0 < b.dataSize :=
  ⟨{ imageCard with active := [(1, some { aLayout with hamper := 1, regions := [⟨9, 0, 1, 16, 4⟩] })] }, aLayout,
    { aLayout with hamper := 1, regions := [⟨9, 0, 1, 16, 4⟩] }, ⟨1, 0, 1, 0, 16⟩, ⟨9, 0, 1, 16, 4⟩, by decide +kernel⟩

theorem test_hyps_RegionWriteTouchesOnlyItsBytes : ∃ (c : Card) (e : RegionEnt) (d a : Nat) (bs : List Byte),
    ∀ (i : Nat) (k : Nat × Nat), i < bs.length → c.phys (e.chanAddr (d + i)).1 (e.chanAddr (d + i)).2 = some k →
      a ≠ k.2 ∧ (e.ecc = true → a ≠ (poisonKey k.2).1) :=
  ⟨mapCard, ⟨2, 0, 1, 1, 2⟩, 0, 0, [7], fun i k hi h => by
    obtain rfl : i = 0 := by simpa using hi
    obtain rfl : k = (0, 2097152) := by
      have e : mapCard.phys ((⟨2, 0, 1, 1, 2⟩ : RegionEnt).chanAddr (0 + 0)).1 ((⟨2, 0, 1, 1, 2⟩ : RegionEnt).chanAddr (0 + 0)).2 =
        some (0, 2097152) := by decide +kernel
      simpa [e] using h.symm
    exact ⟨by decide, fun h => absurd h (by decide)⟩⟩

theorem test_hyps_RegionByteReadsBack : ∃ (c : Card) (e : RegionEnt) (d : Nat) (k : Nat × Nat), maskList e.channels 8 ≠ [] ∧
    c.phys (e.chanAddr d).1 (e.chanAddr d).2 = some k ∧ e.ecc = true ∧ (e.ecc && c.poisoned k.2) = false :=
  ⟨mapCard, ⟨1, 1, 1, 0, 1⟩, 447, (0, 447), by decide +kernel⟩

theorem test_hyps_PoolTakesLowestFreeBuffer : ∃ (c : Card) (j : Nat), c.firstFree 0 0 4 0 = some j ∧ 0 < j :=
  ⟨{ bufs := [(0, some ⟨none, 1, 0, 0, false⟩)] }, 1, by decide +kernel⟩

theorem test_hyps_PoolTakesLowestFreeBuffer_none : ∃ c : Card, c.firstFree 0 0 1 0 = none :=
  ⟨{ bufs := [(0, some ⟨none, 1, 0, 0, false⟩)] }, by decide +kernel⟩

theorem test_hyps_KeepStoreImageReadsBack : ∃ l : List KsSection,
    l.Pairwise (fun a b => a.type < b.type ∨ (a.type = b.type ∧ a.index < b.index)) ∧
    (∀ s ∈ l, ∃ ok, ksTypeOk s.type s.index = some (s.cls, ok) ∧ ok s.payload.length = true) ∧
    64 + (l.flatMap KsSection.bytes).length ≤ 65536 :=
  ⟨[⟨3, 4, 2, [1, 2, 3, 4]⟩, ⟨0x20, 0, 3, [0, 0, 0, 1]⟩], by decide, by
    intro s hs
    simp only [List.mem_cons, List.not_mem_nil, or_false] at hs
    rcases hs with rfl | rfl <;> exact ⟨_, rfl, rfl⟩, by decide +kernel⟩

/-! ### The checks of well-formedness refuse an ill-formed command -/

theorem test_wf_accessSize : Instr.wf (.rcFieldRead .pf0 (.mmio 0) 3) = false := by decide
theorem test_wf_accessEnd : Instr.wf (.registerWrite (.mmio .pf0 0xFFFFC 8 0)) = false := by decide
theorem test_wf_bar4Read : Instr.wf (.rcFieldRead (.pf 0) (.bar4 0xFFFE) 4) = false := by decide
theorem test_wf_bar4Doorbell : Instr.wf (.registerWrite (.bar4 (.pf 0) 0x1000 4 1)) = false := by decide
theorem test_wf_aperture : Instr.wf (.apertureAccess (.vf 0 0) 0xFFFFFFFE 4 none []) = false := by decide
theorem test_wf_value : Instr.wf (.registerWrite (.mmio .pf0 0 4 0x100000000)) = false := by decide
theorem test_wf_configValue : Instr.wf (.registerWrite (.config .pf0 .numVfs 0x10000000000000000)) = false := by decide
theorem test_wf_registerOffset : Instr.wf (.pairLoWrite .pf0 0x5035 0) = false := by decide
theorem test_wf_length : Instr.wf (.frozenBarAccess 0 ⟨.pf 0, true, 4097⟩) = false := by decide
theorem test_wf_transfer : Instr.wf (.remoteRequestReceived 0 ⟨0, 0, 0, 2, some [1]⟩) = false := by decide
theorem test_wf_packet : CsiPacket.wf ⟨64, [], true, 0⟩ = false := by decide
theorem test_wf_scan : Instr.wf (.jtagBypass 4 2) = false := by decide
theorem test_wf_margin : FuseMargin.wf ⟨0, 1, 2⟩ = false := by decide
theorem test_wf_message : DvMessage.wf ⟨0, 0, 0, 0, 0, List.replicate 257 0⟩ = false := by decide +kernel
theorem test_wf_picture : PicEnd.wf { aPicEnd with outputs := [1, 1] } = false := by decide
theorem test_wf_sequence : Instr.wf (.emit 0 0 0x100000000) = false := by decide
theorem test_wf_numVfs : Instr.wf (.vfEnableWrite 0 true (some 0x10000)) = false := by decide
theorem test_wf_sensors : Instr.wf (.hubSensorSample []) = false := by decide
theorem test_wf_modules : Instr.wf (.memDelays []) = false := by decide
theorem test_wf_frame : Instr.wf (.frameStart 0 0 0x10000 .good) = false := by decide

end Sys2Proof.Tests
end

section
/-! What a command leaves, whatever next state it answers. -/

namespace Sys2Proof.Proofs

open Sys2Proof Sys2Proof.Machine Sys2Proof.Laws

/-- Whatever next state a command answers, its card meets `P`. -/
def Leaves (P : Card → Prop) (o : Host.Outcome State Fault Refusal) : Prop := ∀ t, o = .next t → P t.card

theorem leaves_run {P : Card → Prop} {s : State} {f : Card → Card} (h : P (f s.card)) : Leaves P (s.run f) := by
  rintro _ ⟨⟩
  exact h

end Sys2Proof.Proofs
end

section
/-! What every command keeps (R4, R107, R175, R31, R493): one lemma per command, from the laws of its operations. -/

namespace Sys2Proof.Proofs

open Sys2Proof Sys2Proof.Machine Sys2Proof.Laws

variable {fz : Tab Word} {tz : Nat}

theorem kept_ite_fst {α : Type} {p : Prop} [Decidable p] {a b : Card × α} (ha : Kept fz tz a.1) (hb : Kept fz tz b.1) :
    Kept fz tz (if p then a else b).1 := by
  split <;> assumption

theorem kept_withClk {c : Card} {k : Clock} (hk : c.clk.now ≤ k.now) (h : Kept fz tz c) : Kept fz tz { c with clk := k } :=
  { h with time := h.time.trans hk }

/-- The least card time that a command leaves, from a card of time `tz` at least: 0 where R31 lets time start again. -/
def timeFloor (tz : Nat) : Instr → Nat
  | .powerGood | .conventionalReset | .slotPowerLost => 0
  | _ => tz

theorem kept_execRegisterWrite (w : RegWrite) {s : State} (hC : Kept fz tz s.card) :
    Leaves (Kept fz tz) (execRegisterWrite w s) := by
  refine leaves_run ?_
  split
  · exact kept_mmioWrite _ _ _ _ _ hC
  · exact kept_bar4Write _ _ _ hC
  · exact kept_configWrite _ _ _ _ hC

theorem kept_execRcFieldRead (fn : Fn) (r : RegRead) (size : Nat) {s : State} (hC : Kept fz tz s.card) :
    Leaves (Kept fz tz) (execRcFieldRead fn r size s) := by
  refine leaves_run ?_
  split
  · exact kept_read32 _ _ _ _ hC
  · exact kept_bar4Read _ _ _ _ hC
  · exact kept_configRead _ _ _ hC

theorem kept_execPairLoWrite (fn : Fn) (off : Nat) (v : Word) {s : State} (hC : Kept fz tz s.card) :
    Leaves (Kept fz tz) (execPairLoWrite fn off v s) := by
  refine leaves_run (kept_hostWrite _ _ _ _ hC (fun _ h => kept_ite h ?_))
  split
  · exact kept_ite (kept_holdLo _ _ _ h) h
  · exact h

theorem kept_execPairHiWrite (fn : Fn) (off : Nat) (v : Word) {s : State} (hC : Kept fz tz s.card) :
    Leaves (Kept fz tz) (execPairHiWrite fn off v s) := by
  refine leaves_run (kept_hostWrite _ _ _ _ hC (fun _ h => kept_ite h ?_))
  split
  · exact kept_ite (kept_applyHi _ _ _ h) h
  · exact h

theorem kept_execFrozenBarAccess (h : Fin 4) (acc : BarAccess) {s : State} (hC : Kept fz tz s.card) :
    Leaves (Kept fz tz) (execFrozenBarAccess h acc s) := by
  exact leaves_run (kept_ite hC (kept_ite (kept_draw _ (kept_unclaimed _ _ _ _ hC)) (kept_ite (kept_bump _ _ _ hC) (kept_emit
      _ _ hC))))

theorem kept_execPoolEnable (h : Fin 4) (p : Fin 16) (v : Word) {s : State} (hC : Kept fz tz s.card) :
    Leaves (Kept fz tz) (execPoolEnable h p v s) := by
  refine leaves_run (kept_hostWrite _ _ _ _ hC fun _ h => ?_)
  exact kept_ite h (kept_setPoolChk _ _ _ (kept_setF _ _ _ _ _ (kept_writeReg _ _ _ h)))

theorem kept_execPoolDisable (h : Fin 4) (p : Fin 16) (v : Word) {s : State} (hC : Kept fz tz s.card) :
    Leaves (Kept fz tz) (execPoolDisable h p v s) := by
  refine leaves_run (kept_hostWrite _ _ _ _ hC fun _ h => ?_)
  exact kept_ite h (kept_ite (kept_setPoolChk _ _ _ (kept_setF _ _ _ _ _ h)) (kept_writeReg _ _ _ h))

theorem kept_execPoolCheckDone (h : Fin 4) {s : State} (hC : Kept fz tz s.card) :
    Leaves (Kept fz tz) (execPoolCheckDone h s) := by
  refine leaves_run ?_
  split
  · exact hC
  · extract_lets _ c₁ c₂
    have h₁ : Kept fz tz c₁ := kept_setPoolChk _ _ _ (kept_setN _ _ _ hC)
    have h₂ : Kept fz tz c₂ := kept_setBit _ _ _ _ h₁
    exact kept_ite (kept_ite (kept_setN _ _ _ h₂) h₂) h₁

theorem kept_execPoolHostTake (h : Fin 4) (v : Word) {s : State} (hC : Kept fz tz s.card) :
    Leaves (Kept fz tz) (execPoolHostTake h v s) := by
  refine leaves_run (kept_hostWrite _ _ _ _ hC (fun _ h => kept_ite h ?_))
  exact kept_ite (kept_setN _ _ _ h) (kept_ite (kept_setN _ _ _ h) (kept_setN _ _ _ (kept_poolTake _ _ _ _ _ _ _ h)))

theorem kept_execPoolAudit (h : Fin 4) (v : Word) {s : State} (hC : Kept fz tz s.card) :
    Leaves (Kept fz tz) (execPoolAudit h v s) := by
  refine leaves_run (kept_hostWrite _ _ _ _ hC fun _ h => ?_)
  exact kept_ite h (kept_ite (kept_setBit _ _ _ _ (kept_writeReg _ _ _ h)) (kept_writeReg _ _ _ h))

theorem kept_execAuditScanDone (h : Fin 4) {s : State} (hC : Kept fz tz s.card) :
    Leaves (Kept fz tz) (execAuditScanDone h s) := by
  refine leaves_run (kept_ite hC ?_)
  extract_lets _ c₁ c₂ c₃
  have h₁ : Kept fz tz c₁ := kept_setBit _ _ _ _ hC
  have h₂ : Kept fz tz c₂ := kept_setN _ _ _ h₁
  have h₃ : Kept fz tz c₃ := kept_setN _ _ _ h₂
  split
  · exact kept_setN _ _ _ (kept_setN _ _ _ h₃)
  · exact kept_setN _ _ _ (kept_setN _ _ _ h₃)

theorem kept_execContextEntryWrite (h : Fin 4) (v : Word) {s : State} (hC : Kept fz tz s.card) :
    Leaves (Kept fz tz) (execContextEntryWrite h v s) := by
  refine leaves_run (kept_hostWrite _ _ _ _ hC fun _ h => ?_)
  extract_lets _ c₁
  have h₁ : Kept fz tz c₁ := kept_dropHold _ _ h
  refine kept_ite (kept_setBit _ _ _ _ h₁) (kept_ite ?_ (kept_ite (kept_mk.2 h₁) h₁))
  exact kept_ite (kept_setBit _ _ _ _ h₁) (kept_ite (kept_setBit _ _ _ _ h₁) (kept_mk.2 h₁))

theorem kept_execTranslationInvalidate (h : Fin 4) (v : Word) {s : State} (hC : Kept fz tz s.card) :
    Leaves (Kept fz tz) (execTranslationInvalidate h v s) := by
  refine leaves_run (kept_hostWrite _ _ _ _ hC fun _ h => ?_)
  exact kept_ite h (kept_ite (kept_setBit _ _ _ _ (kept_writeReg _ _ _ h)) (kept_writeReg _ _ _ h))

theorem kept_execRegionOwnerWrite (h : Fin 4) (v : Word) {s : State} (hC : Kept fz tz s.card) :
    Leaves (Kept fz tz) (execRegionOwnerWrite h v s) := by
  refine leaves_run (kept_hostWrite _ _ _ _ hC fun _ h => ?_)
  extract_lets
  split
  · exact kept_ite (kept_mk.2 h) h
  · exact h

theorem kept_execApertureMapWrite (h : Fin 4) (vf : Option (Fin 8)) (e : Nat) (v : Word)
    {s : State} (hC : Kept fz tz s.card) :
    Leaves (Kept fz tz) (execApertureMapWrite h vf e v s) := by
  refine leaves_run ?_
  extract_lets
  refine kept_ite hC (kept_hostWrite _ _ _ _ hC fun _ h => ?_)
  extract_lets _ c₁ _ c₂
  have h₁ : Kept fz tz c₁ := kept_dropHold _ _ h
  have h₂ : Kept fz tz c₂ := kept_setN _ _ _ (kept_setReg _ _ _ h₁)
  exact kept_ite h₂ (kept_ite h₂ (kept_bumpF _ _ _ _ _ h₁))

theorem kept_execFaultLogHeadWrite (v : Word) {s : State} (hC : Kept fz tz s.card) :
    Leaves (Kept fz tz) (execFaultLogHeadWrite v s) := by
  refine leaves_run (kept_hostWrite _ _ _ _ hC (fun _ h => kept_ite (kept_setBit _ _ _ _ h) ?_))
  exact kept_ite (kept_noteFltMsg _ (kept_raise _ _ _ (kept_mk.2 (kept_setReg _ _ _ h)))) (kept_mk.2 (kept_setReg _ _ _ h))

theorem kept_execFaultLogClear (v : Word) {s : State} (hC : Kept fz tz s.card) :
    Leaves (Kept fz tz) (execFaultLogClear v s) := by
  refine leaves_run (kept_hostWrite _ _ _ _ hC fun _ h => ?_)
  exact kept_ite (kept_mk.2 (kept_setReg _ _ _ (kept_writeReg _ _ _ h))) (kept_writeReg _ _ _ h)

theorem kept_execRecordRingEnable (fn : Fn) (r : Fin 16) (v : Word) {s : State} (hC : Kept fz tz s.card) :
    Leaves (Kept fz tz) (execRecordRingEnable fn r v s) := by
  refine leaves_run (kept_hostWrite _ _ _ _ hC fun _ h => ?_)
  split
  · exact h
  · extract_lets _ c₁ c₂
    have h₁ : Kept fz tz c₁ := kept_writeReg _ _ _ h
    have h₂ : Kept fz tz c₂ := kept_setN _ _ _ (kept_setN _ _ _ (kept_setBit _ _ _ _ h₁))
    exact kept_ite h₁ (kept_setRec _ _ _ _ h₂)

theorem kept_execHeartbeat (h : Fin 4) (r : Fin 16) {s : State} (hC : Kept fz tz s.card) :
    Leaves (Kept fz tz) (execHeartbeat h r s) := by
  refine leaves_run (kept_ite hC ?_)
  exact kept_ite (kept_originate _ _ _ _ (kept_setRec _ _ _ _ (kept_advanceTo _ _ hC)))
    (kept_bump _ _ _ (kept_setRec _ _ _ _ (kept_advanceTo _ _ hC)))

theorem kept_execFetchCompletionTimeout (rid : Nat) {s : State} (hC : Kept fz tz s.card) :
    Leaves (Kept fz tz) (execFetchCompletionTimeout rid s) := by
  refine leaves_run ?_
  extract_lets c₁
  have h₁ : Kept fz tz c₁ := kept_mk.2 hC
  split
  · exact hC
  · exact kept_ite hC (kept_fetchFailed _ _ (kept_draw _ (kept_aerLog _ _ _ _ h₁)))

theorem kept_execHostReadCompletion (rid : Nat) (poisoned : Bool) (data : List Byte)
    {s : State} (hC : Kept fz tz s.card) :
    Leaves (Kept fz tz) (execHostReadCompletion rid poisoned data s) := by
  refine leaves_run (kept_ite hC ?_)
  exact kept_ite (kept_draw _ (kept_aerLog _ _ _ _ hC)) (kept_ite (kept_mk.2 hC) (kept_completion _ _ _ _ hC))

theorem kept_execDoorbell (fn : Fn) (r : Fin 16) (prod : Word) {s : State} (hC : Kept fz tz s.card) :
    Leaves (Kept fz tz) (execDoorbell fn r prod s) := by
  refine leaves_run (kept_hostWrite _ _ _ _ hC fun _ h => ?_)
  split
  · exact h
  · exact kept_ite (kept_mk.2 h) (kept_ringBell _ _ _ _ h)

theorem kept_execCommandFetchDone (h : Fin 4) (r : Fin 16) {s : State} (hC : Kept fz tz s.card) :
    Leaves (Kept fz tz) (execCommandFetchDone h r s) := by
  refine leaves_run ?_
  extract_lets
  refine kept_ite hC ?_
  split
  · exact kept_ite hC (kept_ite hC (kept_pump _ _ _ (kept_decodeSlot _ _ _ _ (kept_setRing _ _ _ _ hC))))
  · exact kept_ite hC (kept_pump _ _ _ (kept_decodeArrived _ _ _ _ _ _ _ _ (kept_setRing _ _ _ _ hC)))
  · exact hC

theorem kept_execWaitTimeout (h : Fin 4) (r : Fin 16) {s : State} (hC : Kept fz tz s.card) :
    Leaves (Kept fz tz) (execWaitTimeout h r s) := by
  refine leaves_run ?_
  extract_lets
  split
  · split
    · exact kept_ite hC (kept_endOp _ _ _ _ _ _ _ (kept_raise _ _ _ (kept_setBit _ _ _ _ (kept_advanceTo _ _ hC))))
    · exact hC
  · exact hC

theorem kept_execRingEnable (fn : Fn) (r : Fin 16) (v : Word) {s : State} (hC : Kept fz tz s.card) :
    Leaves (Kept fz tz) (execRingEnable fn r v s) := by
  refine leaves_run (kept_hostWrite _ _ _ _ hC fun _ h => ?_)
  split
  · exact h
  · extract_lets _ c₁
    have h₁ : Kept fz tz c₁ := kept_writeReg _ _ _ h
    exact kept_ite h₁ (kept_ite (kept_setBit _ _ _ _ h₁) (kept_ringStart _ _ _ h₁))

theorem kept_execRingDisable (fn : Fn) (r : Fin 16) (v : Word) {s : State} (hC : Kept fz tz s.card) :
    Leaves (Kept fz tz) (execRingDisable fn r v s) := by
  refine leaves_run (kept_hostWrite _ _ _ _ hC fun _ h => ?_)
  split
  · exact h
  · extract_lets _ c₁ c₂
    have h₁ : Kept fz tz c₁ := kept_writeReg _ _ _ h
    have h₂ : Kept fz tz c₂ := kept_discardFetch _ _ _ (kept_setBit _ _ _ _ h₁)
    exact kept_ite h₁ (kept_setRing _ _ _ _ h₂)

theorem kept_execCompletionHeadWrite (fn : Fn) (r : Fin 16) (v : Word) {s : State} (hC : Kept fz tz s.card) :
    Leaves (Kept fz tz) (execCompletionHeadWrite fn r v s) := by
  refine leaves_run (kept_hostWrite _ _ _ _ hC fun _ h => ?_)
  split
  · exact h
  · extract_lets _ c₁ c₂
    have h₁ : Kept fz tz c₁ := kept_setRing _ _ _ _ (kept_setReg _ _ _ h)
    have h₂ : Kept fz tz c₂ := kept_ite (kept_cplMessage _ _ _ h₁) h₁
    exact kept_ite (kept_setBit _ _ _ _ h) (kept_pump _ _ _ h₂)

theorem kept_execSemaphoreHostWrite (fn : Fn) (idx : Nat) (v : Word) {s : State} (hC : Kept fz tz s.card) :
    Leaves (Kept fz tz) (execSemaphoreHostWrite fn idx v s) := by
  refine leaves_run (kept_hostWrite _ _ _ _ hC fun _ h => ?_)
  extract_lets
  split
  · exact kept_ite (kept_semApply _ _ _ _ (kept_dropHold _ _ h)) h
  · exact h

theorem kept_execFlushHeldDiscard (fn : Fn) (mask : Word) {s : State} (hC : Kept fz tz s.card) :
    Leaves (Kept fz tz) (execFlushHeldDiscard fn mask s) := by
  refine leaves_run (kept_hostWrite _ _ _ _ hC fun _ h => ?_)
  split
  · exact h
  · exact kept_foldl (fun _ _ h => kept_setRing _ _ _ _ h) _ h
  · exact kept_foldl (fun _ _ h => kept_ite (kept_setRing _ _ _ _ h) h) _ h

theorem kept_execRecordRingDisable (fn : Fn) (r : Fin 16) (v : Word) {s : State} (hC : Kept fz tz s.card) :
    Leaves (Kept fz tz) (execRecordRingDisable fn r v s) := by
  refine leaves_run (kept_hostWrite _ _ _ _ hC fun _ h => ?_)
  split
  · exact h
  · extract_lets _ c₁ _ _ _ _ c₂
    have h₁ : Kept fz tz c₁ := kept_writeReg _ _ _ h
    have h₂ : Kept fz tz c₂ := kept_setRec _ _ _ _ (kept_setBit _ _ _ _ h₁)
    exact kept_ite h₁ (kept_pump _ _ _ (kept_recDiscard _ _ _ (kept_setRing _ _ _ _ h₂)))

theorem kept_execRecordHeadWrite (fn : Fn) (r : Fin 16) (v : Word) {s : State} (hC : Kept fz tz s.card) :
    Leaves (Kept fz tz) (execRecordHeadWrite fn r v s) := by
  refine leaves_run (kept_hostWrite _ _ _ _ hC fun _ h => ?_)
  split
  · exact h
  · refine kept_ite (kept_setBit _ _ _ _ h) ?_
    exact kept_pump _ _ _ (kept_recMessage _ _ _ (kept_setRec _ _ _ _ (kept_setReg _ _ _ h)))

theorem kept_execWaitSatisfied (h : Fin 4) (r : Fin 16) {s : State} (hC : Kept fz tz s.card) :
    Leaves (Kept fz tz) (execWaitSatisfied h r s) := by
  refine leaves_run ?_
  extract_lets
  split
  · exact hC
  · refine kept_ite hC ?_
    extract_lets
    refine kept_ite (kept_pump _ _ _ (kept_acceptOp _ _ _ _ hC)) ?_
    refine kept_ite (kept_endOp _ _ _ _ _ _ _ (kept_chargeCount _ _ _ _ hC)) ?_
    exact kept_ite hC (kept_ite (kept_endOp _ _ _ _ _ _ _ hC) (kept_pump _ _ _ (kept_acceptOp _ _ _ _ hC)))

theorem kept_execFrontNop (h : Fin 4) (r : Fin 16) {s : State} (hC : Kept fz tz s.card) :
    Leaves (Kept fz tz) (execFrontNop h r s) := by
  refine leaves_run ?_
  split
  · exact kept_ite (kept_endOp _ _ _ _ _ _ _ hC) hC
  · exact hC

theorem kept_execFrontBarrier (h : Fin 4) (r : Fin 16) {s : State} (hC : Kept fz tz s.card) :
    Leaves (Kept fz tz) (execFrontBarrier h r s) := by
  refine leaves_run ?_
  split
  · exact kept_ite (kept_endOp _ _ _ _ _ _ _ hC) hC
  · exact hC

theorem kept_execFrontStamp (h : Fin 4) (r : Fin 16) {s : State} (hC : Kept fz tz s.card) :
    Leaves (Kept fz tz) (execFrontStamp h r s) := by
  refine leaves_run ?_
  split
  · exact kept_ite (kept_endOp _ _ _ _ _ _ _ hC) hC
  · exact hC

theorem kept_execAccClearAll (h : Fin 4) (v : Word) {s : State} (hC : Kept fz tz s.card) :
    Leaves (Kept fz tz) (execAccClearAll h v s) := by
  refine leaves_run (kept_hostWrite _ _ _ _ hC fun _ h => ?_)
  exact kept_ite (kept_foldl (fun _ _ h => kept_accClear _ _ _ h) _ (kept_writeReg _ _ _ h)) (kept_writeReg _ _ _ h)

theorem kept_execAccClearSlot (h : Fin 4) (v : Word) {s : State} (hC : Kept fz tz s.card) :
    Leaves (Kept fz tz) (execAccClearSlot h v s) := by
  refine leaves_run (kept_hostWrite _ _ _ _ hC fun _ h => ?_)
  exact kept_ite (kept_accClear _ _ _ (kept_writeReg _ _ _ h)) (kept_writeReg _ _ _ h)

theorem kept_execApertureAccess (fn : Fn) (addr len : Nat) (wdata : Option (List Byte)) (errs : List MemErr)
    {s : State} (hC : Kept fz tz s.card) :
    Leaves (Kept fz tz) (execApertureAccess fn addr len wdata errs s) := by
  refine leaves_run ?_
  extract_lets _ go
  have hgo : ∀ h vf drops, Kept fz tz (go h vf drops) := by
    intro h vf drops
    refine kept_ite (kept_ite (kept_bump _ _ _ hC) (kept_emit _ _ hC)) ?_
    refine kept_ite (kept_emit _ _ hC) (kept_ite (kept_bump _ _ _ hC) ?_)
    split
    · exact kept_ite (kept_aperMiss _ _ hC) (kept_emit _ _ (kept_aperMiss _ _ hC))
    · exact kept_aperDo _ _ _ _ _ _ _ _ _ _ _ (kept_ite (kept_aperMiss _ _ hC) hC)
  refine kept_ite (kept_draw _ (kept_unclaimed _ _ _ _ hC)) ?_
  split
  · exact hC
  · exact hgo _ _ _
  · exact hgo _ _ _

theorem kept_execSparseFirstWrite (h : Fin 4) (r : Fin 16) (seq va : Nat) (data : List Byte) (err : Option Nat)
    {s : State} (hC : Kept fz tz s.card) :
    Leaves (Kept fz tz) (execSparseFirstWrite h r seq va data err s) := by
  refine leaves_run ?_
  extract_lets
  split
  · exact hC
  · refine kept_ite hC ?_
    split
    · exact hC
    · refine kept_ite hC ?_
      extract_lets ep
      clear_value ep
      split
      · have h₁ := kept_of_fst ‹_› (kept_sparseBack _ _ _ _ _ _ _ hC)
        exact kept_setOp _ _ _ _ (kept_xlFault _ _ _ _ _ h₁)
      · have h₁ := kept_of_fst ‹_› (kept_sparseBack _ _ _ _ _ _ _ hC)
        extract_lets c₂ w
        have h₂ : Kept fz tz c₂ := by
          dsimp only [c₂]
          split
          · exact kept_noteBacked _ _ _ _ _ _ _ hC h₁
          · exact h₁
        have h₃ : Kept fz tz w.card := kept_vwrite _ _ _ _ _ _ _ h₂
        split
        · exact kept_setOp _ _ _ _ (kept_xlFault _ _ _ _ _ h₃)
        · exact kept_setOp _ _ _ _ h₃

theorem kept_execFeedBytesQueued (h : Fin 4) (r : Fin 16) (seq : Nat) {s : State} (hC : Kept fz tz s.card) :
    Leaves (Kept fz tz) (execFeedBytesQueued h r seq s) := by
  refine leaves_run ?_
  split
  · exact hC
  · refine kept_ite hC ?_
    extract_lets
    split
    · exact kept_setOp _ _ _ _ hC
    · exact kept_ite (kept_setOp _ _ _ _ (kept_enqueue _ _ _ _ _ _ hC)) (kept_setOp _ _ _ _ (kept_enqueue _ _ _ _ _ _ hC))

theorem kept_execKeyCommit (h : Fin 4) (v : Word) {s : State} (hC : Kept fz tz s.card) :
    Leaves (Kept fz tz) (execKeyCommit h v s) := by
  refine leaves_run (kept_hostWrite _ _ _ _ hC fun _ h => ?_)
  extract_lets c₁ _ c₂
  have h₁ : Kept fz tz c₁ := kept_writeReg _ _ _ h
  have h₂ : Kept fz tz c₂ := kept_setKey _ _ _ _ h₁
  exact kept_ite h₁ (kept_foldl (fun _ _ h => kept_setReg _ _ _ h) _ h₂)

theorem kept_execKeyClear (h : Fin 4) (v : Word) {s : State} (hC : Kept fz tz s.card) :
    Leaves (Kept fz tz) (execKeyClear h v s) := by
  refine leaves_run (kept_hostWrite _ _ _ _ hC fun _ h => ?_)
  exact kept_ite (kept_writeReg _ _ _ h) (kept_setKey _ _ _ _ (kept_writeReg _ _ _ h))

theorem kept_execPictureDecodeStart (h : Fin 4) (d : Fin 16) (st : Fin 64) (ps : PicStart)
    {s : State} (hC : Kept fz tz s.card) :
    Leaves (Kept fz tz) (execPictureDecodeStart h d st ps s) := by
  refine leaves_run ?_
  extract_lets
  split
  · exact hC
  · extract_lets _ c₁
    have h₁ : Kept fz tz c₁ := kept_countDropped _ _ _ _ (kept_setStream _ _ _ _ hC)
    split
    · exact hC
    · exact kept_ite hC (kept_ite h₁ (kept_beginPic _ _ _ _ _ _ _ (kept_releaseSlot _ _ _ _ h₁)))

theorem kept_execSequenceHeader (h : Fin 4) (st : Fin 64) (hd : SeqHeader) {s : State} (hC : Kept fz tz s.card) :
    Leaves (Kept fz tz) (execSequenceHeader h st hd s) := by
  refine leaves_run ?_
  extract_lets
  split
  · exact hC
  · refine kept_ite hC ?_
    extract_lets c₁
    have h₁ : Kept fz tz c₁ := kept_outputAll _ _ _ _ (kept_countDropped _ _ _ _ (kept_setStream _ _ _ _ hC))
    refine kept_ite (kept_setStream _ _ _ _ (kept_streamEvent _ _ _ _ _ _ _ h₁)) ?_
    refine kept_ite (kept_setStream _ _ _ _ (kept_streamEvent _ _ _ _ _ _ _ h₁)) ?_
    exact kept_ite (kept_setStream _ _ _ _ (kept_streamEvent _ _ _ _ _ _ _ h₁)) (kept_setStream _ _ _ _ h₁)

theorem kept_execPartitionReconstructed (h : Fin 4) (st : Fin 64) (data : List Samples) (part : PartEnd)
    {s : State} (hC : Kept fz tz s.card) :
    Leaves (Kept fz tz) (execPartitionReconstructed h st data part s) := by
  refine leaves_run ?_
  extract_lets
  split
  · exact hC
  · split
    · exact hC
    · refine kept_ite hC ?_
      extract_lets c₁ c₂
      have h₁ : Kept fz tz c₁ := kept_putSamples _ _ _ _ _ hC
      have h₂ : Kept fz tz c₂ := kept_ite (kept_freeSlices _ _ _ h₁) h₁
      exact kept_ite (kept_setStream _ _ _ _ h₂) h₂

theorem kept_execDamageDetected (h : Fin 4) (st : Fin 64) (dmg : Damage) {s : State} (hC : Kept fz tz s.card) :
    Leaves (Kept fz tz) (execDamageDetected h st dmg s) := by
  refine leaves_run ?_
  extract_lets
  split
  · exact hC
  · refine kept_ite hC ?_
    split
    · extract_lets c₁
      have h₁ : Kept fz tz c₁ := kept_streamEvent _ _ _ _ _ _ _ hC
      exact kept_ite (kept_setStream _ _ _ _ h₁) h₁
    · extract_lets _ c₁
      have h₁ : Kept fz tz c₁ := kept_setStream _ _ _ _ hC
      split
      · exact hC
      · refine kept_retractPic _ _ _ _ _ ?_
        split
        · exact kept_foldl (fun _ _ h => kept_concealUnit _ _ _ _ _ _ h) _ h₁
        · exact h₁

theorem kept_execPictureComplete (h : Fin 4) (st : Fin 64) (pe : PicEnd) {s : State} (hC : Kept fz tz s.card) :
    Leaves (Kept fz tz) (execPictureComplete h st pe s) := by
  refine leaves_run ?_
  extract_lets
  split
  · exact hC
  · extract_lets
    split
    · exact hC
    · refine kept_ite hC ?_
      extract_lets c₁ c₂ _ _ _ _ _ c₃ c₄ c₅ c₆ c₇ c₈ c₉
      have h₁ : Kept fz tz c₁ := kept_freeSlices _ _ _ (kept_putSamples _ _ _ _ _ hC)
      have h₂ : Kept fz tz c₂ := by
        dsimp only [c₂]
        split
        · exact kept_weave _ _ _ _ _ _ h₁
        · exact h₁
      have h₃ : Kept fz tz c₃ := kept_setStream _ _ _ _ h₂
      have h₄ : Kept fz tz c₄ := kept_bump _ _ _ h₃
      have h₅ : Kept fz tz c₅ := kept_ite (kept_bump _ _ _ h₄) h₄
      have h₆ : Kept fz tz c₆ := by
        dsimp only [c₆]
        split
        · exact kept_streamEvent _ _ _ _ _ _ _ h₅
        · exact h₅
      have h₇ : Kept fz tz c₇ := kept_ite (kept_streamEvent _ _ _ _ _ _ _ h₆) h₆
      have h₈ : Kept fz tz c₈ := kept_foldl (fun _ _ h => kept_outputPic _ _ _ _ h) _ h₇
      have h₉ : Kept fz tz c₉ := kept_ite (kept_commitEpoch _ _ _ h₈) h₈
      exact kept_ite (kept_endClose _ _ _ (kept_closeStream _ _ _ h₂)) h₉

theorem kept_execSearch (h : Fin 4) (r : Fin 16) (seq : Nat) {s : State} (hC : Kept fz tz s.card) :
    Leaves (Kept fz tz) (execSearch h r seq s) := by
  refine leaves_run ?_
  split
  · exact hC
  · refine kept_ite hC ?_
    exact kept_ite (kept_setOp _ _ _ _ (kept_chargeCount _ _ _ _ hC)) (kept_runStep _ _ _ _ _ _ hC keeps_searchCheck)

theorem kept_execColanderSearchStart (m : Fin 8) {s : State} (hC : Kept fz tz s.card) :
    Leaves (Kept fz tz) (execColanderSearchStart m s) := by
  refine leaves_run ?_
  extract_lets _ c₁
  have h₁ : Kept fz tz c₁ := kept_searchEnd _ _ hC
  split
  · exact kept_ite (kept_resumeSearch _ _ _ _ h₁) h₁
  · refine kept_ite h₁ ?_
    split
    · exact h₁
    · refine kept_ite (kept_setOp _ _ _ _ (kept_chargeCount _ _ _ _ h₁)) ?_
      extract_lets c₂
      have h₂ : Kept fz tz c₂ := kept_chargeCount _ _ _ _ (kept_chargeWait _ _ _ _ (kept_drawXlate _ h₁))
      split
      · exact kept_setOp _ _ _ _ h₁
      · refine kept_ite (kept_setOp _ _ _ _ h₁) ?_
        split
        · exact kept_setOp _ _ _ _ (kept_askFor _ _ _ _ _ h₁)
        · exact kept_runFirst _ _ _ _ _ _ h₁ h₂ keeps_searchOpen

theorem kept_execFrameStart (p vc : Fin 4) (num : Nat) (hdr : PktHeader) {s : State} (hC : Kept fz tz s.card) :
    Leaves (Kept fz tz) (execFrameStart p vc num hdr s) := by
  refine leaves_run ?_
  split
  · exact hC
  · refine kept_rpHeader _ _ _ _ _ hC (fun _ h => ?_)
    exact kept_ite (kept_dtDrop _ _ h) (kept_openFrame _ _ _ _ (kept_ite (kept_latch _ _ _ _ h) h))

theorem kept_execFrameEnd (p vc : Fin 4) (hdr : PktHeader) {s : State} (hC : Kept fz tz s.card) :
    Leaves (Kept fz tz) (execFrameEnd p vc hdr s) := by
  refine leaves_run ?_
  split
  · exact hC
  · exact kept_rpHeader _ _ _ _ _ hC (fun _ h => kept_ite (kept_dtDrop _ _ h) (kept_setVc _ _ _ _ (kept_latch _ _ _ _ h)))

theorem kept_execLineMarker (p vc : Fin 4) (hdr : PktHeader) {s : State} (hC : Kept fz tz s.card) :
    Leaves (Kept fz tz) (execLineMarker p vc hdr s) := by
  refine leaves_run ?_
  split
  · exact hC
  · exact kept_rpHeader _ _ _ _ _ hC (fun _ h => kept_ite (kept_dtDrop _ _ h) h)

theorem kept_execLongPacket (p vc : Fin 4) (pk : CsiPacket) (hdr : PktHeader) {s : State} (hC : Kept fz tz s.card) :
    Leaves (Kept fz tz) (execLongPacket p vc pk hdr s) := by
  refine leaves_run ?_
  split
  · exact hC
  · refine kept_rpHeader _ _ _ _ _ (kept_rpDrain _ _ _ hC) (fun _ h => ?_)
    extract_lets
    refine kept_ite (kept_dtDrop _ _ h) ?_
    refine kept_ite (kept_flagFrame _ _ _ _ (kept_dtDrop _ _ h)) ?_
    split
    · exact kept_bump _ _ _ h
    · exact kept_ite (kept_setVc _ _ _ _ (kept_ite (kept_flagFrame _ _ _ _ h) h)) (kept_rpLine _ _ _ _ _ h)

theorem kept_execRasterPacketTimeout (p vc : Fin 4) {s : State} (hC : Kept fz tz s.card) :
    Leaves (Kept fz tz) (execRasterPacketTimeout p vc s) := by
  refine leaves_run ?_
  split
  · exact hC
  · exact kept_ite (kept_latch _ _ _ _ (kept_advanceTo _ _ hC)) hC

theorem kept_execRasterLinkChange (p : Fin 4) (up hs : Bool) (rate : Nat) {s : State} (hC : Kept fz tz s.card) :
    Leaves (Kept fz tz) (execRasterLinkChange p up hs rate s) := by
  refine leaves_run ?_
  split
  · exact hC
  · exact kept_setLink _ _ _ _ _ hC

theorem kept_execFrameWritesComplete (h vc : Fin 4) {s : State} (hC : Kept fz tz s.card) :
    Leaves (Kept fz tz) (execFrameWritesComplete h vc s) := by
  refine leaves_run ?_
  extract_lets _ _ _ c₁
  have h₁ : Kept fz tz c₁ := kept_rpDrain _ _ _ hC
  split
  · exact hC
  · extract_lets _ c₂ _ _ _ c₃ c₄ c₅ c₆ c₇
    have h₂ : Kept fz tz c₂ := kept_setRpBuf _ _ _ h₁
    have h₃ : Kept fz tz c₃ := kept_setVc _ _ _ _ h₂
    have h₄ : Kept fz tz c₄ := kept_rpPut _ _ _ _ _ _ _ h₃
    have h₅ : Kept fz tz c₅ := kept_bump _ _ _ h₄
    have h₆ : Kept fz tz c₆ := kept_ite (kept_bump _ _ _ h₅) h₅
    have h₇ : Kept fz tz c₇ := kept_semApply _ _ _ _ h₆
    refine kept_ite hC ?_
    refine kept_ite h₁ ?_
    split
    · exact kept_semApply _ _ _ _ h₇
    · exact h₇

theorem kept_execRasterCommitWrite (h vc : Fin 4) (v : Word) {s : State} (hC : Kept fz tz s.card) :
    Leaves (Kept fz tz) (execRasterCommitWrite h vc v s) := by
  refine leaves_run (kept_hostWrite _ _ _ _ hC fun _ h => ?_)
  extract_lets _ _ c₁
  have h₁ : Kept fz tz c₁ := kept_dropHold _ _ (kept_setReg _ _ _ (kept_setReg _ _ _ h))
  exact kept_ite (kept_commit _ _ _ _ h₁) (kept_rpEvent _ _ _ (kept_bump _ _ _ h₁))

theorem kept_execRasterVcEnable (h vc : Fin 4) (v : Word) {s : State} (hC : Kept fz tz s.card) :
    Leaves (Kept fz tz) (execRasterVcEnable h vc v s) := by
  refine leaves_run (kept_hostWrite _ _ _ _ hC fun _ h => ?_)
  extract_lets _ _ c₁
  have h₁ : Kept fz tz c₁ := kept_writeReg _ _ _ h
  refine kept_ite (kept_ite (kept_vcOff _ _ _ (kept_setBit _ _ _ _ h₁)) h₁) ?_
  exact kept_ite h₁ (kept_setVc _ _ _ _ (kept_setBit _ _ _ _ h₁))

theorem kept_execPrepare (h : Fin 4) (r : Fin 16) (seq : Nat) (order : List Nat) {s : State} (hC : Kept fz tz s.card) :
    Leaves (Kept fz tz) (execPrepare h r seq order s) := by
  refine leaves_run ?_
  split
  · exact hC
  · extract_lets c₁
    have h₁ : Kept fz tz c₁ := kept_engine _ _ _ _ _ _ _ hC (keeps_ite (keeps_throw _) (keeps_prepareWork _))
    exact kept_ite (kept_progHold _ _ _ _ hC) h₁

theorem kept_execPrepareProgressRelease (h : Fin 4) (r : Fin 16) (seq : Nat) (order : List Nat)
    {s : State} (hC : Kept fz tz s.card) :
    Leaves (Kept fz tz) (execPrepareProgressRelease h r seq order s) := by
  refine leaves_run ?_
  split
  · refine kept_ite hC ?_
    refine kept_ite (kept_setOp _ _ _ _ hC) ?_
    exact kept_ite hC (kept_engine _ _ _ _ _ _ _ (kept_setOp _ _ _ _ hC) (keeps_prepareWork _))
  · exact hC

theorem kept_execBacklogRefresh (h : Fin 4) {s : State} (hC : Kept fz tz s.card) :
    Leaves (Kept fz tz) (execBacklogRefresh h s) := by
  refine leaves_run ?_
  extract_lets
  split
  · exact hC
  · refine kept_ite hC ?_
    extract_lets _ c₁ _ c₂
    have h₁ : Kept fz tz c₁ := kept_foldl (fun _ _ h => kept_setN _ _ _ h) _ hC
    have h₂ : Kept fz tz c₂ := kept_draw _ (kept_setF _ _ _ _ _ h₁)
    exact kept_ite (kept_setBit _ _ _ _ h₂) (kept_ite (kept_setBit _ _ _ _ h₂) (kept_ite (kept_setBit _ _ _ _ h₂) h₂))

theorem kept_execGriddleRun (h : Fin 4) (r : Fin 16) (seq : Nat) {s : State} (hC : Kept fz tz s.card) :
    Leaves (Kept fz tz) (execGriddleRun h r seq s) := by
  refine leaves_run ?_
  split
  · exact hC
  · refine kept_ite hC ?_
    split
    · refine kept_ite (kept_setOp _ _ _ _ (kept_chargeCount _ _ _ _ hC)) ?_
      exact kept_runFirst _ _ _ _ _ _ hC (kept_startOp _ _ _ _ hC) keeps_runStart
    · split
      · exact kept_makeDue _ _ _ _ _ hC
      · exact hC

theorem kept_execGriddlePassEnd (h : Fin 4) (u : Fin 8) {s : State} (hC : Kept fz tz s.card) :
    Leaves (Kept fz tz) (execGriddlePassEnd h u s) := by
  refine leaves_run ?_
  extract_lets
  split
  · exact kept_ite (kept_resumePaused _ _ _ hC) hC
  · refine kept_ite hC ?_
    refine kept_ite (kept_nextPass _ _ _ _ (kept_drawXlate _ hC)) ?_
    extract_lets c₁
    have h₁ : Kept fz tz c₁ := kept_runPart _ _ _ _ _ hC keeps_endPass
    split
    · exact h₁
    · refine kept_ite (kept_resumePaused _ _ _ h₁) ?_
      refine kept_ite (kept_resumePaused _ _ _ (kept_setOp _ _ _ _ h₁)) ?_
      split
      · exact kept_preempt _ _ _ _ _ _ h₁
      · exact kept_nextPass _ _ _ _ (kept_drawXlate _ h₁)

theorem kept_execPaceWindowEnd {s : State} (hC : Kept fz tz s.card) :
    Leaves (Kept fz tz) (execPaceWindowEnd s) := by
  refine leaves_run (kept_ite hC ?_)
  extract_lets _ c₁ _ _ _ c₂ c₃ c₄ c₅
  have h₁ : Kept fz tz c₁ := kept_advanceTo _ _ hC
  have h₂ : Kept fz tz c₂ := kept_foldl (fun _ _ h => kept_endWindow _ _ _ h) _ h₁
  have h₃ : Kept fz tz c₃ := kept_ite (kept_event _ _ _ _ h₂) h₂
  have h₄ : Kept fz tz c₄ := kept_ite h₁ (kept_voltageStep _ _ h₃)
  have h₅ : Kept fz tz c₅ := kept_foldl (fun _ _ h => kept_setPace _ _ _ h) _ h₄
  exact kept_notePoint _ (kept_openWindow _ _ h₅)

theorem kept_execAvsWriteAck {s : State} (hC : Kept fz tz s.card) :
    Leaves (Kept fz tz) (execAvsWriteAck s) := by
  refine leaves_run ?_
  extract_lets
  split
  · exact hC
  · exact kept_judgeHeld _ (kept_setF _ _ _ _ _ (kept_mk.2 hC))

theorem kept_execRemoteWriteAck (p : Fin 2) (id : Nat) {s : State} (hC : Kept fz tz s.card) :
    Leaves (Kept fz tz) (execRemoteWriteAck p id s) := by
  refine leaves_run ?_
  split
  · exact kept_remoteDone _ _ hC
  · exact hC

theorem kept_execRemoteTimeout (id : Nat) {s : State} (hC : Kept fz tz s.card) :
    Leaves (Kept fz tz) (execRemoteTimeout id s) := by
  refine leaves_run ?_
  split
  · exact kept_ite hC (kept_remoteFail _ _ _ (kept_bump _ _ _ (kept_advanceTo _ _ hC)))
  · exact hC

theorem kept_execDravazCableDetect (p : Fin 2) (present : Bool) {s : State} (hC : Kept fz tz s.card) :
    Leaves (Kept fz tz) (execDravazCableDetect p present s) := by
  refine leaves_run ?_
  extract_lets c₁
  have h₁ : Kept fz tz c₁ := kept_checkSupplies _ (kept_setBit _ _ _ _ hC)
  exact kept_ite (kept_trainPort _ _ h₁) (kept_setF _ _ _ _ _ (kept_setPort _ _ _ h₁))

theorem kept_execLinkTrained (p : Fin 2) (card : Fin 8) (port : Fin 2) {s : State} (hC : Kept fz tz s.card) :
    Leaves (Kept fz tz) (execLinkTrained p card port s) := by
  refine leaves_run ?_
  extract_lets _ _ _ c₁ c₂ c₃ c₄
  have h₁ : Kept fz tz c₁ := kept_setPort _ _ _ (kept_setN _ _ _ hC)
  have h₂ : Kept fz tz c₂ := kept_portEvent _ _ _ h₁
  have h₃ : Kept fz tz c₃ := kept_ite (kept_portEvent _ _ _ h₂) h₂
  have h₄ : Kept fz tz c₄ := by
    dsimp only [c₄]
    split
    · exact kept_replayFrom _ _ _ h₃
    · exact h₃
  exact kept_ite hC (kept_ite (kept_portEvent _ _ _ (kept_setF _ _ _ _ _ hC)) (kept_pumpPort _ _ h₄))

theorem kept_execPortRetrain (p : Fin 2) (v : Word) {s : State} (hC : Kept fz tz s.card) :
    Leaves (Kept fz tz) (execPortRetrain p v s) := by
  exact leaves_run (kept_hostWrite _ _ _ _ hC (fun _ h => kept_ite (kept_retrain _ _ (kept_writeReg _ _ _ h)) (kept_writeReg
      _ _ _ h)))

theorem kept_execLinkDownTimeout (p : Fin 2) {s : State} (hC : Kept fz tz s.card) :
    Leaves (Kept fz tz) (execLinkDownTimeout p s) := by
  refine leaves_run ?_
  extract_lets
  split
  · exact hC
  · exact kept_portFail _ _ (kept_portEvent _ _ _ (kept_setF _ _ _ _ _ (kept_setPort _ _ _ (kept_advanceTo _ _ hC))))

theorem kept_execDravazPacketReceived (p : Fin 2) (pk : DvPacket) {s : State} (hC : Kept fz tz s.card) :
    Leaves (Kept fz tz) (execDravazPacketReceived p pk s) := by
  refine leaves_run (kept_ite hC (kept_ite (kept_emit _ _ hC) ?_))
  extract_lets _ c₁ c₂ _ c₃ _ c₄ _ c₅
  have h₁ : Kept fz tz c₁ := by
    dsimp only [c₁]
    split
    · exact kept_ite (kept_setPort _ _ _ hC) hC
    · exact hC
  have h₂ : Kept fz tz c₂ := by
    dsimp only [c₂]
    split
    · exact kept_replayFrom _ _ _ h₁
    · exact h₁
  have h₃ : Kept fz tz c₃ := kept_ite (kept_retrain _ _ (kept_setPort _ _ _ h₂)) h₂
  have h₄ : Kept fz tz c₄ := kept_emit _ _ (kept_setPort _ _ _ h₃)
  have h₅ : Kept fz tz c₅ := kept_setPair _ _ _ _ h₄
  exact kept_ite (kept_dvBody _ _ _ h₅) (kept_ite (kept_emit _ _ h₃) (kept_emit _ _ h₃))

theorem kept_execRemoteRequestReceived (p : Fin 2) (q : RemoteReq) {s : State} (hC : Kept fz tz s.card) :
    Leaves (Kept fz tz) (execRemoteRequestReceived p q s) := by
  refine leaves_run (kept_ite hC ?_)
  extract_lets
  split
  · exact kept_denyRemote _ _ _ hC
  · exact kept_ite (kept_mk.2 hC) (kept_serveRemote _ _ _ _ _ _ _ hC)

theorem kept_execMessageReceived (p : Fin 2) (m : DvMessage) {s : State} (hC : Kept fz tz s.card) :
    Leaves (Kept fz tz) (execMessageReceived p m s) := by
  exact leaves_run (kept_ite hC (kept_ite (kept_denyRemote _ _ _ hC) (kept_ite (kept_setPort _ _ _ hC) (kept_putMessage _ _ _
      hC))))

theorem kept_execMsgRingEnable (p : Fin 2) (v : Word) {s : State} (hC : Kept fz tz s.card) :
    Leaves (Kept fz tz) (execMsgRingEnable p v s) := by
  refine leaves_run (kept_hostWrite _ _ _ _ hC fun _ h => ?_)
  extract_lets _ _ c₁
  have h₁ : Kept fz tz c₁ := kept_writeReg _ _ _ h
  refine kept_ite (kept_denyHeld _ _ (kept_setBit _ _ _ _ h₁)) (kept_ite h₁ ?_)
  split
  · exact h₁
  · exact kept_setPort _ _ _ (kept_setN _ _ _ (kept_setN _ _ _ (kept_setBit _ _ _ _ h₁)))

theorem kept_execMsgHeadWrite (p : Fin 2) (v : Word) {s : State} (hC : Kept fz tz s.card) :
    Leaves (Kept fz tz) (execMsgHeadWrite p v s) := by
  exact leaves_run (kept_hostWrite _ _ _ _ hC (fun _ h => kept_ite (kept_setBit _ _ _ _ h) (kept_pumpMsgs _ _ _ (kept_setReg
      _ _ _ h))))

theorem kept_execWindowCtlWrite (p : Fin 2) (w : Fin 64) (v : Word) {s : State} (hC : Kept fz tz s.card) :
    Leaves (Kept fz tz) (execWindowCtlWrite p w v s) := by
  refine leaves_run (kept_hostWrite _ _ _ _ hC fun _ h => ?_)
  extract_lets
  refine kept_ite (kept_bump _ _ _ h) ?_
  exact kept_dropHold _ _ (kept_dropHold _ _ (kept_setReg _ _ _ (kept_setReg _ _ _ (kept_setN _ _ _ h))))

theorem kept_execTimeExchange (done : Option TimeStamp) {s : State} (hC : Kept fz tz s.card) :
    Leaves (Kept fz tz) (execTimeExchange done s) := by
  refine leaves_run (kept_ite hC ?_)
  extract_lets _ c₁
  have h₁ : Kept fz tz c₁ := kept_ite (kept_sendPacket _ _ _ _ _ hC) hC
  split
  · exact kept_missedInterval _ h₁
  · refine kept_ite (kept_missedInterval _ h₁) ?_
    extract_lets c₂
    have h₂ : Kept fz tz c₂ := kept_setPort _ _ _ h₁
    exact kept_ite (kept_missedInterval _ (kept_event _ _ _ _ h₂)) (kept_discipline _ _ _ h₂)

theorem kept_execLayoutCheck (h : Fin 4) {s : State} (hC : Kept fz tz s.card) :
    Leaves (Kept fz tz) (execLayoutCheck h s) := by
  exact leaves_run (kept_hostWrite _ _ _ _ hC (fun _ h => kept_loaderGo _ _ _ _ h (fun _ h => kept_loaderStart _ _ _ h)))

theorem kept_execLayoutLoad (h : Fin 4) {s : State} (hC : Kept fz tz s.card) :
    Leaves (Kept fz tz) (execLayoutLoad h s) := by
  refine leaves_run (kept_hostWrite _ _ _ _ hC fun _ h => ?_)
  exact kept_loaderGo _ _ _ _ h (fun _ h => kept_ite (kept_loaderStart _ _ _ h) (kept_loaderEnd _ _ _ h))

theorem kept_execSetDefault (h : Fin 4) {s : State} (hC : Kept fz tz s.card) :
    Leaves (Kept fz tz) (execSetDefault h s) := by
  refine leaves_run (kept_hostWrite _ _ _ _ hC fun _ h => ?_)
  exact kept_ite (kept_bump _ _ _ h) (kept_loaderGo _ _ _ _ h (fun _ h => kept_loaderStart _ _ _ h))

theorem kept_execLoadDefault (h : Fin 4) {s : State} (hC : Kept fz tz s.card) :
    Leaves (Kept fz tz) (execLoadDefault h s) := by
  refine leaves_run (kept_hostWrite _ _ _ _ hC (fun _ h => kept_loaderGo _ _ _ _ h (fun _ h => ?_)))
  refine kept_ite (kept_loaderEnd _ _ _ h) ?_
  split
  · exact kept_loaderEnd _ _ _ h
  · exact kept_loaderStart _ _ _ (kept_fillWindow _ _ h)

theorem kept_execLoaderBadCommand (v : Word) {s : State} (hC : Kept fz tz s.card) :
    Leaves (Kept fz tz) (execLoaderBadCommand v s) := by
  refine leaves_run (kept_hostWrite _ _ _ _ hC (fun _ h => kept_ite h (kept_ite (kept_bump _ _ _ h) ?_)))
  extract_lets c₁
  have h₁ : Kept fz tz c₁ := kept_setF _ _ _ _ _ (kept_setF _ _ _ _ _ h)
  exact kept_ite (kept_loaderResult _ _ _ h₁) (kept_loaderResult _ _ _ h₁)

theorem kept_execLayoutCommandDone {s : State} (hC : Kept fz tz s.card) :
    Leaves (Kept fz tz) (execLayoutCommandDone s) := by
  refine leaves_run ?_
  extract_lets
  split
  · exact hC
  · refine kept_ite hC ?_
    extract_lets _ c₁ c₂
    have h₁ : Kept fz tz c₁ := kept_noteImage _ _ _ (kept_loaderIdle _ hC)
    have h₂ : Kept fz tz c₂ := kept_loaderResult _ _ _ (kept_lastResult _ _ _ h₁)
    split
    · exact kept_loaderResult _ _ _ (kept_lastResult _ _ _ h₁)
    · exact kept_ite (kept_makePending _ _ _ h₂) (kept_ite (kept_stageImage _ _ _ h₂) h₂)

theorem kept_execLayoutApplication (h : Fin 4) {s : State} (hC : Kept fz tz s.card) :
    Leaves (Kept fz tz) (execLayoutApplication h s) := by
  refine leaves_run ?_
  extract_lets _ keepOld c₁
  have h₁ : Kept fz tz c₁ := kept_mk.2 hC
  have hold : ∀ c, Kept fz tz c → Kept fz tz (keepOld c) := by
    intro c hc
    dsimp only [keepOld]
    split
    · exact kept_applyLayout _ _ _ hc
    · exact kept_setFn _ _ _ hc
  refine kept_ite hC ?_
  split
  · exact hold _ hC
  · extract_lets c₂
    have h₂ : Kept fz tz c₂ := kept_noteCheck _ _ _ (kept_setN _ _ _ (kept_setBit _ _ _ _ h₁))
    split
    · exact hold _ (kept_lastResult _ _ _ h₂)
    · exact kept_applyLayout _ _ _ (kept_lastResult _ _ _ h₂)

theorem kept_execFlrDrainDone (h : Fin 4) (v : Option (Fin 8)) {s : State} (hC : Kept fz tz s.card) :
    Leaves (Kept fz tz) (execFlrDrainDone h v s) := by
  refine leaves_run ?_
  extract_lets _ _ c₁
  have h₁ : Kept fz tz c₁ := kept_setCfg _ _ _ hC
  split
  · exact kept_ite hC (kept_ite (kept_setFn _ _ _ h₁) (kept_pfReadable _ _ h₁))
  · extract_lets _ _ _ c₂ c₃ c₄
    have h₂ : Kept fz tz c₂ := kept_setF _ _ _ _ _ (kept_setF _ _ _ _ _ (kept_setF _ _ _ _ _ hC))
    have h₃ : Kept fz tz c₃ := kept_foldl (fun _ _ h => kept_ite (kept_setRing _ _ _ _ h) h) _ h₂
    have h₄ : Kept fz tz c₄ := kept_setFn _ _ _ (kept_bumpF _ _ _ _ _ (kept_setCfg _ _ _ h₃))
    exact kept_ite hC (kept_raise _ _ _ h₄)

theorem kept_execPfD3hotExit (h : Fin 4) {s : State} (hC : Kept fz tz s.card) :
    Leaves (Kept fz tz) (execPfD3hotExit h s) := by
  refine leaves_run ?_
  extract_lets _ _ c₁
  have h₁ : Kept fz tz c₁ := kept_setFn _ _ _ (kept_setCfg _ _ _ hC)
  exact kept_ite hC (kept_ite (kept_pfReadable _ _ h₁) h₁)

theorem kept_execRefresh (ch : Fin 8) (sub : Fin 2) {s : State} (hC : Kept fz tz s.card) :
    Leaves (Kept fz tz) (execRefresh ch sub s) := by
  exact leaves_run (kept_ite hC (kept_ite (kept_setBit _ _ _ _ (kept_mk.2 (kept_enforce _ _ _ (kept_mk.2 hC)))) (kept_mk.2
      hC)))

theorem kept_execDriftWindowEnd {s : State} (hC : Kept fz tz s.card) :
    Leaves (Kept fz tz) (execDriftWindowEnd s) := by
  exact leaves_run (kept_ite hC (kept_restartDrift _ (kept_foldl (fun _ _ h => kept_ite (kept_event _ _ _ _ h) h) _ hC)))

theorem kept_execIdleSelfRefresh (ch : Fin 8) {s : State} (hC : Kept fz tz s.card) :
    Leaves (Kept fz tz) (execIdleSelfRefresh ch s) := by
  exact leaves_run (kept_ite hC (kept_closeRows _ _ (kept_loseSegments _ _ (kept_setF _ _ _ _ _ (kept_advanceTo _ _ hC)))))

theorem kept_execRankRetire (v : Word) {s : State} (hC : Kept fz tz s.card) :
    Leaves (Kept fz tz) (execRankRetire v s) := by
  refine leaves_run (kept_hostWrite _ _ _ _ hC fun _ h => ?_)
  extract_lets c₁
  have h₁ : Kept fz tz c₁ := kept_writeReg _ _ _ h
  refine kept_ite h₁ (kept_ite (kept_setF _ _ _ _ _ h₁) ?_)
  exact kept_ite (kept_setF _ _ _ _ _ (kept_retireCause _ _ _ h₁)) (kept_setF _ _ _ _ _ h₁)

theorem kept_execMigrationStart {s : State} (hC : Kept fz tz s.card) :
    Leaves (Kept fz tz) (execMigrationStart s) := by
  refine leaves_run (kept_ite hC ?_)
  extract_lets
  split
  · refine kept_ite hC ?_
    split
    · exact kept_abandonMigration _ _ hC
    · exact kept_setMigr _ _ (kept_beginMigration _ _ _ hC)
  · split
    · exact hC
    · extract_lets c₁
      have h₁ : Kept fz tz c₁ := kept_setMigrQ _ _ hC
      split
      · exact kept_abandonMigration _ _ h₁
      · exact kept_setMigr _ _ (kept_beginMigration _ _ _ h₁)

theorem kept_execMigrationChunkDone (bad : List Nat) (ce : Nat) (fails : Bool) {s : State} (hC : Kept fz tz s.card) :
    Leaves (Kept fz tz) (execMigrationChunkDone bad ce fails s) := by
  refine leaves_run ?_
  split
  · exact hC
  · refine kept_ite hC ?_
    refine kept_ite (kept_targetFailed _ hC) ?_
    extract_lets _ _ c₁ _ c₂ c₃
    have h₁ : Kept fz tz c₁ := kept_ite (kept_countCe _ _ _ _ hC) hC
    have h₂ : Kept fz tz c₂ := kept_setMigr _ _ (kept_copyChunk _ _ _ _ h₁)
    have h₃ : Kept fz tz c₃ := kept_foldl (fun _ _ h => kept_poisonLine _ _ h) _ h₂
    exact kept_releaseAll _ (kept_ite (kept_endMigration _ _ h₃) h₃)

theorem kept_execEqualUnitRetryStart (h : Fin 4) (cls : Fin 9) (u : Nat) (ok : Bool)
    {s : State} (hC : Kept fz tz s.card) :
    Leaves (Kept fz tz) (execEqualUnitRetryStart h cls u ok s) := by
  refine leaves_run ?_
  extract_lets
  refine kept_ite hC (kept_ite ?_ ?_)
  · split
    · exact hC
    · split
      · exact hC
      · exact kept_ite hC (kept_settleFences _ _ (kept_sliceOnEqual _ _ _ _ _ _ _ _ hC))
  · split
    · exact hC
    · exact kept_ite hC (kept_settleFences _ _ (kept_retryOnEqual _ _ _ _ _ _ _ hC))

theorem kept_execUnitReinstate (h : Fin 4) (v : Word) {s : State} (hC : Kept fz tz s.card) :
    Leaves (Kept fz tz) (execUnitReinstate h v s) := by
  refine leaves_run (kept_hostWrite _ _ _ _ hC fun _ h => ?_)
  extract_lets _ c₁
  have h₁ : Kept fz tz c₁ := kept_writeReg _ _ _ h
  exact kept_ite h (kept_ite h₁ (kept_ite (kept_setBit _ _ _ _ (kept_setF _ _ _ _ _ h₁)) (kept_setF _ _ _ _ _ h₁)))

theorem kept_execColanderReinstate (v : Word) {s : State} (hC : Kept fz tz s.card) :
    Leaves (Kept fz tz) (execColanderReinstate v s) := by
  refine leaves_run (kept_hostWrite _ _ _ _ hC fun _ h => ?_)
  extract_lets _ c₁
  have h₁ : Kept fz tz c₁ := kept_writeReg _ _ _ h
  exact kept_ite h (kept_ite h₁ (kept_ite (kept_setBit _ _ _ _ (kept_setF _ _ _ _ _ h₁)) (kept_setF _ _ _ _ _ h₁)))

theorem kept_execSelfTestDone (h : Option (Fin 4)) (passed : Bool) {s : State} (hC : Kept fz tz s.card) :
    Leaves (Kept fz tz) (execSelfTestDone h passed s) := by
  refine leaves_run ?_
  extract_lets _ _ _ c₁ c₂
  have h₁ : Kept fz tz c₁ := kept_setF _ _ _ _ _ (kept_setBit _ _ _ _ hC)
  have h₂ : Kept fz tz c₂ := kept_ite (kept_setBit _ _ _ _ (kept_reinstated _ _ _ _ h₁)) h₁
  split
  · extract_lets _ _ _ c₃ c₄
    have h₃ : Kept fz tz c₃ := kept_setF _ _ _ _ _ (kept_setBit _ _ _ _ hC)
    have h₄ : Kept fz tz c₄ := kept_ite (kept_reinstated _ _ _ _ h₃) h₃
    exact kept_ite hC (kept_hpEvent _ _ _ _ _ (kept_logVerdict _ _ _ _ _ _ _ h₄))
  · exact kept_ite hC (kept_logVerdict _ _ _ _ _ _ _ h₂)

theorem kept_execStartAcknowledged {s : State} (hC : Kept fz tz s.card) :
    Leaves (Kept fz tz) (execStartAcknowledged s) := by
  refine leaves_run ?_
  extract_lets c₁
  have h₁ : Kept fz tz c₁ := kept_settleB _ hC
  split
  · exact h₁
  · extract_lets c₂ _ c₃
    have h₂ : Kept fz tz c₂ := kept_ite (kept_sharesFor _ _ h₁) h₁
    have h₃ : Kept fz tz c₃ := kept_ite (kept_advanceTo _ _ h₂) h₂
    exact kept_ite (kept_govFlags _ h₂) (kept_govFlags _ (kept_acknowledge _ _ (kept_settleB _ h₃)))

theorem kept_execBallastDecayTick (p : PowerSense) {s : State} (hC : Kept fz tz s.card) :
    Leaves (Kept fz tz) (execBallastDecayTick p s) := by
  exact leaves_run (kept_ite hC (kept_govFlags _ (kept_mk.2 (kept_settleB _ (kept_setF _ _ _ _ _ (kept_setN _ _ _ hC))))))

theorem kept_execAuxCableConnect (sense : Fin 4) {s : State} (hC : Kept fz tz s.card) :
    Leaves (Kept fz tz) (execAuxCableConnect sense s) := by
  exact leaves_run (kept_ite hC (kept_ite (kept_startQual _ (kept_setBit _ _ _ _ (kept_setBit _ _ _ _ (kept_mk.2 hC))))
      (kept_mk.2 hC)))

theorem kept_execAuxQualifyExpiry {s : State} (hC : Kept fz tz s.card) :
    Leaves (Kept fz tz) (execAuxQualifyExpiry s) := by
  refine leaves_run ?_
  split
  · refine kept_ite hC ?_
    exact kept_bootVoltage _ (kept_setF _ _ _ _ _ (kept_setF _ _ _ _ _ (kept_endQual _ (kept_advanceTo _ _ hC))))
  · exact hC

theorem kept_execAuxPowerLost (gone : Bool) {s : State} (hC : Kept fz tz s.card) :
    Leaves (Kept fz tz) (execAuxPowerLost gone s) := by
  refine leaves_run (kept_ite hC ?_)
  extract_lets _ c₁ c₂
  have h₁ : Kept fz tz c₁ := kept_ite (kept_mk.2 hC) (kept_mk.2 hC)
  have h₂ : Kept fz tz c₂ := kept_ite (kept_setBit _ _ _ _ (kept_setBit _ _ _ _ h₁)) h₁
  refine kept_ite h₁ ?_
  split
  · exact kept_ite h₂ (kept_setF _ _ _ _ _ (kept_coreDown _ (kept_pwrEvent _ _ h₂)))
  · exact kept_ite h₂ (kept_startQual _ h₂)
  · exact h₂

theorem kept_execOutwardSupplyEnableWrite (v : Word) {s : State} (hC : Kept fz tz s.card) :
    Leaves (Kept fz tz) (execOutwardSupplyEnableWrite v s) := by
  refine leaves_run (kept_hostWrite _ _ _ _ hC fun _ h => ?_)
  exact kept_checkSupplies _ (kept_foldl (fun _ _ h => kept_writeEn _ _ _ h) _ (kept_writeReg _ _ _ h))

theorem kept_execHubSensorSample (ts : List (Option Int)) {s : State} (hC : Kept fz tz s.card) :
    Leaves (Kept fz tz) (execHubSensorSample ts s) := by
  refine leaves_run (kept_ite hC ?_)
  extract_lets c₁
  have h₁ : Kept fz tz c₁ := kept_foldl (fun _ _ h => kept_setSensor _ _ _ h) _ hC
  split
  · exact kept_draw _ (kept_draw _ (kept_trip _ _ _ h₁))
  · extract_lets _ c₂ c₃
    have h₂ : Kept fz tz c₂ := kept_setF _ _ _ _ _ (kept_setF _ _ _ _ _ h₁)
    have h₃ : Kept fz tz c₃ := kept_ite (kept_setF _ _ _ _ _ h₂) h₂
    split
    · exact kept_ite (kept_trip _ _ _ h₃) (kept_stageFor _ _ h₃)
    · exact h₃

theorem kept_execModuleTempSample (ch : Fin 8) (t : Option Int) {s : State} (hC : Kept fz tz s.card) :
    Leaves (Kept fz tz) (execModuleTempSample ch t s) := by
  refine leaves_run (kept_ite hC ?_)
  extract_lets _ c₁
  have h₁ : Kept fz tz c₁ := kept_setSensor _ _ _ hC
  split
  · exact kept_setSensor _ _ _ hC
  · extract_lets c₂ c₃
    have h₂ : Kept fz tz c₂ := kept_ite (kept_thmEvent _ _ (kept_setSensor _ _ _ hC)) (kept_setSensor _ _ _ hC)
    have h₃ : Kept fz tz c₃ := kept_bandSample _ _ _ h₂
    exact kept_ite (kept_ite (kept_mk.2 h₃) (kept_trip _ _ _ h₂)) (kept_bandSample _ _ _ h₂)

theorem kept_execAvsPoll (p : AvsPoll) {s : State} (hC : Kept fz tz s.card) :
    Leaves (Kept fz tz) (execAvsPoll p s) := by
  refine leaves_run (kept_ite hC ?_)
  extract_lets c₁ c₂ c₃
  have h₁ : Kept fz tz c₁ := kept_setN _ _ _ hC
  have h₂ : Kept fz tz c₂ := kept_setSensor _ _ _ h₁
  have h₃ : Kept fz tz c₃ := kept_ite (kept_event _ _ _ _ h₂) h₂
  exact kept_ite (kept_trip _ _ _ h₃) h₃

theorem kept_execWarmingTick (mw : Nat) {s : State} (hC : Kept fz tz s.card) :
    Leaves (Kept fz tz) (execWarmingTick mw s) := by
  refine leaves_run (kept_ite hC ?_)
  extract_lets _ _ c₁ c₂ c₃
  have h₁ : Kept fz tz c₁ := kept_mk.2 hC
  have h₂ : Kept fz tz c₂ := kept_setPair _ _ _ _ h₁
  have h₃ : Kept fz tz c₃ := kept_setF _ _ _ _ _ h₂
  refine kept_ite h₃ ?_
  exact kept_ite (kept_ite h₃ (kept_govStart _ _ _ _ h₃)) (kept_ite (kept_govFlags _ (kept_stopShares _ _ h₃)) h₃)

theorem kept_execRestage (v : Word) {s : State} (hC : Kept fz tz s.card) :
    Leaves (Kept fz tz) (execRestage v s) := by
  exact leaves_run (kept_hostWrite _ _ _ _ hC (fun _ h => kept_ksGo _ _ _ _ h (fun _ h => kept_ksEnd _ _ (kept_mk.2 h))))

theorem kept_execAbandon (v : Word) {s : State} (hC : Kept fz tz s.card) :
    Leaves (Kept fz tz) (execAbandon v s) := by
  refine leaves_run (kept_hostWrite _ _ _ _ hC fun _ h => ?_)
  exact kept_ksGo _ _ _ _ h (fun _ h => kept_ite (kept_ksEnd _ _ (kept_mk.2 h)) (kept_ksEnd _ _ h))

theorem kept_execKsBadCommand (v : Word) {s : State} (hC : Kept fz tz s.card) :
    Leaves (Kept fz tz) (execKsBadCommand v s) := by
  exact leaves_run (kept_hostWrite _ _ _ _ hC (fun _ h => kept_ite h (kept_ksGo _ _ _ _ h (fun _ h => kept_ksEnd _ _ h))))

theorem kept_execStoreCommit (ok : Bool) {s : State} (hC : Kept fz tz s.card) :
    Leaves (Kept fz tz) (execStoreCommit ok s) := by
  refine leaves_run (kept_ite hC ?_)
  split
  · extract_lets c₁ _ c₂ c₃
    have h₁ : Kept fz tz c₁ := by
      dsimp only [c₁]
      split
      · exact kept_commitBank _ _ _ _ hC
      · exact hC
    have h₂ : Kept fz tz c₂ := kept_mk.2 h₁
    have h₃ : Kept fz tz c₃ := kept_ite (kept_ksEvent _ _ h₂) (kept_giveBack _ _ h₂)
    split
    · exact kept_ite (kept_startHostStore _ _ h₃) h₃
    · exact h₃
  · split
    · exact kept_ite hC (kept_ksEnd _ _ (kept_ite (kept_mk.2 (kept_commitBank _ _ _ _ hC)) (kept_commitBank _ _ _ _ hC)))
    · exact hC
  · exact hC

theorem kept_execKsStagingAccess (w : Option Word) {s : State} (hC : Kept fz tz s.card) :
    Leaves (Kept fz tz) (execKsStagingAccess w s) := by
  refine leaves_run ?_
  extract_lets
  split
  · exact kept_hostWrite _ _ _ _ hC (fun _ h => kept_ite h (kept_stgStep _ (kept_mk.2 h)))
  · refine kept_ite (kept_draw _ (kept_unclaimed _ _ _ _ hC)) ?_
    exact kept_ite (kept_emit _ _ hC) (kept_stgStep _ (kept_emit _ _ hC))

theorem kept_execButtonPress (down : Bool) {s : State} (hC : Kept fz tz s.card) :
    Leaves (Kept fz tz) (execButtonPress down s) := by
  exact leaves_run (kept_ite (kept_mk.2 hC) (kept_ite (kept_grantWindow _ _ (kept_mk.2 hC)) (kept_bump _ _ _ (kept_mk.2
      hC))))

theorem kept_execPresenceTimeout {s : State} (hC : Kept fz tz s.card) :
    Leaves (Kept fz tz) (execPresenceTimeout s) := by
  refine leaves_run ?_
  split
  · exact hC
  · refine kept_ite hC ?_
    extract_lets c₁ c₂
    have h₁ : Kept fz tz c₁ := kept_advanceTo _ _ hC
    have h₂ : Kept fz tz c₂ := kept_ksEvent _ _ (kept_presenceLog _ _ _ _ _ (kept_endPresence _ h₁))
    exact kept_ite (kept_fuseEnd _ _ h₂) (kept_ite (kept_setBit _ _ _ _ h₂) (kept_ksEnd _ _ h₂))

theorem kept_execWarmRecheck (ms : List FuseMargin) {s : State} (hC : Kept fz tz s.card) :
    Leaves (Kept fz tz) (execWarmRecheck ms s) := by
  refine leaves_run (kept_ite hC ?_)
  extract_lets c₁
  have h₁ : Kept fz tz c₁ := kept_foldl (fun _ _ h => kept_ite h (kept_fuseEvents _ _ _ (kept_fuseLog _ _ _ _ _ _ _
      (kept_setReg _ _ _ (kept_setReg _ _ _ h))))) _ hC
  refine kept_foldl (fun _ _ h => ?_) _ (kept_setUnits _ (kept_countMargins _ (kept_setBit _ _ _ _ h₁)))
  exact kept_settleGroups _ _ (kept_settleRetries _ _ h)

theorem kept_execFuseProgram (v : Word) {s : State} (hC : Kept fz tz s.card) :
    Leaves (Kept fz tz) (execFuseProgram v s) := by
  refine leaves_run (kept_hostWrite _ _ _ _ hC (fun _ h => kept_ite h ?_))
  extract_lets _ c₁
  have h₁ : Kept fz tz c₁ := kept_mk.2 h
  refine kept_ite (kept_fuseEnd _ _ h) (kept_ite (kept_fuseEnd _ _ h) ?_)
  exact kept_askPresence _ _ _ _ _ _ h₁ (fun _ h => kept_startFuse _ h) (fun _ h => kept_fuseEnd _ _ h) (fun _ h =>
      kept_setBit _ _ _ _ h)

theorem kept_execFuseProgramDone (solid : Word) {s : State} (hC : Kept fz tz s.card) :
    Leaves (Kept fz tz) (execFuseProgramDone solid s) := by
  refine leaves_run ?_
  split
  · exact hC
  · exact kept_ite hC (kept_fuseEnd _ _ (kept_blow _ _ _ hC))

theorem kept_execSealBreak {s : State} (hC : Kept fz tz s.card) :
    Leaves (Kept fz tz) (execSealBreak s) := by
  refine leaves_run (kept_ite hC ?_)
  extract_lets _ c₁ _ c₂
  have h₁ : Kept fz tz c₁ := kept_mk.2 hC
  have h₂ : Kept fz tz c₂ := kept_ite (kept_mk.2 h₁) h₁
  exact kept_ite (kept_recordSeal _ h₂) h₂

theorem kept_execKeepLoad (ms : List FuseMargin) {s : State} (hC : Kept fz tz s.card) :
    Leaves (Kept fz tz) (execKeepLoad ms s) := by
  refine leaves_run (kept_ite hC ?_)
  extract_lets _ _ c₁ c₂ c₃ c₄ c₅ c₆
  have h₁ : Kept fz tz c₁ := kept_mk.2 hC
  have h₂ : Kept fz tz c₂ := kept_ite (kept_enterStage _ _ h₁) (kept_recordsChanged _ _ _ (kept_loadBanks _ (kept_enterStage
      _ _ h₁)))
  have h₃ : Kept fz tz c₃ := kept_foldl (fun _ _ h => kept_readFuse _ _ _ h) _ h₂
  have h₄ : Kept fz tz c₄ := kept_foldl (fun _ _ h => kept_fuseEvents _ _ _ (kept_ite h (kept_fuseLog _ _ _ _ _ _ _ h))) _ h₃
  have h₅ : Kept fz tz c₅ := kept_countMargins _ (kept_setBit _ _ _ _ h₄)
  have h₆ : Kept fz tz c₆ := kept_setUnits _ (kept_setReg _ _ _ (kept_setReg _ _ _ h₅))
  exact kept_ite (kept_setBit _ _ _ _ h₅) (kept_ite (kept_recordSeal _ h₆) h₆)

theorem kept_execMemDelays (rs : List ModuleResult) {s : State} (hC : Kept fz tz s.card) :
    Leaves (Kept fz tz) (execMemDelays rs s) := by
  refine leaves_run (kept_ite hC ?_)
  extract_lets _ c₁ c₂
  have h₁ : Kept fz tz c₁ := kept_setN _ _ _ (kept_enterStage _ _ hC)
  have h₂ : Kept fz tz c₂ := kept_ite (kept_thmEvent _ _ h₁) h₁
  refine kept_foldl (fun _ _ h => ?_) _ h₂
  split
  · exact kept_bringChannel _ _ _ h
  · exact h

theorem kept_execMemReady {s : State} (hC : Kept fz tz s.card) :
    Leaves (Kept fz tz) (execMemReady s) := by
  refine leaves_run (kept_ite hC ?_)
  extract_lets c₁ _ _ _ c₂ c₃
  have h₁ : Kept fz tz c₁ := kept_emptyCache _ (kept_enterStage _ _ hC)
  have h₂ : Kept fz tz c₂ := kept_foldl (fun _ _ h => kept_ite h (kept_setRank _ _ _ _ h)) _ h₁
  have h₃ : Kept fz tz c₃ := by
    refine kept_foldl (fun _ _ h => ?_) _ h₂
    refine kept_ite h ?_
    split
    · exact kept_redirectRank _ _ _ (kept_setRank _ _ _ _ (kept_setRank _ _ _ _ h))
    · exact kept_loseRank _ _ h
  exact kept_trainPort _ _ (kept_trainPort _ _ (kept_setCapacity _ h₃))

theorem kept_execHampersReady {s : State} (hC : Kept fz tz s.card) :
    Leaves (Kept fz tz) (execHampersReady s) := by
  refine leaves_run ?_
  extract_lets _ c₁ c₂ c₃ c₄
  have h₁ : Kept fz tz c₁ := kept_enterStage _ _ hC
  have h₂ : Kept fz tz c₂ := kept_foldl (fun _ _ h => kept_ite (kept_setBit _ _ _ _ h) h) _ h₁
  have h₃ : Kept fz tz c₃ := kept_foldl (fun _ _ h => kept_setPace _ _ _ h) _ h₂
  have h₄ : Kept fz tz c₄ := kept_startWindows _ h₃
  exact kept_ite hC (kept_ite (kept_event _ _ _ _ (kept_setBit _ _ _ _ h₄)) h₄)

theorem kept_execConventionalReset {s : State} (hC : Kept fz tz s.card) :
    Leaves (Kept fz 0) (execConventionalReset s) := by
  refine leaves_run (kept_ite { hC with time := Nat.zero_le _ } ?_)
  extract_lets _ c₁ c₂ c₃
  have h₁ : Kept fz 0 c₁ :=
    { mem := rfl, sram := rfl, regs := rfl, sems := rfl, fuses := hC.fuses, time := Nat.zero_le _ }
  have h₂ : Kept fz 0 c₂ := kept_setF _ _ _ _ _ h₁
  have h₃ : Kept fz 0 c₃ := kept_ite (kept_setF _ _ _ _ _ h₂) h₂
  exact kept_powerUp _ h₃

theorem kept_execHotReset {s : State} (hC : Kept fz tz s.card) :
    Leaves (Kept fz tz) (execHotReset s) := by
  refine leaves_run (kept_ite hC ?_)
  extract_lets c₁ _ _ c₂ c₃ c₄
  have h₁ : Kept fz tz c₁ := kept_ite (kept_restartPtm _ (kept_setSync _ _ hC)) hC
  have h₂ : Kept fz tz c₂ := kept_foldl (fun _ _ h => kept_askPfReset _ _ _ _ _ h) _ h₁
  have h₃ : Kept fz tz c₃ := kept_foldl (fun _ _ h => kept_ite (kept_setFn _ _ _ h) h) _ h₂
  have h₄ : Kept fz tz c₄ := kept_clearCfg _ h₃
  exact kept_foldl (fun _ _ h => kept_pfReadable _ _ (kept_setFn _ _ _ h)) _ h₄

theorem kept_execVfEnableWrite (h : Fin 4) (en : Bool) (num : Option Nat) {s : State} (hC : Kept fz tz s.card) :
    Leaves (Kept fz tz) (execVfEnableWrite h en num s) := by
  refine leaves_run ?_
  extract_lets _ _ _ c₁ c₂
  have h₁ : Kept fz tz c₁ := kept_setCfg _ _ _ hC
  have h₂ : Kept fz tz c₂ := kept_foldl (fun _ _ h => kept_resetVf _ _ _ h) _ h₁
  refine kept_ite hC (kept_ite h₁ ?_)
  exact kept_ite (kept_ite (kept_startVfs _ _ (kept_setCfg _ _ _ h₁)) h₁) (kept_dropVfs _ _ (kept_setCfg _ _ _ h₂))

theorem kept_execBusMasterEnableWrite (fn : Fn) (en : Bool) {s : State} (hC : Kept fz tz s.card) :
    Leaves (Kept fz tz) (execBusMasterEnableWrite fn en s) := by
  refine leaves_run (kept_ite hC ?_)
  extract_lets _ _ c₁ c₂
  have h₁ : Kept fz tz c₁ := kept_setCfg _ _ _ hC
  have h₂ : Kept fz tz c₂ := kept_ite (kept_msixRelease _ _ h₁) h₁
  exact kept_ite (kept_pumpFn _ _ (kept_ite (kept_settleSigs _ h₂) h₂)) h₂

theorem kept_execVfResourceWrite (h : Fin 4) (v : Fin 8) (kind : VfResource) (val : Word)
    {s : State} (hC : Kept fz tz s.card) :
    Leaves (Kept fz tz) (execVfResourceWrite h v kind val s) := by
  unfold execVfResourceWrite
  extract_lets
  exact leaves_run (kept_hostWrite _ _ _ _ hC (fun _ h => kept_ite h (kept_setN _ _ _ h)))

theorem kept_execFreezeSettled {s : State} (hC : Kept fz tz s.card) :
    Leaves (Kept fz tz) (execFreezeSettled s) := by
  refine leaves_run (kept_ite hC ?_)
  extract_lets c₁ c₂ c₃
  have h₁ : Kept fz tz c₁ := kept_draw _ (kept_setN _ _ _ (kept_stampUnits _ hC))
  have h₂ : Kept fz tz c₂ := kept_foldl (fun _ _ h => kept_ite (kept_setF _ _ _ _ _ h) h) _ h₁
  have h₃ : Kept fz tz c₃ := kept_settleStop _ (kept_stopShares _ _ h₂)
  exact kept_raise _ _ _ (kept_setBit _ _ _ _ (kept_setBit _ _ _ _ h₃))

theorem kept_execThawComplete (exitFailed : Bool) {s : State} (hC : Kept fz tz s.card) :
    Leaves (Kept fz tz) (execThawComplete exitFailed s) := by
  refine leaves_run ?_
  extract_lets _ _ c₁ c₂ c₃ c₄
  have h₁ : Kept fz tz c₁ := kept_foldl (fun _ _ h => kept_ite (kept_setF _ _ _ _ _ h) h) _ hC
  have h₂ : Kept fz tz c₂ := kept_setPair _ _ _ _ (kept_setF _ _ _ _ _ (kept_shiftTimers _ _ h₁))
  have h₃ : Kept fz tz c₃ := kept_raise _ _ _ (kept_setF _ _ _ _ _ h₂)
  have h₄ : Kept fz tz c₄ := kept_govFlags _ (kept_resume _ h₃)
  refine kept_ite hC (kept_ite ?_ ?_)
  · exact kept_loseRetention _ (kept_setF _ _ _ _ _ (kept_setBit _ _ _ _ hC))
  · split
    · exact kept_freezeWave _ _ (kept_endRefreeze _ h₄)
    · exact h₄

theorem kept_execReadoutDone (bad : List Nat) {s : State} (hC : Kept fz tz s.card) :
    Leaves (Kept fz tz) (execReadoutDone bad s) := by
  exact leaves_run (kept_ite hC (kept_setBit _ _ _ _ (kept_setBit _ _ _ _ (kept_setBit _ _ _ _ (kept_mk.2 (kept_fillRo _ _
      hC))))))

theorem kept_execJtagRoAccess (dr : BitVec 48) {s : State} (hC : Kept fz tz s.card) :
    Leaves (Kept fz tz) (execJtagRoAccess dr s) := by
  refine leaves_run (kept_ite hC ?_)
  extract_lets c₁ _ _ _ _ c₂ _ c₃
  have h₁ : Kept fz tz c₁ := kept_emit _ _ (kept_jtagIr _ _ hC)
  have h₂ : Kept fz tz c₂ := kept_draw _ (kept_draw _ h₁)
  have h₃ : Kept fz tz c₃ := kept_mk.2 h₂
  exact kept_ite (kept_ite (kept_frzWrite _ _ _ h₃) (kept_bump _ _ _ h₃)) h₃

theorem kept_execJtagExtest (dr len : Nat) {s : State} (hC : Kept fz tz s.card) :
    Leaves (Kept fz tz) (execJtagExtest dr len s) := by
  refine leaves_run (kept_ite hC ?_)
  exact kept_ite (kept_jtagShift _ _ _ (kept_jtagIr _ _ hC)) (kept_mk.2 (kept_jtagPins _ _ (kept_jtagIr _ _ hC)))

theorem kept_execBoardSensorPoll (p : BoardSense) {s : State} (hC : Kept fz tz s.card) :
    Leaves (Kept fz tz) (execBoardSensorPoll p s) := by
  exact leaves_run (kept_ite hC (kept_ite (kept_setSensor _ _ _ (kept_setSensor _ _ _ (kept_mk.2 hC))) (kept_mk.2 hC)))

theorem kept_execSmbusReadByte (code : Fin 256) {s : State} (hC : Kept fz tz s.card) :
    Leaves (Kept fz tz) (execSmbusReadByte code s) := by
  refine leaves_run (kept_ite (kept_emit _ _ hC) ?_)
  exact kept_ite (kept_mk.2 (kept_draw _ (kept_smbusAnswer _ _ _ hC))) (kept_draw _ (kept_smbusAnswer _ _ _ hC))

theorem kept_execDaughterboardRemoved {s : State} (hC : Kept fz tz s.card) :
    Leaves (Kept fz tz) (execDaughterboardRemoved s) := by
  exact leaves_run (kept_checkSupplies _ (kept_setBit _ _ _ _ (kept_foldl (fun _ _ h => kept_ite (kept_setLink _ _ _ _ _ h)
      h) _ hC)))

theorem kept_execOperationRetire (h : Fin 4) (r : Fin 16) (seq : Nat) (errs : List MemErr)
    {s : State} (hC : Kept fz tz s.card) :
    Leaves (Kept fz tz) (execOperationRetire h r seq errs s) := by
  refine leaves_run ?_
  extract_lets
  split
  · exact hC
  · refine kept_ite hC ?_
    extract_lets c₁
    have h₁ : Kept fz tz c₁ := kept_lastSteps _ _ _ _ _ hC
    split
    · exact h₁
    · refine kept_ite h₁ ?_
      extract_lets
      refine kept_ite ?_ ?_
      · exact kept_setOp _ _ _ _ (kept_failData _ _ _ (kept_ite_fst (kept_memErrs _ _ _ _ _ h₁) h₁))
      · exact kept_retireRan _ _ _ _ (kept_failData _ _ _ (kept_ite_fst (kept_memErrs _ _ _ _ _ h₁) h₁))

/-- Every command keeps the canonical forms and the blown fuse bits, and card time where R31 does not let it start again. -/
theorem kept_exec (i : Instr) {s : State} (hC : Kept fz tz s.card) : Leaves (Kept fz (timeFloor tz i)) (exec i s) := by
  unfold exec
  cases i with
  | registerWrite _ => exact kept_execRegisterWrite _ hC
  | rcFieldRead _ _ _ => exact kept_execRcFieldRead _ _ _ hC
  | pairLoRead _ _ => exact leaves_run (kept_read32 _ _ _ _ hC)
  | pairLoWrite _ _ _ => exact kept_execPairLoWrite _ _ _ hC
  | pairHiWrite _ _ _ => exact kept_execPairHiWrite _ _ _ hC
  | frozenBarAccess _ _ => exact kept_execFrozenBarAccess _ _ hC
  | poolEnable _ _ _ => exact kept_execPoolEnable _ _ _ hC
  | poolDisable _ _ _ => exact kept_execPoolDisable _ _ _ hC
  | poolCheckDone _ => exact kept_execPoolCheckDone _ hC
  | poolHostTake _ _ => exact kept_execPoolHostTake _ _ hC
  | poolHostFree _ _ => exact leaves_run (kept_hostWrite _ _ _ _ hC (fun _ h => kept_poolFree _ _ _ _ _ _ _ _ h))
  | poolAudit _ _ => exact kept_execPoolAudit _ _ hC
  | auditScanDone _ => exact kept_execAuditScanDone _ hC
  | contextEntryWrite _ _ => exact kept_execContextEntryWrite _ _ hC
  | translationInvalidate _ _ => exact kept_execTranslationInvalidate _ _ hC
  | invalidationDone _ => exact leaves_run (kept_ite hC (kept_mk.2 (kept_setBit _ _ _ _ hC)))
  | regionOwnerWrite _ _ => exact kept_execRegionOwnerWrite _ _ hC
  | apertureMapWrite _ _ _ _ => exact kept_execApertureMapWrite _ _ _ _ hC
  | faultLogHeadWrite _ => exact kept_execFaultLogHeadWrite _ hC
  | faultLogClear _ => exact kept_execFaultLogClear _ hC
  | recordRingEnable _ _ _ => exact kept_execRecordRingEnable _ _ _ hC
  | heartbeat _ _ => exact kept_execHeartbeat _ _ hC
  | fetchCompletionTimeout _ => exact kept_execFetchCompletionTimeout _ hC
  | hostReadCompletion _ _ _ => exact kept_execHostReadCompletion _ _ _ hC
  | doorbell _ _ _ => exact kept_execDoorbell _ _ _ hC
  | commandFetchDone _ _ => exact kept_execCommandFetchDone _ _ hC
  | waitTimeout _ _ => exact kept_execWaitTimeout _ _ hC
  | ringEnable _ _ _ => exact kept_execRingEnable _ _ _ hC
  | ringDisable _ _ _ => exact kept_execRingDisable _ _ _ hC
  | ringDrainDone _ _ =>
    exact leaves_run (kept_ite hC (kept_ite (kept_ringStart _ _ _ (kept_setRing _ _ _ _ hC)) (kept_setRing _ _ _ _ hC)))
  | completionHeadWrite _ _ _ => exact kept_execCompletionHeadWrite _ _ _ hC
  | semaphoreHostWrite _ _ _ => exact kept_execSemaphoreHostWrite _ _ _ hC
  | flushHeldDiscard _ _ => exact kept_execFlushHeldDiscard _ _ hC
  | recordRingDisable _ _ _ => exact kept_execRecordRingDisable _ _ _ hC
  | recordHeadWrite _ _ _ => exact kept_execRecordHeadWrite _ _ _ hC
  | waitSatisfied _ _ => exact kept_execWaitSatisfied _ _ hC
  | frontNop _ _ => exact kept_execFrontNop _ _ hC
  | frontBarrier _ _ => exact kept_execFrontBarrier _ _ hC
  | frontStamp _ _ => exact kept_execFrontStamp _ _ hC
  | accClearAll _ _ => exact kept_execAccClearAll _ _ hC
  | accClearSlot _ _ => exact kept_execAccClearSlot _ _ hC
  | accSlotCfgWrite _ _ _ =>
    exact leaves_run (kept_hostWrite _ _ _ _ hC (fun _ h => kept_accClear _ _ _ (kept_setN _ _ _ h)))
  | apertureAccess _ _ _ _ _ => exact kept_execApertureAccess _ _ _ _ _ hC
  | sparseFirstWrite _ _ _ _ _ _ => exact kept_execSparseFirstWrite _ _ _ _ _ _ hC
  | moveCopy _ _ _ => exact leaves_run (kept_engine _ _ _ _ _ _ _ hC keeps_copyWork)
  | moveFill _ _ _ => exact leaves_run (kept_engine _ _ _ _ _ _ _ hC keeps_fillWork)
  | moveUnback _ _ _ => exact leaves_run (kept_engine _ _ _ _ _ _ _ hC keeps_unbackWork)
  | send _ _ _ => exact leaves_run (kept_engine _ _ _ _ _ _ _ hC keeps_sendWork)
  | decodeOpen _ _ _ => exact leaves_run (kept_engine _ _ _ _ _ _ _ hC keeps_openWork)
  | decodeFeed _ _ _ => exact leaves_run (kept_engine _ _ _ _ _ _ _ hC (keeps_feedWork _))
  | feedBytesQueued _ _ _ => exact kept_execFeedBytesQueued _ _ _ hC
  | decodeDrain _ _ _ _ => exact leaves_run (kept_engine _ _ _ _ _ _ _ hC (keeps_drainWork _))
  | decodeClose _ _ _ => exact leaves_run (kept_engine _ _ _ _ _ _ _ hC keeps_closeWork)
  | keyCommit _ _ => exact kept_execKeyCommit _ _ hC
  | keyClear _ _ => exact kept_execKeyClear _ _ hC
  | pictureDecodeStart _ _ _ _ => exact kept_execPictureDecodeStart _ _ _ _ hC
  | sequenceHeader _ _ _ => exact kept_execSequenceHeader _ _ _ hC
  | partitionReconstructed _ _ _ _ => exact kept_execPartitionReconstructed _ _ _ _ hC
  | damageDetected _ _ _ => exact kept_execDamageDetected _ _ _ hC
  | pictureComplete _ _ _ => exact kept_execPictureComplete _ _ _ hC
  | emitMotion _ _ _ => exact leaves_run (kept_engine _ _ _ _ _ _ _ hC keeps_emitMotionWork)
  | emit _ _ _ => exact leaves_run (kept_engine _ _ _ _ _ _ _ hC keeps_emitWork)
  | search _ _ _ => exact kept_execSearch _ _ _ hC
  | colanderSearchStart _ => exact kept_execColanderSearchStart _ hC
  | frameStart _ _ _ _ => exact kept_execFrameStart _ _ _ _ hC
  | frameEnd _ _ _ => exact kept_execFrameEnd _ _ _ hC
  | lineMarker _ _ _ => exact kept_execLineMarker _ _ _ hC
  | longPacket _ _ _ _ => exact kept_execLongPacket _ _ _ _ hC
  | rasterPacketTimeout _ _ => exact kept_execRasterPacketTimeout _ _ hC
  | rasterLinkChange _ _ _ _ => exact kept_execRasterLinkChange _ _ _ _ hC
  | frameWritesComplete _ _ => exact kept_execFrameWritesComplete _ _ hC
  | rasterCommitWrite _ _ _ => exact kept_execRasterCommitWrite _ _ _ hC
  | moveCommit _ _ _ => exact leaves_run (kept_engine _ _ _ _ _ _ _ hC keeps_commitWork)
  | rasterVcEnable _ _ _ => exact kept_execRasterVcEnable _ _ _ hC
  | prepare _ _ _ _ => exact kept_execPrepare _ _ _ _ hC
  | prepareProgressRelease _ _ _ _ => exact kept_execPrepareProgressRelease _ _ _ _ hC
  | backlogRefresh _ => exact kept_execBacklogRefresh _ hC
  | griddleRun _ _ _ => exact kept_execGriddleRun _ _ _ hC
  | griddlePassEnd _ _ => exact kept_execGriddlePassEnd _ _ hC
  | ptmIntervalExpiry =>
    exact leaves_run (kept_ite hC (kept_withClk le_rfl (kept_emit _ _ (kept_ite (kept_missedInterval _ hC) hC))))
  | ptmExchangeDone _ => exact leaves_run (kept_ite hC (kept_discipline _ _ _ hC))
  | ptmDisable => exact leaves_run (kept_ite hC (kept_withClk le_rfl (kept_setSync _ _ (kept_setCfg _ _ _ hC))))
  | paceWindowEnd => exact kept_execPaceWindowEnd hC
  | avsWriteAck => exact kept_execAvsWriteAck hC
  | avsWriteTimeout => exact leaves_run (kept_ite hC (kept_ite (kept_event _ _ _ _ hC) (kept_event _ _ _ _ (kept_mk.2 hC))))
  | remoteWriteAck _ _ => exact kept_execRemoteWriteAck _ _ hC
  | remoteTimeout _ => exact kept_execRemoteTimeout _ hC
  | dravazCableDetect _ _ => exact kept_execDravazCableDetect _ _ hC
  | linkTrained _ _ _ => exact kept_execLinkTrained _ _ _ hC
  | linkRetrain _ => exact leaves_run (kept_retrain _ _ hC)
  | portRetrain _ _ => exact kept_execPortRetrain _ _ hC
  | linkDownTimeout _ => exact kept_execLinkDownTimeout _ hC
  | dravazPacketReceived _ _ => exact kept_execDravazPacketReceived _ _ hC
  | remoteRequestReceived _ _ => exact kept_execRemoteRequestReceived _ _ hC
  | messageReceived _ _ => exact kept_execMessageReceived _ _ hC
  | msgRingEnable _ _ => exact kept_execMsgRingEnable _ _ hC
  | msgHeadWrite _ _ => exact kept_execMsgHeadWrite _ _ hC
  | windowCtlWrite _ _ _ => exact kept_execWindowCtlWrite _ _ _ hC
  | timeExchange _ => exact kept_execTimeExchange _ hC
  | layoutCheck _ => exact kept_execLayoutCheck _ hC
  | layoutLoad _ => exact kept_execLayoutLoad _ hC
  | setDefault _ => exact kept_execSetDefault _ hC
  | loadDefault _ => exact kept_execLoadDefault _ hC
  | loaderBadCommand _ => exact kept_execLoaderBadCommand _ hC
  | layoutCommandDone => exact kept_execLayoutCommandDone hC
  | layoutApplication _ => exact kept_execLayoutApplication _ hC
  | zeroFillDone _ => exact leaves_run (kept_ite (kept_fnReady _ _ hC) hC)
  | trackStep _ _ _ => exact leaves_run (kept_engine _ _ _ _ _ _ _ hC keeps_stepWork)
  | trackBatch _ _ _ => exact leaves_run (kept_engine _ _ _ _ _ _ _ hC keeps_batchWork)
  | trackUpdate _ _ _ => exact leaves_run (kept_engine _ _ _ _ _ _ _ hC keeps_updateWork)
  | trackSwap _ _ _ => exact leaves_run (kept_engine _ _ _ _ _ _ _ hC keeps_swapWork)
  | trackWithdraw _ _ _ => exact leaves_run (kept_engine _ _ _ _ _ _ _ hC keeps_withdrawWork)
  | pfFlr _ => exact leaves_run (kept_askPfReset _ _ _ _ _ hC)
  | vfFlr _ _ => exact leaves_run (kept_askVfReset _ _ _ hC)
  | flrDrainDone _ _ => exact kept_execFlrDrainDone _ _ hC
  | pfD3hotEntry _ => exact leaves_run (kept_ite hC (kept_askPfReset _ _ _ _ _ (kept_setCfg _ _ _ hC)))
  | pfD3hotExit _ => exact kept_execPfD3hotExit _ hC
  | delayApply _ _ => exact leaves_run (kept_hostWrite _ _ _ _ hC (fun _ h => kept_delayCtl _ _ _ h))
  | delayLoad _ _ => exact leaves_run (kept_hostWrite _ _ _ _ hC (fun _ h => kept_delayCtl _ _ _ h))
  | refresh _ _ => exact kept_execRefresh _ _ hC
  | driftWindowEnd => exact kept_execDriftWindowEnd hC
  | idleSelfRefresh _ => exact kept_execIdleSelfRefresh _ hC
  | rankRetire _ => exact kept_execRankRetire _ hC
  | migrationStart => exact kept_execMigrationStart hC
  | migrationChunkDone _ _ _ => exact kept_execMigrationChunkDone _ _ _ hC
  | unitStepFailure _ => exact leaves_run (kept_stepFault _ _ hC)
  | watchdogExpiry _ => exact leaves_run (kept_ite hC (kept_stepFault _ _ hC))
  | equalUnitRetryStart _ _ _ _ => exact kept_execEqualUnitRetryStart _ _ _ _ hC
  | unitReinstate _ _ => exact kept_execUnitReinstate _ _ hC
  | colanderReinstate _ => exact kept_execColanderReinstate _ hC
  | selfTestDone _ _ => exact kept_execSelfTestDone _ _ hC
  | unitStartRequest _ => exact leaves_run (kept_ite hC (kept_govStart _ _ _ _ hC))
  | unitStop _ => exact leaves_run (kept_ite (kept_govStop _ _ hC) hC)
  | startAcknowledged => exact kept_execStartAcknowledged hC
  | ballastDecayTick _ => exact kept_execBallastDecayTick _ hC
  | slopeExceeded => exact leaves_run (kept_ite hC (kept_govFlags _ (kept_mk.2 (kept_pwrEvent _ _ hC))))
  | backfeedBlocked => exact leaves_run (kept_ite (kept_pwrEvent _ _ hC) hC)
  | uvWarn _ => exact leaves_run (kept_ite (kept_pwrEvent _ _ (kept_setF _ _ _ _ _ hC)) hC)
  | auxCableConnect _ => exact kept_execAuxCableConnect _ hC
  | auxQualifyExpiry => exact kept_execAuxQualifyExpiry hC
  | auxPowerLost _ => exact kept_execAuxPowerLost _ hC
  | senseChanged => exact leaves_run (kept_ite (kept_pwrEvent _ _ hC) hC)
  | slot12vRise => exact leaves_run (kept_mk.2 hC)
  | slotPowerLost => exact leaves_run (kept_powerDown _ hC)
  | supplyLimiterTrip _ =>
    exact leaves_run (kept_ite hC (kept_pwrEvent _ _ (kept_setBit _ _ _ _ (kept_checkSupplies _ (kept_mk.2 hC)))))
  | outwardSupplyEnableWrite _ => exact kept_execOutwardSupplyEnableWrite _ hC
  | daughterboardFitted => exact leaves_run (kept_checkSupplies _ (kept_setBit _ _ _ _ hC))
  | hubSensorSample _ => exact kept_execHubSensorSample _ hC
  | moduleTempSample _ _ => exact kept_execModuleTempSample _ _ hC
  | avsPoll _ => exact kept_execAvsPoll _ hC
  | warmingTick _ => exact kept_execWarmingTick _ hC
  | airflowUpdate => exact leaves_run (kept_ite (kept_setF _ _ _ _ _ hC) hC)
  | keepStore _ =>
    exact leaves_run (kept_hostWrite _ _ _ _ hC (fun _ h => kept_ksGo _ _ _ _ h (fun _ h => kept_beginHostStore _ _ h)))
  | restage _ => exact kept_execRestage _ hC
  | clearRetire _ =>
    exact leaves_run (kept_hostWrite _ _ _ _ hC (fun _ h => kept_ksGo _ _ _ _ h (fun _ h => kept_beginHostStore _ _ h)))
  | abandon _ => exact kept_execAbandon _ hC
  | ksBadCommand _ => exact kept_execKsBadCommand _ hC
  | internalStore => exact leaves_run (kept_ite hC (kept_mk.2 (kept_writeBank _ _ hC)))
  | storeCommit _ => exact kept_execStoreCommit _ hC
  | ksStagingAccess _ => exact kept_execKsStagingAccess _ hC
  | buttonPress _ => exact kept_execButtonPress _ hC
  | jumperFitted _ => exact leaves_run (kept_ite (kept_grantWindow _ _ (kept_mk.2 hC)) (kept_mk.2 hC))
  | presenceTimeout => exact kept_execPresenceTimeout hC
  | warmRecheck _ => exact kept_execWarmRecheck _ hC
  | fuseProgram _ => exact kept_execFuseProgram _ hC
  | fuseProgramDone _ => exact kept_execFuseProgramDone _ hC
  | sealBreak => exact kept_execSealBreak hC
  | powerGood => exact leaves_run (kept_ite { hC with time := Nat.zero_le _ } (kept_powerUp _ hC))
  | regulatorRetry => exact leaves_run (kept_ite hC (kept_bootVoltage _ (kept_event _ _ _ _ hC)))
  | fuseRead => exact leaves_run (kept_ite hC (kept_enterStage _ _ (kept_mk.2 hC)))
  | keepLoad _ => exact kept_execKeepLoad _ hC
  | memDelays _ => exact kept_execMemDelays _ hC
  | memReady => exact kept_execMemReady hC
  | layoutDefault =>
    exact leaves_run (kept_ite hC (kept_foldl (fun _ _ h => kept_checkDefault _ _ h) _ (kept_enterStage _ _ hC)))
  | hampersReady => exact kept_execHampersReady hC
  | conventionalReset => exact kept_execConventionalReset hC
  | hotReset => exact kept_execHotReset hC
  | unclaimedMemoryRequest _ _ _ => exact leaves_run (kept_ite hC (kept_unclaimed _ _ _ _ hC))
  | poisonedWriteReceived _ _ => exact leaves_run (kept_ite hC (kept_aerLog _ _ _ _ hC))
  | pcieLinkError _ => exact leaves_run (kept_ite hC (kept_aerLog _ _ _ _ hC))
  | tlpErrorReceived _ _ _ => exact leaves_run (kept_ite hC (kept_aerLog _ _ _ _ hC))
  | vfEnableWrite _ _ _ => exact kept_execVfEnableWrite _ _ _ hC
  | busMasterEnableWrite _ _ => exact kept_execBusMasterEnableWrite _ _ hC
  | msixMessageRelease _ => exact leaves_run (kept_ite (kept_msixRelease _ _ hC) hC)
  | vfResourceWrite _ _ _ _ => exact kept_execVfResourceWrite _ _ _ _ hC
  | freezePin _ => exact leaves_run (kept_ite (kept_freezeRequest _ _ (kept_mk.2 hC)) (kept_mk.2 hC))
  | freezeRegister _ => exact leaves_run (kept_hostWrite _ _ _ _ hC (fun _ h => kept_frzCtl _ _ h))
  | freezeLinkPulse _ => exact leaves_run (kept_ite (kept_freezeRequest _ _ hC) hC)
  | freezeMatchTime => exact leaves_run (kept_ite hC (kept_freezeRequest _ _ (kept_setBit _ _ _ _ (kept_advanceTo _ _ hC))))
  | freezeSettled => exact kept_execFreezeSettled hC
  | thaw _ => exact leaves_run (kept_hostWrite _ _ _ _ hC (fun _ h => kept_frzCtl _ _ h))
  | thawComplete _ => exact kept_execThawComplete _ hC
  | readoutStart _ => exact leaves_run (kept_hostWrite _ _ _ _ hC (fun _ h => kept_roCtl _ _ h))
  | readoutDone _ => exact kept_execReadoutDone _ hC
  | readoutUnlockRequest _ => exact leaves_run (kept_hostWrite _ _ _ _ hC (fun _ h => kept_roUnlock _ _ h))
  | jtagFreeze => exact leaves_run (kept_ite (kept_freezeRequest _ _ (kept_jtagIr _ _ hC)) hC)
  | jtagThaw => exact leaves_run (kept_ite (kept_thawRequest _ (kept_jtagIr _ _ hC)) hC)
  | jtagRoAccess _ => exact kept_execJtagRoAccess _ hC
  | jtagExtest _ _ => exact kept_execJtagExtest _ _ hC
  | jtagSamplePreload _ _ => exact leaves_run (kept_ite hC (kept_mk.2 (kept_jtagPins _ _ (kept_jtagIr _ _ hC))))
  | jtagIdcode => exact leaves_run (kept_ite (kept_emit _ _ (kept_jtagIr _ _ hC)) hC)
  | jtagBypass _ _ => exact leaves_run (kept_ite (kept_jtagShift _ _ _ (kept_jtagIr _ _ hC)) hC)
  | tapReset => exact leaves_run (kept_jtagIr _ _ hC)
  | boardHubPoll => exact leaves_run (kept_ite hC (kept_ite (kept_mk.2 hC) (kept_mk.2 hC)))
  | boardSensorPoll _ => exact kept_execBoardSensorPoll _ hC
  | identifyTick => exact leaves_run (kept_ite (kept_mk.2 hC) hC)
  | smbusReadByte _ => exact kept_execSmbusReadByte _ hC
  | smbusReadWord _ => exact leaves_run (kept_ite (kept_emit _ _ hC) (kept_draw _ (kept_smbusAnswer _ _ _ hC)))
  | smbusBlockRead _ =>
    exact leaves_run (kept_ite (kept_emit _ _ hC) (kept_draw _ (kept_draw _ (kept_smbusAnswer _ _ _ hC))))
  | smbusWriteByte _ _ _ => exact leaves_run (kept_smbusWrite _ _ _ _ hC)
  | clearPeak _ _ => exact leaves_run (kept_smbusWrite _ _ _ _ hC)
  | smbusTimeout => exact leaves_run hC
  | smbusUnsupportedTransaction _ => exact leaves_run (kept_emit _ _ hC)
  | aux3v3Lost => exact leaves_run (kept_mk.2 hC)
  | aux3v3Good => exact leaves_run (kept_ite hC (kept_mk.2 hC))
  | daughterboardRemoved => exact kept_execDaughterboardRemoved hC
  | operationRetire _ _ _ _ => exact kept_execOperationRetire _ _ _ _ hC
  | stageRows _ _ _ => exact leaves_run (kept_engine _ _ _ _ _ _ _ hC keeps_stageRowsWork)
  | stageWeights _ _ _ => exact leaves_run (kept_engine _ _ _ _ _ _ _ hC keeps_stageWeightsWork)
  | stageConv _ _ _ => exact leaves_run (kept_engine _ _ _ _ _ _ _ hC keeps_stageConvWork)
  | whiskMap _ _ _ => exact leaves_run (kept_engine _ _ _ _ _ _ _ hC keeps_mapWork)
  | whiskReduce _ _ _ => exact leaves_run (kept_engine _ _ _ _ _ _ _ hC keeps_reduceWork)
  | whiskNorm _ _ _ => exact leaves_run (kept_engine _ _ _ _ _ _ _ hC keeps_normWork)
  | dwconv _ _ _ => exact leaves_run (kept_engine _ _ _ _ _ _ _ hC keeps_dwWork)

end Sys2Proof.Proofs
end

section
/-! The frame of every command: the parts outside its footprint stand as they were, from the frames of its operations. -/

namespace Sys2Proof.Proofs

open Sys2Proof Sys2Proof.Machine Sys2Proof.Laws

variable {fr : List Part} {c₀ : Card}

/-- A part list that evaluates to a part of another one is needed by it. -/
theorem needs {a b : List Part} (s : (a.all fun x => b.contains x) = true) : Needs a b := needs_of (fun _ h => h) s

theorem frame_ite_fst {α : Type} {p : Prop} [Decidable p] {a b : Card × α} (ha : Held fr c₀ a.1) (hb : Held fr c₀ b.1) :
    Held fr c₀ (if p then a else b).1 := by
  split <;> assumption

/-! A record update of one part's field touches that part alone. -/

theorem frame_only {x : Part} {c d : Card} (hp : Needs [x] fr) (hd : ∀ y, y ≠ x → y.agree c d) (h : Held fr c₀ c) :
    Held fr c₀ d := by
  refine held_of h fun y => ?_
  by_cases hy : y = x
  · exact .inl (hp y (List.mem_singleton.mpr hy))
  · exact .inr (hd y hy)

theorem frame_withClk {c : Card} (hp : Needs [.time] fr) (v : Clock) (h : Held fr c₀ c) : Held fr c₀ { c with clk := v } :=
  frame_only hp (fun y => by cases y <;> simp [Part.agree]) h

theorem frame_withPendLay {c : Card} (hp : Needs [.layouts] fr) (v : Tab (Option Layout)) (h : Held fr c₀ c) :
    Held fr c₀ { c with pendLay := v } :=
  frame_only hp (fun y => by cases y <;> simp [Part.agree]) h

theorem frame_withAvs {c : Card} (hp : Needs [.pace] fr) (v : Avs) (h : Held fr c₀ c) : Held fr c₀ { c with avs := v } :=
  frame_only hp (fun y => by cases y <;> simp [Part.agree]) h

theorem frame_withReads {c : Card} (hp : Needs [.hostReads] fr) (v : List HostRead) (h : Held fr c₀ c) :
    Held fr c₀ { c with reads := v } :=
  frame_only hp (fun y => by cases y <;> simp [Part.agree]) h

theorem frame_withCpls {c : Card} (hp : Needs [.hostReads] fr) (v : List HeldCpl) (h : Held fr c₀ c) :
    Held fr c₀ { c with cpls := v } :=
  frame_only hp (fun y => by cases y <;> simp [Part.agree]) h

theorem frame_withCtxs {c : Card} (hp : Needs [.contexts] fr) (v : Tab (Option CtxEnt)) (h : Held fr c₀ c) :
    Held fr c₀ { c with ctxs := v } :=
  frame_only hp (fun y => by cases y <;> simp [Part.agree]) h

theorem frame_withOwners {c : Card} (hp : Needs [.contexts] fr) (v : Tab Owner) (h : Held fr c₀ c) :
    Held fr c₀ { c with owners := v } :=
  frame_only hp (fun y => by cases y <;> simp [Part.agree]) h

theorem frame_withTlb {c : Card} (hp : Needs [.tlb] fr) (v : Tab (List TlbEnt)) (h : Held fr c₀ c) :
    Held fr c₀ { c with tlb := v } :=
  frame_only hp (fun y => by cases y <;> simp [Part.agree]) h

theorem frame_withRowsOpen {c : Card} (hp : Needs [.dram] fr) (v : Tab Nat) (h : Held fr c₀ c) :
    Held fr c₀ { c with rowsOpen := v } :=
  frame_only hp (fun y => by cases y <;> simp [Part.agree]) h

theorem frame_withDlyPend {c : Card} (hp : Needs [.memctl] fr) (v : Tab Nat) (h : Held fr c₀ c) :
    Held fr c₀ { c with dlyPend := v } :=
  frame_only hp (fun y => by cases y <;> simp [Part.agree]) h

theorem frame_withHeldAcc {c : Card} (hp : Needs [.memctl] fr) (v : List HeldAccess) (h : Held fr c₀ c) :
    Held fr c₀ { c with heldAcc := v } :=
  frame_only hp (fun y => by cases y <;> simp [Part.agree]) h

theorem frame_withNoRetention {c : Card} (hp : Needs [.freeze] fr) (v : Bool) (h : Held fr c₀ c) :
    Held fr c₀ { c with noRetention := v } :=
  frame_only hp (fun y => by cases y <;> simp [Part.agree]) h

theorem frame_withFreezeN {c : Card} (hp : Needs [.freeze] fr) (v : Bool) (h : Held fr c₀ c) :
    Held fr c₀ { c with freezeN := v } :=
  frame_only hp (fun y => by cases y <;> simp [Part.agree]) h

theorem frame_withFltMsg {c : Card} (hp : Needs [.faults] fr) (v : Bool) (h : Held fr c₀ c) :
    Held fr c₀ { c with fltMsg := v } :=
  frame_only hp (fun y => by cases y <;> simp [Part.agree]) h

theorem frame_withKeep {c : Card} (hp : Needs [.keep] fr) (v : Keep) (h : Held fr c₀ c) : Held fr c₀ { c with keep := v } :=
  frame_only hp (fun y => by cases y <;> simp [Part.agree]) h

theorem frame_withPresence {c : Card} (hp : Needs [.keep] fr) (v : Option PresWindow) (h : Held fr c₀ c) :
    Held fr c₀ { c with presence := v } :=
  frame_only hp (fun y => by cases y <;> simp [Part.agree]) h

theorem frame_withFuseJob {c : Card} (hp : Needs [.fuses] fr) (v : Option FuseJob) (h : Held fr c₀ c) :
    Held fr c₀ { c with fuseJob := v } :=
  frame_only hp (fun y => by cases y <;> simp [Part.agree]) h

theorem frame_withColdMarginal {c : Card} (hp : Needs [.fuses] fr) (v : Bool) (h : Held fr c₀ c) :
    Held fr c₀ { c with coldMarginal := v } :=
  frame_only hp (fun y => by cases y <;> simp [Part.agree]) h

theorem frame_withGov {c : Card} (hp : Needs [.power] fr) (v : Gov) (h : Held fr c₀ c) : Held fr c₀ { c with gov := v } :=
  frame_only hp (fun y => by cases y <;> simp [Part.agree]) h

theorem frame_withPin {c : Card} (hp : Needs [.power] fr) (v : PowerIn) (h : Held fr c₀ c) :
    Held fr c₀ { c with pin := v } :=
  frame_only hp (fun y => by cases y <;> simp [Part.agree]) h

theorem frame_withTap {c : Card} (hp : Needs [.tap] fr) (v : Tap) (h : Held fr c₀ c) : Held fr c₀ { c with tap := v } :=
  frame_only hp (fun y => by cases y <;> simp [Part.agree]) h

theorem frame_withBoard {c : Card} (hp : Needs [.board] fr) (v : Board) (h : Held fr c₀ c) :
    Held fr c₀ { c with board := v } :=
  frame_only hp (fun y => by cases y <;> simp [Part.agree]) h

theorem frame_withFresh {c : Card} (hp : Needs [.fresh] fr) (v : Nat) (h : Held fr c₀ c) :
    Held fr c₀ { c with fresh := v } :=
  frame_only hp (fun y => by cases y <;> simp [Part.agree]) h

theorem frame_withCtxsTlb {c : Card} (hp : Needs [.contexts, .tlb] fr) (v : Tab (Option CtxEnt)) (w : Tab (List TlbEnt))
    (h : Held fr c₀ c) : Held fr c₀ { c with ctxs := v, tlb := w } :=
  frame_withTlb (needs_of hp rfl) w (frame_withCtxs (needs_of hp rfl) v h)

/-- A frame begins with the card as it is. -/
theorem frame_run {s : State} {f : Card → Card} (h : Held fr s.card s.card → Held fr s.card (f s.card)) :
    Leaves (Held fr s.card) (s.run f) := leaves_run (h held_refl)

theorem frame_execRegisterWrite (w : RegWrite) (s : State) :
    Leaves (Held (footprint (.registerWrite w)) s.card) (execRegisterWrite w s) := by
  refine frame_run fun hC => ?_
  split
  · exact frame_mmioWrite (needs rfl) _ _ _ _ _ hC
  · exact frame_bar4Write (needs rfl) _ _ _ hC
  · exact frame_configWrite (needs rfl) _ _ _ _ hC

theorem frame_execRcFieldRead (fn : Fn) (r : RegRead) (size : Nat) (s : State) :
    Leaves (Held (footprint (.rcFieldRead fn r size)) s.card) (execRcFieldRead fn r size s) := by
  refine frame_run fun hC => ?_
  split
  · exact frame_read32 (needs rfl) _ _ _ _ hC
  · exact frame_bar4Read (needs rfl) _ _ _ _ hC
  · exact frame_configRead (needs rfl) _ _ _ hC

theorem frame_execPairLoWrite (fn : Fn) (off : Nat) (v : Word) (s : State) :
    Leaves (Held (footprint (.pairLoWrite fn off v)) s.card) (execPairLoWrite fn off v s) := by
  refine frame_run fun hC => frame_hostWrite (needs rfl) _ _ _ _ hC (fun _ h => frame_ite h ?_)
  split
  · exact frame_ite (frame_holdLo (needs rfl) _ _ _ h) h
  · exact h

theorem frame_execPairHiWrite (fn : Fn) (off : Nat) (v : Word) (s : State) :
    Leaves (Held (footprint (.pairHiWrite fn off v)) s.card) (execPairHiWrite fn off v s) := by
  refine frame_run fun hC => frame_hostWrite (needs rfl) _ _ _ _ hC (fun _ h => frame_ite h ?_)
  split
  · exact frame_ite (frame_applyHi (needs rfl) _ _ _ h) h
  · exact h

theorem frame_execFrozenBarAccess (h : Fin 4) (acc : BarAccess) (s : State) :
    Leaves (Held (footprint (.frozenBarAccess h acc)) s.card) (execFrozenBarAccess h acc s) := by
  refine frame_run fun hC => frame_ite hC (frame_ite ?_ ?_)
  · exact frame_draw (needs rfl) _ (frame_unclaimed (needs rfl) _ _ _ _ hC)
  · exact frame_ite (frame_bump (needs rfl) _ _ _ hC) (frame_emit (needs rfl) _ _ hC)

theorem frame_execPoolEnable (h : Fin 4) (p : Fin 16) (v : Word) (s : State) :
    Leaves (Held (footprint (.poolEnable h p v)) s.card) (execPoolEnable h p v s) := by
  refine frame_run fun hC => frame_hostWrite (needs rfl) _ _ _ _ hC (fun _ h => frame_ite h ?_)
  exact frame_setPoolChk (needs rfl) _ _ _ (frame_setF (needs rfl) _ _ _ _ _ (frame_writeReg (needs rfl) _ _ _ h))

theorem frame_execPoolDisable (h : Fin 4) (p : Fin 16) (v : Word) (s : State) :
    Leaves (Held (footprint (.poolDisable h p v)) s.card) (execPoolDisable h p v s) := by
  refine frame_run fun hC => frame_hostWrite (needs rfl) _ _ _ _ hC (fun _ h => frame_ite h ?_)
  refine frame_ite ?_ (frame_writeReg (needs rfl) _ _ _ h)
  exact frame_setPoolChk (needs rfl) _ _ _ (frame_setF (needs rfl) _ _ _ _ _ h)

theorem frame_execPoolCheckDone (h : Fin 4) (s : State) :
    Leaves (Held (footprint (.poolCheckDone h)) s.card) (execPoolCheckDone h s) := by
  refine frame_run fun hC => ?_
  split
  · exact hC
  · extract_lets _ c₁ c₂
    have h₁ : Held _ _ c₁ := frame_setPoolChk (needs rfl) _ _ _ (frame_setN (needs rfl) _ _ _ hC)
    have h₂ : Held _ _ c₂ := frame_setBit (needs rfl) _ _ _ _ h₁
    exact frame_ite (frame_ite (frame_setN (needs rfl) _ _ _ h₂) h₂) h₁

theorem frame_execPoolHostTake (h : Fin 4) (v : Word) (s : State) :
    Leaves (Held (footprint (.poolHostTake h v)) s.card) (execPoolHostTake h v s) := by
  refine frame_run fun hC => frame_hostWrite (needs rfl) _ _ _ _ hC (fun _ h => frame_ite h ?_)
  extract_lets
  refine frame_ite (frame_setN (needs rfl) _ _ _ h) (frame_ite (frame_setN (needs rfl) _ _ _ h) ?_)
  exact frame_setN (needs rfl) _ _ _ (frame_poolTake (needs rfl) _ _ _ _ _ _ _ h)

theorem frame_execPoolHostFree (h : Fin 4) (v : Word) (s : State) :
    Leaves (Held (footprint (.poolHostFree h v)) s.card) (execPoolHostFree h v s) := by
  exact frame_run fun hC => frame_hostWrite (needs rfl) _ _ _ _ hC (fun _ h => frame_poolFree (needs rfl) _ _ _ _ _ _ _ _ h)

theorem frame_execPoolAudit (h : Fin 4) (v : Word) (s : State) :
    Leaves (Held (footprint (.poolAudit h v)) s.card) (execPoolAudit h v s) := by
  refine frame_run fun hC => frame_hostWrite (needs rfl) _ _ _ _ hC (fun _ h => frame_ite h ?_)
  extract_lets c₁
  have h₁ : Held _ _ c₁ := frame_writeReg (needs rfl) _ _ _ h
  exact frame_ite (frame_setBit (needs rfl) _ _ _ _ h₁) h₁

theorem frame_execAuditScanDone (h : Fin 4) (s : State) :
    Leaves (Held (footprint (.auditScanDone h)) s.card) (execAuditScanDone h s) := by
  refine frame_run fun hC => frame_ite hC ?_
  extract_lets _ c₁ c₂ c₃
  have h₁ : Held _ _ c₁ := frame_setBit (needs rfl) _ _ _ _ hC
  have h₂ : Held _ _ c₂ := frame_setN (needs rfl) _ _ _ h₁
  have h₃ : Held _ _ c₃ := frame_setN (needs rfl) _ _ _ h₂
  split
  · exact frame_setN (needs rfl) _ _ _ (frame_setN (needs rfl) _ _ _ h₃)
  · exact frame_setN (needs rfl) _ _ _ (frame_setN (needs rfl) _ _ _ h₃)

theorem frame_execContextEntryWrite (h : Fin 4) (v : Word) (s : State) :
    Leaves (Held (footprint (.contextEntryWrite h v)) s.card) (execContextEntryWrite h v s) := by
  refine frame_run fun hC => frame_hostWrite (needs rfl) _ _ _ _ hC (fun _ h => ?_)
  extract_lets _ c₁
  have h₁ : Held _ _ c₁ := frame_dropHold (needs rfl) _ _ h
  refine frame_ite (frame_setBit (needs rfl) _ _ _ _ h₁) ?_
  refine frame_ite ?_ (frame_ite (frame_withCtxsTlb (needs rfl) _ _ h₁) h₁)
  refine frame_ite (frame_setBit (needs rfl) _ _ _ _ h₁) ?_
  exact frame_ite (frame_setBit (needs rfl) _ _ _ _ h₁) (frame_withCtxs (needs rfl) _ h₁)

theorem frame_execTranslationInvalidate (h : Fin 4) (v : Word) (s : State) :
    Leaves (Held (footprint (.translationInvalidate h v)) s.card) (execTranslationInvalidate h v s) := by
  refine frame_run fun hC => frame_hostWrite (needs rfl) _ _ _ _ hC (fun _ h => frame_ite h ?_)
  extract_lets c₁
  have h₁ : Held _ _ c₁ := frame_writeReg (needs rfl) _ _ _ h
  exact frame_ite (frame_setBit (needs rfl) _ _ _ _ h₁) h₁

theorem frame_execRegionOwnerWrite (h : Fin 4) (v : Word) (s : State) :
    Leaves (Held (footprint (.regionOwnerWrite h v)) s.card) (execRegionOwnerWrite h v s) := by
  refine frame_run fun hC => frame_hostWrite (needs rfl) _ _ _ _ hC (fun _ h => ?_)
  extract_lets
  split
  · exact frame_ite (frame_withOwners (needs rfl) _ h) h
  · exact h

theorem frame_execApertureMapWrite (h : Fin 4) (vf : Option (Fin 8)) (e : Nat) (v : Word) (s : State) :
    Leaves (Held (footprint (.apertureMapWrite h vf e v)) s.card) (execApertureMapWrite h vf e v s) := by
  refine frame_run fun hC => ?_
  extract_lets
  refine frame_ite hC (frame_hostWrite (needs rfl) _ _ _ _ hC fun _ h => ?_)
  extract_lets _ c₁ _ c₂
  have h₁ : Held _ _ c₁ := frame_dropHold (needs rfl) _ _ h
  have h₂ : Held _ _ c₂ := frame_setN (needs rfl) _ _ _ (frame_setReg (needs rfl) _ _ _ h₁)
  exact frame_ite h₂ (frame_ite h₂ (frame_bumpF (needs rfl) _ _ _ _ _ h₁))

theorem frame_execFaultLogHeadWrite (v : Word) (s : State) :
    Leaves (Held (footprint (.faultLogHeadWrite v)) s.card) (execFaultLogHeadWrite v s) := by
  refine frame_run fun hC => frame_hostWrite (needs rfl) _ _ _ _ hC (fun _ h => ?_)
  refine frame_ite (frame_setBit (needs rfl) _ _ _ _ h) ?_
  extract_lets c₁ c₂
  have h₁ : Held _ _ c₁ := frame_setReg (needs rfl) _ _ _ h
  have h₂ : Held _ _ c₂ := frame_withFltMsg (needs rfl) _ h₁
  exact frame_ite (frame_noteFltMsg (needs rfl) _ (frame_raise (needs rfl) _ _ _ h₂)) h₂

theorem frame_execFaultLogClear (v : Word) (s : State) :
    Leaves (Held (footprint (.faultLogClear v)) s.card) (execFaultLogClear v s) := by
  refine frame_run fun hC => frame_hostWrite (needs rfl) _ _ _ _ hC (fun _ h => ?_)
  extract_lets c₁ c₂
  have h₁ : Held _ _ c₁ := frame_writeReg (needs rfl) _ _ _ h
  have h₂ : Held _ _ c₂ := frame_setReg (needs rfl) _ _ _ h₁
  exact frame_ite (frame_withFltMsg (needs rfl) _ h₂) h₁

theorem frame_execRecordRingEnable (fn : Fn) (r : Fin 16) (v : Word) (s : State) :
    Leaves (Held (footprint (.recordRingEnable fn r v)) s.card) (execRecordRingEnable fn r v s) := by
  refine frame_run fun hC => frame_hostWrite (needs rfl) _ _ _ _ hC (fun _ h => ?_)
  split
  · exact h
  · extract_lets _ c₁ c₂
    have h₁ : Held _ _ c₁ := frame_writeReg (needs rfl) _ _ _ h
    have h₂ : Held _ _ c₂ := frame_setN (needs rfl) _ _ _ (frame_setN (needs rfl) _ _ _ (frame_setBit (needs rfl) _ _ _ _
        h₁))
    exact frame_ite h₁ (frame_setRec (needs rfl) _ _ _ _ h₂)

theorem frame_execHeartbeat (h : Fin 4) (r : Fin 16) (s : State) :
    Leaves (Held (footprint (.heartbeat h r)) s.card) (execHeartbeat h r s) := by
  refine frame_run fun hC => frame_ite hC ?_
  exact frame_ite (frame_originate (needs rfl) _ _ _ _ (frame_setRec (needs rfl) _ _ _ _ (frame_advanceTo (needs rfl) _ _
      hC)))
    (frame_bump (needs rfl) _ _ _ (frame_setRec (needs rfl) _ _ _ _ (frame_advanceTo (needs rfl) _ _ hC)))

theorem frame_execFetchCompletionTimeout (rid : Nat) (s : State) :
    Leaves (Held (footprint (.fetchCompletionTimeout rid)) s.card) (execFetchCompletionTimeout rid s) := by
  refine frame_run fun hC => ?_
  extract_lets c₁
  have h₁ : Held _ _ c₁ := frame_withReads (needs rfl) _ hC
  split
  · exact hC
  · exact frame_ite hC (frame_fetchFailed (needs rfl) _ _ (frame_draw (needs rfl) _ (frame_aerLog (needs rfl) _ _ _ _ h₁)))

theorem frame_execHostReadCompletion (rid : Nat) (poisoned : Bool) (data : List Byte) (s : State) :
    Leaves (Held (footprint (.hostReadCompletion rid poisoned data)) s.card)
      (execHostReadCompletion rid poisoned data s) := by
  refine frame_run fun hC => frame_ite hC (frame_ite ?_ ?_)
  · exact frame_draw (needs rfl) _ (frame_aerLog (needs rfl) _ _ _ _ hC)
  · exact frame_ite (frame_withCpls (needs rfl) _ hC) (frame_completion (needs rfl) _ _ _ _ hC)

theorem frame_execDoorbell (fn : Fn) (r : Fin 16) (prod : Word) (s : State) :
    Leaves (Held (footprint (.doorbell fn r prod)) s.card) (execDoorbell fn r prod s) := by
  refine frame_run fun hC => frame_hostWrite (needs rfl) _ _ _ _ hC (fun _ h => ?_)
  split
  · exact h
  · exact frame_ite (frame_withHeldAcc (needs rfl) _ h) (frame_ringBell (needs rfl) _ _ _ _ h)

theorem frame_execCommandFetchDone (h : Fin 4) (r : Fin 16) (s : State) :
    Leaves (Held (footprint (.commandFetchDone h r)) s.card) (execCommandFetchDone h r s) := by
  refine frame_run fun hC => ?_
  extract_lets
  refine frame_ite hC ?_
  split
  · extract_lets
    refine frame_ite hC ?_
    refine frame_ite hC ?_
    exact frame_pump (needs rfl) _ _ _ (frame_decodeSlot (needs rfl) _ _ _ _ (frame_setRing (needs rfl) _ _ _ _ hC))
  · refine frame_ite hC ?_
    exact frame_pump (needs rfl) _ _ _ (frame_decodeArrived (needs rfl) _ _ _ _ _ _ _ _ (frame_setRing (needs rfl) _ _ _ _
        hC))
  · exact hC

theorem frame_execWaitTimeout (h : Fin 4) (r : Fin 16) (s : State) :
    Leaves (Held (footprint (.waitTimeout h r)) s.card) (execWaitTimeout h r s) := by
  refine frame_run fun hC => ?_
  extract_lets
  split
  · split
    · refine frame_ite hC ?_
      extract_lets c₁ c₂
      have h₁ : Held _ _ c₁ := frame_advanceTo (needs rfl) _ _ hC
      have h₂ : Held _ _ c₂ := frame_raise (needs rfl) _ _ _ (frame_setBit (needs rfl) _ _ _ _ h₁)
      exact frame_endOp (needs rfl) _ _ _ _ _ _ _ h₂
    · exact hC
  · exact hC

theorem frame_execRingEnable (fn : Fn) (r : Fin 16) (v : Word) (s : State) :
    Leaves (Held (footprint (.ringEnable fn r v)) s.card) (execRingEnable fn r v s) := by
  refine frame_run fun hC => frame_hostWrite (needs rfl) _ _ _ _ hC (fun _ h => ?_)
  split
  · exact h
  · extract_lets _ c₁
    have h₁ : Held _ _ c₁ := frame_writeReg (needs rfl) _ _ _ h
    exact frame_ite h₁ (frame_ite (frame_setBit (needs rfl) _ _ _ _ h₁) (frame_ringStart (needs rfl) _ _ _ h₁))

theorem frame_execRingDisable (fn : Fn) (r : Fin 16) (v : Word) (s : State) :
    Leaves (Held (footprint (.ringDisable fn r v)) s.card) (execRingDisable fn r v s) := by
  refine frame_run fun hC => frame_hostWrite (needs rfl) _ _ _ _ hC (fun _ h => ?_)
  split
  · exact h
  · extract_lets _ c₁ c₂
    have h₁ : Held _ _ c₁ := frame_writeReg (needs rfl) _ _ _ h
    have h₂ : Held _ _ c₂ := frame_discardFetch (needs rfl) _ _ _ (frame_setBit (needs rfl) _ _ _ _ h₁)
    exact frame_ite h₁ (frame_setRing (needs rfl) _ _ _ _ h₂)

theorem frame_execRingDrainDone (h : Fin 4) (r : Fin 16) (s : State) :
    Leaves (Held (footprint (.ringDrainDone h r)) s.card) (execRingDrainDone h r s) := by
  refine frame_run fun hC => ?_
  extract_lets _ c₁
  have h₁ : Held _ _ c₁ := frame_setRing (needs rfl) _ _ _ _ hC
  exact frame_ite hC (frame_ite (frame_ringStart (needs rfl) _ _ _ h₁) h₁)

theorem frame_execCompletionHeadWrite (fn : Fn) (r : Fin 16) (v : Word) (s : State) :
    Leaves (Held (footprint (.completionHeadWrite fn r v)) s.card) (execCompletionHeadWrite fn r v s) := by
  refine frame_run fun hC => frame_hostWrite (needs rfl) _ _ _ _ hC (fun _ h => ?_)
  split
  · exact h
  · extract_lets _ c₁ c₂
    have h₁ : Held _ _ c₁ := frame_setRing (needs rfl) _ _ _ _ (frame_setReg (needs rfl) _ _ _ h)
    have h₂ : Held _ _ c₂ := frame_ite (frame_cplMessage (needs rfl) _ _ _ h₁) h₁
    exact frame_ite (frame_setBit (needs rfl) _ _ _ _ h) (frame_pump (needs rfl) _ _ _ h₂)

theorem frame_execSemaphoreHostWrite (fn : Fn) (idx : Nat) (v : Word) (s : State) :
    Leaves (Held (footprint (.semaphoreHostWrite fn idx v)) s.card) (execSemaphoreHostWrite fn idx v s) := by
  refine frame_run fun hC => frame_hostWrite (needs rfl) _ _ _ _ hC (fun _ h => ?_)
  extract_lets
  split
  · exact frame_ite (frame_semApply (needs rfl) _ _ _ _ (frame_dropHold (needs rfl) _ _ h)) h
  · exact h

theorem frame_execFlushHeldDiscard (fn : Fn) (mask : Word) (s : State) :
    Leaves (Held (footprint (.flushHeldDiscard fn mask)) s.card) (execFlushHeldDiscard fn mask s) := by
  refine frame_run fun hC => frame_hostWrite (needs rfl) _ _ _ _ hC (fun _ h => ?_)
  split
  · exact h
  · exact frame_foldl (fun _ _ h => frame_setRing (needs rfl) _ _ _ _ h) _ h
  · exact frame_foldl (fun _ _ h => frame_ite (frame_setRing (needs rfl) _ _ _ _ h) h) _ h

theorem frame_execRecordRingDisable (fn : Fn) (r : Fin 16) (v : Word) (s : State) :
    Leaves (Held (footprint (.recordRingDisable fn r v)) s.card) (execRecordRingDisable fn r v s) := by
  refine frame_run fun hC => frame_hostWrite (needs rfl) _ _ _ _ hC (fun _ h => ?_)
  split
  · exact h
  · extract_lets _ c₁ _ _ _ _ c₂
    have h₁ : Held _ _ c₁ := frame_writeReg (needs rfl) _ _ _ h
    have h₂ : Held _ _ c₂ := frame_setRec (needs rfl) _ _ _ _ (frame_setBit (needs rfl) _ _ _ _ h₁)
    refine frame_ite h₁ ?_
    exact frame_pump (needs rfl) _ _ _ (frame_recDiscard (needs rfl) _ _ _ (frame_setRing (needs rfl) _ _ _ _ h₂))

theorem frame_execRecordHeadWrite (fn : Fn) (r : Fin 16) (v : Word) (s : State) :
    Leaves (Held (footprint (.recordHeadWrite fn r v)) s.card) (execRecordHeadWrite fn r v s) := by
  refine frame_run fun hC => frame_hostWrite (needs rfl) _ _ _ _ hC (fun _ h => ?_)
  split
  · exact h
  · refine frame_ite (frame_setBit (needs rfl) _ _ _ _ h) ?_
    extract_lets _ c₁
    have h₁ : Held _ _ c₁ := frame_setRec (needs rfl) _ _ _ _ (frame_setReg (needs rfl) _ _ _ h)
    exact frame_pump (needs rfl) _ _ _ (frame_recMessage (needs rfl) _ _ _ h₁)

theorem frame_execWaitSatisfied (h : Fin 4) (r : Fin 16) (s : State) :
    Leaves (Held (footprint (.waitSatisfied h r)) s.card) (execWaitSatisfied h r s) := by
  refine frame_run fun hC => ?_
  extract_lets
  split
  · exact hC
  · refine frame_ite hC ?_
    extract_lets
    refine frame_ite ?_ ?_
    · exact frame_pump (needs rfl) _ _ _ (frame_acceptOp (needs rfl) _ _ _ _ hC)
    · refine frame_ite ?_ ?_
      · exact frame_endOp (needs rfl) _ _ _ _ _ _ _ (frame_chargeCount (needs rfl) _ _ _ _ hC)
      · refine frame_ite hC ?_
        refine frame_ite (frame_endOp (needs rfl) _ _ _ _ _ _ _ hC) ?_
        exact frame_pump (needs rfl) _ _ _ (frame_acceptOp (needs rfl) _ _ _ _ hC)

theorem frame_execFrontNop (h : Fin 4) (r : Fin 16) (s : State) :
    Leaves (Held (footprint (.frontNop h r)) s.card) (execFrontNop h r s) := by
  refine frame_run fun hC => ?_
  split
  · exact frame_ite (frame_endOp (needs rfl) _ _ _ _ _ _ _ hC) hC
  · exact hC

theorem frame_execFrontBarrier (h : Fin 4) (r : Fin 16) (s : State) :
    Leaves (Held (footprint (.frontBarrier h r)) s.card) (execFrontBarrier h r s) := by
  refine frame_run fun hC => ?_
  split
  · exact frame_ite (frame_endOp (needs rfl) _ _ _ _ _ _ _ hC) hC
  · exact hC

theorem frame_execFrontStamp (h : Fin 4) (r : Fin 16) (s : State) :
    Leaves (Held (footprint (.frontStamp h r)) s.card) (execFrontStamp h r s) := by
  refine frame_run fun hC => ?_
  split
  · exact frame_ite (frame_endOp (needs rfl) _ _ _ _ _ _ _ hC) hC
  · exact hC

theorem frame_execAccClearAll (h : Fin 4) (v : Word) (s : State) :
    Leaves (Held (footprint (.accClearAll h v)) s.card) (execAccClearAll h v s) := by
  refine frame_run fun hC => frame_hostWrite (needs rfl) _ _ _ _ hC (fun _ h => ?_)
  extract_lets c₁
  have h₁ : Held _ _ c₁ := frame_writeReg (needs rfl) _ _ _ h
  exact frame_ite (frame_foldl (fun _ _ h => frame_accClear (needs rfl) _ _ _ h) _ h₁) h₁

theorem frame_execAccClearSlot (h : Fin 4) (v : Word) (s : State) :
    Leaves (Held (footprint (.accClearSlot h v)) s.card) (execAccClearSlot h v s) := by
  refine frame_run fun hC => frame_hostWrite (needs rfl) _ _ _ _ hC (fun _ h => ?_)
  extract_lets c₁
  have h₁ : Held _ _ c₁ := frame_writeReg (needs rfl) _ _ _ h
  exact frame_ite (frame_accClear (needs rfl) _ _ _ h₁) h₁

theorem frame_execAccSlotCfgWrite (h : Fin 4) (slot : Fin 256) (v : Word) (s : State) :
    Leaves (Held (footprint (.accSlotCfgWrite h slot v)) s.card) (execAccSlotCfgWrite h slot v s) := by
  refine frame_run fun hC => frame_hostWrite (needs rfl) _ _ _ _ hC (fun _ h => ?_)
  exact frame_accClear (needs rfl) _ _ _ (frame_setN (needs rfl) _ _ _ h)

theorem frame_execApertureAccess (fn : Fn) (addr len : Nat) (wdata : Option (List Byte)) (errs : List MemErr) (s : State) :
    Leaves (Held (footprint (.apertureAccess fn addr len wdata errs)) s.card)
      (execApertureAccess fn addr len wdata errs s) := by
  refine frame_run fun hC => ?_
  extract_lets _ go
  have hgo : ∀ h vf drops, Held (footprint (.apertureAccess fn addr len wdata errs)) s.card (go h vf drops) := by
    intro h vf drops
    refine frame_ite (frame_ite (frame_bump (needs rfl) _ _ _ hC) (frame_emit (needs rfl) _ _ hC)) ?_
    refine frame_ite (frame_emit (needs rfl) _ _ hC) (frame_ite (frame_bump (needs rfl) _ _ _ hC) ?_)
    split
    · exact frame_ite (frame_aperMiss (needs rfl) _ _ hC) (frame_emit (needs rfl) _ _ (frame_aperMiss (needs rfl) _ _ hC))
    · exact frame_aperDo (needs rfl) _ _ _ _ _ _ _ _ _ _ _ (frame_ite (frame_aperMiss (needs rfl) _ _ hC) hC)
  refine frame_ite (frame_draw (needs rfl) _ (frame_unclaimed (needs rfl) _ _ _ _ hC)) ?_
  split
  · exact hC
  · exact hgo _ _ _
  · exact hgo _ _ _

theorem frame_execSparseFirstWrite (h : Fin 4) (r : Fin 16) (seq va : Nat) (data : List Byte) (err : Option Nat)
    (s : State) :
    Leaves (Held (footprint (.sparseFirstWrite h r seq va data err)) s.card)
      (execSparseFirstWrite h r seq va data err s) := by
  refine frame_run fun hC => ?_
  extract_lets
  split
  · exact hC
  · refine frame_ite hC ?_
    split
    · exact hC
    · refine frame_ite hC ?_
      extract_lets ep
      clear_value ep
      split
      · have h₁ := frame_of_fst ‹_› (frame_sparseBack (needs rfl) _ _ _ _ _ _ _ hC)
        exact frame_setOp (needs rfl) _ _ _ _ (frame_xlFault (needs rfl) _ _ _ _ _ h₁)
      · have h₁ := frame_of_fst ‹_› (frame_sparseBack (needs rfl) _ _ _ _ _ _ _ hC)
        extract_lets c₂ w
        have h₂ : Held (footprint (.sparseFirstWrite h r seq va data err)) s.card c₂ := by
          dsimp only [c₂]
          split
          · exact frame_noteBacked (needs rfl) _ _ _ _ _ _ _ hC h₁
          · exact h₁
        have h₃ : Held (footprint (.sparseFirstWrite h r seq va data err)) s.card w.card := frame_vwrite (needs rfl) _ _ _ _
            _ _ _ h₂
        split
        · exact frame_setOp (needs rfl) _ _ _ _ (frame_xlFault (needs rfl) _ _ _ _ _ h₃)
        · exact frame_setOp (needs rfl) _ _ _ _ h₃

theorem frame_execFeedBytesQueued (h : Fin 4) (r : Fin 16) (seq : Nat) (s : State) :
    Leaves (Held (footprint (.feedBytesQueued h r seq)) s.card) (execFeedBytesQueued h r seq s) := by
  refine frame_run fun hC => ?_
  split
  · exact hC
  · refine frame_ite hC ?_
    extract_lets
    split
    · exact frame_setOp (needs rfl) _ _ _ _ hC
    · extract_lets
      refine frame_ite ?_ ?_
      · exact frame_setOp (needs rfl) _ _ _ _ (frame_enqueue (needs rfl) _ _ _ _ _ _ hC)
      · exact frame_setOp (needs rfl) _ _ _ _ (frame_enqueue (needs rfl) _ _ _ _ _ _ hC)

theorem frame_execKeyCommit (h : Fin 4) (v : Word) (s : State) :
    Leaves (Held (footprint (.keyCommit h v)) s.card) (execKeyCommit h v s) := by
  refine frame_run fun hC => frame_hostWrite (needs rfl) _ _ _ _ hC (fun _ h => ?_)
  extract_lets c₁ _ c₂
  have h₁ : Held _ _ c₁ := frame_writeReg (needs rfl) _ _ _ h
  have h₂ : Held _ _ c₂ := frame_setKey (needs rfl) _ _ _ _ h₁
  exact frame_ite h₁ (frame_foldl (fun _ _ h => frame_setReg (needs rfl) _ _ _ h) _ h₂)

theorem frame_execKeyClear (h : Fin 4) (v : Word) (s : State) :
    Leaves (Held (footprint (.keyClear h v)) s.card) (execKeyClear h v s) := by
  refine frame_run fun hC => frame_hostWrite (needs rfl) _ _ _ _ hC (fun _ h => ?_)
  extract_lets c₁
  have h₁ : Held _ _ c₁ := frame_writeReg (needs rfl) _ _ _ h
  exact frame_ite h₁ (frame_setKey (needs rfl) _ _ _ _ h₁)

theorem frame_execPictureDecodeStart (h : Fin 4) (d : Fin 16) (st : Fin 64) (ps : PicStart) (s : State) :
    Leaves (Held (footprint (.pictureDecodeStart h d st ps)) s.card) (execPictureDecodeStart h d st ps s) := by
  refine frame_run fun hC => ?_
  extract_lets
  split
  · exact hC
  · extract_lets _ c₁
    have h₁ : Held _ _ c₁ := frame_countDropped (needs rfl) _ _ _ _ (frame_setStream (needs rfl) _ _ _ _ hC)
    split
    · exact hC
    · exact frame_ite hC (frame_ite h₁ (frame_beginPic (needs rfl) _ _ _ _ _ _ _ (frame_releaseSlot (needs rfl) _ _ _ _ h₁)))

theorem frame_execSequenceHeader (h : Fin 4) (st : Fin 64) (hd : SeqHeader) (s : State) :
    Leaves (Held (footprint (.sequenceHeader h st hd)) s.card) (execSequenceHeader h st hd s) := by
  refine frame_run fun hC => ?_
  extract_lets
  split
  · exact hC
  · refine frame_ite hC ?_
    extract_lets c₁
    have h₁ : Held _ _ c₁ := frame_outputAll (needs rfl) _ _ _ _ (frame_countDropped (needs rfl) _ _ _ _ (frame_setStream
        (needs rfl) _ _ _ _ hC))
    refine frame_ite ?_ ?_
    · exact frame_setStream (needs rfl) _ _ _ _ (frame_streamEvent (needs rfl) _ _ _ _ _ _ _ h₁)
    · refine frame_ite ?_ ?_
      · exact frame_setStream (needs rfl) _ _ _ _ (frame_streamEvent (needs rfl) _ _ _ _ _ _ _ h₁)
      · refine frame_ite ?_ (frame_setStream (needs rfl) _ _ _ _ h₁)
        exact frame_setStream (needs rfl) _ _ _ _ (frame_streamEvent (needs rfl) _ _ _ _ _ _ _ h₁)

theorem frame_execPartitionReconstructed (h : Fin 4) (st : Fin 64) (data : List Samples) (part : PartEnd) (s : State) :
    Leaves (Held (footprint (.partitionReconstructed h st data part)) s.card)
      (execPartitionReconstructed h st data part s) := by
  refine frame_run fun hC => ?_
  extract_lets
  split
  · exact hC
  · split
    · exact hC
    · refine frame_ite hC ?_
      extract_lets c₁ c₂
      have h₁ : Held _ _ c₁ := frame_putSamples (needs rfl) _ _ _ _ _ hC
      have h₂ : Held _ _ c₂ := frame_ite (frame_freeSlices (needs rfl) _ _ _ h₁) h₁
      exact frame_ite (frame_setStream (needs rfl) _ _ _ _ h₂) h₂

theorem frame_execDamageDetected (h : Fin 4) (st : Fin 64) (dmg : Damage) (s : State) :
    Leaves (Held (footprint (.damageDetected h st dmg)) s.card) (execDamageDetected h st dmg s) := by
  refine frame_run fun hC => ?_
  extract_lets
  split
  · exact hC
  · refine frame_ite hC ?_
    split
    · extract_lets c₁
      have h₁ : Held _ _ c₁ := frame_streamEvent (needs rfl) _ _ _ _ _ _ _ hC
      exact frame_ite (frame_setStream (needs rfl) _ _ _ _ h₁) h₁
    · extract_lets _ c₁
      have h₁ : Held _ _ c₁ := frame_setStream (needs rfl) _ _ _ _ hC
      split
      · exact hC
      · refine frame_retractPic (needs rfl) _ _ _ _ _ ?_
        split
        · exact frame_foldl (fun _ _ h => frame_concealUnit (needs rfl) _ _ _ _ _ _ h) _ h₁
        · exact h₁

theorem frame_execPictureComplete (h : Fin 4) (st : Fin 64) (pe : PicEnd) (s : State) :
    Leaves (Held (footprint (.pictureComplete h st pe)) s.card) (execPictureComplete h st pe s) := by
  refine frame_run fun hC => ?_
  extract_lets
  split
  · exact hC
  · extract_lets
    split
    · exact hC
    · refine frame_ite hC ?_
      extract_lets c₁ c₂ _ _ _ _ _ c₃ c₄ c₅ c₆ c₇ c₈ c₉
      have h₁ : Held _ _ c₁ := frame_freeSlices (needs rfl) _ _ _ (frame_putSamples (needs rfl) _ _ _ _ _ hC)
      have h₂ : Held (footprint (.pictureComplete h st pe)) s.card c₂ := by
        dsimp only [c₂]
        split
        · exact frame_weave (needs rfl) _ _ _ _ _ _ h₁
        · exact h₁
      have h₃ : Held _ _ c₃ := frame_setStream (needs rfl) _ _ _ _ h₂
      have h₄ : Held _ _ c₄ := frame_bump (needs rfl) _ _ _ h₃
      have h₅ : Held _ _ c₅ := frame_ite (frame_bump (needs rfl) _ _ _ h₄) h₄
      have h₆ : Held (footprint (.pictureComplete h st pe)) s.card c₆ := by
        dsimp only [c₆]
        split
        · exact frame_streamEvent (needs rfl) _ _ _ _ _ _ _ h₅
        · exact h₅
      have h₇ : Held _ _ c₇ := frame_ite (frame_streamEvent (needs rfl) _ _ _ _ _ _ _ h₆) h₆
      have h₈ : Held _ _ c₈ := frame_foldl (fun _ _ h => frame_outputPic (needs rfl) _ _ _ _ h) _ h₇
      have h₉ : Held _ _ c₉ := frame_ite (frame_commitEpoch (needs rfl) _ _ _ h₈) h₈
      exact frame_ite (frame_endClose (needs rfl) _ _ _ (frame_closeStream (needs rfl) _ _ _ h₂)) h₉

theorem frame_execSearch (h : Fin 4) (r : Fin 16) (seq : Nat) (s : State) :
    Leaves (Held (footprint (.search h r seq)) s.card) (execSearch h r seq s) := by
  refine frame_run fun hC => ?_
  split
  · exact hC
  · refine frame_ite hC ?_
    refine frame_ite ?_ ?_
    · exact frame_setOp (needs rfl) _ _ _ _ (frame_chargeCount (needs rfl) _ _ _ _ hC)
    · exact frame_runStep (needs rfl) _ _ _ _ _ _ hC (frames_searchCheck (needs rfl))

theorem frame_execColanderSearchStart (m : Fin 8) (s : State) :
    Leaves (Held (footprint (.colanderSearchStart m)) s.card) (execColanderSearchStart m s) := by
  refine frame_run fun hC => ?_
  extract_lets _ c₁
  have h₁ : Held _ _ c₁ := frame_searchEnd (needs rfl) _ _ hC
  split
  · exact frame_ite (frame_resumeSearch (needs rfl) _ _ _ _ h₁) h₁
  · refine frame_ite h₁ ?_
    split
    · exact h₁
    · extract_lets c₂
      have h₂ : Held _ _ c₂ := frame_chargeCount (needs rfl) _ _ _ _ (frame_chargeWait (needs rfl) _ _ _ _ (frame_drawXlate
          (needs rfl) _ h₁))
      refine frame_ite (frame_setOp (needs rfl) _ _ _ _ (frame_chargeCount (needs rfl) _ _ _ _ h₁)) ?_
      split
      · exact frame_setOp (needs rfl) _ _ _ _ h₁
      · refine frame_ite (frame_setOp (needs rfl) _ _ _ _ h₁) ?_
        split
        · exact frame_setOp (needs rfl) _ _ _ _ (frame_askFor (needs rfl) _ _ _ _ _ h₁)
        · exact frame_runFirst (needs rfl) _ _ _ _ _ _ h₁ h₂ (frames_searchOpen (needs rfl))

theorem frame_execFrameStart (p vc : Fin 4) (num : Nat) (hdr : PktHeader) (s : State) :
    Leaves (Held (footprint (.frameStart p vc num hdr)) s.card) (execFrameStart p vc num hdr s) := by
  refine frame_run fun hC => ?_
  split
  · exact hC
  · refine frame_rpHeader (needs rfl) _ _ _ _ _ hC (fun _ h => ?_)
    refine frame_ite (frame_dtDrop (needs rfl) _ _ h) ?_
    exact frame_openFrame (needs rfl) _ _ _ _ (frame_ite (frame_latch (needs rfl) _ _ _ _ h) h)

theorem frame_execFrameEnd (p vc : Fin 4) (hdr : PktHeader) (s : State) :
    Leaves (Held (footprint (.frameEnd p vc hdr)) s.card) (execFrameEnd p vc hdr s) := by
  refine frame_run fun hC => ?_
  split
  · exact hC
  · refine frame_rpHeader (needs rfl) _ _ _ _ _ hC (fun _ h => ?_)
    exact frame_ite (frame_dtDrop (needs rfl) _ _ h) (frame_setVc (needs rfl) _ _ _ _ (frame_latch (needs rfl) _ _ _ _ h))

theorem frame_execLineMarker (p vc : Fin 4) (hdr : PktHeader) (s : State) :
    Leaves (Held (footprint (.lineMarker p vc hdr)) s.card) (execLineMarker p vc hdr s) := by
  refine frame_run fun hC => ?_
  split
  · exact hC
  · exact frame_rpHeader (needs rfl) _ _ _ _ _ hC (fun _ h => frame_ite (frame_dtDrop (needs rfl) _ _ h) h)

theorem frame_execLongPacket (p vc : Fin 4) (pk : CsiPacket) (hdr : PktHeader) (s : State) :
    Leaves (Held (footprint (.longPacket p vc pk hdr)) s.card) (execLongPacket p vc pk hdr s) := by
  refine frame_run fun hC => ?_
  split
  · exact hC
  · refine frame_rpHeader (needs rfl) _ _ _ _ _ (frame_rpDrain (needs rfl) _ _ _ hC) (fun _ h => ?_)
    extract_lets
    refine frame_ite (frame_dtDrop (needs rfl) _ _ h) ?_
    refine frame_ite (frame_flagFrame (needs rfl) _ _ _ _ (frame_dtDrop (needs rfl) _ _ h)) ?_
    split
    · exact frame_bump (needs rfl) _ _ _ h
    · refine frame_ite ?_ (frame_rpLine (needs rfl) _ _ _ _ _ h)
      exact frame_setVc (needs rfl) _ _ _ _ (frame_ite (frame_flagFrame (needs rfl) _ _ _ _ h) h)

theorem frame_execRasterPacketTimeout (p vc : Fin 4) (s : State) :
    Leaves (Held (footprint (.rasterPacketTimeout p vc)) s.card) (execRasterPacketTimeout p vc s) := by
  refine frame_run fun hC => ?_
  split
  · exact hC
  · exact frame_ite (frame_latch (needs rfl) _ _ _ _ (frame_advanceTo (needs rfl) _ _ hC)) hC

theorem frame_execRasterLinkChange (p : Fin 4) (up hs : Bool) (rate : Nat) (s : State) :
    Leaves (Held (footprint (.rasterLinkChange p up hs rate)) s.card) (execRasterLinkChange p up hs rate s) := by
  refine frame_run fun hC => ?_
  split
  · exact hC
  · exact frame_setLink (needs rfl) _ _ _ _ _ hC

theorem frame_execFrameWritesComplete (h vc : Fin 4) (s : State) :
    Leaves (Held (footprint (.frameWritesComplete h vc)) s.card) (execFrameWritesComplete h vc s) := by
  refine frame_run fun hC => ?_
  extract_lets _ _ _ c₁
  have h₁ : Held _ _ c₁ := frame_rpDrain (needs rfl) _ _ _ hC
  split
  · exact hC
  · extract_lets _ c₂ _ _ _ c₃ c₄ c₅ c₆ c₇
    have h₂ : Held _ _ c₂ := frame_setRpBuf (needs rfl) _ _ _ h₁
    have h₃ : Held _ _ c₃ := frame_setVc (needs rfl) _ _ _ _ h₂
    have h₄ : Held _ _ c₄ := frame_rpPut (needs rfl) _ _ _ _ _ _ _ h₃
    have h₅ : Held _ _ c₅ := frame_bump (needs rfl) _ _ _ h₄
    have h₆ : Held _ _ c₆ := frame_ite (frame_bump (needs rfl) _ _ _ h₅) h₅
    have h₇ : Held _ _ c₇ := frame_semApply (needs rfl) _ _ _ _ h₆
    refine frame_ite hC ?_
    refine frame_ite h₁ ?_
    split
    · exact frame_semApply (needs rfl) _ _ _ _ h₇
    · exact h₇

theorem frame_execRasterCommitWrite (h vc : Fin 4) (v : Word) (s : State) :
    Leaves (Held (footprint (.rasterCommitWrite h vc v)) s.card) (execRasterCommitWrite h vc v s) := by
  refine frame_run fun hC => frame_hostWrite (needs rfl) _ _ _ _ hC (fun _ h => ?_)
  extract_lets _ _ c₁
  have h₁ : Held _ _ c₁ := frame_dropHold (needs rfl) _ _ (frame_setReg (needs rfl) _ _ _ (frame_setReg (needs rfl) _ _ _ h))
  exact frame_ite (frame_commit (needs rfl) _ _ _ _ h₁) (frame_rpEvent (needs rfl) _ _ _ (frame_bump (needs rfl) _ _ _ h₁))

theorem frame_execRasterVcEnable (h vc : Fin 4) (v : Word) (s : State) :
    Leaves (Held (footprint (.rasterVcEnable h vc v)) s.card) (execRasterVcEnable h vc v s) := by
  refine frame_run fun hC => frame_hostWrite (needs rfl) _ _ _ _ hC (fun _ h => ?_)
  extract_lets _ _ c₁
  have h₁ : Held _ _ c₁ := frame_writeReg (needs rfl) _ _ _ h
  refine frame_ite ?_ ?_
  · exact frame_ite (frame_vcOff (needs rfl) _ _ _ (frame_setBit (needs rfl) _ _ _ _ h₁)) h₁
  · exact frame_ite h₁ (frame_setVc (needs rfl) _ _ _ _ (frame_setBit (needs rfl) _ _ _ _ h₁))

theorem frame_execPrepare (h : Fin 4) (r : Fin 16) (seq : Nat) (order : List Nat) (s : State) :
    Leaves (Held (footprint (.prepare h r seq order)) s.card) (execPrepare h r seq order s) := by
  refine frame_run fun hC => ?_
  split
  · exact hC
  · extract_lets c₁
    have h₁ : Held _ _ c₁ := frame_engine (needs rfl) _ _ _ _ _ _ _ hC (frames_ite (frames_throw _) (frames_prepareWork
        (needs rfl) _))
    exact frame_ite (frame_progHold (needs rfl) _ _ _ _ hC) h₁

theorem frame_execPrepareProgressRelease (h : Fin 4) (r : Fin 16) (seq : Nat) (order : List Nat) (s : State) :
    Leaves (Held (footprint (.prepareProgressRelease h r seq order)) s.card)
      (execPrepareProgressRelease h r seq order s) := by
  refine frame_run fun hC => ?_
  split
  · refine frame_ite hC ?_
    refine frame_ite (frame_setOp (needs rfl) _ _ _ _ hC) ?_
    refine frame_ite hC ?_
    exact frame_engine (needs rfl) _ _ _ _ _ _ _ (frame_setOp (needs rfl) _ _ _ _ hC) (frames_prepareWork (needs rfl) _)
  · exact hC

theorem frame_execBacklogRefresh (h : Fin 4) (s : State) :
    Leaves (Held (footprint (.backlogRefresh h)) s.card) (execBacklogRefresh h s) := by
  refine frame_run fun hC => ?_
  extract_lets
  split
  · exact hC
  · refine frame_ite hC ?_
    extract_lets _ c₁ _ c₂
    have h₁ : Held _ _ c₁ := frame_foldl (fun _ _ h => frame_setN (needs rfl) _ _ _ h) _ hC
    have h₂ : Held _ _ c₂ := frame_draw (needs rfl) _ (frame_setF (needs rfl) _ _ _ _ _ h₁)
    refine frame_ite (frame_setBit (needs rfl) _ _ _ _ h₂) ?_
    exact frame_ite (frame_setBit (needs rfl) _ _ _ _ h₂) (frame_ite (frame_setBit (needs rfl) _ _ _ _ h₂) h₂)

theorem frame_execGriddleRun (h : Fin 4) (r : Fin 16) (seq : Nat) (s : State) :
    Leaves (Held (footprint (.griddleRun h r seq)) s.card) (execGriddleRun h r seq s) := by
  refine frame_run fun hC => ?_
  split
  · exact hC
  · refine frame_ite hC ?_
    split
    · refine frame_ite ?_ ?_
      · exact frame_setOp (needs rfl) _ _ _ _ (frame_chargeCount (needs rfl) _ _ _ _ hC)
      · exact frame_runFirst (needs rfl) _ _ _ _ _ _ hC (frame_startOp (needs rfl) _ _ _ _ hC) (frames_runStart (needs rfl))
    · split
      · exact frame_makeDue (needs rfl) _ _ _ _ _ hC
      · exact hC

theorem frame_execGriddlePassEnd (h : Fin 4) (u : Fin 8) (s : State) :
    Leaves (Held (footprint (.griddlePassEnd h u)) s.card) (execGriddlePassEnd h u s) := by
  refine frame_run fun hC => ?_
  extract_lets
  split
  · exact frame_ite (frame_resumePaused (needs rfl) _ _ _ hC) hC
  · refine frame_ite hC ?_
    extract_lets c₁
    have h₁ : Held _ _ c₁ := frame_runPart (needs rfl) _ _ _ _ _ hC (frames_endPass (needs rfl))
    refine frame_ite ?_ ?_
    · exact frame_nextPass (needs rfl) _ _ _ _ (frame_drawXlate (needs rfl) _ hC)
    · split
      · exact h₁
      · refine frame_ite (frame_resumePaused (needs rfl) _ _ _ h₁) ?_
        refine frame_ite ?_ ?_
        · exact frame_resumePaused (needs rfl) _ _ _ (frame_setOp (needs rfl) _ _ _ _ h₁)
        · split
          · exact frame_preempt (needs rfl) _ _ _ _ _ _ h₁
          · exact frame_nextPass (needs rfl) _ _ _ _ (frame_drawXlate (needs rfl) _ h₁)

theorem frame_execPtmIntervalExpiry (s : State) :
    Leaves (Held (footprint .ptmIntervalExpiry) s.card) (execPtmIntervalExpiry s) := by
  refine frame_run fun hC => frame_ite hC ?_
  exact frame_withClk (needs rfl) _ (frame_emit (needs rfl) _ _ (frame_ite (frame_missedInterval (needs rfl) _ hC) hC))

theorem frame_execPtmDisable (s : State) :
    Leaves (Held (footprint .ptmDisable) s.card) (execPtmDisable s) := by
  exact frame_run fun hC => frame_ite hC (frame_withClk (needs rfl) _ (frame_setSync (needs rfl) _ _ (frame_setCfg (needs
      rfl) _ _ _ hC)))

theorem frame_execPaceWindowEnd (s : State) :
    Leaves (Held (footprint .paceWindowEnd) s.card) (execPaceWindowEnd s) := by
  refine frame_run fun hC => frame_ite hC ?_
  extract_lets _ c₁ _ _ _ c₂ c₃ c₄ c₅
  have h₁ : Held _ _ c₁ := frame_advanceTo (needs rfl) _ _ hC
  have h₂ : Held _ _ c₂ := frame_foldl (fun _ _ h => frame_endWindow (needs rfl) _ _ _ h) _ h₁
  have h₃ : Held _ _ c₃ := frame_ite (frame_event (needs rfl) _ _ _ _ h₂) h₂
  have h₄ : Held _ _ c₄ := frame_ite h₁ (frame_voltageStep (needs rfl) _ _ h₃)
  have h₅ : Held _ _ c₅ := frame_foldl (fun _ _ h => frame_setPace (needs rfl) _ _ _ h) _ h₄
  exact frame_notePoint (needs rfl) _ (frame_openWindow (needs rfl) _ _ h₅)

theorem frame_execAvsWriteAck (s : State) :
    Leaves (Held (footprint .avsWriteAck) s.card) (execAvsWriteAck s) := by
  refine frame_run fun hC => ?_
  extract_lets
  split
  · exact hC
  · exact frame_judgeHeld (needs rfl) _ (frame_setF (needs rfl) _ _ _ _ _ (frame_withAvs (needs rfl) _ hC))

theorem frame_execAvsWriteTimeout (s : State) :
    Leaves (Held (footprint .avsWriteTimeout) s.card) (execAvsWriteTimeout s) := by
  refine frame_run fun hC => frame_ite hC ?_
  exact frame_ite (frame_event (needs rfl) _ _ _ _ hC) (frame_event (needs rfl) _ _ _ _ (frame_withAvs (needs rfl) _ hC))

theorem frame_execRemoteWriteAck (p : Fin 2) (id : Nat) (s : State) :
    Leaves (Held (footprint (.remoteWriteAck p id)) s.card) (execRemoteWriteAck p id s) := by
  refine frame_run fun hC => ?_
  split
  · exact frame_remoteDone (needs rfl) _ _ hC
  · exact hC

theorem frame_execRemoteTimeout (id : Nat) (s : State) :
    Leaves (Held (footprint (.remoteTimeout id)) s.card) (execRemoteTimeout id s) := by
  refine frame_run fun hC => ?_
  split
  · refine frame_ite hC ?_
    exact frame_remoteFail (needs rfl) _ _ _ (frame_bump (needs rfl) _ _ _ (frame_advanceTo (needs rfl) _ _ hC))
  · exact hC

theorem frame_execDravazCableDetect (p : Fin 2) (present : Bool) (s : State) :
    Leaves (Held (footprint (.dravazCableDetect p present)) s.card) (execDravazCableDetect p present s) := by
  refine frame_run fun hC => ?_
  extract_lets c₁
  have h₁ : Held _ _ c₁ := frame_checkSupplies (needs rfl) _ (frame_setBit (needs rfl) _ _ _ _ hC)
  refine frame_ite (frame_trainPort (needs rfl) _ _ h₁) ?_
  exact frame_setF (needs rfl) _ _ _ _ _ (frame_setPort (needs rfl) _ _ _ h₁)

theorem frame_execLinkTrained (p : Fin 2) (card : Fin 8) (port : Fin 2) (s : State) :
    Leaves (Held (footprint (.linkTrained p card port)) s.card) (execLinkTrained p card port s) := by
  refine frame_run fun hC => ?_
  extract_lets _ _ _ c₁ c₂ c₃ c₄
  have h₁ : Held _ _ c₁ := frame_setPort (needs rfl) _ _ _ (frame_setN (needs rfl) _ _ _ hC)
  have h₂ : Held _ _ c₂ := frame_portEvent (needs rfl) _ _ _ h₁
  have h₃ : Held _ _ c₃ := frame_ite (frame_portEvent (needs rfl) _ _ _ h₂) h₂
  have h₄ : Held (footprint (.linkTrained p card port)) s.card c₄ := by
    dsimp only [c₄]
    split
    · exact frame_replayFrom (needs rfl) _ _ _ h₃
    · exact h₃
  refine frame_ite hC (frame_ite ?_ (frame_pumpPort (needs rfl) _ _ h₄))
  exact frame_portEvent (needs rfl) _ _ _ (frame_setF (needs rfl) _ _ _ _ _ hC)

theorem frame_execPortRetrain (p : Fin 2) (v : Word) (s : State) :
    Leaves (Held (footprint (.portRetrain p v)) s.card) (execPortRetrain p v s) := by
  refine frame_run fun hC => frame_hostWrite (needs rfl) _ _ _ _ hC (fun _ h => ?_)
  exact frame_ite (frame_retrain (needs rfl) _ _ (frame_writeReg (needs rfl) _ _ _ h)) (frame_writeReg (needs rfl) _ _ _ h)

theorem frame_execLinkDownTimeout (p : Fin 2) (s : State) :
    Leaves (Held (footprint (.linkDownTimeout p)) s.card) (execLinkDownTimeout p s) := by
  refine frame_run fun hC => ?_
  extract_lets
  split
  · exact hC
  · extract_lets c₁ c₂
    have h₁ : Held _ _ c₁ := frame_advanceTo (needs rfl) _ _ hC
    have h₂ : Held _ _ c₂ := frame_portEvent (needs rfl) _ _ _ (frame_setF (needs rfl) _ _ _ _ _ (frame_setPort (needs rfl) _
        _ _ h₁))
    exact frame_portFail (needs rfl) _ _ h₂

theorem frame_execDravazPacketReceived (p : Fin 2) (pk : DvPacket) (s : State) :
    Leaves (Held (footprint (.dravazPacketReceived p pk)) s.card) (execDravazPacketReceived p pk s) := by
  refine frame_run fun hC => frame_ite hC (frame_ite (frame_emit (needs rfl) _ _ hC) ?_)
  extract_lets _ c₁ c₂ _ c₃ _ c₄ _ c₅
  have h₁ : Held (footprint (.dravazPacketReceived p pk)) s.card c₁ := by
    dsimp only [c₁]
    split
    · exact frame_ite (frame_setPort (needs rfl) _ _ _ hC) hC
    · exact hC
  have h₂ : Held (footprint (.dravazPacketReceived p pk)) s.card c₂ := by
    dsimp only [c₂]
    split
    · exact frame_replayFrom (needs rfl) _ _ _ h₁
    · exact h₁
  have h₃ : Held _ _ c₃ := frame_ite (frame_retrain (needs rfl) _ _ (frame_setPort (needs rfl) _ _ _ h₂)) h₂
  have h₄ : Held _ _ c₄ := frame_emit (needs rfl) _ _ (frame_setPort (needs rfl) _ _ _ h₃)
  have h₅ : Held _ _ c₅ := frame_setPair (needs rfl) _ _ _ _ h₄
  refine frame_ite (frame_dvBody (needs rfl) _ _ _ h₅) ?_
  exact frame_ite (frame_emit (needs rfl) _ _ h₃) (frame_emit (needs rfl) _ _ h₃)

theorem frame_execRemoteRequestReceived (p : Fin 2) (q : RemoteReq) (s : State) :
    Leaves (Held (footprint (.remoteRequestReceived p q)) s.card) (execRemoteRequestReceived p q s) := by
  refine frame_run fun hC => frame_ite hC ?_
  extract_lets
  split
  · exact frame_denyRemote (needs rfl) _ _ _ hC
  · exact frame_ite (frame_withHeldAcc (needs rfl) _ hC) (frame_serveRemote (needs rfl) _ _ _ _ _ _ _ hC)

theorem frame_execMessageReceived (p : Fin 2) (m : DvMessage) (s : State) :
    Leaves (Held (footprint (.messageReceived p m)) s.card) (execMessageReceived p m s) := by
  refine frame_run fun hC => ?_
  extract_lets
  refine frame_ite hC (frame_ite (frame_denyRemote (needs rfl) _ _ _ hC) ?_)
  exact frame_ite (frame_setPort (needs rfl) _ _ _ hC) (frame_putMessage (needs rfl) _ _ _ hC)

theorem frame_execMsgRingEnable (p : Fin 2) (v : Word) (s : State) :
    Leaves (Held (footprint (.msgRingEnable p v)) s.card) (execMsgRingEnable p v s) := by
  refine frame_run fun hC => frame_hostWrite (needs rfl) _ _ _ _ hC (fun _ h => ?_)
  extract_lets _ _ c₁
  have h₁ : Held _ _ c₁ := frame_writeReg (needs rfl) _ _ _ h
  refine frame_ite ?_ ?_
  · exact frame_denyHeld (needs rfl) _ _ (frame_setBit (needs rfl) _ _ _ _ h₁)
  · refine frame_ite h₁ ?_
    split
    · exact h₁
    · exact frame_setPort (needs rfl) _ _ _ (frame_setN (needs rfl) _ _ _ (frame_setN (needs rfl) _ _ _ (frame_setBit (needs
          rfl) _ _ _ _ h₁)))

theorem frame_execMsgHeadWrite (p : Fin 2) (v : Word) (s : State) :
    Leaves (Held (footprint (.msgHeadWrite p v)) s.card) (execMsgHeadWrite p v s) := by
  refine frame_run fun hC => frame_hostWrite (needs rfl) _ _ _ _ hC (fun _ h => ?_)
  refine frame_ite (frame_setBit (needs rfl) _ _ _ _ h) ?_
  exact frame_pumpMsgs (needs rfl) _ _ _ (frame_setReg (needs rfl) _ _ _ h)

theorem frame_execWindowCtlWrite (p : Fin 2) (w : Fin 64) (v : Word) (s : State) :
    Leaves (Held (footprint (.windowCtlWrite p w v)) s.card) (execWindowCtlWrite p w v s) := by
  refine frame_run fun hC => frame_hostWrite (needs rfl) _ _ _ _ hC (fun _ h => ?_)
  extract_lets
  refine frame_ite (frame_bump (needs rfl) _ _ _ h) ?_
  exact frame_dropHold (needs rfl) _ _ (frame_dropHold (needs rfl) _ _ (frame_setReg (needs rfl) _ _ _ (frame_setReg (needs
      rfl) _ _ _ (frame_setN (needs rfl) _ _ _ h))))

theorem frame_execTimeExchange (done : Option TimeStamp) (s : State) :
    Leaves (Held (footprint (.timeExchange done)) s.card) (execTimeExchange done s) := by
  refine frame_run fun hC => frame_ite hC ?_
  extract_lets _ c₁
  have h₁ : Held _ _ c₁ := frame_ite (frame_sendPacket (needs rfl) _ _ _ _ _ hC) hC
  split
  · exact frame_missedInterval (needs rfl) _ h₁
  · refine frame_ite (frame_missedInterval (needs rfl) _ h₁) ?_
    extract_lets c₂
    have h₂ : Held _ _ c₂ := frame_setPort (needs rfl) _ _ _ h₁
    refine frame_ite ?_ (frame_discipline (needs rfl) _ _ _ h₂)
    exact frame_missedInterval (needs rfl) _ (frame_event (needs rfl) _ _ _ _ h₂)

theorem frame_execLayoutCheck (h : Fin 4) (s : State) :
    Leaves (Held (footprint (.layoutCheck h)) s.card) (execLayoutCheck h s) := by
  refine frame_run fun hC => frame_hostWrite (needs rfl) _ _ _ _ hC (fun _ h => ?_)
  exact frame_loaderGo (needs rfl) _ _ _ _ h (fun _ h => frame_loaderStart (needs rfl) _ _ _ h)

theorem frame_execLayoutLoad (h : Fin 4) (s : State) :
    Leaves (Held (footprint (.layoutLoad h)) s.card) (execLayoutLoad h s) := by
  refine frame_run fun hC => frame_hostWrite (needs rfl) _ _ _ _ hC (fun _ h => ?_)
  refine frame_loaderGo (needs rfl) _ _ _ _ h (fun _ h => ?_)
  exact frame_ite (frame_loaderStart (needs rfl) _ _ _ h) (frame_loaderEnd (needs rfl) _ _ _ h)

theorem frame_execSetDefault (h : Fin 4) (s : State) :
    Leaves (Held (footprint (.setDefault h)) s.card) (execSetDefault h s) := by
  refine frame_run fun hC => frame_hostWrite (needs rfl) _ _ _ _ hC (fun _ h => ?_)
  refine frame_ite (frame_bump (needs rfl) _ _ _ h) ?_
  exact frame_loaderGo (needs rfl) _ _ _ _ h (fun _ h => frame_loaderStart (needs rfl) _ _ _ h)

theorem frame_execLoadDefault (h : Fin 4) (s : State) :
    Leaves (Held (footprint (.loadDefault h)) s.card) (execLoadDefault h s) := by
  refine frame_run fun hC => frame_hostWrite (needs rfl) _ _ _ _ hC (fun _ h => ?_)
  refine frame_loaderGo (needs rfl) _ _ _ _ h (fun _ h => ?_)
  refine frame_ite (frame_loaderEnd (needs rfl) _ _ _ h) ?_
  split
  · exact frame_loaderEnd (needs rfl) _ _ _ h
  · exact frame_loaderStart (needs rfl) _ _ _ (frame_fillWindow (needs rfl) _ _ h)

theorem frame_execLoaderBadCommand (v : Word) (s : State) :
    Leaves (Held (footprint (.loaderBadCommand v)) s.card) (execLoaderBadCommand v s) := by
  refine frame_run fun hC => frame_hostWrite (needs rfl) _ _ _ _ hC (fun _ h => frame_ite h ?_)
  refine frame_ite (frame_bump (needs rfl) _ _ _ h) ?_
  extract_lets c₁
  have h₁ : Held _ _ c₁ := frame_setF (needs rfl) _ _ _ _ _ (frame_setF (needs rfl) _ _ _ _ _ h)
  exact frame_ite (frame_loaderResult (needs rfl) _ _ _ h₁) (frame_loaderResult (needs rfl) _ _ _ h₁)

theorem frame_execLayoutCommandDone (s : State) :
    Leaves (Held (footprint .layoutCommandDone) s.card) (execLayoutCommandDone s) := by
  refine frame_run fun hC => ?_
  extract_lets
  split
  · exact hC
  · refine frame_ite hC ?_
    extract_lets _ c₁ c₂
    have h₁ : Held _ _ c₁ := frame_noteImage (needs rfl) _ _ _ (frame_loaderIdle (needs rfl) _ hC)
    have h₂ : Held _ _ c₂ := frame_loaderResult (needs rfl) _ _ _ (frame_lastResult (needs rfl) _ _ _ h₁)
    split
    · exact frame_loaderResult (needs rfl) _ _ _ (frame_lastResult (needs rfl) _ _ _ h₁)
    · exact frame_ite (frame_makePending (needs rfl) _ _ _ h₂) (frame_ite (frame_stageImage (needs rfl) _ _ _ h₂) h₂)

theorem frame_execLayoutApplication (h : Fin 4) (s : State) :
    Leaves (Held (footprint (.layoutApplication h)) s.card) (execLayoutApplication h s) := by
  refine frame_run fun hC => ?_
  extract_lets _ keepOld c₁
  have h₁ : Held (footprint (.layoutApplication h)) s.card c₁ := frame_withPendLay (needs rfl) _ hC
  have hold : ∀ c, Held (footprint (.layoutApplication h)) s.card c → Held (footprint (.layoutApplication h)) s.card (keepOld
      c) := by
    intro c hc
    dsimp only [keepOld]
    split
    · exact frame_applyLayout (needs rfl) _ _ _ hc
    · exact frame_setFn (needs rfl) _ _ _ hc
  refine frame_ite hC ?_
  split
  · exact hold _ hC
  · extract_lets c₂
    have h₂ : Held (footprint (.layoutApplication h)) s.card c₂ := frame_noteCheck (needs rfl) _ _ _ (frame_setN (needs rfl)
        _ _ _ (frame_setBit (needs rfl) _ _ _ _ h₁))
    split
    · exact hold _ (frame_lastResult (needs rfl) _ _ _ h₂)
    · exact frame_applyLayout (needs rfl) _ _ _ (frame_lastResult (needs rfl) _ _ _ h₂)

theorem frame_execFlrDrainDone (h : Fin 4) (v : Option (Fin 8)) (s : State) :
    Leaves (Held (footprint (.flrDrainDone h v)) s.card) (execFlrDrainDone h v s) := by
  refine frame_run fun hC => ?_
  extract_lets _ _ c₁
  have h₁ : Held _ _ c₁ := frame_setCfg (needs rfl) _ _ _ hC
  split
  · exact frame_ite hC (frame_ite (frame_setFn (needs rfl) _ _ _ h₁) (frame_pfReadable (needs rfl) _ _ h₁))
  · extract_lets _ _ _ c₂ c₃ c₄
    have h₂ : Held _ _ c₂ := frame_setF (needs rfl) _ _ _ _ _ (frame_setF (needs rfl) _ _ _ _ _ (frame_setF (needs rfl) _ _ _
        _ _ hC))
    have h₃ : Held _ _ c₃ := frame_foldl (fun _ _ h => frame_ite (frame_setRing (needs rfl) _ _ _ _ h) h) _ h₂
    have h₄ : Held _ _ c₄ := frame_setFn (needs rfl) _ _ _ (frame_bumpF (needs rfl) _ _ _ _ _ (frame_setCfg (needs rfl) _ _ _
        h₃))
    exact frame_ite hC (frame_raise (needs rfl) _ _ _ h₄)

theorem frame_execPfD3hotExit (h : Fin 4) (s : State) :
    Leaves (Held (footprint (.pfD3hotExit h)) s.card) (execPfD3hotExit h s) := by
  refine frame_run fun hC => ?_
  extract_lets _ _ c₁
  have h₁ : Held _ _ c₁ := frame_setFn (needs rfl) _ _ _ (frame_setCfg (needs rfl) _ _ _ hC)
  exact frame_ite hC (frame_ite (frame_pfReadable (needs rfl) _ _ h₁) h₁)

theorem frame_execRefresh (ch : Fin 8) (sub : Fin 2) (s : State) :
    Leaves (Held (footprint (.refresh ch sub)) s.card) (execRefresh ch sub s) := by
  refine frame_run fun hC => ?_
  extract_lets _ _ c₁ _ c₂ c₃
  have h₁ : Held _ _ c₁ := frame_withRowsOpen (needs rfl) _ hC
  have h₂ : Held _ _ c₂ := frame_enforce (needs rfl) _ _ _ h₁
  have h₃ : Held _ _ c₃ := frame_withDlyPend (needs rfl) _ h₂
  exact frame_ite hC (frame_ite (frame_setBit (needs rfl) _ _ _ _ h₃) h₁)

theorem frame_execDriftWindowEnd (s : State) :
    Leaves (Held (footprint .driftWindowEnd) s.card) (execDriftWindowEnd s) := by
  refine frame_run fun hC => frame_ite hC ?_
  exact frame_restartDrift (needs rfl) _ (frame_foldl (fun _ _ h => frame_ite (frame_event (needs rfl) _ _ _ _ h) h) _ hC)

theorem frame_execIdleSelfRefresh (ch : Fin 8) (s : State) :
    Leaves (Held (footprint (.idleSelfRefresh ch)) s.card) (execIdleSelfRefresh ch s) := by
  refine frame_run fun hC => ?_
  extract_lets _ c₁
  have h₁ : Held _ _ c₁ := frame_advanceTo (needs rfl) _ _ hC
  refine frame_ite hC ?_
  exact frame_closeRows (needs rfl) _ _ (frame_loseSegments (needs rfl) _ _ (frame_setF (needs rfl) _ _ _ _ _ h₁))

theorem frame_execRankRetire (v : Word) (s : State) :
    Leaves (Held (footprint (.rankRetire v)) s.card) (execRankRetire v s) := by
  refine frame_run fun hC => frame_hostWrite (needs rfl) _ _ _ _ hC (fun _ h => ?_)
  extract_lets c₁
  have h₁ : Held _ _ c₁ := frame_writeReg (needs rfl) _ _ _ h
  refine frame_ite h₁ (frame_ite (frame_setF (needs rfl) _ _ _ _ _ h₁) ?_)
  refine frame_ite ?_ (frame_setF (needs rfl) _ _ _ _ _ h₁)
  exact frame_setF (needs rfl) _ _ _ _ _ (frame_retireCause (needs rfl) _ _ _ h₁)

theorem frame_execMigrationStart (s : State) :
    Leaves (Held (footprint .migrationStart) s.card) (execMigrationStart s) := by
  refine frame_run fun hC => frame_ite hC ?_
  extract_lets
  split
  · refine frame_ite hC ?_
    split
    · exact frame_abandonMigration (needs rfl) _ _ hC
    · exact frame_setMigr (needs rfl) _ _ (frame_beginMigration (needs rfl) _ _ _ hC)
  · split
    · exact hC
    · extract_lets c₁
      have h₁ : Held _ _ c₁ := frame_setMigrQ (needs rfl) _ _ hC
      split
      · exact frame_abandonMigration (needs rfl) _ _ h₁
      · exact frame_setMigr (needs rfl) _ _ (frame_beginMigration (needs rfl) _ _ _ h₁)

theorem frame_execMigrationChunkDone (bad : List Nat) (ce : Nat) (fails : Bool) (s : State) :
    Leaves (Held (footprint (.migrationChunkDone bad ce fails)) s.card) (execMigrationChunkDone bad ce fails s) := by
  refine frame_run fun hC => ?_
  split
  · exact hC
  · refine frame_ite hC ?_
    refine frame_ite (frame_targetFailed (needs rfl) _ hC) ?_
    extract_lets _ _ c₁ _ c₂ c₃
    have h₁ : Held _ _ c₁ := frame_ite (frame_countCe (needs rfl) _ _ _ _ hC) hC
    have h₂ : Held _ _ c₂ := frame_setMigr (needs rfl) _ _ (frame_copyChunk (needs rfl) _ _ _ _ h₁)
    have h₃ : Held _ _ c₃ := frame_foldl (fun _ _ h => frame_poisonLine (needs rfl) _ _ h) _ h₂
    exact frame_releaseAll (needs rfl) _ (frame_ite (frame_endMigration (needs rfl) _ _ h₃) h₃)

theorem frame_execEqualUnitRetryStart (h : Fin 4) (cls : Fin 9) (u : Nat) (ok : Bool) (s : State) :
    Leaves (Held (footprint (.equalUnitRetryStart h cls u ok)) s.card) (execEqualUnitRetryStart h cls u ok s) := by
  refine frame_run fun hC => ?_
  extract_lets
  refine frame_ite hC (frame_ite ?_ ?_)
  · split
    · exact hC
    · split
      · exact hC
      · exact frame_ite hC (frame_settleFences (needs rfl) _ _ (frame_sliceOnEqual (needs rfl) _ _ _ _ _ _ _ _ hC))
  · split
    · exact hC
    · exact frame_ite hC (frame_settleFences (needs rfl) _ _ (frame_retryOnEqual (needs rfl) _ _ _ _ _ _ _ hC))

theorem frame_execUnitReinstate (h : Fin 4) (v : Word) (s : State) :
    Leaves (Held (footprint (.unitReinstate h v)) s.card) (execUnitReinstate h v s) := by
  refine frame_run fun hC => frame_hostWrite (needs rfl) _ _ _ _ hC (fun _ h => ?_)
  extract_lets _ c₁
  have h₁ : Held _ _ c₁ := frame_writeReg (needs rfl) _ _ _ h
  refine frame_ite h (frame_ite h₁ (frame_ite ?_ (frame_setF (needs rfl) _ _ _ _ _ h₁)))
  exact frame_setBit (needs rfl) _ _ _ _ (frame_setF (needs rfl) _ _ _ _ _ h₁)

theorem frame_execColanderReinstate (v : Word) (s : State) :
    Leaves (Held (footprint (.colanderReinstate v)) s.card) (execColanderReinstate v s) := by
  refine frame_run fun hC => frame_hostWrite (needs rfl) _ _ _ _ hC (fun _ h => ?_)
  extract_lets _ c₁
  have h₁ : Held _ _ c₁ := frame_writeReg (needs rfl) _ _ _ h
  refine frame_ite h (frame_ite h₁ (frame_ite ?_ (frame_setF (needs rfl) _ _ _ _ _ h₁)))
  exact frame_setBit (needs rfl) _ _ _ _ (frame_setF (needs rfl) _ _ _ _ _ h₁)

theorem frame_execSelfTestDone (h : Option (Fin 4)) (passed : Bool) (s : State) :
    Leaves (Held (footprint (.selfTestDone h passed)) s.card) (execSelfTestDone h passed s) := by
  refine frame_run fun hC => ?_
  extract_lets _ _ _ c₁ c₂
  have h₁ : Held _ _ c₁ := frame_setF (needs rfl) _ _ _ _ _ (frame_setBit (needs rfl) _ _ _ _ hC)
  have h₂ : Held _ _ c₂ := frame_ite (frame_setBit (needs rfl) _ _ _ _ (frame_reinstated (needs rfl) _ _ _ _ h₁)) h₁
  split
  · extract_lets _ _ _ c₃ c₄
    have h₃ : Held _ _ c₃ := frame_setF (needs rfl) _ _ _ _ _ (frame_setBit (needs rfl) _ _ _ _ hC)
    have h₄ : Held _ _ c₄ := frame_ite (frame_reinstated (needs rfl) _ _ _ _ h₃) h₃
    exact frame_ite hC (frame_hpEvent (needs rfl) _ _ _ _ _ (frame_logVerdict (needs rfl) _ _ _ _ _ _ _ h₄))
  · exact frame_ite hC (frame_logVerdict (needs rfl) _ _ _ _ _ _ _ h₂)

theorem frame_execStartAcknowledged (s : State) :
    Leaves (Held (footprint .startAcknowledged) s.card) (execStartAcknowledged s) := by
  refine frame_run fun hC => ?_
  extract_lets c₁
  have h₁ : Held _ _ c₁ := frame_settleB (needs rfl) _ hC
  split
  · exact h₁
  · extract_lets c₂ _ c₃
    have h₂ : Held _ _ c₂ := frame_ite (frame_sharesFor (needs rfl) _ _ h₁) h₁
    have h₃ : Held _ _ c₃ := frame_ite (frame_advanceTo (needs rfl) _ _ h₂) h₂
    refine frame_ite (frame_govFlags (needs rfl) _ h₂) ?_
    exact frame_govFlags (needs rfl) _ (frame_acknowledge (needs rfl) _ _ (frame_settleB (needs rfl) _ h₃))

theorem frame_execBallastDecayTick (p : PowerSense) (s : State) :
    Leaves (Held (footprint (.ballastDecayTick p)) s.card) (execBallastDecayTick p s) := by
  refine frame_run fun hC => frame_ite hC ?_
  extract_lets c₁ c₂
  have h₁ : Held _ _ c₁ := frame_setF (needs rfl) _ _ _ _ _ (frame_setN (needs rfl) _ _ _ hC)
  have h₂ : Held _ _ c₂ := frame_settleB (needs rfl) _ h₁
  exact frame_govFlags (needs rfl) _ (frame_withGov (needs rfl) _ h₂)

theorem frame_execSlopeExceeded (s : State) :
    Leaves (Held (footprint .slopeExceeded) s.card) (execSlopeExceeded s) := by
  exact frame_run fun hC => frame_ite hC (frame_govFlags (needs rfl) _ (frame_withGov (needs rfl) _ (frame_pwrEvent (needs
      rfl) _ _ hC)))

theorem frame_execAuxCableConnect (sense : Fin 4) (s : State) :
    Leaves (Held (footprint (.auxCableConnect sense)) s.card) (execAuxCableConnect sense s) := by
  refine frame_run fun hC => frame_ite hC ?_
  extract_lets _ c₁
  have h₁ : Held _ _ c₁ := frame_withPin (needs rfl) _ hC
  refine frame_ite ?_ h₁
  exact frame_startQual (needs rfl) _ (frame_setBit (needs rfl) _ _ _ _ (frame_setBit (needs rfl) _ _ _ _ h₁))

theorem frame_execAuxQualifyExpiry (s : State) :
    Leaves (Held (footprint .auxQualifyExpiry) s.card) (execAuxQualifyExpiry s) := by
  refine frame_run fun hC => ?_
  split
  · refine frame_ite hC ?_
    extract_lets c₁
    have h₁ : Held _ _ c₁ := frame_endQual (needs rfl) _ (frame_advanceTo (needs rfl) _ _ hC)
    exact frame_bootVoltage (needs rfl) _ (frame_setF (needs rfl) _ _ _ _ _ (frame_setF (needs rfl) _ _ _ _ _ h₁))
  · exact hC

theorem frame_execAuxPowerLost (gone : Bool) (s : State) :
    Leaves (Held (footprint (.auxPowerLost gone)) s.card) (execAuxPowerLost gone s) := by
  refine frame_run fun hC => frame_ite hC ?_
  extract_lets _ c₁ c₂
  have h₁ : Held _ _ c₁ := frame_ite (frame_withPin (needs rfl) _ hC) (frame_withPin (needs rfl) _ hC)
  have h₂ : Held _ _ c₂ := frame_ite (frame_setBit (needs rfl) _ _ _ _ (frame_setBit (needs rfl) _ _ _ _ h₁)) h₁
  refine frame_ite h₁ ?_
  split
  · exact frame_ite h₂ (frame_setF (needs rfl) _ _ _ _ _ (frame_coreDown (needs rfl) _ (frame_pwrEvent (needs rfl) _ _ h₂)))
  · exact frame_ite h₂ (frame_startQual (needs rfl) _ h₂)
  · exact h₂

theorem frame_execSupplyLimiterTrip (i : Fin 3) (s : State) :
    Leaves (Held (footprint (.supplyLimiterTrip i)) s.card) (execSupplyLimiterTrip i s) := by
  refine frame_run fun hC => frame_ite hC ?_
  extract_lets _ c₁
  have h₁ : Held _ _ c₁ := frame_withGov (needs rfl) _ hC
  exact frame_pwrEvent (needs rfl) _ _ (frame_setBit (needs rfl) _ _ _ _ (frame_checkSupplies (needs rfl) _ h₁))

theorem frame_execOutwardSupplyEnableWrite (v : Word) (s : State) :
    Leaves (Held (footprint (.outwardSupplyEnableWrite v)) s.card) (execOutwardSupplyEnableWrite v s) := by
  refine frame_run fun hC => frame_hostWrite (needs rfl) _ _ _ _ hC (fun _ h => ?_)
  exact frame_checkSupplies (needs rfl) _ (frame_foldl (fun _ _ h => frame_writeEn (needs rfl) _ _ _ h) _ (frame_writeReg
      (needs rfl) _ _ _ h))

theorem frame_execHubSensorSample (ts : List (Option Int)) (s : State) :
    Leaves (Held (footprint (.hubSensorSample ts)) s.card) (execHubSensorSample ts s) := by
  refine frame_run fun hC => frame_ite hC ?_
  extract_lets c₁
  have h₁ : Held _ _ c₁ := frame_foldl (fun _ _ h => frame_setSensor (needs rfl) _ _ _ h) _ hC
  split
  · exact frame_draw (needs rfl) _ (frame_draw (needs rfl) _ (frame_trip (needs rfl) _ _ _ h₁))
  · extract_lets _ c₂ c₃
    have h₂ : Held _ _ c₂ := frame_setF (needs rfl) _ _ _ _ _ (frame_setF (needs rfl) _ _ _ _ _ h₁)
    have h₃ : Held _ _ c₃ := frame_ite (frame_setF (needs rfl) _ _ _ _ _ h₂) h₂
    split
    · exact frame_ite (frame_trip (needs rfl) _ _ _ h₃) (frame_stageFor (needs rfl) _ _ h₃)
    · exact h₃

theorem frame_execModuleTempSample (ch : Fin 8) (t : Option Int) (s : State) :
    Leaves (Held (footprint (.moduleTempSample ch t)) s.card) (execModuleTempSample ch t s) := by
  refine frame_run fun hC => frame_ite hC ?_
  extract_lets _ c₁
  have h₁ : Held _ _ c₁ := frame_setSensor (needs rfl) _ _ _ hC
  split
  · exact frame_setSensor (needs rfl) _ _ _ hC
  · extract_lets c₂ c₃
    have h₂ : Held _ _ c₂ := frame_ite (frame_thmEvent (needs rfl) _ _ (frame_setSensor (needs rfl) _ _ _ hC))
        (frame_setSensor (needs rfl) _ _ _ hC)
    have h₃ : Held _ _ c₃ := frame_bandSample (needs rfl) _ _ _ h₂
    refine frame_ite ?_ (frame_bandSample (needs rfl) _ _ _ h₂)
    exact frame_ite (frame_withNoRetention (needs rfl) _ h₃) (frame_trip (needs rfl) _ _ _ h₂)

theorem frame_execAvsPoll (p : AvsPoll) (s : State) :
    Leaves (Held (footprint (.avsPoll p)) s.card) (execAvsPoll p s) := by
  refine frame_run fun hC => frame_ite hC ?_
  extract_lets c₁ c₂ c₃
  have h₁ : Held _ _ c₁ := frame_setN (needs rfl) _ _ _ hC
  have h₂ : Held _ _ c₂ := frame_setSensor (needs rfl) _ _ _ h₁
  have h₃ : Held _ _ c₃ := frame_ite (frame_event (needs rfl) _ _ _ _ h₂) h₂
  exact frame_ite (frame_trip (needs rfl) _ _ _ h₃) h₃

theorem frame_execWarmingTick (mw : Nat) (s : State) :
    Leaves (Held (footprint (.warmingTick mw)) s.card) (execWarmingTick mw s) := by
  refine frame_run fun hC => frame_ite hC ?_
  extract_lets _ _ c₁ c₂ c₃
  have h₁ : Held _ _ c₁ := frame_withGov (needs rfl) _ hC
  have h₂ : Held _ _ c₂ := frame_setPair (needs rfl) _ _ _ _ h₁
  have h₃ : Held _ _ c₃ := frame_setF (needs rfl) _ _ _ _ _ h₂
  refine frame_ite h₃ (frame_ite (frame_ite h₃ (frame_govStart (needs rfl) _ _ _ _ h₃)) ?_)
  exact frame_ite (frame_govFlags (needs rfl) _ (frame_stopShares (needs rfl) _ _ h₃)) h₃

theorem frame_execKeepStore (v : Word) (s : State) :
    Leaves (Held (footprint (.keepStore v)) s.card) (execKeepStore v s) := by
  refine frame_run fun hC => frame_hostWrite (needs rfl) _ _ _ _ hC (fun _ h => ?_)
  exact frame_ksGo (needs rfl) _ _ _ _ h (fun _ h => frame_beginHostStore (needs rfl) _ _ h)

theorem frame_execRestage (v : Word) (s : State) :
    Leaves (Held (footprint (.restage v)) s.card) (execRestage v s) := by
  refine frame_run fun hC => frame_hostWrite (needs rfl) _ _ _ _ hC (fun _ h => ?_)
  exact frame_ksGo (needs rfl) _ _ _ _ h (fun _ h => frame_ksEnd (needs rfl) _ _ (frame_withKeep (needs rfl) _ h))

theorem frame_execClearRetire (v : Word) (s : State) :
    Leaves (Held (footprint (.clearRetire v)) s.card) (execClearRetire v s) := by
  refine frame_run fun hC => frame_hostWrite (needs rfl) _ _ _ _ hC (fun _ h => ?_)
  exact frame_ksGo (needs rfl) _ _ _ _ h (fun _ h => frame_beginHostStore (needs rfl) _ _ h)

theorem frame_execAbandon (v : Word) (s : State) :
    Leaves (Held (footprint (.abandon v)) s.card) (execAbandon v s) := by
  refine frame_run fun hC => frame_hostWrite (needs rfl) _ _ _ _ hC (fun _ h => ?_)
  refine frame_ksGo (needs rfl) _ _ _ _ h (fun _ h => ?_)
  exact frame_ite (frame_ksEnd (needs rfl) _ _ (frame_withPresence (needs rfl) _ h)) (frame_ksEnd (needs rfl) _ _ h)

theorem frame_execKsBadCommand (v : Word) (s : State) :
    Leaves (Held (footprint (.ksBadCommand v)) s.card) (execKsBadCommand v s) := by
  refine frame_run fun hC => frame_hostWrite (needs rfl) _ _ _ _ hC (fun _ h => ?_)
  exact frame_ite h (frame_ksGo (needs rfl) _ _ _ _ h (fun _ h => frame_ksEnd (needs rfl) _ _ h))

theorem frame_execStoreCommit (ok : Bool) (s : State) :
    Leaves (Held (footprint (.storeCommit ok)) s.card) (execStoreCommit ok s) := by
  refine frame_run fun hC => frame_ite hC ?_
  split
  · extract_lets c₁ _ c₂ c₃
    have h₁ : Held (footprint (.storeCommit ok)) s.card c₁ := by
      dsimp only [c₁]
      split
      · exact frame_commitBank (needs rfl) _ _ _ _ hC
      · exact hC
    have h₂ : Held _ _ c₂ := frame_withKeep (needs rfl) _ h₁
    have h₃ : Held _ _ c₃ := frame_ite (frame_ksEvent (needs rfl) _ _ h₂) (frame_giveBack (needs rfl) _ _ h₂)
    split
    · exact frame_ite (frame_startHostStore (needs rfl) _ _ h₃) h₃
    · exact h₃
  · split
    · refine frame_ite hC ?_
      extract_lets c₁ _ _ c₂
      have h₁ : Held _ _ c₁ := frame_commitBank (needs rfl) _ _ _ _ hC
      have h₂ : Held _ _ c₂ := frame_ite (frame_withKeep (needs rfl) _ h₁) h₁
      exact frame_ksEnd (needs rfl) _ _ h₂
    · exact hC
  · exact hC

theorem frame_execKsStagingAccess (w : Option Word) (s : State) :
    Leaves (Held (footprint (.ksStagingAccess w)) s.card) (execKsStagingAccess w s) := by
  refine frame_run fun hC => ?_
  extract_lets
  split
  · refine frame_hostWrite (needs rfl) _ _ _ _ hC (fun _ h => ?_)
    exact frame_ite h (frame_stgStep (needs rfl) _ (frame_withKeep (needs rfl) _ h))
  · refine frame_ite ?_ ?_
    · exact frame_draw (needs rfl) _ (frame_unclaimed (needs rfl) _ _ _ _ hC)
    · exact frame_ite (frame_emit (needs rfl) _ _ hC) (frame_stgStep (needs rfl) _ (frame_emit (needs rfl) _ _ hC))

theorem frame_execButtonPress (down : Bool) (s : State) :
    Leaves (Held (footprint (.buttonPress down)) s.card) (execButtonPress down s) := by
  refine frame_run fun hC => ?_
  extract_lets _ c₁
  have h₁ : Held _ _ c₁ := frame_withPin (needs rfl) _ hC
  exact frame_ite h₁ (frame_ite (frame_grantWindow (needs rfl) _ _ h₁) (frame_bump (needs rfl) _ _ _ h₁))

theorem frame_execJumperFitted (fitted : Bool) (s : State) :
    Leaves (Held (footprint (.jumperFitted fitted)) s.card) (execJumperFitted fitted s) := by
  exact frame_run fun hC => frame_ite (frame_grantWindow (needs rfl) _ _ (frame_withPin (needs rfl) _ hC)) (frame_withPin
      (needs rfl) _ hC)

theorem frame_execPresenceTimeout (s : State) :
    Leaves (Held (footprint .presenceTimeout) s.card) (execPresenceTimeout s) := by
  refine frame_run fun hC => ?_
  split
  · exact hC
  · refine frame_ite hC ?_
    extract_lets c₁ c₂
    have h₁ : Held _ _ c₁ := frame_advanceTo (needs rfl) _ _ hC
    have h₂ : Held _ _ c₂ := frame_ksEvent (needs rfl) _ _ (frame_presenceLog (needs rfl) _ _ _ _ _ (frame_endPresence (needs
        rfl) _ h₁))
    refine frame_ite (frame_fuseEnd (needs rfl) _ _ h₂) ?_
    exact frame_ite (frame_setBit (needs rfl) _ _ _ _ h₂) (frame_ksEnd (needs rfl) _ _ h₂)

theorem frame_execWarmRecheck (ms : List FuseMargin) (s : State) :
    Leaves (Held (footprint (.warmRecheck ms)) s.card) (execWarmRecheck ms s) := by
  refine frame_run fun hC => frame_ite hC ?_
  extract_lets c₁
  have h₁ : Held _ _ c₁ := frame_foldl (fun _ _ h => frame_ite h (frame_fuseEvents (needs rfl) _ _ _ (frame_fuseLog (needs
      rfl) _ _ _ _ _ _ _ (frame_setReg (needs rfl) _ _ _ (frame_setReg (needs rfl) _ _ _ h))))) _ hC
  refine frame_foldl (fun _ _ h => ?_) _ (frame_setUnits (needs rfl) _ (frame_countMargins (needs rfl) _ (frame_setBit (needs
      rfl) _ _ _ _ h₁)))
  exact frame_settleGroups (needs rfl) _ _ (frame_settleRetries (needs rfl) _ _ h)

theorem frame_execFuseProgram (v : Word) (s : State) :
    Leaves (Held (footprint (.fuseProgram v)) s.card) (execFuseProgram v s) := by
  refine frame_run fun hC => frame_hostWrite (needs rfl) _ _ _ _ hC (fun _ h => frame_ite h ?_)
  extract_lets _ c₁
  have h₁ : Held _ _ c₁ := frame_withFuseJob (needs rfl) _ h
  refine frame_ite (frame_fuseEnd (needs rfl) _ _ h) (frame_ite (frame_fuseEnd (needs rfl) _ _ h) ?_)
  exact frame_askPresence (needs rfl) _ _ _ _ _ _ h₁ (fun _ h => frame_startFuse (needs rfl) _ h) (fun _ h => frame_fuseEnd
      (needs rfl) _ _ h) (fun _ h => frame_setBit (needs rfl) _ _ _ _ h)

theorem frame_execFuseProgramDone (solid : Word) (s : State) :
    Leaves (Held (footprint (.fuseProgramDone solid)) s.card) (execFuseProgramDone solid s) := by
  refine frame_run fun hC => ?_
  split
  · exact hC
  · exact frame_ite hC (frame_fuseEnd (needs rfl) _ _ (frame_blow (needs rfl) _ _ _ hC))

theorem frame_execSealBreak (s : State) :
    Leaves (Held (footprint .sealBreak) s.card) (execSealBreak s) := by
  refine frame_run fun hC => frame_ite hC ?_
  extract_lets _ c₁ _ c₂
  have h₁ : Held _ _ c₁ := frame_withPin (needs rfl) _ hC
  have h₂ : Held _ _ c₂ := frame_ite (frame_withBoard (needs rfl) _ h₁) h₁
  exact frame_ite (frame_recordSeal (needs rfl) _ h₂) h₂

theorem frame_execKeepLoad (ms : List FuseMargin) (s : State) :
    Leaves (Held (footprint (.keepLoad ms)) s.card) (execKeepLoad ms s) := by
  refine frame_run fun hC => frame_ite hC ?_
  extract_lets _ _ c₁ c₂ c₃ c₄ c₅ c₆
  have h₁ : Held _ _ c₁ := frame_withColdMarginal (needs rfl) _ hC
  have h₂ : Held _ _ c₂ := frame_ite (frame_enterStage (needs rfl) _ _ h₁) (frame_recordsChanged (needs rfl) _ _ _
      (frame_loadBanks (needs rfl) _ (frame_enterStage (needs rfl) _ _ h₁)))
  have h₃ : Held _ _ c₃ := frame_foldl (fun _ _ h => frame_readFuse (needs rfl) _ _ _ h) _ h₂
  have h₄ : Held _ _ c₄ := frame_foldl (fun _ _ h => frame_fuseEvents (needs rfl) _ _ _ (frame_ite h (frame_fuseLog (needs
      rfl) _ _ _ _ _ _ _ h))) _ h₃
  have h₅ : Held _ _ c₅ := frame_countMargins (needs rfl) _ (frame_setBit (needs rfl) _ _ _ _ h₄)
  have h₆ : Held _ _ c₆ := frame_setUnits (needs rfl) _ (frame_setReg (needs rfl) _ _ _ (frame_setReg (needs rfl) _ _ _ h₅))
  exact frame_ite (frame_setBit (needs rfl) _ _ _ _ h₅) (frame_ite (frame_recordSeal (needs rfl) _ h₆) h₆)

theorem frame_execMemDelays (rs : List ModuleResult) (s : State) :
    Leaves (Held (footprint (.memDelays rs)) s.card) (execMemDelays rs s) := by
  refine frame_run fun hC => frame_ite hC ?_
  extract_lets _ c₁ c₂
  have h₁ : Held _ _ c₁ := frame_setN (needs rfl) _ _ _ (frame_enterStage (needs rfl) _ _ hC)
  have h₂ : Held _ _ c₂ := frame_ite (frame_thmEvent (needs rfl) _ _ h₁) h₁
  refine frame_foldl (fun _ _ h => ?_) _ h₂
  split
  · exact frame_bringChannel (needs rfl) _ _ _ h
  · exact h

theorem frame_execMemReady (s : State) :
    Leaves (Held (footprint .memReady) s.card) (execMemReady s) := by
  refine frame_run fun hC => frame_ite hC ?_
  extract_lets c₁ _ _ _ c₂ c₃
  have h₁ : Held _ _ c₁ := frame_emptyCache (needs rfl) _ (frame_enterStage (needs rfl) _ _ hC)
  have h₂ : Held _ _ c₂ := frame_foldl (fun _ _ h => frame_ite h (frame_setRank (needs rfl) _ _ _ _ h)) _ h₁
  have h₃ : Held (footprint .memReady) s.card c₃ := by
    refine frame_foldl (fun _ _ h => ?_) _ h₂
    refine frame_ite h ?_
    split
    · exact frame_redirectRank (needs rfl) _ _ _ (frame_setRank (needs rfl) _ _ _ _ (frame_setRank (needs rfl) _ _ _ _ h))
    · exact frame_loseRank (needs rfl) _ _ h
  exact frame_trainPort (needs rfl) _ _ (frame_trainPort (needs rfl) _ _ (frame_setCapacity (needs rfl) _ h₃))

theorem frame_execLayoutDefault (s : State) :
    Leaves (Held (footprint .layoutDefault) s.card) (execLayoutDefault s) := by
  refine frame_run fun hC => frame_ite hC ?_
  exact frame_foldl (fun _ _ h => frame_checkDefault (needs rfl) _ _ h) _ (frame_enterStage (needs rfl) _ _ hC)

theorem frame_execHampersReady (s : State) :
    Leaves (Held (footprint .hampersReady) s.card) (execHampersReady s) := by
  refine frame_run fun hC => ?_
  extract_lets _ c₁ c₂ c₃ c₄
  have h₁ : Held _ _ c₁ := frame_enterStage (needs rfl) _ _ hC
  have h₂ : Held _ _ c₂ := frame_foldl (fun _ _ h => frame_ite (frame_setBit (needs rfl) _ _ _ _ h) h) _ h₁
  have h₃ : Held _ _ c₃ := frame_foldl (fun _ _ h => frame_setPace (needs rfl) _ _ _ h) _ h₂
  have h₄ : Held _ _ c₄ := frame_startWindows (needs rfl) _ h₃
  exact frame_ite hC (frame_ite (frame_event (needs rfl) _ _ _ _ (frame_setBit (needs rfl) _ _ _ _ h₄)) h₄)

theorem frame_execConventionalReset (s : State) :
    Leaves (Held (footprint .conventionalReset) s.card) (execConventionalReset s) := by
  refine frame_run fun hC => frame_ite hC ?_
  extract_lets _ c₁ c₂ c₃
  have h₁ : Held (footprint .conventionalReset) s.card c₁ := fun x => by
    cases x <;> simp [footprint, Part.agree, c₁]
  have h₂ : Held _ _ c₂ := frame_setF (needs rfl) _ _ _ _ _ h₁
  have h₃ : Held _ _ c₃ := frame_ite (frame_setF (needs rfl) _ _ _ _ _ h₂) h₂
  exact frame_powerUp (needs rfl) _ h₃

theorem frame_execHotReset (s : State) :
    Leaves (Held (footprint .hotReset) s.card) (execHotReset s) := by
  refine frame_run fun hC => frame_ite hC ?_
  extract_lets c₁ _ _ c₂ c₃ c₄
  have h₁ : Held _ _ c₁ := frame_ite (frame_restartPtm (needs rfl) _ (frame_setSync (needs rfl) _ _ hC)) hC
  have h₂ : Held _ _ c₂ := frame_foldl (fun _ _ h => frame_askPfReset (needs rfl) _ _ _ _ _ h) _ h₁
  have h₃ : Held _ _ c₃ := frame_foldl (fun _ _ h => frame_ite (frame_setFn (needs rfl) _ _ _ h) h) _ h₂
  have h₄ : Held _ _ c₄ := frame_clearCfg (needs rfl) _ h₃
  exact frame_foldl (fun _ _ h => frame_pfReadable (needs rfl) _ _ (frame_setFn (needs rfl) _ _ _ h)) _ h₄

theorem frame_execVfEnableWrite (h : Fin 4) (en : Bool) (num : Option Nat) (s : State) :
    Leaves (Held (footprint (.vfEnableWrite h en num)) s.card) (execVfEnableWrite h en num s) := by
  refine frame_run fun hC => ?_
  extract_lets _ _ _ c₁ c₂
  have h₁ : Held _ _ c₁ := frame_setCfg (needs rfl) _ _ _ hC
  have h₂ : Held _ _ c₂ := frame_foldl (fun _ _ h => frame_resetVf (needs rfl) _ _ _ h) _ h₁
  refine frame_ite hC (frame_ite h₁ (frame_ite ?_ ?_))
  · exact frame_ite (frame_startVfs (needs rfl) _ _ (frame_setCfg (needs rfl) _ _ _ h₁)) h₁
  · exact frame_dropVfs (needs rfl) _ _ (frame_setCfg (needs rfl) _ _ _ h₂)

theorem frame_execBusMasterEnableWrite (fn : Fn) (en : Bool) (s : State) :
    Leaves (Held (footprint (.busMasterEnableWrite fn en)) s.card) (execBusMasterEnableWrite fn en s) := by
  refine frame_run fun hC => frame_ite hC ?_
  extract_lets _ _ c₁ c₂
  have h₁ : Held _ _ c₁ := frame_setCfg (needs rfl) _ _ _ hC
  have h₂ : Held _ _ c₂ := frame_ite (frame_msixRelease (needs rfl) _ _ h₁) h₁
  exact frame_ite (frame_pumpFn (needs rfl) _ _ (frame_ite (frame_settleSigs (needs rfl) _ h₂) h₂)) h₂

theorem frame_execVfResourceWrite (h : Fin 4) (v : Fin 8) (kind : VfResource) (val : Word) (s : State) :
    Leaves (Held (footprint (.vfResourceWrite h v kind val)) s.card) (execVfResourceWrite h v kind val s) := by
  unfold execVfResourceWrite
  extract_lets
  exact frame_run fun hC => frame_hostWrite (needs rfl) _ _ _ _ hC (fun _ h => frame_ite h (frame_setN (needs rfl) _ _ _ h))

theorem frame_execFreezePin (low : Bool) (s : State) :
    Leaves (Held (footprint (.freezePin low)) s.card) (execFreezePin low s) := by
  refine frame_run fun hC => ?_
  extract_lets _ c₁
  have h₁ : Held _ _ c₁ := frame_withFreezeN (needs rfl) _ hC
  exact frame_ite (frame_freezeRequest (needs rfl) _ _ h₁) h₁

theorem frame_execFreezeMatchTime (s : State) :
    Leaves (Held (footprint .freezeMatchTime) s.card) (execFreezeMatchTime s) := by
  refine frame_run fun hC => ?_
  extract_lets
  refine frame_ite hC ?_
  exact frame_freezeRequest (needs rfl) _ _ (frame_setBit (needs rfl) _ _ _ _ (frame_advanceTo (needs rfl) _ _ hC))

theorem frame_execFreezeSettled (s : State) :
    Leaves (Held (footprint .freezeSettled) s.card) (execFreezeSettled s) := by
  refine frame_run fun hC => frame_ite hC ?_
  extract_lets c₁ c₂ c₃
  have h₁ : Held _ _ c₁ := frame_draw (needs rfl) _ (frame_setN (needs rfl) _ _ _ (frame_stampUnits (needs rfl) _ hC))
  have h₂ : Held _ _ c₂ := frame_foldl (fun _ _ h => frame_ite (frame_setF (needs rfl) _ _ _ _ _ h) h) _ h₁
  have h₃ : Held _ _ c₃ := frame_settleStop (needs rfl) _ (frame_stopShares (needs rfl) _ _ h₂)
  exact frame_raise (needs rfl) _ _ _ (frame_setBit (needs rfl) _ _ _ _ (frame_setBit (needs rfl) _ _ _ _ h₃))

theorem frame_execThawComplete (exitFailed : Bool) (s : State) :
    Leaves (Held (footprint (.thawComplete exitFailed)) s.card) (execThawComplete exitFailed s) := by
  refine frame_run fun hC => ?_
  extract_lets _ _ c₁ c₂ c₃ c₄
  have h₁ : Held _ _ c₁ := frame_foldl (fun _ _ h => frame_ite (frame_setF (needs rfl) _ _ _ _ _ h) h) _ hC
  have h₂ : Held _ _ c₂ := frame_setPair (needs rfl) _ _ _ _ (frame_setF (needs rfl) _ _ _ _ _ (frame_shiftTimers (needs rfl)
      _ _ h₁))
  have h₃ : Held _ _ c₃ := frame_raise (needs rfl) _ _ _ (frame_setF (needs rfl) _ _ _ _ _ h₂)
  have h₄ : Held _ _ c₄ := frame_govFlags (needs rfl) _ (frame_resume (needs rfl) _ h₃)
  refine frame_ite hC (frame_ite ?_ ?_)
  · exact frame_loseRetention (needs rfl) _ (frame_setF (needs rfl) _ _ _ _ _ (frame_setBit (needs rfl) _ _ _ _ hC))
  · split
    · exact frame_freezeWave (needs rfl) _ _ (frame_endRefreeze (needs rfl) _ h₄)
    · exact h₄

theorem frame_execReadoutDone (bad : List Nat) (s : State) :
    Leaves (Held (footprint (.readoutDone bad)) s.card) (execReadoutDone bad s) := by
  refine frame_run fun hC => ?_
  extract_lets _ _ c₁ c₂
  have h₁ : Held _ _ c₁ := frame_fillRo (needs rfl) _ _ hC
  have h₂ : Held _ _ c₂ := frame_withFresh (needs rfl) _ h₁
  refine frame_ite hC ?_
  exact frame_setBit (needs rfl) _ _ _ _ (frame_setBit (needs rfl) _ _ _ _ (frame_setBit (needs rfl) _ _ _ _ h₂))

theorem frame_execJtagRoAccess (dr : BitVec 48) (s : State) :
    Leaves (Held (footprint (.jtagRoAccess dr)) s.card) (execJtagRoAccess dr s) := by
  refine frame_run fun hC => frame_ite hC ?_
  extract_lets c₁ _ _ _ _ c₂ _ c₃
  have h₁ : Held _ _ c₁ := frame_emit (needs rfl) _ _ (frame_jtagIr (needs rfl) _ _ hC)
  have h₂ : Held _ _ c₂ := frame_draw (needs rfl) _ (frame_draw (needs rfl) _ h₁)
  have h₃ : Held _ _ c₃ := frame_withTap (needs rfl) _ h₂
  exact frame_ite (frame_ite (frame_frzWrite (needs rfl) _ _ _ h₃) (frame_bump (needs rfl) _ _ _ h₃)) h₃

theorem frame_execJtagExtest (dr len : Nat) (s : State) :
    Leaves (Held (footprint (.jtagExtest dr len)) s.card) (execJtagExtest dr len s) := by
  refine frame_run fun hC => frame_ite hC ?_
  extract_lets c₁
  have h₁ : Held _ _ c₁ := frame_jtagPins (needs rfl) _ _ (frame_jtagIr (needs rfl) _ _ hC)
  exact frame_ite (frame_jtagShift (needs rfl) _ _ _ (frame_jtagIr (needs rfl) _ _ hC)) (frame_withTap (needs rfl) _ h₁)

theorem frame_execJtagSamplePreload (dr len : Nat) (s : State) :
    Leaves (Held (footprint (.jtagSamplePreload dr len)) s.card) (execJtagSamplePreload dr len s) := by
  exact frame_run fun hC => frame_ite hC (frame_withTap (needs rfl) _ (frame_jtagPins (needs rfl) _ _ (frame_jtagIr (needs
      rfl) _ _ hC)))

theorem frame_execBoardHubPoll (s : State) :
    Leaves (Held (footprint .boardHubPoll) s.card) (execBoardHubPoll s) := by
  exact frame_run fun hC => frame_ite hC (frame_ite (frame_withBoard (needs rfl) _ hC) (frame_withBoard (needs rfl) _ hC))

theorem frame_execBoardSensorPoll (p : BoardSense) (s : State) :
    Leaves (Held (footprint (.boardSensorPoll p)) s.card) (execBoardSensorPoll p s) := by
  refine frame_run fun hC => frame_ite hC ?_
  extract_lets _ _ _ c₁
  have h₁ : Held _ _ c₁ := frame_withBoard (needs rfl) _ hC
  exact frame_ite (frame_setSensor (needs rfl) _ _ _ (frame_setSensor (needs rfl) _ _ _ h₁)) h₁

theorem frame_execSmbusReadByte (code : Fin 256) (s : State) :
    Leaves (Held (footprint (.smbusReadByte code)) s.card) (execSmbusReadByte code s) := by
  refine frame_run fun hC => frame_ite (frame_emit (needs rfl) _ _ hC) ?_
  extract_lets _ c₁
  have h₁ : Held _ _ c₁ := frame_draw (needs rfl) _ (frame_smbusAnswer (needs rfl) _ _ _ hC)
  exact frame_ite (frame_withBoard (needs rfl) _ h₁) h₁

theorem frame_execSmbusReadWord (code : Fin 256) (s : State) :
    Leaves (Held (footprint (.smbusReadWord code)) s.card) (execSmbusReadWord code s) := by
  exact frame_run fun hC => frame_ite (frame_emit (needs rfl) _ _ hC) (frame_draw (needs rfl) _ (frame_smbusAnswer (needs
      rfl) _ _ _ hC))

theorem frame_execSmbusBlockRead (code : Fin 256) (s : State) :
    Leaves (Held (footprint (.smbusBlockRead code)) s.card) (execSmbusBlockRead code s) := by
  refine frame_run fun hC => frame_ite (frame_emit (needs rfl) _ _ hC) ?_
  exact frame_draw (needs rfl) _ (frame_draw (needs rfl) _ (frame_smbusAnswer (needs rfl) _ _ _ hC))

theorem frame_execDaughterboardRemoved (s : State) :
    Leaves (Held (footprint .daughterboardRemoved) s.card) (execDaughterboardRemoved s) := by
  refine frame_run fun hC => ?_
  extract_lets c₁
  have h₁ : Held _ _ c₁ := frame_foldl (fun _ _ h => frame_ite (frame_setLink (needs rfl) _ _ _ _ _ h) h) _ hC
  exact frame_checkSupplies (needs rfl) _ (frame_setBit (needs rfl) _ _ _ _ h₁)

theorem frame_execOperationRetire (h : Fin 4) (r : Fin 16) (seq : Nat) (errs : List MemErr) (s : State) :
    Leaves (Held (footprint (.operationRetire h r seq errs)) s.card) (execOperationRetire h r seq errs s) := by
  refine frame_run fun hC => ?_
  extract_lets
  split
  · exact hC
  · refine frame_ite hC ?_
    extract_lets c₁
    have h₁ : Held _ _ c₁ := frame_lastSteps (needs rfl) _ _ _ _ _ hC
    split
    · exact h₁
    · refine frame_ite h₁ ?_
      extract_lets
      refine frame_ite ?_ ?_
      · exact frame_setOp (needs rfl) _ _ _ _ (frame_failData (needs rfl) _ _ _ (frame_ite_fst (frame_memErrs (needs rfl) _ _
            _ _ _ h₁) h₁))
      · exact frame_retireRan (needs rfl) _ _ _ _ (frame_failData (needs rfl) _ _ _ (frame_ite_fst (frame_memErrs (needs rfl)
            _ _ _ _ _ h₁) h₁))

/-- Every command leaves the parts outside its footprint as they were. -/
theorem frame_exec (i : Instr) (s : State) : Leaves (Held (footprint i) s.card) (exec i s) := by
  unfold exec
  cases i with
  | registerWrite _ => exact frame_execRegisterWrite _ s
  | rcFieldRead _ _ _ => exact frame_execRcFieldRead _ _ _ s
  | pairLoRead _ _ => exact frame_run fun hC => frame_read32 (needs rfl) _ _ _ _ hC
  | pairLoWrite _ _ _ => exact frame_execPairLoWrite _ _ _ s
  | pairHiWrite _ _ _ => exact frame_execPairHiWrite _ _ _ s
  | frozenBarAccess _ _ => exact frame_execFrozenBarAccess _ _ s
  | poolEnable _ _ _ => exact frame_execPoolEnable _ _ _ s
  | poolDisable _ _ _ => exact frame_execPoolDisable _ _ _ s
  | poolCheckDone _ => exact frame_execPoolCheckDone _ s
  | poolHostTake _ _ => exact frame_execPoolHostTake _ _ s
  | poolHostFree _ _ => exact frame_execPoolHostFree _ _ s
  | poolAudit _ _ => exact frame_execPoolAudit _ _ s
  | auditScanDone _ => exact frame_execAuditScanDone _ s
  | contextEntryWrite _ _ => exact frame_execContextEntryWrite _ _ s
  | translationInvalidate _ _ => exact frame_execTranslationInvalidate _ _ s
  | invalidationDone _ =>
    exact frame_run fun hC => frame_ite hC (frame_withTlb (needs rfl) _ (frame_setBit (needs rfl) _ _ _ _ hC))
  | regionOwnerWrite _ _ => exact frame_execRegionOwnerWrite _ _ s
  | apertureMapWrite _ _ _ _ => exact frame_execApertureMapWrite _ _ _ _ s
  | faultLogHeadWrite _ => exact frame_execFaultLogHeadWrite _ s
  | faultLogClear _ => exact frame_execFaultLogClear _ s
  | recordRingEnable _ _ _ => exact frame_execRecordRingEnable _ _ _ s
  | heartbeat _ _ => exact frame_execHeartbeat _ _ s
  | fetchCompletionTimeout _ => exact frame_execFetchCompletionTimeout _ s
  | hostReadCompletion _ _ _ => exact frame_execHostReadCompletion _ _ _ s
  | doorbell _ _ _ => exact frame_execDoorbell _ _ _ s
  | commandFetchDone _ _ => exact frame_execCommandFetchDone _ _ s
  | waitTimeout _ _ => exact frame_execWaitTimeout _ _ s
  | ringEnable _ _ _ => exact frame_execRingEnable _ _ _ s
  | ringDisable _ _ _ => exact frame_execRingDisable _ _ _ s
  | ringDrainDone _ _ => exact frame_execRingDrainDone _ _ s
  | completionHeadWrite _ _ _ => exact frame_execCompletionHeadWrite _ _ _ s
  | semaphoreHostWrite _ _ _ => exact frame_execSemaphoreHostWrite _ _ _ s
  | flushHeldDiscard _ _ => exact frame_execFlushHeldDiscard _ _ s
  | recordRingDisable _ _ _ => exact frame_execRecordRingDisable _ _ _ s
  | recordHeadWrite _ _ _ => exact frame_execRecordHeadWrite _ _ _ s
  | waitSatisfied _ _ => exact frame_execWaitSatisfied _ _ s
  | frontNop _ _ => exact frame_execFrontNop _ _ s
  | frontBarrier _ _ => exact frame_execFrontBarrier _ _ s
  | frontStamp _ _ => exact frame_execFrontStamp _ _ s
  | accClearAll _ _ => exact frame_execAccClearAll _ _ s
  | accClearSlot _ _ => exact frame_execAccClearSlot _ _ s
  | accSlotCfgWrite _ _ _ => exact frame_execAccSlotCfgWrite _ _ _ s
  | apertureAccess _ _ _ _ _ => exact frame_execApertureAccess _ _ _ _ _ s
  | sparseFirstWrite _ _ _ _ _ _ => exact frame_execSparseFirstWrite _ _ _ _ _ _ s
  | moveCopy _ _ _ => exact frame_run fun hC => frame_engine (needs rfl) _ _ _ _ _ _ _ hC (frames_copyWork (needs rfl))
  | moveFill _ _ _ => exact frame_run fun hC => frame_engine (needs rfl) _ _ _ _ _ _ _ hC (frames_fillWork (needs rfl))
  | moveUnback _ _ _ => exact frame_run fun hC => frame_engine (needs rfl) _ _ _ _ _ _ _ hC (frames_unbackWork (needs rfl))
  | send _ _ _ => exact frame_run fun hC => frame_engine (needs rfl) _ _ _ _ _ _ _ hC (frames_sendWork (needs rfl))
  | decodeOpen _ _ _ => exact frame_run fun hC => frame_engine (needs rfl) _ _ _ _ _ _ _ hC (frames_openWork (needs rfl))
  | decodeFeed _ _ _ => exact frame_run fun hC => frame_engine (needs rfl) _ _ _ _ _ _ _ hC (frames_feedWork (needs rfl) _)
  | feedBytesQueued _ _ _ => exact frame_execFeedBytesQueued _ _ _ s
  | decodeDrain _ _ _ _ =>
    exact frame_run fun hC => frame_engine (needs rfl) _ _ _ _ _ _ _ hC (frames_drainWork (needs rfl) _)
  | decodeClose _ _ _ => exact frame_run fun hC => frame_engine (needs rfl) _ _ _ _ _ _ _ hC (frames_closeWork (needs rfl))
  | keyCommit _ _ => exact frame_execKeyCommit _ _ s
  | keyClear _ _ => exact frame_execKeyClear _ _ s
  | pictureDecodeStart _ _ _ _ => exact frame_execPictureDecodeStart _ _ _ _ s
  | sequenceHeader _ _ _ => exact frame_execSequenceHeader _ _ _ s
  | partitionReconstructed _ _ _ _ => exact frame_execPartitionReconstructed _ _ _ _ s
  | damageDetected _ _ _ => exact frame_execDamageDetected _ _ _ s
  | pictureComplete _ _ _ => exact frame_execPictureComplete _ _ _ s
  | emitMotion _ _ _ =>
    exact frame_run fun hC => frame_engine (needs rfl) _ _ _ _ _ _ _ hC (frames_emitMotionWork (needs rfl))
  | emit _ _ _ => exact frame_run fun hC => frame_engine (needs rfl) _ _ _ _ _ _ _ hC (frames_emitWork (needs rfl))
  | search _ _ _ => exact frame_execSearch _ _ _ s
  | colanderSearchStart _ => exact frame_execColanderSearchStart _ s
  | frameStart _ _ _ _ => exact frame_execFrameStart _ _ _ _ s
  | frameEnd _ _ _ => exact frame_execFrameEnd _ _ _ s
  | lineMarker _ _ _ => exact frame_execLineMarker _ _ _ s
  | longPacket _ _ _ _ => exact frame_execLongPacket _ _ _ _ s
  | rasterPacketTimeout _ _ => exact frame_execRasterPacketTimeout _ _ s
  | rasterLinkChange _ _ _ _ => exact frame_execRasterLinkChange _ _ _ _ s
  | frameWritesComplete _ _ => exact frame_execFrameWritesComplete _ _ s
  | rasterCommitWrite _ _ _ => exact frame_execRasterCommitWrite _ _ _ s
  | moveCommit _ _ _ => exact frame_run fun hC => frame_engine (needs rfl) _ _ _ _ _ _ _ hC (frames_commitWork (needs rfl))
  | rasterVcEnable _ _ _ => exact frame_execRasterVcEnable _ _ _ s
  | prepare _ _ _ _ => exact frame_execPrepare _ _ _ _ s
  | prepareProgressRelease _ _ _ _ => exact frame_execPrepareProgressRelease _ _ _ _ s
  | backlogRefresh _ => exact frame_execBacklogRefresh _ s
  | griddleRun _ _ _ => exact frame_execGriddleRun _ _ _ s
  | griddlePassEnd _ _ => exact frame_execGriddlePassEnd _ _ s
  | ptmIntervalExpiry => exact frame_execPtmIntervalExpiry s
  | ptmExchangeDone _ => exact frame_run fun hC => frame_ite hC (frame_discipline (needs rfl) _ _ _ hC)
  | ptmDisable => exact frame_execPtmDisable s
  | paceWindowEnd => exact frame_execPaceWindowEnd s
  | avsWriteAck => exact frame_execAvsWriteAck s
  | avsWriteTimeout => exact frame_execAvsWriteTimeout s
  | remoteWriteAck _ _ => exact frame_execRemoteWriteAck _ _ s
  | remoteTimeout _ => exact frame_execRemoteTimeout _ s
  | dravazCableDetect _ _ => exact frame_execDravazCableDetect _ _ s
  | linkTrained _ _ _ => exact frame_execLinkTrained _ _ _ s
  | linkRetrain _ => exact frame_run fun hC => frame_retrain (needs rfl) _ _ hC
  | portRetrain _ _ => exact frame_execPortRetrain _ _ s
  | linkDownTimeout _ => exact frame_execLinkDownTimeout _ s
  | dravazPacketReceived _ _ => exact frame_execDravazPacketReceived _ _ s
  | remoteRequestReceived _ _ => exact frame_execRemoteRequestReceived _ _ s
  | messageReceived _ _ => exact frame_execMessageReceived _ _ s
  | msgRingEnable _ _ => exact frame_execMsgRingEnable _ _ s
  | msgHeadWrite _ _ => exact frame_execMsgHeadWrite _ _ s
  | windowCtlWrite _ _ _ => exact frame_execWindowCtlWrite _ _ _ s
  | timeExchange _ => exact frame_execTimeExchange _ s
  | layoutCheck _ => exact frame_execLayoutCheck _ s
  | layoutLoad _ => exact frame_execLayoutLoad _ s
  | setDefault _ => exact frame_execSetDefault _ s
  | loadDefault _ => exact frame_execLoadDefault _ s
  | loaderBadCommand _ => exact frame_execLoaderBadCommand _ s
  | layoutCommandDone => exact frame_execLayoutCommandDone s
  | layoutApplication _ => exact frame_execLayoutApplication _ s
  | zeroFillDone _ => exact frame_run fun hC => frame_ite (frame_fnReady (needs rfl) _ _ hC) hC
  | trackStep _ _ _ => exact frame_run fun hC => frame_engine (needs rfl) _ _ _ _ _ _ _ hC (frames_stepWork (needs rfl))
  | trackBatch _ _ _ => exact frame_run fun hC => frame_engine (needs rfl) _ _ _ _ _ _ _ hC (frames_batchWork (needs rfl))
  | trackUpdate _ _ _ => exact frame_run fun hC => frame_engine (needs rfl) _ _ _ _ _ _ _ hC (frames_updateWork (needs rfl))
  | trackSwap _ _ _ => exact frame_run fun hC => frame_engine (needs rfl) _ _ _ _ _ _ _ hC (frames_swapWork (needs rfl))
  | trackWithdraw _ _ _ =>
    exact frame_run fun hC => frame_engine (needs rfl) _ _ _ _ _ _ _ hC (frames_withdrawWork (needs rfl))
  | pfFlr _ => exact frame_run fun hC => frame_askPfReset (needs rfl) _ _ _ _ _ hC
  | vfFlr _ _ => exact frame_run fun hC => frame_askVfReset (needs rfl) _ _ _ hC
  | flrDrainDone _ _ => exact frame_execFlrDrainDone _ _ s
  | pfD3hotEntry _ =>
    exact frame_run fun hC => frame_ite hC (frame_askPfReset (needs rfl) _ _ _ _ _ (frame_setCfg (needs rfl) _ _ _ hC))
  | pfD3hotExit _ => exact frame_execPfD3hotExit _ s
  | delayApply _ _ =>
    exact frame_run fun hC => frame_hostWrite (needs rfl) _ _ _ _ hC (fun _ h => frame_delayCtl (needs rfl) _ _ _ h)
  | delayLoad _ _ =>
    exact frame_run fun hC => frame_hostWrite (needs rfl) _ _ _ _ hC (fun _ h => frame_delayCtl (needs rfl) _ _ _ h)
  | refresh _ _ => exact frame_execRefresh _ _ s
  | driftWindowEnd => exact frame_execDriftWindowEnd s
  | idleSelfRefresh _ => exact frame_execIdleSelfRefresh _ s
  | rankRetire _ => exact frame_execRankRetire _ s
  | migrationStart => exact frame_execMigrationStart s
  | migrationChunkDone _ _ _ => exact frame_execMigrationChunkDone _ _ _ s
  | unitStepFailure _ => exact frame_run fun hC => frame_stepFault (needs rfl) _ _ hC
  | watchdogExpiry _ => exact frame_run fun hC => frame_ite hC (frame_stepFault (needs rfl) _ _ hC)
  | equalUnitRetryStart _ _ _ _ => exact frame_execEqualUnitRetryStart _ _ _ _ s
  | unitReinstate _ _ => exact frame_execUnitReinstate _ _ s
  | colanderReinstate _ => exact frame_execColanderReinstate _ s
  | selfTestDone _ _ => exact frame_execSelfTestDone _ _ s
  | unitStartRequest _ => exact frame_run fun hC => frame_ite hC (frame_govStart (needs rfl) _ _ _ _ hC)
  | unitStop _ => exact frame_run fun hC => frame_ite (frame_govStop (needs rfl) _ _ hC) hC
  | startAcknowledged => exact frame_execStartAcknowledged s
  | ballastDecayTick _ => exact frame_execBallastDecayTick _ s
  | slopeExceeded => exact frame_execSlopeExceeded s
  | backfeedBlocked => exact frame_run fun hC => frame_ite (frame_pwrEvent (needs rfl) _ _ hC) hC
  | uvWarn _ => exact frame_run fun hC => frame_ite (frame_pwrEvent (needs rfl) _ _ (frame_setF (needs rfl) _ _ _ _ _ hC)) hC
  | auxCableConnect _ => exact frame_execAuxCableConnect _ s
  | auxQualifyExpiry => exact frame_execAuxQualifyExpiry s
  | auxPowerLost _ => exact frame_execAuxPowerLost _ s
  | senseChanged => exact frame_run fun hC => frame_ite (frame_pwrEvent (needs rfl) _ _ hC) hC
  | slot12vRise => exact frame_run fun hC => frame_withPin (needs rfl) _ hC
  | slotPowerLost => exact frame_run fun hC => frame_powerDown (needs rfl) _ hC
  | supplyLimiterTrip _ => exact frame_execSupplyLimiterTrip _ s
  | outwardSupplyEnableWrite _ => exact frame_execOutwardSupplyEnableWrite _ s
  | daughterboardFitted => exact frame_run fun hC => frame_checkSupplies (needs rfl) _ (frame_setBit (needs rfl) _ _ _ _ hC)
  | hubSensorSample _ => exact frame_execHubSensorSample _ s
  | moduleTempSample _ _ => exact frame_execModuleTempSample _ _ s
  | avsPoll _ => exact frame_execAvsPoll _ s
  | warmingTick _ => exact frame_execWarmingTick _ s
  | airflowUpdate => exact frame_run fun hC => frame_ite (frame_setF (needs rfl) _ _ _ _ _ hC) hC
  | keepStore _ => exact frame_execKeepStore _ s
  | restage _ => exact frame_execRestage _ s
  | clearRetire _ => exact frame_execClearRetire _ s
  | abandon _ => exact frame_execAbandon _ s
  | ksBadCommand _ => exact frame_execKsBadCommand _ s
  | internalStore =>
    exact frame_run fun hC => frame_ite hC (frame_withKeep (needs rfl) _ (frame_writeBank (needs rfl) _ _ hC))
  | storeCommit _ => exact frame_execStoreCommit _ s
  | ksStagingAccess _ => exact frame_execKsStagingAccess _ s
  | buttonPress _ => exact frame_execButtonPress _ s
  | jumperFitted _ => exact frame_execJumperFitted _ s
  | presenceTimeout => exact frame_execPresenceTimeout s
  | warmRecheck _ => exact frame_execWarmRecheck _ s
  | fuseProgram _ => exact frame_execFuseProgram _ s
  | fuseProgramDone _ => exact frame_execFuseProgramDone _ s
  | sealBreak => exact frame_execSealBreak s
  | powerGood => exact frame_run fun hC => frame_ite hC (frame_powerUp (needs rfl) _ hC)
  | regulatorRetry =>
    exact frame_run fun hC => frame_ite hC (frame_bootVoltage (needs rfl) _ (frame_event (needs rfl) _ _ _ _ hC))
  | fuseRead => exact frame_run fun hC => frame_ite hC (frame_enterStage (needs rfl) _ _ (frame_withPin (needs rfl) _ hC))
  | keepLoad _ => exact frame_execKeepLoad _ s
  | memDelays _ => exact frame_execMemDelays _ s
  | memReady => exact frame_execMemReady s
  | layoutDefault => exact frame_execLayoutDefault s
  | hampersReady => exact frame_execHampersReady s
  | conventionalReset => exact frame_execConventionalReset s
  | hotReset => exact frame_execHotReset s
  | unclaimedMemoryRequest _ _ _ => exact frame_run fun hC => frame_ite hC (frame_unclaimed (needs rfl) _ _ _ _ hC)
  | poisonedWriteReceived _ _ => exact frame_run fun hC => frame_ite hC (frame_aerLog (needs rfl) _ _ _ _ hC)
  | pcieLinkError _ => exact frame_run fun hC => frame_ite hC (frame_aerLog (needs rfl) _ _ _ _ hC)
  | tlpErrorReceived _ _ _ => exact frame_run fun hC => frame_ite hC (frame_aerLog (needs rfl) _ _ _ _ hC)
  | vfEnableWrite _ _ _ => exact frame_execVfEnableWrite _ _ _ s
  | busMasterEnableWrite _ _ => exact frame_execBusMasterEnableWrite _ _ s
  | msixMessageRelease _ => exact frame_run fun hC => frame_ite (frame_msixRelease (needs rfl) _ _ hC) hC
  | vfResourceWrite _ _ _ _ => exact frame_execVfResourceWrite _ _ _ _ s
  | freezePin _ => exact frame_execFreezePin _ s
  | freezeRegister _ =>
    exact frame_run fun hC => frame_hostWrite (needs rfl) _ _ _ _ hC (fun _ h => frame_frzCtl (needs rfl) _ _ h)
  | freezeLinkPulse _ => exact frame_run fun hC => frame_ite (frame_freezeRequest (needs rfl) _ _ hC) hC
  | freezeMatchTime => exact frame_execFreezeMatchTime s
  | freezeSettled => exact frame_execFreezeSettled s
  | thaw _ => exact frame_run fun hC => frame_hostWrite (needs rfl) _ _ _ _ hC (fun _ h => frame_frzCtl (needs rfl) _ _ h)
  | thawComplete _ => exact frame_execThawComplete _ s
  | readoutStart _ =>
    exact frame_run fun hC => frame_hostWrite (needs rfl) _ _ _ _ hC (fun _ h => frame_roCtl (needs rfl) _ _ h)
  | readoutDone _ => exact frame_execReadoutDone _ s
  | readoutUnlockRequest _ =>
    exact frame_run fun hC => frame_hostWrite (needs rfl) _ _ _ _ hC (fun _ h => frame_roUnlock (needs rfl) _ _ h)
  | jtagFreeze =>
    exact frame_run fun hC => frame_ite (frame_freezeRequest (needs rfl) _ _ (frame_jtagIr (needs rfl) _ _ hC)) hC
  | jtagThaw => exact frame_run fun hC => frame_ite (frame_thawRequest (needs rfl) _ (frame_jtagIr (needs rfl) _ _ hC)) hC
  | jtagRoAccess _ => exact frame_execJtagRoAccess _ s
  | jtagExtest _ _ => exact frame_execJtagExtest _ _ s
  | jtagSamplePreload _ _ => exact frame_execJtagSamplePreload _ _ s
  | jtagIdcode => exact frame_run fun hC => frame_ite (frame_emit (needs rfl) _ _ (frame_jtagIr (needs rfl) _ _ hC)) hC
  | jtagBypass _ _ =>
    exact frame_run fun hC => frame_ite (frame_jtagShift (needs rfl) _ _ _ (frame_jtagIr (needs rfl) _ _ hC)) hC
  | tapReset => exact frame_run fun hC => frame_jtagIr (needs rfl) _ _ hC
  | boardHubPoll => exact frame_execBoardHubPoll s
  | boardSensorPoll _ => exact frame_execBoardSensorPoll _ s
  | identifyTick => exact frame_run fun hC => frame_ite (frame_withBoard (needs rfl) _ hC) hC
  | smbusReadByte _ => exact frame_execSmbusReadByte _ s
  | smbusReadWord _ => exact frame_execSmbusReadWord _ s
  | smbusBlockRead _ => exact frame_execSmbusBlockRead _ s
  | smbusWriteByte _ _ _ => exact frame_run fun hC => frame_smbusWrite (needs rfl) _ _ _ _ hC
  | clearPeak _ _ => exact frame_run fun hC => frame_smbusWrite (needs rfl) _ _ _ _ hC
  | smbusTimeout => exact frame_run fun hC => hC
  | smbusUnsupportedTransaction _ => exact frame_run fun hC => frame_emit (needs rfl) _ _ hC
  | aux3v3Lost => exact frame_run fun hC => frame_withBoard (needs rfl) _ hC
  | aux3v3Good => exact frame_run fun hC => frame_ite hC (frame_withBoard (needs rfl) _ hC)
  | daughterboardRemoved => exact frame_execDaughterboardRemoved s
  | operationRetire _ _ _ _ => exact frame_execOperationRetire _ _ _ _ s
  | stageRows _ _ _ => exact frame_run fun hC => frame_engine (needs rfl) _ _ _ _ _ _ _ hC (frames_stageRowsWork (needs rfl))
  | stageWeights _ _ _ =>
    exact frame_run fun hC => frame_engine (needs rfl) _ _ _ _ _ _ _ hC (frames_stageWeightsWork (needs rfl))
  | stageConv _ _ _ => exact frame_run fun hC => frame_engine (needs rfl) _ _ _ _ _ _ _ hC (frames_stageConvWork (needs rfl))
  | whiskMap _ _ _ => exact frame_run fun hC => frame_engine (needs rfl) _ _ _ _ _ _ _ hC (frames_mapWork (needs rfl))
  | whiskReduce _ _ _ => exact frame_run fun hC => frame_engine (needs rfl) _ _ _ _ _ _ _ hC (frames_reduceWork (needs rfl))
  | whiskNorm _ _ _ => exact frame_run fun hC => frame_engine (needs rfl) _ _ _ _ _ _ _ hC (frames_normWork (needs rfl))
  | dwconv _ _ _ => exact frame_run fun hC => frame_engine (needs rfl) _ _ _ _ _ _ _ hC (frames_dwWork (needs rfl))

end Sys2Proof.Proofs
end

section
/-! Host accesses of registers: the card that a write or a read leaves, by what stands in its way (R4 to R7, R17, R18). -/

namespace Sys2Proof.Proofs

open Sys2Proof Sys2Proof.Machine Sys2Proof.Laws

theorem becomes_of_eq {i : Instr} {c d e : Card} (h : Becomes i c d) (hde : d = e) : Becomes i c e := hde ▸ h

/-! ### The effect of each command -/

theorem becomes_mmioWrite (fn : Fn) (off size value : Nat) (c : Card) :
    Becomes (.registerWrite (.mmio fn off size value)) c (c.mmioWrite fn off size value) := fun _ => rfl

theorem becomes_bar4Write (fn : Fn) (off size value : Nat) (c : Card) :
    Becomes (.registerWrite (.bar4 fn off size value)) c (c.bar4Write fn off) := fun _ => rfl

theorem becomes_configWrite (fn : Fn) (f : CfgField) (value : Nat) (c : Card) :
    Becomes (.registerWrite (.config fn f value)) c (c.configWrite fn f value) := fun _ => rfl

theorem becomes_read32 (fn : Fn) (off size : Nat) (c : Card) :
    Becomes (.rcFieldRead fn (.mmio off) size) c (c.read32 fn off size) := fun _ => rfl

theorem becomes_bar4Read (fn : Fn) (off size : Nat) (c : Card) :
    Becomes (.rcFieldRead fn (.bar4 off) size) c (c.bar4Read fn off size) := fun _ => rfl

theorem becomes_pairLoRead (fn : Fn) (off : Nat) (c : Card) : Becomes (.pairLoRead fn off) c (c.read32 fn off 4) :=
  fun _ => rfl

/-! ### Writes -/

/-- While frozen, a write through a hamper function is dropped, whatever it would do (R18, R436). -/
theorem hostWrite_of_frozen {c : Card} {fn : Fn} {h off : Nat} {k : Card → Card} (hfrozen : c.frozen = true)
    (hclaims : c.claims fn = true) (hfn : fn.hamper = some h) :
    c.hostWrite fn off k = c.bump (mg (0x5020 + 4 * h)) 1 := by
  cases fn with
  | pf0 => cases hfn
  | pf g => cases hfn; simp [Card.hostWrite, hclaims, hfrozen]
  | vf g v => cases hfn; simp [Card.hostWrite, hclaims, hfrozen]

/-- A BAR0 write is one host write unless it is an aligned 64-bit one (R6). -/
theorem mmioWrite_eq_hostWrite {size off : Nat} (h : ¬(size = 8 ∧ off % 8 = 0)) (c : Card) (fn : Fn) (value : Nat) :
    ∃ k, c.mmioWrite fn off size value = c.hostWrite fn off k := by
  by_cases h4 : size = 4 ∧ off % 4 = 0
  · exact ⟨_, if_pos h4⟩
  · exact ⟨_, (if_neg h4).trans (if_neg h)⟩

theorem bar4Write_eq_hostWrite {fn : Fn} (h : fn ≠ .pf0) (c : Card) (off : Nat) :
    c.bar4Write fn off = c.hostWrite fn off id := by
  cases fn with
  | pf0 => exact absurd rfl h
  | pf _ => rfl
  | vf _ _ => rfl

/-- Each command that `hostWriteOf` names is a host write at that function and offset, of some effect of its own. -/
theorem becomes_hostWrite {i : Instr} {fn : Fn} {off : Nat} (h : hostWriteOf i = some (fn, off)) (c : Card) :
    ∃ k, Becomes i c (c.hostWrite fn off k) := by
  cases i
  case registerWrite w =>
    cases w with
    | mmio fn' off' size value =>
      obtain ⟨hsize, he⟩ := Option.ite_none_left_eq_some.mp h
      cases he
      obtain ⟨k, hk⟩ := mmioWrite_eq_hostWrite hsize c fn value
      exact ⟨k, becomes_of_eq (becomes_mmioWrite fn off size value c) hk⟩
    | bar4 fn' off' size value =>
      obtain ⟨hfn, he⟩ := Option.ite_none_left_eq_some.mp h
      cases he
      exact ⟨id, becomes_of_eq (becomes_bar4Write fn off size value c) (bar4Write_eq_hostWrite hfn c off)⟩
    | config => cases h
  case vfResourceWrite g v kind x =>
    cases h
    cases kind <;> exact ⟨_, fun _ => rfl⟩
  all_goals cases h
  all_goals exact ⟨_, fun _ => rfl⟩

/-- A full aligned write that reaches a register of no pair writes the register alone (R4). -/
theorem mmioWrite_of_reaches {c : Card} {fn : Fn} {off k : Nat} {v : Word} (hreach : c.reaches fn off = true)
    (hoff : off % 4 = 0) (hopen : c.pageBlocked fn off = false) (hreg : c.regAt fn off = some k)
    (hlo : keyIsLo k = false) (hhi : keyIsHi k = false) : c.mmioWrite fn off 4 v.toNat = c.writeReg k v := by
  simp [Card.mmioWrite, hoff, hostWrite_of_reaches hreach, hopen, hreg, Card.write32, hlo, hhi]

theorem configWrite_memorySpaceEnable {c : Card} {h : Fin 4} (hthere : c.fnThere (.pf h) = true) (v : Nat) :
    c.configWrite (.pf h) .memorySpaceEnable v = c.setCfg (h.val + 1) { c.cfgOf (h.val + 1) with mse := v % 2 == 1 } := by
  have hpf : h.val + 1 < 8 := by omega
  simp [Card.configWrite, hthere, Fn.num, hpf]

/-! ### Pairs (R7, R17) -/

theorem tabGet_eq_find? {α : Type} (d : α) (k : Nat) (t : Tab α) :
    tabGet d t k = ((t.find? (fun e => e.1 == k)).map Prod.snd).getD d := by
  induction t with
  | nil => rfl
  | cons e t ih => by_cases hk : e.1 = k <;> simp [tabGet, hk, ih]

theorem loFor_eq_tabGet (c : Card) (k : Nat) : c.loFor k = tabGet (c.peek k) c.holds k := by
  rw [Card.loFor, tabGet_eq_find?]
  cases c.holds.find? (fun e => e.1 == k) <;> rfl

@[simp] theorem loFor_holdLo (c : Card) (k : Nat) (v : Word) : (c.holdLo k v).loFor k = v := by
  rw [loFor_eq_tabGet]
  exact tabGet_ins_self _ _ _ _

theorem loFor_of_find?_eq_none {c : Card} {k : Nat} (h : c.holds.find? (fun e => e.1 == k) = none) :
    c.loFor k = c.peek k := by
  simp [Card.loFor, h]

@[simp] theorem reg_holdLo (c : Card) (k j : Nat) (v : Word) : (c.holdLo k v).reg j = c.reg j := rfl

theorem becomes_pairLoWrite {c : Card} {fn : Fn} {off k : Nat} (hreach : c.reaches fn off = true)
    (hopen : c.pageBlocked fn off = false) (htarget : c.target fn off = some k) (hlo : keyIsLo k = true) (v : Word) :
    Becomes (.pairLoWrite fn off v) c (c.holdLo k v) := by
  intro q
  change execPairLoWrite fn off v _ = _
  simp [execPairLoWrite, State.run, hostWrite_of_reaches hreach, hopen, htarget, hlo]

theorem becomes_pairHiWrite {c : Card} {fn : Fn} {off k : Nat} (hreach : c.reaches fn off = true)
    (hopen : c.pageBlocked fn off = false) (hreg : c.regAt fn off = some k) (hhi : keyIsHi k = true)
    (hown : hiIsOwn k = false) (v : Word) : Becomes (.pairHiWrite fn off v) c (c.applyHi k v) := by
  intro q
  change execPairHiWrite fn off v _ = _
  simp [execPairHiWrite, State.run, hostWrite_of_reaches hreach, hopen, hreg, hhi, hown]

/-! ### Reads -/

theorem read32_of_frozen {c : Card} {fn : Fn} {h : Nat} (hfrozen : c.frozen = true) (hclaims : c.claims fn = true)
    (hfn : fn.hamper = some h) (off size : Nat) :
    c.read32 fn off size = c.emit (.readData fn.num off (List.replicate size 0xFF)) := by
  simp [Card.read32, hclaims, hfrozen, hfn]

theorem bar4Read_of_frozen {c : Card} {fn : Fn} {h : Nat} (hfrozen : c.frozen = true) (hclaims : c.claims fn = true)
    (hfn : fn.hamper = some h) (off size : Nat) :
    c.bar4Read fn off size = c.emit (.readData fn.num off (List.replicate size 0xFF)) := by
  cases fn with
  | pf0 => cases hfn
  | pf g => simp [Card.bar4Read, hclaims, hfrozen]
  | vf g v => simp [Card.bar4Read, hclaims, hfrozen]

/-- The low `n` bytes of a number do not see what stands above them. -/
theorem leBytes_add_mul_pow (n v y : Nat) : leBytes n (v + 256 ^ n * y) = leBytes n v := by
  induction n generalizing v with
  | zero => rfl
  | succ n ih =>
    have hsplit : v + 256 ^ (n + 1) * y = v + 256 * (256 ^ n * y) := by rw [Nat.pow_succ, Nat.mul_comm _ 256, Nat.mul_assoc]
    have hbyte : BitVec.ofNat 8 (v + 256 * (256 ^ n * y)) = BitVec.ofNat 8 v := by
      apply BitVec.eq_of_toNat_eq
      simp [Nat.add_mul_mod_self_left]
    have hrest : (v + 256 * (256 ^ n * y)) / 256 = v / 256 + 256 ^ n * y := Nat.add_mul_div_left _ _ (by decide)
    rw [hsplit, leBytes, leBytes, hbyte, hrest, ih]

/-- A full aligned 32-bit read of a readable register returns its value and has the register's read effects (R6). -/
theorem read32_of_readable {c : Card} {fn : Fn} {off k : Nat} (hread : c.readable fn off = true) (hoff : off % 4 = 0)
    (htarget : c.target fn off = some k) :
    c.read32 fn off 4 = (c.emit (.readData fn.num off (leBytes 4 (c.hostValue k).toNat))).fullRead k := by
  simp only [Card.readable, Bool.and_eq_true, Bool.or_eq_true, Bool.not_eq_true', bne_iff_ne] at hread
  obtain ⟨⟨⟨hclaims, hfrozen⟩, hdark⟩, hboot⟩ := hread
  have haligned : off / 4 * 4 = off := Nat.div_mul_cancel (Nat.dvd_of_mod_eq_zero hoff)
  have hclosed : (fn == .pf0 && !c.bootOpen off) = false := by
    rcases hboot with hne | hopen
    · simp [hne]
    · simp [hopen]
  have hvalue : ∀ y, leBytes 4 ((c.hostValue k).toNat + 2 ^ 32 * y) = leBytes 4 (c.hostValue k).toNat :=
    leBytes_add_mul_pow 4 _
  simp only [Card.read32, hclaims, hfrozen, hdark, haligned, htarget, hclosed, hoff, Nat.sub_self, Nat.pow_zero, Nat.div_one,
    hvalue]
  simp

theorem fullRead_of_not_lo {k : Nat} (h : keyIsLo k = false) (c : Card) : c.fullRead k = c.clearRc k := by
  simp [Card.fullRead, h]

theorem fullRead_of_lo {k : Nat} (h : keyIsLo k = true) (c : Card) :
    c.fullRead k = ({ c with caps := tabIns c.caps k (c.peek (k + 4)) } : Card).clearRc k := by
  simp [Card.fullRead, h]

/-! ### Accesses while frozen (R18, R436) -/

theorem becomes_frozenBarAccess {c : Card} {h : Fin 4} {acc : BarAccess} (hfrozen : c.frozen = true)
    (hfn : acc.fn.hamper = some h.val) (hclaims : c.claims acc.fn = true) :
    Becomes (.frozenBarAccess h acc) c (if acc.write then c.bump (mg (0x5020 + 4 * h.val)) 1
      else c.emit (.readData acc.fn.num 0 (List.replicate acc.len 0xFF))) := by
  intro q
  change execFrozenBarAccess h acc _ = _
  simp [execFrozenBarAccess, State.run, hfrozen, hfn, hclaims]

end Sys2Proof.Proofs
end

section
/-! The obligations of the scope: what a step and a run keep, what a command leaves as it was, and what a host access of a
register does. -/

namespace Sys2Proof.Proofs

open Sys2Proof Sys2Proof.Machine Sys2Proof.Laws

theorem canonical_of_kept {fz : Tab Word} {tz : Nat} {c : Card} (h : Kept fz tz c) : c.Canonical :=
  ⟨h.mem, h.sram, h.regs, h.sems⟩

/-- A canonical card keeps its own blown bits and a card time of 0 at least. -/
theorem kept_of_canonical {c : Card} (h : c.Canonical) : Kept c.blown 0 c := by
  obtain ⟨hmem, hsram, hregs, hsems⟩ := h
  exact { mem := hmem, sram := hsram, regs := hregs, sems := hsems, fuses := fun w => by simp, time := Nat.zero_le _ }

theorem card_tick (s : State) : (State.tick s).card = s.card.tick.tickWork := by
  rw [State.tick]

theorem kept_idle {fz : Tab Word} {tz : Nat} {s : State} (h : Kept fz tz s.card) : Kept fz tz (State.tick s).card := by
  rw [card_tick]
  exact kept_tickWork _ (kept_tick _ h)

/-- A step keeps the canonical forms: of an idle step they are kept by the tick and the work it does, of any other by the
command in front. -/
theorem canonical_step {s t : State} (hs : s.Canonical) (h : step s = .next t) : t.Canonical := by
  have hk : Kept s.card.blown 0 s.card := kept_of_canonical hs
  unfold step at h
  split at h
  · cases h
    exact canonical_of_kept (kept_idle hk)
  case _ i rest _ => exact canonical_of_kept (kept_exec i (s := { s with pending := rest }) hk t h)

theorem canonical_reset : State.reset.Canonical := ⟨rfl, rfl, rfl, rfl⟩

/-- Every command's effect is a function of the card alone, so it answers a next state and leaves the queue. -/
theorem exec_answers (i : Instr) (s : State) : ∃ c : Card, exec i s = .next { card := c, pending := s.pending } := by
  unfold exec
  cases i <;> exact ⟨_, rfl⟩

/-- Settles O6, from what the tick and every command keep. -/
theorem stepsKeepCanonical : Obligations.StepsKeepCanonical := fun _ _ hs h => canonical_step hs h

/-- Settles O7, by induction on the run: the reset state is canonical, a command handed to the card leaves the card, and a
step keeps the form. -/
theorem reachableCanonical : Obligations.ReachableCanonical := by
  intro s hs
  induction hs with
  | reset => exact canonical_reset
  | give i _ ih => exact ih
  | step _ h ih => exact canonical_step ih h

/-- Settles O10, by the frame of every command. -/
theorem commandsTouchOnlyTheirFootprint : Obligations.CommandsTouchOnlyTheirFootprint := by
  intro i c d h part hpart
  have hheld : Held (footprint i) c d := frame_exec i { card := c, pending := [] } _ (h [])
  exact (hheld part).resolve_left hpart

/-- Settles O1: the step takes the front command off the queue and runs it. -/
theorem stepRunsTheFrontCommand : Obligations.StepRunsTheFrontCommand := fun _ _ => rfl

/-- Settles O3: every arm is an effect on the card. -/
theorem commandsAnswerNext : Obligations.CommandsAnswerNext := exec_answers

/-- Settles O15: the write of a _LO is held, without a change of a register, and stands until the write of the _HI. -/
theorem pairWritesHoldTheLowerHalf : Obligations.PairWritesHoldTheLowerHalf := by
  intro c fn off k v hreach hopen
  refine ⟨fun htarget hlo => ?_, fun hreg hhi hown => ?_⟩
  · refine ⟨c.holdLo k v, becomes_pairLoWrite hreach hopen htarget hlo v, fun j => rfl, loFor_holdLo c k v, fun w => ?_⟩
    exact ⟨(c.holdLo k v).holdLo k w, becomes_pairLoWrite (c := c.holdLo k v) hreach hopen htarget hlo w, fun j => rfl,
      loFor_holdLo _ k w⟩
  · exact ⟨c.applyHi k v, becomes_pairHiWrite hreach hopen hreg hhi hown v, rfl, loFor_of_find?_eq_none⟩

/-- Settles O11: each host write is one that the freeze drops, and each read one that it answers. -/
theorem frozenHamperAccesses : Obligations.FrozenHamperAccesses := by
  intro c fn h hfrozen hclaims hfn
  refine ⟨fun i off hi => ?_, fun off size => ⟨?_, ?_⟩⟩
  · obtain ⟨k, hk⟩ := becomes_hostWrite hi c
    exact becomes_of_eq hk (hostWrite_of_frozen hfrozen hclaims hfn)
  · exact becomes_of_eq (becomes_read32 fn off size c) (read32_of_frozen hfrozen hclaims hfn off size)
  · exact becomes_of_eq (becomes_bar4Read fn off size c) (bar4Read_of_frozen hfrozen hclaims hfn off size)

/-- Settles O31, row by row. -/
theorem registerRowsComplete : Obligations.RegisterRowsComplete := by
  refine ⟨?registerWrite, ?configWrite, ?rcFieldRead, ?pairLoRead, ?pairLoWrite, ?pairHiWrite, ?frozenWrite, ?frozenRead⟩
  case registerWrite =>
    intro c fn off k v hreach hoff hopen hreg hlo hhi
    exact becomes_of_eq (becomes_mmioWrite fn off 4 v.toNat c) (mmioWrite_of_reaches hreach hoff hopen hreg hlo hhi)
  case configWrite =>
    intro c h v hthere
    exact becomes_of_eq (becomes_configWrite (.pf h) .memorySpaceEnable v c) (configWrite_memorySpaceEnable hthere v)
  case rcFieldRead =>
    intro c fn off k hread hoff htarget hlo
    exact becomes_of_eq (becomes_read32 fn off 4 c)
      ((read32_of_readable hread hoff htarget).trans (fullRead_of_not_lo hlo _))
  case pairLoRead =>
    intro c fn off k hread hoff htarget hlo
    exact becomes_of_eq (becomes_pairLoRead fn off c) ((read32_of_readable hread hoff htarget).trans (fullRead_of_lo hlo _))
  case pairLoWrite =>
    intro c fn off k v hreach hopen htarget hlo
    exact becomes_pairLoWrite hreach hopen htarget hlo v
  case pairHiWrite =>
    intro c fn off k v hreach hopen hreg hhi hown
    exact becomes_pairHiWrite hreach hopen hreg hhi hown v
  case frozenWrite =>
    intro c h acc hfrozen hfn hclaims hwrite
    exact becomes_of_eq (becomes_frozenBarAccess hfrozen hfn hclaims) (if_pos hwrite)
  case frozenRead =>
    intro c h acc hfrozen hfn hclaims hread
    exact becomes_of_eq (becomes_frozenBarAccess hfrozen hfn hclaims) (if_neg (by simp [hread]))

end Sys2Proof.Proofs
end

section
/-! Card time through every command (R31): what moves it moves it on, and everything else leaves it. -/

namespace Sys2Proof.Proofs

open Sys2Proof Sys2Proof.Machine Sys2Proof.Laws

/-- Every part but the one that holds card time. -/
def offTime : List Part :=
  [.regs, .config, .functions, .pace, .layouts, .rings, .sems, .hostReads, .contexts, .tlb, .pools, .mem, .sram, .dram,
    .memctl, .power, .freeze, .faults, .sched, .epochs, .records, .streams, .keys, .tracks, .links, .colanders, .raster,
    .griddle, .keep, .fuses, .tap, .board, .fresh, .out]

/-- Card time has come to `t` at least. -/
def NotBefore (t : Nat) (c : Card) : Prop := t ≤ c.clk.now

variable {t : Nat} {c d : Card}

/-- What leaves the part that holds card time leaves card time. -/
theorem notBefore_of_held {fr : List Part} (hfr : fr.contains .time = false) (h : NotBefore t c) (hd : Held fr c d) :
    NotBefore t d := by
  have htime : Part.time ∉ fr := by simpa using hfr
  have hclk : c.clk = d.clk := congrArg Prod.fst ((hd .time).resolve_left htime)
  rw [NotBefore, ← hclk]
  exact h

/-- The operations of a frame without card time leave card time. -/
theorem notBefore_then (h : NotBefore t c) (hd : Held offTime c d) : NotBefore t d := notBefore_of_held rfl h hd

theorem notBefore_ite {p : Prop} [Decidable p] (hc : NotBefore t c) (hd : NotBefore t d) :
    NotBefore t (if p then c else d) := by
  split <;> assumption

theorem notBefore_foldl {α : Type} {f : Card → α → Card} (hf : ∀ c x, NotBefore t c → NotBefore t (f c x)) (l : List α)
    (h : NotBefore t c) : NotBefore t (l.foldl f c) := by
  induction l generalizing c with
  | nil => exact h
  | cons x l ih => exact ih (hf c x h)

theorem notBefore_withClk {k : Clock} (hk : c.clk.now ≤ k.now) (h : NotBefore t c) : NotBefore t { c with clk := k } :=
  Nat.le_trans h hk

theorem notBefore_withTimerFrac (v : Tab Nat) (h : NotBefore t c) : NotBefore t { c with timerFrac := v } := h

/-! ### The operations that touch the clock -/

theorem notBefore_runTimer (k unit dt : Nat) (h : NotBefore t c) : NotBefore t (c.runTimer k unit dt) :=
  notBefore_withTimerFrac _ (notBefore_then h (frame_bump (needs rfl) _ _ _ held_refl))

/-- Time that passes is added to card time; the counters that it runs leave the clock. -/
theorem notBefore_advance (dt : Nat) (h : NotBefore t c) : NotBefore t (c.advance dt) := by
  unfold Card.advance
  extract_lets _ c₁ c₂
  have h₁ : NotBefore t c₁ := notBefore_withClk (Nat.le_add_right _ _) h
  have h₂ : NotBefore t c₂ :=
    notBefore_foldl (fun _ _ h => notBefore_ite h (notBefore_then h (frame_setPace (needs rfl) _ _ _ held_refl))) _ h₁
  exact notBefore_ite h₁ (notBefore_foldl (fun _ _ h => notBefore_runTimer _ _ _ h) _ h₂)

theorem notBefore_advanceTo (n : Nat) (h : NotBefore t c) : NotBefore t (c.advanceTo n) :=
  notBefore_ite (notBefore_advance _ h) h

theorem notBefore_tick (h : NotBefore t c) : NotBefore t c.tick := notBefore_ite (notBefore_advance _ h) h

/-- An exchange that finds the card behind steps card time forward; one that finds it ahead only slows it (R33). -/
theorem notBefore_discipline (offset : Int) (ms : Nat) (h : NotBefore t c) : NotBefore t (c.discipline offset ms) := by
  unfold Card.discipline
  extract_lets _ c₁ _ c₂ _ c₃
  have h₁ : NotBefore t c₁ := notBefore_then h
    (frame_setSync (needs rfl) _ _ (frame_setN (needs rfl) _ _ _ held_refl))
  have h₂ : NotBefore t c₂ := notBefore_withClk le_rfl h₁
  have h₃ : NotBefore t c₃ := notBefore_withClk (Nat.le_add_right _ _) h₂
  have hset : ∀ b, NotBefore t (c₂.setBit (mg 0x104C) 2 b) := fun b =>
    notBefore_then h₂ (frame_setBit (needs rfl) _ _ _ _ held_refl)
  refine notBefore_ite ?_ (notBefore_ite ?_ ?_)
  · exact notBefore_then h₃ (frame_setBit (needs rfl) _ _ _ _ (frame_bumpF (needs rfl) _ _ _ _ _ held_refl))
  · exact notBefore_withClk le_rfl (hset true)
  · exact notBefore_withClk le_rfl (hset false)

theorem notBefore_missedInterval (h : NotBefore t c) : NotBefore t c.missedInterval := by
  unfold Card.missedInterval
  extract_lets _ _ c₁
  have h₁ : NotBefore t c₁ := notBefore_withClk le_rfl h
  exact notBefore_ite (notBefore_then h₁ (frame_setSync (needs rfl) _ _ held_refl)) h₁

/-- The core's loss of power leaves card time (R465). -/
theorem notBefore_coreDown (h : NotBefore t c) : NotBefore t c.coreDown := by
  unfold Card.coreDown
  extract_lets _ _ c₁ c₂ c₃ c₄
  have h₁ : NotBefore t c₁ := notBefore_ite (notBefore_then h (frame_setF (needs rfl) _ _ _ _ _
    (frame_setBit (needs rfl) _ _ _ _ (frame_setBit (needs rfl) _ _ _ _ held_refl)))) h
  have h₂ : NotBefore t c₂ := h₁
  have h₃ : NotBefore t c₃ :=
    notBefore_foldl (fun _ _ h => notBefore_then h (frame_setBit (needs rfl) _ _ _ _ held_refl)) _ h₂
  exact notBefore_then h₃ (frame_setF (needs rfl) _ _ _ _ _ (frame_setF (needs rfl) _ _ _ _ _
    (frame_setF (needs rfl) _ _ _ _ _ (frame_setF (needs rfl) _ _ _ _ _ held_refl))))

theorem notBefore_trip (sensor : Nat) (x : Int) (h : NotBefore t c) : NotBefore t (c.trip sensor x) := by
  unfold Card.trip
  extract_lets _ c₁
  have h₁ : NotBefore t c₁ := notBefore_then h (frame_recordsChanged (needs rfl) _ _ _ held_refl)
  exact notBefore_then (notBefore_coreDown h₁) (frame_pinHot (needs rfl) _ (frame_setF (needs rfl) _ _ _ _ _ held_refl))

/-! ### The commands that touch the clock -/

section
variable {s : State} (hs : NotBefore t s.card)
include hs

theorem notBefore_execPtmIntervalExpiry : Leaves (NotBefore t) (execPtmIntervalExpiry s) := by
  refine leaves_run (notBefore_ite hs ?_)
  extract_lets c₁
  have h₁ : NotBefore t c₁ := notBefore_ite (notBefore_missedInterval hs) hs
  exact notBefore_withClk le_rfl (notBefore_then h₁ (frame_emit (needs rfl) _ _ held_refl))

theorem notBefore_execPtmExchangeDone (offset : Int) : Leaves (NotBefore t) (execPtmExchangeDone offset s) :=
  leaves_run (notBefore_ite hs (notBefore_discipline _ _ hs))

theorem notBefore_execPtmDisable : Leaves (NotBefore t) (execPtmDisable s) :=
  leaves_run (notBefore_ite hs (notBefore_withClk le_rfl (notBefore_then hs
    (frame_setSync (needs rfl) _ _ (frame_setCfg (needs rfl) _ _ _ held_refl)))))

theorem notBefore_execPaceWindowEnd : Leaves (NotBefore t) (execPaceWindowEnd s) := by
  refine leaves_run (notBefore_ite hs ?_)
  extract_lets _ c₁ _ _ _ c₂ c₃ c₄ c₅
  have h₁ : NotBefore t c₁ := notBefore_advanceTo _ hs
  have hjudged : Held offTime c₁ c₂ := frame_foldl (fun _ _ h => frame_endWindow (needs rfl) _ _ _ h) _ held_refl
  have hraised : Held offTime c₁ c₃ := frame_ite (frame_event (needs rfl) _ _ _ _ hjudged) hjudged
  have hstepped : Held offTime c₁ c₄ := frame_ite held_refl (frame_voltageStep (needs rfl) _ _ hraised)
  have hopened : Held offTime c₁ c₅ := frame_foldl (fun _ _ h => frame_setPace (needs rfl) _ _ _ h) _ hstepped
  exact notBefore_then h₁ (frame_notePoint (needs rfl) _ (frame_openWindow (needs rfl) _ _ hopened))

theorem notBefore_execAvsPoll (p : AvsPoll) : Leaves (NotBefore t) (execAvsPoll p s) := by
  refine leaves_run (notBefore_ite hs ?_)
  extract_lets c₁ c₂ c₃
  have h₂ : NotBefore t c₂ :=
    notBefore_then hs (frame_setSensor (needs rfl) _ _ _ (frame_setN (needs rfl) _ _ _ held_refl))
  have h₃ : NotBefore t c₃ := notBefore_ite (notBefore_then h₂ (frame_event (needs rfl) _ _ _ _ held_refl)) h₂
  exact notBefore_ite (notBefore_trip _ _ h₃) h₃

theorem notBefore_execModuleTempSample (ch : Fin 8) (x : Option Int) :
    Leaves (NotBefore t) (execModuleTempSample ch x s) := by
  refine leaves_run (notBefore_ite hs ?_)
  extract_lets _ c₁
  have h₁ : NotBefore t c₁ := notBefore_then hs (frame_setSensor (needs rfl) _ _ _ held_refl)
  split
  · exact h₁
  · extract_lets c₂ c₃
    have h₂ : NotBefore t c₂ := notBefore_ite (notBefore_then h₁ (frame_thmEvent (needs rfl) _ _ held_refl)) h₁
    have h₃ : NotBefore t c₃ := notBefore_then h₂ (frame_bandSample (needs rfl) _ _ _ held_refl)
    refine notBefore_ite (notBefore_ite ?_ (notBefore_trip _ _ h₂)) h₃
    exact notBefore_then h₃ (frame_withNoRetention (needs rfl) _ held_refl)

theorem notBefore_execAuxPowerLost (gone : Bool) : Leaves (NotBefore t) (execAuxPowerLost gone s) := by
  refine leaves_run (notBefore_ite hs ?_)
  extract_lets _ c₁ c₂
  have h₁ : NotBefore t c₁ := notBefore_then hs
    (frame_ite (frame_withPin (needs rfl) _ held_refl) (frame_withPin (needs rfl) _ held_refl))
  have h₂ : NotBefore t c₂ := notBefore_ite (notBefore_then h₁
    (frame_setBit (needs rfl) _ _ _ _ (frame_setBit (needs rfl) _ _ _ _ held_refl))) h₁
  have hwarned : NotBefore t (c₂.pwrEvent 1) := notBefore_then h₂ (frame_pwrEvent (needs rfl) _ _ held_refl)
  refine notBefore_ite h₁ ?_
  split
  · exact notBefore_ite h₂ (notBefore_then (notBefore_coreDown hwarned) (frame_setF (needs rfl) _ _ _ _ _ held_refl))
  · exact notBefore_ite h₂ (notBefore_then h₂ (frame_startQual (needs rfl) _ held_refl))
  · exact h₂

theorem notBefore_execIdleSelfRefresh (ch : Fin 8) : Leaves (NotBefore t) (execIdleSelfRefresh ch s) := by
  refine leaves_run ?_
  extract_lets _ c₁
  have h₁ : NotBefore t c₁ := notBefore_advanceTo _ hs
  refine notBefore_ite hs (notBefore_then h₁ ?_)
  exact frame_closeRows (needs rfl) _ _ (frame_loseSegments (needs rfl) _ _ (frame_setF (needs rfl) _ _ _ _ _ held_refl))

theorem notBefore_execWaitTimeout (h : Fin 4) (r : Fin 16) : Leaves (NotBefore t) (execWaitTimeout h r s) := by
  refine leaves_run ?_
  extract_lets
  split
  · split
    · refine notBefore_ite hs ?_
      extract_lets c₁ c₂
      have h₁ : NotBefore t c₁ := notBefore_advanceTo _ hs
      have hflagged : Held offTime c₁ c₂ :=
        frame_raise (needs rfl) _ _ _ (frame_setBit (needs rfl) _ _ _ _ held_refl)
      exact notBefore_then h₁ (frame_endOp (needs rfl) _ _ _ _ _ _ _ hflagged)
    · exact hs
  · exact hs

theorem notBefore_execRasterPacketTimeout (p vc : Fin 4) : Leaves (NotBefore t) (execRasterPacketTimeout p vc s) := by
  refine leaves_run ?_
  split
  · exact hs
  · exact notBefore_ite (notBefore_then (notBefore_advanceTo _ hs) (frame_latch (needs rfl) _ _ _ _ held_refl)) hs

theorem notBefore_execHeartbeat (h : Fin 4) (r : Fin 16) : Leaves (NotBefore t) (execHeartbeat h r s) := by
  refine leaves_run (notBefore_ite hs ?_)
  have h₁ : NotBefore t (s.card.advanceTo (s.card.recRing h.val r.val).beatAt) := notBefore_advanceTo _ hs
  exact notBefore_ite
    (notBefore_then h₁ (frame_originate (needs rfl) _ _ _ _ (frame_setRec (needs rfl) _ _ _ _ held_refl)))
    (notBefore_then h₁ (frame_bump (needs rfl) _ _ _ (frame_setRec (needs rfl) _ _ _ _ held_refl)))

theorem notBefore_execFreezeMatchTime : Leaves (NotBefore t) (execFreezeMatchTime s) := by
  refine leaves_run ?_
  extract_lets at_
  have h₁ : NotBefore t (s.card.advanceTo at_) := notBefore_advanceTo _ hs
  refine notBefore_ite hs (notBefore_then h₁ ?_)
  exact frame_freezeRequest (needs rfl) _ _ (frame_setBit (needs rfl) _ _ _ _ held_refl)

theorem notBefore_execStartAcknowledged : Leaves (NotBefore t) (execStartAcknowledged s) := by
  refine leaves_run ?_
  extract_lets c₁
  have h₁ : NotBefore t c₁ := notBefore_then hs (frame_settleB (needs rfl) _ held_refl)
  split
  · exact h₁
  · extract_lets c₂ _ c₃
    have h₂ : NotBefore t c₂ := notBefore_ite (notBefore_then h₁ (frame_sharesFor (needs rfl) _ _ held_refl)) h₁
    have h₃ : NotBefore t c₃ := notBefore_ite (notBefore_advanceTo _ h₂) h₂
    refine notBefore_ite (notBefore_then h₂ (frame_govFlags (needs rfl) _ held_refl)) (notBefore_then h₃ ?_)
    exact frame_govFlags (needs rfl) _ (frame_acknowledge (needs rfl) _ _ (frame_settleB (needs rfl) _ held_refl))

theorem notBefore_execAuxQualifyExpiry : Leaves (NotBefore t) (execAuxQualifyExpiry s) := by
  refine leaves_run ?_
  split
  · refine notBefore_ite hs ?_
    extract_lets c₁
    have h₁ : NotBefore t c₁ := notBefore_then (notBefore_advanceTo _ hs) (frame_endQual (needs rfl) _ held_refl)
    refine notBefore_then h₁ ?_
    exact frame_bootVoltage (needs rfl) _ (frame_setF (needs rfl) _ _ _ _ _ (frame_setF (needs rfl) _ _ _ _ _ held_refl))
  · exact hs

theorem notBefore_execHubSensorSample (ts : List (Option Int)) : Leaves (NotBefore t) (execHubSensorSample ts s) := by
  refine leaves_run (notBefore_ite hs ?_)
  extract_lets c₁
  have h₁ : NotBefore t c₁ := notBefore_then hs
    (frame_foldl (fun _ _ h => frame_setSensor (needs rfl) _ _ _ h) _ held_refl)
  split
  · exact notBefore_then (notBefore_trip _ _ h₁) (frame_draw (needs rfl) _ (frame_draw (needs rfl) _ held_refl))
  · extract_lets _ c₂ c₃
    have hshown : Held offTime c₁ c₂ := frame_setF (needs rfl) _ _ _ _ _ (frame_setF (needs rfl) _ _ _ _ _ held_refl)
    have h₃ : NotBefore t c₃ := notBefore_then h₁ (frame_ite (frame_setF (needs rfl) _ _ _ _ _ hshown) hshown)
    split
    · exact notBefore_ite (notBefore_trip _ _ h₃) (notBefore_then h₃ (frame_stageFor (needs rfl) _ _ held_refl))
    · exact h₃

theorem notBefore_execPresenceTimeout : Leaves (NotBefore t) (execPresenceTimeout s) := by
  refine leaves_run ?_
  split
  · exact hs
  · refine notBefore_ite hs ?_
    extract_lets c₁ c₂
    have h₁ : NotBefore t c₁ := notBefore_advanceTo _ hs
    have hlogged : Held offTime c₁ c₂ :=
      frame_ksEvent (needs rfl) _ _ (frame_presenceLog (needs rfl) _ _ _ _ _ (frame_endPresence (needs rfl) _ held_refl))
    refine notBefore_then h₁ (frame_ite (frame_fuseEnd (needs rfl) _ _ hlogged) ?_)
    exact frame_ite (frame_setBit (needs rfl) _ _ _ _ hlogged) (frame_ksEnd (needs rfl) _ _ hlogged)

/-- A hot reset starts the exchanges again and leaves card time (R521). -/
theorem notBefore_execHotReset : Leaves (NotBefore t) (execHotReset s) := by
  refine leaves_run (notBefore_ite hs ?_)
  extract_lets c₁ _ _ c₂ c₃ c₄
  have hfree : NotBefore t (s.card.setSync 0) := notBefore_then hs (frame_setSync (needs rfl) _ _ held_refl)
  have h₁ : NotBefore t c₁ := notBefore_ite (notBefore_withClk le_rfl hfree) hs
  have hasked : Held offTime c₁ c₂ := frame_foldl (fun _ _ h => frame_askPfReset (needs rfl) _ _ _ _ _ h) _ held_refl
  have hwoken : Held offTime c₁ c₃ := frame_foldl (fun _ _ h => frame_ite (frame_setFn (needs rfl) _ _ _ h) h) _ hasked
  have hcleared : Held offTime c₁ c₄ := frame_clearCfg (needs rfl) _ hwoken
  exact notBefore_then h₁
    (frame_foldl (fun _ _ h => frame_pfReadable (needs rfl) _ _ (frame_setFn (needs rfl) _ _ _ h)) _ hcleared)

theorem notBefore_execLinkDownTimeout (p : Fin 2) : Leaves (NotBefore t) (execLinkDownTimeout p s) := by
  refine leaves_run ?_
  extract_lets
  split
  · exact hs
  · extract_lets c₁ c₂
    have h₁ : NotBefore t c₁ := notBefore_advanceTo _ hs
    have htold : Held offTime c₁ c₂ :=
      frame_portEvent (needs rfl) _ _ _ (frame_setF (needs rfl) _ _ _ _ _ (frame_setPort (needs rfl) _ _ _ held_refl))
    exact notBefore_then h₁ (frame_portFail (needs rfl) _ _ htold)

theorem notBefore_execRemoteTimeout (id : Nat) : Leaves (NotBefore t) (execRemoteTimeout id s) := by
  refine leaves_run ?_
  split
  · refine notBefore_ite hs ?_
    extract_lets c₁
    have h₁ : NotBefore t c₁ := notBefore_advanceTo _ hs
    exact notBefore_then h₁ <| frame_remoteFail (needs rfl) _ _ _ (frame_bump (needs rfl) _ _ _ held_refl)
  · exact hs

theorem notBefore_execTimeExchange (done : Option TimeStamp) : Leaves (NotBefore t) (execTimeExchange done s) := by
  refine leaves_run (notBefore_ite hs ?_)
  extract_lets _ c₁
  have h₁ : NotBefore t c₁ := notBefore_ite (notBefore_then hs (frame_sendPacket (needs rfl) _ _ _ _ _ held_refl)) hs
  split
  · exact notBefore_missedInterval h₁
  · refine notBefore_ite (notBefore_missedInterval h₁) ?_
    extract_lets c₂
    have h₂ : NotBefore t c₂ := notBefore_then h₁ (frame_setPort (needs rfl) _ _ _ held_refl)
    refine notBefore_ite (notBefore_missedInterval ?_) (notBefore_discipline _ _ h₂)
    exact notBefore_then h₂ (frame_event (needs rfl) _ _ _ _ held_refl)

/-- A command whose frame leaves card time does not take it back. -/
theorem notBefore_exec_of_footprint {i : Instr} (hi : (footprint i).contains .time = false) :
    Leaves (NotBefore t) (exec i s) := fun u hu => notBefore_of_held hi hs (frame_exec i s u hu)

/-- No command takes card time back, where R31 does not let it start again: those named touch the clock, and the frame of
every other command is without card time. -/
theorem notBefore_exec (i : Instr) : Leaves (NotBefore (timeFloor t i)) (exec i s) := by
  cases i
  case powerGood | conventionalReset | slotPowerLost => exact fun _ _ => Nat.zero_le _
  case ptmIntervalExpiry => exact notBefore_execPtmIntervalExpiry hs
  case ptmExchangeDone => exact notBefore_execPtmExchangeDone hs _
  case ptmDisable => exact notBefore_execPtmDisable hs
  case paceWindowEnd => exact notBefore_execPaceWindowEnd hs
  case avsPoll => exact notBefore_execAvsPoll hs _
  case moduleTempSample => exact notBefore_execModuleTempSample hs _ _
  case auxPowerLost => exact notBefore_execAuxPowerLost hs _
  case idleSelfRefresh => exact notBefore_execIdleSelfRefresh hs _
  case waitTimeout => exact notBefore_execWaitTimeout hs _ _
  case rasterPacketTimeout => exact notBefore_execRasterPacketTimeout hs _ _
  case heartbeat => exact notBefore_execHeartbeat hs _ _
  case freezeMatchTime => exact notBefore_execFreezeMatchTime hs
  case startAcknowledged => exact notBefore_execStartAcknowledged hs
  case auxQualifyExpiry => exact notBefore_execAuxQualifyExpiry hs
  case hubSensorSample => exact notBefore_execHubSensorSample hs _
  case presenceTimeout => exact notBefore_execPresenceTimeout hs
  case hotReset => exact notBefore_execHotReset hs
  case linkDownTimeout => exact notBefore_execLinkDownTimeout hs _
  case remoteTimeout => exact notBefore_execRemoteTimeout hs _
  case timeExchange => exact notBefore_execTimeExchange hs _
  all_goals exact notBefore_exec_of_footprint hs rfl

/-- A tick of the time base moves card time on, and the work of that time leaves it. -/
theorem notBefore_idle : NotBefore t (State.tick s).card := by
  rw [card_tick]
  exact notBefore_then (notBefore_tick hs) (frame_tickWork (needs rfl) _ held_refl)

end

/-- Settles O9: an idle step ticks, and any other runs a command, which lets card time start again only where R31 does. -/
theorem timeNeverGoesBack : Obligations.TimeNeverGoesBack := by
  intro s u hstep hfront
  have hnow : NotBefore s.card.clk.now s.card := le_rfl
  unfold step at hstep
  split at hstep
  · cases hstep
    exact notBefore_idle hnow
  case _ i rest hpending =>
    have hleft := notBefore_exec (s := { s with pending := rest }) hnow i u hstep
    have hi := hfront i (by rw [hpending]; rfl)
    cases i
    case powerGood | conventionalReset | slotPowerLost => exact hi.elim
    all_goals exact hleft

/-- Settles O2: the step of an empty queue is the tick. -/
theorem idleStepTicks : Obligations.IdleStepTicks := by
  intro s hidle
  have hpending : (State.tick s).pending = [] := by rw [State.tick, hidle]
  have htick : step s = .next (State.tick s) := by rw [step, hidle]
  exact ⟨(State.tick s).card, by rw [htick, ← hpending], notBefore_idle (t := s.card.clk.now) le_rfl⟩

end Sys2Proof.Proofs
end

section
/-! The pace monitor (R36, R37, R46): what a write to its registers does, and the windows that PACE_WINDOW_END opens. -/

namespace Sys2Proof.Proofs

open Sys2Proof Sys2Proof.Machine Sys2Proof.Laws

/-! ### Writes to the pace block -/

theorem keySpace_mg {off : Nat} (h : off < 0x100000) : keySpace (mg off) = (.mg, off) := by
  simp [keySpace, mg, Space.key, h]

/-- A host write of a register of the pace block beyond MG_AVS_LIMITS writes the register's fields and nothing else. -/
theorem writeReg_pace {off : Nat} {p : Reg × List Nat} (hlo : 0x1008 ≤ off) (hhi : off < 0x1100)
    (hfind : findReg Space.mg.regs off = some p) (c : Card) (v : Word) :
    c.writeReg (mg off) v = c.setReg (mg off) (writeFlds (c.locked .mg off) p.1.flds (c.reg (mg off)) v) := by
  have hkey : keySpace (mg off) = (.mg, off) := keySpace_mg (by omega)
  have hlt : ∀ n, 0x1100 ≤ n → ¬n ≤ off := fun n hn => by omega
  have hne : ∀ n, 0x1100 ≤ n → off ≠ n := fun n hn => by omega
  have hkne : ∀ n, 0x1100 ≤ n → mg off ≠ mg n := fun n hn => hne n hn
  have hceil : mg off ≠ mg 0x1004 := show off ≠ 0x1004 by omega
  simp [Card.writeReg, hkey, hfind, hlt, hne, hkne, hceil, wholeOk]
  rfl

theorem paceTarget_found : ∀ h : Fin 4, (findReg Space.mg.regs (0x1010 + 4 * h.val)).isSome = true := by decide

theorem paceTarget_not_lo : ∀ h : Fin 4, keyIsLo (mg (0x1010 + 4 * h.val)) = false := by decide

theorem paceTarget_not_hi : ∀ h : Fin 4, keyIsHi (mg (0x1010 + 4 * h.val)) = false := by decide

/-- A write to MG_PACE_TARGET that reaches it changes that register alone. -/
theorem becomes_paceTargetWrite {c : Card} {h : Fin 4} (hreach : c.reaches .pf0 (0x1010 + 4 * h.val) = true) (v : Word) :
    ∃ w, Becomes (.registerWrite (.mmio .pf0 (0x1010 + 4 * h.val) 4 v.toNat)) c (c.setReg (mg (0x1010 + 4 * h.val)) w) := by
  obtain ⟨p, hfind⟩ := Option.isSome_iff_exists.mp (paceTarget_found h)
  have hregAt : c.regAt .pf0 (0x1010 + 4 * h.val) = some (mg (0x1010 + 4 * h.val)) := if_pos (by omega)
  have hwrite := mmioWrite_of_reaches (v := v) hreach (by omega) rfl hregAt (paceTarget_not_lo h) (paceTarget_not_hi h)
  exact ⟨_, becomes_of_eq (becomes_mmioWrite _ _ _ _ _) (hwrite.trans (writeReg_pace (by omega) (by omega) hfind c v))⟩

/-! ### The window in progress and the next one -/

@[simp] theorem paceOf_setReg (c : Card) (k : Nat) (w : Word) (h : Nat) : (c.setReg k w).paceOf h = c.paceOf h := rfl

@[simp] theorem paceOf_setPace_self (c : Card) (h : Nat) (p : Pace) : (c.setPace h p).paceOf h = p := tabGet_put_self _ _ _ _

theorem paceOf_setPace_ne {c : Card} {h g : Nat} {p : Pace} (hg : g ≠ h) : (c.setPace h p).paceOf g = c.paceOf g :=
  tabGet_put_ne _ p hg

@[simp] theorem f_setPace (c : Card) (h : Nat) (p : Pace) (k hi lo : Nat) : (c.setPace h p).f k hi lo = c.f k hi lo := rfl

/-- The window in progress is judged by the pace monitor and MG_PACE_CTL alone (R36). -/
theorem window_setReg {c : Card} {k : Nat} (hk : mg 0x1000 ≠ k) (w : Word) (h : Nat) :
    (c.setReg k w).window h = c.window h := by
  have hroom : (c.setReg k w).f (mg 0x1000) 31 24 = c.f (mg 0x1000) 31 24 := by rw [Card.f, Card.f, reg_setReg_ne hk]
  unfold Card.window
  rw [paceOf_setReg, hroom]

/-- The pace monitor of a hamper as its next window opens (R35, R40, R46). -/
def newPace (c : Card) (h : Nat) : Pace :=
  { c.paceOf h with
    busyFrac := 0, records := 0, affected := ((c.lcActive h).filterMap (fun o => o.stream)).eraseDups,
    target := c.f (mg (0x1010 + 4 * h)) 15 0 }

/-- The next window of every hamper opens. -/
def newPaces (c : Card) : Card := hampers.foldl (fun c h => c.setPace h (newPace c h)) c

@[simp] theorem f_newPaces (c : Card) (k hi lo : Nat) : (newPaces c).f k hi lo = c.f k hi lo := rfl

theorem target_newPaces (c : Card) (h : Fin 4) : ((newPaces c).paceOf h).target = c.f (mg (0x1010 + 4 * h.val)) 15 0 := by
  fin_cases h <;> simp [newPaces, hampers, newPace, paceOf_setPace_ne]

/-- PACE_WINDOW_END, whatever it judged, opens the next window of every hamper (R35, R46). -/
theorem becomes_paceWindowEnd {c : Card} (hon : c.on = true) (hstage : 7 ≤ c.stage) :
    ∃ e : Card, Becomes .paceWindowEnd c ((newPaces e).openWindow ((c.winAt / 256000 + 1) * 256000)).notePoint := by
  have hrun : ¬(!c.on || decide (c.stage < 7)) = true := by simp [hon, hstage]
  apply Exists.intro
  intro q
  change execPaceWindowEnd _ = _
  rw [execPaceWindowEnd, run_next]
  dsimp only
  rw [if_neg hrun]
  rfl

@[simp] theorem paceOf_openWindow (c : Card) (fin h : Nat) : (c.openWindow fin).paceOf h = c.paceOf h := rfl
@[simp] theorem paceOf_notePoint (c : Card) (h : Nat) : c.notePoint.paceOf h = c.paceOf h := rfl
@[simp] theorem f_openWindow (c : Card) (fin k hi lo : Nat) : (c.openWindow fin).f k hi lo = c.f k hi lo := rfl
@[simp] theorem f_notePoint (c : Card) (k hi lo : Nat) : c.notePoint.f k hi lo = c.f k hi lo := rfl

/-! ### The obligations -/

/-- Settles O17: the write changes the register alone, and the window's end copies the register into the monitor. -/
theorem paceTargetTakesEffectNextWindow : Obligations.PaceTargetTakesEffectNextWindow := by
  refine ⟨fun c h v hreach => ?_, fun c hon hstage => ?_⟩
  · obtain ⟨w, hwrite⟩ := becomes_paceTargetWrite hreach v
    have hctl : mg 0x1000 ≠ mg (0x1010 + 4 * h.val) := show 0x1000 ≠ 0x1010 + 4 * h.val by omega
    exact ⟨_, hwrite, fun g => ⟨rfl, window_setReg hctl w g⟩⟩
  · obtain ⟨e, hend⟩ := becomes_paceWindowEnd hon hstage
    exact ⟨_, hend, fun h => by simp [target_newPaces]⟩

/-- Settles O16: both comparisons are the window's own, and the reset values are those of the registers. -/
theorem windowSlipsAndHeadroom : Obligations.WindowSlipsAndHeadroom :=
  ⟨fun _ _ => ⟨decide_eq_true_iff, decide_eq_true_iff⟩, fun _ => ⟨rfl, rfl, rfl⟩⟩

/-- Settles O5: at reset the tables are empty, so that every register reads its reset value. -/
theorem resetCanonical : Obligations.ResetCanonical := ⟨canonical_reset, rfl, fun _ => rfl, rfl, rfl⟩

/-- A card in service at 300,000 ns, thawed at 290,000 ns: the window that opened at 256,000 ns overlaps the freeze, which is
over. -/
def lateThawCard : Card := { on := true, clk := { now := 300000 * nsUnit }, regs := [(0x30, 7), (0x5018, 290000)] }

/-- The end of its first window marks the next one as frozen (R47), with the card neither frozen nor stopping. -/
theorem winFrozen_lateThawCard :
    (match exec .paceWindowEnd { card := lateThawCard, pending := [] } with
      | .next s => s.card.winFrozen && !(s.card.frozen || s.card.stopping)
      | _ => false) = true := by
  decide +kernel

/-- Refutes O34: PACE_WINDOW_END marks the next window as frozen when a freeze lasted beyond its start too, so the mark can be
set on a card that is neither frozen nor stopping any more. -/
theorem not_timeRowsComplete : ¬ Obligations.TimeRowsComplete := by
  intro hrows
  obtain ⟨-, -, -, -, -, -, hwindow, -⟩ := hrows
  obtain ⟨d, hend, -, hmark, -⟩ := hwindow lateThawCard rfl (by decide +kernel)
  have hrun := winFrozen_lateThawCard
  rw [hend []] at hrun
  simp only [hmark, Bool.and_not_self, Bool.false_eq_true] at hrun

end Sys2Proof.Proofs
end

section
/-! Where the data of a region lies (R54, R175, R176): on one of the region's channels, at an address in its extent. -/

namespace Sys2Proof.Proofs

open Sys2Proof Sys2Proof.Machine

@[simp] theorem mem_maskList {m n i : Nat} : i ∈ maskList m n ↔ i < n ∧ nbit m i = true := by simp [maskList]

theorem nbit_eq_testBit (m i : Nat) : nbit m i = m.testBit i := by
  simp [nbit, Nat.testBit, Nat.and_comm 1, Nat.and_one_is_mod]

theorem and_ne_zero_of_nbit {m n i : Nat} (hm : nbit m i = true) (hn : nbit n i = true) : m &&& n ≠ 0 := by
  intro hzero
  rw [nbit_eq_testBit] at hm hn
  have hbit : (m &&& n).testBit i = true := by rw [Nat.testBit_and, hm, hn, Bool.and_self]
  simp [hzero] at hbit

/-- Pages dealt in turn to `n` channels: when each channel has room for its `pages`, what a channel gets stays within them. -/
theorem interleaved_lt {d n pages : Nat} (h : d < 4096 * n * pages) : d / 4096 / n * 4096 + d % 4096 < pages * 4096 := by
  have hrow : d / 4096 / n < pages := by
    rw [Nat.div_div_eq_div_mul]
    exact Nat.div_lt_of_lt_mul h
  omega

/-- The pages of data that a region holds on each channel: an ECC region leaves one line in eight to check bits (R54). -/
def dataPages (e : RegionEnt) : Nat := if e.ecc then 448 * e.size else 512 * e.size

theorem dataSize_eq_dataPages (e : RegionEnt) : e.dataSize = 4096 * popCount e.channels 8 * dataPages e := by
  by_cases hecc : e.ecc = true
  · have heighth : e.size * 0x200000 * popCount e.channels 8 = 8 * (e.size * 0x40000 * popCount e.channels 8) := by ring
    have hsize : e.dataSize = e.size * 0x200000 * popCount e.channels 8 / 8 * 7 := if_pos hecc
    rw [hsize, heighth, Nat.mul_div_cancel_left _ (by decide), dataPages, if_pos hecc]
    ring
  · have hsize : e.dataSize = e.size * 0x200000 * popCount e.channels 8 := if_neg hecc
    rw [hsize, dataPages, if_neg hecc]
    ring

/-- Where a data offset stands among the data that its channel holds of the region (R175). -/
def channelOffset (e : RegionEnt) (d : Nat) : Nat := d / 4096 / popCount e.channels 8 * 4096 + d % 4096

theorem channelOffset_lt {e : RegionEnt} {d : Nat} (h : d < e.dataSize) : channelOffset e d < dataPages e * 4096 :=
  interleaved_lt (dataSize_eq_dataPages e ▸ h)

theorem chanAddr_of_ecc {e : RegionEnt} (h : e.ecc = true) (d : Nat) :
    (e.chanAddr d).2 = e.offset * 0x200000 + 512 * (channelOffset e d / 448) + channelOffset e d % 448 := by
  simp only [RegionEnt.chanAddr, h, if_true]
  rfl

theorem chanAddr_of_plain {e : RegionEnt} (h : e.ecc = false) (d : Nat) :
    (e.chanAddr d).2 = e.offset * 0x200000 + channelOffset e d := by
  simp only [RegionEnt.chanAddr, h, Bool.false_eq_true, if_false]
  rfl

/-- An offset inside a region's data size is on one of the region's channels; a region without channels has no data. -/
theorem chanAddr_channel {e : RegionEnt} {d : Nat} (h : d < e.dataSize) : (e.chanAddr d).1 ∈ maskList e.channels 8 := by
  have hpos : 0 < (maskList e.channels 8).length := by
    rw [dataSize_eq_dataPages] at h
    exact Nat.pos_of_ne_zero fun hempty => by simp [popCount, hempty] at h
  have hfst : (e.chanAddr d).1 = (maskList e.channels 8).getD (d / 4096 % (maskList e.channels 8).length) 0 := by
    cases hecc : e.ecc <;> simp only [RegionEnt.chanAddr, hecc, Bool.false_eq_true, if_true, if_false]
  have hlt := Nat.mod_lt (d / 4096) hpos
  rw [hfst, List.getD_eq_getElem _ _ hlt]
  exact List.getElem_mem hlt

theorem le_chanAddr (e : RegionEnt) (d : Nat) : e.offset * 0x200000 ≤ (e.chanAddr d).2 := by
  cases hecc : e.ecc
  · rw [chanAddr_of_plain hecc]; omega
  · rw [chanAddr_of_ecc hecc]; omega

theorem chanAddr_lt {e : RegionEnt} {d : Nat} (h : d < e.dataSize) : (e.chanAddr d).2 < (e.offset + e.size) * 0x200000 := by
  have hroom := channelOffset_lt h
  cases hecc : e.ecc
  · rw [dataPages, hecc, if_neg Bool.false_ne_true] at hroom
    rw [chanAddr_of_plain hecc]
    omega
  · rw [dataPages, if_pos hecc] at hroom
    rw [chanAddr_of_ecc hecc]
    omega

/-- A block's data are its first 448 bytes; the check line stands behind them (R176). -/
theorem chanAddr_not_check_line {e : RegionEnt} (h : e.ecc = true) (d : Nat) : (e.chanAddr d).2 % 512 < 448 := by
  rw [chanAddr_of_ecc h]
  omega

/-- Settles O22: the channels take the pages in turn, so each holds no more of them than its extent has room for. -/
theorem regionAddressesStayInExtent : Obligations.RegionAddressesStayInExtent := fun e d _ hd =>
  ⟨chanAddr_channel hd, le_chanAddr e d, chanAddr_lt hd, fun hecc => chanAddr_not_check_line hecc d⟩

/-- Two regions with data at one channel address have a channel in common and meet on it. -/
theorem meets_of_chanAddr_eq {a b : RegionEnt} {d x : Nat} (hd : d < a.dataSize) (hx : x < b.dataSize)
    (h : a.chanAddr d = b.chanAddr x) : a.meets b = true := by
  have hchan := chanAddr_channel hx
  rw [← h] at hchan
  have hshare : a.channels &&& b.channels ≠ 0 :=
    and_ne_zero_of_nbit (mem_maskList.mp (chanAddr_channel hd)).2 (mem_maskList.mp hchan).2
  have hastart := le_chanAddr a d
  have haend := chanAddr_lt hd
  have hbstart := le_chanAddr b x
  have hbend := chanAddr_lt hx
  rw [h] at hastart haend
  have hrange : rangesMeet a.offset a.size b.offset b.size = true := by
    simp only [rangesMeet, Bool.and_eq_true, decide_eq_true_eq]
    omega
  simp [RegionEnt.meets, hshare, hrange]

end Sys2Proof.Proofs
end

section
/-! What the checker's acceptance of an image says of its layout (R50, R57, R60). -/

namespace Sys2Proof.Proofs

open Sys2Proof Sys2Proof.Machine

theorem ite_some_eq_none {α : Type} {p : Prop} [Decidable p] {x : α} {t : Option α} :
    (if p then some x else t) = none ↔ ¬p ∧ t = none := by
  split <;> simp [*]

theorem orElse_eq_none {α : Type} {a b : Option α} : (a <|> b) = none ↔ a = none ∧ b = none := by
  cases a <;> simp

/-- An accepted image is one whose layout fails no rule of the resource block, of the groups or of the regions. -/
theorem rulesFault_of_checkImage {c : Card} {h : Nat} {img : List Byte} {dflt : Bool} {l : Layout}
    (hok : (c.checkImage h img dflt).toOption = some l) : c.rulesFault h l = none := by
  unfold Card.checkImage at hok
  split at hok
  · cases hok
  · dsimp only at hok
    split at hok
    · cases hok
    case _ hnone => cases hok; exact hnone

theorem rulesFault_eq_none {c : Card} {h : Nat} {l : Layout} :
    c.rulesFault h l = none ↔ c.resourceFault h l = none ∧ c.groupsFault h l = none ∧ c.regionsFault h l = none := by
  simp only [Card.rulesFault, orElse_eq_none]

/-- Rules 0x19 to 0x1B, on the SRAM partition. -/
theorem partition_of_resourceFault {c : Card} {h : Nat} {l : Layout} (hnone : c.resourceFault h l = none) :
    l.pool + l.staging + l.track = 192 ∧ 32 ≤ l.staging ∧ 16 ≤ l.pool := by
  simp only [Card.resourceFault, ite_some_eq_none] at hnone
  obtain ⟨-, -, -, -, -, -, -, -, -, -, hsum, hstaging, hpool, -⟩ := hnone
  omega

theorem regionFault_eq_none {code field groups : Nat} {l : List RegionEnt} {bad : Nat → RegionEnt → Bool} :
    regionFault code field groups l bad = none ↔ ∀ i e, l[i]? = some e → bad i e = false := by
  simp only [regionFault, Option.map_eq_none_iff, List.find?_eq_none, Bool.not_eq_true, Prod.forall,
    List.mk_mem_zipIdx_iff_getElem?]
  exact forall_comm

/-- The region at a place of a layout passes rules 0x30, 0x32, 0x33 and 0x35. -/
structure RegionPasses (c : Card) (h : Nat) (l : Layout) (i : Nat) (e : RegionEnt) : Prop where
  num : ∀ x ∈ l.regions.take i, x.num ≠ e.num
  channels : e.channels &&& (0xFF - l.channels) = 0
  size : 0 < e.size
  fits : e.offset + e.size ≤ 16384
  apart : ∀ x ∈ l.regions.take i, e.meets x = false
  free : ∀ o ∈ c.otherLayouts h, ∀ x ∈ o.regions, e.meets x = false

theorem regionPasses_of_regionsFault {c : Card} {h : Nat} {l : Layout} (hnone : c.regionsFault h l = none) {i : Nat}
    {e : RegionEnt} (he : l.regions[i]? = some e) : RegionPasses c h l i e := by
  simp only [Card.regionsFault, orElse_eq_none, regionFault_eq_none] at hnone
  obtain ⟨hnum, -, hchan, hext, -, hmeet, -⟩ := hnone
  have hnum := hnum i e he
  have hchan := hchan i e he
  have hext := hext i e he
  have hmeet := hmeet i e he
  simp only [List.any_eq_false, beq_iff_eq, Bool.or_eq_false_iff, beq_eq_false_iff_ne, bne_eq_false_iff_eq,
    decide_eq_false_iff_not, Bool.not_eq_true] at hnum hchan hext hmeet
  exact ⟨hnum, hchan.2, Nat.pos_of_ne_zero hext.1, Nat.le_of_not_lt hext.2, hmeet.1, hmeet.2⟩

theorem regionPasses_of_checkImage {c : Card} {h : Nat} {img : List Byte} {dflt : Bool} {l : Layout}
    (hok : (c.checkImage h img dflt).toOption = some l) {i : Nat} {e : RegionEnt} (he : l.regions[i]? = some e) :
    RegionPasses c h l i e :=
  regionPasses_of_regionsFault (rulesFault_eq_none.mp (rulesFault_of_checkImage hok)).2.2 he

theorem mem_take_of_getElem? {α : Type} {l : List α} {i j : Nat} {a : α} (ha : l[i]? = some a) (hij : i < j) :
    a ∈ l.take j :=
  List.mem_of_getElem? (i := i) (by rw [List.getElem?_take_of_lt hij, ha])

/-- Settles O24: each bound is a rule of the checker, and rules 0x30 and 0x35 compare a region with every one before it. -/
theorem acceptedLayoutsFit : Obligations.AcceptedLayoutsFit := by
  intro c h img dflt l hok
  obtain ⟨hresource, -, -⟩ := rulesFault_eq_none.mp (rulesFault_of_checkImage hok)
  obtain ⟨hsum, hstaging, hpool⟩ := partition_of_resourceFault hresource
  refine ⟨hsum, hstaging, hpool, fun e he => ?_, List.pairwise_iff_getElem.mpr fun i j hi hj hij => ?_⟩
  · obtain ⟨i, hi⟩ := List.mem_iff_getElem?.mp he
    have hpass := regionPasses_of_checkImage hok hi
    exact ⟨hpass.size, hpass.fits, hpass.channels⟩
  · have hpass := regionPasses_of_checkImage hok (List.getElem?_eq_getElem hj)
    have hbefore := mem_take_of_getElem? (List.getElem?_eq_getElem hi) hij
    exact ⟨hpass.num _ hbefore, hpass.apart _ hbefore⟩

/-- Settles O23: regions with a channel address in common meet, and rule 0x35 refuses a region that meets an earlier one of its
layout or one of another hamper's layouts. -/
theorem acceptedLayoutsKeepRegionsApart : Obligations.AcceptedLayoutsKeepRegionsApart := by
  intro c h img dflt l hok
  refine ⟨fun i j a b d x ha hb hij hd hx haddr => ?_, fun o ho b hb a ha d x _ hd hx haddr => ?_⟩
  · have hapart := (regionPasses_of_checkImage hok hb).apart a (mem_take_of_getElem? ha hij)
    simp [meets_of_chanAddr_eq hx hd haddr.symm] at hapart
  · obtain ⟨i, hi⟩ := List.mem_iff_getElem?.mp ha
    have hfree := (regionPasses_of_checkImage hok hi).free o ho b hb
    simp [meets_of_chanAddr_eq hd hx haddr] at hfree

end Sys2Proof.Proofs
end

section
/-! The loader's commands and the application of a layout (R60 to R63): the card that each leaves. -/

namespace Sys2Proof.Proofs

open Sys2Proof Sys2Proof.Machine Sys2Proof.Laws

/-! ### Writes of MG_LAYOUT_CTL -/

/-- CMD and HAMPER of MG_LAYOUT_CTL as written (R62). -/
def loaderCtl (c : Card) (cmd h : Nat) : Card := (c.setF (mg 0x6000) 7 4 cmd).setF (mg 0x6000) 1 0 h

/-- A register other than MG_LAYOUT_CTL does not see the write. -/
theorem bit_loaderCtl {c : Card} {cmd h off i : Nat} (hoff : off ≠ 0x6000) :
    (loaderCtl c cmd h).bit (mg off) i = c.bit (mg off) i := by
  have hkey : mg off ≠ mg 0x6000 := hoff
  rw [loaderCtl, bit_setF_ne hkey, bit_setF_ne hkey]

theorem frozen_loaderCtl (c : Card) (cmd h : Nat) : (loaderCtl c cmd h).frozen = c.frozen := bit_loaderCtl (by decide)

theorem keepImage_loaderCtl (c : Card) (cmd h : Nat) : (loaderCtl c cmd h).keepImage = c.keepImage := by
  have hkey : mg 0x3004 ≠ mg 0x6000 := by decide
  rw [loaderCtl, keepImage_setF hkey, keepImage_setF hkey]

/-- A loader with no job, on a card that is not frozen, takes the command up. -/
theorem loaderGo_of_idle {c : Card} (hidle : c.loader = none) (hrun : c.frozen = false) (cmd h : Nat) (go : Card → Card) :
    c.loaderGo cmd h go = go (loaderCtl c cmd h) := by
  have hrun' : ¬(loaderCtl c cmd h).frozen = true := by simp [frozen_loaderCtl, hrun]
  unfold Card.loaderGo
  rw [hidle]
  exact if_neg hrun'

section
variable {c : Card} {h : Fin 4} (hreach : c.reaches .pf0 0x6000 = true) (hidle : c.loader = none)
  (hrun : c.frozen = false)
include hreach hidle hrun

theorem becomes_layoutCheck : Becomes (.layoutCheck h) c ((loaderCtl c 1 h.val).loaderStart 1 h.val) := by
  intro q
  change execLayoutCheck h _ = _
  rw [execLayoutCheck, run_next, hostWrite_of_reaches hreach, loaderGo_of_idle hidle hrun]

theorem becomes_layoutLoad (hpresent : c.bit (mg (0x0010 + 4 * h.val)) 31 = true) :
    Becomes (.layoutLoad h) c ((loaderCtl c 2 h.val).loaderStart 2 h.val) := by
  intro q
  change execLayoutLoad h _ = _
  rw [execLayoutLoad, run_next, hostWrite_of_reaches hreach, loaderGo_of_idle hidle hrun, bit_loaderCtl (by omega),
    if_pos hpresent]

theorem becomes_setDefault (hkeep : c.bit (mg 0x3004) 31 = false) :
    Becomes (.setDefault h) c ((loaderCtl c 3 h.val).loaderStart 3 h.val) := by
  intro q
  change execSetDefault h _ = _
  rw [execSetDefault, run_next, hostWrite_of_reaches hreach, if_neg (by simp [hkeep]), loaderGo_of_idle hidle hrun]

theorem becomes_loadDefault {img : List Byte} (hpresent : c.bit (mg (0x0010 + 4 * h.val)) 31 = true)
    (hstored : ksFind c.keepImage 2 h.val = some img) :
    Becomes (.loadDefault h) c (((loaderCtl c 4 h.val).fillWindow img).loaderStart 4 h.val) := by
  intro q
  change execLoadDefault h _ = _
  rw [execLoadDefault, run_next, hostWrite_of_reaches hreach, loaderGo_of_idle hidle hrun, bit_loaderCtl (by omega),
    if_neg (by simp [hpresent]), keepImage_loaderCtl, hstored]

theorem becomes_loaderBadCommand {v : Word} (hgo : fld v 31 31 = 1) (hbad : ¬(1 ≤ fld v 7 4 ∧ fld v 7 4 ≤ 4)) :
    Becomes (.loaderBadCommand v) c ((loaderCtl c (fld v 7 4) (fld v 1 0)).loaderResult 0x42 0) := by
  have hunlisted : ¬(fld v 31 31 = 0 ∨ (1 ≤ fld v 7 4 ∧ fld v 7 4 ≤ 4)) := by omega
  have hrun' : ¬(loaderCtl c (fld v 7 4) (fld v 1 0)).frozen = true := by simp [frozen_loaderCtl, hrun]
  intro q
  change execLoaderBadCommand v _ = _
  rw [execLoaderBadCommand, run_next, hostWrite_of_reaches hreach, if_neg hunlisted, hidle]
  change Host.Outcome.next (State.mk q (if (loaderCtl c _ _).frozen = true then _ else _)) = _
  rw [if_neg hrun']
  rfl

end

/-! ### The end of a command -/

section
variable {c : Card} {j : Loader} (hjob : c.loader = some j) (hlive : c.live = true)
include hjob hlive

/-- An image that fails the check: its rule and offset are the command's outcome. -/
theorem becomes_layoutCommandDone_of_error {f : Nat × Nat}
    (hcheck : (c.loaderIdle.noteImage j.hamper c.layoutWindow).checkImage j.hamper c.layoutWindow (j.cmd == 4) = .error f) :
    Becomes .layoutCommandDone c
      (((c.loaderIdle.noteImage j.hamper c.layoutWindow).lastResult j.hamper f.1).loaderResult f.1 f.2) := by
  intro q
  change execLayoutCommandDone _ = _
  rw [execLayoutCommandDone, run_next, hjob]
  dsimp only
  rw [if_neg (by simp [hlive]), hcheck]

/-- An image that passes the check: what comes next is the command's own part. -/
theorem becomes_layoutCommandDone_of_ok {l : Layout}
    (hcheck : (c.loaderIdle.noteImage j.hamper c.layoutWindow).checkImage j.hamper c.layoutWindow (j.cmd == 4) = .ok l)
    {d : Card} (hd : d = ((c.loaderIdle.noteImage j.hamper c.layoutWindow).lastResult j.hamper 0).loaderResult 0 0) :
    Becomes .layoutCommandDone c
      (if j.cmd = 2 ∨ j.cmd = 4 then d.makePending j.hamper l
      else if j.cmd = 3 then d.stageImage j.hamper (c.layoutWindow.take (imgLength c.layoutWindow))
      else d) := by
  intro q
  change execLayoutCommandDone _ = _
  rw [execLayoutCommandDone, run_next, hjob, hd]
  dsimp only
  rw [if_neg (by simp [hlive]), hcheck]

end

/-! ### The start of a hamper function -/

theorem becomes_layoutApplication {c : Card} {h : Fin 4} {l : Layout} (hlive : c.live = true)
    (hphase : (c.fnOf (h.val + 1)).phase = .starting) (hidle : c.loader = none)
    (hpending : tabGet none c.pendLay h.val = none) (hactive : c.lay h.val = some l) :
    Becomes (.layoutApplication h) c (c.applyLayout h.val l) := by
  have hstart : ¬(!c.live || (c.fnOf (h.val + 1)).phase != .starting || c.loader.any (fun j => j.hamper == h.val)) = true := by
    simp [hlive, hphase, hidle]
  intro q
  change execLayoutApplication h _ = _
  rw [execLayoutApplication, run_next]
  dsimp only
  rw [if_neg hstart, hpending, hactive]

theorem becomes_zeroFillDone {c : Card} {h : Fin 4} (hlive : c.live = true)
    (hphase : (c.fnOf (h.val + 1)).phase = .filling)
    (hfree : c.heldAcc.any (fun x => x.fill && x.hamper == h.val) = false) :
    Becomes (.zeroFillDone h) c (c.fnReady h.val) := by
  intro q
  change execZeroFillDone h _ = _
  rw [execZeroFillDone, run_next, if_pos (by simp [hlive, hphase, hfree])]

/-- A function that has become ready is open to the host (R90). -/
theorem fnOf_fnReady (c : Card) (h : Nat) : (c.fnReady h).fnOf (h + 1) = { phase := .ready, exposed := true } := by
  simp [Card.fnReady]

/-- Settles O35, row by row. -/
theorem layoutRowsComplete : Obligations.LayoutRowsComplete := by
  refine ⟨?check, ?load, ?setDefault, ?loadDefault, ?badCommand, ?passed, ?failed, ?application, ?filled⟩
  case check => exact fun c h hreach hidle hrun => becomes_layoutCheck hreach hidle hrun
  case load => exact fun c h hreach hidle hrun hpresent => becomes_layoutLoad hreach hidle hrun hpresent
  case setDefault => exact fun c h hreach hidle hrun hkeep => becomes_setDefault hreach hidle hrun hkeep
  case loadDefault =>
    exact fun c h img hreach hidle hrun hpresent hstored => becomes_loadDefault hreach hidle hrun hpresent hstored
  case badCommand =>
    exact fun c v hreach hgo hbad hidle hrun => becomes_loaderBadCommand hreach hidle hrun hgo hbad
  case passed =>
    intro c j l hjob hlive hcheck hcmd
    exact becomes_of_eq (becomes_layoutCommandDone_of_ok hjob hlive hcheck rfl) (by simp [hcmd])
  case failed =>
    exact fun c j f hjob hlive hcheck => becomes_layoutCommandDone_of_error hjob hlive hcheck
  case application =>
    exact fun c h l hlive hphase hidle hpending hactive => becomes_layoutApplication hlive hphase hidle hpending hactive
  case filled =>
    intro c h hlive hphase hfree
    exact ⟨_, becomes_zeroFillDone hlive hphase hfree, by rw [fnOf_fnReady], by rw [fnOf_fnReady]⟩

end Sys2Proof.Proofs
end

section
/-! Host writes to a hamper function that is not READY (R87, R90, R101), and the errors and unclaimed requests of the bus
(R79, R580). -/

namespace Sys2Proof.Proofs

open Sys2Proof Sys2Proof.Machine Sys2Proof.Laws

/-! ### Writes before READY -/

/-- A write through a hamper PF that is not READY is dropped and counted in its DROPS, whatever it would do. -/
theorem hostWrite_of_pf_not_ready {c : Card} {h : Fin 4} {off : Nat} {k : Card → Card} (hrun : c.frozen = false)
    (hclaims : c.claims (.pf h) = true) (hready : c.ready (.pf h) = false) :
    c.hostWrite (.pf h) off k = c.bump (hp h.val 8) 1 := by
  simp [Card.hostWrite, hclaims, hrun, hready]

/-- A write through a VF that is not READY is dropped and counted in the VF's own DROPS. -/
theorem hostWrite_of_vf_not_ready {c : Card} {h : Fin 4} {v : Fin 8} {off : Nat} {k : Card → Card} (hrun : c.frozen = false)
    (hclaims : c.claims (.vf h v) = true) (hready : c.ready (.vf h v) = false) :
    c.hostWrite (.vf h v) off k = c.bump ((Space.vf h.val v.val).key 8) 1 := by
  simp [Card.hostWrite, hclaims, hrun, hready]

/-- Settles O12: each such command is a host write, and a host write before READY is dropped. -/
theorem notReadyWritesDropped : Obligations.NotReadyWritesDropped := by
  intro i c off hrun
  refine ⟨fun h hi hclaims hready => ?pf, fun h v hi hclaims hready => ?vf⟩
  case pf =>
    obtain ⟨k, hk⟩ := becomes_hostWrite hi c
    exact becomes_of_eq hk (hostWrite_of_pf_not_ready hrun hclaims hready)
  case vf =>
    obtain ⟨k, hk⟩ := becomes_hostWrite hi c
    exact becomes_of_eq hk (hostWrite_of_vf_not_ready hrun hclaims hready)

/-! ### Counters and the STATE of rings -/

/-- A field that is the whole register. -/
theorem fld_whole (w : Word) : fld w 31 0 = w.toNat := by
  rw [fld, nbits, Nat.shiftRight_zero]
  exact Nat.mod_eq_of_lt w.isLt

/-- A whole-register counter rises by the amount, saturating. -/
theorem toNat_reg_bump_self (c : Card) (k n : Nat) :
    ((c.bump k n).reg k).toNat = satAdd (2 ^ 32 - 1) (c.reg k).toNat n := by
  have hlimit : satAdd (2 ^ 32 - 1) (c.reg k).toNat n < 2 ^ 32 := by
    rw [satAdd]
    omega
  calc ((c.bump k n).reg k).toNat
      = (c.bump k n).f k 31 0 := (fld_whole _).symm
    _ = satAdd (2 ^ (31 + 1 - 0) - 1) (c.f k 31 0) n % 2 ^ (31 + 1 - 0) := f_setF_self (by decide) (by decide)
    _ = satAdd (2 ^ 32 - 1) (c.reg k).toNat n := by rw [Card.f, fld_whole]; exact Nat.mod_eq_of_lt hlimit

/-- The STATE of a ring sees no counter but a write of the ring's own CTL. -/
theorem ringState_bump {c : Card} {k n h r : Nat} (hk : ringReg h r 8 ≠ k) : (c.bump k n).ringState h r = c.ringState h r := by
  have hkey : hp h (0x10008 + 0x1000 * r) ≠ k := by
    simp only [ringReg, hp, Space.key] at hk ⊢
    omega
  have hctl : (c.bump k n).bit (hp h (0x10008 + 0x1000 * r)) 31 = c.bit (hp h (0x10008 + 0x1000 * r)) 31 := bit_setF_ne hkey
  unfold Card.ringState
  rw [hctl]
  rfl

/-- A count of dropped writes stands in no ring's page, so it changes no ring and no STATE. -/
theorem rings_of_bump_drops {c : Card} {k n : Nat} (hk : ∀ (g : Fin 4) (q : Fin 16), ringReg g.val q.val 8 ≠ k)
    (g : Fin 4) (q : Fin 16) : (c.bump k n).ring g q = c.ring g q ∧ (c.bump k n).ringState g q = c.ringState g q :=
  ⟨rfl, ringState_bump (hk g q)⟩

theorem ringCtl_ne_pfDrops (h : Fin 4) (g : Fin 4) (q : Fin 16) : ringReg g.val q.val 8 ≠ hp h.val 8 := by
  simp only [ringReg, hp, Space.key]
  omega

theorem ringCtl_ne_vfDrops (h : Fin 4) (v : Fin 8) (g : Fin 4) (q : Fin 16) :
    ringReg g.val q.val 8 ≠ (Space.vf h.val v.val).key 8 := by
  simp only [ringReg, hp, Space.key]
  omega

/-- Settles O13: a doorbell is a host write, so before READY only DROPS rises, which stands in no ring's page. -/
theorem doorbellBeforeReadyDropped : Obligations.DoorbellBeforeReadyDropped := by
  intro c h r v hrun
  refine ⟨fun hclaims hready => ?pf, fun u hclaims hready => ?vf⟩
  case pf =>
    exact ⟨_, (notReadyWritesDropped (.doorbell (.pf h) r v) c _ hrun).1 h rfl hclaims hready, toNat_reg_bump_self _ _ _,
      rings_of_bump_drops (ringCtl_ne_pfDrops h)⟩
  case vf =>
    exact ⟨_, (notReadyWritesDropped (.doorbell (.vf h u) r v) c _ hrun).2 h u rfl hclaims hready, toNat_reg_bump_self _ _ _,
      rings_of_bump_drops (ringCtl_ne_vfDrops h u)⟩

/-! ### Errors and unclaimed requests -/

theorem becomes_unclaimedMemoryRequest {c : Card} {fn : Fn} {hdr : Nat} (hon : c.on = true) (hclaims : c.claims fn = false)
    (write : Bool) : Becomes (.unclaimedMemoryRequest fn write hdr) c (c.unclaimed fn write (some hdr)) := by
  intro q
  change execUnclaimedMemoryRequest fn write hdr _ = _
  rw [execUnclaimedMemoryRequest, run_next, if_neg (by simp [hon, hclaims])]

theorem becomes_poisonedWriteReceived {c : Card} (hon : c.on = true) (fn : Fn) (hdr : Nat) :
    Becomes (.poisonedWriteReceived fn hdr) c (c.aerLog fn.pfNum .poisoned (some hdr)) := by
  intro q
  change execPoisonedWriteReceived fn hdr _ = _
  rw [execPoisonedWriteReceived, run_next, if_neg (by simp [hon])]

/-- The AER error of an error of the link (R79). -/
def aerOfLink : LinkError → AerErr
  | .receiver => .receiver
  | .badTlp => .badTlp
  | .badDllp => .badDllp
  | .replayTimeout => .replayTimeout
  | .replayRollover => .replayRollover
  | .dataLinkProtocol => .dataLink
  | .receiverOverflow => .receiverOverflow

/-- The AER error of an error in a TLP (R79). -/
def aerOfTlp : TlpError → AerErr
  | .malformed => .malformed
  | .ecrc => .ecrc
  | .unexpectedCompletion => .unexpectedCompletion

theorem becomes_pcieLinkError {c : Card} (hon : c.on = true) (e : LinkError) :
    Becomes (.pcieLinkError e) c (c.aerLog 0 (aerOfLink e) none) := by
  intro q
  change execPcieLinkError e _ = _
  rw [execPcieLinkError.eq_def, run_next, if_neg (by simp [hon])]
  cases e <;> rfl

theorem becomes_tlpErrorReceived {c : Card} (hon : c.on = true) (fn : Fn) (e : TlpError) (hdr : Nat) :
    Becomes (.tlpErrorReceived fn e hdr) c (c.aerLog fn.pfNum (aerOfTlp e) (some hdr)) := by
  intro q
  change execTlpErrorReceived fn e hdr _ = _
  rw [execTlpErrorReceived.eq_def, run_next, if_neg (by simp [hon])]
  cases e <;> rfl

/-- Settles O32, row by row. -/
theorem busErrorRowsComplete : Obligations.BusErrorRowsComplete := by
  refine ⟨?write, ?read, ?poisoned, ?link, ?tlp⟩
  case write => exact fun c fn hdr hon hclaims => becomes_unclaimedMemoryRequest hon hclaims true
  case read => exact fun c fn hdr hon hclaims => becomes_unclaimedMemoryRequest hon hclaims false
  case poisoned => exact fun c fn hdr hon => becomes_poisonedWriteReceived hon fn hdr
  case link =>
    intro c p hp hon
    have hlisted : p.2 = aerOfLink p.1 := by
      revert p
      decide
    exact hlisted ▸ becomes_pcieLinkError hon p.1
  case tlp =>
    intro c fn p hdr hp hon
    have hlisted : p.2 = aerOfTlp p.1 := by
      revert p
      decide
    exact hlisted ▸ becomes_tlpErrorReceived hon fn p.1 hdr

end Sys2Proof.Proofs
end

section
/-! Functions: VF Enable and the resources of VFs, Bus Master Enable and pending messages, resets and D3hot (R75, R86, R88,
R90, R92, R98). -/

namespace Sys2Proof.Proofs

open Sys2Proof Sys2Proof.Machine Sys2Proof.Laws

/-! ### Bus Master Enable and MSI-X -/

theorem becomes_busMasterEnableWrite_false {c : Card} (hon : c.on = true) (fn : Fn) :
    Becomes (.busMasterEnableWrite fn false) c (c.setCfg fn.num { c.cfgOf fn.num with bme := false }) := by
  intro q
  change execBusMasterEnableWrite fn false _ = _
  rw [execBusMasterEnableWrite, run_next, if_neg (by simp [hon])]
  rfl

/-- With Bus Master Enable set, held messages go first, then held signals, then the function's rings (R98). -/
theorem becomes_busMasterEnableWrite_true {c d : Card} {fn : Fn} (hon : c.on = true)
    (hd : d = (c.setCfg fn.num { c.cfgOf fn.num with bme := true }).msixRelease fn.num) :
    Becomes (.busMasterEnableWrite fn true) c ((if d.live then d.settleSigs else d).pumpFn fn.num) := by
  subst hd
  intro q
  change execBusMasterEnableWrite fn true _ = _
  rw [execBusMasterEnableWrite, run_next, if_neg (by simp [hon])]
  rfl

theorem becomes_msixMessageRelease {c : Card} (hon : c.on = true) (fn : Fn) :
    Becomes (.msixMessageRelease fn) c (c.msixRelease fn.num) := by
  intro q
  change execMsixMessageRelease fn _ = _
  rw [execMsixMessageRelease, run_next, if_pos hon]

/-! ### VF Enable and the resources of VFs -/

/-- A write that leaves ARI Capable Hierarchy of its function leaves that of every function. -/
theorem ari_setCfg {c : Card} {n m : Nat} {g : Cfg} (hg : g.ari = (c.cfgOf n).ari) :
    ((c.setCfg n g).cfgOf m).ari = (c.cfgOf m).ari := by
  by_cases hm : m = n
  · rw [hm, cfgOf_setCfg_self, hg]
  · rw [cfgOf_setCfg_ne hm]

section
variable {c : Card} {h : Fin 4} {n : Nat} (hon : c.on = true) (hexposed : (c.fnOf (h.val + 1)).exposed = true)
  (hoff : (c.cfgOf (h.val + 1)).vfEn = false) (hn : n ≤ 8)
include hon hexposed hoff hn

theorem becomes_vfEnableWrite_false :
    Becomes (.vfEnableWrite h false (some n)) c (c.setCfg (h.val + 1) { c.cfgOf (h.val + 1) with numVfs := n }) := by
  intro q
  change execVfEnableWrite h false (some n) _ = _
  simp [execVfEnableWrite, hon, hexposed, hoff, hn]

theorem becomes_vfEnableWrite_true (hari : (c.cfgOf 1).ari = true) :
    Becomes (.vfEnableWrite h true (some n)) c
      (((c.setCfg (h.val + 1) { c.cfgOf (h.val + 1) with numVfs := n }).setCfg (h.val + 1)
        { c.cfgOf (h.val + 1) with numVfs := n, vfEn := true }).startVfs h.val) := by
  intro q
  change execVfEnableWrite h true (some n) _ = _
  simp [execVfEnableWrite, hon, hexposed, hoff, hn, ari_setCfg, hari]

end

/-- The offset of VF 0's register of a resource, and the mask of its fields (R88). -/
def vfResourceReg : VfResource → Nat × Nat
  | .rings => (0x100, 0xFFFF)
  | .sems => (0x120, 0x7F3F)
  | .ctx => (0x140, 0x0FFF0FFF)

/-- A write of VF `v`'s register of a resource, once it has reached the register (R88). -/
def writeVfResource (h v : Nat) (kind : VfResource) (x : Word) (c : Card) : Card :=
  if c.vfExists h v || !c.vfResourceOk h v kind x then c
  else c.setN (hp h ((vfResourceReg kind).1 + 4 * v)) (x.toNat &&& (vfResourceReg kind).2)

theorem becomes_hostWrite_vfResource (h : Fin 4) (v : Fin 8) (kind : VfResource) (x : Word) (c : Card) :
    Becomes (.vfResourceWrite h v kind x) c
      (c.hostWrite (.pf h) ((vfResourceReg kind).1 + 4 * v.val) (writeVfResource h.val v.val kind x)) := by
  cases kind <;> exact fun _ => rfl

theorem becomes_vfResourceWrite {c : Card} {h : Fin 4} {v : Fin 8} {kind : VfResource} {x : Word}
    (hreach : c.reaches (.pf h) ((vfResourceReg kind).1 + 4 * v.val) = true) (hvf : c.vfExists h.val v.val = false)
    (hok : c.vfResourceOk h.val v.val kind x = true) :
    Becomes (.vfResourceWrite h v kind x) c
      (c.setN (hp h.val ((vfResourceReg kind).1 + 4 * v.val)) (x.toNat &&& (vfResourceReg kind).2)) :=
  becomes_of_eq (becomes_hostWrite_vfResource h v kind x c)
    ((hostWrite_of_reaches hreach).trans (if_neg (by simp [hvf, hok])))

/-! ### The reset of a PF -/

theorem layState_ne_fnStatus (h : Nat) : hp h 0 ≠ layState h := by
  simp only [hp, layState, mg, Space.key]
  omega

/-- A reset that begins drains the PF, for the cause given, and shows so in STATE of HP_FN_STATUS (R90). -/
theorem fnOf_beginPfReset (c : Card) (h cause : Nat) (d3 hot : Bool) :
    ∃ flushed gone, (c.beginPfReset h cause d3 hot).fnOf (h + 1) =
      { phase := .draining, cause := cause, flushed := flushed, d3 := d3, hot := hot, exposed := true, gone := gone } :=
  ⟨_, _, fnOf_setFn_self _ _ _⟩

theorem f_beginPfReset (c : Card) (h cause : Nat) (d3 hot : Bool) : (c.beginPfReset h cause d3 hot).f (hp h 0) 31 30 = 1 := by
  unfold Card.beginPfReset
  rw [f_setFn, Card.setBit, f_setF_ne (layState_ne_fnStatus h), f_setF_self (by decide) (by decide)]
  rfl

/-- What every reset of a PF begins with. -/
theorem draining_beginPfReset (c : Card) (h cause : Nat) (d3 hot : Bool) :
    ((c.beginPfReset h cause d3 hot).fnOf (h + 1)).phase = .draining ∧
      ((c.beginPfReset h cause d3 hot).fnOf (h + 1)).cause = cause ∧
      ((c.beginPfReset h cause d3 hot).fnOf (h + 1)).d3 = d3 ∧ (c.beginPfReset h cause d3 hot).f (hp h 0) 31 30 = 1 := by
  obtain ⟨flushed, gone, hfn⟩ := fnOf_beginPfReset c h cause d3 hot
  rw [hfn]
  exact ⟨rfl, rfl, rfl, f_beginPfReset c h cause d3 hot⟩

/-- A PF that is ready, on a card that runs, takes a reset at once (R96, R97). -/
theorem askPfReset_of_ready {c : Card} {h : Nat} (hlive : c.live = true) (hphase : (c.fnOf (h + 1)).phase = .ready)
    (cause : Nat) (d3 hot : Bool) : c.askPfReset h cause d3 hot = c.beginPfReset h cause d3 hot := by
  simp [Card.askPfReset, hlive, hphase]

theorem becomes_pfFlr {c : Card} {h : Fin 4} (hlive : c.live = true) (hphase : (c.fnOf (h.val + 1)).phase = .ready) :
    Becomes (.pfFlr h) c (c.beginPfReset h.val 1 false false) :=
  becomes_of_eq (fun _ => rfl) (askPfReset_of_ready hlive hphase 1 false false)

theorem becomes_pfD3hotEntry {c : Card} {h : Fin 4} (hlive : c.live = true) (hphase : (c.fnOf (h.val + 1)).phase = .ready)
    (hd0 : (c.cfgOf (h.val + 1)).d3 = false) :
    Becomes (.pfD3hotEntry h) c
      ((c.setCfg (h.val + 1) { c.cfgOf (h.val + 1) with d3 := true }).beginPfReset h.val 3 true false) := by
  have henter : ¬((c.fnOf (h.val + 1)).phase = .off ∨ (c.cfgOf (h.val + 1)).d3 = true) := by simp [hphase, hd0]
  refine becomes_of_eq (fun q => ?_)
    (askPfReset_of_ready (c := c.setCfg (h.val + 1) { c.cfgOf (h.val + 1) with d3 := true }) hlive hphase 3 true false)
  change execPfD3hotEntry h _ = _
  rw [execPfD3hotEntry, run_next, if_neg henter]

/-! ### The reset of a VF -/

theorem draining_beginVfReset (c : Card) (h v : Nat) :
    ((c.beginVfReset h v).fnOf (vfNum h v)).phase = .draining ∧ (c.beginVfReset h v).f ((Space.vf h v).key 0) 31 30 = 1 := by
  unfold Card.beginVfReset
  rw [fnOf_setFn_self, f_setFn, f_setF_self (by decide) (by decide)]
  exact ⟨rfl, rfl⟩

theorem becomes_vfFlr {c : Card} {h : Fin 4} {v : Fin 8} (hlive : c.live = true) (hvf : c.vfExists h.val v.val = true)
    (hpf : (c.fnOf (h.val + 1)).phase = .ready) (hphase : (c.fnOf (vfNum h.val v.val)).phase = .ready) :
    Becomes (.vfFlr h v) c (c.beginVfReset h.val v.val) :=
  becomes_of_eq (fun _ => rfl) (show c.askVfReset h.val v.val = _ by simp [Card.askVfReset, hlive, hvf, hpf, hphase])

/-! ### Step 5 of the reset of a PF -/

@[simp] theorem fnOf_pfReadable (c : Card) (h : Nat) :
    (c.pfReadable h).fnOf (h + 1) = { c.fnOf (h + 1) with phase := .starting, gone := 0 } := fnOf_setFn_self _ _ _

@[simp] theorem cfgOf_pfReadable (c : Card) (h n : Nat) : (c.pfReadable h).cfgOf n = c.cfgOf n := by
  rw [Card.pfReadable, cfgOf_setFn, cfgOf_setF]

/-- LAST_FLUSHED shows the number flushed, cut to its field. -/
theorem f_pfReadable (c : Card) (h : Nat) : (c.pfReadable h).f (hp h 0) 8 0 = (c.fnOf (h + 1)).flushed % 512 := by
  unfold Card.pfReadable
  rw [f_setFn, f_setF_self (by decide) (by decide)]
  rfl

theorem becomes_flrDrainDone {c : Card} {h : Fin 4} (hlive : c.live = true)
    (hphase : (c.fnOf (h.val + 1)).phase = .draining) (hd0 : (c.fnOf (h.val + 1)).d3 = false) :
    Becomes (.flrDrainDone h none) c
      ((c.setCfg (h.val + 1) { d3 := (c.cfgOf (h.val + 1)).d3 }).pfReadable h.val) := by
  intro q
  change execFlrDrainDone h none _ = _
  simp [execFlrDrainDone, hlive, hphase, hd0]

theorem becomes_pfD3hotExit {c : Card} {h : Fin 4} (hd3 : (c.cfgOf (h.val + 1)).d3 = true)
    (hphase : (c.fnOf (h.val + 1)).phase = .held) :
    Becomes (.pfD3hotExit h) c
      (((c.setCfg (h.val + 1) { c.cfgOf (h.val + 1) with d3 := false }).setFn (h.val + 1)
        { c.fnOf (h.val + 1) with d3 := (c.fnOf (h.val + 1)).pend && (c.fnOf (h.val + 1)).d3, cause := 3 }).pfReadable
          h.val) := by
  intro q
  change execPfD3hotExit h _ = _
  simp [execPfD3hotExit, hd3, hphase]

/-- Settles O33, row by row. -/
theorem functionRowsComplete : Obligations.FunctionRowsComplete := by
  refine ⟨?bmeOff, ?bmeStopped, ?bmeLive, ?msix, ?numVfs, ?vfEnable, ?rings, ?sems, ?ctx, ?pfFlr, ?vfFlr, ?drained,
    ?d3Entry, ?d3Exit⟩
  case bmeOff => exact fun c fn hon => becomes_busMasterEnableWrite_false hon fn
  case bmeStopped =>
    intro c fn hon hstopped
    exact becomes_of_eq (becomes_busMasterEnableWrite_true hon rfl) (by simp [hstopped])
  case bmeLive =>
    intro c fn hon hlive
    exact becomes_of_eq (becomes_busMasterEnableWrite_true hon rfl) (by rw [if_pos hlive])
  case msix => exact fun c fn hon => becomes_msixMessageRelease hon fn
  case numVfs => exact fun c h n hon hexposed hoff hn => becomes_vfEnableWrite_false hon hexposed hoff hn
  case vfEnable => exact fun c h n hon hexposed hoff hari hn => becomes_vfEnableWrite_true hon hexposed hoff hn hari
  case rings => exact fun c h v x hreach hvf hok => becomes_vfResourceWrite (kind := .rings) hreach hvf hok
  case sems => exact fun c h v x hreach hvf hok => becomes_vfResourceWrite (kind := .sems) hreach hvf hok
  case ctx => exact fun c h v x hreach hvf hok => becomes_vfResourceWrite (kind := .ctx) hreach hvf hok
  case pfFlr =>
    intro c h hlive hphase
    obtain ⟨hdrain, hcause, -, hstate⟩ := draining_beginPfReset c h.val 1 false false
    exact ⟨_, becomes_pfFlr hlive hphase, hdrain, hcause, hstate⟩
  case vfFlr =>
    exact fun c h v hlive hvf hpf hphase => ⟨_, becomes_vfFlr hlive hvf hpf hphase, draining_beginVfReset c h.val v.val⟩
  case drained =>
    exact fun c h hlive hphase hd0 => ⟨_, becomes_flrDrainDone hlive hphase hd0, by rw [fnOf_pfReadable], f_pfReadable _ _⟩
  case d3Entry =>
    exact fun c h hlive hphase hd0 => ⟨_, becomes_pfD3hotEntry hlive hphase hd0, draining_beginPfReset _ h.val 3 true false⟩
  case d3Exit =>
    exact fun c h hd3 hphase => ⟨_, becomes_pfD3hotExit hd3 hphase, by rw [fnOf_pfReadable], by simp⟩

end Sys2Proof.Proofs
end

section
/-! Reads of host memory (R80, R102): a completion, a timeout, and the slot or list that a ring's front end has fetched. -/

namespace Sys2Proof.Proofs

open Sys2Proof Sys2Proof.Machine Sys2Proof.Laws

theorem becomes_fetchCompletionTimeout {c : Card} {x : HostRead} (hread : c.reads.find? (fun y => y.rid == x.rid) = some x)
    (hlive : c.live = true) (hcto : (c.cfgOf (pfOf x.fnNum)).ctoDis = false) (hdiscard : x.discard = false)
    (hdead : x.dead = false) :
    Becomes (.fetchCompletionTimeout x.rid) c
      (((({ c with reads := c.reads.map (fun y => if y.rid == x.rid then { y with dead := true } else y) } : Card).aerLog
        (pfOf x.fnNum) .completionTimeout (some c.freeN)).draw).fetchFailed x) := by
  intro q
  change execFetchCompletionTimeout x.rid _ = _
  rw [execFetchCompletionTimeout, run_next, hread]
  dsimp only
  rw [if_neg (by simp [hlive, hcto, hdiscard, hdead])]
  rfl

/-! ### Completions -/

/-- What a completion does on a card that is on, by what stands in its way (R80, R90, R436). -/
theorem becomes_hostReadCompletion {c : Card} (hon : c.on = true) (rid : Nat) (poisoned : Bool) (data : List Byte) :
    Becomes (.hostReadCompletion rid poisoned data) c
      (if !(c.reads.any (fun x => x.rid == rid)) then (c.aerLog 0 .unexpectedCompletion (some c.freeN)).draw
      else if !c.live then { c with cpls := c.cpls ++ [⟨rid, poisoned, data⟩] } else c.completion rid poisoned data) := by
  intro q
  change execHostReadCompletion rid poisoned data _ = _
  rw [execHostReadCompletion, run_next, if_neg (by simp [hon])]

/-! ### The slot or list fetched -/

/-- The list of a slot lies in card memory and is no longer than a list may be (R102). -/
def listInCard (b : List Byte) : Bool := leAt b 0 1 == 3 && decide (leAt b 0x10 4 ≤ 65536)

/-- The list of a slot lies in host memory, or pages of it do. -/
def listNeedsHost (c : Card) (h : Nat) (b : List Byte) : Prop :=
  leAt b 0 1 = 2 ∨ (listInCard b = true ∧ !(c.cardNeeds h (leAt b 4 2 % 4096) (leAt b 8 8) (leAt b 0x10 4)).isEmpty)

/-- A slot whose list waits neither for Bus Master Enable (R98) nor for bytes that are held (R193) is decoded. -/
theorem becomes_commandFetchDone_slot {c : Card} {h : Fin 4} {r : Fin 16} {b : List Byte} (hlive : c.live = true)
    (hslot : (c.ring h.val r.val).fetch = .slotData b)
    (hbme : ¬(listNeedsHost c h.val b ∧ c.ringBme h.val r.val = false))
    (hheld : ¬(listInCard b && c.heldVa h.val (leAt b 4 2 % 4096) false (leAt b 8 8) (16 * leAt b 0x10 4)) = true) :
    Becomes (.commandFetchDone h r) c (((c.setRing h.val r.val
      { c.ring h.val r.val with fetch := .idle }).decodeSlot h.val r.val b).pump h.val r.val) := by
  intro q
  change execCommandFetchDone h r _ = _
  rw [execCommandFetchDone, run_next]
  dsimp only
  rw [if_neg (by simp [hlive]), hslot]
  exact congrArg (fun d => Host.Outcome.next (State.mk q d)) ((if_neg hbme).trans (if_neg hheld))

theorem becomes_commandFetchDone_list {c : Card} {h : Fin 4} {r : Fin 16} {ctx units addr : Nat} {card : Bool}
    {got : List HostBytes} (hlive : c.live = true) (hlist : (c.ring h.val r.val).fetch = .listData ctx units addr card got)
    (hheld : (card && c.heldVa h.val ctx false addr (16 * units)) = false) :
    Becomes (.commandFetchDone h r) c (((c.setRing h.val r.val
      { c.ring h.val r.val with fetch := .idle }).decodeArrived h.val r.val ctx units addr card got).pump h.val r.val) := by
  intro q
  change execCommandFetchDone h r _ = _
  rw [execCommandFetchDone, run_next]
  dsimp only
  rw [if_neg (by simp [hlive]), hlist]
  dsimp only
  rw [if_neg (by simp [hheld])]

/-- Settles O36, row by row. -/
theorem hostReadRowsComplete : Obligations.HostReadRowsComplete := by
  refine ⟨?timeout, ?completion, ?kept, ?unexpected, ?slot, ?cardSlot, ?list⟩
  case timeout =>
    exact fun c x hread hlive hcto hdiscard hdead => becomes_fetchCompletionTimeout hread hlive hcto hdiscard hdead
  case completion =>
    intro c rid poisoned data hon hlive hread
    exact becomes_of_eq (becomes_hostReadCompletion hon rid poisoned data) (by simp [hlive, hread])
  case kept =>
    intro c rid poisoned data hon hstopped hread
    exact becomes_of_eq (becomes_hostReadCompletion hon rid poisoned data) (by simp [hstopped, hread])
  case unexpected =>
    intro c rid poisoned data hon hread
    exact becomes_of_eq (becomes_hostReadCompletion hon rid poisoned data) (by simp [hread])
  case slot =>
    intro c h r b hlive hslot hform hhost
    have hcard : listInCard b = false := by simp [listInCard, hform]
    exact becomes_commandFetchDone_slot hlive hslot (by simpa [listNeedsHost, hcard] using hhost) (by simp [hcard])
  case cardSlot =>
    intro c h r b hlive hslot hform hunits hheld hneeds
    refine becomes_commandFetchDone_slot hlive hslot ?_ (by simp [hheld])
    rcases hneeds with hnone | hbme
    · simp [listNeedsHost, hform, hnone]
    · simp [hbme]
  case list => exact fun c h r ctx units addr card got hlive hlist hheld => becomes_commandFetchDone_list hlive hlist hheld

end Sys2Proof.Proofs
end

section
/-! Rings, their front ends and semaphores (R87, R105, R106, R110, R119 to R125, R133): the card that each command leaves. -/

namespace Sys2Proof.Proofs

open Sys2Proof Sys2Proof.Machine Sys2Proof.Laws

/-! ### Host writes of a ring's page by the function that owns it -/

section
variable {c : Card} {fn : Fn} {r : Fin 16} {v : Word} {h : Nat} (hown : c.ownsRing fn r.val = some h)
include hown

/-- A doorbell is held behind the function's held accesses, or rings at once (R144). -/
theorem becomes_doorbell (hreach : c.reaches fn (0x10000 + 0x1000 * r.val) = true) :
    Becomes (.doorbell fn r v) c (if c.heldAcc.any (fun x => x.before fn.num) then
      { c with heldAcc := c.heldAcc ++ [{ fnNum := fn.num, hamper := h, region := 0, off := 0, len := 0, wdata := some [],
                                          bell := some (r.val, v.toNat) }] }
      else c.ringBell h r.val v.toNat) := by
  intro q
  change execDoorbell fn r v _ = _
  rw [execDoorbell, run_next, hostWrite_of_reaches hreach, hown]

theorem becomes_ringEnable (hreach : c.reaches fn (0x10008 + 0x1000 * r.val) = true) (hoff : c.ringOn h r.val = false)
    (hclass : (c.writeReg (ringReg h r.val 8) v).ringClass h r.val ≠ 0)
    (hdrain : ((c.writeReg (ringReg h r.val 8) v).ring h r.val).draining = false) :
    Becomes (.ringEnable fn r v) c ((c.writeReg (ringReg h r.val 8) v).ringStart h r.val) := by
  intro q
  change execRingEnable fn r v _ = _
  rw [execRingEnable, run_next, hostWrite_of_reaches hreach, hown]
  dsimp only
  rw [if_neg (by simp [hoff, hclass]), if_neg (by simp [hdrain])]

/-- A completion head at the position frees every entry: the message is re-armed, and none is due (R121). -/
theorem becomes_completionHeadWrite (hreach : c.reaches fn (0x10018 + 0x1000 * r.val) = true)
    (hpos : (c.ring h r.val).pos = v.toNat) :
    Becomes (.completionHeadWrite fn r v) c (((c.setReg (ringReg h r.val 0x18) v).setRing h r.val
      { c.ring h r.val with msgOut := false }).pump h r.val) := by
  have hdist : diff32 (c.ring h r.val).pos v.toNat = 0 := by
    rw [hpos, diff32]
    omega
  intro q
  change execCompletionHeadWrite fn r v _ = _
  rw [execCompletionHeadWrite, run_next, hostWrite_of_reaches hreach, hown]
  dsimp only
  rw [if_neg (by simp [hdist]), if_neg (by simp [hpos])]

end

/-- A doorbell of a ring that runs, no further ahead than the ring is long, advances the producer index (R101, R120). -/
theorem ringBell_of_fits {c : Card} {h r prod : Nat} (hon : c.ringOn h r = true) (hdrain : (c.ring h r).draining = false)
    (hfits : diff32 prod (c.ring h r).cons ≤ 2 ^ c.f (ringReg h r 8) 20 16) :
    c.ringBell h r prod = (c.setRing h r { c.ring h r with prod := prod }).pump h r := by
  rw [Card.ringBell, if_neg (by simp [hon, hdrain]), if_neg (by omega)]

/-! ### RING_DISABLE and the end of draining -/

/-- What disabling a ring leaves of it (R119): commands not yet dispatched are abandoned, and it drains while others remain. -/
def stoppedRing (g : Ring) : Ring :=
  { g with q := g.q.filter (fun o => o.phase != .waiting), fetch := .idle, stopped := false,
           draining := !(g.q.filter (fun o => o.phase != .waiting)).isEmpty }

theorem stoppedRing_none_waits (g : Ring) : (stoppedRing g).q.all (fun o => o.phase != .waiting) = true :=
  List.all_eq_true.mpr fun _ ho => (List.mem_filter.mp ho).2

/-- A ring disabled, once the fields of its CTL are written. -/
def disableRing (c : Card) (h r : Nat) : Card :=
  ((c.setBit (ringReg h r 8) 31 false).discardFetch h r).setRing h r (stoppedRing (c.ring h r))

theorem ring_disableRing (c : Card) (h r : Nat) : (disableRing c h r).ring h r = stoppedRing (c.ring h r) := by
  rw [disableRing, ring_setRing_self]

theorem ringOn_disableRing (c : Card) (h r : Nat) : (disableRing c h r).ringOn h r = false := by
  rw [disableRing, ringOn_setRing, Card.ringOn, bit_discardFetch, bit_setBit_self (by decide)]

theorem becomes_ringDisable {c : Card} {fn : Fn} {r : Fin 16} {v : Word} {h : Nat}
    (hreach : c.reaches fn (0x10008 + 0x1000 * r.val) = true) (hown : c.ownsRing fn r.val = some h)
    (hon : c.ringOn h r.val = true) :
    Becomes (.ringDisable fn r v) c (disableRing (c.writeReg (ringReg h r.val 8) v) h r.val) := by
  intro q
  change execRingDisable fn r v _ = _
  rw [execRingDisable, run_next, hostWrite_of_reaches hreach, hown]
  dsimp only
  rw [if_neg (by simp [hon]), ring_discardFetch, ring_setBit, disableRing, stoppedRing]

/-- Once a ring has drained it is disabled, or starts again if it has been enabled since (R119). -/
theorem becomes_ringDrainDone {c : Card} {h : Fin 4} {r : Fin 16} (hlive : c.live = true)
    (hdrain : (c.ring h.val r.val).draining = true) (hempty : (c.ring h.val r.val).q = []) {d : Card}
    (hd : d = c.setRing h.val r.val { c.ring h.val r.val with draining := false }) :
    Becomes (.ringDrainDone h r) c (if c.ringOn h.val r.val then d.ringStart h.val r.val else d) := by
  subst hd
  intro q
  change execRingDrainDone h r _ = _
  rw [execRingDrainDone, run_next]
  dsimp only
  rw [if_neg (by simp [hlive, hdrain, hempty]), ringOn_setRing]

/-! ### Reports held and semaphores -/

theorem becomes_flushHeldDiscard {c : Card} {h : Fin 4} (hreach : c.reaches (.pf h) 0xC = true) (mask : Word) :
    Becomes (.flushHeldDiscard (.pf h) mask) c
      ((maskList mask.toNat 16).foldl (fun d r => d.setRing h.val r { d.ring h.val r with flushed := [] }) c) := by
  intro q
  change execFlushHeldDiscard (.pf h) mask _ = _
  rw [execFlushHeldDiscard, run_next, hostWrite_of_reaches hreach]

/-- The index of a semaphore, back from the number of its register. -/
theorem semIndex_of_key (h idx : Nat) : (hp h (0x20000 + 8 * idx) - hp h 0x20000) / 8 = idx := by
  simp only [hp, Space.key]
  omega

theorem becomes_semaphoreHostWrite {c : Card} {h : Fin 4} {idx : Nat} (hreach : c.reaches (.pf h) 0x20000 = true)
    (hidx : idx < 4096) (htarget : c.target (.pf h) (0x20000 + 8 * idx) = some (hp h.val (0x20000 + 8 * idx))) (v : Word) :
    Becomes (.semaphoreHostWrite (.pf h) idx v) c ((c.dropHold (hp h.val (0x20000 + 8 * idx))).semApply
      (4096 * h.val + idx) 0 ((c.loFor (hp h.val (0x20000 + 8 * idx))).toNat + 2 ^ 32 * v.toNat)) := by
  intro q
  change execSemaphoreHostWrite (.pf h) idx v _ = _
  rw [execSemaphoreHostWrite, run_next, hostWrite_of_reaches hreach, htarget]
  dsimp only
  rw [if_pos ⟨hidx, rfl⟩]
  dsimp only [Fn.hamper, Option.getD_some]
  rw [semIndex_of_key]

/-! ### Waits -/

section
variable {c : Card} {h : Fin 4} {r : Fin 16} {o : Op}
  (hhead : (c.ring h.val r.val).q.find? (fun x => x.phase == .waiting) = some o) (hlive : c.live = true)
include hhead hlive

/-- A front-end command whose waits hold, and for which there is room, is accepted (R105, R111). -/
theorem becomes_waitSatisfied_front (hon : c.ringOn h.val r.val = true) (hgoes : (c.ring h.val r.val).stopped = false)
    (hok : o.waitOk = true) (hwaits : o.waits.all (fun w => decide (w.val ≤ c.sem w.sem)) = true)
    (hroom : c.roomFor h.val r.val = true) (hfront : o.front = true) :
    Becomes (.waitSatisfied h r) c ((c.acceptOp h.val r.val o).pump h.val r.val) := by
  intro q
  change execWaitSatisfied h r _ = _
  rw [execWaitSatisfied, run_next]
  dsimp only
  rw [hhead]
  dsimp only
  rw [if_neg (by simp [hlive, hon, hgoes, hok, hwaits, hroom]), if_pos hfront]

/-- A wait that does not hold when its time is over is told and cancels its command (R110). -/
theorem becomes_waitTimeout {t : Nat} (hat : o.headAt = some t) (hlimit : (c.reg (ringReg h.val r.val 0xC)).toNat ≠ 0)
    (hwaits : o.waits.all (fun w => decide (w.val ≤ c.sem w.sem)) = false) :
    Becomes (.waitTimeout h r) c ((((c.advanceTo (t + (c.reg (ringReg h.val r.val 0xC)).toNat * 1000)).setBit
      (hp h.val 0x28010) r.val true).raise (h.val + 1) 17).endOp h.val r.val o stCancelled 0x20 0) := by
  intro q
  change execWaitTimeout h r _ = _
  rw [execWaitTimeout, run_next]
  dsimp only
  rw [hhead]
  dsimp only
  rw [hat]
  dsimp only
  rw [if_neg (by simp [hlive, hlimit, hwaits])]

end

/-! ### Front-end commands -/

section
variable {c : Card} {h : Fin 4} {r : Fin 16} {o : Op} (hlive : c.live = true)
include hlive

theorem becomes_frontNop (hop : c.frontOp h.val r.val 0 = some o) :
    Becomes (.frontNop h r) c (c.endOp h.val r.val o stDone 0 0) := by
  intro q
  change execFrontNop h r _ = _
  rw [execFrontNop, run_next, hop]
  dsimp only
  rw [if_pos hlive]

theorem becomes_frontBarrier (hop : c.frontOp h.val r.val 1 = some o)
    (hbefore : ((c.ring h.val r.val).q.takeWhile (fun x => !(x.seq == o.seq && x.gen == o.gen))).all
      (fun x => x.phase == .retired) = true) :
    Becomes (.frontBarrier h r) c (c.endOp h.val r.val o stDone 0 0) := by
  intro q
  change execFrontBarrier h r _ = _
  rw [execFrontBarrier, run_next, hop]
  dsimp only
  rw [if_pos (by simp only [hlive, hbefore, Bool.and_self])]

theorem becomes_frontStamp (hop : c.frontOp h.val r.val 2 = some o) :
    Becomes (.frontStamp h r) c
      (c.endOp h.val r.val { o with tag := o.tag % 65536 + nbits c.ns 31 16 * 65536 } stDone 0 (c.ns % 65536)) := by
  intro q
  change execFrontStamp h r _ = _
  rw [execFrontStamp, run_next, hop]
  dsimp only
  rw [if_pos hlive]

end

/-! ### Retirement -/

/-- An operation that has run has no steps left to come to. -/
theorem lastSteps_of_ran {o : Op} (hran : o.phase = .ran) (c : Card) (h r : Nat) (bad : Bool) : c.lastSteps h r o bad = c := by
  rw [Card.lastSteps, if_pos (by simp [Op.stepping, hran])]

theorem awaited_nil (c : Card) : c.awaited [] = [] := by
  simp [Card.awaited]

/-- Without records, and not of the whisk, an operation that has run retires with its own outcome (R125). -/
theorem retireRan_of_plain {o : Op} (hrecords : o.records = []) (hcls : o.cls ≠ 4) (c : Card) (h r : Nat) :
    c.retireRan h r o = (c.draw.draw.setOp h r
      { c.draw.draw.retireOp h { o with await := [] } with phase := .retired }).pump h r := by
  simp [Card.retireRan, hrecords, hcls]

theorem becomes_operationRetire {c : Card} {h : Fin 4} {r : Fin 16} {seq : Nat} {o : Op}
    (hop : c.opOf h.val r.val seq = some o) (hlive : c.live = true) (hran : o.phase = .ran) (hheld : o.held = false)
    (hretry : o.retryOn = none) (hawait : o.await = [])
    (hremote : c.remotes.any (fun y => y.hamper == h.val && y.ring == r.val && y.seq == seq && y.gen == o.gen) = false) :
    Becomes (.operationRetire h r seq []) c (c.retireRan h.val r.val o) := by
  intro q
  change execOperationRetire h r seq [] _ = _
  rw [execOperationRetire, run_next]
  dsimp only
  rw [hop]
  dsimp only
  rw [if_neg (by simp [hlive, hremote]), lastSteps_of_ran hran, hop]
  simp [hran, hheld, hretry, hawait, awaited_nil, Card.memErrs, Card.failData]

/-- Settles O37, row by row. -/
theorem ringRowsComplete : Obligations.RingRowsComplete := by
  refine ⟨?doorbell, ?doorbellHeld, ?enable, ?disable, ?drained, ?drainedOn, ?head, ?flush, ?semaphore, ?satisfied, ?timeout,
    ?nop, ?barrier, ?stamp, ?retire⟩
  case doorbell =>
    intro c fn r v h hreach hown hon hdrain hfits hfree
    exact becomes_of_eq (becomes_doorbell hown hreach)
      ((if_neg (by simp [hfree])).trans (ringBell_of_fits hon hdrain hfits))
  case doorbellHeld =>
    exact fun c fn r v h hreach hown hheld => becomes_of_eq (becomes_doorbell hown hreach) (if_pos hheld)
  case enable =>
    exact fun c fn r v h hreach hown hoff hclass hdrain => becomes_ringEnable hown hreach hoff hclass hdrain
  case disable =>
    intro c fn r v h hreach hown hon
    refine ⟨_, becomes_ringDisable hreach hown hon, ringOn_disableRing _ _ _, ?_⟩
    rw [ring_disableRing]
    exact ⟨stoppedRing_none_waits _, rfl, rfl⟩
  case drained =>
    intro c h r hlive hdrain hempty hoff
    exact becomes_of_eq (becomes_ringDrainDone hlive hdrain hempty rfl) (if_neg (by simp [hoff]))
  case drainedOn =>
    intro c h r hlive hdrain hempty hon
    exact becomes_of_eq (becomes_ringDrainDone hlive hdrain hempty rfl) (if_pos hon)
  case head => exact fun c fn r v h hreach hown hpos => becomes_completionHeadWrite hown hreach hpos
  case flush => exact fun c h mask hreach => becomes_flushHeldDiscard hreach mask
  case semaphore => exact fun c h idx v hreach hidx htarget => becomes_semaphoreHostWrite hreach hidx htarget v
  case satisfied =>
    exact fun c h r o hhead hlive hon hgoes hok hwaits hroom hfront =>
      becomes_waitSatisfied_front hhead hlive hon hgoes hok hwaits hroom hfront
  case timeout =>
    exact fun c h r o t hhead hat hlive hlimit hwaits => becomes_waitTimeout hhead hlive hat hlimit hwaits
  case nop => exact fun c h r o hop hlive => becomes_frontNop hlive hop
  case barrier => exact fun c h r o hop hlive hbefore => becomes_frontBarrier hlive hop hbefore
  case stamp => exact fun c h r o hop hlive => becomes_frontStamp hlive hop
  case retire =>
    intro c h r seq o hop hlive hran hheld hretry hrecords hawait hcls hremote
    exact becomes_of_eq (becomes_operationRetire hop hlive hran hheld hretry hawait hremote)
      (retireRan_of_plain hrecords hcls c h.val r.val)

end Sys2Proof.Proofs
end

section
/-! Commands whose meaning is an effect on the card, and among them those of engines (R111), which do the work of their
operation. -/

namespace Sys2Proof.Proofs

open Sys2Proof Sys2Proof.Machine Sys2Proof.Laws

/-- A command whose meaning is an effect on the card leaves that effect. -/
theorem becomes_of_run {i : Instr} {f : Card → Card} {c d : Card} (hi : ∀ s, exec i s = s.run f) (hd : f c = d) :
    Becomes i c d := by
  subst hd
  intro q
  rw [hi, run_next]

theorem completes_of_run {i : Instr} {f : Card → Card} {c : Card} {P : Card → Prop} (hi : ∀ s, exec i s = s.run f)
    (hP : P (f c)) : Completes i c P := ⟨f c, becomes_of_run hi rfl, hP⟩

/-- A command whose meaning is an engine's applies the end of that engine's work. -/
theorem works_of_engine {i : Instr} {h r seq cls opc : Nat} {work : Eng Unit}
    (hi : ∀ s, exec i s = s.run fun c => c.engine h r seq cls opc work) : Works i h r seq cls opc work := by
  intro c c0 o z htaken hruns
  exact becomes_of_run hi (engine_of_runs htaken hruns)

/-- Settles O4: the meaning of each of these commands is the engine of its class at the work of its opcode. -/
theorem engineRowsApplyTheirWork : Obligations.EngineRowsApplyTheirWork := by
  intro h r seq order starts
  repeat' apply And.intro
  all_goals exact works_of_engine fun _ => rfl

end Sys2Proof.Proofs
end

section
/-! Semaphores (R107, R130): signals are applied one by one, and a host write is a SET_MAX. -/

namespace Sys2Proof.Proofs

open Sys2Proof Sys2Proof.Machine Sys2Proof.Laws

@[simp] theorem sem_bump (c : Card) (k n j : Nat) : (c.bump k n).sem j = c.sem j := rfl

/-- SET_MAX leaves the larger of the value and VALUE. -/
theorem sem_semApply_setMax (c : Card) (g a : Nat) : (c.semApply g 0 a).sem g = max (c.sem g) a := by
  unfold Card.semApply
  rw [if_pos rfl]
  split
  case isTrue hraised => exact (tabGet_put_self _ _ _ _).trans (max_eq_right hraised.le).symm
  case isFalse hstale => rw [sem_bump, max_eq_left (not_lt.mp hstale)]

/-- ADD saturates at the largest 64-bit value. -/
theorem sem_semApply_add (c : Card) (g a : Nat) : (c.semApply g 1 a).sem g = min (2 ^ 64 - 1) (c.sem g + a) := by
  unfold Card.semApply
  rw [if_neg one_ne_zero]
  exact tabGet_put_self _ _ _ _

theorem sem_semApply_ne {g j : Nat} (hj : j ≠ g) (c : Card) (op a : Nat) : (c.semApply g op a).sem j = c.sem j := by
  unfold Card.semApply
  extract_lets
  split
  · split
    · exact tabGet_put_ne _ _ hj
    · rw [sem_bump]
  · exact tabGet_put_ne _ _ hj

/-- Every semaphore of the window has its register. -/
theorem target_semaphore {idx : Nat} (hidx : idx < 4096) (c : Card) (h : Fin 4) :
    c.target (.pf h) (0x20000 + 8 * idx) = some (hp h.val (0x20000 + 8 * idx)) := if_pos (by omega)

/-- Settles O19: each signal acts on the value that the one before has left, and the larger of values does not depend on
their order. -/
theorem signalsAreAppliedOneByOne : Obligations.SignalsAreAppliedOneByOne := by
  intro c g a b
  have hfirst : ((c.semApply g 0 a).semApply g 0 b).sem g = max (max (c.sem g) a) b := by
    rw [sem_semApply_setMax, sem_semApply_setMax]
  have hsecond : ((c.semApply g 0 b).semApply g 0 a).sem g = max (max (c.sem g) b) a := by
    rw [sem_semApply_setMax, sem_semApply_setMax]
  refine ⟨sem_semApply_setMax c g a, sem_semApply_add c g a, fun op j hj => sem_semApply_ne hj c op a, hfirst, ?order, ?host⟩
  case order => rw [hfirst, hsecond, max_right_comm]
  case host =>
    exact fun h idx v hreach hidx =>
      ⟨_, becomes_semaphoreHostWrite hreach hidx (target_semaphore hidx c h) v, sem_semApply_setMax _ _ _⟩

end Sys2Proof.Proofs
end

section
/-! Writes of a ring's page while the ring is not DISABLED (R119). -/

namespace Sys2Proof.Proofs

open Sys2Proof Sys2Proof.Machine Sys2Proof.Laws

/-! ### Fields that a write leaves -/

/-- A field reads the same after a write that changes only fields that share no bit with it. -/
theorem fld_writeFlds_of_held {locked : Lock → Bool} {hi lo : Nat} (v : Word) {fs : List Fld} (old : Word)
    (hheld : ∀ g ∈ fs, g.lo ≤ g.hi ∧ g.hi < 32 ∧
      (g.acc = .own ∨ g.acc = .rw ∧ (locked g.lock = true ∨ hi < g.lo ∨ g.hi < lo))) :
    fld (writeFlds locked fs old v) hi lo = fld old hi lo := by
  induction fs generalizing old with
  | nil => rfl
  | cons g fs ih =>
    obtain ⟨hle, hlt, hg⟩ := hheld g List.mem_cons_self
    refine (ih _ fun x hx => hheld x (List.mem_cons_of_mem _ hx)).trans ?_
    rcases hg with hown | ⟨hrw, hlocked | hapart⟩
    · simp [hown]
    · simp [hrw, hlocked]
    · simp only [hrw]
      split
      · rfl
      · exact fld_ins_ne _ _ _ _ _ _ hle hlt hapart

/-! ### The registers of a ring's page -/

theorem keySpace_hp {h off : Nat} (hh : h < 4) (hoff : off < 0x100000) : keySpace (hp h off) = (.hp h, off) := by
  have hlow : ¬0x100000 * (h + 1) + off < 0x100000 := by omega
  have hhigh : 0x100000 * (h + 1) + off < 0x500000 := by omega
  have hdiv : (0x100000 * (h + 1) + off) / 0x100000 - 1 = h := by omega
  have hmod : (0x100000 * (h + 1) + off) % 0x100000 = off := by omega
  simp only [hp, Space.key, keySpace, hlow, hhigh, hdiv, hmod, if_false, if_true]

theorem hp_ne_mg {n : Nat} (hn : n < 0x100000) (h off : Nat) : hp h off ≠ mg n := by
  simp only [hp, mg, Space.key]
  omega

/-- A host write of a register of a hamper PF writes the register's fields and nothing else. -/
theorem writeReg_of_hp {k h off : Nat} {p : Reg × List Nat} (hspace : keySpace k = (.hp h, off)) (hne : ∀ n < 0x100000, k ≠ mg n)
    (hheights : off ≠ 0x80010) (hfind : findReg hpRegs off = some p) (c : Card) (v : Word) :
    c.writeReg k v = c.setReg k (writeFlds (c.locked (.hp h) off) p.1.flds (c.reg k) v) := by
  simp [Card.writeReg, hspace, Space.regs, hfind, hheights, hne, wholeOk]
  rfl

/-- The same of a register of a ring's page. -/
theorem writeReg_ring {h r off : Nat} {p : Reg × List Nat} (hh : h < 4) (hr : r < 16) (hoff : off < 0x1000)
    (hfind : findReg hpRegs (0x10000 + 0x1000 * r + off) = some p) (c : Card) (v : Word) :
    c.writeReg (ringReg h r off) v = c.setReg (ringReg h r off)
      (writeFlds (c.locked (.hp h) (0x10000 + 0x1000 * r + off)) p.1.flds (c.reg (ringReg h r off)) v) :=
  writeReg_of_hp (keySpace_hp hh (by omega)) (fun _ hn => hp_ne_mg hn h _) (by omega) hfind c v

/-- The fields at bits `hi` to `lo` are ones that only a DISABLED ring lets change. -/
def heldWhileOn (fs : List Fld) (hi lo : Nat) : Bool :=
  fs.all fun g => decide (g.lo ≤ g.hi) && decide (g.hi < 32) &&
    (g.acc == .own || g.acc == .rw && (g.lock == .ringOff || decide (hi < g.lo) || decide (g.hi < lo)))

/-- BASE, CPL and TIMEOUT_US fill their registers. -/
theorem ringWords_held : ∀ r : Fin 16, ∀ off ∈ [0, 4, 0xC, 0x10, 0x14],
    (findReg hpRegs (0x10000 + 0x1000 * r.val + off)).any (fun p => heldWhileOn p.1.flds 31 0) = true := by decide

theorem ctlFields_held : ∀ r : Fin 16, ∀ f ∈ [(30, 30), (25, 21), (20, 16), (8, 0)],
    (findReg hpRegs (0x10000 + 0x1000 * r.val + 8)).any (fun p => heldWhileOn p.1.flds f.1 f.2) = true := by decide

section
variable {c : Card} {h : Fin 4} {r : Fin 16} (v : Word)

theorem locked_ringOff {off : Nat} (hoff : off < 0x1000) (hstate : c.ringState h.val r.val ≠ 0) :
    c.locked (.hp h.val) (0x10000 + 0x1000 * r.val + off) .ringOff = true := by
  have hring : (0x10000 + 0x1000 * r.val + off - 0x10000) / 0x1000 = r.val := by omega
  simp [Card.locked, hring, hstate]

/-- A write of a ring's page while the ring is not DISABLED leaves such a field. -/
theorem f_writeReg_ring_of_held {off hi lo : Nat} (hoff : off < 0x1000) (hstate : c.ringState h.val r.val ≠ 0)
    (hheld : (findReg hpRegs (0x10000 + 0x1000 * r.val + off)).any (fun p => heldWhileOn p.1.flds hi lo) = true) :
    (c.writeReg (ringReg h.val r.val off) v).f (ringReg h.val r.val off) hi lo = c.f (ringReg h.val r.val off) hi lo := by
  obtain ⟨p, hfind, hflds⟩ := (Option.any_eq_true _ _).mp hheld
  rw [writeReg_ring h.isLt r.isLt hoff hfind, Card.f, reg_setReg_self]
  refine fld_writeFlds_of_held v _ fun g hg => ?_
  have hfld := List.all_eq_true.mp hflds g hg
  simp only [Bool.and_eq_true, Bool.or_eq_true, decide_eq_true_eq, beq_iff_eq] at hfld
  obtain ⟨⟨hle, hlt⟩, hown | ⟨hrw, (hlock | hapart) | hapart⟩⟩ := hfld
  · exact ⟨hle, hlt, .inl hown⟩
  · exact ⟨hle, hlt, .inr ⟨hrw, .inl (hlock ▸ locked_ringOff hoff hstate)⟩⟩
  · exact ⟨hle, hlt, .inr ⟨hrw, .inr (.inl hapart)⟩⟩
  · exact ⟨hle, hlt, .inr ⟨hrw, .inr (.inr hapart)⟩⟩

@[simp] theorem ring_setReg (c : Card) (k : Nat) (w : Word) (h r : Nat) : (c.setReg k w).ring h r = c.ring h r := rfl

/-- BASE, CPL and TIMEOUT_US of a ring that is not DISABLED stand, and so does every other register. -/
theorem reg_writeReg_ringWord (hstate : c.ringState h.val r.val ≠ 0) {off : Nat} (hoff : off ∈ [0, 4, 0xC, 0x10, 0x14])
    (k : Nat) : (c.writeReg (ringReg h.val r.val off) v).reg k = c.reg k := by
  have hpage : off < 0x1000 := by
    revert off
    decide
  have hheld := ringWords_held r off hoff
  by_cases hk : k = ringReg h.val r.val off
  · subst hk
    apply BitVec.eq_of_toNat_eq
    rw [← fld_whole, ← fld_whole]
    exact f_writeReg_ring_of_held v hpage hstate hheld
  · obtain ⟨p, hfind, -⟩ := (Option.any_eq_true _ _).mp hheld
    rw [writeReg_ring h.isLt r.isLt hpage hfind, reg_setReg_ne hk]

theorem f_writeReg_ringCtl (hstate : c.ringState h.val r.val ≠ 0) {f : Nat × Nat}
    (hf : f ∈ [(30, 30), (25, 21), (20, 16), (8, 0)]) :
    (c.writeReg (ringReg h.val r.val 8) v).f (ringReg h.val r.val 8) f.1 f.2 = c.f (ringReg h.val r.val 8) f.1 f.2 :=
  f_writeReg_ring_of_held v (by decide) hstate (ctlFields_held r f hf)

theorem ring_writeReg_ringCtl : (c.writeReg (ringReg h.val r.val 8) v).ring h.val r.val = c.ring h.val r.val := by
  obtain ⟨p, hfind, -⟩ := (Option.any_eq_true _ _).mp (ctlFields_held r (30, 30) (by decide))
  rw [writeReg_ring h.isLt r.isLt (by decide) hfind, ring_setReg]

/-- ENABLE shares no bit with the fields that stand. -/
theorem f_setEnable {d : Card} {k : Nat} {b : Bool} {f : Nat × Nat} (hf : f ∈ [(30, 30), (25, 21), (20, 16), (8, 0)]) :
    (d.setBit k 31 b).f k f.1 f.2 = d.f k f.1 f.2 := by
  have hbelow : f.1 < 31 := by
    revert f
    decide
  exact f_setF_disjoint le_rfl (by decide) (.inl hbelow)

/-! ### RING_ENABLE and RING_DISABLE -/

theorem ownsRing_pf (hvf : c.ringVf h.val r.val = none) : c.ownsRing (.pf h) r.val = some h.val := if_pos (by simp [hvf])

theorem ringCtl_eq (h r : Nat) : hp h (0x10008 + 0x1000 * r) = ringReg h r 8 := by
  simp only [ringReg, hp, Space.key]
  omega

/-- A ring whose ENABLE is 0 is DISABLED unless it drains (R118). -/
theorem draining_of_ringState (hstate : c.ringState h.val r.val ≠ 0) (hoff : c.ringOn h.val r.val = false) :
    (c.ring h.val r.val).draining = true := by
  by_contra hdrain
  have henable : c.bit (hp h.val (0x10008 + 0x1000 * r.val)) 31 = false := by
    rw [ringCtl_eq]
    exact hoff
  exact hstate (by simp [Card.ringState, hdrain, henable])

/-- RING_ENABLE of a ring that is not DISABLED writes CTL, and sets ENABLE at most: a ring that drains starts later. -/
theorem becomes_ringEnable_of_not_disabled (hstate : c.ringState h.val r.val ≠ 0) (hown : c.ownsRing (.pf h) r.val = some h.val)
    (hreach : c.reaches (.pf h) (0x10008 + 0x1000 * r.val) = true) {d : Card}
    (hd : d = c.writeReg (ringReg h.val r.val 8) v) :
    Becomes (.ringEnable (.pf h) r v) c
      (if c.ringOn h.val r.val || d.ringClass h.val r.val == 0 then d else d.setBit (ringReg h.val r.val 8) 31 true) := by
  refine becomes_of_run (execRingEnable.eq_def (.pf h) r v) ?_
  rw [hostWrite_of_reaches hreach, hown]
  dsimp only
  rw [← hd]
  cases hon : c.ringOn h.val r.val with
  | true => rw [if_pos (by simp), if_pos (by simp)]
  | false =>
    have hdrain : (d.ring h.val r.val).draining = true := by
      rw [hd, ring_writeReg_ringCtl, draining_of_ringState hstate hon]
    rw [if_pos hdrain]

theorem becomes_ringDisable_of_off (hoff : c.ringOn h.val r.val = false) (hown : c.ownsRing (.pf h) r.val = some h.val)
    (hreach : c.reaches (.pf h) (0x10008 + 0x1000 * r.val) = true) :
    Becomes (.ringDisable (.pf h) r v) c (c.writeReg (ringReg h.val r.val 8) v) := by
  refine becomes_of_run (execRingDisable.eq_def (.pf h) r v) ?_
  rw [hostWrite_of_reaches hreach, hown]
  dsimp only
  rw [if_pos (by simp [hoff])]

@[simp] theorem f_discardFetch (c : Card) (h r k hi lo : Nat) : (c.discardFetch h r).f k hi lo = c.f k hi lo := rfl
@[simp] theorem f_setRing (c : Card) (h r : Nat) (g : Ring) (k hi lo : Nat) : (c.setRing h r g).f k hi lo = c.f k hi lo := rfl

theorem f_disableRing {d : Card} {f : Nat × Nat} (hf : f ∈ [(30, 30), (25, 21), (20, 16), (8, 0)]) :
    (disableRing d h.val r.val).f (ringReg h.val r.val 8) f.1 f.2 = d.f (ringReg h.val r.val 8) f.1 f.2 := by
  unfold disableRing
  rw [f_setRing, f_discardFetch, f_setEnable hf]

end

/-- Settles O20: the fields that the write finds locked stand, and what the commands do beyond the write touches ENABLE alone
of the ring's page. -/
theorem ringFieldsChangeOnlyWhileDisabled : Obligations.RingFieldsChangeOnlyWhileDisabled := by
  intro c h r v hstate
  refine ⟨fun off hoff k => reg_writeReg_ringWord v hstate hoff k, fun f hf => f_writeReg_ringCtl v hstate hf,
    fun hreach hvf => ⟨?enable, ?disable⟩⟩
  case enable =>
    refine ⟨_, becomes_ringEnable_of_not_disabled v hstate (ownsRing_pf hvf) hreach rfl, fun f hf => ?_⟩
    split
    · exact f_writeReg_ringCtl v hstate hf
    · exact (f_setEnable hf).trans (f_writeReg_ringCtl v hstate hf)
  case disable =>
    cases hon : c.ringOn h.val r.val with
    | true =>
      exact ⟨_, becomes_ringDisable hreach (ownsRing_pf hvf) hon, fun f hf =>
        (f_disableRing hf).trans (f_writeReg_ringCtl v hstate hf)⟩
    | false =>
      exact ⟨_, becomes_ringDisable_of_off v hon (ownsRing_pf hvf) hreach, fun f hf => f_writeReg_ringCtl v hstate hf⟩

end Sys2Proof.Proofs
end

section
/-! Record rings (R377 to R381, R394, R397, R400): the card that each command leaves. -/

namespace Sys2Proof.Proofs

open Sys2Proof Sys2Proof.Machine Sys2Proof.Laws

/-! ### What the writing of records leaves of a record ring -/

/-- The parts beside the record rings that card time and the record writer touch. -/
def offRecords : List Part := [.time, .regs, .pace, .epochs, .out]

theorem recRing_of_held {c d : Card} (hd : Held offRecords c d) (h r : Nat) : d.recRing h r = c.recRing h r := by
  have hrecs : c.recs = d.recs := (hd .records).resolve_left (by decide)
  rw [Card.recRing, Card.recRing, hrecs]

/-- The heartbeats of a record ring: their number, and when the next falls due. -/
def heartbeats (c : Card) (h r : Nat) : Nat × Nat := ((c.recRing h r).beats, (c.recRing h r).beatAt)

theorem heartbeats_of_held {c d : Card} (hd : Held offRecords c d) (h r : Nat) : heartbeats d h r = heartbeats c h r := by
  rw [heartbeats, recRing_of_held hd, heartbeats]

theorem heartbeats_setRec (c : Card) (h r : Nat) (g : RecRing) : heartbeats (c.setRec h r g) h r = (g.beats, g.beatAt) := by
  rw [heartbeats, recRing_setRec_self]

theorem heartbeats_recMessage (c : Card) (h r : Nat) : heartbeats (c.recMessage h r) h r = heartbeats c h r := by
  unfold Card.recMessage
  extract_lets n g
  split
  · rw [heartbeats_of_held (frame_raise (needs rfl) _ _ _ held_refl), heartbeats_setRec, heartbeats]
  · rfl

theorem heartbeats_recEntry (c : Card) (h r : Nat) (e : List Byte) : heartbeats (c.recEntry h r e) h r = heartbeats c h r := by
  unfold Card.recEntry
  extract_lets pos log2 phase bytes base c₁ c₂
  have hc₂ : Held offRecords c c₂ := frame_markFirst (needs rfl) _ _ _ _ _ (frame_emit (needs rfl) _ _ held_refl)
  rw [heartbeats_recMessage, heartbeats_of_held (frame_setN (needs rfl) _ _ _ hc₂)]

theorem heartbeats_recCount (c : Card) (h r : Nat) : heartbeats (c.recCount h r) h r = heartbeats c h r := by
  unfold Card.recCount
  extract_lets c₁
  rw [heartbeats_of_held (frame_setPace (needs rfl) _ _ _ held_refl), heartbeats_setRec, heartbeats]

/-- The store is written entry by entry, and the writing of an entry touches no heartbeat. -/
theorem heartbeats_flushGo (h r fuel : Nat) (c : Card) : heartbeats (Card.flushGo h r fuel c) h r = heartbeats c h r := by
  induction fuel generalizing c with
  | zero => rfl
  | succ fuel ih =>
    unfold Card.flushGo
    extract_lets g
    split
    · rfl
    · split
      · rfl
      case _ x rest _ =>
        split
        · rw [ih, heartbeats_setRec, heartbeats]
        case _ e es _ =>
          extract_lets e' g' c₁ c₂ c₃
          have hg' : (g'.beats, g'.beatAt) = heartbeats c h r := by
            simp only [g']
            split <;> rfl
          have h₁ : heartbeats c₁ h r = heartbeats c h r := by rw [heartbeats_recEntry, heartbeats_setRec, hg']
          have h₂ : heartbeats c₂ h r = heartbeats c h r := by
            simp only [c₂]
            split
            · exact h₁
            · rw [heartbeats_recCount, h₁]
          have h₃ : heartbeats c₃ h r = heartbeats c h r := by
            simp only [c₃]
            split
            · rw [heartbeats_of_held (frame_bump (needs rfl) _ _ _ held_refl), h₂]
            · exact h₂
          split
          · rfl
          · rw [ih, h₃]

theorem heartbeats_originate (c : Card) (h r : Nat) (x : CardRec) : heartbeats (c.originate h r x).1 h r = heartbeats c h r := by
  unfold Card.originate
  split
  · exact heartbeats_of_held (frame_recDiscard (needs rfl) _ _ _ held_refl) h r
  · split
    · rfl
    · rw [Card.recFlush, heartbeats_flushGo, heartbeats_setRec, heartbeats]

/-! ### Commands -/

/-- A heartbeat counts and sets when the next falls due, whether or not its record finds room (R380, R394). -/
theorem completes_heartbeat {c : Card} {h : Fin 4} {r : Fin 16} (hlive : c.live = true) (hen : c.recEn h.val r.val = true)
    (hdue : c.f (ringReg h.val r.val 0x118) 23 0 ≠ 0) :
    Completes (.heartbeat h r) c fun d => heartbeats d h.val r.val =
      (wrap32 ((c.recRing h.val r.val).beats + 1),
        (c.recRing h.val r.val).beatAt + 1000 * c.f (ringReg h.val r.val 0x118) 23 0) := by
  refine completes_of_run (execHeartbeat.eq_def h r) ?_
  dsimp only
  rw [if_neg (by simp [hlive, hen, hdue])]
  split
  · rw [heartbeats_originate, heartbeats_setRec]
  · rw [heartbeats_of_held (frame_bump (needs rfl) _ _ _ held_refl), heartbeats_setRec]

/-- The offsets of registers in one ring's page tell them apart. -/
theorem ringReg_ne {a b : Nat} (hab : a ≠ b) (h r : Nat) : ringReg h r a ≠ ringReg h r b := by
  simp only [ringReg, hp, Space.key]
  omega

section
variable {c : Card} {fn : Fn} {r : Fin 16} {v : Word} {h : Nat} (hown : c.ownsRing fn r.val = some h)
include hown

/-- A record ring that is enabled starts with no entry, no record held, and its first heartbeat a whole interval away (R397). -/
theorem completes_recordRingEnable (hreach : c.reaches fn (0x10108 + 0x1000 * r.val) = true) (hoff : c.recEn h r.val = false)
    (hset : fld v 31 31 = 1) :
    Completes (.recordRingEnable fn r v) c fun d => d.recEn h r.val = true ∧ d.reg (ringReg h r.val 0x110) = 0 ∧
      d.reg (ringReg h r.val 0x10C) = 0 ∧ (d.recRing h r.val).store = [] := by
  refine completes_of_run (execRecordRingEnable.eq_def fn r v) ?_
  dsimp only
  rw [hostWrite_of_reaches hreach, hown]
  dsimp only
  rw [if_neg (by simp [hoff, hset])]
  refine ⟨?enabled, ?tail, ?head, ?store⟩
  case enabled =>
    rw [Card.recEn, bit_setRec, bit_setN_ne (ringReg_ne (by decide) _ _), bit_setN_ne (ringReg_ne (by decide) _ _),
      bit_setBit_self (by decide)]
  case tail => rw [reg_setRec, reg_setN_ne (ringReg_ne (by decide) _ _), reg_setN_self, BitVec.ofNat_eq_ofNat]
  case head => rw [reg_setRec, reg_setN_self, BitVec.ofNat_eq_ofNat]
  case store => rw [recRing_setRec_self]

/-- A record ring that is disabled discards and counts what it holds, and the records of the ring's operations (R400). -/
theorem becomes_recordRingDisable {e g : Card} {n : Nat} (hreach : c.reaches fn (0x10108 + 0x1000 * r.val) = true)
    (hon : c.recEn h r.val = true) (he : e = c.writeReg (ringReg h r.val 0x108) v)
    (hg : g = (e.setBit (ringReg h r.val 0x108) 31 false).setRec h r.val
      { e.recRing h r.val with store := [], midOp := false })
    (hn : n = (e.recRing h r.val).store.length + ((e.ring h r.val).q.map (fun o => o.records.length)).sum) :
    Becomes (.recordRingDisable fn r v) c (((g.setRing h r.val
      { g.ring h r.val with q := (e.ring h r.val).q.map (fun o => { o with records := [] }) }).recDiscard h n).pump h r.val) := by
  refine becomes_of_run (execRecordRingDisable.eq_def fn r v) ?_
  rw [hostWrite_of_reaches hreach, hown]
  dsimp only
  rw [if_neg (by simp [hon]), ← he, ← hn, ← hg]

/-- A head no further behind the tail than the ring is long frees entries (R397). -/
theorem becomes_recordHeadWrite (hreach : c.reaches fn (0x1010C + 0x1000 * r.val) = true)
    (hfits : diff32 (c.reg (ringReg h r.val 0x110)).toNat v.toNat ≤ 2 ^ c.f (ringReg h r.val 0x108) 20 16) :
    Becomes (.recordHeadWrite fn r v) c ((((c.setReg (ringReg h r.val 0x10C) v).setRec h r.val
      { c.recRing h r.val with msgOut := false }).recMessage h r.val).pump h r.val) := by
  refine becomes_of_run (execRecordHeadWrite.eq_def fn r v) ?_
  rw [hostWrite_of_reaches hreach, hown]
  dsimp only
  rw [if_neg (not_lt.mpr hfits)]

end

/-- Settles O44, row by row. -/
theorem recordRowsComplete : Obligations.RecordRowsComplete := by
  refine ⟨?heartbeat, ?enable, ?disable, ?head⟩
  case heartbeat =>
    intro c h r hlive hen hdue
    obtain ⟨d, hd, hbeats⟩ := completes_heartbeat hlive hen hdue
    exact ⟨d, hd, congrArg Prod.snd hbeats, congrArg Prod.fst hbeats⟩
  case enable => exact fun c fn r v h hreach hown hoff hset => completes_recordRingEnable hown hreach hoff hset
  case disable => exact fun c fn r v h n e g hreach hown hon he hg hn => becomes_recordRingDisable hown hreach hon he hg hn
  case head => exact fun c fn r v h hreach hown hfits => becomes_recordHeadWrite hown hreach hfits

end Sys2Proof.Proofs
end

section
/-! Failed steps, fences and the fault log (R405, R407, R408, R415, R425): the card that each command leaves. -/

namespace Sys2Proof.Proofs

open Sys2Proof Sys2Proof.Machine Sys2Proof.Laws

/-! ### The fault log -/

theorem reg_withFltMsg (c : Card) (b : Bool) (k : Nat) : ({ c with fltMsg := b } : Card).reg k = c.reg k := rfl

/-- A HEAD that has reached TAIL leaves nothing to tell of (R425). -/
theorem becomes_faultLogHeadWrite {c : Card} {v : Word} (hreach : c.reaches .pf0 0xC004 = true)
    (hfits : diff32 (c.reg (mg 0xC008)).toNat v.toNat ≤ 256) (htail : c.reg (mg 0xC008) = v) :
    Becomes (.faultLogHeadWrite v) c { c.setReg (mg 0xC004) v with fltMsg := false } := by
  have hkey : mg 0xC008 ≠ mg 0xC004 := by decide
  refine becomes_of_run (execFaultLogHeadWrite.eq_def v) ?_
  rw [hostWrite_of_reaches hreach, if_neg (not_lt.mpr hfits)]
  dsimp only
  rw [if_neg (by rw [reg_withFltMsg, reg_setReg_ne hkey, htail]; simp)]

theorem becomes_faultLogClear {c : Card} {v : Word} (hreach : c.reaches .pf0 0xC000 = true) (hset : fld v 31 31 = 1) :
    Becomes (.faultLogClear v) c { (c.writeReg (mg 0xC000) v).setReg (mg 0xC004)
      ((c.writeReg (mg 0xC000) v).reg (mg 0xC008)) with fltMsg := false } := by
  refine becomes_of_run (execFaultLogClear.eq_def v) ?_
  rw [hostWrite_of_reaches hreach, if_pos hset]

/-! ### Failed steps -/

/-- The step that a whisk operation is at, on its own unit, fails (R407). -/
theorem stepFault_of_whisk {c : Card} {f : StepFault} {r : Fin 16} {seq : Nat} {o : Op} (hlive : c.live = true)
    (hop : f.op = some (r, seq)) (ho : c.opOf f.hamper.val r.val seq = some o) (hfcls : f.cls.val = 4) (hcls : o.cls = 4)
    (hunit : o.unit = f.unit) (hstarted : o.started = true) (hactive : o.active = true) (hheld : o.held = false)
    (hpaused : o.paused = none) (hretry : o.retryOn = none) :
    c.stepFault f = (c.opStepFails f.hamper.val r.val o f.unit f.again f.equal).settleFences f.hamper.val := by
  simp [Card.stepFault, hlive, hop, ho, hfcls, hcls, hunit, hstarted, hactive, hheld, hpaused, hretry]

theorem becomes_unitStepFailure {c d : Card} {f : StepFault} (hfault : c.stepFault f = d) :
    Becomes (.unitStepFailure f) c d := becomes_of_run (execUnitStepFailure.eq_def f) hfault

/-- A watchdog that runs out fails the step, as a check does (R405). -/
theorem becomes_watchdogExpiry {c d : Card} {f : StepFault} (hawaits : c.awaitsInput f = false) (hfault : c.stepFault f = d) :
    Becomes (.watchdogExpiry f) c d := by
  refine becomes_of_run (execWatchdogExpiry.eq_def f) ?_
  rw [if_neg (by simp [hawaits]), hfault]

/-- The one retry that waits for a unit runs there once the unit is free (R408). -/
theorem becomes_equalUnitRetryStart {c : Card} {h : Fin 4} {cls : Fin 9} {u r : Nat} {o : Op} (hlive : c.live = true)
    (hen : c.unitEnabled h.val cls.val u = true) (hcls : cls.val ≠ 1)
    (hone : (c.allOps h.val).filter (fun x => x.2.cls == cls.val && x.2.retryOn == some u) = [(r, o)])
    (hfree : c.busyFor h.val o u = false) (ok : Bool) :
    Becomes (.equalUnitRetryStart h cls u ok) c ((c.retryOnEqual h.val r { o with retryOn := none }
      (o.failUnits.getLast?.getD o.unit) u ok).settleFences h.val) := by
  refine becomes_of_run (execEqualUnitRetryStart.eq_def h cls u ok) ?_
  dsimp only
  rw [if_neg (by simp [hlive, hen]), if_neg hcls, hone, List.find?_cons_of_pos (by simp)]
  dsimp only
  rw [if_neg (by simp [hfree])]

/-! ### Reinstatement -/

/-- A unit there and fenced is tested before it comes back (R415). -/
theorem becomes_unitReinstate {c d : Card} {h : Fin 4} {v : Word} {k : Nat} (hreach : c.reaches (.pf h) 0xE000C = true)
    (hk : k = hp h.val 0xE000C) (hidle : c.bit k 30 = false) (hset : fld v 31 31 = 1) (hd : d = c.writeReg k v)
    (hthere : d.unitThere h.val (d.f k 11 8) (d.f k 4 0) = true) (hfenced : d.fenced h.val (d.f k 11 8) (d.f k 4 0) = true) :
    Becomes (.unitReinstate h v) c ((d.setF k 29 28 0).setBit k 30 true) := by
  refine becomes_of_run (execUnitReinstate.eq_def h v) ?_
  rw [hostWrite_of_reaches hreach]
  dsimp only
  rw [← hk, if_neg (by simp [hidle]), if_neg (by simp [hset]), ← hd, if_pos (by simp [hthere, hfenced])]

theorem becomes_colanderReinstate {c d : Card} {v : Word} {k : Nat} (hreach : c.reaches .pf0 0xC010 = true)
    (hk : k = mg 0xC010) (hidle : c.bit k 30 = false) (hset : fld v 31 31 = 1) (hd : d = c.writeReg k v)
    (hthere : d.bit (mg 0x0020) (16 + d.f k 2 0) = true) (hfenced : d.fenced 0 7 (d.f k 2 0) = true) :
    Becomes (.colanderReinstate v) c ((d.setF k 29 28 0).setBit k 30 true) := by
  refine becomes_of_run (execColanderReinstate.eq_def v) ?_
  rw [hostWrite_of_reaches hreach]
  dsimp only
  rw [← hk, if_neg (by simp [hidle]), if_neg (by simp [hset]), ← hd, if_pos (by simp [hthere, hfenced])]

/-- The self-test of a hamper's unit ends with a verdict of its own, and a unit that passes comes back (R415). -/
theorem becomes_selfTestDone_unit {c : Card} {h : Fin 4} (hlive : c.live = true) (htest : c.bit (hp h.val 0xE000C) 30 = true)
    (passed : Bool) {cls u : Nat} {d : Card} (hcls : cls = c.f (hp h.val 0xE000C) 11 8) (hu : u = c.f (hp h.val 0xE000C) 4 0)
    (hd : d = (c.setBit (hp h.val 0xE000C) 30 false).setF (hp h.val 0xE000C) 29 28 (if passed then 1 else 2)) :
    Becomes (.selfTestDone (some h) passed) c (((if passed then d.reinstated h.val cls u else d).logVerdict h.val cls u
      (if passed then 7 else 8) 0 0).hpEvent h.val 0xE0008 2 18) := by
  refine becomes_of_run (execSelfTestDone.eq_def (some h) passed) ?_
  dsimp only
  rw [if_neg (by simp [hlive, htest]), ← hd, ← hcls, ← hu]

theorem becomes_selfTestDone_colander_failed {c : Card} (hlive : c.live = true) (htest : c.bit (mg 0xC010) 30 = true) :
    Becomes (.selfTestDone none false) c (((c.setBit (mg 0xC010) 30 false).setF (mg 0xC010) 29 28 2).logVerdict 0xF 7
      (c.f (mg 0xC010) 2 0) 8 0 0) := by
  refine becomes_of_run (execSelfTestDone.eq_def none false) ?_
  dsimp only
  rw [if_neg (by simp [hlive, htest])]
  simp only [Bool.false_eq_true, if_false]

/-- Settles O45, row by row. -/
theorem faultRowsComplete : Obligations.FaultRowsComplete := by
  refine ⟨?head, ?clear, ?step, ?watchdog, ?retry, ?unit, ?colander, ?failed, ?passed, ?colanderFailed⟩
  case head => exact fun c v hreach hfits htail => becomes_faultLogHeadWrite hreach hfits htail
  case clear => exact fun c v hreach hset => becomes_faultLogClear hreach hset
  case step =>
    intro c f r seq o hlive hop ho hfcls hcls hunit hstarted hactive hheld hpaused hretry
    exact becomes_unitStepFailure
      (stepFault_of_whisk hlive hop ho hfcls hcls hunit hstarted hactive hheld hpaused hretry)
  case watchdog =>
    intro c f r seq o hawaits hlive hop ho hfcls hcls hunit hstarted hactive hheld hpaused hretry
    exact becomes_watchdogExpiry hawaits
      (stepFault_of_whisk hlive hop ho hfcls hcls hunit hstarted hactive hheld hpaused hretry)
  case retry =>
    exact fun c h cls u r ok o hlive hen hcls hone hfree => becomes_equalUnitRetryStart hlive hen hcls hone hfree ok
  case unit =>
    exact fun c h v k hreach hk hidle hset hthere hfenced => becomes_unitReinstate hreach hk hidle hset rfl hthere hfenced
  case colander =>
    exact fun c v k hreach hk hidle hset hthere hfenced => becomes_colanderReinstate hreach hk hidle hset rfl hthere hfenced
  case failed => exact fun c h hlive htest => becomes_selfTestDone_unit hlive htest false rfl rfl rfl
  case passed => exact fun c h hlive htest => becomes_selfTestDone_unit hlive htest true rfl rfl rfl
  case colanderFailed => exact fun c hlive htest => becomes_selfTestDone_colander_failed hlive htest

end Sys2Proof.Proofs
end

section
/-! The registers that the draw governor writes (R455, R456, R460, R463). -/

namespace Sys2Proof.Proofs

open Sys2Proof Sys2Proof.Machine Sys2Proof.Laws

/-- The registers of the draw governor, with the pending bits of PF0's messages. -/
def govRegs : List Nat := [mg 0x1108, mg 0x1114, mg 0x1118, mg 0x1134, mg 0x200C, (msixBase 0).2.1]

section
variable {k : Nat} (hk : k ∉ govRegs)
include hk

theorem ne_of_not_mem_govRegs {j : Nat} (hj : j ∈ govRegs) : k ≠ j := fun hkj => hk (hkj ▸ hj)

theorem reg_setF_gov {j : Nat} (hj : j ∈ govRegs) (c : Card) (hi lo v : Nat) : (c.setF j hi lo v).reg k = c.reg k :=
  reg_setF_ne (ne_of_not_mem_govRegs hk hj)

theorem reg_setBit_gov {j : Nat} (hj : j ∈ govRegs) (c : Card) (i : Nat) (b : Bool) : (c.setBit j i b).reg k = c.reg k :=
  reg_setBit_ne (ne_of_not_mem_govRegs hk hj)

omit hk in
theorem reg_withGov (c : Card) (g : Gov) : ({ c with gov := g } : Card).reg k = c.reg k := rfl

/-- CAPPED and SLOPE_WAIT. -/
theorem reg_setGovFlags (c : Card) (capped slopeWait : Bool) :
    ((c.setBit (mg 0x1108) 24 capped).setBit (mg 0x1108) 23 slopeWait).reg k = c.reg k := by
  rw [reg_setBit_gov hk (by decide), reg_setBit_gov hk (by decide)]

theorem reg_countCapped (c : Card) : ((c.bump (mg 0x1118) 1).event 0x1114 0 11).reg k = c.reg k := by
  have hevents : k ≠ mg 0x1114 := ne_of_not_mem_govRegs hk (by decide)
  have hcount : k ≠ mg 0x1118 := ne_of_not_mem_govRegs hk (by decide)
  have hpending : k ≠ (msixBase 0).2.1 := ne_of_not_mem_govRegs hk (by decide)
  rw [reg_event_ne hevents hpending, reg_bump_ne hcount]

omit hk in
theorem reg_settleB (c : Card) (k : Nat) : c.settleB.reg k = c.reg k := rfl

theorem reg_govFlags (c : Card) : c.govFlags.reg k = c.reg k := by
  unfold Card.govFlags
  extract_lets c₁
  have h₁ : c₁.reg k = c.reg k := reg_settleB c k
  split
  · rw [reg_setGovFlags hk, h₁]
  · split
    · rw [reg_setGovFlags hk, h₁]
    · split
      · have hcapped : ((c₁.setBit (mg 0x1108) 24 true).setBit (mg 0x1108) 23 false).reg k = c.reg k := by
          rw [reg_setGovFlags hk, h₁]
        split
        · exact hcapped
        · rw [reg_countCapped hk, reg_withGov]
          exact hcapped
      · rw [reg_setGovFlags hk, h₁]

theorem reg_acknowledge (c : Card) (x : GovStart) : (c.acknowledge x).reg k = c.reg k := by
  unfold Card.acknowledge
  extract_lets d g drawing
  unfold Card.loadOn
  split
  · rfl
  · rw [reg_setF_gov hk (by decide), reg_withGov]
  · rw [reg_setBit_gov hk (by decide), reg_withGov]

theorem reg_sharesFor (c : Card) (x : GovStart) : (c.sharesFor x).reg k = c.reg k := by
  unfold Card.sharesFor
  split
  · extract_lets d
    split
    · unfold Card.stopShares
      rw [reg_withGov, reg_setF_gov hk (by decide)]
    · rfl
  · rfl

theorem reg_govStart (c : Card) (l : Load) (lc : Bool) (op : Option (Nat × Nat)) : (c.govStart l lc op).reg k = c.reg k := by
  unfold Card.govStart
  extract_lets c₁ x first g c₂ c₃
  have h₃ : c₃.reg k = c.reg k := by
    simp only [c₃]
    split
    · exact reg_sharesFor hk c₂ x
    · rfl
  rw [reg_govFlags hk]
  split
  · rw [reg_acknowledge hk, h₃]
  · exact h₃

theorem reg_govStop (c : Card) (l : Load) : (c.govStop l).reg k = c.reg k := by
  unfold Card.govStop Card.govStopAll
  extract_lets c₁ g gone
  split
  · rfl
  · rw [reg_govFlags hk, reg_withGov, reg_settleB]

/-- Turning the outward supplies on and off writes the governor's registers alone. -/
theorem reg_checkSupplies (c : Card) : c.checkSupplies.reg k = c.reg k := by
  unfold Card.checkSupplies
  generalize [0, 1, 2] = supplies
  induction supplies generalizing c with
  | nil => rfl
  | cons i supplies ih =>
    rw [List.foldl_cons, ih]
    split
    · split
      · rfl
      · exact reg_govStart hk _ _ _ _
    · rw [reg_setBit_gov hk (by decide), reg_govStop hk]

end

end Sys2Proof.Proofs
end

section
/-! Dravaz ports (R145, R528, R529, R532, R534, R535, R538): the card that each event of a port leaves. -/

namespace Sys2Proof.Proofs

open Sys2Proof Sys2Proof.Machine Sys2Proof.Laws

/-! ### The page of a port -/

theorem portReg_ne {a b : Nat} (hab : a ≠ b) (p : Nat) : portReg p a ≠ portReg p b := by
  simp only [portReg, mg, Space.key]
  omega

/-- The page of a port lies beyond the identity block. -/
theorem identity_ne_portReg {n : Nat} (hn : n < 0xA100) (p off : Nat) : mg n ≠ portReg p off := by
  simp only [portReg, mg, Space.key]
  omega

@[simp] theorem port_setPort_self (c : Card) (p : Nat) (g : Port) : (c.setPort p g).port p = g := by
  simp [Card.setPort, Card.port]

@[simp] theorem reg_setPort (c : Card) (p : Nat) (g : Port) (k : Nat) : (c.setPort p g).reg k = c.reg k := rfl
@[simp] theorem bit_setPort (c : Card) (p : Nat) (g : Port) (k i : Nat) : (c.setPort p g).bit k i = c.bit k i := rfl
@[simp] theorem port_emit (c : Card) (o : Out) (p : Nat) : (c.emit o).port p = c.port p := rfl
@[simp] theorem port_setPair (c : Card) (lo hi v p : Nat) : (c.setPair lo hi v).port p = c.port p := rfl

/-! ### Requests of this card on others -/

theorem becomes_remoteWriteAck {c : Card} {p : Fin 2} {x : Remote}
    (hfind : c.remotes.find? (fun y => y.id == x.id && y.port == p.val && y.kind == 1 && y.sent) = some x) :
    Becomes (.remoteWriteAck p x.id) c (c.remoteDone x) := by
  refine becomes_of_run (execRemoteWriteAck.eq_def p x.id) ?_
  rw [hfind]

/-- A request without an answer fails once its time is over (R534). -/
theorem becomes_remoteTimeout {c : Card} {x : Remote}
    (hfind : c.remotes.find? (fun y => y.id == x.id && y.sent) = some x) (hlive : c.live = true) :
    Becomes (.remoteTimeout x.id) c (((c.advanceTo (x.since + 1000000 * c.f (portReg x.port 8) 15 0)).bump
      (portReg x.port 0x18) 1).remoteFail x 0x95) := by
  refine becomes_of_run (execRemoteTimeout.eq_def x.id) ?_
  rw [hfind]
  dsimp only
  rw [if_neg (by simp [hlive])]

/-! ### Training -/

theorem becomes_dravazCableDetect_present (c : Card) (p : Fin 2) :
    Becomes (.dravazCableDetect p true) c (((c.setBit (mg 0x0028) (2 + p.val) true).checkSupplies).trainPort p.val) :=
  becomes_of_run (execDravazCableDetect.eq_def p true) (if_pos rfl)

theorem connectors_not_mem_govRegs : mg 0x0028 ∉ govRegs := by decide

/-- A port without its cable has left UP, and shows no cable in its own state and among the connectors (R22, R529). -/
theorem completes_dravazCableDetect_absent (c : Card) (p : Fin 2) :
    Completes (.dravazCableDetect p false) c fun d => d.f (portReg p.val 4) 2 0 = 0 ∧
      d.bit (mg 0x0028) (2 + p.val) = false := by
  refine completes_of_run (execDravazCableDetect.eq_def p false) ?_
  dsimp only
  rw [if_neg Bool.false_ne_true]
  refine ⟨?state, ?connector⟩
  case state => rw [f_setF_self (by decide) (by decide), Nat.zero_mod]
  case connector =>
    rw [bit_setF_ne (identity_ne_portReg (by decide) _ _), bit_setPort, Card.bit, Card.f,
      reg_checkSupplies connectors_not_mem_govRegs]
    exact bit_setBit_self (by omega)

section
variable {c : Card} {p : Fin 2} {card : Fin 8} (hon : c.on = true) (hstate : c.portState p.val = 1)
  (hcable : c.cable p.val = true) (hen : c.bit (portReg p.val 0) 31 = true)
include hon hstate hcable hen

/-- A port trained with its first peer, and with nothing to replay, comes UP (R529). -/
theorem becomes_linkTrained_up (hother : card.val ≠ c.f (mg 0xA000) 2 0) (hpeer : (c.port p.val).peer = none)
    (hacked : (c.port p.val).unacked = []) (q : Fin 2) :
    Becomes (.linkTrained p card q) c ((((c.setN (portReg p.val 4) (q.val * 2 ^ 12 + card.val * 2 ^ 8 + 2)).setPort p.val
      { c.port p.val with peer := some (card.val, q.val), leftUp := none }).portEvent p.val 0).pumpPort p.val) := by
  refine becomes_of_run (execLinkTrained.eq_def p card q) ?_
  dsimp only
  rw [if_neg (by simp [hon, hstate, hcable, hen]), if_neg hother, if_neg (by simp [hpeer]), hacked]

/-- A peer that names itself as this card does keeps the port in TRAINING (R541). -/
theorem becomes_linkTrained_same (hsame : card.val = c.f (mg 0xA000) 2 0) (q : Fin 2) :
    Becomes (.linkTrained p card q) c ((c.setF (portReg p.val 4) 2 0 1).portEvent p.val 5) := by
  refine becomes_of_run (execLinkTrained.eq_def p card q) ?_
  dsimp only
  rw [if_neg (by simp [hon, hstate, hcable, hen]), if_pos hsame]

end

theorem becomes_linkRetrain {c : Card} {p : Fin 2} (hup : c.portState p.val = 2) :
    Becomes (.linkRetrain p) c ((((c.setPort p.val { c.port p.val with leftUp := some c.ns }).setF (portReg p.val 4) 2 0
      3).bump (portReg p.val 0x10) 1).portEvent p.val 2) :=
  becomes_of_run (execLinkRetrain.eq_def p) (if_pos hup)

theorem becomes_portRetrain {c : Card} {p : Fin 2} {v : Word} (hreach : c.reaches .pf0 (0xA100 + 0x100 * p.val) = true)
    (hset : fld v 30 30 = 1) : Becomes (.portRetrain p v) c ((c.writeReg (portReg p.val 0) v).retrain p.val) := by
  refine becomes_of_run (execPortRetrain.eq_def p v) ?_
  rw [hostWrite_of_reaches hreach, if_pos hset]

/-- A port that has not come back in time is DOWN, and its requests fail (R529, R534). -/
theorem becomes_linkDownTimeout {c : Card} {p : Fin 2} {t : Nat} (hleft : (c.port p.val).leftUp = some t) :
    Becomes (.linkDownTimeout p) c (((((c.advanceTo (t + 1000000 * c.f (portReg p.val 8) 31 16)).setPort p.val
      { c.port p.val with leftUp := none }).setF (portReg p.val 4) 2 0 4).portEvent p.val 1).portFail p.val) := by
  refine becomes_of_run (execLinkDownTimeout.eq_def p) ?_
  dsimp only
  rw [hleft]

/-! ### Packets -/

section
variable {c : Card} {p : Fin 2} {pk : DvPacket} (hon : c.on = true) (hup : c.portUp p.val = true)
include hon hup

/-- An empty packet in sequence, on a port with nothing to replay, is acknowledged and advances the receiver alone. -/
theorem completes_dravazPacketReceived_empty (hgood : pk.good = true) (hack : pk.ack = none) (hreplay : pk.replay = none)
    (hacked : (c.port p.val).unacked = []) (hseq : pk.seq % 4096 = (c.port p.val).rx) (hbody : pk.body = .empty) :
    Completes (.dravazPacketReceived p pk) c fun d => (d.port p.val).rx = ((c.port p.val).rx + 1) % 4096 ∧
      d.out = c.out ++ [.link p.val 8 [pk.seq % 4096] []] := by
  have hfresh : ¬(c.port p.val).unacked.any (fun x => decide (4 ≤ x.replays)) = true := by simp [hacked]
  refine completes_of_run (execDravazPacketReceived.eq_def p pk) ?_
  dsimp only
  rw [if_neg (by simp [hon, hup]), if_neg (by simp [hgood]), hack, hreplay, hbody]
  dsimp only
  rw [if_neg hfresh, if_pos hseq, Card.dvBody]
  refine ⟨?rx, ?out⟩
  case rx => rw [port_setPair, port_emit, port_setPort_self]
  case out => rfl

theorem becomes_dravazPacketReceived_bad (hbad : pk.good = false) :
    Becomes (.dravazPacketReceived p pk) c (c.emit (.link p.val 9 [(c.port p.val).rx] [])) := by
  refine becomes_of_run (execDravazPacketReceived.eq_def p pk) ?_
  rw [if_neg (by simp [hon, hup]), if_pos (by simp [hbad])]

end

/-! ### Requests of other cards -/

/-- The number of bytes that a request asks for or brings. -/
def requestLen (q : RemoteReq) : Nat := match q.wdata with | some b => b.length | none => q.len

/-- What a request of another card does on a card that runs: the checks of R145, then the hold of R193. -/
theorem becomes_remoteRequestReceived {c : Card} (hlive : c.live = true) (p : Fin 2) (q : RemoteReq) :
    Becomes (.remoteRequestReceived p q) c
      (match c.windowHit p.val q.window.val q.off (requestLen q) q.wdata.isSome with
      | none => c.denyRemote p.val q.id
      | some (e, x) => if c.spanHeld e x (requestLen q) then
          { c with heldAcc := c.heldAcc ++ [{ fnNum := 0, hamper := 0, region := e.num, off := x, len := requestLen q,
                                              wdata := q.wdata, remote := some (p.val, q.id) }] }
        else c.serveRemote p.val q.id e x (requestLen q) q.wdata) := by
  refine becomes_of_run (execRemoteRequestReceived.eq_def p q) ?_
  dsimp only
  rw [if_neg (by simp [hlive])]
  rfl

/-! ### Messages -/

/-- A message finds room on an enabled ring that holds none back (R535). -/
theorem becomes_messageReceived {c : Card} {p : Fin 2} (hlive : c.live = true) (hen : c.bit (portReg p.val 0x30) 31 = true)
    (hroom : c.msgFull p.val = false) (hheld : (c.port p.val).held = []) (m : DvMessage) :
    Becomes (.messageReceived p m) c (c.putMessage p.val
      { id := m.id, card := m.card.val, hamper := m.hamper.val, tag := m.tag, sent := m.sent, data := m.data.take 256 }) := by
  refine becomes_of_run (execMessageReceived.eq_def p m) ?_
  dsimp only
  rw [if_neg (by simp [hlive]), if_neg (by simp [hen]), if_neg (by simp [hroom, hheld])]

/-- A message ring whose region is as R538 asks starts empty. -/
theorem completes_msgRingEnable {c : Card} {p : Fin 2} {v : Word} {e : RegionEnt}
    (hreach : c.reaches .pf0 (0xA130 + 0x100 * p.val) = true) (hset : fld v 31 31 = 1)
    (hoff : c.bit (portReg p.val 0x30) 31 = false) (hregion : (c.writeReg (portReg p.val 0x30) v).msgRegionOk p.val = some e) :
    Completes (.msgRingEnable p v) c fun d => d.bit (portReg p.val 0x30) 31 = true ∧ d.reg (portReg p.val 0x38) = 0 ∧
      d.reg (portReg p.val 0x3C) = 0 := by
  refine completes_of_run (execMsgRingEnable.eq_def p v) ?_
  dsimp only
  rw [hostWrite_of_reaches hreach]
  rw [if_neg (by simp [hset]), if_neg (by simp [hoff]), hregion]
  refine ⟨?enabled, ?head, ?tail⟩
  case enabled =>
    rw [bit_setPort, bit_setN_ne (portReg_ne (by decide) _), bit_setN_ne (portReg_ne (by decide) _), bit_setBit_self (by decide)]
  case head => rw [reg_setPort, reg_setN_ne (portReg_ne (by decide) _), reg_setN_self, BitVec.ofNat_eq_ofNat]
  case tail => rw [reg_setPort, reg_setN_self, BitVec.ofNat_eq_ofNat]

theorem becomes_msgHeadWrite {c : Card} {p : Fin 2} {v : Word} (hreach : c.reaches .pf0 (0xA138 + 0x100 * p.val) = true)
    (hfits : diff32 (c.reg (portReg p.val 0x3C)).toNat v.toNat ≤ 2 ^ c.f (portReg p.val 0x30) 4 0)
    (hheld : (c.port p.val).held = []) : Becomes (.msgHeadWrite p v) c (c.setReg (portReg p.val 0x38) v) := by
  refine becomes_of_run (execMsgHeadWrite.eq_def p v) ?_
  rw [hostWrite_of_reaches hreach, if_neg (not_lt.mpr hfits), hheld, List.length_nil, Card.pumpMsgs]

/-! ### Windows -/

@[simp] theorem reg_dropHold (c : Card) (k j : Nat) : (c.dropHold k).reg j = c.reg j := rfl

section
variable {c : Card} {p : Fin 2} {w : Fin 64} {v : Word} (hreach : c.reaches .pf0 (0xA400 + 0x400 * p.val + 16 * w.val) = true)
include hreach

/-- The three registers of a window are applied together; the control register takes the fields that it has (R538). -/
theorem completes_windowCtlWrite (hregion : (c.regionOf (fld v 7 0)).any (fun x => !x.2.picture) = true) :
    Completes (.windowCtlWrite p w v) c fun d => d.reg (winReg p.val w.val) = BitVec.ofNat 32 (v.toNat &&& 0xEFFF00FF) := by
  refine completes_of_run (execWindowCtlWrite.eq_def p w v) ?_
  dsimp only
  rw [hostWrite_of_reaches hreach]
  rw [if_neg (by simp [hregion]), reg_dropHold, reg_dropHold, reg_setReg_ne (by omega), reg_setReg_ne (by omega), reg_setN_self]

/-- A window on a PICTURE region, or on one that is not declared, is refused and counted (R146). -/
theorem becomes_windowCtlWrite_refused (hregion : (c.regionOf (fld v 7 0)).any (fun x => !x.2.picture) = false) :
    Becomes (.windowCtlWrite p w v) c (c.bump (portReg p.val 0x1C) 1) := by
  refine becomes_of_run (execWindowCtlWrite.eq_def p w v) ?_
  rw [hostWrite_of_reaches hreach]
  dsimp only
  rw [if_pos (by simp [hregion])]

end

/-- Settles O52, row by row. -/
theorem linkRowsComplete : Obligations.LinkRowsComplete := by
  refine ⟨?ack, ?timeout, ?cable, ?noCable, ?up, ?same, ?retrain, ?portRetrain, ?down, ?empty, ?bad, ?served, ?held, ?denied,
    ?message, ?ringEnable, ?head, ?window, ?refused⟩
  case ack => exact fun c p x hfind => becomes_remoteWriteAck hfind
  case timeout => exact fun c x hfind hlive => becomes_remoteTimeout hfind hlive
  case cable => exact fun c p => becomes_dravazCableDetect_present c p
  case noCable => exact fun c p => completes_dravazCableDetect_absent c p
  case up =>
    exact fun c p card q hon hstate hcable hen hother hpeer hacked =>
      becomes_linkTrained_up hon hstate hcable hen hother hpeer hacked q
  case same =>
    exact fun c p card q hon hstate hcable hen hsame => becomes_linkTrained_same hon hstate hcable hen hsame q
  case retrain => exact fun c p hup => becomes_linkRetrain hup
  case portRetrain => exact fun c p v hreach hset => becomes_portRetrain hreach hset
  case down => exact fun c p t hleft => becomes_linkDownTimeout hleft
  case empty =>
    exact fun c p pk hon hup hgood hack hreplay hacked hseq hbody =>
      completes_dravazPacketReceived_empty hon hup hgood hack hreplay hacked hseq hbody
  case bad => exact fun c p pk hon hup hbad => becomes_dravazPacketReceived_bad hon hup hbad
  case served =>
    intro c p q n x e hlive hn hhit hfree
    obtain rfl : n = requestLen q := hn
    exact becomes_of_eq (becomes_remoteRequestReceived hlive p q) (by rw [hhit]; exact if_neg (by simp [hfree]))
  case held =>
    intro c p q n x e hlive hn hhit hheld
    obtain rfl : n = requestLen q := hn
    exact becomes_of_eq (becomes_remoteRequestReceived hlive p q) (by rw [hhit]; exact if_pos hheld)
  case denied =>
    intro c p q n hlive hn hhit
    obtain rfl : n = requestLen q := hn
    exact becomes_of_eq (becomes_remoteRequestReceived hlive p q) (by rw [hhit])
  case message => exact fun c p m hlive hen hroom hheld => becomes_messageReceived hlive hen hroom hheld m
  case ringEnable => exact fun c p v e hreach hset hoff hregion => completes_msgRingEnable hreach hset hoff hregion
  case head => exact fun c p v hreach hfits hheld => becomes_msgHeadWrite hreach hfits hheld
  case window => exact fun c p w v hreach hregion => completes_windowCtlWrite hreach hregion
  case refused => exact fun c p w v hreach hregion => becomes_windowCtlWrite_refused hreach hregion

end Sys2Proof.Proofs
end

section
/-! The first write to a sparse page (R140, R141, R195) on a card whose rank redirection names no rank. -/

namespace Sys2Proof.Proofs

open Sys2Proof Sys2Proof.Machine

/-- An operation of ring 0 of hamper 0 under context 1. -/
def firstWriteOp : Op :=
  { seq := 1, gen := 0, fnNum := 1, ctx := 1, opcode := 1, front := false, group := 0, cls := 5, tag := 0, param := 0,
    report := false, mirror := false, waits := [], signal := none, body := [], phase := .running }

/-- An ECC region for tables, on logical rank 0, and the PICTURE region of a pool, on logical rank 1. -/
def tableRegion : RegionEnt := ⟨1, 1, 1, 0, 1⟩
def poolRegion : RegionEnt := ⟨2, 2, 1, 8192, 1⟩

/-- The leaf of page 0x220000 of context 1: SPARSE, writable and not backed, of pool 0. -/
def firstWriteLeaf : Leaf :=
  { to_ := .card 0 0, big := false, write := true, sparse := true, backed := false, deep := false, pool := 0, entry := 0x1B,
    atRegion := 1, atOff := 16 }

/-- A card with the operation in flight, and pool 0 down to its last buffer. The addresses of logical rank 1 are redirected to
0x148004, which is no rank: its state is looked for at the register 0x8010 + 0x148004, which is HP_POOL_MIN of pool 0. -/
def strayRankCard : Card :=
  { on := true
    regs := [(0x8010, 0x101), (0x150000, 0x80020010), (0x150008, 1), (0x150014, 1)]
    active := [(0, some { imageId := 1, hamper := 0, channels := 1, raster := 0, spare := 0, ways := 0, mode := 0, pool := 0,
                          staging := 0, track := 0, ringClass := 0, groups := [], regions := [tableRegion, poolRegion],
                          fromDefault := false })]
    ctxs := [(1, some ⟨0, 0x101⟩)]
    mem := [(0, 0x01), (1, 0x01), (8, 0x01), (9, 0x01), (16, 0x1B)]
    redirect := [(1, some 0x148004)]
    rings := [(0, { q := [firstWriteOp] })] }

theorem translate_strayRankCard : (strayRankCard.translate 0 1 0x220000).toOption = some firstWriteLeaf := by decide +kernel

/-- Before the take both regions are on ranks that hold their bytes. -/
theorem anyLost_strayRankCard :
    strayRankCard.anyLost poolRegion 0 65536 = false ∧ strayRankCard.anyLost tableRegion 16 8 = false := by decide +kernel

/-- The take lowers HP_POOL_MIN to 0, which makes the stray rank read ABSENT: the grey fill fails, and the page is not backed. -/
theorem sparseBack_strayRankCard : (strayRankCard.sparseBack 0 1 0 none firstWriteLeaf none).2.toOption = none := by
  decide +kernel

/-- Refutes O38: `redirect` may name a number that is no rank, whose state is then read from a pool's register. SPARSE_FIRST_WRITE's
take changes that register, and the rank of the buffer is lost between the hypothesis and the fill. -/
theorem not_translationRowsComplete : ¬ Obligations.TranslationRowsComplete := by
  intro hrows
  obtain ⟨-, -, -, -, -, -, -, -, hfirstWrite⟩ := hrows
  obtain ⟨lostBefore, lostTable⟩ := anyLost_strayRankCard
  obtain ⟨c1, d, hbacked, -⟩ := hfirstWrite strayRankCard 0 0 1 0x220000 0 0 [1] firstWriteOp firstWriteLeaf
    (strayRankCard.poolCfg 0 0) poolRegion tableRegion rfl (by decide) rfl rfl rfl (by decide) (by decide)
    translate_strayRankCard rfl rfl rfl (by decide) (by decide) rfl (by decide) (by decide) (by decide) lostBefore
    (by decide) lostTable
  have hsome : (strayRankCard.sparseBack 0 1 0 none firstWriteLeaf none).2 = .ok (2, 0) := congrArg Prod.snd hbacked
  have hfails := sparseBack_strayRankCard
  rw [hsome] at hfails
  cases hfails

end Sys2Proof.Proofs
end

section
/-! The movers' operations (R149, R278, R531, R539): the work of each runs to its end where its fields are in range and its
pages pass. -/

namespace Sys2Proof.Proofs

open Sys2Proof Sys2Proof.Machine Sys2Proof.Laws

/-! ### Loops over pieces and pages -/

/-- Work done on every item of a list, which leaves the run as it is, gives what comes next a list of good answers. -/
theorem runs_mapM_bind {α β γ : Type} {f : α → Eng β} {Q : β → Prop} {k : List β → Eng γ} {x z : Run} {v : γ} {l : List α}
    (hf : ∀ a ∈ l, ∃ b, Runs (f a) x b x ∧ Q b) (hk : ∀ bs, (∀ b ∈ bs, Q b) → Runs (k bs) x v z) :
    Runs (l.mapM f >>= k) x v z := by
  have hall : ∃ bs, Runs (l.mapM f) x bs x ∧ ∀ b ∈ bs, Q b := by
    clear hk
    induction l with
    | nil => exact ⟨[], runs_pure _ _, by simp⟩
    | cons a t ih =>
      obtain ⟨b, hb, hQ⟩ := hf a List.mem_cons_self
      obtain ⟨bs, hbs, hQs⟩ := ih fun a' ha' => hf a' (List.mem_cons_of_mem _ ha')
      refine ⟨b :: bs, ?_, List.forall_mem_cons.mpr ⟨hQ, hQs⟩⟩
      rw [List.mapM_cons]
      exact runs_bind hb (runs_bind hbs (runs_pure _ _))
  obtain ⟨bs, hbs, hQs⟩ := hall
  exact runs_bind hbs (hk bs hQs)

theorem runs_forIn_upd {α : Type} (f : Card → α → Card) {h r : Nat} {o : Op} (l : List α) (c : Card) :
    Runs (forIn l PUnit.unit fun a _ => do Eng.upd (f · a); pure (ForInStep.yield PUnit.unit))
      { card := c, op := o, h := h, r := r } PUnit.unit { card := l.foldl f c, op := o, h := h, r := r } := by
  induction l generalizing c with
  | nil => exact runs_pure _ _
  | cons a t ih =>
    rw [List.forIn_cons]
    exact runs_bind (runs_bind (runs_upd _ _) (runs_pure _ _)) (ih _)

theorem runs_forIn_wr {α : Type} (f : α → Nat × List Byte) {h r : Nat} {l : List α} {a b : Card × Op}
    (hw : WritesTo h r (l.map f) a b) (ho : a.2.epoch = none) :
    Runs (forIn l PUnit.unit fun k _ => do Eng.wr (f k).1 (f k).2; pure (ForInStep.yield PUnit.unit))
      { card := a.1, op := a.2, h := h, r := r } PUnit.unit { card := b.1, op := b.2, h := h, r := r } := by
  induction l generalizing a with
  | nil => subst hw; exact runs_pure _ _
  | cons k t ih =>
    obtain ⟨m, hfirst, hrest⟩ := hw
    obtain ⟨hepoch, -⟩ := writeTo_epoch hfirst
    rw [List.forIn_cons]
    exact runs_bind (runs_bind (runs_wr ho hfirst) (runs_pure _ _)) (ih hrest (hepoch.trans ho))

theorem writesTo_status {h r : Nat} {l : List (Nat × List Byte)} {a b : Card × Op} (hw : WritesTo h r l a b) :
    b.2.status = a.2.status := by
  induction l generalizing a with
  | nil => subst hw; rfl
  | cons k t ih =>
    obtain ⟨m, hfirst, hrest⟩ := hw
    obtain ⟨-, hstatus, -⟩ := writeTo_epoch hfirst
    exact (ih hrest).trans hstatus

/-- The pieces of a copy whose ranges do not overlap: each is checked, read and written (R149). -/
theorem runs_forIn_copy {h r src dst : Nat} {l : List (Nat × Nat)} {a b : Card × Op} (hc : CopiesTo h r src dst l a b)
    (ho : a.2.epoch = none) :
    Runs (forIn l PUnit.unit fun k _ => do
        Eng.confine stFailedInput (src + k.1) (dst + k.1) k.2
        let bs ← Eng.rd (src + k.1) k.2
        let _ ← Eng.card
        Eng.wr (dst + k.1) bs
        pure (ForInStep.yield PUnit.unit))
      { card := a.1, op := a.2, h := h, r := r } PUnit.unit { card := b.1, op := b.2, h := h, r := r } := by
  induction l generalizing a with
  | nil => subst hc; exact runs_pure _ _
  | cons k t ih =>
    obtain ⟨hstays, m, bs, d, hread, hwrite, hrest⟩ := hc
    obtain ⟨hepoch, -⟩ := writeTo_epoch hwrite
    rw [List.forIn_cons]
    exact runs_bind (runs_bind (runs_confine hstays) (runs_bind (runs_rd hread) (runs_bind (runs_card _)
      (runs_bind (runs_wr (a := (d, a.2)) ho hwrite) (runs_pure _ _))))) (ih hrest (hepoch.trans ho))

theorem copiesTo_status {h r src dst : Nat} {l : List (Nat × Nat)} {a b : Card × Op} (hc : CopiesTo h r src dst l a b) :
    b.2.status = a.2.status := by
  induction l generalizing a with
  | nil => subst hc; rfl
  | cons k t ih =>
    obtain ⟨-, m, bs, d, -, hwrite, hrest⟩ := hc
    obtain ⟨-, hstatus, -⟩ := writeTo_epoch hwrite
    exact (ih hrest).trans hstatus

/-! ### The work of each operation -/

section
variable {c d : Card} {h r : Nat} {o o' : Op}

theorem runs_fillWork (hepoch : o.epoch = none) (hpos : 0 < leAt o.body 0x10 8) (hmax : leAt o.body 0x10 8 ≤ 2 ^ 40)
    (hres : leAt o.body 0xC 4 = 0) (hres' : leAt o.body 0x18 8 = 0)
    (hpass : c.passes h o.ctx (leAt o.body 0 8) (leAt o.body 0x10 8) true false)
    (hwrites : WritesTo h r ((chunks (leAt o.body 0x10 8)).map (fun k => (leAt o.body 0 8 + k.1,
      (List.range k.2).map (fun i => ((o.body.drop 8).take 4).getD (i % 4) 0)))) (c, o) (d, o')) :
    Runs fillWork { card := c, op := o, h := h, r := r } () { card := d, op := o', h := h, r := r } := by
  obtain ⟨vs, hcheck, -, -⟩ := runs_precheck (x := { card := c, op := o, h := h, r := r }) hpass
  refine runs_bind (runs_op _) (runs_if_false ?inRange (runs_bind hcheck ?moves))
  case inRange => dsimp only; omega
  case moves =>
    have hloop := runs_forIn_wr _ hwrites hepoch
    exact runs_bind hloop (runs_pure _ _)

theorem runs_copyWork {src dst n : Nat} (hepoch : o.epoch = none) (hsrc : src = leAt o.body 0 8) (hdst : dst = leAt o.body 8 8)
    (hn : n = leAt o.body 0x10 8) (hpos : 0 < n) (hmax : n ≤ 2 ^ 40) (hres : leAt o.body 0x18 8 = 0)
    (hread : c.passes h o.ctx src n false false) (hstays : c.copyStays h o.ctx src dst n)
    (hwrite : c.passes h o.ctx dst n true false) (hhand : c.atHand h o src n)
    (hapart : src = dst ∨ rangesMeet src n dst n = false) (hcopies : CopiesTo h r src dst (chunks n) (c, o) (d, o')) :
    Runs copyWork { card := c, op := o, h := h, r := r } () { card := d, op := o', h := h, r := r } := by
  obtain ⟨rs, hreads, hlocal, -⟩ := runs_precheck (x := { card := c, op := o, h := h, r := r }) hread
  obtain ⟨ws, hwrites, -, -⟩ := runs_precheck (x := { card := c, op := o, h := h, r := r }) hwrite
  have hplain : ¬(src ≠ dst ∧ rangesMeet src n dst n = true) := by
    rintro ⟨hne, hmeet⟩
    rcases hapart with heq | hapart
    · exact hne heq
    · rw [hmeet] at hapart; cases hapart
  subst hsrc hdst hn
  refine runs_bind (runs_op _) (runs_if_false ?inRange (runs_bind hreads (runs_bind (runs_confine hstays)
    (runs_bind hwrites (runs_if_false ?notRemote (runs_bind (runs_want hhand) ?moves))))))
  case inRange => dsimp only; omega
  case notRemote => simp [hlocal]
  case moves =>
    simp only [if_neg hplain]
    exact runs_bind (runs_forIn_copy hcopies hepoch) (runs_pure _ _)

/-- UNBACK returns every page in turn, once all of them are found sparse and none of their entries is held. -/
theorem runs_unbackWork {dst n : Nat} (hdst : dst = leAt o.body 0 8) (hn : n = leAt o.body 0x10 8) (hpos : 0 < n)
    (hmax : n ≤ 2 ^ 40) (hres : leAt o.body 8 8 = 0) (hres' : leAt o.body 0x18 8 = 0) (hdstPage : dst % 65536 = 0)
    (hnPage : n % 65536 = 0) (hpages : ∀ p ∈ pagesOf dst n, ∃ l, c.translate h o.ctx p = .ok l ∧ l.sparse = true ∧
      (c.regionOf l.atRegion).any (fun e => c.spanHeld e.2 l.atOff 8) = false) :
    Runs unbackWork { card := c, op := o, h := h, r := r } ()
      { card := (pagesOf dst n).foldl (fun d p => d.unbackPage h o.ctx r p) c, op := o, h := h, r := r } := by
  subst hdst hn
  refine runs_bind (runs_op _) (runs_if_false ?inRange (runs_bind (runs_check _ _ ?aligned) (runs_bind (runs_card _)
    (runs_bind (runs_hamper _) (runs_bind (runs_ring _) (runs_mapM_bind (Q := fun l => l.sparse = true ∧
      (c.regionOf l.atRegion).any (fun e => c.spanHeld e.2 l.atOff 8) = false) ?leaves fun vs hvs => ?moves))))))
  case inRange => dsimp only; omega
  case aligned => simp [hdstPage, hnPage]
  case leaves =>
    intro p hp
    obtain ⟨l, hl, hleaf⟩ := hpages p hp
    refine ⟨l, ?_, hleaf⟩
    dsimp only
    rw [hl]
    exact runs_pure _ _
  case moves =>
    refine runs_bind (runs_check _ _ (List.all_eq_true.mpr fun l hl => (hvs l hl).1)) (runs_if_false ?free
      (runs_bind (runs_forIn_upd (fun d p => d.unbackPage h o.ctx r p) _ c) (runs_pure _ _)))
    simp only [List.any_eq_true, not_exists, not_and, Bool.not_eq_true]
    exact fun l hl => (hvs l hl).2

/-- A range none of whose pages is of a PICTURE region has no page that must stay on the card (R142). -/
theorem picturePage_of_passes {ctx va n : Nat} (hpass : c.passes h ctx va n false true) : c.picturePage h ctx va n = none := by
  rw [Card.picturePage, List.find?_eq_none]
  intro p hp
  cases hcheck : c.pageCheck h ctx p false with
  | error f => simp
  | ok v =>
    obtain ⟨-, hpicture⟩ : v.remote = false ∧ v.picture = false := by simpa [hcheck] using hpass.2 p hp
    simp [hpicture]

theorem runs_sendWork {src port n : Nat} {bs : List Byte} (hsrc : src = leAt o.body 0 8) (hport : port = leAt o.body 8 1)
    (hn : n = leAt o.body 0x10 8) (hport1 : port ≤ 1) (hres : leAt o.body 9 7 = 0) (hpos : 1 ≤ n) (hmax : n ≤ 256)
    (hpass : c.passes h o.ctx src n false true) (hread : ReadsTo h o [(src, n)] c [bs] d) (hup : c.portDown port = false) :
    Runs sendWork { card := c, op := o, h := h, r := r } ()
      { card := d.sendRemote h r o port 2 [n, d.f (mg 0xA000) 2 0, h, leAt o.body 0x18 8, o.at_] bs 0 0 n,
        op := o, h := h, r := r } := by
  obtain ⟨vs, hcheck, hlocal, -⟩ := runs_precheck (x := { card := c, op := o, h := h, r := r }) hpass
  subst hsrc hport hn
  refine runs_bind (runs_op _) (runs_bind (runs_check _ _ ?inRange) (runs_bind hcheck (runs_if_false ?notRemote
    (runs_bind (runs_card _) (runs_bind (runs_hamper _) ?sends)))))
  case inRange => simp [hport1, hres, hpos, hmax]
  case notRemote => simp [hlocal]
  case sends =>
    dsimp only
    rw [picturePage_of_passes hpass]
    exact runs_bind (runs_want (atHand_of_read hread)) (runs_bind (runs_rd hread) (runs_bind (runs_ring _)
      (runs_if_false (by simp [hup]) (runs_upd _ _))))

theorem runs_commitWork {addr k : Nat} (haddr : addr = leAt o.body 0 8) (hk : k = leAt o.body 8 1)
    (hres : leNat (o.body.drop 9) = 0) (hport : (c.portOf h).isSome = true) (hon : c.bit (mg 0x28) 1 = true) (hk4 : k < 4)
    (hen : c.bit (vcReg h k 0) 31 = true) (hctx : (c.vcCfg h k).ctx = o.ctx)
    (hbuf : addr = 0 ∨ c.bufferOk h (c.vcCfg h k) addr = true) :
    Runs commitWork { card := c, op := o, h := h, r := r } () { card := c.commit h k addr, op := o, h := h, r := r } := by
  subst haddr hk
  exact runs_bind (runs_op _) (runs_bind (runs_card _) (runs_bind (runs_hamper _) (runs_if_false (by simp [hres])
    (runs_bind (runs_check _ _ (by simp [hport, hon])) (runs_bind (runs_check _ _ (by simp [hk4, hen, hctx]))
      (runs_bind (runs_check _ _ (by simpa using hbuf)) (runs_upd _ _)))))))

end

/-- Settles O54: each operation's work runs to its end, and leaves the card that its clause names. -/
theorem moverRowsComplete : Obligations.MoverRowsComplete := by
  refine ⟨?fill, ?copy, ?unback, ?send, ?commit⟩
  case fill =>
    intro c h r seq c0 d o o' htaken ⟨hepoch, hstatus⟩ hpos hmax hres hres' hpass hwrites
    exact finishes_of_runs (fun _ => rfl) htaken (runs_fillWork hepoch hpos hmax hres hres' hpass hwrites)
      ((writesTo_status hwrites).trans hstatus)
  case copy =>
    intro c h r seq c0 d o o' src dst n htaken ⟨hepoch, hstatus⟩ hsrc hdst hn hpos hmax hres hread hstays hwrite hhand hapart
      hcopies
    exact finishes_of_runs (fun _ => rfl) htaken
      (runs_copyWork hepoch hsrc hdst hn hpos hmax hres hread hstays hwrite hhand hapart hcopies)
      ((copiesTo_status hcopies).trans hstatus)
  case unback =>
    intro c h r seq c0 o dst n htaken ⟨_, hstatus⟩ hdst hn hpos hmax hres hres' hdstPage hnPage hpages
    exact finishes_of_runs (fun _ => rfl) htaken
      (runs_unbackWork hdst hn hpos hmax hres hres' hdstPage hnPage hpages) hstatus
  case send =>
    intro c h r seq c0 d o src port n bs htaken ⟨_, hstatus⟩ hsrc hport hn hport1 hres hpos hmax hpass hread hup
    exact finishes_of_runs (fun _ => rfl) htaken
      (runs_sendWork hsrc hport hn hport1 hres hpos hmax hpass hread hup) hstatus
  case commit =>
    intro c h r seq c0 o addr k htaken ⟨_, hstatus⟩ haddr hk hres hport hon hk4 hen hctx hbuf
    exact finishes_of_runs (fun _ => rfl) htaken
      (runs_commitWork haddr hk hres hport hon hk4 hen hctx hbuf) hstatus

end Sys2Proof.Proofs
end

section
/-! Buffer pools (R157 to R164): the lowest free buffer of a pool, and the commands of a hamper's pool unit. -/

namespace Sys2Proof.Proofs

open Sys2Proof Sys2Proof.Machine Sys2Proof.Laws

/-! ### The lowest free buffer -/

section
variable {c : Card} {h p : Nat}

theorem firstFree_succ_of_free {i : Nat} (hfree : c.buf h p i = none) (n : Nat) : c.firstFree h p (n + 1) i = some i := by
  simp [Card.firstFree, hfree]

theorem firstFree_succ_of_taken {i : Nat} {b : Buf} (htaken : c.buf h p i = some b) (n : Nat) :
    c.firstFree h p (n + 1) i = c.firstFree h p n (i + 1) := by
  simp [Card.firstFree, htaken]

/-- What holds of a first buffer and of all that follow it holds of all from the first on. -/
theorem isSome_of_first {i e : Nat} {b : Buf} (hfirst : c.buf h p i = some b)
    (hrest : ∀ k, i + 1 ≤ k → k < e → (c.buf h p k).isSome = true) :
    ∀ k, i ≤ k → k < e → (c.buf h p k).isSome = true := by
  intro k hik hke
  rcases hik.eq_or_lt with rfl | hlt
  · rw [hfirst, Option.isSome_some]
  · exact hrest k hlt hke

/-- The buffer found is the lowest free one of those looked at (R157, R158). -/
theorem lowest_of_firstFree_eq_some {n i j : Nat} (hfound : c.firstFree h p n i = some j) :
    i ≤ j ∧ j < i + n ∧ c.buf h p j = none ∧ ∀ k, i ≤ k → k < j → (c.buf h p k).isSome = true := by
  induction n generalizing i with
  | zero => cases hfound
  | succ n ih =>
    cases hbuf : c.buf h p i with
    | none =>
      rw [firstFree_succ_of_free hbuf] at hfound
      cases hfound
      exact ⟨le_rfl, by omega, hbuf, fun k hik hki => absurd hki (not_lt.mpr hik)⟩
    | some b =>
      rw [firstFree_succ_of_taken hbuf] at hfound
      obtain ⟨hij, hjn, hfree, hbelow⟩ := ih hfound
      exact ⟨by omega, by omega, hfree, isSome_of_first hbuf hbelow⟩

/-- No buffer is found only when none of those looked at is free (R157). -/
theorem allTaken_of_firstFree_eq_none {n i : Nat} (hfound : c.firstFree h p n i = none) :
    ∀ k, i ≤ k → k < i + n → (c.buf h p k).isSome = true := by
  induction n generalizing i with
  | zero => exact fun k hik hki => absurd hki (not_lt.mpr hik)
  | succ n ih =>
    cases hbuf : c.buf h p i with
    | none =>
      rw [firstFree_succ_of_free hbuf] at hfound
      cases hfound
    | some b =>
      rw [firstFree_succ_of_taken hbuf] at hfound
      rw [show i + (n + 1) = i + 1 + n by omega]
      exact isSome_of_first hbuf (ih hfound)

end

/-- Settles O27, by induction on the number of buffers looked at. -/
theorem poolTakesLowestFreeBuffer : Obligations.PoolTakesLowestFreeBuffer := by
  intro c h p n i
  refine ⟨fun j hfound => ?_, allTaken_of_firstFree_eq_none⟩
  obtain ⟨hij, hjn, hfree, hbelow⟩ := lowest_of_firstFree_eq_some hfound
  exact ⟨hij, hjn, Option.isNone_iff_eq_none.mpr hfree, hbelow⟩

/-! ### Enabling and disabling a pool (R162, R163) -/

section
variable {c : Card} {h : Fin 4}

theorem becomes_poolEnable {p : Fin 16} (hreach : c.reaches (.pf h) (0x50000 + 0x40 * p.val) = true)
    (hidle : tabGet none c.poolChk h.val = none) (hoff : c.poolOn h.val p.val = false) (v : Word) :
    Becomes (.poolEnable h p v) c (((c.writeReg (poolReg h.val p.val 0) v).setF (hp h.val 0x50404) 31 31 1).setPoolChk h.val
      (some ⟨p.val, true⟩)) := by
  refine becomes_of_run (execPoolEnable.eq_def h p v) ?_
  rw [hostWrite_of_reaches hreach, if_neg (by simp [hidle, hoff])]

theorem becomes_poolDisable {p : Fin 16} (hreach : c.reaches (.pf h) (0x50000 + 0x40 * p.val) = true)
    (hidle : tabGet none c.poolChk h.val = none) (hon : c.poolOn h.val p.val = true) (v : Word) :
    Becomes (.poolDisable h p v) c ((c.setF (hp h.val 0x50404) 31 31 1).setPoolChk h.val (some ⟨p.val, false⟩)) := by
  refine becomes_of_run (execPoolDisable.eq_def h p v) ?_
  rw [hostWrite_of_reaches hreach, if_neg (by simp [hidle]), if_pos hon]

theorem becomes_poolCheckDone_enable {p : Nat} (hcheck : tabGet none c.poolChk h.val = some ⟨p, true⟩)
    (hok : c.poolEnableCode h.val p = 0) :
    Becomes (.poolCheckDone h) c ((((c.setN (hp h.val 0x50404) (p * 2 ^ 24)).setPoolChk h.val none).setBit
      (poolReg h.val p 0) 31 true).setN (poolReg h.val p 0x14) 0xFFFFF) := by
  refine becomes_of_run (execPoolCheckDone.eq_def h) ?_
  rw [hcheck]
  dsimp only
  rw [if_pos rfl, hok, if_pos rfl, if_pos rfl, Nat.add_zero]

theorem becomes_poolCheckDone_disable {p : Nat} (hcheck : tabGet none c.poolChk h.val = some ⟨p, false⟩)
    (hhome : c.poolOut h.val p = 0) :
    Becomes (.poolCheckDone h) c (((c.setN (hp h.val 0x50404) (p * 2 ^ 24)).setPoolChk h.val none).setBit
      (poolReg h.val p 0) 31 false) := by
  refine becomes_of_run (execPoolCheckDone.eq_def h) ?_
  rw [hcheck]
  dsimp only
  rw [if_neg Bool.false_ne_true, if_neg (not_not.mpr hhome), if_pos rfl, if_neg Bool.false_ne_true, Nat.add_zero]

/-- A pool with buffers out stays enabled: the check reports code 9. -/
theorem becomes_poolCheckDone_refused {p : Nat} (hcheck : tabGet none c.poolChk h.val = some ⟨p, false⟩)
    (hout : c.poolOut h.val p ≠ 0) :
    Becomes (.poolCheckDone h) c ((c.setN (hp h.val 0x50404) (p * 2 ^ 24 + 9)).setPoolChk h.val none) := by
  refine becomes_of_run (execPoolCheckDone.eq_def h) ?_
  rw [hcheck]
  dsimp only
  rw [if_neg Bool.false_ne_true, if_pos hout, if_neg (by decide)]

/-! ### The host's takes and frees (R159, R164) -/

theorem becomes_poolHostTake {v : Word} {sel len ctx ring : Nat} (hreach : c.reaches (.pf h) 0x50418 = true)
    (hgo : fld v 31 31 = 1) (hsel : sel = c.f (hp h.val 0x50410) 31 24) (hlen : len = c.f (hp h.val 0x50414) 22 0)
    (hctx : ctx = c.f (hp h.val 0x50410) 11 0) (hring : ring = c.f (hp h.val 0x50410) 19 16)
    (hen : c.ctxOn h.val ctx = true) (hfits : ¬(len = 0 ∨ 0x400000 < len)) :
    Becomes (.poolHostTake h v) c ((c.poolTake h.val sel len ctx ring none).1.setN (hp h.val 0x50418)
      (takeResult (c.poolTake h.val sel len ctx ring none).2)) := by
  subst hsel hlen hctx hring
  refine becomes_of_run (execPoolHostTake.eq_def h v) ?_
  rw [hostWrite_of_reaches hreach, if_neg (by simp [hgo])]
  dsimp only
  rw [if_neg (by simp [hen]), if_neg hfits]

/-- A free of a buffer that is out and not held makes it FREE, and MIN follows. -/
theorem poolFree_of_taken {h p i : Nat} {b : Buf} (hon : c.poolOn h p = true) (hi : i < (c.poolCfg h p).count)
    (hbuf : c.buf h p i = some b) (hheld : b.held = false) (ctx ring : Nat) (host : Bool) :
    c.poolFree h p i ctx ring host false = (c.setBuf h p i none).poolMin h p := by
  rw [Card.poolFree, if_neg Bool.false_ne_true, if_neg (by simp [hon, hi]), hbuf]
  exact if_neg (by simp [hheld])

theorem becomes_poolHostFree {v : Word} {p i : Nat} {b : Buf} (hreach : c.reaches (.pf h) 0x50408 = true)
    (hpool : p = fld v 27 24) (hindex : i = fld v 19 0) (hon : c.poolOn h.val p = true) (hcount : i < (c.poolCfg h.val p).count)
    (hbuf : c.buf h.val p i = some b) (hheld : b.held = false) :
    Becomes (.poolHostFree h v) c ((c.setBuf h.val p i none).poolMin h.val p) := by
  subst hpool hindex
  refine becomes_of_run (execPoolHostFree.eq_def h v) ?_
  rw [hostWrite_of_reaches hreach, poolFree_of_taken hon hcount hbuf hheld]

/-! ### The audit (R161) -/

theorem becomes_poolAudit {v : Word} (hreach : c.reaches (.pf h) 0x50430 = true) (hidle : c.bit (hp h.val 0x50430) 30 = false)
    (hgo : fld v 31 31 = 1) :
    Becomes (.poolAudit h v) c ((c.writeReg (hp h.val 0x50430) v).setBit (hp h.val 0x50430) 30 true) := by
  refine becomes_of_run (execPoolAudit.eq_def h v) ?_
  rw [hostWrite_of_reaches hreach, if_neg (by simp [hidle])]
  exact if_pos hgo

end

/-- A write of a register leaves card time. -/
theorem ns_setReg (c : Card) (k : Nat) (w : Word) : (c.setReg k w).ns = c.ns := rfl

theorem ns_setN (c : Card) (k v : Nat) : (c.setN k v).ns = c.ns := ns_setReg ..

theorem ns_setBit (c : Card) (k i : Nat) (b : Bool) : (c.setBit k i b).ns = c.ns := ns_setReg ..

/-- HP_AUDIT_AGE: the time since the oldest buffer was taken, or 0 when none matched. -/
def oldestAge (now : Nat) : Option (Nat × Nat × Buf) → Nat
  | some (_, _, b) => min 0xFFFFFFFF (now - b.time)
  | none => 0

/-- HP_AUDIT_OLDEST: VALID with the pool and the index of the oldest buffer, or 0 when none matched. -/
def oldestPlace : Option (Nat × Nat × Buf) → Nat
  | some (p, i, _) => 2 ^ 31 + p * 2 ^ 24 + i
  | none => 0

/-- An audit's end: BUSY falls, and the counts of OUT and of PROVISIONAL buffers, AGE and OLDEST are written. -/
def auditResult (c : Card) (h out provisional age place : Nat) : Card :=
  ((((c.setBit (hp h 0x50430) 30 false).setN (hp h 0x50434) out).setN (hp h 0x50438) provisional).setN (hp h 0x5043C)
    age).setN (hp h 0x50440) place

theorem hp_ne_of_ne {h off off' : Nat} (hne : off ≠ off') : hp h off ≠ hp h off' := by
  simp only [hp, Space.key]
  omega

section
variable (c : Card) (h out provisional age place : Nat)

theorem bit_busy_auditResult : (auditResult c h out provisional age place).bit (hp h 0x50430) 30 = false := by
  rw [auditResult, bit_setN_ne (hp_ne_of_ne (by decide)), bit_setN_ne (hp_ne_of_ne (by decide)),
    bit_setN_ne (hp_ne_of_ne (by decide)), bit_setN_ne (hp_ne_of_ne (by decide)), bit_setBit_self (by decide)]

theorem reg_out_auditResult : (auditResult c h out provisional age place).reg (hp h 0x50434) = BitVec.ofNat 32 out := by
  rw [auditResult, reg_setN_ne (hp_ne_of_ne (by decide)), reg_setN_ne (hp_ne_of_ne (by decide)),
    reg_setN_ne (hp_ne_of_ne (by decide)), reg_setN_self]

theorem reg_provisional_auditResult :
    (auditResult c h out provisional age place).reg (hp h 0x50438) = BitVec.ofNat 32 provisional := by
  rw [auditResult, reg_setN_ne (hp_ne_of_ne (by decide)), reg_setN_ne (hp_ne_of_ne (by decide)), reg_setN_self]

end

/-- The scan counts the buffers that match by whether an epoch holds them: those OUT, and the PROVISIONAL ones. -/
theorem becomes_auditScanDone {c : Card} {h : Fin 4} (hbusy : c.bit (hp h.val 0x50430) 30 = true) (hlive : c.frozen = false) :
    Becomes (.auditScanDone h) c (auditResult c h.val
      ((c.audited h.val).filter fun x => x.2.2.epoch.isNone).length
      ((c.audited h.val).filter fun x => x.2.2.epoch.isSome).length
      (oldestAge (c.ns / 2 ^ 20) (oldest (c.audited h.val))) (oldestPlace (oldest (c.audited h.val)))) := by
  refine becomes_of_run (execAuditScanDone.eq_def h) ?_
  rw [if_neg (by simp [hbusy, hlive])]
  dsimp only
  rw [ns_setN, ns_setN, ns_setBit]
  cases oldest (c.audited h.val) <;> rfl

/-- Settles O39, row by row. -/
theorem poolRowsComplete : Obligations.PoolRowsComplete := by
  refine ⟨?enable, ?disable, ?checkEnable, ?checkDisable, ?checkRefused, ?take, ?free, ?audit, ?scanDone⟩
  case enable => exact fun c h p v hreach hidle hoff => becomes_poolEnable hreach hidle hoff v
  case disable => exact fun c h p v hreach hidle hon => becomes_poolDisable hreach hidle hon v
  case checkEnable => exact fun c h p hcheck hok => becomes_poolCheckDone_enable hcheck hok
  case checkDisable => exact fun c h p hcheck hhome => becomes_poolCheckDone_disable hcheck hhome
  case checkRefused => exact fun c h p hcheck hout => becomes_poolCheckDone_refused hcheck hout
  case take => exact fun c h v hreach hgo hen hfits => becomes_poolHostTake hreach hgo rfl rfl rfl rfl hen hfits
  case free =>
    exact fun c h v b hreach hon hcount hbuf hheld => becomes_poolHostFree hreach rfl rfl hon hcount hbuf hheld
  case audit => exact fun c h v hreach hidle hgo => becomes_poolAudit hreach hidle hgo
  case scanDone =>
    intro c h hbusy hlive
    have hdone := becomes_auditScanDone hbusy hlive
    exact ⟨_, hdone, bit_busy_auditResult .., reg_out_auditResult .., reg_provisional_auditResult ..⟩

end Sys2Proof.Proofs
end

section
/-! Region data in card memory (R175 to R177): different data offsets lie at different places, a write changes the bytes it
names and the POISON bits of its lines, and what is written reads back. -/

namespace Sys2Proof.Proofs

open Sys2Proof Sys2Proof.Machine Sys2Proof.Laws

/-! ### The place of a data offset -/

theorem nodup_maskList (m n : Nat) : (maskList m n).Nodup := List.nodup_range.filter _

/-- The channels of a region take its pages in turn (R175). -/
theorem chanAddr_fst (e : RegionEnt) (d : Nat) :
    (e.chanAddr d).1 = (maskList e.channels 8).getD (d / 4096 % popCount e.channels 8) 0 := by
  cases hecc : e.ecc <;> simp only [RegionEnt.chanAddr, hecc, Bool.false_eq_true, if_true, if_false, popCount]

/-- No channel has two turns. -/
theorem turn_eq_of_chanAddr_fst_eq {e : RegionEnt} {d x : Nat} (hne : maskList e.channels 8 ≠ [])
    (h : (e.chanAddr d).1 = (e.chanAddr x).1) : d / 4096 % popCount e.channels 8 = x / 4096 % popCount e.channels 8 := by
  have hpos : 0 < (maskList e.channels 8).length := List.length_pos_iff.mpr hne
  have hd : d / 4096 % popCount e.channels 8 < (maskList e.channels 8).length := Nat.mod_lt _ hpos
  have hx : x / 4096 % popCount e.channels 8 < (maskList e.channels 8).length := Nat.mod_lt _ hpos
  rw [chanAddr_fst, chanAddr_fst, List.getD_eq_getElem _ _ hd, List.getD_eq_getElem _ _ hx] at h
  exact (nodup_maskList _ _).getElem_inj_iff.mp h

/-- A channel's data, in blocks of 448 bytes where the region has ECC, do not overlap. -/
theorem channelOffset_eq_of_chanAddr_snd_eq {e : RegionEnt} {d x : Nat} (h : (e.chanAddr d).2 = (e.chanAddr x).2) :
    channelOffset e d = channelOffset e x := by
  cases hecc : e.ecc
  · rw [chanAddr_of_plain hecc, chanAddr_of_plain hecc] at h
    omega
  · rw [chanAddr_of_ecc hecc, chanAddr_of_ecc hecc] at h
    omega

/-- A page's turn and its place among the data of its channel give the page. -/
theorem eq_of_turn_eq_of_channelOffset_eq {e : RegionEnt} {d x : Nat}
    (hturn : d / 4096 % popCount e.channels 8 = x / 4096 % popCount e.channels 8)
    (hplace : channelOffset e d = channelOffset e x) : d = x := by
  unfold channelOffset at hplace
  have hround : d / 4096 / popCount e.channels 8 = x / 4096 / popCount e.channels 8 := by omega
  have hpage : d / 4096 = x / 4096 := by
    rw [← Nat.div_add_mod (d / 4096) (popCount e.channels 8), hround, hturn, Nat.div_add_mod]
  omega

/-- Settles O21: an offset's channel gives its page's turn, and its address the page's place among the channel's data. -/
theorem regionAddressesAreDistinct : Obligations.RegionAddressesAreDistinct := fun _ _ _ hne haddr =>
  eq_of_turn_eq_of_channelOffset_eq (turn_eq_of_chanAddr_fst_eq hne (congrArg Prod.fst haddr))
    (channelOffset_eq_of_chanAddr_snd_eq (congrArg Prod.snd haddr))

/-- A byte of card memory stands in its block of 512 bytes as its channel address does in its own. -/
theorem mod_block_of_phys {c : Card} {ch a : Nat} {k : Nat × Nat} (h : c.phys ch a = some k) : k.2 % 512 = a % 512 := by
  obtain ⟨j, -, rfl⟩ := Option.map_eq_some_iff.mp h
  change (j * 2 ^ 34 + a % 2 ^ 34) % 512 = a % 512
  omega

/-! ### Memory writes leave the place of every byte -/

@[simp] theorem phys_memPut (c : Card) (key : Nat) (b : Byte) (ch a : Nat) : (c.memPut key b).phys ch a = c.phys ch a := rfl

theorem putBytes_cons_of_lost {c : Card} {e : RegionEnt} {d : Nat} (h : c.phys (e.chanAddr d).1 (e.chanAddr d).2 = none)
    (b : Byte) (t : List Byte) : c.putBytes e d (b :: t) = c.putBytes e (d + 1) t := by
  rw [Card.putBytes, h]

theorem putBytes_cons_of_phys {c : Card} {e : RegionEnt} {d : Nat} {k : Nat × Nat}
    (h : c.phys (e.chanAddr d).1 (e.chanAddr d).2 = some k) (b : Byte) (t : List Byte) :
    c.putBytes e d (b :: t) = (c.memPut k.2 b).putBytes e (d + 1) t := by
  rw [Card.putBytes, h]

@[simp] theorem phys_putBytes (c : Card) (e : RegionEnt) (d : Nat) (bs : List Byte) (ch a : Nat) :
    (c.putBytes e d bs).phys ch a = c.phys ch a := by
  induction bs generalizing c d with
  | nil => rfl
  | cons b t ih =>
    cases hphys : c.phys (e.chanAddr d).1 (e.chanAddr d).2 with
    | none => rw [putBytes_cons_of_lost hphys, ih]
    | some k => rw [putBytes_cons_of_phys hphys, ih, phys_memPut]

/-- The bytes of a write go to the places of its data offsets. -/
theorem memAt_putBytes_of_ne {c : Card} {e : RegionEnt} {d : Nat} {bs : List Byte} {a : Nat}
    (h : ∀ (i : Nat) (k : Nat × Nat), i < bs.length → c.phys (e.chanAddr (d + i)).1 (e.chanAddr (d + i)).2 = some k → a ≠ k.2) :
    (c.putBytes e d bs).memAt a = c.memAt a := by
  induction bs generalizing c d with
  | nil => rfl
  | cons b t ih =>
    have hrest : ∀ (i : Nat) (k : Nat × Nat), i < t.length →
        c.phys (e.chanAddr (d + 1 + i)).1 (e.chanAddr (d + 1 + i)).2 = some k → a ≠ k.2 := by
      intro i k hi hphys
      rw [Nat.add_right_comm] at hphys
      exact h (i + 1) k (Nat.succ_lt_succ hi) hphys
    cases hphys : c.phys (e.chanAddr d).1 (e.chanAddr d).2 with
    | none => rw [putBytes_cons_of_lost hphys, ih hrest]
    | some k =>
      have hne : a ≠ k.2 := h 0 k (Nat.succ_pos _) hphys
      rw [putBytes_cons_of_phys hphys, ih (c := c.memPut k.2 b) hrest, memAt_memPut_ne hne]

/-! ### The POISON bits of the lines written whole (R177) -/

/-- The data offsets of the lines wholly inside a write of `n` bytes from `d` on. -/
def wholeLines (d n : Nat) : List Nat := (List.range ((d + n) / 64 - ceilDiv d 64)).map fun i => 64 * (ceilDiv d 64 + i)

theorem bounds_of_mem_wholeLines {d n x : Nat} (hx : x ∈ wholeLines d n) : d ≤ x ∧ x < d + n := by
  simp only [wholeLines, ceilDiv, List.mem_map, List.mem_range] at hx
  omega

/-- One byte is no whole line. -/
theorem wholeLines_one (d : Nat) : wholeLines d 1 = [] := by
  have hnone : (d + 1) / 64 - ceilDiv d 64 = 0 := by
    unfold ceilDiv
    omega
  rw [wholeLines, hnone]
  rfl

/-- The POISON bit of the line at data offset `x` of an ECC region, cleared where it was set. -/
def clearLine (e : RegionEnt) (c : Card) (x : Nat) : Card :=
  match c.phys (e.chanAddr x).1 (e.chanAddr x).2 with
  | some (_, key) => if c.poisoned key then c.setPoison key false else c
  | none => c

theorem clearLines_of_ecc {e : RegionEnt} (h : e.ecc = true) (c : Card) (d n : Nat) :
    c.clearLines e d n = (wholeLines d n).foldl (clearLine e) c := by
  rw [wholeLines, List.foldl_map]
  exact if_pos h

theorem clearLines_of_plain {e : RegionEnt} (h : e.ecc = false) (c : Card) (d n : Nat) : c.clearLines e d n = c :=
  if_neg (by simp [h])

/-- A line's POISON bit is cleared by a write of its byte, or there is nothing to clear. -/
theorem clearLine_cases (e : RegionEnt) (c : Card) (x : Nat) :
    clearLine e c x = c ∨
      ∃ k, c.phys (e.chanAddr x).1 (e.chanAddr x).2 = some k ∧ ∃ b, clearLine e c x = c.memPut (poisonKey k.2).1 b := by
  unfold clearLine
  split
  case h_1 k key hphys =>
    split
    · exact .inr ⟨_, hphys, _, rfl⟩
    · exact .inl rfl
  case h_2 => exact .inl rfl

@[simp] theorem phys_clearLine (e : RegionEnt) (c : Card) (x ch a : Nat) : (clearLine e c x).phys ch a = c.phys ch a := by
  obtain hsame | ⟨k, -, b, hput⟩ := clearLine_cases e c x
  · rw [hsame]
  · rw [hput, phys_memPut]

theorem memAt_clearLine_of_ne {e : RegionEnt} {c : Card} {x a : Nat}
    (h : ∀ k, c.phys (e.chanAddr x).1 (e.chanAddr x).2 = some k → a ≠ (poisonKey k.2).1) :
    (clearLine e c x).memAt a = c.memAt a := by
  obtain hsame | ⟨k, hphys, b, hput⟩ := clearLine_cases e c x
  · rw [hsame]
  · rw [hput, memAt_memPut_ne (h k hphys)]

theorem memAt_foldl_clearLine_of_ne {e : RegionEnt} {c : Card} {l : List Nat} {a : Nat}
    (h : ∀ x ∈ l, ∀ k, c.phys (e.chanAddr x).1 (e.chanAddr x).2 = some k → a ≠ (poisonKey k.2).1) :
    (l.foldl (clearLine e) c).memAt a = c.memAt a := by
  induction l generalizing c with
  | nil => rfl
  | cons x t ih =>
    obtain ⟨hx, ht⟩ := List.forall_mem_cons.mp h
    rw [List.foldl_cons, ih (by simpa using ht), memAt_clearLine_of_ne hx]

/-! ### Writes of a region -/

/-- Settles O25: the bytes go to the places of their offsets, and each line cleared begins at a written offset. -/
theorem regionWriteTouchesOnlyItsBytes : Obligations.RegionWriteTouchesOnlyItsBytes := by
  intro c e d bs a hout
  have hbytes : (c.putBytes e d bs).memAt a = c.memAt a :=
    memAt_putBytes_of_ne fun i k hi hphys => (hout i k hi hphys).1
  rw [Card.wrRegion, ← hbytes]
  cases hecc : e.ecc
  case false => rw [clearLines_of_plain hecc]
  case true =>
    rw [clearLines_of_ecc hecc]
    refine memAt_foldl_clearLine_of_ne fun x hx k hphys => ?_
    obtain ⟨hstart, hend⟩ := bounds_of_mem_wholeLines hx
    rw [phys_putBytes, ← Nat.add_sub_cancel' hstart] at hphys
    exact (hout (x - d) k (by omega) hphys).2 hecc

/-- A write of one byte, on a rank in service, sets that byte of card memory alone. -/
theorem wrRegion_singleton {c : Card} {e : RegionEnt} {d : Nat} {k : Nat × Nat}
    (h : c.phys (e.chanAddr d).1 (e.chanAddr d).2 = some k) (b : Byte) : c.wrRegion e d [b] = c.memPut k.2 b := by
  rw [Card.wrRegion, putBytes_cons_of_phys h]
  cases hecc : e.ecc
  case false => exact clearLines_of_plain hecc ..
  case true =>
    rw [clearLines_of_ecc hecc, List.length_singleton, wholeLines_one]
    rfl

theorem poisonKey_ne_of_data {key : Nat} (h : key % 512 < 448) : (poisonKey key).1 ≠ key := by
  unfold poisonKey
  dsimp only
  omega

/-- A write of a data byte leaves the POISON bit of its own line. -/
theorem poisoned_memPut_of_data {key : Nat} (h : key % 512 < 448) (c : Card) (b : Byte) :
    (c.memPut key b).poisoned key = c.poisoned key := by
  rw [Card.poisoned, memAt_memPut_ne (poisonKey_ne_of_data h), Card.poisoned]

theorem rdByte_of_phys {c : Card} {e : RegionEnt} {d : Nat} {k : Nat × Nat}
    (h : c.phys (e.chanAddr d).1 (e.chanAddr d).2 = some k) (hgood : (e.ecc && c.poisoned k.2) = false) :
    c.rdByte e d = .ok (c.memAt k.2) := by
  rw [Card.rdByte, h]
  exact if_neg (by simp [hgood])

theorem rdRegion_one_of_rdByte {c : Card} {e : RegionEnt} {d : Nat} {b : Byte} (h : c.rdByte e d = .ok b) :
    c.rdRegion e d 1 = .ok [b] := by
  rw [Card.rdRegion, h]
  rfl

/-- Settles O26: the byte set is the byte read, since a POISON byte is never a data byte of its block. -/
theorem regionByteReadsBack : Obligations.RegionByteReadsBack := by
  intro c e d b k _ hphys hgood
  have hstill : (e.ecc && (c.memPut k.2 b).poisoned k.2) = false := by
    cases hecc : e.ecc
    case false => rfl
    case true =>
      have hdata : k.2 % 512 < 448 := (mod_block_of_phys hphys).trans_lt (chanAddr_not_check_line hecc d)
      rw [poisoned_memPut_of_data hdata, ← hecc]
      exact hgood
  have hread : (c.memPut k.2 b).rdByte e d = .ok b := by
    rw [rdByte_of_phys (c := c.memPut k.2 b) hphys hstill, memAt_memPut_self]
  rw [wrRegion_singleton hphys, rdRegion_one_of_rdByte hread]
  rfl

end Sys2Proof.Proofs
end

section
/-! The memory controllers' commands (R179, R185, R187, R188, R190, R193, R198, R205): the card that each leaves. -/

namespace Sys2Proof.Proofs

open Sys2Proof Sys2Proof.Machine Sys2Proof.Laws

/-! ### Refresh and interface delays (R179, R187, R198) -/

/-- A refresh of one subchannel closes its rows (R179). -/
def refreshed (c : Card) (ch sub : Nat) : Card :=
  { c with rowsOpen := c.rowsOpen.filter (fun e => !(e.1 / 128 == ch && e.1 / 32 % 2 == sub)) }

/-- The subchannels of each channel whose staged delays still wait after a refresh of one subchannel (R187). -/
def delaysLeft (c : Card) (ch sub : Nat) : Tab Nat := tabPut 0 c.dlyPend ch (nput (tabGet 0 c.dlyPend ch) sub sub 0)

/-- A refresh at which staged delays take effect; DLY_PENDING stands while the other subchannel waits (R187). -/
def refreshedWithDelays (c : Card) (ch sub : Nat) : Card :=
  ({ (refreshed c ch sub).enforce ch sub with dlyPend := delaysLeft c ch sub } : Card).setBit (chPage ch) 5
    (tabGet 0 (delaysLeft c ch sub) ch != 0)

section
variable {c : Card} {ch : Fin 8} {sub : Fin 2} (hlive : c.live = true) (hready : c.f (chPage ch.val) 2 0 = 1)
include hlive hready

theorem becomes_refresh (hnone : nbit (tabGet 0 c.dlyPend ch.val) sub.val = false) :
    Becomes (.refresh ch sub) c (refreshed c ch.val sub.val) := by
  refine becomes_of_run (execRefresh.eq_def ch sub) ?_
  dsimp only
  rw [if_neg (by simp [hlive, hready]), if_neg (by simp [hnone])]
  rfl

theorem becomes_refresh_of_pending (hpend : nbit (tabGet 0 c.dlyPend ch.val) sub.val = true) :
    Becomes (.refresh ch sub) c (refreshedWithDelays c ch.val sub.val) := by
  refine becomes_of_run (execRefresh.eq_def ch sub) ?_
  dsimp only
  rw [if_neg (by simp [hlive, hready]), if_pos hpend]
  rfl

end

section
variable {c : Card} {ch : Fin 8} {v : Word} (hreach : c.reaches .pf0 (0x8138 + 0x100 * ch.val) = true)
include hreach

theorem becomes_delayApply (happly : fld v 31 31 = 1) (hload : fld v 30 30 = 0) :
    Becomes (.delayApply ch v) c ((c.writeReg (chPage ch.val + 0x38) v).applyDelays ch.val) := by
  refine becomes_of_run (execDelayApply.eq_def ch v) ?_
  rw [hostWrite_of_reaches hreach, Card.delayCtl]
  rw [if_pos happly, if_neg (by simp [hload])]

theorem becomes_delayLoad {d : Card} {p : List Byte} (hd : c.writeReg (chPage ch.val + 0x38) v = d) (happly : fld v 31 31 = 0)
    (hload : fld v 30 30 = 1) (hset : d.calNear ch.val (d.f (chPage ch.val + 0x38) 29 28) = some p) :
    Becomes (.delayLoad ch v) c (d.stageSet ch.val p) := by
  refine becomes_of_run (execDelayLoad.eq_def ch v) ?_
  rw [hostWrite_of_reaches hreach, Card.delayCtl, hd]
  rw [if_neg (by simp [happly]), if_pos hload, hset]

end

/-! ### Drift windows (R188) -/

theorem driftAt_event (c : Card) (off i vec : Nat) : (c.event off i vec).driftAt = c.driftAt := by
  unfold Card.event Card.raise
  split <;> rfl

/-- An event leaves the other bits of its register. -/
theorem bit_event_of_bit {c : Card} {off i j vec : Nat} (hi : i < 32) (hp : mg off ≠ (msixBase 0).2.1)
    (h : c.bit (mg off) j = true) : (c.event off i vec).bit (mg off) j = true := by
  by_cases hji : j = i
  · rw [hji, bit_event_self hi hp]
  · unfold Card.event Card.bit Card.f
    rw [reg_raise_ne hp]
    exact (bit_setBit_disjoint hi hji).trans h

/-- The channel counted more in the window than the threshold. -/
abbrev Drifted (c : Card) (ch : Nat) : Prop := c.f (mg 0x8008) 31 16 < tabGet 0 c.driftAt ch

/-- A channel that drifted sets its bit of MG_MEM_EVENTS. -/
def driftEvent (c : Card) (ch : Nat) : Card := if Drifted c ch then c.event 0x802C (16 + ch) 7 else c

/-- No event changes which channels drifted. -/
theorem drifted_driftEvent {c : Card} {i ch : Nat} : Drifted (driftEvent c i) ch ↔ Drifted c ch := by
  unfold driftEvent
  split
  · rw [Drifted, Card.f, reg_event_ne (by decide) (by decide), driftAt_event, ← Card.f]
  · rfl

theorem bit_driftEvent_of_bit {c : Card} {i j : Nat} (hi : i < 8) (h : c.bit (mg 0x802C) j = true) :
    (driftEvent c i).bit (mg 0x802C) j = true := by
  unfold driftEvent
  split
  · exact bit_event_of_bit (by omega) (by decide) h
  · exact h

theorem bit_driftEvent_self {c : Card} {i : Nat} (hi : i < 8) (h : Drifted c i) :
    (driftEvent c i).bit (mg 0x802C) (16 + i) = true := by
  rw [driftEvent, if_pos h]
  exact bit_event_self (by omega) (by decide)

theorem bit_foldl_driftEvent_of_bit {c : Card} {l : List Nat} {j : Nat} (hl : ∀ i ∈ l, i < 8)
    (h : c.bit (mg 0x802C) j = true) : (l.foldl driftEvent c).bit (mg 0x802C) j = true := by
  induction l generalizing c with
  | nil => exact h
  | cons i t ih =>
    obtain ⟨hi, ht⟩ := List.forall_mem_cons.mp hl
    exact ih ht (bit_driftEvent_of_bit hi h)

/-- Every channel looked at that drifted has its bit set. -/
theorem bit_foldl_driftEvent_of_drifted {c : Card} {l : List Nat} {ch : Nat} (hl : ∀ i ∈ l, i < 8) (hch : ch ∈ l)
    (h : Drifted c ch) : (l.foldl driftEvent c).bit (mg 0x802C) (16 + ch) = true := by
  induction l generalizing c with
  | nil => cases hch
  | cons i t ih =>
    obtain ⟨hi, ht⟩ := List.forall_mem_cons.mp hl
    rw [List.foldl_cons]
    obtain rfl | hmem := List.mem_cons.mp hch
    · exact bit_foldl_driftEvent_of_bit ht (bit_driftEvent_self hi h)
    · exact ih ht hmem (drifted_driftEvent.mpr h)

@[simp] theorem driftAt_restartDrift (c : Card) : c.restartDrift.driftAt = [] := rfl
@[simp] theorem bit_restartDrift (c : Card) (k i : Nat) : c.restartDrift.bit k i = c.bit k i := rfl

theorem becomes_driftWindowEnd {c : Card} (hon : c.on = true) (hstage : 5 ≤ c.stage) :
    Becomes .driftWindowEnd c ((List.range 8).foldl driftEvent c).restartDrift := by
  refine becomes_of_run execDriftWindowEnd.eq_def ?_
  rw [if_neg (by simp [hon, hstage])]
  rfl

/-! ### Self-refresh and module temperatures (R185, R190) -/

theorem becomes_idleSelfRefresh {c : Card} {ch : Fin 8} (hlive : c.live = true) (hidle : c.bit (mg 0x8000) 1 = true)
    (hready : c.f (chPage ch.val) 2 0 = 1) :
    Becomes (.idleSelfRefresh ch) c ((((c.advanceTo (tabGet 0 c.lastUse ch.val + c.f (mg 0x8004) 15 0 * 1000)).setF
      (chPage ch.val) 2 0 2).loseSegments ch.val).closeRows ch.val) := by
  refine becomes_of_run (execIdleSelfRefresh.eq_def ch) ?_
  exact if_neg (by simp [hlive, hidle, hready])

section
variable {c : Card} (hon : c.on = true) (hcore : c.coreOff = false) (ch : Fin 8)
include hon hcore

theorem becomes_moduleTempSample_none : Becomes (.moduleTempSample ch none) c (c.setSensor (10 + ch.val) none) := by
  refine becomes_of_run (execModuleTempSample.eq_def ch none) ?_
  exact if_neg (by simp [hon, hcore])

/-- Below 90 degrees a module neither warns nor trips the card. -/
theorem becomes_moduleTempSample_cool {t : Int} (hcool : t < 720) :
    Becomes (.moduleTempSample ch (some t)) c ((c.setSensor (10 + ch.val) (some t)).bandSample ch.val t) := by
  refine becomes_of_run (execModuleTempSample.eq_def ch (some t)) ?_
  dsimp only
  rw [if_neg (by simp [hon, hcore]), if_neg (by omega), if_neg (fun hwarm => absurd hcool (not_lt.mpr hwarm.1))]

end

/-! ### Retirement and migration (R193, R205) -/

theorem becomes_rankRetire {c d : Card} {v : Word} (hreach : c.reaches .pf0 0x8028 = true) (hd : c.writeReg (mg 0x8028) v = d)
    (hset : fld v 31 31 = 1) (hrun : d.frozen = false) (hserves : d.rankState (fld v 3 0) = 1) :
    Becomes (.rankRetire v) c ((d.retireCause (fld v 3 0) 0).setF (mg 0x8028) 17 16 0) := by
  refine becomes_of_run (execRankRetire.eq_def v) ?_
  rw [hostWrite_of_reaches hreach, hd]
  dsimp only
  rw [if_neg (by simp [hset]), if_neg (by simp [hrun]), if_pos (.inl hserves)]

section
variable {c : Card} (hlive : c.live = true)
include hlive

theorem becomes_migrationStart_queued {d : Card} {k chunk t : Nat} {rest : List (Nat × Nat)} (hnone : c.migr = none)
    (hqueue : c.migrQ = (k, chunk) :: rest) (hd : c.setMigrQ rest = d)
    (htarget : d.pickTarget (hampers.filterMap c.lay) k = some t) :
    Becomes .migrationStart c
      ((d.beginMigration k t).setMigr (some { source := k, target := t, start := chunk, done := 0 })) := by
  refine becomes_of_run execMigrationStart.eq_def ?_
  rw [if_neg (by simp [hlive]), hnone]
  dsimp only
  rw [hqueue]
  dsimp only
  rw [hd, htarget]

/-- A migration whose target failed goes on with another one. -/
theorem becomes_migrationStart_again {m : Migration} {t : Nat} (hmigr : c.migr = some m) (hfailed : 16 ≤ m.target)
    (htarget : c.pickTarget (hampers.filterMap c.lay) m.source = some t) :
    Becomes .migrationStart c ((c.beginMigration m.source t).setMigr (some { m with target := t })) := by
  refine becomes_of_run execMigrationStart.eq_def ?_
  rw [if_neg (by simp [hlive]), hmigr]
  dsimp only
  rw [if_neg (by omega), htarget]

/-- The chunk of a migration's next turn copied to its target, `n` chunks being done then (R193 step 3). -/
def copiedNext (c : Card) (m : Migration) (n : Nat) : Card :=
  (c.copyChunk (m.holder ((m.start + m.done) % 65536)) m.target ((m.start + m.done) % 65536)).setMigr
    (some { m with done := n })

section
variable {m : Migration} {n : Nat} (hmigr : c.migr = some m) (htarget : m.target < 16) (hn : m.done + 1 = n)
include hmigr htarget hn

/-- A chunk copied without an error is one more done, and after the last one the migration ends. -/
theorem becomes_migrationChunkDone :
    Becomes (.migrationChunkDone [] 0 false) c
      (if n = 65536 then (copiedNext c m n).endMigration { m with done := n } else copiedNext c m n).releaseAll := by
  subst hn
  refine becomes_of_run (execMigrationChunkDone.eq_def [] 0 false) ?_
  rw [hmigr]
  dsimp only
  rw [if_neg (by simp [hlive, htarget]), if_neg Bool.false_ne_true, if_neg (Nat.lt_irrefl 0)]
  rfl

theorem becomes_migrationChunkDone_more (hmore : n < 65536) :
    Becomes (.migrationChunkDone [] 0 false) c (copiedNext c m n).releaseAll := by
  have hdone := becomes_migrationChunkDone hlive hmigr htarget hn
  rwa [if_neg (Nat.ne_of_lt hmore)] at hdone

theorem becomes_migrationChunkDone_last (hlast : n = 65536) :
    Becomes (.migrationChunkDone [] 0 false) c ((copiedNext c m n).endMigration { m with done := n }).releaseAll := by
  have hdone := becomes_migrationChunkDone hlive hmigr htarget hn
  rwa [if_pos hlast] at hdone

end

end

/-- Settles O40, row by row. -/
theorem memoryRowsComplete : Obligations.MemoryRowsComplete := by
  refine ⟨?refresh, ?refreshPending, ?apply, ?load, ?drift, ?idle, ?noTemp, ?cool, ?retire, ?start, ?startAgain, ?chunk, ?last⟩
  case refresh => exact fun c ch sub hlive hready hnone => becomes_refresh hlive hready hnone
  case refreshPending =>
    exact fun c ch sub hlive hready hpend =>
      ⟨_, becomes_refresh_of_pending hlive hready hpend, rfl, bit_setBit_self (by decide)⟩
  case apply => exact fun c ch v hreach happly hload => becomes_delayApply hreach happly hload
  case load => exact fun c ch v p hreach happly hload hset => becomes_delayLoad hreach rfl happly hload hset
  case drift =>
    intro c hon hstage
    refine ⟨_, becomes_driftWindowEnd hon hstage, driftAt_restartDrift _, fun ch hdrift => ?_⟩
    rw [bit_restartDrift]
    exact bit_foldl_driftEvent_of_drifted (fun _ => List.mem_range.mp) (List.mem_range.mpr ch.isLt) hdrift
  case idle => exact fun c ch hlive hidle hready => becomes_idleSelfRefresh hlive hidle hready
  case noTemp => exact fun c ch hon hcore => becomes_moduleTempSample_none hon hcore ch
  case cool => exact fun c ch t hon hcore hcool => becomes_moduleTempSample_cool hon hcore ch hcool
  case retire => exact fun c v hreach hset hrun hserves => becomes_rankRetire hreach rfl hset hrun hserves
  case start =>
    exact fun c k chunk t rest hlive hnone hqueue htarget => becomes_migrationStart_queued hlive hnone hqueue rfl htarget
  case startAgain =>
    exact fun c m t hlive hmigr hfailed htarget => becomes_migrationStart_again hlive hmigr hfailed htarget
  case chunk => exact fun c m hlive hmigr htarget hmore => becomes_migrationChunkDone_more hlive hmigr htarget rfl hmore
  case last =>
    exact fun c m hlive hmigr htarget hlast =>
      becomes_migrationChunkDone_last hlive hmigr htarget (congrArg (· + 1) hlast) rfl

end Sys2Proof.Proofs
end

section
/-! The ranking of a block's positions (R214 to R216): what a search has evaluated stands in the order of R215, and FULL leaves
out no position of its range. -/

namespace Sys2Proof.Proofs

open Sys2Proof Sys2Proof.Machine Sys2Proof.Laws

/-! ### The order of R215 -/

/-- The distance of a candidate from the predictor. -/
def predictorDist (k : Field) (x : Cand) : Nat := iabs (x.dx - k.pdx) + iabs (x.dy - k.pdy)

/-- The keys of R215 in their order of weight: the SAD, the distance from the predictor, dy and dx. -/
def rankKey (k : Field) (x : Cand) : Nat ×ₗ Nat ×ₗ Int ×ₗ Int :=
  toLex (x.sad, toLex (predictorDist k x, toLex (x.dy, x.dx)))

theorem rankKey_lt_iff {k : Field} {a b : Cand} : rankKey k a < rankKey k b ↔ a.sad < b.sad ∨ (a.sad = b.sad ∧
    (predictorDist k a < predictorDist k b ∨ (predictorDist k a = predictorDist k b ∧
      (a.dy < b.dy ∨ (a.dy = b.dy ∧ a.dx < b.dx))))) := by
  simp [rankKey, Prod.Lex.toLex_lt_toLex]

theorem ranksBefore_iff {k : Field} {a b : Cand} : ranksBefore k.pdx k.pdy a b = true ↔ rankKey k a < rankKey k b := by
  rw [rankKey_lt_iff]
  simp [ranksBefore, predictorDist]

/-- Of two candidates at different positions one ranks before the other. -/
theorem rankKey_ne {k : Field} {a b : Cand} (hpos : ¬ (a.dx = b.dx ∧ a.dy = b.dy)) : rankKey k a ≠ rankKey k b := by
  intro hkey
  have hparts : a.sad = b.sad ∧ predictorDist k a = predictorDist k b ∧ a.dy = b.dy ∧ a.dx = b.dx := by
    simpa [rankKey] using hkey
  obtain ⟨-, -, hdy, hdx⟩ := hparts
  exact hpos ⟨hdx, hdy⟩

theorem mem_rankIn {px py : Int} {x y : Cand} {l : List Cand} : y ∈ rankIn px py x l ↔ y = x ∨ y ∈ l := by
  induction l with
  | nil => simp [rankIn]
  | cons z t ih =>
    unfold rankIn
    split
    · simp
    · simp only [List.mem_cons, ih]
      exact or_left_comm

theorem pairwise_rankIn {k : Field} {x : Cand} {l : List Cand} (hl : l.Pairwise (rankKey k · < rankKey k ·))
    (hnew : ∀ y ∈ l, ¬ (y.dx = x.dx ∧ y.dy = x.dy)) : (rankIn k.pdx k.pdy x l).Pairwise (rankKey k · < rankKey k ·) := by
  induction l with
  | nil => exact List.pairwise_singleton _ _
  | cons y t ih =>
    obtain ⟨hy, ht⟩ := List.pairwise_cons.mp hl
    unfold rankIn
    split
    case isTrue hbefore =>
      have hxy : rankKey k x < rankKey k y := ranksBefore_iff.mp hbefore
      refine List.pairwise_cons.mpr ⟨fun z hz => ?_, hl⟩
      obtain rfl | hz := List.mem_cons.mp hz
      · exact hxy
      · exact hxy.trans (hy z hz)
    case isFalse hbefore =>
      have hyx : rankKey k y < rankKey k x :=
        lt_of_le_of_ne (not_lt.mp (mt ranksBefore_iff.mpr hbefore)) (rankKey_ne (hnew y List.mem_cons_self))
      refine List.pairwise_cons.mpr ⟨fun z hz => ?_, ih ht fun z hz => hnew z (List.mem_cons_of_mem _ hz)⟩
      obtain rfl | hz := mem_rankIn.mp hz
      · exact hyx
      · exact hy z hz

/-! ### One position -/

/-- The three things that evaluating a position can do. -/
theorem try_singleton (k : Field) (s : Search) (p : Int × Int) :
    (k.inside p.1 p.2 = false ∧ s.try_ k [p] = { s with skipped := true }) ∨
    (k.inside p.1 p.2 = true ∧ (∃ y ∈ s.ranked, y.dx = p.1 ∧ y.dy = p.2) ∧ s.try_ k [p] = s) ∨
    (k.inside p.1 p.2 = true ∧ (∀ y ∈ s.ranked, ¬ (y.dx = p.1 ∧ y.dy = p.2)) ∧
      s.try_ k [p] = { s with ranked := rankIn k.pdx k.pdy ⟨p.1, p.2, k.sad p.1 p.2⟩ s.ranked }) := by
  unfold Search.try_
  rw [List.foldl_cons, List.foldl_nil]
  cases hin : k.inside p.1 p.2
  case false => exact .inl ⟨rfl, rfl⟩
  case true =>
    refine .inr ?_
    rw [if_neg (by simp)]
    split
    case isTrue hseen => exact .inl ⟨rfl, by simpa using hseen, rfl⟩
    case isFalse hnew => exact .inr ⟨rfl, by simpa using hnew, rfl⟩

theorem try_cons (k : Field) (s : Search) (p : Int × Int) (l : List (Int × Int)) :
    s.try_ k (p :: l) = (s.try_ k [p]).try_ k l := rfl

/-! ### What a search keeps -/

/-- The candidates stand in the order of R215, and each is evaluable and carries its SAD. -/
structure InRankOrder (k : Field) (s : Search) : Prop where
  ordered : s.ranked.Pairwise (rankKey k · < rankKey k ·)
  evaluated : ∀ x ∈ s.ranked, k.inside x.dx x.dy = true ∧ x.sad = k.sad x.dx x.dy

theorem inRankOrder_empty (k : Field) : InRankOrder k {} := ⟨List.Pairwise.nil, by simp⟩

theorem inRankOrder_try {k : Field} (l : List (Int × Int)) {s : Search} (hs : InRankOrder k s) :
    InRankOrder k (s.try_ k l) := by
  induction l generalizing s with
  | nil => exact hs
  | cons p l ih =>
    rw [try_cons]
    refine ih ?_
    obtain ⟨-, heq⟩ | ⟨-, -, heq⟩ | ⟨hin, hnew, heq⟩ := try_singleton k s p
    · rw [heq]; exact ⟨hs.ordered, hs.evaluated⟩
    · rw [heq]; exact hs
    · rw [heq]
      refine ⟨pairwise_rankIn hs.ordered hnew, fun x hx => ?_⟩
      obtain rfl | hx := mem_rankIn.mp hx
      · exact ⟨hin, rfl⟩
      · exact hs.evaluated x hx

theorem inRankOrder_diamond {k : Field} (fuel : Nat) (ce : Int × Int) {s : Search} (hs : InRankOrder k s) :
    InRankOrder k (diamond k fuel ce s).1 := by
  induction fuel generalizing ce s with
  | zero => exact hs
  | succ fuel ih =>
    have htried := fun l => inRankOrder_try (k := k) l hs
    unfold diamond
    dsimp only
    split
    · exact htried _
    · split
      · exact htried _
      · split
        · exact htried _
        · exact ih _ (htried _)

theorem inRankOrder_searchBlock (k : Field) (pattern steps : Nat) (rx ry : Int) :
    InRankOrder k (searchBlock k pattern steps rx ry).1 := by
  unfold searchBlock
  split
  case isTrue => exact inRankOrder_try _ (inRankOrder_empty k)
  case isFalse =>
    split
    case isTrue => exact inRankOrder_try _ (inRankOrder_diamond _ _ (inRankOrder_empty k))
    case isFalse => exact inRankOrder_try _ (inRankOrder_empty k)

/-! ### The positions of FULL -/

/-- A position that the search has dealt with: it is a candidate, or, not being evaluable, marked as skipped (R216). -/
def Covers (k : Field) (s : Search) (p : Int × Int) : Prop :=
  (k.inside p.1 p.2 = true → ∃ x ∈ s.ranked, x.dx = p.1 ∧ x.dy = p.2) ∧ (k.inside p.1 p.2 = false → s.skipped = true)

theorem covers_try_singleton (k : Field) (s : Search) (p : Int × Int) : Covers k (s.try_ k [p]) p := by
  obtain ⟨hout, heq⟩ | ⟨hin, hseen, heq⟩ | ⟨hin, -, heq⟩ := try_singleton k s p
  · exact ⟨by simp [hout], by simp [heq]⟩
  · exact ⟨fun _ => by rw [heq]; exact hseen, by simp [hin]⟩
  · exact ⟨fun _ => ⟨_, by rw [heq]; exact mem_rankIn.mpr (.inl rfl), rfl, rfl⟩, by simp [hin]⟩

theorem covers_try_of_covers {k : Field} (l : List (Int × Int)) {s : Search} {p : Int × Int} (hs : Covers k s p) :
    Covers k (s.try_ k l) p := by
  induction l generalizing s with
  | nil => exact hs
  | cons q l ih =>
    rw [try_cons]
    refine ih ?_
    obtain ⟨hfound, hskipped⟩ := hs
    obtain ⟨-, heq⟩ | ⟨-, -, heq⟩ | ⟨-, -, heq⟩ := try_singleton k s q
    · rw [heq]; exact ⟨hfound, fun _ => rfl⟩
    · rw [heq]; exact ⟨hfound, hskipped⟩
    · rw [heq]
      refine ⟨fun hin => ?_, hskipped⟩
      obtain ⟨x, hx, hpos⟩ := hfound hin
      exact ⟨x, mem_rankIn.mpr (.inr hx), hpos⟩

theorem covers_try {k : Field} {l : List (Int × Int)} {p : Int × Int} (hp : p ∈ l) (s : Search) : Covers k (s.try_ k l) p := by
  induction l generalizing s with
  | nil => cases hp
  | cons q l ih =>
    rw [try_cons]
    obtain rfl | hp := List.mem_cons.mp hp
    · exact covers_try_of_covers l (covers_try_singleton k s p)
    · exact ih hp _

theorem mem_intRange {a b i : Int} : i ∈ intRange a b ↔ a ≤ i ∧ i ≤ b := by
  simp only [intRange, List.mem_map, List.mem_range]
  constructor
  · rintro ⟨n, hn, rfl⟩
    omega
  · rintro ⟨ha, hb⟩
    exact ⟨(i - a).toNat, by omega, by omega⟩

theorem covers_full {k : Field} {rx ry dx dy : Int} (steps : Nat) (hx : ((dx - k.pdx).natAbs : Int) ≤ rx)
    (hy : ((dy - k.pdy).natAbs : Int) ≤ ry) : Covers k (searchBlock k 0 steps rx ry).1 (dx, dy) := by
  unfold searchBlock
  rw [if_pos rfl]
  have hrow : (dx, dy) ∈ (intRange (k.pdx - rx) (k.pdx + rx)).map (fun x => (x, dy)) :=
    List.mem_map.mpr ⟨dx, mem_intRange.mpr (by omega), rfl⟩
  exact covers_try (List.mem_flatMap.mpr ⟨dy, mem_intRange.mpr (by omega), hrow⟩) _

/-- Settles O29: every search keeps its candidates in the order of R215, and FULL covers each position of its range. -/
theorem searchRanksItsPositions : Obligations.SearchRanksItsPositions := by
  intro k pattern steps rx ry
  obtain ⟨hordered, hevaluated⟩ := inRankOrder_searchBlock k pattern steps rx ry
  refine ⟨hordered.imp fun hlt => rankKey_lt_iff.mp hlt, hevaluated, fun hfull dx dy hx hy => ?_⟩
  subst hfull
  exact covers_full steps hx hy

end Sys2Proof.Proofs
end

section
/-! A SEARCH whose planes' rank is hosted on another module (R195, R209, R220, R224): both that module and the channel of the
planes' region are checked for a CB-08. -/

namespace Sys2Proof.Proofs

open Sys2Proof Sys2Proof.Machine

/-- The body of a SEARCH of one 8 x 8 block, current and reference plane both 16 x 16 pixels at 0x220000. -/
def hostedSearchBody : List Byte :=
  leBytes 8 0x220000 ++ leBytes 8 0x220000 ++ leBytes 8 0 ++ leBytes 8 0x40 ++ leBytes 2 16 ++ leBytes 2 16 ++ leBytes 4 64 ++
    leBytes 4 1 ++ [3, 0, 1, 0, 1, 1] ++ List.replicate 46 0

/-- The SEARCH, in ring 0 of hamper 0 under context 1, not started. -/
def hostedSearchOp : Op :=
  { seq := 1, gen := 0, fnNum := 1, ctx := 1, opcode := 1, front := false, group := 0, cls := 7, tag := 0, param := 0,
    report := false, mirror := false, waits := [], signal := none, body := hostedSearchBody, phase := .running }

/-- A card whose rank 1, of channel 0, is retired and hosted by rank 2, of module 1. Region 2 of hamper 0, COLANDER and PICTURE,
lies on rank 1 and holds the page 0x220000 of context 1. Modules 0 and 1 are in place, but only module 1 has a CB-08; group 0
is the colander of channel 0. -/
def hostedSearchCard : Card :=
  { on := true
    regs := [(0x20, 0x20003), (0x8010, 0x01152401), (0xE000, 2)]
    active := [(0, some { imageId := 1, hamper := 0, channels := 1, raster := 0, spare := 0, ways := 0, mode := 0, pool := 0,
                          staging := 0, track := 0, ringClass := 0, groups := [⟨7, 0, 1, 1, 0⟩],
                          regions := [⟨1, 1, 1, 0, 1⟩, ⟨2, 6, 1, 8192, 1⟩], fromDefault := false })]
    ctxs := [(1, some ⟨0, 0x101⟩)]
    owners := [(2, { mask := 0 })]
    mem := [(0, 0x01), (1, 0x01), (8, 0x01), (9, 0x01), (16, 0x0B), (17, 0x02)]
    redirect := [(1, some 2)]
    rings := [(0, { q := [hostedSearchOp] })] }

/-- The module that hosts the planes has a CB-08 that takes operations; the channel of their region has none. -/
theorem colanders_hostedSearchCard : hostedSearchCard.searchModule 0 hostedSearchOp = some 1 ∧
    hostedSearchCard.colTakes 1 = true ∧ (hostedSearchCard.searchChannels 0 hostedSearchOp).headD 0 = 0 ∧
    hostedSearchCard.bit (mg 0x0020) 16 = false := by decide +kernel

theorem passes_hostedSearchCard :
    hostedSearchCard.passes 0 1 (leAt hostedSearchBody 0 8) (planeLen hostedSearchBody) false false := by decide +kernel

/-- The SEARCH is refused under COL_UNIT_ABSENT. -/
theorem refused_hostedSearchCard :
    (match exec (.search 0 0 1) { card := hostedSearchCard, pending := [] } with
      | .next s => (s.card.opOf 0 0 1).map fun o => (o.phase, o.status, o.detail)
      | _ => none) = some (.ran, stRefused, 0xC2) := by decide +kernel

/-- Refutes O43: the SEARCH clause asks that the module that serves the planes has a CB-08, but not that the channel of their
region has one (R220 step 5). On a card whose planes are hosted elsewhere the two differ, and the SEARCH that the clause queues
is refused. -/
theorem not_schedulingRowsComplete : ¬ Obligations.SchedulingRowsComplete := by
  intro hrows
  obtain ⟨-, -, -, -, -, -, -, hsearch, -⟩ := hrows
  obtain ⟨hmodule, htakes, -, -⟩ := colanders_hostedSearchCard
  have hqueued := hsearch hostedSearchCard 0 0 1 hostedSearchOp 0 1 (by decide +kernel) rfl rfl (by decide +kernel)
    passes_hostedSearchCard passes_hostedSearchCard (by decide +kernel) hmodule (by decide +kernel) htakes
  have hrefused := refused_hostedSearchCard
  rw [hqueued []] at hrefused
  revert hrefused
  decide +kernel

end Sys2Proof.Proofs
end

section
/-! The operations on stream contexts (R249 to R252): the work of each runs to its end where its fields are in range. -/

namespace Sys2Proof.Proofs

open Sys2Proof Sys2Proof.Machine Sys2Proof.Laws

section
variable {c d : Card} {h r sid : Nat} {o : Op} {t : Stream}

/-- A context that is open, not closing, and opened by this ring passes (R251, R252, R257). -/
theorem runs_needStream {x : Run} (hopen : x.card.stream x.h sid = some t) (hclosing : t.closing = false)
    (hring : t.ring = x.r) : Runs (Eng.needStream sid) x t x := by
  refine runs_bind (runs_card x) (runs_bind (runs_hamper x) ?_)
  rw [hopen]
  exact runs_if_false (by simp [hclosing]) (runs_bind (runs_ring x) (runs_if_true hring (runs_pure t x)))

/-- The fields of an OPEN with body `b` lie within R249, with the least SLOT_BYTES of R233. -/
def OpenInRange (b : List Byte) : Prop :=
  leAt b 0 1 < 64 ∧ (1 ≤ leAt b 1 1 ∧ leAt b 1 1 ≤ 5) ∧ leAt b 2 1 ≤ 1 ∧
  (leAt b 3 1 = 8 ∨ (leAt b 3 1 = 10 ∧ leAt b 1 1 ≠ 1 ∧ leAt b 1 1 ≠ 2)) ∧ (16 ≤ leAt b 4 2 ∧ leAt b 4 2 ≤ 8192) ∧
  (16 ≤ leAt b 6 2 ∧ leAt b 6 2 ≤ 4352) ∧ (1 ≤ leAt b 8 1 ∧ leAt b 8 1 ≤ 120) ∧ (3 ≤ leAt b 9 1 ∧ leAt b 9 1 ≤ 32) ∧
  (1 ≤ leAt b 0xC 1 ∧ leAt b 0xC 1 ≤ 4) ∧ leAt b 0xD 3 = 0 ∧ leAt b 0x10 8 % 65536 = 0 ∧ leAt b 0x18 4 % 65536 = 0 ∧
  (slotLayout (leAt b 4 2) (leAt b 6 2) (leAt b 3 1)).2.2.2 ≤ leAt b 0x18 4 ∧
  (16 ≤ leAt b 0x1C 2 ∧ leAt b 0x1C 2 ≤ 1024) ∧ leAt b 0x1E 2 < 4096 ∧ leAt b 0x20 8 % 64 = 0 ∧
  leAt b 0x28 8 % 65536 = 0 ∧ leAt b 0x30 2 < 16384 ∧ leNat (b.drop 0x32) = 0

/-- The context that an OPEN of ring `r`, not of the latency-critical class, binds (R249, R250). -/
def openedStream (r : Nat) (o : Op) : Stream :=
  { ring := r, fnNum := o.fnNum, ctx := o.ctx, lc := false, codec := leAt o.body 1 1, mode := leAt o.body 2 1,
    depth := leAt o.body 3 1, maxW := leAt o.body 4 2, maxH := leAt o.body 6 2, fps := leAt o.body 8 1,
    slots := leAt o.body 9 1, guard := leAt o.body 0xA 2, gang := leAt o.body 0xC 1, dpb := leAt o.body 0x10 8,
    slotBytes := leAt o.body 0x18 4, stateVa := leAt o.body 0x28 8, state64 := leAt o.body 0x1C 2,
    outSem := leAt o.body 0x1E 2, desc := leAt o.body 0x20 8, relSem := leAt o.body 0x30 2 }

/-- OPEN binds a context that is free, once its fields, its semaphores and its ranges pass. -/
theorem runs_openWork (hrange : OpenInRange o.body) (hfree : c.stream h (leAt o.body 0 1) = none)
    (hout : ∀ v, c.ringVf h r = some v → c.vfHasSem h v (leAt o.body 0x1E 2) = true)
    (hrel : c.semVisible h (leAt o.body 0x30 2) = true)
    (hdpb : c.sparsePicture h o.ctx (leAt o.body 0x10 8) (leAt o.body 9 1 * leAt o.body 0x18 4) = true)
    (hstate : c.inPicture h o.ctx (leAt o.body 0x28 8) (leAt o.body 0x1C 2 * 65536) true = true)
    (hdesc : c.inPicture h o.ctx (leAt o.body 0x20 8) (64 * leAt o.body 9 1) false = true) (hclass : c.ringClass h r ≠ 1) :
    Runs openWork { card := c, op := o, h := h, r := r } ()
      { card := c.setStream h (leAt o.body 0 1) (some (openedStream r o)), op := o, h := h, r := r } := by
  have hlc : (c.ringClass h r == 1) = false := beq_false_of_ne hclass
  refine runs_bind (runs_op _) (runs_bind (runs_hamper _) (runs_bind (runs_ring _) (runs_bind (runs_card _)
    (runs_bind (runs_check _ _ ?inRange) (runs_bind (runs_check _ _ (by simp [hfree])) (runs_bind (runs_check _ _ ?outSem)
      (runs_bind (runs_check _ _ hrel) (runs_bind (runs_check _ _ (by simp [hdpb, hstate, hdesc]))
        (runs_bind (runs_check _ _ (by simp [hlc])) ?binds)))))))))
  case inRange => simpa [OpenInRange, and_assoc] using hrange
  case outSem =>
    dsimp only
    split
    · exact hout _ ‹_›
    · rfl
  case binds =>
    dsimp only
    rw [hlc]
    exact runs_upd _ _

/-- FEED without a subsample map queues its whole sample, decrypted, where the queue has room for it. -/
theorem runs_feedWork {n : Nat} {starts : List Nat} {bs : List Byte} {e : Card × List Byte} (hsid : sid = leAt o.body 0xC 1)
    (hn : n = leAt o.body 8 4) (hrange : feedInRange o.body = true) (hopen : c.stream h sid = some t)
    (hclosing : t.closing = false) (hring : t.ring = r) (hsource : c.feedSource h o.ctx (leAt o.body 0 8) n = true)
    (hkey : leAt o.body 0xE 1 = 0 ∨ (tabGet none c.keys (64 * h + leAt o.body 0xF 1)).any (fun k => k.ctx == o.ctx) = true)
    (hmap : leAt o.body 0x28 2 = 0) (hread : ReadsTo h o [(leAt o.body 0 8, n)] c [bs] d)
    (he : e = d.enqueue h sid { t with disc := false, starts := t.starts ++ starts.map (fun x => t.tail + x) }
      (feedMark o.body t.disc) (d.feedClear h o.body [] bs)) (hroom : e.2 = []) :
    Runs (feedWork starts) { card := c, op := o, h := h, r := r } () { card := e.1, op := o, h := h, r := r } := by
  subst hsid hn
  have hwhole : ((feedSubs o.body []).map (fun x => x.1 + x.2)).sum = leAt o.body 8 4 := by simp [feedSubs, hmap]
  have ⟨b, _, _, hbytes, _⟩ := hread
  refine runs_bind (runs_op _) (runs_bind (runs_hamper _) (runs_bind (runs_card _) (runs_bind (runs_check _ _ hrange)
    (runs_bind (runs_needStream hopen hclosing hring) (runs_bind (runs_check _ _ hsource)
      (runs_bind (runs_check _ _ (by simpa using hkey)) (runs_if_true (.inr hmap) (runs_bind (runs_pure _ _)
        (runs_bind (runs_check _ _ ?wholeSample) (runs_bind (runs_want (atHand_of_read hread))
          (runs_bind (runs_card _) ?queues)))))))))))
  case wholeSample => simp [hwhole, hmap]
  case queues =>
    dsimp only at hbytes ⊢
    rw [hbytes]
    refine runs_bind (runs_rd hread) (runs_bind (runs_card _) (runs_bind (runs_upd _ _) ?_))
    rw [← he]
    exact runs_if_false (by simp [hroom]) (runs_pure _ _)

theorem runs_drainWork {order : List Nat} (hsid : sid = leAt o.body 0 1) (hlt : sid < 64) (hkeep : leAt o.body 1 1 = 0)
    (hres : leNat (o.body.drop 2) = 0) (hopen : c.stream h sid = some t) (hclosing : t.closing = false) (hring : t.ring = r)
    (hidle : t.pics.any (fun p => p.decoding) = false) (hempty : t.tail = t.head) :
    Runs (drainWork order) { card := c, op := o, h := h, r := r } ()
      { card := c.outputAll h sid order, op := o, h := h, r := r } := by
  subst hsid
  exact runs_bind (runs_op _) (runs_bind (runs_hamper _) (runs_bind (runs_check _ _ (by simp [hlt, hkeep, hres]))
    (runs_bind (runs_needStream hopen hclosing hring) (runs_if_false (by simp [hidle])
      (runs_if_false (by simp [hkeep]) (runs_if_false (by simp [hempty]) (runs_upd _ _)))))))

theorem runs_closeWork (hsid : sid = leAt o.body 0 1) (hlt : sid < 64) (hres : leNat (o.body.drop 1) = 0)
    (hopen : c.stream h sid = some t) (hclosing : t.closing = false) (hring : t.ring = r)
    (hidle : t.pics.any (fun p => p.decoding) = false) :
    Runs closeWork { card := c, op := o, h := h, r := r } () { card := c.closeStream h sid, op := o, h := h, r := r } := by
  subst hsid
  exact runs_bind (runs_op _) (runs_bind (runs_hamper _) (runs_bind (runs_check _ _ (by simpa [hlt] using hres))
    (runs_bind (runs_needStream hopen hclosing hring) (runs_if_false (by simp [hidle]) (runs_upd _ _)))))

end

/-- Settles O56: each operation's work runs to its end, and leaves the card that its clause names. -/
theorem intakeRowsComplete : Obligations.IntakeRowsComplete := by
  refine ⟨?opens, ?feeds, ?drains, ?closes⟩
  case opens =>
    rintro c h r seq c0 o b htaken ⟨-, hstatus⟩ rfl hsid hcodec hmode hdepth hwidth hheight hfps hslots hgang hres hdpbAt
      hslotAt hslotMin hstate64 houtLt hdescAt hstateAt hrelLt hres' hfree hout hrel hdpb hstate hdesc hclass
    exact finishes_of_runs (fun _ => rfl) htaken (runs_openWork ⟨hsid, hcodec, hmode, hdepth, hwidth, hheight, hfps, hslots,
      hgang, hres, hdpbAt, hslotAt, hslotMin, hstate64, houtLt, hdescAt, hstateAt, hrelLt, hres'⟩ hfree hout hrel hdpb hstate
      hdesc hclass) hstatus
  case feeds =>
    rintro c h r f c0 d o t sid n bs key e htaken ⟨-, hstatus⟩ hsid hn rfl hrange hopen hclosing hring hsource hkey hmap
      hread he hroom
    exact finishes_of_runs (fun _ => rfl) htaken
      (runs_feedWork hsid hn hrange hopen hclosing hring hsource hkey hmap hread he hroom) hstatus
  case drains =>
    intro c h r seq order c0 o t sid htaken ⟨_, hstatus⟩ hsid hlt hkeep hres hopen hclosing hring hidle hempty
    exact finishes_of_runs (fun _ => rfl) htaken
      (runs_drainWork hsid hlt hkeep hres hopen hclosing hring hidle hempty) hstatus
  case closes =>
    intro c h r seq c0 o t sid htaken ⟨_, hstatus⟩ hsid hlt hres hopen hclosing hring hidle
    exact finishes_of_runs (fun _ => rfl) htaken (runs_closeWork hsid hlt hres hopen hclosing hring hidle) hstatus

end Sys2Proof.Proofs
end

section
/-! The events of stream contexts (R231 to R260): the card that each leaves. -/

namespace Sys2Proof.Proofs

open Sys2Proof Sys2Proof.Machine Sys2Proof.Laws

/-! ### Key slots (R246, R255) -/

section
variable {c : Card} {h : Fin 4} {v : Word}

theorem keyCtl_found : (findReg hpRegs 0x60014).isSome = true := by decide

/-- A write of HP_KEY_CTL changes that register alone. -/
theorem writeReg_keyCtl (c : Card) (h : Fin 4) (v : Word) :
    ∃ w, c.writeReg (hp h.val 0x60014) v = c.setReg (hp h.val 0x60014) w := by
  obtain ⟨p, hfind⟩ := Option.isSome_iff_exists.mp keyCtl_found
  exact ⟨_, writeReg_of_hp (keySpace_hp h.isLt (by decide)) (fun _ hn => hp_ne_mg hn _ _) (by decide) hfind c v⟩

theorem reg_writeReg_keyCtl {off : Nat} (hoff : off ≠ 0x60014) :
    (c.writeReg (hp h.val 0x60014) v).reg (hp h.val off) = c.reg (hp h.val off) := by
  obtain ⟨w, hw⟩ := writeReg_keyCtl c h v
  rw [hw, reg_setReg_ne (hp_ne_of_ne hoff)]

theorem keys_writeReg_keyCtl : (c.writeReg (hp h.val 0x60014) v).keys = c.keys := by
  obtain ⟨w, hw⟩ := writeReg_keyCtl c h v
  rw [hw, setReg_keys]

/-- The slot of HP_KEY_SEL. -/
def keySlot (c : Card) (h : Nat) : Nat := c.f (hp h 0x60010) 5 0

/-- The key that stands in the staging words of HP_KEY_WORD. -/
def stagedKey (c : Card) (h : Nat) : List Byte := (List.range 4).flatMap fun k => leBytes 4 (c.reg (hp h (0x60018 + 4 * k))).toNat

/-- Some registers erased. -/
def eraseRegs (l : List Nat) (f : Nat → Nat) (c : Card) : Card := l.foldl (fun c k => c.setReg (f k) 0) c

theorem keys_eraseRegs (l : List Nat) (f : Nat → Nat) (c : Card) : (eraseRegs l f c).keys = c.keys := by
  induction l generalizing c with
  | nil => rfl
  | cons k l ih => exact (ih _).trans (setReg_keys ..)

theorem reg_eraseRegs {l : List Nat} {f : Nat → Nat} {c : Card} {j : Nat} (hj : j ∈ l.map f ∨ c.reg j = 0) :
    (eraseRegs l f c).reg j = 0 := by
  induction l generalizing c with
  | nil => exact hj.resolve_left (by simp)
  | cons k l ih =>
    refine ih ?_
    by_cases hk : j = f k
    · exact .inr (by rw [hk, reg_setReg_self])
    · rw [reg_setReg_ne hk]
      exact hj.imp_left fun hmem => (List.mem_cons.mp hmem).resolve_left hk

/-- The staging words erased. -/
def eraseStaged (c : Card) (h : Nat) : Card := eraseRegs (List.range 4) (fun k => hp h (0x60018 + 4 * k)) c

theorem reg_eraseStaged (c : Card) (h : Nat) (k : Fin 4) : (eraseStaged c h).reg (hp h (0x60018 + 4 * k.val)) = 0 :=
  reg_eraseRegs (.inl (List.mem_map.mpr ⟨k.val, List.mem_range.mpr k.isLt, rfl⟩))

theorem keySlot_writeReg : keySlot (c.writeReg (hp h.val 0x60014) v) h.val = keySlot c h.val := by
  rw [keySlot, Card.f, reg_writeReg_keyCtl (by decide), keySlot, Card.f]

theorem stagedKey_writeReg : stagedKey (c.writeReg (hp h.val 0x60014) v) h.val = stagedKey c h.val := by
  have hword : ∀ k, (c.writeReg (hp h.val 0x60014) v).reg (hp h.val (0x60018 + 4 * k)) = c.reg (hp h.val (0x60018 + 4 * k)) :=
    fun k => reg_writeReg_keyCtl (by omega)
  simp only [stagedKey, hword]

theorem becomes_keyCommit (hreach : c.reaches (.pf h) 0x60014 = true) (hset : fld v 29 29 = 1) :
    Becomes (.keyCommit h v) c (eraseStaged ((c.writeReg (hp h.val 0x60014) v).setKey h.val (keySlot c h.val)
      (some ⟨stagedKey c h.val, (c.writeReg (hp h.val 0x60014) v).f (hp h.val 0x60014) 11 0⟩)) h.val) := by
  refine becomes_of_run (execKeyCommit.eq_def h v) ?_
  rw [hostWrite_of_reaches hreach]
  dsimp only
  rw [if_neg (by simp [hset]), ← keySlot_writeReg (v := v), ← stagedKey_writeReg (v := v)]
  rfl

theorem becomes_keyClear (hreach : c.reaches (.pf h) 0x60014 = true) (hset : fld v 30 30 = 1) :
    Becomes (.keyClear h v) c ((c.writeReg (hp h.val 0x60014) v).setKey h.val (keySlot c h.val) none) := by
  refine becomes_of_run (execKeyClear.eq_def h v) ?_
  rw [hostWrite_of_reaches hreach]
  dsimp only
  rw [if_neg (by simp [hset]), ← keySlot_writeReg (v := v)]
  rfl

end

/-! ### Contexts -/

@[simp] theorem stream_setStream_self (c : Card) (h s : Nat) (x : Option Stream) : (c.setStream h s x).stream h s = x :=
  tabGet_put_self _ _ _ _

@[simp] theorem stream_bump (c : Card) (k n h s : Nat) : (c.bump k n).stream h s = c.stream h s := rfl

@[simp] theorem stream_countDropped (c : Card) (g x n h s : Nat) : (c.countDropped g x n).stream h s = c.stream h s :=
  stream_bump ..

@[simp] theorem pics_consume (t : Stream) (n : Nat) : (t.consume n).pics = t.pics := rfl

/-- Resynchronisation discards queued bytes, and no picture. -/
@[simp] theorem pics_resync (t : Stream) : t.resync.pics = t.pics := by
  unfold Stream.resync
  split
  · rfl
  · refine List.foldlRecOn (motive := fun u : Stream => u.pics = t.pics) _ _ rfl fun u hu m _ => ?_
    split
    · rw [pics_consume, hu]
    · exact hu

/-- The end of a sequence outputs nothing where no picture waits for its turn. -/
theorem outputAll_of_none_waiting {c : Card} {h s : Nat} {t : Stream} (hopen : c.stream h s = some t)
    (hnone : t.pics.any (fun p => p.waiting) = false) (order : List Nat) : c.outputAll h s order = c := by
  have hpend : t.pics.filter (fun p => p.waiting) = [] := List.filter_eq_nil_iff.mpr (List.any_eq_false.mp hnone)
  unfold Card.outputAll
  simp [hopen, hpend]

theorem becomes_feedBytesQueued {c : Card} {h : Fin 4} {r : Fin 16} {seq : Nat} {o : Op} {t : Stream}
    (hop : c.opOf h.val r.val seq = some o) (hlive : c.live = true) (hphase : o.phase = .running) (hheld : o.held = true)
    (hcls : o.cls = 1) (hopcode : o.opcode = 2) (hopen : c.stream h.val (leAt o.body 0xC 1) = some t)
    (hroom : (c.enqueue h.val (leAt o.body 0xC 1) t { feedMark o.body false with disc := false } o.rest).2 = []) :
    Becomes (.feedBytesQueued h r seq) c
      ((c.enqueue h.val (leAt o.body 0xC 1) t { feedMark o.body false with disc := false } o.rest).1.setOp h.val r.val
        ({ o with held := false, rest := [] }.ran stDone 0 0)) := by
  refine becomes_of_run (execFeedBytesQueued.eq_def h r seq) ?_
  rw [hop]
  dsimp only
  rw [if_neg (by simp [hlive, hphase, hheld, hcls, hopcode]), hopen]
  dsimp only
  rw [if_pos (by simp [hroom])]

/-! ### A picture begins (R235, R237) -/

/-- Only the operations of a hamper change when those that wait for rows join a picture. -/
theorem streams_bindWaiters (c : Card) (h s no e : Nat) :
    ((c.bindWaiters h s no e).streams, (c.bindWaiters h s no e).slices) = (c.streams, c.slices) :=
  ((frame_bindWaiters (fr := [.rings]) (fun _ hx => hx) c h s no e held_refl .streams).resolve_left (by decide)).symm

/-- The slice taken and the context set stand, whichever operations join the picture. -/
theorem begunPic_tables (c : Card) (h s no d : Nat) (x : Option Stream) :
    (((c.setStream h s x).bindWaiters h s no 0).takeSlice h d s).slices = tabPut none c.slices (16 * h + d) (some s) ∧
      (((c.setStream h s x).bindWaiters h s no 0).takeSlice h d s).stream h s = x := by
  have htables := streams_bindWaiters (c.setStream h s x) h s no 0
  obtain ⟨hstreams, hslices⟩ := Prod.mk.inj htables
  refine ⟨?_, ?_⟩
  · rw [Card.takeSlice, hslices]
    rfl
  · rw [Card.stream, Card.takeSlice, hstreams]
    exact stream_setStream_self ..

/-- A context whose next picture takes slot `k`. -/
def withPic (t : Stream) (k : Nat) (p : Pic) : Stream :=
  { t with pics := t.pics.filter (fun x => x.slot != k) ++ [p], nextDecode := t.nextDecode + 1 }

/-- Outside sub-frame mode, with no reference missing, the picture carries no epoch and tells nothing. -/
theorem beginPic_of_no_epoch {t : Stream} (hmode : t.mode ≠ 1) (c : Card) (h s k d : Nat) :
    ∃ p : Pic, (p.slot = k ∧ p.decodeNo = t.nextDecode ∧ p.slice = d) ∧
      c.beginPic h s t k d [] = ((c.setStream h s (some (withPic t k p))).bindWaiters h s t.nextDecode 0).takeSlice h d s := by
  have hepoch : c.picEpoch h s t = (c, 0) := if_neg hmode
  refine ⟨?pic, ?_, ?begins⟩
  case begins =>
    simp only [Card.beginPic, hepoch, List.foldl_nil, List.isEmpty_nil, if_true]
    rfl
  exact ⟨rfl, rfl, rfl⟩

section
variable {c : Card} {h : Fin 4} {st : Fin 64} {t : Stream}

theorem becomes_pictureDecodeStart {u : Fin 16} {ps : PicStart} {k : Nat} {c1 : Card} (hopen : c.stream h.val st.val = some t)
    (hslot : c.freeSlot t = some k) (hlive : c.live = true) (hready : c.streamState t = 3)
    (hunit : c.unitEnabled h.val 1 u.val = true) (hfence : c.fenced h.val 1 u.val = false)
    (hslice : tabGet none c.slices (16 * h.val + u.val) = none) (hretry : c.retryWaits h.val 1 u.val = false)
    (hnext : c.nextContext h.val st.val t = true) (hstore : 16 ≤ c.storeFree h.val t.ring)
    (hstart : (t.consume ps.bytes).holdsStart = true)
    (hc1 : c1 = ((c.setStream h.val st.val (some (t.consume ps.bytes))).countDropped h.val st.val ps.dropped).releaseSlot h.val
      (t.consume ps.bytes) k) :
    Becomes (.pictureDecodeStart h u st ps) c (c1.beginPic h.val st.val (t.consume ps.bytes) k u.val ps.missing) := by
  refine becomes_of_run (execPictureDecodeStart.eq_def h u st ps) ?_
  dsimp only
  rw [hopen]
  dsimp only
  rw [hslot]
  dsimp only
  rw [if_neg ?runs, if_neg (by simp [hstart]), hc1]
  case runs =>
    have hroom : ¬c.storeFree h.val t.ring < 16 := by omega
    simp [hlive, hready, hunit, hfence, hslice, hretry, hnext, hroom]

/-! ### Sequence headers (R230, R243, R260) -/

/-- The card at the end of a sequence: its bytes used up, its pending pictures output (R236, R260). -/
def endSequence (c : Card) (h s : Nat) (t : Stream) (hd : SeqHeader) : Card :=
  ((c.setStream h s (some (t.consume hd.bytes))).countDropped h s hd.skipped).outputAll h s hd.flush

/-- Where no picture waits for its turn, the end of a sequence outputs none. -/
theorem stream_endSequence (c : Card) (h s : Nat) {t : Stream} (hd : SeqHeader)
    (hnone : t.pics.any (fun p => p.waiting) = false) :
    (endSequence c h s t hd).stream h s = some (t.consume hd.bytes) := by
  have hused : ((c.setStream h s (some (t.consume hd.bytes))).countDropped h s hd.skipped).stream h s =
      some (t.consume hd.bytes) := by simp
  rw [endSequence, outputAll_of_none_waiting hused hnone, hused]

/-- A header in force (R243, R260). -/
def inForce (hd : SeqHeader) (t : Stream) : Stream :=
  { t with header := true, width := hd.width, height := hd.height, mono := hd.mono,
           seqNo := if t.width = hd.width ∧ t.height = hd.height then t.seqNo else t.seqNo + 1 }

section
variable {hd : SeqHeader} (hopen : c.stream h.val st.val = some t) (hlive : c.live = true) (hclosing : t.closing = false)
  (hidle : t.pics.any (fun p => p.decoding) = false)
include hopen hlive hclosing hidle

theorem becomes_sequenceHeader_ok (hok : headerOk hd t.codec = true) (hwidth : hd.width ≤ t.maxW) (hheight : hd.height ≤ t.maxH)
    (hcodedW : hd.codedW ≤ roundUp t.maxW 16) (hcodedH : hd.codedH ≤ roundUp t.maxH 16) (hneeded : hd.needed ≤ t.slots - 1) :
    Becomes (.sequenceHeader h st hd) c ((endSequence c h.val st.val t hd).setStream h.val st.val
      (((endSequence c h.val st.val t hd).stream h.val st.val).map (inForce hd))) := by
  refine becomes_of_run (execSequenceHeader.eq_def h st hd) ?_
  dsimp only
  rw [hopen]
  dsimp only
  rw [if_neg (by simp [hlive, hclosing, hidle]), if_neg (by simp [hok]), if_neg (by omega), if_neg (by omega)]
  rfl

theorem becomes_sequenceHeader_unsupported {e : Card} (hbad : headerOk hd t.codec = false)
    (he : e = ((endSequence c h.val st.val t hd).streamEvent h.val st.val 1 0xFFFFFFFF 0
      (leBytes 1 t.codec ++ leBytes 1 hd.profile ++ leBytes 1 hd.level)).1) :
    Becomes (.sequenceHeader h st hd) c (e.setStream h.val st.val ((e.stream h.val st.val).map (fun x =>
      { x with header := false }))) := by
  refine becomes_of_run (execSequenceHeader.eq_def h st hd) ?_
  dsimp only
  rw [hopen]
  dsimp only
  rw [if_neg (by simp [hlive, hclosing, hidle]), if_pos (by simp [hbad]), he, endSequence]

end

/-! ### A picture goes on and ends (R236, R238, R240) -/

/-- A completed picture counted, and once more among those CONCEALED (R241, R255). -/
def countPic (c : Card) (h s : Nat) (concealed : Bool) : Card :=
  if concealed then (c.bump (hp h (0x61008 + 0x40 * s)) 1).bump (hp h (0x61014 + 0x40 * s)) 1
  else c.bump (hp h (0x61008 + 0x40 * s)) 1

theorem stream_countPic (c : Card) (h s : Nat) (concealed : Bool) : (countPic c h s concealed).stream h s = c.stream h s := by
  unfold countPic
  split
  · exact (stream_bump ..).trans (stream_bump ..)
  · exact stream_bump ..

theorem reg_countPic (c : Card) (h s : Nat) (concealed : Bool) :
    ((countPic c h s concealed).reg (hp h (0x61008 + 0x40 * s))).toNat =
      min 0xFFFFFFFF ((c.reg (hp h (0x61008 + 0x40 * s))).toNat + 1) := by
  unfold countPic
  split
  · rw [reg_bump_ne (hp_ne_of_ne (by omega)), toNat_reg_bump_self]
    rfl
  · rw [toNat_reg_bump_self]
    rfl

/-- The context after a picture `p` of it has become `p'` (R236, R240). -/
def endPic (t : Stream) (p p' : Pic) (used : Nat) (refs : List Nat) : Stream :=
  { (((t.mapPics (fun q => if q.decodeNo = p.decodeNo then p' else q)).consume used).resync.mapPics
      (fun q => { q with inRef := refs.contains q.decodeNo })) with lastSuspect := false }

theorem mem_pics_endPic {t : Stream} {p : Pic} (hp : p ∈ t.pics) (p' : Pic) (used : Nat) (refs : List Nat) :
    { p' with inRef := refs.contains p'.decodeNo } ∈ (endPic t p p' used refs).pics := by
  have hnew : p' ∈ t.pics.map (fun q => if q.decodeNo = p.decodeNo then p' else q) := List.mem_map.mpr ⟨p, hp, if_pos rfl⟩
  refine List.mem_map.mpr ⟨p', ?_, rfl⟩
  rw [pics_resync, pics_consume]
  exact hnew

section
variable {p : Pic} (hopen : c.stream h.val st.val = some t) (hpic : t.pics.find? (fun p => p.decoding) = some p)
  (hlive : c.live = true)
include hopen hpic hlive

theorem becomes_partitionReconstructed {data : List Samples} {part : PartEnd} {e : Card}
    (he : e = if part.parsed then (c.putSamples h.val t p.slot data).freeSlices h.val st.val
      else c.putSamples h.val t p.slot data) :
    Becomes (.partitionReconstructed h st data part) c
      (if t.mode = 1 ∧ e.unsettled h.val p.epoch then e.setStream h.val st.val ((e.stream h.val st.val).map (fun x =>
        x.mapPics (fun q => if q.decoding then { q with rows := max q.rows part.rows } else q))) else e) := by
  refine becomes_of_run (execPartitionReconstructed.eq_def h st data part) ?_
  dsimp only
  rw [hopen]
  dsimp only
  rw [hpic]
  dsimp only
  rw [if_neg (by simp [hlive]), he]

theorem becomes_pictureComplete_closing {pe : PicEnd} (hclosing : t.closing = true)
    (hend : c.endKnown h.val st.val t pe.bytes = true) (hlone : pe.lone = none) :
    Becomes (.pictureComplete h st pe) c
      ((((c.putSamples h.val t p.slot pe.last).freeSlices h.val st.val).closeStream h.val st.val).endClose h.val st.val) := by
  refine becomes_of_run (execPictureComplete.eq_def h st pe) ?_
  dsimp only
  rw [hopen]
  dsimp only
  rw [hpic]
  dsimp only
  rw [if_neg (by simp [hlive, hend]), hlone, if_pos hclosing]

/-- A picture that is whole, plausible and undamaged waits for its turn in output order, and is counted (R236, R255). -/
theorem becomes_pictureComplete_waiting {pe : PicEnd} (hclosing : t.closing = false)
    (hend : c.endKnown h.val st.val t pe.bytes = true) (hlone : pe.lone = none) (houtputs : pe.outputs = [])
    (hdamage : p.damage = none) (hguard : t.guard = 0) (hnumber : pe.number.isSome = true) :
    ∃ (p' : Pic) (used : Nat) (concealed : Bool), (p'.decodeNo = p.decodeNo ∧ p'.decoding = false ∧ p'.waiting = true) ∧
      Becomes (.pictureComplete h st pe) c (countPic (((c.putSamples h.val t p.slot pe.last).freeSlices h.val st.val).setStream
        h.val st.val (some (endPic t p p' used pe.refs))) h.val st.val concealed) := by
  have hnone : pe.number.isNone = false := by simpa using hnumber
  refine ⟨?pic, ?used, ?concealed, ?_, becomes_of_run (execPictureComplete.eq_def h st pe) ?card⟩
  case card =>
    dsimp only
    rw [hopen]
    dsimp only
    rw [hpic]
    dsimp only
    rw [if_neg (by simp [hlive, hend]), hlone, if_neg (by simp [hclosing]), hdamage, houtputs]
    simp only [hguard, hnone, bne_self_eq_false, Bool.false_and, Bool.false_eq_true, if_false, List.foldl_nil]
    rfl
  exact ⟨rfl, rfl, hnumber⟩

end

/-- An invalid parameter set is told; one that is a sequence header takes the header out of force (R240). -/
theorem becomes_damageDetected_paramBad {kind id : Nat} {e : Card} (hopen : c.stream h.val st.val = some t)
    (hlive : c.live = true)
    (he : e = (c.streamEvent h.val st.val 3 0xFFFFFFFF 0 (leBytes 1 kind ++ leBytes 1 id)).1) :
    Becomes (.damageDetected h st (.paramBad kind id)) c
      (if kind = 1 then e.setStream h.val st.val ((e.stream h.val st.val).map (fun x => { x with header := false })) else e) := by
  refine becomes_of_run (execDamageDetected.eq_def h st (.paramBad kind id)) ?_
  dsimp only
  rw [hopen]
  dsimp only
  rw [if_neg (by simp [hlive]), he]

end

/-! ### The obligation -/

/-- Settles O41: the card that each event leaves, and what it holds of the keys, the context and the counters. -/
theorem streamRowsComplete : Obligations.StreamRowsComplete := by
  refine ⟨?keyCommit, ?keyClear, ?feedBytes, ?decodeStart, ?decodeStartFrame, ?headerOk, ?headerUnsupported, ?partition,
    ?partitionParsed, ?partitionRows, ?paramSet, ?sequenceHeaderBad, ?completeClosing, ?completeWaiting⟩
  case keyCommit =>
    intro c h v hreach hset
    refine ⟨_, becomes_keyCommit hreach hset, fun k => ⟨reg_eraseStaged _ _ k, ?_⟩⟩
    rw [eraseStaged, keys_eraseRegs, Card.setKey, keys_writeReg_keyCtl]
    rfl
  case keyClear =>
    intro c h v hreach hset
    refine ⟨_, becomes_keyClear hreach hset, ?_⟩
    rw [Card.setKey, keys_writeReg_keyCtl]
    rfl
  case feedBytes =>
    intro c h r seq o t hop hlive hphase hheld hcls hopcode hopen hroom
    exact becomes_feedBytesQueued hop hlive hphase hheld hcls hopcode hopen hroom
  case decodeStart =>
    rintro c h u st ps t _ k c1 hopen hslot hlive hready hunit hfence hslice hretry hnext hstore rfl hstart hc1
    exact becomes_pictureDecodeStart hopen hslot hlive hready hunit hfence hslice hretry hnext hstore hstart hc1
  case decodeStartFrame =>
    rintro c h u st ps t _ k c1 hopen hslot hlive hready hunit hfence hslice hretry hnext hstore rfl hstart hc1 hmissing hmode
    obtain ⟨p, ⟨hpslot, hpno, hpslice⟩, hbegin⟩ :=
      beginPic_of_no_epoch (t := t.consume ps.bytes) hmode c1 h.val st.val k u.val
    have hrun := becomes_pictureDecodeStart hopen hslot hlive hready hunit hfence hslice hretry hnext hstore hstart hc1
    rw [hmissing, hbegin] at hrun
    obtain ⟨hslices, hstream⟩ := begunPic_tables c1 h.val st.val (t.consume ps.bytes).nextDecode u.val
      (some (withPic (t.consume ps.bytes) k p))
    refine ⟨_, hrun, hslices, ?_⟩
    rw [hstream]
    exact ⟨p, List.mem_append_right _ List.mem_cons_self, hpslot, hpno, hpslice, rfl⟩
  case headerOk =>
    intro c h st hd t hopen hlive hclosing hidle hok hwidth hheight hcodedW hcodedH hneeded hnone
    refine ⟨_, becomes_sequenceHeader_ok hopen hlive hclosing hidle hok hwidth hheight hcodedW hcodedH hneeded, ?_⟩
    dsimp only
    rw [stream_setStream_self, stream_endSequence _ _ _ _ hnone]
    rfl
  case headerUnsupported =>
    intro c h st hd t e hopen hlive hclosing hidle hbad he
    exact becomes_sequenceHeader_unsupported hopen hlive hclosing hidle hbad he
  case partition =>
    intro c h st data part t p hopen hpic hlive hparsed hsettled
    exact becomes_of_eq (becomes_partitionReconstructed hopen hpic hlive (if_neg (ne_true_of_eq_false hparsed)).symm)
      (if_neg hsettled)
  case partitionParsed =>
    intro c h st data part t p e hopen hpic hlive hparsed he hsettled
    exact becomes_of_eq (becomes_partitionReconstructed hopen hpic hlive (he.trans (if_pos hparsed).symm)) (if_neg hsettled)
  case partitionRows =>
    intro c h st data part t p e hopen hpic hlive hparsed he hmode hunsettled
    exact becomes_of_eq (becomes_partitionReconstructed hopen hpic hlive
      (he.trans (if_neg (ne_true_of_eq_false hparsed)).symm)) (if_pos ⟨hmode, hunsettled⟩)
  case paramSet =>
    intro c h st kind id t hopen hlive hkind
    exact becomes_of_eq (becomes_damageDetected_paramBad hopen hlive rfl) (if_neg hkind)
  case sequenceHeaderBad =>
    intro c h st id t e hopen hlive he
    exact becomes_of_eq (becomes_damageDetected_paramBad hopen hlive he) (if_pos rfl)
  case completeClosing =>
    intro c h st pe t p hopen hpic hlive hclosing hend hlone
    exact becomes_pictureComplete_closing hopen hpic hlive hclosing hend hlone
  case completeWaiting =>
    intro c h st pe t p hopen hpic hlive hclosing hend hlone houtputs hdamage hguard hnumber
    obtain ⟨p', used, concealed, ⟨hno, hdone, hwaits⟩, hrun⟩ :=
      becomes_pictureComplete_waiting hopen hpic hlive hclosing hend hlone houtputs hdamage hguard hnumber
    refine ⟨_, hrun, reg_countPic _ _ _ _, ?_⟩
    rw [stream_countPic, stream_setStream_self]
    refine congrArg some (List.any_eq_true.mpr ⟨_, mem_pics_endPic (List.mem_of_find?_eq_some hpic) p' used pe.refs, ?_⟩)
    simp [hno, hdone, hwaits]

end Sys2Proof.Proofs
end

section
/-! The events of raster ports (R265 to R282): the card that each leaves. -/

namespace Sys2Proof.Proofs

open Sys2Proof Sys2Proof.Machine Sys2Proof.Laws

/-! ### What a port receives (R265, R276, R281, R282) -/

/-- A packet arrives on virtual channel `k`: the 1 ms without a packet begins anew (R281). -/
def packetSeen (c : Card) (h k : Nat) : Card := c.setVc h k { c.vc h k with lastAt := c.ns }

@[simp] theorem vc_packetSeen (c : Card) (h k : Nat) : (packetSeen c h k).vc h k = { c.vc h k with lastAt := c.ns } :=
  vc_setVc_self ..

@[simp] theorem vcCfg_packetSeen (c : Card) (h k : Nat) : (packetSeen c h k).vcCfg h k = c.vcCfg h k := vcCfg_setVc ..

/-- A packet with a good header passes. -/
theorem rpHeader_good (c : Card) (h k : Nat) (go : Card → Card) : c.rpHeader h k .good go = go (packetSeen c h k) := rfl

/-- A packet with an uncorrectable header is counted, told and dropped; it flags the frame in progress. -/
theorem rpHeader_bad (c : Card) (h k : Nat) (go : Card → Card) :
    c.rpHeader h k .bad go = (((packetSeen c h k).bump (hp h 0x70024) 1).rpEvent h 1).flagFrame h k fHdrErr := rfl

/-- A Frame End: no frame is in progress after it. -/
def endFrame (c : Card) (h k : Nat) : Card := c.setVc h k { c.vc h k with cur := none, latched := false }

@[simp] theorem vc_endFrame (c : Card) (h k : Nat) :
    (endFrame c h k).vc h k = { c.vc h k with cur := none, latched := false } := vc_setVc_self ..

@[simp] theorem b2n_true : b2n true = 1 := rfl

/-- A link that was up and stays so changes what HP_RP_LINK shows, and tells nothing. -/
theorem setLink_of_up {c : Card} {h : Nat} (hup : c.bit (hp h 0x70004) 31 = true) (hs : Bool) (rate : Nat) :
    c.setLink h true hs rate = c.setN (hp h 0x70004) (2 ^ 31 + b2n hs * 2 ^ 30 + rate % 65536) := by
  unfold Card.setLink
  dsimp only
  rw [if_pos hup, if_neg (by simp), b2n_true, one_mul]

section
variable {c : Card} {p vc : Fin 4} {h : Nat} (hport : c.receiver p.val = some h)
include hport

theorem becomes_frameStart {num : Nat} (hon : (c.vc h vc.val).state ≠ 0) (hidle : (c.vc h vc.val).cur = none) :
    Becomes (.frameStart p vc num .good) c ((packetSeen c h vc.val).openFrame h vc.val num) := by
  refine becomes_of_run (execFrameStart.eq_def p vc num .good) ?_
  rw [hport]
  dsimp only
  rw [rpHeader_good, if_neg (by simpa using hon), if_neg (by simp [hidle])]

theorem becomes_frameEnd (hon : (c.vc h vc.val).state ≠ 0) :
    Becomes (.frameEnd p vc .good) c (endFrame ((packetSeen c h vc.val).latch h vc.val [fTruncated]) h vc.val) := by
  refine becomes_of_run (execFrameEnd.eq_def p vc .good) ?_
  rw [hport]
  dsimp only
  rw [rpHeader_good, if_neg (by simpa using hon), endFrame]

theorem becomes_lineMarker (hon : (c.vc h vc.val).state ≠ 0) : Becomes (.lineMarker p vc .good) c (packetSeen c h vc.val) := by
  refine becomes_of_run (execLineMarker.eq_def p vc .good) ?_
  rw [hport]
  dsimp only
  rw [rpHeader_good, if_neg (by simpa using hon)]

theorem becomes_lineMarker_bad :
    Becomes (.lineMarker p vc .bad) c
      ((((packetSeen c h vc.val).bump (hp h 0x70024) 1).rpEvent h 1).flagFrame h vc.val fHdrErr) := by
  refine becomes_of_run (execLineMarker.eq_def p vc .bad) ?_
  rw [hport]
  dsimp only
  rw [rpHeader_bad]

section
variable {pk : CsiPacket} {e : Card} (hdrain : e = c.rpDrain h pk.drained)
include hdrain

/-- A packet of the channel's data type brings the frame in progress its next line. -/
theorem becomes_longPacket_line {f : RpFrame} (hon : (e.vc h vc.val).state ≠ 0) (hdt : pk.dt = (e.vcCfg h vc.val).dt)
    (hcur : (e.vc h vc.val).cur = some f) (hopen : (e.vc h vc.val).latched = false) :
    Becomes (.longPacket p vc pk .good) c ((packetSeen e h vc.val).rpLine h vc.val f pk) := by
  refine becomes_of_run (execLongPacket.eq_def p vc pk .good) ?_
  rw [hport]
  dsimp only
  rw [rpHeader_good, ← hdrain, if_neg (by simpa using hon), if_neg (by simpa using hdt), vc_packetSeen]
  dsimp only
  rw [hcur]
  dsimp only
  rw [if_neg (by simp [hopen])]

/-- A packet on a channel that is OFF is dropped and counted. -/
theorem becomes_longPacket_off (hoff : (e.vc h vc.val).state = 0) :
    Becomes (.longPacket p vc pk .good) c ((packetSeen e h vc.val).dtDrop h) := by
  refine becomes_of_run (execLongPacket.eq_def p vc pk .good) ?_
  rw [hport]
  dsimp only
  rw [rpHeader_good, ← hdrain, if_pos (by simpa using hoff)]

end

theorem becomes_rasterPacketTimeout (hcur : (c.vc h vc.val).cur.isSome = true) (hopen : (c.vc h vc.val).latched = false) :
    Becomes (.rasterPacketTimeout p vc) c
      ((c.advanceTo ((c.vc h vc.val).lastAt + 1000000)).latch h vc.val [fTruncated]) := by
  refine becomes_of_run (execRasterPacketTimeout.eq_def p vc) ?_
  rw [hport]
  dsimp only
  rw [if_pos (by simp [hcur, hopen])]

theorem becomes_rasterLinkChange_of_up (hup : c.bit (hp h 0x70004) 31 = true) (hs : Bool) (rate : Nat) :
    Becomes (.rasterLinkChange p true hs rate) c
      (c.setN (hp h 0x70004) (2 ^ 31 + b2n hs * 2 ^ 30 + rate % 65536)) := by
  refine becomes_of_run (execRasterLinkChange.eq_def p true hs rate) ?_
  rw [hport]
  exact setLink_of_up hup hs rate

end

/-! ### Completion (R271, R277) -/

/-- A write of the buffer belongs to frame `no` of channel `k`. -/
def isWriteOf (k no : Nat) (w : RpWrite) : Bool := w.vc == k && w.no == no

/-- The oldest frame whose writes are complete leaves the channel: its descriptor is written, and it is counted. -/
def writeDesc (c : Card) (h k : Nat) (f : RpFrame) (rest : List RpFrame) : Card :=
  ((c.setVc h k { c.vc h k with done := rest }).rpPut h k f.no (c.vcCfg h k).ctx
    ((c.vcCfg h k).desc + 64 * (f.no % 2 ^ (c.vcCfg h k).log2)) (frameDesc f k (c.vcCfg h k))).bump (vcReg h k 0x28) 1

section
variable {c : Card} {h vc : Fin 4}

/-- A frame with a buffer and without alignment tells FRAME_SEM alone. -/
theorem becomes_frameWritesComplete {f g : RpFrame} {l rest : List RpFrame} {d e x : Card}
    (hdone : (c.vc h.val vc.val).done = f :: l) (hlive : c.live = true) (hdrain : d = c.rpDrain h.val 0)
    (hfree : (tabGet [] d.rpBuf h.val).any (fun w => isWriteOf vc.val f.no w && !w.data.isEmpty) = false)
    (hrest : e = d.setRpBuf h.val ((tabGet [] d.rpBuf h.val).filter (fun w => !isWriteOf vc.val f.no w)))
    (holdest : (e.vc h.val vc.val).done = g :: rest) (haddr : g.addr.isSome = true) (halign : g.align = none)
    (hx : x = writeDesc e h.val vc.val g rest) :
    Becomes (.frameWritesComplete h vc) c
      (x.semApply (4096 * h.val + x.f (vcReg h.val vc.val 0x18) 11 0) 0 (g.no + 1)) := by
  simp only [isWriteOf] at hfree hrest
  have hbuffer : ¬g.addr.isNone = true := by simpa [Option.isSome_iff_ne_none] using haddr
  refine becomes_of_run (execFrameWritesComplete.eq_def h vc) ?_
  dsimp only
  rw [hdone]
  dsimp only
  rw [if_neg (by simp [hlive]), ← hdrain, if_neg (ne_true_of_eq_false hfree), ← hrest, holdest, List.headD_cons, List.drop_one,
    List.tail_cons, if_neg hbuffer, halign, hx]
  rfl

/-! ### Commits (R268, R269) -/

/-- HP_RP_COMMIT holds what its _HI write completes (R17). -/
def writeCommit (c : Card) (h k : Nat) (v : Word) : Card :=
  ((c.setReg (vcReg h k 0x10) (c.loFor (vcReg h k 0x10))).setReg (vcReg h k 0x10 + 4) v).dropHold (vcReg h k 0x10)

/-- A withdrawal, or an address whose buffer passes the checks, is committed. -/
theorem becomes_rasterCommitWrite {v : Word} {a : Nat} (hreach : c.reaches (.pf h) (0x70114 + 0x80 * vc.val) = true)
    (ha : a = (c.loFor (vcReg h.val vc.val 0x10)).toNat + 2 ^ 32 * v.toNat)
    (hok : a = 0 ∨ (writeCommit c h.val vc.val v).bufferOk h.val ((writeCommit c h.val vc.val v).vcCfg h.val vc.val) a = true) :
    Becomes (.rasterCommitWrite h vc v) c ((writeCommit c h.val vc.val v).commit h.val vc.val a) := by
  refine becomes_of_run (execRasterCommitWrite.eq_def h vc v) ?_
  rw [hostWrite_of_reaches hreach]
  dsimp only
  rw [← ha, ← writeCommit, if_pos hok]

/-! ### ENABLE (R276) -/

section
variable {v : Word} (hreach : c.reaches (.pf h) (0x70100 + 0x80 * vc.val) = true)
include hreach

theorem becomes_rasterVcEnable_on (hset : fld v 31 31 = 1) (hoff : c.bit (vcReg h.val vc.val 0) 31 = false)
    (hok : ((c.writeReg (vcReg h.val vc.val 0) v).vcCfg h.val vc.val).ok = true) :
    Becomes (.rasterVcEnable h vc v) c (((c.writeReg (vcReg h.val vc.val 0) v).setBit (vcReg h.val vc.val 0) 31 true).setVc
      h.val vc.val { state := 1, lastAt := (c.writeReg (vcReg h.val vc.val 0) v).ns }) := by
  refine becomes_of_run (execRasterVcEnable.eq_def h vc v) ?_
  rw [hostWrite_of_reaches hreach]
  dsimp only
  rw [if_neg (by simp [hset]), if_neg (by simp [hoff, hok])]

theorem becomes_rasterVcEnable_off (hclear : fld v 31 31 = 0) (hon : c.bit (vcReg h.val vc.val 0) 31 = true) :
    Becomes (.rasterVcEnable h vc v) c
      (((c.writeReg (vcReg h.val vc.val 0) v).setBit (vcReg h.val vc.val 0) 31 false).vcOff h.val vc.val) := by
  refine becomes_of_run (execRasterVcEnable.eq_def h vc v) ?_
  rw [hostWrite_of_reaches hreach]
  dsimp only
  rw [if_pos hclear, if_pos hon]

end

end

/-! ### The obligation -/

/-- Settles O42, row by row. -/
theorem rasterRowsComplete : Obligations.RasterRowsComplete := by
  refine ⟨?frameStart, ?frameEnd, ?lineMarker, ?lineMarkerBad, ?line, ?channelOff, ?timeout, ?linkChange, ?writesComplete,
    ?withdrawal, ?commit, ?enable, ?disable⟩
  case frameStart =>
    intro c p vc num h hport hon hidle
    exact becomes_frameStart hport hon hidle
  case frameEnd =>
    intro c p vc h hport hon
    refine ⟨_, becomes_frameEnd hport hon, ?_⟩
    dsimp only
    rw [vc_endFrame]
    exact ⟨rfl, rfl⟩
  case lineMarker =>
    intro c p vc h hport hon
    exact becomes_lineMarker hport hon
  case lineMarkerBad =>
    intro c p vc h hport
    exact becomes_lineMarker_bad hport
  case line =>
    intro c p vc pk h f e hport hdrain hon hdt hcur hopen
    exact becomes_longPacket_line hport hdrain hon hdt hcur hopen
  case channelOff =>
    intro c p vc pk h e hport hdrain hoff
    exact becomes_longPacket_off hport hdrain hoff
  case timeout =>
    intro c p vc h hport hcur hopen
    exact becomes_rasterPacketTimeout hport hcur hopen
  case linkChange =>
    intro c p hs rate h hport hup
    exact becomes_rasterLinkChange_of_up hport hup hs rate
  case writesComplete =>
    intro c h vc f g l rest d e x hdone hlive hdrain hfree hrest holdest haddr halign hx
    exact becomes_frameWritesComplete hdone hlive hdrain hfree hrest holdest haddr halign hx
  case withdrawal =>
    rintro c h vc v _ hreach rfl hzero
    exact becomes_rasterCommitWrite hreach hzero.symm (.inl rfl)
  case commit =>
    rintro c h vc v _ a hreach rfl ha hok
    exact becomes_rasterCommitWrite hreach ha (.inr hok)
  case enable =>
    rintro c h vc v _ hreach rfl hset hoff hok
    exact becomes_rasterVcEnable_on hreach hset hoff hok
  case disable =>
    rintro c h vc v _ hreach rfl hclear hon
    exact becomes_rasterVcEnable_off hreach hclear hon

end Sys2Proof.Proofs
end

section
/-! Blown fuses through every command (R493, R501): what blows a word only adds bits, and everything else leaves the array. -/

namespace Sys2Proof.Proofs

open Sys2Proof Sys2Proof.Machine Sys2Proof.Laws

/-- Every part but the one that holds the fuse array. -/
def offFuses : List Part :=
  [.time, .regs, .config, .functions, .pace, .layouts, .rings, .sems, .hostReads, .contexts, .tlb, .pools, .mem, .sram, .dram,
    .memctl, .power, .freeze, .faults, .sched, .epochs, .records, .streams, .keys, .tracks, .links, .colanders, .raster,
    .griddle, .keep, .tap, .board, .fresh, .out]

/-- Every bit blown in `fz` is blown in the card. -/
def StaysBlown (fz : Tab Word) (c : Card) : Prop := ∀ w, tabGet 0 fz w &&& ~~~(tabGet 0 c.blown w) = 0

variable {fz : Tab Word} {c d : Card}

theorem staysBlown_self (c : Card) : StaysBlown c.blown c := fun w => by simp

theorem getLsbD_of_staysBlown (h : StaysBlown fz c) {w i : Nat} (hi : (tabGet 0 fz w : Word).getLsbD i = true) :
    (tabGet 0 c.blown w : Word).getLsbD i = true := by
  have hlt : i < 32 := BitVec.lt_of_getLsbD hi
  have hbit : ((tabGet 0 fz w &&& ~~~(tabGet 0 c.blown w) : Word)).getLsbD i = false := by rw [h w]; simp
  rw [BitVec.getLsbD_and, BitVec.getLsbD_not, hi] at hbit
  simpa [hlt] using hbit

/-- What leaves the part that holds the fuse array leaves what is blown. -/
theorem staysBlown_of_held {fr : List Part} (hfr : fr.contains .fuses = false) (h : StaysBlown fz c) (hd : Held fr c d) :
    StaysBlown fz d := by
  have hfuses : Part.fuses ∉ fr := by simpa using hfr
  have hblown : c.blown = d.blown := congrArg Prod.fst ((hd .fuses).resolve_left hfuses)
  rw [StaysBlown, ← hblown]
  exact h

/-- The operations of a frame without the fuse array leave what is blown. -/
theorem staysBlown_then (h : StaysBlown fz c) (hd : Held offFuses c d) : StaysBlown fz d := staysBlown_of_held rfl h hd

theorem staysBlown_of_blown_eq (h : StaysBlown fz c) (hd : d.blown = c.blown) : StaysBlown fz d := by
  rw [StaysBlown, hd]
  exact h

theorem staysBlown_ite {p : Prop} [Decidable p] (hc : StaysBlown fz c) (hd : StaysBlown fz d) :
    StaysBlown fz (if p then c else d) := by
  split <;> assumption

theorem staysBlown_blow (w : Nat) (bits : Word) (h : StaysBlown fz c) : StaysBlown fz (c.blow w bits) := fun k => fuse_put h k

/-! ### The operations that touch the fuse array -/

/-- The core's loss of power leaves the fuses (R465). -/
theorem staysBlown_coreDown (h : StaysBlown fz c) : StaysBlown fz c.coreDown := by
  unfold Card.coreDown
  extract_lets _ _ c₁ c₂ c₃ c₄
  have h₁ : StaysBlown fz c₁ := staysBlown_ite (staysBlown_then h (frame_setF (needs rfl) _ _ _ _ _
    (frame_setBit (needs rfl) _ _ _ _ (frame_setBit (needs rfl) _ _ _ _ held_refl)))) h
  have h₂ : StaysBlown fz c₂ := h₁
  have hinvalid : Held offFuses c₂ c₃ := frame_foldl (fun _ _ h => frame_setBit (needs rfl) _ _ _ _ h) _ held_refl
  have hoff : Held offFuses c₂ c₄ :=
    frame_setF (needs rfl) _ _ _ _ _ (frame_setF (needs rfl) _ _ _ _ _ (frame_setF (needs rfl) _ _ _ _ _ hinvalid))
  exact staysBlown_then h₂ (frame_setF (needs rfl) _ _ _ _ _ hoff)

theorem staysBlown_trip (sensor : Nat) (x : Int) (h : StaysBlown fz c) : StaysBlown fz (c.trip sensor x) := by
  unfold Card.trip
  extract_lets _ c₁
  have h₁ : StaysBlown fz c₁ := staysBlown_then h (frame_recordsChanged (needs rfl) _ _ _ held_refl)
  exact staysBlown_then (staysBlown_coreDown h₁) (frame_pinHot (needs rfl) _ (frame_setF (needs rfl) _ _ _ _ _ held_refl))

/-- The loss of all power leaves the fuses (R471). -/
theorem staysBlown_powerDown (h : StaysBlown fz c) : StaysBlown fz c.powerDown := staysBlown_of_blown_eq h rfl

/-- The end of programming forgets the word that was programmed, and leaves the array. -/
theorem staysBlown_fuseEnd (result : Nat) (h : StaysBlown fz c) : StaysBlown fz (c.fuseEnd result) := by
  unfold Card.fuseEnd
  extract_lets c₁
  have h₁ : StaysBlown fz c₁ := staysBlown_of_blown_eq h rfl
  exact staysBlown_then h₁ (frame_event (needs rfl) _ _ _ _ (frame_setF (needs rfl) _ _ _ _ _
    (frame_setBit (needs rfl) _ _ _ _ (frame_setBit (needs rfl) _ _ _ _ held_refl))))

/-- A broken seal blows SEAL_BROKEN (R498). -/
theorem staysBlown_recordSeal (h : StaysBlown fz c) : StaysBlown fz c.recordSeal := by
  unfold Card.recordSeal
  extract_lets _ _ c₁ c₂
  have h₁ : StaysBlown fz c₁ := staysBlown_then (staysBlown_blow 48 1 h) (frame_setBit (needs rfl) _ _ _ _ held_refl)
  have h₂ : StaysBlown fz c₂ := staysBlown_ite (staysBlown_then h₁ (frame_recordsChanged (needs rfl) _ _ _ held_refl)) h₁
  exact staysBlown_then h₂ (frame_ksEvent (needs rfl) _ _ held_refl)

/-- A presence request asks, and opens a window: it blows nothing. -/
theorem staysBlown_askPresence (op detail : Nat) {granted refused opened : Card → Card} (c : Card) (h : StaysBlown fz c)
    (hg : ∀ d, StaysBlown fz d → StaysBlown fz (granted d)) (hr : ∀ d, StaysBlown fz d → StaysBlown fz (refused d))
    (ho : ∀ d, StaysBlown fz d → StaysBlown fz (opened d)) :
    StaysBlown fz (c.askPresence op detail granted refused opened) := by
  unfold Card.askPresence
  refine staysBlown_ite (hg _ ?_) (staysBlown_ite (hr _ h) ?_)
  · exact staysBlown_then h (frame_ksEvent (needs rfl) _ _ (frame_presenceLog (needs rfl) _ _ _ _ _ held_refl))
  · extract_lets c₁
    have h₁ : StaysBlown fz c₁ := ho _ (staysBlown_then h (frame_withPresence (needs rfl) _ held_refl))
    exact staysBlown_ite (staysBlown_then h₁ (frame_withBoard (needs rfl) _ held_refl)) h₁

/-- What a write that does not reach its register leaves does not see its effect. -/
theorem hostWrite_of_not_reaches {c : Card} {fn : Fn} {off : Nat} {k k' : Card → Card} (h : ¬c.reaches fn off = true) :
    c.hostWrite fn off k = c.hostWrite fn off k' := by
  cases fn <;> simp_all [Card.reaches, Card.hostWrite]

/-- A host write that does not reach its register blows nothing. -/
theorem staysBlown_hostWrite (fn : Fn) (off : Nat) {k : Card → Card} (h : StaysBlown fz c) (hk : StaysBlown fz (k c)) :
    StaysBlown fz (c.hostWrite fn off k) := by
  by_cases hreach : c.reaches fn off = true
  · rwa [hostWrite_of_reaches hreach]
  · rw [hostWrite_of_not_reaches hreach (k' := id)]
    exact staysBlown_then h (frame_hostWrite (needs rfl) _ _ _ _ held_refl fun _ h => h)

/-! ### The commands that touch the fuse array -/

section
variable {s : State} (hs : StaysBlown fz s.card)
include hs

theorem staysBlown_execAvsPoll (p : AvsPoll) : Leaves (StaysBlown fz) (execAvsPoll p s) := by
  refine leaves_run (staysBlown_ite hs ?_)
  extract_lets c₁ c₂ c₃
  have hsampled : Held offFuses s.card c₂ := frame_setSensor (needs rfl) _ _ _ (frame_setN (needs rfl) _ _ _ held_refl)
  have h₃ : StaysBlown fz c₃ :=
    staysBlown_then hs (frame_ite (frame_event (needs rfl) _ _ _ _ hsampled) hsampled)
  exact staysBlown_ite (staysBlown_trip _ _ h₃) h₃

theorem staysBlown_execModuleTempSample (ch : Fin 8) (x : Option Int) :
    Leaves (StaysBlown fz) (execModuleTempSample ch x s) := by
  refine leaves_run (staysBlown_ite hs ?_)
  extract_lets _ c₁
  have h₁ : StaysBlown fz c₁ := staysBlown_then hs (frame_setSensor (needs rfl) _ _ _ held_refl)
  split
  · exact h₁
  · extract_lets c₂ c₃
    have h₂ : StaysBlown fz c₂ := staysBlown_ite (staysBlown_then h₁ (frame_thmEvent (needs rfl) _ _ held_refl)) h₁
    have h₃ : StaysBlown fz c₃ := staysBlown_then h₂ (frame_bandSample (needs rfl) _ _ _ held_refl)
    refine staysBlown_ite (staysBlown_ite ?_ (staysBlown_trip _ _ h₂)) h₃
    exact staysBlown_then h₃ (frame_withNoRetention (needs rfl) _ held_refl)

theorem staysBlown_execAuxPowerLost (gone : Bool) : Leaves (StaysBlown fz) (execAuxPowerLost gone s) := by
  refine leaves_run (staysBlown_ite hs ?_)
  extract_lets _ c₁ c₂
  have h₁ : StaysBlown fz c₁ := staysBlown_then hs
    (frame_ite (frame_withPin (needs rfl) _ held_refl) (frame_withPin (needs rfl) _ held_refl))
  have h₂ : StaysBlown fz c₂ := staysBlown_ite (staysBlown_then h₁
    (frame_setBit (needs rfl) _ _ _ _ (frame_setBit (needs rfl) _ _ _ _ held_refl))) h₁
  have hwarned : StaysBlown fz (c₂.pwrEvent 1) := staysBlown_then h₂ (frame_pwrEvent (needs rfl) _ _ held_refl)
  refine staysBlown_ite h₁ ?_
  split
  · exact staysBlown_ite h₂ (staysBlown_then (staysBlown_coreDown hwarned) (frame_setF (needs rfl) _ _ _ _ _ held_refl))
  · exact staysBlown_ite h₂ (staysBlown_then h₂ (frame_startQual (needs rfl) _ held_refl))
  · exact h₂

theorem staysBlown_execSlotPowerLost : Leaves (StaysBlown fz) (execSlotPowerLost s) := leaves_run (staysBlown_powerDown hs)

theorem staysBlown_execHubSensorSample (ts : List (Option Int)) : Leaves (StaysBlown fz) (execHubSensorSample ts s) := by
  refine leaves_run (staysBlown_ite hs ?_)
  extract_lets c₁
  have h₁ : StaysBlown fz c₁ := staysBlown_then hs
    (frame_foldl (fun _ _ h => frame_setSensor (needs rfl) _ _ _ h) _ held_refl)
  split
  · exact staysBlown_then (staysBlown_trip _ _ h₁) (frame_draw (needs rfl) _ (frame_draw (needs rfl) _ held_refl))
  · extract_lets _ c₂ c₃
    have hshown : Held offFuses c₁ c₂ := frame_setF (needs rfl) _ _ _ _ _ (frame_setF (needs rfl) _ _ _ _ _ held_refl)
    have h₃ : StaysBlown fz c₃ := staysBlown_then h₁ (frame_ite (frame_setF (needs rfl) _ _ _ _ _ hshown) hshown)
    split
    · exact staysBlown_ite (staysBlown_trip _ _ h₃) (staysBlown_then h₃ (frame_stageFor (needs rfl) _ _ held_refl))
    · exact h₃

theorem staysBlown_execPresenceTimeout : Leaves (StaysBlown fz) (execPresenceTimeout s) := by
  refine leaves_run ?_
  split
  · exact hs
  · refine staysBlown_ite hs ?_
    extract_lets c₁ c₂
    have hreached : Held offFuses s.card c₁ := frame_advanceTo (needs rfl) _ _ held_refl
    have h₂ : StaysBlown fz c₂ := staysBlown_then hs
      (frame_ksEvent (needs rfl) _ _ (frame_presenceLog (needs rfl) _ _ _ _ _ (frame_endPresence (needs rfl) _ hreached)))
    refine staysBlown_ite (staysBlown_fuseEnd _ h₂) (staysBlown_then h₂ ?_)
    exact frame_ite (frame_setBit (needs rfl) _ _ _ _ held_refl) (frame_ksEnd (needs rfl) _ _ held_refl)

theorem staysBlown_execFuseProgramDone (solid : Word) : Leaves (StaysBlown fz) (execFuseProgramDone solid s) := by
  refine leaves_run ?_
  split
  · exact hs
  · exact staysBlown_ite hs (staysBlown_fuseEnd _ (staysBlown_blow _ _ hs))

theorem staysBlown_execFuseProgram (v : Word) : Leaves (StaysBlown fz) (execFuseProgram v s) := by
  refine leaves_run (staysBlown_hostWrite _ _ hs (staysBlown_ite hs ?_))
  extract_lets _ c₁
  have h₁ : StaysBlown fz c₁ := staysBlown_of_blown_eq hs rfl
  refine staysBlown_ite (staysBlown_fuseEnd _ hs) (staysBlown_ite (staysBlown_fuseEnd _ hs) ?_)
  refine staysBlown_askPresence _ _ _ h₁ (fun d h => ?_) (fun _ h => staysBlown_fuseEnd _ h)
    (fun _ h => staysBlown_then h (frame_setBit (needs rfl) _ _ _ _ held_refl))
  exact staysBlown_then h (frame_startFuse (needs rfl) _ held_refl)

theorem staysBlown_execSealBreak : Leaves (StaysBlown fz) (execSealBreak s) := by
  refine leaves_run (staysBlown_ite hs ?_)
  extract_lets _ c₁ _ c₂
  have hopen : Held offFuses s.card c₁ := frame_withPin (needs rfl) _ held_refl
  have h₂ : StaysBlown fz c₂ := staysBlown_then hs (frame_ite (frame_withBoard (needs rfl) _ hopen) hopen)
  exact staysBlown_ite (staysBlown_recordSeal h₂) h₂

/-- The load reads the fuses, and blows SEAL_BROKEN where the seal is found broken (R498). -/
theorem staysBlown_execKeepLoad (ms : List FuseMargin) : Leaves (StaysBlown fz) (execKeepLoad ms s) := by
  refine leaves_run (staysBlown_ite hs ?_)
  extract_lets _ _ c₁ c₂ c₃ c₄ c₅ c₆
  have h₁ : StaysBlown fz c₁ := staysBlown_of_blown_eq hs rfl
  have hentered : Held offFuses c₁ c₂ := frame_ite (frame_enterStage (needs rfl) _ _ held_refl)
    (frame_recordsChanged (needs rfl) _ _ _ (frame_loadBanks (needs rfl) _ (frame_enterStage (needs rfl) _ _ held_refl)))
  have hread : Held offFuses c₁ c₃ := frame_foldl (fun _ _ h => frame_readFuse (needs rfl) _ _ _ h) _ hentered
  have hlogged : Held offFuses c₁ c₄ := frame_foldl (fun _ _ h => frame_fuseEvents (needs rfl) _ _ _
    (frame_ite h (frame_fuseLog (needs rfl) _ _ _ _ _ _ _ h))) _ hread
  have hcounted : Held offFuses c₁ c₅ := frame_countMargins (needs rfl) _ (frame_setBit (needs rfl) _ _ _ _ hlogged)
  have h₆ : StaysBlown fz c₆ := staysBlown_then h₁
    (frame_setUnits (needs rfl) _ (frame_setReg (needs rfl) _ _ _ (frame_setReg (needs rfl) _ _ _ hcounted)))
  refine staysBlown_ite (staysBlown_then h₁ (frame_setBit (needs rfl) _ _ _ _ hcounted)) ?_
  exact staysBlown_ite (staysBlown_recordSeal h₆) h₆

/-- PERST# discards everything but what is stored, the fuses among it (R520). -/
theorem staysBlown_execConventionalReset : Leaves (StaysBlown fz) (execConventionalReset s) := by
  refine leaves_run (staysBlown_ite hs ?_)
  extract_lets _ c₁ c₂ c₃
  have h₁ : StaysBlown fz c₁ := staysBlown_of_blown_eq hs rfl
  have hsensed : Held offFuses c₁ c₂ := frame_setF (needs rfl) _ _ _ _ _ held_refl
  have hended : Held offFuses c₁ c₃ := frame_ite (frame_setF (needs rfl) _ _ _ _ _ hsensed) hsensed
  exact staysBlown_then h₁ (frame_powerUp (needs rfl) _ hended)

/-- A hot reset leaves the fuse array (R521). -/
theorem staysBlown_execHotReset : Leaves (StaysBlown fz) (execHotReset s) := by
  refine leaves_run (staysBlown_ite hs ?_)
  extract_lets c₁ _ _ c₂ c₃ c₄
  have hfree : Held offFuses s.card c₁ :=
    frame_ite (frame_restartPtm (needs rfl) _ (frame_setSync (needs rfl) _ _ held_refl)) held_refl
  have hasked : Held offFuses s.card c₂ := frame_foldl (fun _ _ h => frame_askPfReset (needs rfl) _ _ _ _ _ h) _ hfree
  have hwoken : Held offFuses s.card c₃ := frame_foldl (fun _ _ h => frame_ite (frame_setFn (needs rfl) _ _ _ h) h) _ hasked
  have hcleared : Held offFuses s.card c₄ := frame_clearCfg (needs rfl) _ hwoken
  exact staysBlown_then hs
    (frame_foldl (fun _ _ h => frame_pfReadable (needs rfl) _ _ (frame_setFn (needs rfl) _ _ _ h)) _ hcleared)

/-- A command whose frame leaves the fuse array blows nothing. -/
theorem staysBlown_exec_of_footprint {i : Instr} (hi : (footprint i).contains .fuses = false) :
    Leaves (StaysBlown fz) (exec i s) := fun u hu => staysBlown_of_held hi hs (frame_exec i s u hu)

/-- No command clears a blown bit: those named touch the fuse array, or lie in a frame with it, and the frame of every other
command is without it. -/
theorem staysBlown_exec (i : Instr) : Leaves (StaysBlown fz) (exec i s) := by
  cases i
  case avsPoll => exact staysBlown_execAvsPoll hs _
  case moduleTempSample => exact staysBlown_execModuleTempSample hs _ _
  case auxPowerLost => exact staysBlown_execAuxPowerLost hs _
  case slotPowerLost => exact staysBlown_execSlotPowerLost hs
  case hubSensorSample => exact staysBlown_execHubSensorSample hs _
  case presenceTimeout => exact staysBlown_execPresenceTimeout hs
  case fuseProgram => exact staysBlown_execFuseProgram hs _
  case fuseProgramDone => exact staysBlown_execFuseProgramDone hs _
  case keepLoad => exact staysBlown_execKeepLoad hs _
  case conventionalReset => exact staysBlown_execConventionalReset hs
  case hotReset => exact staysBlown_execHotReset hs
  case sealBreak => exact staysBlown_execSealBreak hs
  all_goals exact staysBlown_exec_of_footprint hs rfl

theorem staysBlown_idle : StaysBlown fz (State.tick s).card := by
  rw [card_tick]
  exact staysBlown_then hs (frame_tickWork (needs rfl) _ (frame_tick (needs rfl) _ held_refl))

end

/-- Settles O8: an idle step leaves the fuse array, and any other runs a command, which only adds blown bits. -/
theorem blownFusesStayBlown : Obligations.BlownFusesStayBlown := by
  intro s t hstep w i hbit
  have hself : StaysBlown s.card.blown s.card := staysBlown_self s.card
  refine getLsbD_of_staysBlown ?_ hbit
  unfold step at hstep
  split at hstep
  · cases hstep
    exact staysBlown_idle hself
  case _ i rest _ => exact staysBlown_exec (s := { s with pending := rest }) hself i t hstep

end Sys2Proof.Proofs
end

section
/-! Keep-store images (R488, R499): an image that the card builds is valid, and reads back as its sections. -/

namespace Sys2Proof.Proofs

open Sys2Proof Sys2Proof.Machine

/-! ### Little-endian fields of a byte list -/

@[simp] theorem length_leBytes (n v : Nat) : (leBytes n v).length = n := by
  induction n generalizing v with
  | zero => rfl
  | succ n ih => simp [leBytes, ih]

theorem leNat_leBytes (n v : Nat) : leNat (leBytes n v) = v % 256 ^ n := by
  induction n generalizing v with
  | zero => simp [leBytes, leNat, Nat.mod_one]
  | succ n ih =>
    have hsplit : v % 256 ^ (n + 1) = v % 256 + 256 * (v / 256 % 256 ^ n) := by rw [Nat.pow_succ, Nat.mul_comm, Nat.mod_mul]
    rw [leBytes, leNat, ih, hsplit, BitVec.toNat_ofNat]

theorem leNat_replicate_zero (n : Nat) : leNat (List.replicate n 0) = 0 := by
  induction n with
  | zero => rfl
  | succ n ih => rw [List.replicate_succ, leNat, ih]; rfl

theorem leAt_replicate_zero (m o n : Nat) : leAt (List.replicate m 0) o n = 0 := by
  rw [leAt, List.drop_replicate, List.take_replicate, leNat_replicate_zero]

theorem leAt_append_left {a b : List Byte} {o n : Nat} (h : o + n ≤ a.length) : leAt (a ++ b) o n = leAt a o n := by
  rw [leAt, leAt, List.drop_append_of_le_length (by omega), List.take_append_of_le_length (by rw [List.length_drop]; omega)]

theorem leAt_append_right {a b : List Byte} {o k n : Nat} (h : o = a.length + k) : leAt (a ++ b) o n = leAt b k n := by
  rw [leAt, leAt, h, List.drop_append, List.drop_of_length_le (by omega), Nat.add_sub_cancel_left, List.nil_append]

theorem leAt_add (l : List Byte) (o k n : Nat) : leAt l (o + k) n = leAt (l.drop o) k n := by
  rw [leAt, leAt, List.drop_drop]

/-- A number below its field's bound reads back from where it was put. -/
theorem leAt_leBytes {n v : Nat} (h : v < 256 ^ n) (b : List Byte) : leAt (leBytes n v ++ b) 0 n = v := by
  rw [leAt_append_left (by simp), leAt, List.drop_zero, List.take_of_length_le (by simp), leNat_leBytes, Nat.mod_eq_of_lt h]

/-- Zero bytes are all found zero. -/
theorem find?_zeros {l : List Byte} {o m : Nat} {b : List Byte} (h : l.drop o = List.replicate m 0 ++ b) :
    (List.range m).find? (fun i => leAt l (o + i) 1 != 0) = none := by
  rw [List.find?_eq_none]
  intro i hi
  have hzero : leAt l (o + i) 1 = 0 := by
    rw [leAt_add, h, leAt_append_left (by simpa using hi), leAt_replicate_zero]
  simp [hzero]

/-! ### One section -/

/-- The table of R499 lists the section's type and index, with its class and the length of its payload. -/
def SectionAllowed (s : KsSection) : Prop :=
  ∃ ok, ksTypeOk s.type s.index = some (s.cls, ok) ∧ ok s.payload.length = true

theorem lt_of_ksTypeOk {type index cls : Nat} {ok : Nat → Bool} (h : ksTypeOk type index = some (cls, ok)) :
    type < 256 ∧ index < 256 ∧ cls < 256 := by
  unfold ksTypeOk at h
  split at h <;> simp at h <;> omega

/-- The first 8 bytes of a section. -/
def sectionHead (s : KsSection) : List Byte :=
  leBytes 1 s.type ++ (leBytes 1 s.index ++ (leBytes 1 s.cls ++ (leBytes 1 0 ++ leBytes 4 s.payload.length)))

/-- The zero bytes behind a payload of some length. -/
def padding (n : Nat) : Nat := (16 - n % 16) % 16

theorem bytes_eq (s : KsSection) : s.bytes =
    sectionHead s ++ (List.replicate 8 0 ++ (s.payload ++ List.replicate (padding s.payload.length) 0)) := by
  simp [KsSection.bytes, sectionHead, padding]

theorem length_bytes (s : KsSection) : s.bytes.length = 16 + s.payload.length + padding s.payload.length := by
  simp [bytes_eq, sectionHead]
  omega

theorem add_padding (n : Nat) : n + padding n = ceilDiv n 16 * 16 := by
  unfold padding ceilDiv
  omega

section
variable {s : KsSection} {img rest : List Byte} {o : Nat}

/-- What a section's fields read, where its bytes stand in an image. -/
theorem fields_of_bytes (h : img.drop o = s.bytes ++ rest) (hs : SectionAllowed s) (hlen : s.payload.length < 2 ^ 32) :
    leAt img o 1 = s.type ∧ leAt img (o + 1) 1 = s.index ∧ leAt img (o + 2) 1 = s.cls ∧ leAt img (o + 3) 1 = 0 ∧
      leAt img (o + 4) 4 = s.payload.length := by
  obtain ⟨ok, hok, -⟩ := hs
  obtain ⟨htype, hindex, hcls⟩ := lt_of_ksTypeOk hok
  have h0 : leAt img o 1 = leAt (img.drop o) 0 1 := leAt_add img o 0 1
  simp only [h0, leAt_add, h, bytes_eq, sectionHead, List.append_assoc]
  refine ⟨leAt_leBytes htype _, ?_, ?_, ?_, ?_⟩
  · rw [leAt_append_right (k := 0) (by simp), leAt_leBytes hindex]
  · rw [leAt_append_right (k := 1) (by simp), leAt_append_right (k := 0) (by simp), leAt_leBytes hcls]
  · rw [leAt_append_right (k := 2) (by simp), leAt_append_right (k := 1) (by simp), leAt_append_right (k := 0) (by simp),
      leAt_leBytes (by decide)]
  · rw [leAt_append_right (k := 3) (by simp), leAt_append_right (k := 2) (by simp), leAt_append_right (k := 1) (by simp),
      leAt_append_right (k := 0) (by simp), leAt_leBytes hlen]

theorem drop_reserved_of_bytes (h : img.drop o = s.bytes ++ rest) :
    img.drop (o + 8) = List.replicate 8 0 ++ (s.payload ++ (List.replicate (padding s.payload.length) 0 ++ rest)) := by
  rw [← List.drop_drop, h, bytes_eq]
  simp [sectionHead, leBytes]

theorem drop_payload_of_bytes (h : img.drop o = s.bytes ++ rest) :
    img.drop (o + 16) = s.payload ++ (List.replicate (padding s.payload.length) 0 ++ rest) := by
  rw [show o + 16 = o + 8 + 8 from rfl, ← List.drop_drop, drop_reserved_of_bytes h, List.drop_left' (by simp)]

theorem drop_padding_of_bytes (h : img.drop o = s.bytes ++ rest) :
    img.drop (o + 16 + s.payload.length) = List.replicate (padding s.payload.length) 0 ++ rest := by
  rw [← List.drop_drop, drop_payload_of_bytes h, List.drop_left' rfl]

/-- The section comes after the one last read, by (TYPE, INDEX). -/
def AfterLast (last : Option (Nat × Nat)) (s : KsSection) : Prop :=
  ∀ l ∈ last, l.1 < s.type ∨ (l.1 = s.type ∧ l.2 < s.index)

/-- One section is read, and what follows it next. -/
theorem ksSections_step {stop n : Nat} {last : Option (Nat × Nat)} {acc : List KsSection}
    (h : img.drop o = s.bytes ++ rest) (hs : SectionAllowed s) (hlen : s.payload.length < 2 ^ 32)
    (hstop : o + s.bytes.length ≤ stop) (hlast : AfterLast last s) :
    ksSections img stop (n + 1) o last acc =
      ksSections img stop n (o + s.bytes.length) (some (s.type, s.index)) (s :: acc) := by
  obtain ⟨htype, hindex, hcls, hzero, hplen⟩ := fields_of_bytes h hs hlen
  obtain ⟨ok, hok, hokLen⟩ := hs
  have hpad : s.bytes.length = 16 + ceilDiv s.payload.length 16 * 16 := by rw [length_bytes, ← add_padding]; omega
  have hpadLen : ceilDiv s.payload.length 16 * 16 - s.payload.length = padding s.payload.length := by
    rw [← add_padding]; omega
  have hres := find?_zeros (drop_reserved_of_bytes h)
  have hfill := find?_zeros (drop_padding_of_bytes h)
  have hpay : (img.drop (o + 16)).take s.payload.length = s.payload := by
    rw [drop_payload_of_bytes h, List.take_left' rfl]
  have hfit : ¬stop < o + 16 := by omega
  rw [ksSections.eq_def]
  simp only [htype, hindex, hcls, hzero, hplen, hok, hokLen, hpadLen, hres, hfill, hpay, hpad]
  simp only [hfit, ↓reduceIte, ne_eq, not_true_eq_false, Bool.not_true, Bool.false_or, decide_eq_true_eq, Nat.add_assoc]
  refine (if_neg ?_).trans (if_neg (by omega))
  cases last with
  | none => simp
  | some l =>
    have hafter := hlast l rfl
    simp
    omega

/-- The sections that stand behind one another from an offset to the image's end are read, in their order. -/
theorem ksSections_of_bytes {img : List Byte} (l : List KsSection) {o : Nat} {last : Option (Nat × Nat)}
    {acc : List KsSection} (h : img.drop o = l.flatMap KsSection.bytes) (ho : o ≤ img.length) (hmax : img.length ≤ 65536)
    (hl : ∀ s ∈ l, SectionAllowed s) (horder : l.Pairwise (fun a b => a.type < b.type ∨ (a.type = b.type ∧ a.index < b.index)))
    (hlast : ∀ s ∈ l, AfterLast last s) : ksSections img img.length l.length o last acc = .ok (acc.reverse ++ l) := by
  induction l generalizing o last acc with
  | nil =>
    have hend : o = img.length := by
      have := congrArg List.length h
      simp at this
      omega
    simp [ksSections.eq_def, hend]
  | cons s l ih =>
    rw [List.flatMap_cons] at h
    obtain ⟨hfirst, horder⟩ := List.pairwise_cons.mp horder
    have hlength : o + s.bytes.length ≤ img.length := by
      have := congrArg List.length h
      simp at this
      omega
    have hpay : s.payload.length < 2 ^ 32 := by
      have := length_bytes s
      omega
    rw [List.length_cons, ksSections_step h (hl s (by simp)) hpay hlength (hlast s (by simp))]
    rw [ih (by rw [← List.drop_drop, h, List.drop_left' rfl]) hlength (fun x hx => hl x (by simp [hx])) horder ?_]
    · simp
    · rintro x hx _ ⟨⟩
      exact hfirst x hx


end

/-! ### The image -/

/-- The bytes of an image before its CRC. -/
def imageHead (gen : Nat) (l : List KsSection) : List Byte :=
  leBytes 4 0x5045454B ++ (leBytes 2 1 ++ (leBytes 2 l.length ++ (leBytes 4 gen ++
    (leBytes 4 (64 + (l.flatMap KsSection.bytes).length) ++ List.replicate 44 0))))

@[simp] theorem length_imageHead (gen : Nat) (l : List KsSection) : (imageHead gen l).length = 0x3C := by
  simp [imageHead]

/-- An image that is as long as its CRC's range gives its CRC without the field itself. -/
theorem imageCrc_of_parts {head crc body : List Byte} (hhead : head.length = 0x3C) (hcrc : crc.length = 4) :
    imageCrc (head ++ (crc ++ body)) (64 + body.length) = crc32 (head ++ List.replicate 4 0 ++ body) := by
  have hlength : (head ++ (crc ++ body)).length = 64 + body.length := by simp [hhead, hcrc]; omega
  have hfront : (head ++ (crc ++ body) ++ List.replicate (64 + body.length) 0).take 0x3C = head := by
    rw [List.append_assoc, List.take_left' hhead]
  have hback : ((head ++ (crc ++ body) ++ List.replicate (64 + body.length) 0).take (64 + body.length)).drop 0x40 = body := by
    rw [List.take_left' hlength, ← List.append_assoc, List.drop_left' (by simp [hhead, hcrc])]
  rw [imageCrc, hfront, hback]

/-- The CRC that the image of some sections carries. -/
def sectionsCrc (gen : Nat) (l : List KsSection) : Nat :=
  crc32 (imageHead gen l ++ List.replicate 4 0 ++ l.flatMap KsSection.bytes)

/-- The image is its head, its CRC, and its sections. -/
theorem ksBuild_eq (gen : Nat) (l : List KsSection) :
    ksBuild gen l = imageHead gen l ++ (leBytes 4 (sectionsCrc gen l) ++ l.flatMap KsSection.bytes) := by
  have hbuilt : leBytes 4 0x5045454B ++ leBytes 2 1 ++ leBytes 2 l.length ++ leBytes 4 gen ++
      leBytes 4 (64 + (l.flatMap KsSection.bytes).length) ++ List.replicate 48 0 ++ l.flatMap KsSection.bytes =
        imageHead gen l ++ (List.replicate 4 0 ++ l.flatMap KsSection.bytes) := by
    simp only [imageHead, List.append_assoc, show (48 : Nat) = 44 + 4 from rfl, List.replicate_add]
  have hlength : (imageHead gen l ++ (List.replicate 4 0 ++ l.flatMap KsSection.bytes)).length =
      64 + (l.flatMap KsSection.bytes).length := by
    simp
    omega
  have hbody : (imageHead gen l ++ (List.replicate 4 0 ++ l.flatMap KsSection.bytes)).drop 0x40 = l.flatMap KsSection.bytes := by
    rw [← List.append_assoc, List.drop_left' (by simp)]
  rw [ksBuild, hbuilt, hlength, imageCrc_of_parts (length_imageHead gen l) (by simp), List.take_left' (length_imageHead gen l),
    hbody, sectionsCrc, List.append_assoc]

theorem length_ksBuild (gen : Nat) (l : List KsSection) :
    (ksBuild gen l).length = 64 + (l.flatMap KsSection.bytes).length := by
  simp [ksBuild_eq]
  omega

theorem imageCrc_ksBuild (gen : Nat) (l : List KsSection) :
    imageCrc (ksBuild gen l) (ksBuild gen l).length = sectionsCrc gen l := by
  rw [length_ksBuild, ksBuild_eq, imageCrc_of_parts (length_imageHead gen l) (by simp), sectionsCrc]

theorem mod_length_sections (l : List KsSection) : (l.flatMap KsSection.bytes).length % 16 = 0 := by
  induction l with
  | nil => rfl
  | cons s l ih =>
    have hpad := add_padding s.payload.length
    rw [List.flatMap_cons, List.length_append, length_bytes]
    omega

theorem length_le_sections (l : List KsSection) : 16 * l.length ≤ (l.flatMap KsSection.bytes).length := by
  induction l with
  | nil => simp
  | cons s l ih =>
    rw [List.flatMap_cons, List.length_append, length_bytes, List.length_cons]
    omega

section
variable {gen : Nat} {l : List KsSection} (hmax : 64 + (l.flatMap KsSection.bytes).length ≤ 65536)
include hmax

/-- What the fields before the sections read. -/
theorem fields_ksBuild : leAt (ksBuild gen l) 0 4 = 0x5045454B ∧ leAt (ksBuild gen l) 4 2 = 1 ∧
    leAt (ksBuild gen l) 6 2 = l.length ∧ leAt (ksBuild gen l) 0xC 4 = (ksBuild gen l).length ∧
    leAt (ksBuild gen l) 0x3C 4 = sectionsCrc gen l := by
  have hcount := length_le_sections l
  have hcrc : sectionsCrc gen l < 2 ^ 32 := BitVec.isLt _
  rw [length_ksBuild]
  simp only [ksBuild_eq]
  refine ⟨?_, ?_, ?_, ?_, ?_⟩
  · rw [leAt_append_left (by simp), imageHead, leAt_leBytes (by decide)]
  · rw [leAt_append_left (by simp), imageHead, leAt_append_right (k := 0) (by simp), leAt_leBytes (by decide)]
  · rw [leAt_append_left (by simp), imageHead, leAt_append_right (k := 2) (by simp), leAt_append_right (k := 0) (by simp),
      leAt_leBytes (by omega)]
  · rw [leAt_append_left (by simp), imageHead, leAt_append_right (k := 8) (by simp), leAt_append_right (k := 6) (by simp),
      leAt_append_right (k := 4) (by simp), leAt_append_right (k := 0) (by simp), leAt_leBytes (by omega)]
  · rw [leAt_append_right (k := 0) (by simp), leAt_leBytes hcrc]

theorem bankValid_ksBuild : bankValid (ksBuild gen l) = true := by
  obtain ⟨hmagic, hversion, -, hlen, hcrc⟩ := fields_ksBuild (gen := gen) hmax
  have hlength := length_ksBuild gen l
  have hmod := mod_length_sections l
  simp only [bankValid, hmagic, hversion, hlen, hcrc, imageCrc_ksBuild]
  simp
  omega

theorem ksParse_ksBuild (hl : ∀ s ∈ l, SectionAllowed s)
    (horder : l.Pairwise (fun a b => a.type < b.type ∨ (a.type = b.type ∧ a.index < b.index))) :
    ksParse (ksBuild gen l) = .ok l := by
  obtain ⟨hmagic, hversion, hcount, hlen, -⟩ := fields_ksBuild (gen := gen) hmax
  have hlength := length_ksBuild gen l
  have hmod := mod_length_sections l
  have hreserved : (ksBuild gen l).drop 0x10 =
      List.replicate 44 0 ++ (leBytes 4 (sectionsCrc gen l) ++ l.flatMap KsSection.bytes) := by
    rw [ksBuild_eq, imageHead]
    simp [leBytes]
  have hsections : (ksBuild gen l).drop 0x40 = l.flatMap KsSection.bytes := by
    rw [ksBuild_eq, ← List.append_assoc, List.drop_left' (by simp)]
  have hform : ¬((ksBuild gen l).length % 16 ≠ 0 ∨ (ksBuild gen l).length < 64 ∨ 65536 < (ksBuild gen l).length) := by omega
  have hread := ksSections_of_bytes (last := none) (acc := []) l hsections (by omega) (by omega) hl horder
    (fun _ _ => by rintro _ ⟨⟩)
  rw [ksParse]
  simp only [hmagic, hversion, hlen, if_neg hform, find?_zeros hreserved, hcount, Nat.sub_self, List.replicate_zero,
    List.append_nil, hread, List.reverse_nil, List.nil_append, ne_eq, not_true_eq_false, ↓reduceIte]

end

/-- Settles O28: the head of the image built passes the checks, and each section is read where it was put. -/
theorem keepStoreImageReadsBack : Obligations.KeepStoreImageReadsBack := fun _ _ horder hl hmax =>
  ⟨ksParse_ksBuild hmax hl horder, bankValid_ksBuild hmax⟩

end Sys2Proof.Proofs
end

section
/-! The TAP (R442, R562): the card that each of its commands leaves. -/

namespace Sys2Proof.Proofs

open Sys2Proof Sys2Proof.Machine Sys2Proof.Laws

theorem bootOpen_of_regs {c d : Card} (h : d.regs = c.regs) (off : Nat) : d.bootOpen off = c.bootOpen off := by
  have hstage : d.stage = c.stage := by simp only [Card.stage, Card.f, Card.reg, h]
  unfold Card.bootOpen
  rw [hstage]

/-- The card once an access through the TAP has left `x` to the next Capture-DR. -/
def tapCapture (c : Card) (x : Nat) : Card := { c.draw.draw with tap := { c.tap with capture := x } }

theorem tapCapture_regs (c : Card) (x : Nat) : (tapCapture c x).regs = c.regs := rfl

theorem tapCapture_out (c : Card) (x : Nat) : (tapCapture c x).out = c.out := rfl

theorem tapCapture_tap (c : Card) (x : Nat) : (tapCapture c x).tap = { c.tap with capture := x } := rfl

theorem peek_emit_jtagIr (c : Card) (code : Nat) (o : Out) (k : Nat) : ((c.jtagIr code).emit o).peek k = c.peek k := rfl

/-- The free bits of a capture stand above its data. -/
theorem capture_data {n data : Nat} (h : data < 2 ^ 32) : (n % 2 ^ 16 * 2 ^ 32 + data) % 2 ^ 32 = data := by omega

section
variable {c : Card} (hon : c.on = true)
include hon

theorem becomes_jtagFreeze : Becomes .jtagFreeze c ((c.jtagIr 0x10).freezeRequest 2) :=
  becomes_of_run execJtagFreeze.eq_def (if_pos hon)

theorem becomes_jtagThaw : Becomes .jtagThaw c (c.jtagIr 0x11).thawRequest :=
  becomes_of_run execJtagThaw.eq_def (if_pos hon)

/-- A read through the TAP shifts out the last capture, and captures the register's value, without an effect of reading. -/
theorem completes_jtagRoAccess_read {dr : BitVec 48} (hread : nbit dr.toNat 47 = false) :
    Completes (.jtagRoAccess dr) c fun d => d.out = c.out ++ [.jtag 48 c.tap.capture] ∧ d.tap.ir = 0x12 ∧ d.regs = c.regs ∧
      d.tap.capture % 2 ^ 32 = (if c.bootOpen 0x5000 then (c.peek (mg (0x5000 + nbits dr.toNat 43 32 / 4 * 4))).toNat
        else (regReset (mg (0x5000 + nbits dr.toNat 43 32 / 4 * 4))).toNat) := by
  refine completes_of_run (execJtagRoAccess.eq_def dr) ?_
  rw [if_neg (by simp [hon])]
  extract_lets c₁ off k top data c₂ tap c₃
  have hopen₁ : c₁.bootOpen 0x5000 = c.bootOpen 0x5000 := bootOpen_of_regs rfl _
  have hpeek₁ : c₁.peek k = c.peek k := peek_emit_jtagIr c 0x12 _ k
  have hdata : data = if c.bootOpen 0x5000 then (c.peek k).toNat else (regReset k).toNat := by
    simp only [data, hread, hopen₁, hpeek₁, Bool.false_eq_true, if_false]
  have hlt : data < 2 ^ 32 := by
    rw [hdata]
    split <;> exact BitVec.isLt _
  have hcapture : (top + data) % 2 ^ 32 = data := capture_data hlt
  clear_value top data
  have hc₃ : c₃ = tapCapture c₁ (top + data) := rfl
  clear_value c₃
  subst hc₃
  rw [if_neg (by simp [hread])]
  refine ⟨tapCapture_out c₁ _, ?_, tapCapture_regs c₁ _, ?_⟩ <;> rw [tapCapture_tap]
  · rfl
  · exact hcapture.trans hdata

/-- A write through the TAP acts as a write of the freeze block; what the capture then holds is free. -/
theorem completes_jtagRoAccess_write {dr : BitVec 48} (hwrite : nbit dr.toNat 47 = true) (hopen : c.bootOpen 0x5000 = true) :
    Completes (.jtagRoAccess dr) c fun d => ∃ x, d =
      ({ ((c.jtagIr 0x12).emit (.jtag 48 c.tap.capture)).draw.draw with tap := { c.tap with ir := 0x12, capture := x } } :
        Card).frzWrite (nbits dr.toNat 43 32) (BitVec.ofNat 32 dr.toNat) := by
  refine completes_of_run (execJtagRoAccess.eq_def dr) ?_
  rw [if_neg (by simp [hon])]
  extract_lets c₁ off k top data c₂ tap c₃
  clear_value top data
  have hc₃ : c₃ = tapCapture c₁ (top + data) := rfl
  clear_value c₃
  subst hc₃
  have hopen₃ : (tapCapture c₁ (top + data)).bootOpen 0x5000 = true := by
    rw [bootOpen_of_regs (tapCapture_regs c₁ _)]
    exact hopen
  rw [if_pos hwrite, if_pos hopen₃]
  exact ⟨top + data, rfl⟩

theorem becomes_jtagExtest (hfrozen : c.frozen = true) (dr len : Nat) : Becomes (.jtagExtest dr len) c
    { (c.jtagIr 0).jtagPins len with tap := { c.tap with ir := 0, boundary := dr % 2 ^ len } } := by
  refine becomes_of_run (execJtagExtest.eq_def dr len) ?_
  rw [if_neg (by simp [hon]), if_neg (by simp [hfrozen])]
  rfl

/-- Away from a freeze the boundary register drives no pin: EXTEST acts as BYPASS. -/
theorem becomes_jtagExtest_bypass (hrun : c.frozen = false) (dr len : Nat) :
    Becomes (.jtagExtest dr len) c ((c.jtagIr 0).emit (.jtag len (2 * dr % 2 ^ len))) := by
  refine becomes_of_run (execJtagExtest.eq_def dr len) ?_
  rw [if_neg (by simp [hon]), if_pos (by simp [hrun]), Card.jtagShift]

theorem becomes_jtagSamplePreload (dr len : Nat) : Becomes (.jtagSamplePreload dr len) c
    { (c.jtagIr 1).jtagPins len with tap := { c.tap with ir := 1, boundary := dr % 2 ^ len } } := by
  refine becomes_of_run (execJtagSamplePreload.eq_def dr len) ?_
  rw [if_neg (by simp [hon])]
  rfl

theorem becomes_jtagIdcode : Becomes .jtagIdcode c ((c.jtagIr 2).emit (.jtag 32 0x1464013D)) :=
  becomes_of_run execJtagIdcode.eq_def (if_pos hon)

theorem becomes_jtagBypass (dr len : Nat) : Becomes (.jtagBypass dr len) c ((c.jtagIr 0xFF).jtagShift dr len) :=
  becomes_of_run (execJtagBypass.eq_def dr len) (if_pos hon)

end

/-- Settles O47, row by row. -/
theorem jtagRowsComplete : Obligations.JtagRowsComplete := by
  refine ⟨?freeze, ?thaw, ?roRead, ?roWrite, ?extest, ?extestBypass, ?sample, ?idcode, ?bypass, ?tapReset⟩
  case freeze => exact fun c hon => becomes_jtagFreeze hon
  case thaw => exact fun c hon => becomes_jtagThaw hon
  case roRead => exact fun c dr hon hread => completes_jtagRoAccess_read hon hread
  case roWrite => exact fun c dr hon hwrite hopen => completes_jtagRoAccess_write hon hwrite hopen
  case extest => exact fun c dr len hon hfrozen => becomes_jtagExtest hon hfrozen dr len
  case extestBypass => exact fun c dr len hon hrun => becomes_jtagExtest_bypass hon hrun dr len
  case sample => exact fun c dr len hon => becomes_jtagSamplePreload hon dr len
  case idcode => exact fun c hon => becomes_jtagIdcode hon
  case bypass => exact fun c dr len hon => becomes_jtagBypass hon dr len
  case tapReset => exact fun c => becomes_of_run execTapReset.eq_def rfl

end Sys2Proof.Proofs
end

section
/-! The board controller (R546 to R553): the card that each of its commands leaves. -/

namespace Sys2Proof.Proofs

open Sys2Proof Sys2Proof.Machine Sys2Proof.Laws

theorem board_setSensor (c : Card) (i : Nat) (t : Option Int) : (c.setSensor i t).board = c.board :=
  ((frame_setSensor (fr := [.regs, .out]) (fun _ hx => hx) c i t held_refl .board).resolve_left (by decide)).symm

/-- The airflow request raises an alert at most: the node's values stay. -/
theorem airflow_node (b : Board) : b.airflow.nodeMv = b.nodeMv ∧ b.airflow.slotCa = b.slotCa ∧ b.airflow.auxCa = b.auxCa ∧
    b.airflow.peakDw = b.peakDw := by
  unfold Board.airflow Board.alertIf
  extract_lets
  split <;> exact ⟨rfl, rfl, rfl, rfl⟩

section
variable {c : Card} (hup : c.board.up = true)
include hup

/-! ### What the board controller polls -/

theorem becomes_boardHubPoll_answered (hon : c.on = true) : Becomes .boardHubPoll c
    { c with board := ((c.boardRead { c.board with link := true, missed := 0 }).edges c.board).airflow } := by
  refine becomes_of_run execBoardHubPoll.eq_def ?_
  rw [if_neg (by simp [hup]), if_pos hon]

/-- The link stays up while the hub has missed fewer than three polls. -/
theorem becomes_boardHubPoll_missed (hoff : c.on = false) (hmissed : c.board.missed < 2) : Becomes .boardHubPoll c
    { c with board := ({ c.board with missed := c.board.missed + 1 } : Board).airflow } := by
  have hcount : min 3 (c.board.missed + 1) = c.board.missed + 1 := min_eq_right (by omega)
  refine becomes_of_run execBoardHubPoll.eq_def ?_
  rw [if_neg (by simp [hup]), if_neg (by simp [hoff]), hcount]
  extract_lets _ b₁ b₂
  have hlink : b₂ = b₁ := if_neg (show ¬3 ≤ c.board.missed + 1 by omega)
  rw [hlink]

theorem completes_boardSensorPoll (p : BoardSense) : Completes (.boardSensorPoll p) c fun d =>
    d.board.nodeMv = min 65535 p.nodeMv ∧ d.board.slotCa = min 65535 p.slotCa ∧ d.board.auxCa = min 65535 p.auxCa ∧
      d.board.peakDw = max c.board.peakDw (min 65535 (p.nodeMv * (p.slotCa + p.auxCa) / 10000)) := by
  refine completes_of_run (execBoardSensorPoll.eq_def p) ?_
  rw [if_neg (by simp [hup])]
  extract_lets dw _ b c₁
  have hpolled : c₁.board = b.airflow := rfl
  have hboard : (if (c₁.on && !c₁.coreOff) = true then (c₁.setSensor 19 p.inlet).setSensor 20 p.outlet else c₁).board =
      b.airflow := by
    split <;> simp only [board_setSensor, hpolled]
  rw [hboard]
  exact airflow_node b

theorem becomes_identifyTick : Becomes .identifyTick c { c with board := { c.board with ident := c.board.ident - 1 } } :=
  becomes_of_run execIdentifyTick.eq_def (if_pos hup)

/-! ### Reads -/

theorem becomes_smbusReadByte {code : Fin 256} {v : Nat} (hreg : c.boardReg code.val = some (.byte v)) (hcode : code.val ≠ 0x42) :
    Becomes (.smbusReadByte code) c (c.smbusAnswer code.val (leBytes 1 v)).draw := by
  refine becomes_of_run (execSmbusReadByte.eq_def code) ?_
  rw [if_neg (by simp [hup]), hreg]
  exact if_neg hcode

/-- A read of BM_ERRORS clears it. -/
theorem becomes_smbusReadByte_errors {v : Nat} (hreg : c.boardReg 0x42 = some (.byte v)) : Becomes (.smbusReadByte 0x42) c
    { (c.smbusAnswer 0x42 (leBytes 1 v)).draw with board := { c.board with badPec := 0, badWrites := 0 } } := by
  have hcode : ((0x42 : Fin 256)).val = 0x42 := rfl
  refine becomes_of_run (execSmbusReadByte.eq_def 0x42) ?_
  rw [if_neg (by simp [hup]), hcode, hreg, if_pos rfl]
  rfl

theorem becomes_smbusReadWord {code : Fin 256} {v : Nat} (hreg : c.boardReg code.val = some (.word v)) :
    Becomes (.smbusReadWord code) c (c.smbusAnswer code.val (leBytes 2 v)).draw := by
  refine becomes_of_run (execSmbusReadWord.eq_def code) ?_
  rw [if_neg (by simp [hup]), hreg]

theorem becomes_smbusBlockRead {code : Fin 256} {n v : Nat} (hreg : c.boardReg code.val = some (.block n v)) :
    Becomes (.smbusBlockRead code) c (c.smbusAnswer code.val (leBytes 1 n ++ leBytes n v)).draw.draw := by
  refine becomes_of_run (execSmbusBlockRead.eq_def code) ?_
  rw [if_neg (by simp [hup]), hreg]

/-! ### Writes -/

/-- Without PEC_REQ a write needs no packet error code. -/
theorem smbusWrite_without_pec (hpec : c.board.pecReq = false) (code : Nat) (v : Byte) :
    c.smbusWrite code v none = (c.emit (.smbus true [])).boardWrite code v.toNat := by
  unfold Card.smbusWrite
  rw [if_neg (by simp [hup])]
  exact if_pos (by simp [hpec])

/-- Under PEC_REQ a write without a packet error code is dropped and counted. -/
theorem smbusWrite_lacks_pec (hpec : c.board.pecReq = true) (code : Nat) (v : Byte) :
    c.smbusWrite code v none =
      { c.emit (.smbus true []) with board := { c.board with badPec := min 15 (c.board.badPec + 1) } } := by
  unfold Card.smbusWrite
  rw [if_neg (by simp [hup])]
  exact if_neg (by simp [hpec])

omit hup in
/-- Bit 7 of BM_CTL makes BM_PEAK_DW the node power. -/
theorem boardWrite_clearPeak {v : Nat} (hclear : nbit v 7 = true) :
    c.boardWrite 0x41 v = { c with board := { c.board with pecReq := nbit v 0, peakDw := c.board.nodeDw } } := by
  simp only [Card.boardWrite, hclear, if_true]

theorem becomes_clearPeak (hpec : c.board.pecReq = false) {v : Byte} (hclear : nbit v.toNat 7 = true) :
    Becomes (.clearPeak none v) c
      { c.emit (.smbus true []) with board := { c.board with pecReq := nbit v.toNat 0, peakDw := c.board.nodeDw } } := by
  refine becomes_of_run (execClearPeak.eq_def none v) ?_
  rw [smbusWrite_without_pec hup hpec, boardWrite_clearPeak hclear]
  rfl

end

/-- Settles O53, row by row. -/
theorem boardRowsComplete : Obligations.BoardRowsComplete := by
  refine ⟨?hubAnswers, ?hubMissed, ?sensors, ?identify, ?readByte, ?readErrors, ?readWord, ?readBlock, ?write, ?writeDropped,
    ?clearPeak, ?timeout, ?unsupported, ?auxLost, ?auxGood⟩
  case hubAnswers => exact fun c hup hon => becomes_boardHubPoll_answered hup hon
  case hubMissed => exact fun c hup hoff hmissed => becomes_boardHubPoll_missed hup hoff hmissed
  case sensors => exact fun c p hup => completes_boardSensorPoll hup p
  case identify => exact fun c hup => becomes_identifyTick hup
  case readByte => exact fun c code v hup hreg hcode => becomes_smbusReadByte hup hreg hcode
  case readErrors => exact fun c v hup hreg => becomes_smbusReadByte_errors hup hreg
  case readWord => exact fun c code v hup hreg => becomes_smbusReadWord hup hreg
  case readBlock => exact fun c code n v hup hreg => becomes_smbusBlockRead hup hreg
  case write =>
    exact fun c code v hup hpec =>
      becomes_of_run (execSmbusWriteByte.eq_def code v none) (smbusWrite_without_pec hup hpec code.val v)
  case writeDropped =>
    exact fun c code v hup hpec =>
      becomes_of_run (execSmbusWriteByte.eq_def code v none) (smbusWrite_lacks_pec hup hpec code.val v)
  case clearPeak => exact fun c v hup hpec hclear => becomes_clearPeak hup hpec hclear
  case timeout => exact fun c => becomes_of_run execSmbusTimeout.eq_def rfl
  case unsupported => exact fun c code => becomes_of_run (execSmbusUnsupportedTransaction.eq_def code) rfl
  case auxLost => exact fun c => becomes_of_run execAux3v3Lost.eq_def rfl
  case auxGood => exact fun c hdown => becomes_of_run execAux3v3Good.eq_def (if_neg (by simp [hdown]))

end Sys2Proof.Proofs
end

section
/-! A PF0 block that is not open (R514), and a change of the sense pins (R466). -/

namespace Sys2Proof.Proofs

open Sys2Proof Sys2Proof.Machine Sys2Proof.Laws

/-- A write to a PF0 block that is not open is dropped and counted, whatever it would do (R514). -/
theorem hostWrite_of_closed {c : Card} {off : Nat} {k : Card → Card} (hclaims : c.claims .pf0 = true)
    (hclosed : c.bootOpen off = false) : c.hostWrite .pf0 off k = c.bump (mg 0x38) 1 := by
  simp [Card.hostWrite, hclaims, hclosed]

/-- A full read of a PF0 block that is not open answers the reset value, without an effect of reading (R514). -/
theorem read32_of_closed {c : Card} {off : Nat} (hclaims : c.claims .pf0 = true) (hclosed : c.bootOpen off = false)
    (hoff : off < 0x10000) (halign : off % 4 = 0) :
    c.read32 .pf0 off 4 = c.emit (.readData 0 off (leBytes 4 (regReset (mg off)).toNat)) := by
  have haddr : off / 4 * 4 = off := by omega
  have htarget : c.target .pf0 off = some (mg off) := if_pos hoff
  have hlit : (Fn.pf0.hamper.isSome && c.frozen || c.dark .pf0) = false := rfl
  unfold Card.read32
  rw [if_neg (by simp [hclaims]), if_neg (by simp [hlit]), if_neg (fun h => absurd h.1 (by decide)), haddr]
  extract_lets a
  rw [htarget]
  refine (if_pos (by simp [hclosed])).trans ?_
  rw [Nat.sub_self, pow_zero, Nat.div_one]
  rfl

/-- Settles O14: each such command is a host write, and a host write of a closed block is dropped. -/
theorem closedBlocksDropAndReadReset : Obligations.ClosedBlocksDropAndReadReset := by
  intro c off hclaims hclosed
  refine ⟨fun i hi => ?write, fun hoff halign => ?read⟩
  case write =>
    obtain ⟨k, hk⟩ := becomes_hostWrite hi c
    exact becomes_of_eq hk (hostWrite_of_closed hclaims hclosed)
  case read => exact becomes_of_eq (becomes_read32 .pf0 off 4 c) (read32_of_closed hclaims hclosed hoff halign)

theorem becomes_senseChanged {c : Card} (hon : c.on = true) (hcable : c.pin.cable.isSome = true) :
    Becomes .senseChanged c (c.pwrEvent 3) :=
  becomes_of_run execSenseChanged.eq_def (if_pos (by simp [hon, hcable]))

/-- A power event touches registers, and the message it may send, alone. -/
theorem agree_pwrEvent (c : Card) (b : Nat) {part : Part} (hregs : part ≠ .regs) (hout : part ≠ .out) :
    part.agree c (c.pwrEvent b) :=
  (frame_pwrEvent (fr := [.regs, .out]) (fun _ hx => hx) c b held_refl part).resolve_left (by simp [hregs, hout])

/-- Settles O18: the command raises the event alone. -/
theorem senseChangeOnlySetsItsFlag : Obligations.SenseChangeOnlySetsItsFlag := by
  intro c hon hcable
  refine ⟨c.pwrEvent 3, becomes_senseChanged hon hcable, ?flag, ?cable, ?regs, ?parts⟩
  case flag => exact bit_event_self (by decide) (by decide)
  case cable => exact congrArg (fun part => part.2.2.cable) (agree_pwrEvent c 3 (part := .power) (by decide) (by decide)).symm
  case regs =>
    intro k hk
    exact reg_event_ne (fun hkey => hk (by simp [hkey])) (fun hkey => hk (by simp [hkey, msixBase]))
  case parts => exact fun part hregs hout => agree_pwrEvent c 3 hregs hout

end Sys2Proof.Proofs
end

section
/-! Power inputs and the draw governor (R453 to R471, R566): the card that each event leaves. -/

namespace Sys2Proof.Proofs

open Sys2Proof Sys2Proof.Machine Sys2Proof.Laws

/-! ### The governor's state -/

theorem bit_setF_disjoint {c : Card} {k hi lo v i : Nat} (hl : lo ≤ hi) (h32 : hi < 32) (hd : i < lo ∨ hi < i) :
    (c.setF k hi lo v).bit k i = c.bit k i := by
  unfold Card.bit
  rw [f_setF_disjoint hl h32 hd]

theorem gov_event (c : Card) (off bit vec : Nat) : (c.event off bit vec).gov = c.gov := by
  unfold Card.event Card.raise
  split <;> rfl

/-- The flags settle B, and otherwise change the starts that wait alone. -/
theorem gov_govFlags (c : Card) : ∃ w, c.govFlags.gov = { c.gov with b := c.ballast, bAt := c.ns, waiting := w } := by
  unfold Card.govFlags
  extract_lets c₁
  split
  · exact ⟨c.gov.waiting, rfl⟩
  · split
    · exact ⟨c.gov.waiting, rfl⟩
    · split
      · extract_lets c₂
        split
        · exact ⟨c.gov.waiting, rfl⟩
        · exact ⟨_, (gov_event _ _ _ _).trans rfl⟩
      · exact ⟨c.gov.waiting, rfl⟩

theorem govFlags_b (c : Card) : c.govFlags.gov.b = c.ballast := by
  obtain ⟨w, hgov⟩ := gov_govFlags c
  rw [hgov]

theorem govFlags_est (c : Card) : c.govFlags.gov.est = c.gov.est := by
  obtain ⟨w, hgov⟩ := gov_govFlags c
  rw [hgov]

theorem govFlags_hold (c : Card) : c.govFlags.gov.hold = c.gov.hold := by
  obtain ⟨w, hgov⟩ := gov_govFlags c
  rw [hgov]

theorem govFlags_steady (c : Card) : c.govFlags.gov.steady = c.gov.steady := by
  obtain ⟨w, hgov⟩ := gov_govFlags c
  rw [hgov]

/-- Without settings that a write replaces, B does not rise at the time it was settled. -/
theorem ballast_of_settled {c : Card} (hat : c.gov.bAt = c.ns) (hold : c.gov.old = none) : c.ballast = c.gov.b := by
  have hrise : c.riseTo c.ns = 0 := by simp [Card.riseTo, hold, hat]
  unfold Card.ballast
  split
  · split
    · rw [hrise, Nat.zero_min, Nat.add_zero]
    · rfl
  · rfl

/-- A sensed current leaves B, and the time from which it rises. -/
theorem sensed_ballast (g : Gov) (ca : Nat) : (g.sensed ca).b = g.b ∧ (g.sensed ca).bAt = g.bAt := by
  unfold Gov.sensed
  extract_lets lo hi g'
  have hg' : g'.b = g.b ∧ g'.bAt = g.bAt := by
    simp only [g']
    split <;> exact ⟨rfl, rfl⟩
  exact hg'

/-! ### The governor's commands -/

/-- A start that B covers and no limit holds is acknowledged now. -/
theorem becomes_startAcknowledged {c : Card} {x : GovStart} (hhead : c.settleB.gov.head = some x) (hlive : c.settleB.live = true)
    (hadmits : c.settleB.admits x = true) (hlimit : c.settleB.overLimit (c.settleB.weight x.load) = false)
    (hcovered : c.settleB.weight x.load ≤ c.settleB.gov.b) :
    Becomes .startAcknowledged c ((c.settleB.settleB.acknowledge x).govFlags) := by
  have hshares : c.settleB.sharesFor x = c.settleB := by
    unfold Card.sharesFor
    split
    · exact if_neg fun hshort => absurd hshort.1 (not_lt.mpr hcovered)
    · rfl
  refine becomes_of_run execStartAcknowledged.eq_def ?_
  extract_lets s
  rw [hhead]
  refine (?_ : _ = (s.settleB.acknowledge x).govFlags)
  simp only [s, hlive, hadmits, hshares, hlimit, Bool.and_self, if_true, Bool.not_true, Bool.or_self, Bool.false_eq_true,
    if_false, if_neg (not_lt.mpr hcovered)]

section
variable {c : Card} (hon : c.on = true)
include hon

theorem completes_ballastDecayTick (hcore : c.coreOff = false) (p : PowerSense) : Completes (.ballastDecayTick p) c fun d =>
    d.reg (mg 0x110C) = BitVec.ofNat 32 (min 65535 p.auxCa * 2 ^ 16 + min 65535 p.slotCa) ∧
      d.gov.est = p.powerMw * 100 * caUnit ∧
      (c.bit (mg 0x1108) 23 = true ∨ c.frozen = true → d.gov.b = ((c.setN (mg 0x110C) (min 65535 p.auxCa * 2 ^ 16 + min 65535
        p.slotCa)).setF (mg 0x1108) 15 0 (min 65535 p.nodeMv)).ballast) := by
  refine completes_of_run (execBallastDecayTick.eq_def p) ?_
  rw [if_neg (by simp [hon, hcore])]
  extract_lets c₁ c₂ g b g'
  have hwait : c₂.bit (mg 0x1108) 23 = c.bit (mg 0x1108) 23 := by
    have hsensed : (c₁.bit (mg 0x1108) 23) = (c.setN (mg 0x110C) (min 65535 p.auxCa * 2 ^ 16 + min 65535 p.slotCa)).bit (mg 0x1108) 23 :=
      bit_setF_disjoint (by decide) (by decide) (.inr (by decide))
    exact hsensed.trans (bit_setN_ne (by decide))
  have hrun : c₂.frozen = c.frozen :=
    (bit_setF_ne (by decide) : c₁.bit (mg 0x5004) 31 = _).trans (bit_setN_ne (by decide))
  obtain ⟨hb, hat⟩ := sensed_ballast c₂.gov (p.slotCa + p.auxCa)
  refine ⟨?currents, govFlags_est _, fun hstands => (govFlags_b _).trans ?ballast⟩
  case currents => rw [reg_govFlags (by decide), reg_withGov, reg_settleB, reg_setF_ne (by decide), reg_setN_self]
  case ballast =>
    have hstill : (c₂.bit (mg 0x1108) 23 || c₂.frozen) = true := by
      rw [hwait, hrun, Bool.or_eq_true]
      exact hstands
    have hkept : b = g.b := if_pos hstill
    exact (ballast_of_settled hat rfl).trans (hkept.trans hb)

/-- Every start is held until the current is steady. -/
theorem becomes_slopeExceeded (hcore : c.coreOff = false) : Becomes .slopeExceeded c
    ({ c.pwrEvent 5 with gov := { c.gov with hold := true, lowCa := 0, highCa := 0, steady := 0 } } : Card).govFlags :=
  becomes_of_run execSlopeExceeded.eq_def (if_neg (by simp [hon, hcore]))

theorem becomes_uvWarn {mv : Nat} (hlow : mv < 11400) :
    Becomes (.uvWarn mv) c ((c.setF (mg 0x1108) 15 0 mv).event 0x1114 2 11) :=
  becomes_of_run (execUvWarn.eq_def mv) (if_pos (by simp [hon, hlow]))

/-! ### The auxiliary input -/

omit hon in
/-- To start a qualification changes no register, and keeps the cable. -/
theorem reg_startQual (c : Card) (k : Nat) : c.startQual.reg k = c.reg k := by
  unfold Card.startQual
  split <;> rfl

omit hon in
theorem cable_startQual (c : Card) : c.startQual.pin.cable = c.pin.cable := by
  unfold Card.startQual
  split <;> rfl

omit hon in
theorem bit_startQual (c : Card) (k i : Nat) : c.startQual.bit k i = c.bit k i := by
  unfold Card.bit Card.f
  rw [reg_startQual]

theorem becomes_auxCableConnect (hcable : c.pin.cable = none) (sense : Fin 4) : Becomes (.auxCableConnect sense) c
    ((({ c with pin := { c.pin with cable := some sense.val } } : Card).setBit (mg 0x0028) 0 true).setBit (mg 0x1108) 25
      true).startQual := by
  refine becomes_of_run (execAuxCableConnect.eq_def sense) ?_
  rw [if_neg (by simp [hcable])]
  exact if_pos hon

theorem completes_auxCableConnect (hcable : c.pin.cable = none) (sense : Fin 4) : Completes (.auxCableConnect sense) c fun d =>
    d.pin.cable = some sense.val ∧ d.bit (mg 0x0028) 0 = true ∧ d.bit (mg 0x1108) 25 = true := by
  have hpresent (e : Card) : ((e.setBit (mg 0x0028) 0 true).setBit (mg 0x1108) 25 true).startQual.bit (mg 0x0028) 0 = true :=
    (bit_startQual _ _ _).trans ((bit_setBit_ne (by decide)).trans (bit_setBit_self (by decide)))
  have hshown (e : Card) : ((e.setBit (mg 0x0028) 0 true).setBit (mg 0x1108) 25 true).startQual.bit (mg 0x1108) 25 = true :=
    (bit_startQual _ _ _).trans (bit_setBit_self (by decide))
  exact ⟨_, becomes_auxCableConnect hon hcable sense, cable_startQual _, hpresent _, hshown _⟩

omit hon in
theorem f_bootVoltage (c : Card) (k hi lo : Nat) : c.bootVoltage.f k hi lo = c.f k hi lo := rfl

/-- The qualified input: its path is on, with the capability of the sense pins. -/
theorem becomes_auxQualifyExpiry {t cap : Nat} (hfrom : c.pin.qualFrom = some t) (hcable : c.pin.cable = some cap) :
    Becomes .auxQualifyExpiry c
      (((c.advanceTo (t + 100000000)).endQual.setF (mg 0x1108) 31 29 1).setF (mg 0x1108) 27 26 cap).bootVoltage := by
  refine becomes_of_run execAuxQualifyExpiry.eq_def ?_
  rw [hfrom, hcable]
  exact if_neg (by simp [hon])

theorem completes_auxQualifyExpiry {t cap : Nat} (hfrom : c.pin.qualFrom = some t) (hcable : c.pin.cable = some cap) :
    Completes .auxQualifyExpiry c fun d => d.f (mg 0x1108) 31 29 = 1 ∧ d.f (mg 0x1108) 27 26 = cap % 4 ∧
      d.avs.pending = some 700 ∧ d.pin.qualFrom = none := by
  have hpath (e : Card) : ((e.setF (mg 0x1108) 31 29 1).setF (mg 0x1108) 27 26 cap).bootVoltage.f (mg 0x1108) 31 29 = 1 :=
    (f_bootVoltage _ _ _ _).trans
      ((f_setF_disjoint (by decide) (by decide) (.inr (by decide))).trans (f_setF_self (by decide) (by decide)))
  have hcap (e : Card) : ((e.setF (mg 0x1108) 31 29 1).setF (mg 0x1108) 27 26 cap).bootVoltage.f (mg 0x1108) 27 26 = cap % 4 :=
    (f_bootVoltage _ _ _ _).trans (f_setF_self (by decide) (by decide))
  exact ⟨_, becomes_auxQualifyExpiry hon hfrom hcable, hpath _, hcap _, rfl, rfl⟩

omit hon in
/-- The core is off while the auxiliary input is lost. -/
theorem coreOff_of_auxLost (h : c.f (mg 0x1108) 31 29 = 2) : c.coreOff = true := by simp [Card.coreOff, h]

omit hon in
theorem coreOff_of_fields {d : Card} (haux : d.f (mg 0x1108) 31 29 = c.f (mg 0x1108) 31 29)
    (hstage : d.f (mg 0x2000) 10 8 = c.f (mg 0x2000) 10 8) : d.coreOff = c.coreOff := by
  unfold Card.coreOff
  rw [haux, hstage]

theorem completes_auxPowerLost (hcable : c.pin.cable.isSome = true) (hpath : c.f (mg 0x1108) 31 29 = 1)
    (hcore : c.coreOff = false) (gone : Bool) :
    Completes (.auxPowerLost gone) c fun d => d.f (mg 0x1108) 31 29 = 2 ∧ d.coreOff = true := by
  refine completes_of_run (execAuxPowerLost.eq_def gone) ?_
  rw [if_neg (by simp [Option.isSome_iff_ne_none.mp hcable])]
  extract_lets _ c₁ c₂
  have hon₁ : c₁.on = true := by
    simp only [c₁]
    split <;> exact hon
  have hreg₁ : ∀ k, c₁.reg k = c.reg k := by
    intro k
    simp only [c₁]
    split <;> rfl
  have haux₂ : c₂.f (mg 0x1108) 31 29 = c.f (mg 0x1108) 31 29 := by
    have haux₁ : c₁.f (mg 0x1108) 31 29 = c.f (mg 0x1108) 31 29 := by rw [Card.f, hreg₁, Card.f]
    simp only [c₂]
    split
    · exact (f_setF_disjoint (by decide) (by decide) (.inr (by decide))).trans ((f_setF_ne (by decide)).trans haux₁)
    · exact haux₁
  have hstage₂ : c₂.f (mg 0x2000) 10 8 = c.f (mg 0x2000) 10 8 := by
    have hstage₁ : c₁.f (mg 0x2000) 10 8 = c.f (mg 0x2000) 10 8 := by rw [Card.f, hreg₁, Card.f]
    simp only [c₂]
    split
    · exact (f_setF_ne (by decide)).trans ((f_setF_ne (by decide)).trans hstage₁)
    · exact hstage₁
  have hcore₂ : c₂.coreOff = false := (coreOff_of_fields haux₂ hstage₂).trans hcore
  rw [if_neg (by simp [hon₁]), haux₂, hpath]
  rw [if_neg (by simp [hcore₂])]
  have hlost : ((c₂.pwrEvent 1).coreDown.setF (mg 0x1108) 31 29 2).f (mg 0x1108) 31 29 = 2 :=
    f_setF_self (by decide) (by decide)
  exact ⟨hlost, coreOff_of_auxLost hlost⟩

end

/-! ### Outward supplies -/

theorem completes_supplyLimiterTrip {c : Card} {i : Fin 3} (hup : c.bit (mg 0x1134) (8 + i.val) = true) :
    Completes (.supplyLimiterTrip i) c fun d => d.bit (mg 0x1134) (16 + i.val) = true ∧ d.bit (mg 0x1114) 7 = true := by
  refine completes_of_run (execSupplyLimiterTrip.eq_def i) ?_
  rw [if_neg (by simp [hup])]
  extract_lets _ c₁
  have htripped : (c₁.checkSupplies.setBit (mg 0x1134) (16 + i.val) true).bit (mg 0x1134) (16 + i.val) = true :=
    bit_setBit_self (by omega)
  refine ⟨?_, bit_event_self (by decide) (by decide)⟩
  unfold Card.pwrEvent Card.bit Card.f
  rw [reg_event_ne (by decide) (by decide)]
  exact htripped

/-- Settles O48, row by row. -/
theorem powerRowsComplete : Obligations.PowerRowsComplete := by
  refine ⟨?acknowledged, ?decay, ?slope, ?backfeed, ?undervoltage, ?sense, ?cableOn, ?cableOff, ?qualified, ?auxLost, ?slotLost,
    ?slotRise, ?limiter, ?supplyWrite, ?fitted, ?removed⟩
  case acknowledged =>
    rintro c x s rfl hhead hlive hadmits hlimit hcovered
    exact becomes_startAcknowledged hhead hlive hadmits hlimit hcovered
  case decay => exact fun c p hon hcore => completes_ballastDecayTick hon hcore p
  case slope => exact fun c hon hcore => ⟨_, becomes_slopeExceeded hon hcore, govFlags_hold _, govFlags_steady _⟩
  case backfeed => exact fun c hon => becomes_of_run execBackfeedBlocked.eq_def (if_pos hon)
  case undervoltage => exact fun c mv hon hlow => becomes_uvWarn hon hlow
  case sense => exact fun c hon hcable => becomes_senseChanged hon hcable
  case cableOn => exact fun c sense hcable hon => completes_auxCableConnect hon hcable sense
  case cableOff =>
    intro c sense hcable hoff
    refine becomes_of_run (execAuxCableConnect.eq_def sense) ?_
    rw [if_neg (by simp [hcable])]
    exact if_neg (by simp [hoff])
  case qualified => exact fun c t cap hfrom hcable hon => completes_auxQualifyExpiry hon hfrom hcable
  case auxLost => exact fun c gone hcable hon hpath hcore => completes_auxPowerLost hon hcable hpath hcore gone
  case slotLost => exact fun c => completes_of_run execSlotPowerLost.eq_def ⟨rfl, rfl, rfl, rfl⟩
  case slotRise => exact fun c => becomes_of_run execSlot12vRise.eq_def rfl
  case limiter => exact fun c i hup => completes_supplyLimiterTrip hup
  case supplyWrite =>
    exact fun c v hreach => becomes_of_run (execOutwardSupplyEnableWrite.eq_def v) (hostWrite_of_reaches hreach)
  case fitted => exact fun c => becomes_of_run execDaughterboardFitted.eq_def rfl
  case removed => exact fun c => becomes_of_run execDaughterboardRemoved.eq_def rfl

end Sys2Proof.Proofs
end

section
/-! Temperature (R475, R478, R480, R494): the card that a sample, or what follows from one, leaves. -/

namespace Sys2Proof.Proofs

open Sys2Proof Sys2Proof.Machine Sys2Proof.Laws

/-! ### The energy counted (R463) -/

theorem pair_of_reg {c d : Card} {lo hi : Nat} (hlo : d.reg lo = c.reg lo) (hhi : d.reg hi = c.reg hi) :
    d.pair lo hi = c.pair lo hi := by
  unfold Card.pair
  rw [hlo, hhi]

/-- The governor's acts leave the energy not yet counted. -/
theorem energyUj_govFlags (c : Card) : c.govFlags.gov.energyUj = c.gov.energyUj := by
  obtain ⟨w, hgov⟩ := gov_govFlags c
  rw [hgov]

theorem gov_stopShares (c : Card) (n : Nat) :
    (c.stopShares n).gov = { c.gov with b := c.gov.b + min n c.sharesDrawn * 25 * caUnit } := rfl

theorem energyUj_stopShares (c : Card) (n : Nat) : (c.stopShares n).gov.energyUj = c.gov.energyUj := by
  rw [gov_stopShares]

theorem energyUj_sharesFor (c : Card) (x : GovStart) : (c.sharesFor x).gov.energyUj = c.gov.energyUj := by
  unfold Card.sharesFor
  split
  · extract_lets d
    split
    · exact energyUj_stopShares c _
    · rfl
  · rfl

theorem energyUj_acknowledge (c : Card) (x : GovStart) : (c.acknowledge x).gov.energyUj = c.gov.energyUj := by
  unfold Card.acknowledge Card.loadOn
  extract_lets
  split <;> rfl

theorem energyUj_govStart (c : Card) (l : Load) (lc : Bool) (op : Option (Nat × Nat)) :
    (c.govStart l lc op).gov.energyUj = c.gov.energyUj := by
  unfold Card.govStart
  extract_lets c₁ x first g c₂ c₃
  have h₃ : c₃.gov.energyUj = c.gov.energyUj := by
    simp only [c₃]
    split
    · exact energyUj_sharesFor c₂ x
    · rfl
  rw [energyUj_govFlags]
  split
  · rw [energyUj_acknowledge, h₃]
  · exact h₃

/-- The energy of the card, as its pair of registers counts it, with what is not yet counted. -/
def EnergyIs (c : Card) (uj mj : Nat) : Prop := c.gov.energyUj = uj ∧ c.pair (mg 0x1128) (mg 0x112C) = mj

theorem energyIs_govStart {c : Card} {uj mj : Nat} (h : EnergyIs c uj mj) (l : Load) (lc : Bool) (op : Option (Nat × Nat)) :
    EnergyIs (c.govStart l lc op) uj mj := by
  obtain ⟨huj, hmj⟩ := h
  exact ⟨(energyUj_govStart c l lc op).trans huj,
    (pair_of_reg (reg_govStart (by decide) c l lc op) (reg_govStart (by decide) c l lc op)).trans hmj⟩

theorem energyIs_stopShares {c : Card} {uj mj : Nat} (h : EnergyIs c uj mj) (n : Nat) :
    EnergyIs (c.stopShares n).govFlags uj mj := by
  obtain ⟨huj, hmj⟩ := h
  have hreg {k : Nat} (hk : k ∉ govRegs) : (c.stopShares n).govFlags.reg k = c.reg k := by
    rw [reg_govFlags hk, Card.stopShares, reg_withGov, reg_setF_gov hk (by decide)]
  exact ⟨(energyUj_govFlags _).trans ((energyUj_stopShares c n).trans huj),
    (pair_of_reg (hreg (by decide)) (hreg (by decide))).trans hmj⟩

theorem pair_setPair_self {c : Card} {lo hi v : Nat} (hne : lo ≠ hi) (hv : v < 2 ^ 64) : (c.setPair lo hi v).pair lo hi = v := by
  unfold Card.pair Card.setPair
  rw [reg_setN_ne hne, reg_setN_self, reg_setN_self, BitVec.toNat_ofNat, BitVec.toNat_ofNat]
  omega

section
variable {c : Card} (hon : c.on = true)
include hon

theorem completes_warmingTick (mw : Nat) : Completes (.warmingTick mw) c fun d =>
    d.gov.energyUj = (c.gov.energyUj + mw) % 1000 ∧
      d.pair (mg 0x1128) (mg 0x112C) = (c.pair (mg 0x1128) (mg 0x112C) + (c.gov.energyUj + mw) / 1000) % 2 ^ 64 := by
  refine completes_of_run (execWarmingTick.eq_def mw) ?_
  rw [if_neg (by simp [hon])]
  extract_lets uj _ c₁ c₂ c₃ floor warmTj st
  have hcounted : EnergyIs c₃ (uj % 1000) ((c.pair (mg 0x1128) (mg 0x112C) + uj / 1000) % 2 ^ 64) := by
    refine ⟨rfl, ?_⟩
    have hpair₂ : c₂.pair (mg 0x1128) (mg 0x112C) = (c₁.pair (mg 0x1128) (mg 0x112C) + uj / 1000) % 2 ^ 64 :=
      pair_setPair_self (by decide) (Nat.mod_lt _ (by decide))
    exact (pair_of_reg (reg_setF_ne (by decide)) (reg_setF_ne (by decide))).trans hpair₂
  refine (?_ : EnergyIs _ _ _)
  split
  · exact hcounted
  · split
    · split
      · exact hcounted
      · exact energyIs_govStart hcounted _ _ _
    · split
      · exact energyIs_stopShares hcounted 1
      · exact hcounted

/-! ### Samples -/

variable (hcore : c.coreOff = false)
include hcore

/-- With every hub sensor failed the card trips; what the record tells is free. -/
theorem becomes_hubSensorSample_blind {ts : List (Option Int)} {d : Card}
    (hd : d = (List.range 10).foldl (fun (d : Card) i => d.setSensor i (hubValid (ts.getD i none))) c) (hblind : d.junction = none) :
    Becomes (.hubSensorSample ts) c
      ((d.trip (d.freeN % 256) (8 * ((Config.freeNat (d.fresh + 1) % 256 : Nat) : Int))).draw.draw) := by
  subst hd
  refine becomes_of_run (execHubSensorSample.eq_def ts) ?_
  rw [if_neg (by simp [hon, hcore])]
  extract_lets d
  rw [hblind]

/-- A junction temperature that is no new peak, of a card below the trip, sets the stage. -/
theorem becomes_hubSensorSample_stage {ts : List (Option Int)} {d : Card} {i j : Nat} {t8 v : Int}
    (hd : d = (List.range 10).foldl (fun (d : Card) i => d.setSensor i (hubValid (ts.getD i none))) c)
    (hjunction : d.junction = some (i, t8)) (hpeak : -((-t8) / 8) ≤ sint 8 (d.f (mg 0x201C) 7 0))
    (hhottest : ((d.setF (mg 0x2000) 31 24 (toBits 8 (-((-t8) / 8)))).setF (mg 0x2000) 23 16 i).hottest = some (j, v))
    (hcool : v < 960) : Becomes (.hubSensorSample ts) c
      (((d.setF (mg 0x2000) 31 24 (toBits 8 (-((-t8) / 8)))).setF (mg 0x2000) 23 16 i).stageFor (-((-t8) / 8))) := by
  subst hd
  refine becomes_of_run (execHubSensorSample.eq_def ts) ?_
  rw [if_neg (by simp [hon, hcore])]
  extract_lets d k
  have hpeak₁ : ((d.setF k 31 24 (toBits 8 (-((-t8) / 8)))).setF k 23 16 i).f (mg 0x201C) 7 0 = d.f (mg 0x201C) 7 0 :=
    (f_setF_ne (by decide)).trans (f_setF_ne (by decide))
  rw [hjunction]
  refine (?_ : (match (if sint 8 _ < -((-t8) / 8) then _ else _ : Card).hottest with | some (j, v) => _ | none => _) = _)
  rw [if_neg (by rw [hpeak₁]; exact not_lt.mpr hpeak), hhottest]
  exact if_neg (not_le.mpr hcool)

/-- The recheck of a warm card without a new margin. -/
theorem becomes_warmRecheck (hread : c.bit (mg 0x4000) 31 = true) (hcold : c.bit (mg 0x4000) 30 = false)
    (hfailed : c.bit (mg 0x4000) 29 = false) (hwarm : 85 ≤ c.tj) : Becomes (.warmRecheck []) c
      (hampers.foldl (fun (d : Card) h => (d.settleRetries h).settleGroups h) (c.setBit (mg 0x4000) 30 true).countMargins.setUnits) :=
  becomes_of_run (execWarmRecheck.eq_def []) (if_neg (by simp [hon, hcore, hread, hcold, hfailed, hwarm]))

end

/-- Settles O49, row by row. -/
theorem thermalRowsComplete : Obligations.ThermalRowsComplete := by
  refine ⟨?blind, ?stage, ?warming, ?airflow, ?recheck⟩
  case blind => exact fun c ts d hon hcore hd hblind => becomes_hubSensorSample_blind hon hcore hd hblind
  case stage =>
    exact fun c ts d i j t8 v hon hcore hd hjunction hpeak hhottest hcool =>
      becomes_hubSensorSample_stage hon hcore hd hjunction hpeak hhottest hcool
  case warming => exact fun c mw hon => completes_warmingTick hon mw
  case airflow => exact fun c hon => becomes_of_run execAirflowUpdate.eq_def (if_pos hon)
  case recheck =>
    exact fun c hon hcore hread hcold hfailed hwarm => becomes_warmRecheck hon hcore hread hcold hfailed hwarm

end Sys2Proof.Proofs
end

section
/-! The keep store, physical presence and the fuses (R490 to R507): the card that each command leaves. -/

namespace Sys2Proof.Proofs

open Sys2Proof Sys2Proof.Machine Sys2Proof.Laws

/-! ### Events -/

theorem f_event_ne {c : Card} {off bit vec k hi lo : Nat} (h : k ≠ mg off) (hp : k ≠ (msixBase 0).2.1) :
    (c.event off bit vec).f k hi lo = c.f k hi lo := by
  unfold Card.f
  rw [reg_event_ne h hp]

theorem bit_event_ne {c : Card} {off bit vec k i : Nat} (h : k ≠ mg off) (hp : k ≠ (msixBase 0).2.1) :
    (c.event off bit vec).bit k i = c.bit k i := by
  unfold Card.bit
  rw [f_event_ne h hp]

@[simp] theorem keep_event (c : Card) (off bit vec : Nat) : (c.event off bit vec).keep = c.keep := by
  unfold Card.event Card.raise
  split <;> rfl

@[simp] theorem presence_event (c : Card) (off bit vec : Nat) : (c.event off bit vec).presence = c.presence := by
  unfold Card.event Card.raise
  split <;> rfl

/-! ### MG_KS_CTL (R500) -/

/-- A write of MG_KS_CTL changes that register alone. -/
theorem writeReg_ksCtl (c : Card) (v : Word) : ∃ w, c.writeReg (mg 0x3000) v = c.setReg (mg 0x3000) w :=
  ⟨_, by simp [Card.writeReg, wholeOk, mg, Space.key]; rfl⟩

section
variable (c : Card) (v : Word)

theorem reg_writeReg_ksCtl {k : Nat} (hk : k ≠ mg 0x3000) : (c.writeReg (mg 0x3000) v).reg k = c.reg k := by
  obtain ⟨w, hw⟩ := writeReg_ksCtl c v
  rw [hw, reg_setReg_ne hk]

theorem bit_writeReg_ksCtl {k : Nat} (hk : k ≠ mg 0x3000) (i : Nat) : (c.writeReg (mg 0x3000) v).bit k i = c.bit k i := by
  unfold Card.bit Card.f
  rw [reg_writeReg_ksCtl c v hk]

theorem presence_writeReg_ksCtl : (c.writeReg (mg 0x3000) v).presence = c.presence := by
  obtain ⟨w, hw⟩ := writeReg_ksCtl c v
  rw [hw, setReg_presence]

end

section
variable {c : Card} {v : Word}

/-- GO starts its command while none runs. -/
theorem ksGo_of_idle {cmd : Nat} (hgo : fld v 31 31 = 1) (hcmd : fld v 3 0 = cmd) (hidle : c.bit (mg 0x3004) 31 = false)
    (run : Card → Card) : c.ksGo v cmd run = run (c.writeReg (mg 0x3000) v) := by
  unfold Card.ksGo
  rw [if_neg (by simp [hgo, hcmd]), bit_writeReg_ksCtl c v (by decide), hidle]
  exact if_neg (by simp)

/-- An ABANDON starts too while the running command's window is open. -/
theorem ksGo_of_waiting (hgo : fld v 31 31 = 1) (hcmd : fld v 3 0 = 4) (hwait : c.bit (mg 0x3004) 30 = true)
    (run : Card → Card) : c.ksGo v 4 run = run (c.writeReg (mg 0x3000) v) := by
  unfold Card.ksGo
  rw [if_neg (by simp [hgo, hcmd]), bit_writeReg_ksCtl c v (by decide), bit_writeReg_ksCtl c v (by decide), hwait]
  exact if_neg (by simp)

end

/-! ### The end of the host's command (R500) -/

/-- A command that ended: its RESULT, neither BUSY nor its window, and no command of the host left. -/
def KsEnded (d : Card) (result : Nat) : Prop :=
  d.f (mg 0x3004) 27 24 = result ∧ d.bit (mg 0x3004) 31 = false ∧ d.bit (mg 0x301C) 0 = true ∧ d.keep.host = none

theorem ksEnded_ksEnd (c : Card) {result : Nat} (hresult : result < 16) : KsEnded (c.ksEnd result) result := by
  unfold Card.ksEnd
  extract_lets c₁ c₂ c₃
  refine ⟨?result, ?busy, bit_event_self (by decide) (by decide), ?host⟩
  case result =>
    rw [Card.ksEvent, f_event_ne (by decide) (by decide), f_setF_self (by decide) (by decide)]
    exact Nat.mod_eq_of_lt hresult
  case busy =>
    rw [Card.ksEvent, bit_event_ne (by decide) (by decide), bit_setF_disjoint (by decide) (by decide) (.inr (by decide)),
      bit_setBit_disjoint (by decide) (by decide), bit_setBit_self (by decide)]
  case host =>
    rw [Card.ksEvent, keep_event]
    rfl

/-- The end of a command leaves the staging area and the windows. -/
theorem staging_ksEnd (c : Card) (result : Nat) : (c.ksEnd result).keep.staging = c.keep.staging := by
  unfold Card.ksEnd
  extract_lets c₁ _ c₂
  have h₁ : c₁.keep.staging = c.keep.staging := by
    simp only [c₁]
    split
    · split <;> rfl
    · rfl
  rw [Card.ksEvent, keep_event]
  exact h₁

theorem presence_ksEnd (c : Card) (result : Nat) : (c.ksEnd result).presence = c.presence := by
  unfold Card.ksEnd
  extract_lets c₁ _ c₂
  have h₁ : c₁.presence = c.presence := by
    simp only [c₁]
    split
    · split <;> rfl
    · rfl
  rw [Card.ksEvent, presence_event]
  exact h₁

/-! ### The host's commands -/

section
variable {c : Card} {v : Word} (hreach : c.reaches .pf0 0x3000 = true) (hgo : fld v 31 31 = 1)
include hreach hgo

theorem completes_restage (hcmd : fld v 3 0 = 2) (hidle : c.bit (mg 0x3004) 31 = false) : Completes (.restage v) c fun d =>
    d.keep.staging = (c.writeReg (mg 0x3000) v).currentImage ∧ d.f (mg 0x3004) 27 24 = 0 ∧
      d.bit (mg 0x3004) 31 = false ∧ d.bit (mg 0x301C) 0 = true := by
  refine completes_of_run (execRestage.eq_def v) ?_
  rw [hostWrite_of_reaches hreach, ksGo_of_idle hgo hcmd hidle]
  obtain ⟨hresult, hbusy, hevent, -⟩ := ksEnded_ksEnd
    ({ c.writeReg (mg 0x3000) v with keep := { (c.writeReg (mg 0x3000) v).keep with
      staging := (c.writeReg (mg 0x3000) v).currentImage } } : Card) (result := 0) (by decide)
  exact ⟨staging_ksEnd _ 0, hresult, hbusy, hevent⟩

theorem completes_abandon (hcmd : fld v 3 0 = 4) (hwait : c.bit (mg 0x3004) 30 = true)
    (hopen : c.presence.any (fun w => w.op == 1 || w.op == 2) = true) : Completes (.abandon v) c fun d =>
      d.presence = none ∧ d.f (mg 0x3004) 27 24 = 6 ∧ d.bit (mg 0x3004) 31 = false ∧ d.keep.host = none := by
  refine completes_of_run (execAbandon.eq_def v) ?_
  rw [hostWrite_of_reaches hreach, ksGo_of_waiting hgo hcmd hwait, if_pos (by rw [presence_writeReg_ksCtl]; exact hopen)]
  obtain ⟨hresult, hbusy, -, hhost⟩ := ksEnded_ksEnd ({ c.writeReg (mg 0x3000) v with presence := none } : Card) (result := 6)
    (by decide)
  exact ⟨presence_ksEnd _ 6, hresult, hbusy, hhost⟩

theorem becomes_ksBadCommand (hcmd : ¬(1 ≤ fld v 3 0 ∧ fld v 3 0 ≤ 4)) (hidle : c.bit (mg 0x3004) 31 = false) :
    Becomes (.ksBadCommand v) c ((c.writeReg (mg 0x3000) v).ksEnd 7) := by
  refine becomes_of_run (execKsBadCommand.eq_def v) ?_
  rw [hostWrite_of_reaches hreach, if_neg hcmd, ksGo_of_idle hgo rfl hidle]

theorem becomes_keepStore (hcmd : fld v 3 0 = 1) (hidle : c.bit (mg 0x3004) 31 = false) :
    Becomes (.keepStore v) c ((c.writeReg (mg 0x3000) v).beginHostStore 1) := by
  refine becomes_of_run (execKeepStore.eq_def v) ?_
  rw [hostWrite_of_reaches hreach, ksGo_of_idle hgo hcmd hidle]

theorem becomes_clearRetire (hcmd : fld v 3 0 = 3) (hidle : c.bit (mg 0x3004) 31 = false) :
    Becomes (.clearRetire v) c ((c.writeReg (mg 0x3000) v).beginHostStore 3) := by
  refine becomes_of_run (execClearRetire.eq_def v) ?_
  rw [hostWrite_of_reaches hreach, ksGo_of_idle hgo hcmd hidle]

end

/-! ### The card's own stores (R490, R491) -/

section
variable {c : Card}

theorem completes_internalStore {t : Nat} (hloaded : c.keepLoaded = true) (hdirty : c.keep.dirty = some t)
    (hown : c.keep.own = none) (hhost : c.keep.host = none) : Completes .internalStore c fun d =>
      d.keep.dirty = none ∧ d.keep.own.map (fun j => j.image) = some (some (c.otherBank, ksBuild c.nextGen
        ((c.keep.recs.sections 0).foldl (fun l s => ksPut s l) (ksList c.currentImage)))) := by
  refine completes_of_run execInternalStore.eq_def ?_
  rw [if_neg (by simp [hloaded, hdirty, hown, hhost])]
  exact ⟨rfl, rfl⟩

/-- The bank that holds a verified image. -/
theorem data_commitBank (c : Card) (n : Nat) (img : List Byte) :
    (tabGet {} (c.commitBank n img true).keep.banks n).data = img := by
  have hbanks : (c.commitBank n img true).keep.banks =
    tabPut {} c.keep.banks n { tabGet {} c.keep.banks n with data := img } := rfl
  rw [hbanks, tabGet_put_self]

theorem completes_storeCommit {j : KsJob} {x : Nat × List Byte} (hon : c.on = true) (hown : c.keep.own = some j)
    (himage : j.image = some x) (hhost : c.keep.host = none) : Completes (.storeCommit true) c fun d =>
      d.keep.own = none ∧ (tabGet {} d.keep.banks x.1).data = x.2 ∧ d.bit (mg 0x301C) 2 = true := by
  have hcommits : Becomes (.storeCommit true) c (({ c.commitBank x.1 x.2 true with
      keep := { (c.commitBank x.1 x.2 true).keep with own := none } } : Card).ksEvent 2) := by
    cases j
    cases himage
    refine becomes_of_run (execStoreCommit.eq_def true) ?_
    rw [if_neg (by simp [hon]), hown, hhost]
    rfl
  refine ⟨_, hcommits, ?_, ?_, bit_event_self (by decide) (by decide)⟩
  · rw [Card.ksEvent, keep_event]
  · rw [Card.ksEvent, keep_event]
    exact data_commitBank c x.1 x.2

/-! ### The staging window (R500) -/

theorem becomes_ksStagingAccess_write {v : Word} (hreach : c.reaches .pf0 0x3018 = true) (hstaging : c.bit (mg 0x3014) 16 = false)
    (hidle : c.bit (mg 0x3004) 31 = false) : Becomes (.ksStagingAccess (some v)) c
      (({ c with keep := { c.keep with staging := imgPut c.keep.staging (c.f (mg 0x3014) 15 0) v } } : Card).setF (mg 0x3014) 15 0
        ((c.f (mg 0x3014) 15 0 + 4) % 65536)) := by
  refine becomes_of_run (execKsStagingAccess.eq_def (some v)) ?_
  exact (hostWrite_of_reaches hreach).trans (if_neg (by simp [hstaging, hidle]))

theorem becomes_ksStagingAccess_read (hclaims : c.claims .pf0 = true) (hopen : c.bootOpen 0x3018 = true) :
    Becomes (.ksStagingAccess none) c ((c.emit (.readData 0 0x3018 (leBytes 4 (imgWord
      (if c.bit (mg 0x3014) 16 then c.currentImage else c.keep.staging) (c.f (mg 0x3014) 15 0))))).setF (mg 0x3014) 15 0
        ((c.f (mg 0x3014) 15 0 + 4) % 65536)) := by
  refine becomes_of_run (execKsStagingAccess.eq_def none) ?_
  exact (if_neg (by simp [hclaims])).trans (if_neg (by simp [hopen]))

/-! ### Physical presence (R496, R507) -/

theorem becomes_buttonPress_counted (hon : c.on = true) (hclosed : c.presence = none) : Becomes (.buttonPress true) c
    (({ c with pin := { c.pin with button := true } } : Card).bump (mg 0x3024) 1) := by
  refine becomes_of_run (execButtonPress.eq_def true) ?_
  extract_lets _ c₁
  rw [if_neg (by simp [show c₁.on = true from hon])]
  exact if_neg (by simp [show c₁.presence = none from hclosed])

theorem becomes_buttonPress_grants {w : PresWindow} (hon : c.on = true) (hopen : c.presence = some w) :
    Becomes (.buttonPress true) c (({ c with pin := { c.pin with button := true } } : Card).grantWindow 1) := by
  refine becomes_of_run (execButtonPress.eq_def true) ?_
  extract_lets _ c₁
  rw [if_neg (by simp [show c₁.on = true from hon])]
  exact if_pos (by simp [show c₁.presence = some w from hopen])

theorem becomes_jumperFitted (hon : c.on = true) : Becomes (.jumperFitted true) c
    (({ c with pin := { c.pin with jumper := true } } : Card).grantWindow 2) :=
  becomes_of_run (execJumperFitted.eq_def true) (if_pos (by simp [hon]))

/-- The window of a command of the keep store runs out. -/
theorem becomes_presenceTimeout {w : PresWindow} (hopen : c.presence = some w) (hon : c.on = true) (hop : w.op = 1) :
    Becomes .presenceTimeout c
      ((((c.advanceTo (w.since + 30000000000)).endPresence.presenceLog w.op 0 2 w.detail).ksEvent 4).ksEnd 3) := by
  refine becomes_of_run execPresenceTimeout.eq_def ?_
  rw [hopen]
  refine (if_neg (by simp [hon])).trans ?_
  rw [if_neg (by omega), if_neg (by omega)]

/-! ### Fuses and the seal (R498, R501) -/

theorem becomes_fuseProgram {v : Word} (hreach : c.reaches .pf0 0x4018 = true) (hgo : fld v 31 31 = 1)
    (hrun : c.bit (mg 0x4018) 30 = false) (hwait : c.bit (mg 0x4018) 29 = false) (hstage : c.stage ≠ 2)
    (hword : programmable (c.f (mg 0x4010) 6 0) = true) : Becomes (.fuseProgram v) c
      (({ c with fuseJob := some ⟨c.f (mg 0x4010) 6 0, (c.reg (mg 0x4014)).toNat⟩ } : Card).askPresence 3 (c.f (mg 0x4010) 6 0)
        (fun d => d.startFuse) (fun d => d.fuseEnd 4) (fun d => d.setBit (mg 0x4018) 29 true)) := by
  refine becomes_of_run (execFuseProgram.eq_def v) ?_
  rw [hostWrite_of_reaches hreach, if_neg (by simp [hgo, hrun, hwait])]
  extract_lets w
  rw [if_neg hstage]
  exact if_neg (by simp [w, hword])

theorem becomes_fuseProgramDone {solid : Word} {j : FuseJob} (hjob : c.fuseJob = some j) (hon : c.on = true)
    (hrun : c.bit (mg 0x4018) 30 = true) : Becomes (.fuseProgramDone solid) c
      ((c.blow j.word (BitVec.ofNat 32 j.blow)).fuseEnd (if BitVec.ofNat 32 j.blow &&& ~~~ solid = 0 then 0 else 5)) := by
  refine becomes_of_run (execFuseProgramDone.eq_def solid) ?_
  rw [hjob]
  exact if_neg (by simp [hon, hrun])

theorem becomes_sealBreak (hclosed : c.pin.sealOpen = false) (hloaded : c.keepLoaded = true) (hboard : c.board.up = false) :
    Becomes .sealBreak c (({ c with pin := { c.pin with sealOpen := true } } : Card).recordSeal) := by
  refine becomes_of_run execSealBreak.eq_def ?_
  rw [if_neg (by simp [hclosed])]
  extract_lets _ c₁ _ c₂
  have hc₂ : c₂ = c₁ := if_neg (by simp [show c₁.board.up = false from hboard])
  rw [hc₂]
  exact if_pos hloaded

end

/-- Settles O50, row by row. -/
theorem keepRowsComplete : Obligations.KeepRowsComplete := by
  refine ⟨?store, ?clear, ?restage, ?abandon, ?bad, ?internal, ?commit, ?stagingWrite, ?stagingRead, ?buttonCounted, ?buttonGrants,
    ?buttonUp, ?jumper, ?jumperOff, ?timeout, ?program, ?programmed, ?sealBroken⟩
  case store => exact fun c v hreach hgo hcmd hidle => becomes_keepStore hreach hgo hcmd hidle
  case clear => exact fun c v hreach hgo hcmd hidle => becomes_clearRetire hreach hgo hcmd hidle
  case restage => exact fun c v hreach hgo hcmd hidle => completes_restage hreach hgo hcmd hidle
  case abandon => exact fun c v hreach hgo hcmd _ hwait hopen => completes_abandon hreach hgo hcmd hwait hopen
  case bad => exact fun c v hreach hgo hcmd hidle => becomes_ksBadCommand hreach hgo hcmd hidle
  case internal => exact fun c t hloaded hdirty hown hhost => completes_internalStore hloaded hdirty hown hhost
  case commit => exact fun c j x hon hown himage hhost => completes_storeCommit hon hown himage hhost
  case stagingWrite => exact fun c v hreach hstaging hidle => becomes_ksStagingAccess_write hreach hstaging hidle
  case stagingRead => exact fun c hclaims hopen => becomes_ksStagingAccess_read hclaims hopen
  case buttonCounted => exact fun c hon hclosed => becomes_buttonPress_counted hon hclosed
  case buttonGrants => exact fun c w hon hopen => becomes_buttonPress_grants hon hopen
  case buttonUp => exact fun c => becomes_of_run (execButtonPress.eq_def false) (if_pos (by simp))
  case jumper => exact fun c hon => becomes_jumperFitted hon
  case jumperOff => exact fun c => becomes_of_run (execJumperFitted.eq_def false) (if_neg (by simp))
  case timeout => exact fun c w hopen hon hop => becomes_presenceTimeout hopen hon hop
  case program =>
    exact fun c v hreach hgo hrun hwait hstage hword => becomes_fuseProgram hreach hgo hrun hwait hstage hword
  case programmed => exact fun c solid j hjob hon hrun => becomes_fuseProgramDone hjob hon hrun
  case sealBroken => exact fun c hclosed hloaded hboard => becomes_sealBreak hclosed hloaded hboard

end Sys2Proof.Proofs
end

section
/-! Freeze, thaw and read-out (R432 to R442): the card that each event leaves. -/

namespace Sys2Proof.Proofs

open Sys2Proof Sys2Proof.Machine Sys2Proof.Laws

/-! ### MG_FRZ_CTL -/

/-- A write of MG_FRZ_CTL changes that register alone. -/
theorem writeReg_frzCtl (c : Card) (v : Word) : ∃ w, c.writeReg (mg 0x5000) v = c.setReg (mg 0x5000) w :=
  ⟨_, by simp [Card.writeReg, wholeOk, mg, Space.key]; rfl⟩

theorem on_of_reaches {c : Card} {off : Nat} (hreach : c.reaches .pf0 off = true) : c.on = true := by
  simp only [Card.reaches, Card.claims, Bool.and_eq_true] at hreach
  exact hreach.1.1

/-- A thaw that nothing refuses begins. -/
theorem thawRequest_of_ready {c : Card} (hon : c.on = true) (hfrozen : c.frozen = true) (hidle : c.thawing = false)
    (hpin : c.freezeN = false) (hkept : c.noRetention = false) (hreadout : c.bit (mg 0x5100) 30 = false) :
    c.thawRequest = (c.setF (mg 0x5004) 23 16 0).setBit (mg 0x5004) 29 true := by
  unfold Card.thawRequest
  rw [if_neg (by simp [hon]), if_neg (by simp [hfrozen]), if_neg (by simp [hidle]), if_neg (by simp [hpin]),
    if_neg (by simp [hkept]), if_neg (by simp [hreadout])]

section
variable {c : Card}

theorem becomes_freezeRegister {v : Word} (hreach : c.reaches .pf0 0x5000 = true) (hfreeze : fld v 31 31 = 1)
    (hthaw : fld v 30 30 = 0) : Becomes (.freezeRegister v) c ((c.writeReg (mg 0x5000) v).freezeRequest 3) := by
  refine becomes_of_run (execFreezeRegister.eq_def v) ?_
  rw [hostWrite_of_reaches hreach, Card.frzCtl, if_neg (by simp [hthaw]), if_pos hfreeze]

theorem becomes_thaw {v : Word} (hreach : c.reaches .pf0 0x5000 = true) (hfreeze : fld v 31 31 = 0) (hthaw : fld v 30 30 = 1)
    (hfrozen : c.frozen = true) (hidle : c.thawing = false) (hpin : c.freezeN = false) (hkept : c.noRetention = false)
    (hreadout : c.bit (mg 0x5100) 30 = false) :
    Becomes (.thaw v) c (((c.writeReg (mg 0x5000) v).setF (mg 0x5004) 23 16 0).setBit (mg 0x5004) 29 true) := by
  obtain ⟨w, hw⟩ := writeReg_frzCtl c v
  have hbit {k : Nat} (hk : k ≠ mg 0x5000) (i : Nat) : (c.setReg (mg 0x5000) w).bit k i = c.bit k i := by
    rw [Card.bit, Card.f, reg_setReg_ne hk, Card.bit, Card.f]
  refine becomes_of_run (execThaw.eq_def v) ?_
  rw [hostWrite_of_reaches hreach, Card.frzCtl, hw, if_pos hthaw, if_neg (by simp [hfreeze])]
  have hon : c.on = true := on_of_reaches hreach
  exact thawRequest_of_ready hon ((hbit (by decide) 31).trans hfrozen) ((hbit (by decide) 29).trans hidle)
    hpin hkept ((hbit (by decide) 30).trans hreadout)

/-! ### Other sources -/

theorem becomes_freezePin (hpin : c.freezeN = false) :
    Becomes (.freezePin true) c (({ c with freezeN := true } : Card).freezeRequest 1) := by
  refine becomes_of_run (execFreezePin.eq_def true) ?_
  exact if_pos (by simp [hpin])

theorem becomes_freezeMatchTime (hon : c.on = true) (harmed : c.bit (mg 0x5030) 31 = true) (hsource : c.bit (mg 0x5000) 11 = true)
    (htime : c.pair (mg 0x5034) (mg 0x5038) ≠ 0) : Becomes .freezeMatchTime c
      (((c.advanceTo (c.pair (mg 0x5034) (mg 0x5038))).setBit (mg 0x5030) 31 false).freezeRequest 6) :=
  becomes_of_run execFreezeMatchTime.eq_def (if_neg (by simp [hon, harmed, hsource, htime]))

/-! ### Settling and the end of a thaw -/

theorem gov_raise (c : Card) (n v : Nat) : (c.raise n v).gov = c.gov := by
  unfold Card.raise
  split <;> rfl

theorem rowsOpen_raise (c : Card) (n v : Nat) : (c.raise n v).rowsOpen = c.rowsOpen := by
  unfold Card.raise
  split <;> rfl

theorem clk_raise (c : Card) (n v : Nat) : (c.raise n v).clk = c.clk := by
  unfold Card.raise
  split <;> rfl

theorem completes_freezeSettled (hstopping : c.stopping = true) : Completes .freezeSettled c fun d =>
    d.frozen = true ∧ d.stopping = false ∧ d.rowsOpen = [] ∧ d.gov.b = 0 := by
  refine completes_of_run execFreezeSettled.eq_def ?_
  rw [if_neg (by simp [hstopping])]
  extract_lets c₁ c₂ c₃
  have hreg : (((c₃.setBit (mg 0x5004) 30 false).setBit (mg 0x5004) 31 true).raise 0 5).reg (mg 0x5004) =
      ((c₃.setBit (mg 0x5004) 30 false).setBit (mg 0x5004) 31 true).reg (mg 0x5004) := reg_raise_ne (by decide)
  refine ⟨?frozen, ?stopping, (rowsOpen_raise _ _ _).trans rfl, ?b⟩
  case frozen =>
    rw [Card.frozen, Card.bit, Card.f, hreg]
    exact bit_setBit_self (by decide)
  case stopping =>
    rw [Card.stopping, Card.bit, Card.f, hreg]
    exact (bit_setBit_disjoint (by decide) (by decide)).trans (bit_setBit_self (by decide))
  case b =>
    rw [gov_raise]
    rfl

theorem f_raise_ne {c : Card} {n v k hi lo : Nat} (h : k ≠ (msixBase n).2.1) : (c.raise n v).f k hi lo = c.f k hi lo := by
  unfold Card.f
  rw [reg_raise_ne h]

theorem f_setPair_ne {c : Card} {lo hi v k i j : Nat} (hlo : k ≠ lo) (hhi : k ≠ hi) :
    (c.setPair lo hi v).f k i j = c.f k i j := by
  unfold Card.f Card.setPair
  rw [reg_setN_ne hhi, reg_setN_ne hlo]

theorem f_loseRetention (c : Card) (k hi lo : Nat) : c.loseRetention.f k hi lo = c.f k hi lo := rfl

theorem bit_loseRetention (c : Card) (k i : Nat) : c.loseRetention.bit k i = c.bit k i := rfl

/-- A self-refresh exit that failed: the card stays frozen, and will not thaw again. -/
theorem completes_thawComplete_failed (hthawing : c.thawing = true) : Completes (.thawComplete true) c fun d =>
    d.thawing = false ∧ d.f (mg 0x5004) 23 16 = 3 ∧ d.noRetention = true ∧ d.frozen = c.frozen := by
  have hends : Becomes (.thawComplete true) c ((c.setBit (mg 0x5004) 29 false).setF (mg 0x5004) 23 16 3).loseRetention := by
    refine becomes_of_run (execThawComplete.eq_def true) ?_
    extract_lets k
    rw [if_neg (by simp [hthawing]), if_pos rfl]
  refine ⟨_, hends, ?_, (f_loseRetention _ _ _ _).trans (f_setF_self (by decide) (by decide)), rfl, ?_⟩
  · rw [Card.thawing, bit_loseRetention, bit_setF_disjoint (by decide) (by decide) (.inr (by decide)),
      bit_setBit_self (by decide)]
  · rw [Card.frozen, bit_loseRetention, bit_setF_disjoint (by decide) (by decide) (.inr (by decide)),
      bit_setBit_disjoint (by decide) (by decide), Card.frozen]

/-- The modules that kept their contents leave self-refresh (R440). -/
def leaveSelfRefresh (c : Card) : Card :=
  (List.range 8).foldl (fun (d : Card) ch => if d.f (chPage ch) 2 0 = 3 then d.setF (chPage ch) 2 0 1 else d) c

theorem clk_leaveSelfRefresh (c : Card) : (leaveSelfRefresh c).clk = c.clk :=
  List.foldlRecOn (motive := fun d : Card => d.clk = c.clk) _ _ rfl fun d hd ch _ => by split <;> exact hd

theorem clk_setF (c : Card) (k hi lo v : Nat) : (c.setF k hi lo v).clk = c.clk := rfl
theorem clk_setPair (c : Card) (lo hi v : Nat) : (c.setPair lo hi v).clk = c.clk := rfl
theorem clk_shiftTimers (c : Card) (dt : Nat) : (c.shiftTimers dt).clk = c.clk := rfl

/-- The card at the end of a thaw, before its units resume. -/
def thawed (c : Card) : Card :=
  (((((leaveSelfRefresh c).shiftTimers (c.ns - c.pair (mg 0x5010) (mg 0x5014))).setF (mg 0x5004) 31 29 0).setPair (mg 0x5018)
    (mg 0x501C) (leaveSelfRefresh c).ns).setF (mg 0x5110) 29 28 0).raise 0 5

theorem clk_thawed (c : Card) : (thawed c).clk = c.clk := by
  rw [thawed, clk_raise, clk_setF, clk_setPair, clk_setF, clk_shiftTimers, clk_leaveSelfRefresh]

/-- It is neither frozen, nor stopping, nor thawing. -/
theorem f_thawed (c : Card) : (thawed c).f (mg 0x5004) 31 29 = 0 := by
  rw [thawed, f_raise_ne (by decide), f_setF_ne (by decide), f_setPair_ne (by decide) (by decide),
    f_setF_self (by decide) (by decide), Nat.zero_mod]

theorem completes_thawComplete (hthawing : c.thawing = true) : Completes (.thawComplete false) c fun d =>
    d = (thawed c).resume.govFlags ∨ ∃ src, d = (thawed c).resume.govFlags.endRefreeze.freezeWave src := by
  refine completes_of_run (execThawComplete.eq_def false) ?_
  extract_lets k dt c₁ c₂ c₃ c₄
  rw [if_neg (by simp [hthawing]), if_neg (by simp)]
  have hc₃ : c₃ = thawed c := rfl
  have hc₄ : c₄ = (thawed c).resume.govFlags := congrArg (fun d : Card => d.resume.govFlags) hc₃
  rw [← hc₄]
  split
  · exact .inr ⟨_, rfl⟩
  · exact .inl rfl

/-! ### Read-out -/

theorem becomes_readoutStart {v : Word} (hreach : c.reaches .pf0 0x5100 = true) (hidle : c.bit (mg 0x5100) 30 = false)
    (hgo : fld v 31 31 = 1) {d : Card} (hd : d = (c.writeReg (mg 0x5100) v).setF (mg 0x5100) 29 26 0)
    (hallowed : d.roRefused (d.f (mg 0x5100) 19 16) (d.f (mg 0x5100) 15 0) (d.pair (mg 0x5104) (mg 0x5108)) (d.f (mg 0x510C) 11 0) =
      none) : Becomes (.readoutStart v) c (d.setBit (mg 0x5100) 30 true) := by
  refine becomes_of_run (execReadoutStart.eq_def v) ?_
  rw [hostWrite_of_reaches hreach, Card.roCtl]
  subst hd
  rw [if_neg (by simp [hidle]), if_neg (by simp [hgo])]
  extract_lets d
  rw [hallowed]

theorem becomes_readoutDone {bad : List Nat} (hfrozen : c.frozen = true) (hrun : c.bit (mg 0x5100) 30 = true) {x : List Byte × Bool × Bool}
    (hx : c.roData (c.f (mg 0x5100) 19 16) (c.f (mg 0x5100) 15 0) (c.pair (mg 0x5104) (mg 0x5108)) (c.f (mg 0x510C) 11 0) bad = x) :
    Becomes (.readoutDone bad) c ((((({ c.fillRo x.1 with fresh := c.fresh + 2 ^ 32 } : Card).setBit (mg 0x5100) 30 false).setBit
      (mg 0x5100) 27 x.2.1).setBit (mg 0x5100) 26 x.2.2)) := by
  subst hx
  exact becomes_of_run (execReadoutDone.eq_def bad) (if_neg (by simp [hfrozen, hrun]))

theorem becomes_readoutUnlockRequest {v : Word} (hreach : c.reaches .pf0 0x5110 = true) (hgo : fld v 31 31 = 1)
    (hlocked : c.roGranted = false) : Becomes (.readoutUnlockRequest v) c
      (c.askPresence 4 (c.f (mg 0x5100) 19 16) (fun d => d.grantReadout true) (fun d => d.ksEvent 6)
        (fun d => d.setBit (mg 0x5110) 30 true)) := by
  refine becomes_of_run (execReadoutUnlockRequest.eq_def v) ?_
  rw [hostWrite_of_reaches hreach, Card.roUnlock, if_neg (by simp [hgo, hlocked])]

end

/-- Settles O46, row by row. -/
theorem freezeRowsComplete : Obligations.FreezeRowsComplete := by
  refine ⟨?pin, ?pinUp, ?register, ?pulse, ?matchTime, ?settled, ?thaw, ?thawFailed, ?thawed, ?readout, ?readoutDone, ?unlock⟩
  case pin => exact fun c hpin => becomes_freezePin hpin
  case pinUp => exact fun c => becomes_of_run (execFreezePin.eq_def false) (if_neg (by simp))
  case register => exact fun c v hreach hfreeze hthaw => becomes_freezeRegister hreach hfreeze hthaw
  case pulse => exact fun c p hcable => becomes_of_run (execFreezeLinkPulse.eq_def p) (if_pos hcable)
  case matchTime => exact fun c hon harmed hsource htime => becomes_freezeMatchTime hon harmed hsource htime
  case settled => exact fun c hstopping => completes_freezeSettled hstopping
  case thaw =>
    exact fun c v hreach hfreeze hthaw hfrozen hidle hpin hkept hreadout =>
      becomes_thaw hreach hfreeze hthaw hfrozen hidle hpin hkept hreadout
  case thawFailed => exact fun c hthawing => completes_thawComplete_failed hthawing
  case thawed =>
    intro c hthawing
    obtain ⟨d, hd, hresumed⟩ := completes_thawComplete hthawing
    exact ⟨d, hd, thawed c, clk_thawed c, f_thawed c, hresumed⟩
  case readout =>
    rintro c v k hreach rfl hidle hgo hallowed
    exact becomes_readoutStart hreach hidle hgo rfl hallowed
  case readoutDone => exact fun c bad x hfrozen hrun hx => becomes_readoutDone hfrozen hrun hx
  case unlock => exact fun c v hreach hgo hlocked => becomes_readoutUnlockRequest hreach hgo hlocked

end Sys2Proof.Proofs
end

section
/-! Bring-up and the resets of the card (R508 to R522): the card that each stage leaves. -/

namespace Sys2Proof.Proofs

open Sys2Proof Sys2Proof.Machine Sys2Proof.Laws

/-! ### What a frame says of one field -/

theorem pin_of_held {fr : List Part} {c d : Card} (h : Held fr c d) (hpart : Part.power ∉ fr) : d.pin = c.pin :=
  (congrArg (fun p => p.2.2) ((h .power).resolve_left hpart)).symm

theorem keep_of_held {fr : List Part} {c d : Card} (h : Held fr c d) (hpart : Part.keep ∉ fr) : d.keep = c.keep :=
  (congrArg Prod.fst ((h .keep).resolve_left hpart)).symm

theorem clk_of_held {fr : List Part} {c d : Card} (h : Held fr c d) (hpart : Part.time ∉ fr) : d.clk = c.clk :=
  (congrArg Prod.fst ((h .time).resolve_left hpart)).symm

theorem cache_of_held {fr : List Part} {c d : Card} (h : Held fr c d) (hpart : Part.dram ∉ fr) : d.cache = c.cache :=
  (congrArg (fun p => p.2.1) ((h .dram).resolve_left hpart)).symm

theorem winAt_event (c : Card) (off bit vec : Nat) : (c.event off bit vec).winAt = c.winAt := by
  unfold Card.event Card.raise
  split <;> rfl

/-! ### What the governor's acts can change -/

/-- The governor acted: its own state, registers and what goes out may differ, and nothing else. -/
def GovActs (c d : Card) : Prop := ∃ g r o, d = { c with gov := g, regs := r, out := o }

theorem govActs_refl (c : Card) : GovActs c c := ⟨c.gov, c.regs, c.out, rfl⟩

theorem GovActs.trans {c d e : Card} : GovActs c d → GovActs d e → GovActs c e := by
  rintro ⟨g, r, o, rfl⟩ ⟨g', r', o', rfl⟩
  exact ⟨g', r', o', rfl⟩

theorem GovActs.on {c d : Card} : GovActs c d → d.on = c.on := by
  rintro ⟨g, r, o, rfl⟩
  rfl

theorem govActs_withGov (c : Card) (g : Gov) : GovActs c { c with gov := g } := ⟨g, c.regs, c.out, rfl⟩

theorem govActs_setF (c : Card) (k hi lo v : Nat) : GovActs c (c.setF k hi lo v) := ⟨c.gov, _, c.out, rfl⟩

theorem govActs_setBit (c : Card) (k i : Nat) (b : Bool) : GovActs c (c.setBit k i b) := govActs_setF c k i i (b2n b)

theorem govActs_event (c : Card) (off bit vec : Nat) : GovActs c (c.event off bit vec) := by
  unfold Card.event Card.raise
  split
  · exact (govActs_setBit c _ _ _).trans ⟨_, _, _, rfl⟩
  · exact (govActs_setBit c _ _ _).trans (govActs_setBit _ _ _ _)

theorem govActs_settleB (c : Card) : GovActs c c.settleB := govActs_withGov c _

theorem govActs_flags (c : Card) (capped slopeWait : Bool) :
    GovActs c ((c.setBit (mg 0x1108) 24 capped).setBit (mg 0x1108) 23 slopeWait) :=
  (govActs_setBit c _ _ _).trans (govActs_setBit _ _ _ _)

theorem govActs_govFlags (c : Card) : GovActs c c.govFlags := by
  unfold Card.govFlags
  extract_lets c₁
  refine (govActs_settleB c).trans ?_
  split
  · exact govActs_flags c₁ false false
  · split
    · exact govActs_flags c₁ false false
    · split
      · split
        · exact govActs_flags c₁ true false
        · exact (govActs_flags c₁ true false).trans ((govActs_withGov _ _).trans
            ((govActs_setF _ _ _ _ _).trans (govActs_event _ _ _ _)))
      · exact govActs_flags c₁ false true

theorem govActs_loadOn (c : Card) (l : Load) : GovActs c (c.loadOn l) := by
  unfold Card.loadOn
  split
  · exact govActs_refl c
  · exact govActs_setF c _ _ _ _
  · exact govActs_setBit c _ _ _

theorem govActs_acknowledge (c : Card) (x : GovStart) : GovActs c (c.acknowledge x) := by
  unfold Card.acknowledge
  exact (govActs_withGov c _).trans (govActs_loadOn _ _)

theorem govActs_stopShares (c : Card) (n : Nat) : GovActs c (c.stopShares n) :=
  (govActs_setF c _ _ _ _).trans (govActs_withGov _ _)

theorem govActs_sharesFor (c : Card) (x : GovStart) : GovActs c (c.sharesFor x) := by
  unfold Card.sharesFor
  split
  · extract_lets d
    split
    · exact govActs_stopShares c _
    · exact govActs_refl c
  · exact govActs_refl c

theorem govActs_govStart (c : Card) (l : Load) (lc : Bool) (op : Option (Nat × Nat)) : GovActs c (c.govStart l lc op) := by
  unfold Card.govStart
  extract_lets c₁ x first g c₂ c₃
  have h₂ : GovActs c c₂ := (govActs_settleB c).trans (govActs_withGov c₁ _)
  have h₃ : GovActs c c₃ := by
    simp only [c₃]
    split
    · exact h₂.trans (govActs_sharesFor c₂ x)
    · exact h₂
  split
  · exact (h₃.trans (govActs_acknowledge c₃ x)).trans (govActs_govFlags _)
  · exact h₃.trans (govActs_govFlags c₃)

theorem govActs_govStop (c : Card) (l : Load) : GovActs c (c.govStop l) := by
  unfold Card.govStop Card.govStopAll
  extract_lets c₁ g gone
  split
  · exact govActs_settleB c
  · exact (govActs_settleB c).trans ((govActs_withGov c₁ _).trans (govActs_govFlags _))

theorem govActs_checkSupplies (c : Card) : GovActs c c.checkSupplies := by
  refine List.foldlRecOn (motive := GovActs c) [0, 1, 2] _ (govActs_refl c) fun d hd i _ => hd.trans ?_
  split
  · split
    · exact govActs_refl d
    · exact govActs_govStart d _ _ _
  · exact (govActs_govStop d _).trans (govActs_setBit _ _ _ _)

/-! ### The stage -/

theorem stage_of_reg {c d : Card} (h : d.reg (mg 0x30) = c.reg (mg 0x30)) : d.stage = c.stage := by
  unfold Card.stage Card.f
  rw [h]

theorem stage_event {c : Card} {off bit vec : Nat} (hoff : mg 0x30 ≠ mg off) : (c.event off bit vec).stage = c.stage :=
  stage_of_reg (reg_event_ne hoff (by decide))

/-- A stage entered shows in MG_BOOT_STATUS. -/
theorem stage_enterStage {n : Nat} (c : Card) (hn : n < 8) : (c.enterStage n).stage = n := by
  have hstamp : mg 0x30 ≠ mg (0x40 + 4 * n) := by simp only [mg, Space.key]; omega
  have hset : (c.setF (mg 0x30) 3 0 n).stage = n :=
    (f_setF_self (by decide) (by decide)).trans (Nat.mod_eq_of_lt (by omega))
  unfold Card.enterStage
  rw [stage_event (by decide), stage_of_reg (reg_setN_ne hstamp), hset]

theorem stage_foldl {α : Type} {f : Card → α → Card} (hf : ∀ c a, (f c a).stage = c.stage) (l : List α) (c : Card) :
    (l.foldl f c).stage = c.stage :=
  List.foldlRecOn (motive := fun d : Card => d.stage = c.stage) _ _ rfl fun d hd a _ => (hf d a).trans hd

/-! ### Power -/

/-- The card at POWER_GOOD: on, at stage 0, its time base at 0. -/
theorem powerUp_starts (c : Card) : c.powerUp.on = true ∧ c.powerUp.stage = 0 ∧ c.powerUp.clk = {} := by
  unfold Card.powerUp
  extract_lets c₁ c₂
  have hon : (c₂.enterStage 0).startQual.on = true := by
    have hentered : (c₂.enterStage 0).on = true := (govActs_event _ _ _ _).on
    unfold Card.startQual
    split <;> exact hentered
  have hstage : (c₂.enterStage 0).startQual.stage = 0 :=
    (stage_of_reg (reg_startQual _ _)).trans (stage_enterStage c₂ (by decide))
  have hheld : Held [.regs, .power, .out] c₂ (c₂.enterStage 0).startQual.checkSupplies :=
    frame_checkSupplies (needs rfl) _ (frame_startQual (needs rfl) _ (frame_enterStage (needs rfl) _ _ held_refl))
  refine ⟨(govActs_checkSupplies _).on.trans hon, ?_, clk_of_held hheld (by decide)⟩
  rw [stage_of_reg (reg_checkSupplies (by decide) _), hstage]

/-- POWER_GOOD touches no other part of the card. -/
theorem agree_powerUp (c : Card) {part : Part} (hpart : part ∉ [Part.time, .regs, .power, .out]) : part.agree c c.powerUp :=
  (frame_powerUp (needs rfl) c held_refl part).resolve_left hpart

section
variable {c : Card} (hon : c.on = true)
include hon

theorem becomes_regulatorRetry (hstage : c.stage = 0) (hpath : c.f (mg 0x1108) 31 29 = 1) (hdown : c.avs.up = false) :
    Becomes .regulatorRetry c ((c.event 0x100C 1 1).bootVoltage) :=
  becomes_of_run execRegulatorRetry.eq_def (if_neg (by simp [hon, hstage, hpath, hdown]))

theorem becomes_fuseRead (hstage : c.stage = 0) (hpath : c.f (mg 0x1108) 31 29 = 1) (hup : c.avs.up = true)
    (hcool : c.tooHot = false) :
    Becomes .fuseRead c (({ c with pin := { c.pin with hot := false } } : Card).enterStage 1) :=
  becomes_of_run execFuseRead.eq_def (if_neg (by simp [hon, hstage, hpath, hup, hcool]))

/-! ### The keep store and the fuses (R488, R494) -/

omit hon in
theorem marginOf_nil (w : Nat) : marginOf [] w = (0, 0) := rfl

omit hon in
theorem reg_readFuse {k w : Nat} (hk : k < mg 0x4100) (c : Card) (ms : List FuseMargin) : (c.readFuse ms w).reg k = c.reg k := by
  have hvalue : k ≠ fuseReg w := by simp only [fuseReg, mg, Space.key] at hk ⊢; omega
  have hmargin : k ≠ marginReg w := by simp only [marginReg, mg, Space.key] at hk ⊢; omega
  unfold Card.readFuse
  rw [reg_setReg_ne hmargin, reg_setReg_ne hvalue]

omit hon in
theorem reg_setUnits {k : Nat} (hk : mg 0x20 ≤ k) (c : Card) : c.setUnits.reg k = c.reg k := by
  refine List.foldlRecOn (motive := fun d : Card => d.reg k = c.reg k) _ _ rfl fun d hd h hh => ?_
  have hne : k ≠ mg (0x10 + 4 * h) := by
    simp only [mg, Space.key, hampers, List.mem_cons, List.not_mem_nil, or_false] at hk hh ⊢
    omega
  exact (reg_setN_ne hne).trans hd


omit hon in
theorem keepImage_of_banks {d : Card} (hcurrent : d.f (mg 0x3004) 21 20 = c.f (mg 0x3004) 21 20)
    (hbanks : d.keep.banks = c.keep.banks) : d.keepImage = c.keepImage := by
  unfold Card.keepImage
  rw [hcurrent, hbanks]

/-- The bank that holds the current image, and 0 with none: the valid one of higher generation (R488). -/
def currentBank (banks : Tab KsBank) : Nat :=
  let v0 := bankValid (tabGet {} banks 0).data
  let v1 := bankValid (tabGet {} banks 1).data
  if v0 && v1 then (if leAt (tabGet {} banks 0).data 8 4 < leAt (tabGet {} banks 1).data 8 4 then 2 else 1)
  else if v0 then 1 else if v1 then 2 else 0

omit hon in
theorem reg_withKeep (c : Card) (m : Keep) (k : Nat) : ({ c with keep := m } : Card).reg k = c.reg k := rfl

omit hon in
/-- The records are those of the image that the banks make current. -/
theorem recs_loadBanks (c : Card) : ∃ d : Card, c.loadBanks.keep.recs = readRecords d.keepImage ∧
    d.keep.banks = c.keep.banks ∧ d.f (mg 0x3004) 21 20 = currentBank c.keep.banks % 4 := by
  unfold Card.loadBanks
  extract_lets b v₀ v₁ cur j c₁ c₂ c₃
  have hf₁ : c₁.f (mg 0x3004) 21 20 = cur % 4 :=
    (f_setF_disjoint (by decide) (by decide) (.inr (by decide))).trans (f_setF_self (by decide) (by decide))
  have hf₃ : c₃.f (mg 0x3004) 21 20 = cur % 4 := by
    rw [← hf₁, Card.f, reg_setN_ne (by decide), reg_setN_ne (by decide), reg_setN_ne (by decide), Card.f]
  exact ⟨c₃, rfl, rfl, hf₃⟩

omit hon in
theorem recs_loadBanks_congr {d : Card} (hbanks : d.keep.banks = c.keep.banks) :
    d.loadBanks.keep.recs = c.loadBanks.keep.recs := by
  obtain ⟨x, hx, hxbanks, hxcurrent⟩ := recs_loadBanks d
  obtain ⟨y, hy, hybanks, hycurrent⟩ := recs_loadBanks c
  have hcurrent : x.f (mg 0x3004) 21 20 = y.f (mg 0x3004) 21 20 := by rw [hxcurrent, hycurrent, hbanks]
  have hsame : x.keep.banks = y.keep.banks := by rw [hxbanks, hybanks, hbanks]
  rw [hx, hy, keepImage_of_banks hcurrent hsame]

omit hon in
theorem reg_loadBanks {k : Nat} (hk : k < mg 0x3004) (c : Card) : c.loadBanks.reg k = c.reg k := by
  have hne (n : Nat) (hn : mg 0x3004 ≤ n) : k ≠ n := by omega
  unfold Card.loadBanks
  extract_lets b v₀ v₁ cur j c₁ c₂ c₃
  rw [reg_withKeep, reg_setN_ne (hne _ (by decide)), reg_setN_ne (hne _ (by decide)), reg_setN_ne (hne _ (by decide)),
    reg_setF_ne (hne _ (by decide)), reg_setF_ne (hne _ (by decide)), reg_setF_ne (hne _ (by decide))]

/-- The cold fuse read that finds no marginal bit, and the registers that show it (R494, R508). -/
def readFuses (c : Card) : Card := (List.range 128).foldl (fun (d : Card) w => d.readFuse [] w) c

def showFuses (c : Card) : Card :=
  let d := (c.setBit (mg 0x4000) 31 true).countMargins
  ((d.setReg (mg 0x8) (d.reg (fuseReg 0))).setReg (mg 0xC) (d.reg (fuseReg 1))).setUnits

omit hon in
theorem reg_readFuses {k : Nat} (hk : k < mg 0x4100) (c : Card) : (readFuses c).reg k = c.reg k :=
  List.foldlRecOn (motive := fun d : Card => d.reg k = c.reg k) _ _ rfl fun d hd _ _ => (reg_readFuse hk d []).trans hd

omit hon in
theorem held_showFuses (c : Card) : Held [.regs] c (showFuses (readFuses c)) := by
  have hread : Held [.regs] c (readFuses c) := frame_foldl (fun _ _ h => frame_readFuse (needs rfl) _ _ _ h) _ held_refl
  exact frame_setUnits (needs rfl) _ (frame_setReg (needs rfl) _ _ _ (frame_setReg (needs rfl) _ _ _
    (frame_countMargins (needs rfl) _ (frame_setBit (needs rfl) _ _ _ _ hread))))

omit hon in
theorem reg_showFuses {k : Nat} (hk : mg 0x20 ≤ k) (c : Card) :
    (showFuses c).reg k = (c.setBit (mg 0x4000) 31 true).countMargins.reg k := by
  have hne (n : Nat) (hn : n < mg 0x20) : k ≠ n := by omega
  unfold showFuses
  extract_lets d
  rw [reg_setUnits hk, reg_setReg_ne (hne _ (by decide)), reg_setReg_ne (hne _ (by decide))]

omit hon in
theorem stage_showFuses (c : Card) : (showFuses c).stage = c.stage := by
  refine stage_of_reg ((reg_showFuses (by decide) c).trans ?_)
  rw [Card.countMargins, reg_setF_ne (by decide), reg_setBit_ne (by decide)]

omit hon in
/-- The fuses show as read. -/
theorem bit_showFuses (c : Card) : (showFuses c).bit (mg 0x4000) 31 = true := by
  rw [Card.bit, Card.f, reg_showFuses (by decide), ← Card.f, ← Card.bit, Card.countMargins,
    bit_setF_disjoint (by decide) (by decide) (.inr (by decide)), bit_setBit_self (by decide)]

/-- The card with its keep store loaded, its power-on counted (R488). -/
def keepRead (c : Card) : Card :=
  (({ c with coldMarginal := false } : Card).enterStage 3).loadBanks.recordsChanged false
    (fun r : KsRecords => { r with powerOn := wrap32 (r.powerOn + 1) })

omit hon in
theorem held_keepRead (c : Card) : Held [.regs, .keep, .fuses, .out] c (keepRead c) :=
  frame_recordsChanged (needs rfl) _ _ _ (frame_loadBanks (needs rfl) _ (frame_enterStage (needs rfl) _ _
    (frame_withColdMarginal (needs rfl) _ held_refl)))

omit hon in
theorem reg_recordsChanged (c : Card) (urgent : Bool) (f : KsRecords → KsRecords) (k : Nat) :
    (c.recordsChanged urgent f).reg k = c.reg k := rfl

omit hon in
theorem recs_recordsChanged (c : Card) (urgent : Bool) (f : KsRecords → KsRecords) :
    (c.recordsChanged urgent f).keep.recs = f c.keep.recs := rfl

omit hon in
theorem stage_keepRead (c : Card) : (keepRead c).stage = 3 := by
  unfold keepRead
  rw [stage_of_reg (reg_recordsChanged _ _ _ _), stage_of_reg (reg_loadBanks (by decide) _), stage_enterStage _ (by decide)]

omit hon in
theorem powerOn_keepRead (c : Card) :
    (keepRead c).keep.recs.powerOn = wrap32 ((c.enterStage 3).loadBanks.keep.recs.powerOn + 1) := by
  have hbanks : (({ c with coldMarginal := false } : Card).enterStage 3).keep.banks = (c.enterStage 3).keep.banks := by
    rw [Card.enterStage, Card.enterStage, keep_event, keep_event]
    rfl
  rw [keepRead, recs_recordsChanged, recs_loadBanks_congr hbanks]

/-- Without a marginal bit and with the seal whole, the keep store is loaded and the fuses are shown. -/
theorem becomes_keepLoad (hcore : c.coreOff = false) (hstage : c.stage = 1) (hseal : c.pin.sealOpen = false) :
    Becomes (.keepLoad []) c (showFuses (readFuses (keepRead c))) := by
  have hpin : (showFuses (readFuses (keepRead c))).pin.sealOpen = false := by
    rw [pin_of_held (held_showFuses _) (by decide), pin_of_held (held_keepRead c) (by decide), hseal]
  refine becomes_of_run (execKeepLoad.eq_def []) ?_
  rw [if_neg (by simp [hon, hcore, hstage])]
  extract_lets marginal hold c₁ c₂ c₃ c₄ c₅ c₆
  have hmarginal : marginal = [] := List.filter_eq_nil_iff.mpr fun w _ => by simp [marginOf_nil]
  have hhold : hold = false := by simp [hold, hmarginal]
  have h₁ : c₁ = { c with coldMarginal := false } := by simp [c₁, hmarginal]
  have h₂ : c₂ = keepRead c := by
    rw [keepRead, ← h₁]
    exact if_neg (by simp [hhold])
  have h₄ : c₄ = c₃ := by simp [c₄, hmarginal]
  have h₆ : c₆ = showFuses c₄ := rfl
  have hread : c₆ = showFuses (readFuses (keepRead c)) := by rw [h₆, h₄, ← h₂, readFuses]
  clear_value c₆
  rw [if_neg (by simp [hhold]), hread, if_neg (by simp [hpin])]

/-! ### Memory (R509, R511) -/

omit hon in
theorem stage_setReg {k : Nat} (hk : mg 0x30 ≠ k) (c : Card) (w : Word) : (c.setReg k w).stage = c.stage :=
  stage_of_reg (reg_setReg_ne hk)

omit hon in
theorem stage_setF {k : Nat} (hk : mg 0x30 ≠ k) (c : Card) (hi lo v : Nat) : (c.setF k hi lo v).stage = c.stage :=
  stage_setReg hk c _

omit hon in
theorem stage_setBit {k : Nat} (hk : mg 0x30 ≠ k) (c : Card) (i : Nat) (b : Bool) : (c.setBit k i b).stage = c.stage :=
  stage_setReg hk c _

omit hon in
theorem stage_setN {k : Nat} (hk : mg 0x30 ≠ k) (c : Card) (v : Nat) : (c.setN k v).stage = c.stage := stage_setReg hk c _

omit hon in
theorem stage_ne_chPage (ch : Nat) : mg 0x30 ≠ chPage ch := by
  simp only [chPage, mg, Space.key]
  omega

omit hon in
theorem stage_withStaged (c : Card) (t : Tab Word) : ({ c with staged := t } : Card).stage = c.stage := rfl

omit hon in
theorem stage_withDelays (c : Card) (t : Tab Word) : ({ c with delays := t } : Card).stage = c.stage := rfl

omit hon in
theorem stage_withRedirect (c : Card) (t : Tab (Option Nat)) : ({ c with redirect := t } : Card).stage = c.stage := rfl

omit hon in
theorem stage_withAer (c : Card) (t : Tab Aer) : ({ c with aer := t } : Card).stage = c.stage := rfl

omit hon in
theorem stage_stageSet (c : Card) (ch : Nat) (p : List Byte) : (c.stageSet ch p).stage = c.stage :=
  stage_foldl (fun d _ => stage_withStaged d _) _ c

omit hon in
theorem stage_enforce (c : Card) (ch sub : Nat) : (c.enforce ch sub).stage = c.stage :=
  by
  refine stage_foldl (fun d x => ?_) _ c
  split
  · exact stage_withDelays d _
  · rfl

omit hon in
theorem stage_bringChannel (c : Card) (ch : Nat) (m : ModuleResult) : (c.bringChannel ch m).stage = c.stage := by
  have hpage := stage_ne_chPage ch
  have hmodules : mg 0x30 ≠ mg 0x20 := by decide
  unfold Card.bringChannel
  extract_lets k band c₁
  have h₁ : c₁.stage = c.stage := by rw [stage_setF hpage, stage_setBit hmodules]
  split
  · rfl
  · rw [stage_setF hpage, stage_setBit hmodules]
  · split
    · exact h₁
    · split
      · exact h₁
      · rw [stage_setBit hmodules, stage_setF hpage, stage_enforce, stage_enforce, stage_stageSet, stage_setF hpage, h₁]

theorem completes_memDelays (hcore : c.coreOff = false) (hstage : c.stage = 3) (rs : List ModuleResult) :
    Completes (.memDelays rs) c fun d => d.stage = 4 := by
  refine completes_of_run (execMemDelays.eq_def rs) ?_
  rw [if_neg (by simp [hon, hcore, hstage])]
  extract_lets r c₁ c₂
  have h₁ : c₁.stage = 4 := (stage_setN (by decide) _ _).trans (stage_enterStage c (by decide))
  have h₂ : c₂.stage = 4 := by
    simp only [c₂]
    split
    · exact (stage_event (by decide)).trans h₁
    · exact h₁
  refine (stage_foldl (fun d ch => ?_) _ c₂).trans h₂
  split
  · exact stage_bringChannel d ch _
  · rfl

omit hon in
theorem stage_setRank (c : Card) (k state peer : Nat) : (c.setRank k state peer).stage = c.stage := by
  have hne : mg 0x30 ≠ mg (0x8010 + 4 * (k / 4)) := by simp only [mg, Space.key]; omega
  unfold Card.setRank
  rw [stage_setF hne, stage_setF hne]

omit hon in
theorem stage_setCapacity (c : Card) : c.setCapacity.stage = c.stage := stage_setN (by decide) _ _

omit hon in
theorem stage_loseRank (c : Card) (k : Nat) : (c.loseRank k).stage = c.stage := by
  unfold Card.loseRank
  rw [stage_setCapacity, Card.aerLog, stage_withAer, stage_event (by decide), stage_setRank]

omit hon in
theorem stage_trainPort (c : Card) (p : Nat) : (c.trainPort p).stage = c.stage := by
  have hne : mg 0x30 ≠ mg (0xA104 + 0x100 * p) := by simp only [mg, Space.key]; omega
  unfold Card.trainPort
  extract_lets st
  split
  · exact stage_setF hne _ _ _ _
  · rfl

theorem completes_memReady (hcore : c.coreOff = false) (hstage : c.stage = 4) :
    Completes .memReady c fun d => d.stage = 5 ∧ d.cache = [] := by
  refine completes_of_run execMemReady.eq_def ?_
  rw [if_neg (by simp [hon, hcore, hstage])]
  extract_lets c₁ defs serves recorded c₂ c₃
  have hstage₁ : c₁.stage = 5 := stage_enterStage c (by decide)
  have hstage₂ : c₂.stage = c₁.stage := by
    refine stage_foldl (fun d k => ?_) _ c₁
    split
    · rfl
    · exact stage_setRank d _ _ _
  have hstage₃ : c₃.stage = c₂.stage := by
    refine stage_foldl (fun d k => ?_) _ c₂
    split
    · rfl
    · split
      · rw [Card.redirectRank, stage_withRedirect, stage_setRank, stage_setRank]
      · exact stage_loseRank d k
  have h₂ : Held [.regs, .config, .memctl, .out] c₁ c₂ :=
    frame_foldl (fun _ _ h => frame_ite h (frame_setRank (needs rfl) _ _ _ _ h)) _ held_refl
  have h₃ : Held [.regs, .config, .memctl, .out] c₁ c₃ := by
    refine frame_foldl (fun _ _ h => frame_ite h ?_) _ h₂
    split
    · exact frame_redirectRank (needs rfl) _ _ _ (frame_setRank (needs rfl) _ _ _ _ (frame_setRank (needs rfl) _ _ _ _ h))
    · exact frame_loseRank (needs rfl) _ _ h
  have hends : Held [.regs, .config, .memctl, .out] c₁ ((c₃.setCapacity.trainPort 0).trainPort 1) :=
    frame_trainPort (needs rfl) _ _ (frame_trainPort (needs rfl) _ _ (frame_setCapacity (needs rfl) _ h₃))
  refine ⟨?_, cache_of_held hends (by decide)⟩
  rw [stage_trainPort, stage_trainPort, stage_setCapacity, hstage₃, hstage₂, hstage₁]

/-! ### Layouts and service (R510, R515) -/

omit hon in
theorem becomes_layoutDefault (hlive : c.live = true) (hstage : c.stage = 5) :
    Becomes .layoutDefault c (hampers.foldl (fun (d : Card) h => d.checkDefault h) (c.enterStage 6)) :=
  becomes_of_run execLayoutDefault.eq_def (if_neg (by simp [hlive, hstage]))

omit hon in
theorem stage_setBit_other {i : Nat} (hlo : 4 ≤ i) (hi : i < 32) (c : Card) (b : Bool) :
    (c.setBit (mg 0x30) i b).stage = c.stage := f_setF_disjoint le_rfl hi (.inl (by omega))

omit hon in
theorem stage_setPace (c : Card) (h : Nat) (p : Pace) : (c.setPace h p).stage = c.stage := rfl

omit hon in
theorem stage_withWindows (c : Card) (w : Nat) (z : Bool) (r : Tab Nat) (a : Avs) :
    ({ c with winAt := w, winFrozen := z, rot := r, avs := a } : Card).stage = c.stage := rfl

omit hon in
theorem stage_startWindows (c : Card) : c.startWindows.stage = c.stage := stage_withWindows c _ _ _ _

omit hon in
theorem completes_hampersReady (hlive : c.live = true) (hstage : c.stage = 6)
    (hsettled : hampers.any (fun h => [FnPhase.starting, FnPhase.filling].contains (c.fnOf (h + 1)).phase &&
      (c.fnOf (h + 1)).cause == 4) = false) : Completes .hampersReady c fun d => d.stage = 7 ∧ d.winAt = c.ns := by
  refine completes_of_run execHampersReady.eq_def ?_
  extract_lets under c₁ c₂ c₃ c₄
  rw [if_neg (by simp only [under, hsettled, hlive, hstage]; decide)]
  have h₃ : Held [.regs, .pace, .out] c c₃ := frame_foldl (fun _ _ h => frame_setPace (needs rfl) _ _ _ h) _
    (frame_foldl (fun _ _ h => frame_ite (frame_setBit (needs rfl) _ _ _ _ h) h) _ (frame_enterStage (needs rfl) _ _ held_refl))
  have hwin : c₄.winAt = c.ns := congrArg (fun x : Clock => x.now / nsUnit) (clk_of_held h₃ (by decide))
  have hstage₂ : c₂.stage = c₁.stage := by
    refine List.foldlRecOn (motive := fun d : Card => d.stage = c₁.stage) _ _ rfl fun d hd h hh => ?_
    have hbit : 24 + h < 32 := by
      simp only [hampers, List.mem_cons, List.not_mem_nil, or_false] at hh
      omega
    split
    · exact (stage_setBit_other (by omega) hbit d true).trans hd
    · exact hd
  have hstage₃ : c₃.stage = c₂.stage := stage_foldl (fun d h => stage_setPace d h _) _ c₂
  have hstage₄ : c₄.stage = 7 := by
    have hstarted : c₄.stage = c₃.stage := stage_startWindows c₃
    rw [hstarted, hstage₃, hstage₂]
    exact stage_enterStage c (by decide)
  split
  · refine ⟨?_, ?_⟩
    · rw [stage_event (by decide), stage_setBit_other (by decide) (by decide), hstage₄]
    · rw [winAt_event]
      exact hwin
  · exact ⟨hstage₄, hwin⟩

/-! ### Resets of the card (R520, R521) -/

/-- What PERST# leaves: what is stored, and what the pins and the service parts sense (R520). -/
def resetKept (c : Card) : Card :=
  let d : Card := {
    keep := { banks := c.keep.banks }
    blown := c.blown
    pin := { c.pin with qualFrom := none }
    freezeN := c.freezeN
    tap := c.tap
    board := c.board
    fresh := c.fresh
    out := c.out }
  let d := d.setF (mg 0x0028) 3 1 (c.f (mg 0x0028) 3 1)
  if c.presence.any (fun w => w.op == 1 || w.op == 2) then d.setF (mg 0x3004) 27 24 6 else d

omit hon in
theorem resetKept_keeps (c : Card) : (resetKept c).keep.banks = c.keep.banks ∧ (resetKept c).blown = c.blown ∧
    (resetKept c).mem = [] := by
  unfold resetKept
  extract_lets
  split <;> exact ⟨rfl, rfl, rfl⟩

theorem becomes_conventionalReset : Becomes .conventionalReset c (resetKept c).powerUp :=
  becomes_of_run execConventionalReset.eq_def (if_neg (by simp [hon]))

theorem completes_conventionalReset : Completes .conventionalReset c fun d => d.on = true ∧ d.stage = 0 ∧ d.clk = {} ∧
    d.keep.banks = c.keep.banks ∧ d.blown = c.blown ∧ d.mem = [] := by
  obtain ⟨hstarted, hstage, hclk⟩ := powerUp_starts (resetKept c)
  obtain ⟨hbanks, hblown, hmem⟩ := resetKept_keeps c
  have hkeep : (resetKept c).keep = (resetKept c).powerUp.keep :=
    congrArg Prod.fst (agree_powerUp (resetKept c) (part := .keep) (by decide))
  have hfuses : (resetKept c).blown = (resetKept c).powerUp.blown :=
    congrArg Prod.fst (agree_powerUp (resetKept c) (part := .fuses) (by decide))
  have hempty : (resetKept c).mem = (resetKept c).powerUp.mem := agree_powerUp (resetKept c) (part := .mem) (by decide)
  exact ⟨_, becomes_conventionalReset hon, hstarted, hstage, hclk, hkeep ▸ hbanks, hfuses ▸ hblown, hempty ▸ hmem⟩

/-- The resets that a hot reset asks of the hampers that are ready (R521). -/
def askHotResets (c : Card) : Card :=
  let d := if (c.cfgOf 0).ptmEn then (c.setSync 0).restartPtm else c
  (hampers.filter (fun h => (d.fnOf (h + 1)).phase == .ready)).foldl (fun (e : Card) h => e.askPfReset h 1 false true) d

/-- A PF that drains no longer goes to D3hot. -/
def leaveD3 (c : Card) : Card :=
  hampers.foldl (fun (d : Card) h => if (d.fnOf (h + 1)).phase = .draining then
    d.setFn (h + 1) { d.fnOf (h + 1) with d3 := false } else d) c

/-- A PF that a reset holds in D3hot is readable. -/
def readHeld (l : List Nat) (c : Card) : Card :=
  l.foldl (fun (d : Card) h => (d.setFn (h + 1) { d.fnOf (h + 1) with d3 := false, cause := 1, hot := true }).pfReadable h) c

/-- The hampers that a reset holds. -/
def heldHampers (c : Card) : List Nat := hampers.filter (fun h => (c.fnOf (h + 1)).phase == .held)

omit hon in
theorem fnOf_ptmStopped (c : Card) (n : Nat) :
    (if (c.cfgOf 0).ptmEn then (c.setSync 0).restartPtm else c).fnOf n = c.fnOf n := by
  split <;> rfl

theorem becomes_hotReset : Becomes .hotReset c (readHeld (heldHampers c) (leaveD3 (askHotResets c)).clearCfg) := by
  refine becomes_of_run execHotReset.eq_def ?_
  rw [if_neg (by simp [hon])]
  extract_lets d held ready d₂ d₃ d₄
  have hheld : held = heldHampers c := by simp only [held, heldHampers, d, fnOf_ptmStopped]
  rw [hheld]
  rfl

omit hon in
theorem cfg_readHeld (l : List Nat) (c : Card) : (readHeld l c).cfg = c.cfg := by
  have hheld : Held [.regs, .functions] c (readHeld l c) :=
    frame_foldl (fun _ _ h => frame_pfReadable (needs rfl) _ _ (frame_setFn (needs rfl) _ _ _ h)) _ held_refl
  exact (congrArg Prod.fst ((hheld .config).resolve_left (by decide))).symm

omit hon in
theorem live_of_reg {d : Card} (hpower : d.on = c.on) (hfreeze : d.reg (mg 0x5004) = c.reg (mg 0x5004))
    (hinput : d.reg (mg 0x1108) = c.reg (mg 0x1108)) (hthermal : d.reg (mg 0x2000) = c.reg (mg 0x2000)) : d.live = c.live := by
  simp only [Card.live, Card.frozen, Card.stopping, Card.coreOff, Card.bit, Card.f, hpower, hfreeze, hinput, hthermal]

omit hon in
theorem live_setSync (v : Nat) : (c.setSync v).live = c.live :=
  live_of_reg rfl (reg_setF_ne (by decide)) (reg_setF_ne (by decide)) (reg_setF_ne (by decide))

omit hon in
theorem live_restartPtm (c : Card) : c.restartPtm.live = c.live := rfl

omit hon in
theorem live_ptmStopped : (if (c.cfgOf 0).ptmEn then (c.setSync 0).restartPtm else c).live = c.live := by
  split
  · rw [live_restartPtm, live_setSync]
  · rfl

omit hon in
/-- The one hamper that is ready begins its reset. -/
theorem draining_askHotResets {h : Nat} (hlive : c.live = true)
    (hready : hampers.filter (fun g => (c.fnOf (g + 1)).phase == .ready) = [h]) :
    ((askHotResets c).fnOf (h + 1)).phase = .draining := by
  have hmem : h ∈ hampers.filter (fun g => (c.fnOf (g + 1)).phase == .ready) := by simp [hready]
  have hphase : (c.fnOf (h + 1)).phase = .ready := by simpa using (List.mem_filter.mp hmem).2
  unfold askHotResets
  extract_lets d
  have hfn (n : Nat) : d.fnOf n = c.fnOf n := fnOf_ptmStopped c n
  have hd : d.live = true := live_ptmStopped.trans hlive
  have hd' : (d.fnOf (h + 1)).phase = .ready := by rw [hfn, hphase]
  simp only [hfn, hready, List.foldl_cons, List.foldl_nil]
  rw [askPfReset_of_ready hd hd']
  exact (draining_beginPfReset d h 1 false true).1

omit hon in
theorem draining_leaveD3 {h : Nat} (hdraining : (c.fnOf (h + 1)).phase = .draining) :
    ((leaveD3 c).fnOf (h + 1)).phase = .draining := by
  refine List.foldlRecOn (motive := fun d : Card => (d.fnOf (h + 1)).phase = .draining) _ _ hdraining fun d hd g _ => ?_
  split
  · by_cases hg : h + 1 = g + 1
    · rw [← hg, fnOf_setFn_self]
      exact hd
    · rw [fnOf_setFn_ne hg]
      exact hd
  · exact hd

omit hon in
theorem fnOf_readHeld {l : List Nat} {h : Nat} (hh : h ∉ l) (c : Card) : (readHeld l c).fnOf (h + 1) = c.fnOf (h + 1) := by
  refine List.foldlRecOn (motive := fun d : Card => d.fnOf (h + 1) = c.fnOf (h + 1)) _ _ rfl fun d hd g hg => ?_
  have hne : h + 1 ≠ g + 1 := fun heq => hh (by rw [Nat.succ.inj heq]; exact hg)
  rw [Card.pfReadable, fnOf_setFn_ne hne, fnOf_setF, fnOf_setFn_ne hne, hd]

omit hon in
theorem fnOf_clearCfg (c : Card) (n : Nat) : c.clearCfg.fnOf n = c.fnOf n := rfl

theorem completes_hotReset_draining {h : Nat} (hlive : c.live = true)
    (hready : hampers.filter (fun g => (c.fnOf (g + 1)).phase == .ready) = [h]) :
    Completes .hotReset c fun d => (d.fnOf (h + 1)).phase = .draining := by
  have hmem : h ∈ hampers.filter (fun g => (c.fnOf (g + 1)).phase == .ready) := by simp [hready]
  have hphase : (c.fnOf (h + 1)).phase = .ready := by simpa using (List.mem_filter.mp hmem).2
  have hheld : h ∉ heldHampers c := by simp [heldHampers, hphase]
  have hends : (readHeld (heldHampers c) (leaveD3 (askHotResets c)).clearCfg).fnOf (h + 1) =
      (leaveD3 (askHotResets c)).fnOf (h + 1) := by rw [fnOf_readHeld hheld, fnOf_clearCfg]
  exact ⟨_, becomes_hotReset hon, (congrArg FnState.phase hends).trans (draining_leaveD3 (draining_askHotResets hlive hready))⟩

end

theorem on_of_live {c : Card} (hlive : c.live = true) : c.on = true := by
  simp only [Card.live, Bool.and_eq_true] at hlive
  exact hlive.1.1.1

/-- Settles O51, row by row. -/
theorem bringUpRowsComplete : Obligations.BringUpRowsComplete := by
  refine ⟨?powerGood, ?regulator, ?fuses, ?keep, ?delays, ?memory, ?layouts, ?ready, ?conventional, ?hot, ?hotReady⟩
  case powerGood =>
    exact fun c hoff hslot =>
      ⟨_, becomes_of_run execPowerGood.eq_def (if_neg (by simp [hoff, hslot])), powerUp_starts c⟩
  case regulator => exact fun c hon hstage hpath hdown => becomes_regulatorRetry hon hstage hpath hdown
  case fuses =>
    intro c hon hstage hpath hup hcool
    refine ⟨_, becomes_fuseRead hon hstage hpath hup hcool, stage_enterStage _ (by decide), ?_⟩
    rw [pin_of_held (frame_enterStage (fr := [.regs, .out]) (needs rfl) _ _ held_refl) (by decide)]
  case keep =>
    intro c hon hcore hstage hseal
    refine ⟨_, becomes_keepLoad hon hcore hstage hseal, ?_, bit_showFuses _, ?_⟩
    · rw [stage_showFuses, stage_of_reg (reg_readFuses (by decide) _), stage_keepRead]
    · rw [keep_of_held (held_showFuses _) (by decide), powerOn_keepRead]
  case delays => exact fun c rs hon hcore hstage => completes_memDelays hon hcore hstage rs
  case memory => exact fun c hon hcore hstage => completes_memReady hon hcore hstage
  case layouts => exact fun c hlive hstage => becomes_layoutDefault hlive hstage
  case ready => exact fun c hlive hstage hsettled => completes_hampersReady hlive hstage hsettled
  case conventional => exact fun c hon => completes_conventionalReset hon
  case hot => exact fun c hon => ⟨_, becomes_hotReset hon, cfg_readHeld _ _⟩
  case hotReady => exact fun c h hlive hready => completes_hotReset_draining (on_of_live hlive) hlive hready

end Sys2Proof.Proofs
end

section
/-! Operand staging by the movers (R317, R322): the work of each STAGE command runs to its end. -/

namespace Sys2Proof.Proofs

open Sys2Proof Sys2Proof.Machine Sys2Proof.Laws

section
variable {c d : Card} {h r : Nat} {o : Op}

/-- A STAGE command whose source passes reads its pieces, and writes what it makes of them. -/
theorem runs_stageReads {staged : Bool} {rs : List (Nat × Nat)} {rows : List (List Byte)} (dst : Nat)
    (out : List (List Byte) → List Byte) (hepoch : o.epoch = none) (hsource : c.sourceOk h o staged rs)
    (hread : SourceTo h o staged rs c rows d) :
    Runs (do Eng.stageSource staged rs
             let rows ← rs.mapM (fun g => Eng.srcRd staged g.1 g.2)
             Eng.stWr dst (out rows))
      { card := c, op := o, h := h, r := r } () { card := d.stWrite h dst 0 (out rows), op := o, h := h, r := r } :=
  runs_bind (runs_stageSource hsource)
    (runs_bind (runs_srcRds id rs (by rwa [List.map_id])) (runs_stWr hepoch dst (out rows)))

/-- The block of STAGE_WEIGHTS (R312): the rows read, each filled with zeros to a row of the block. -/
def weightBlock (ra n : Nat) (rows : List (List Byte)) : List Byte :=
  (List.range ra).flatMap (fun i => (rows.getD i [] ++ List.replicate n 0).take n)

/-- The block of STAGE_CONV (R317) from the plain elements that its lanes read. -/
def convBlock (g : Conv2d) (e ks kl ms ml lanes : Nat) (x : List (List Byte)) : List Byte :=
  (takeLines ((List.range (ml + lanes - 1)).map (convLine g e ks kl ms ml lanes
    (fun ch y xx => ((g.reads ks kl ms ml).zip (x.map leNat)).lookup (mapOffset g.layout g.c g.h g.w ch y xx))))).flatten

theorem runs_stageRowsWork {src dst pitch m k lanes fl : Nat} {rows : List (List Byte)} (hepoch : o.epoch = none)
    (hsrc : src = leAt o.body 0 8) (hdst : dst = leAt o.body 8 4) (hpitch : pitch = leAt o.body 0xC 4)
    (hm : m = leAt o.body 0x10 2) (hk : k = leAt o.body 0x12 2) (hlanes : lanes = leAt o.body 0x14 2)
    (hfl : fl = leAt o.body 0x16 1) (hm1 : 1 ≤ m) (hm2 : m ≤ 4096) (hlanesOk : lanesOk lanes = true) (hk1 : 1 ≤ k)
    (hk2 : k ≤ lanes) (hflags : fl &&& 0xFA = 0) (hres : leNat (o.body.drop 0x17) = 0) (halign : dst % 64 = 0)
    (hroom : dst + (m + lanes - 1) * lanes * stElem fl ≤ (c.staging h).2)
    (hsource : c.sourceOk h o (stSrc fl) ((List.range m).map (fun i => (src + i * pitch, k * stElem fl))))
    (hread : SourceTo h o (stSrc fl) ((List.range m).map (fun i => (src + i * pitch, k * stElem fl))) c rows d) :
    Runs stageRowsWork { card := c, op := o, h := h, r := r } ()
      { card := d.stWrite h dst 0 (skewed (stElem fl) lanes m rows), op := o, h := h, r := r } := by
  subst hsrc hdst hpitch hm hk hlanes hfl
  refine runs_bind (runs_op _) (runs_bind (runs_check _ _ ?inRange) (runs_bind (runs_stageDest halign hroom)
    (runs_stageReads _ (skewed _ _ _) hepoch hsource hread)))
  simp [hm1, hm2, hlanesOk, hk1, hk2, hflags, hres]

theorem runs_stageWeightsWork {src dst pitch k n ra ca fl : Nat} {rows : List (List Byte)} (hepoch : o.epoch = none)
    (hsrc : src = leAt o.body 0 8) (hdst : dst = leAt o.body 8 4) (hpitch : pitch = leAt o.body 0xC 4)
    (hk : k = leAt o.body 0x10 2) (hn : n = leAt o.body 0x12 2) (hra : ra = leAt o.body 0x14 2)
    (hca : ca = leAt o.body 0x16 2) (hfl : fl = leAt o.body 0x18 1) (hraOk : lanesOk ra = true) (hcaOk : ca = 64 ∨ ca = 128)
    (hk1 : 1 ≤ k) (hk2 : k ≤ ra) (hn1 : 1 ≤ n) (hn2 : n ≤ ca) (hflags : fl &&& 0xFA = 0)
    (hres : leNat (o.body.drop 0x19) = 0) (halign : dst % 64 = 0) (hroom : dst + ra * ca * stElem fl ≤ (c.staging h).2)
    (hsource : c.sourceOk h o (stSrc fl) ((List.range k).map (fun i => (src + i * pitch, n * stElem fl))))
    (hread : SourceTo h o (stSrc fl) ((List.range k).map (fun i => (src + i * pitch, n * stElem fl))) c rows d) :
    Runs stageWeightsWork { card := c, op := o, h := h, r := r } ()
      { card := d.stWrite h dst 0 (weightBlock ra (ca * stElem fl) rows), op := o, h := h, r := r } := by
  subst hsrc hdst hpitch hk hn hra hca hfl
  refine runs_bind (runs_op _) (runs_bind (runs_check _ _ ?inRange) (runs_bind (runs_stageDest halign hroom)
    (runs_stageReads _ (weightBlock _ _) hepoch hsource hread)))
  simp [hraOk, hcaOk, hk1, hk2, hn1, hn2, hflags, hres]

/-- A convolution's block from plain elements: each element read once, the lines built from them (R317). -/
theorem runs_stageConvWork {src dst ks ms ml kl lanes fl : Nat} {g : Conv2d} {x : List (List Byte)} (hepoch : o.epoch = none)
    (hsrc : src = leAt o.body 0 8) (hdst : dst = leAt o.body 8 4) (hks : ks = leAt o.body 0xC 4) (hms : ms = leAt o.body 0x10 4)
    (hml : ml = leAt o.body 0x1A 2) (hkl : kl = leAt o.body 0x1C 2) (hlanes : lanes = leAt o.body 0x1E 2)
    (hfl : fl = leAt o.body 0x25 1)
    (hg : g = ⟨leAt o.body 0x14 2, leAt o.body 0x16 2, leAt o.body 0x18 2, leAt o.body 0x20 1, leAt o.body 0x21 1,
      leAt o.body 0x22 1, leAt o.body 0x23 1, leAt o.body 0x24 1⟩)
    (hgOk : g.ok = true) (hlanesOk : lanesOk lanes = true) (hml1 : 1 ≤ ml) (hml2 : ml ≤ 4096) (hkl1 : 1 ≤ kl)
    (hkl2 : kl ≤ lanes) (hflags : fl &&& 0xF8 = 0) (hplain : nbit fl 1 = false) (hres : leNat (o.body.drop 0x26) = 0)
    (hrows : ms + ml ≤ g.p * g.q) (hcols : ks + kl ≤ g.rk * g.sk * g.ck) (halign : dst % 64 = 0)
    (hroom : dst + (ml + lanes - 1) * lanes * stElem fl ≤ (c.staging h).2)
    (hsource : c.sourceOk h o (stSrc fl) ((g.reads ks kl ms ml).map (fun k => (src + k * stElem fl, stElem fl))))
    (hread : SourceTo h o (stSrc fl) ((g.reads ks kl ms ml).map (fun k => (src + k * stElem fl, stElem fl))) c x d) :
    Runs stageConvWork { card := c, op := o, h := h, r := r } ()
      { card := d.stWrite h dst 0 (convBlock g (stElem fl) ks kl ms ml lanes x), op := o, h := h, r := r } := by
  subst hsrc hdst hks hms hml hkl hlanes hfl hg
  refine runs_bind (runs_op _) (runs_bind (runs_check _ _ ?inRange) (runs_bind (runs_stageDest halign hroom)
    (runs_if_true ?plain (runs_stageReads _ (convBlock _ _ _ _ _ _ _) hepoch hsource hread))))
  case inRange => simp [hgOk, hlanesOk, hml1, hml2, hkl1, hkl2, hflags, hplain, hres, hrows, hcols]
  case plain => simp [hplain]

end

/-- Settles O55: each operation's work runs to its end, and writes the block that its clause names. -/
theorem stageRowsComplete : Obligations.StageRowsComplete := by
  refine ⟨?rows, ?weights, ?conv⟩
  case rows =>
    intro c h r seq c0 d o src dst pitch m k lanes fl rows htaken ⟨hepoch, hstatus⟩ hsrc hdst hpitch hm hk hlanes hfl hm1 hm2
      hlanesOk hk1 hk2 hflags hres halign hroom hsource hread
    exact finishes_of_runs (fun _ => rfl) htaken (runs_stageRowsWork hepoch hsrc hdst hpitch hm hk hlanes hfl hm1 hm2 hlanesOk
      hk1 hk2 hflags hres halign hroom hsource hread) hstatus
  case weights =>
    intro c h r seq c0 d o src dst pitch k n ra ca fl rows htaken ⟨hepoch, hstatus⟩ hsrc hdst hpitch hk hn hra hca hfl hraOk
      hcaOk hk1 hk2 hn1 hn2 hflags hres halign hroom hsource hread
    exact finishes_of_runs (fun _ => rfl) htaken (runs_stageWeightsWork hepoch hsrc hdst hpitch hk hn hra hca hfl hraOk hcaOk
      hk1 hk2 hn1 hn2 hflags hres halign hroom hsource hread) hstatus
  case conv =>
    intro c h r seq c0 d o src dst ks ms ml kl lanes fl g x htaken ⟨hepoch, hstatus⟩ hsrc hdst hks hms hml hkl hlanes hfl hg
      hgOk hlanesOk hml1 hml2 hkl1 hkl2 hflags hplain hres hrows hcols halign hroom hsource hread
    exact finishes_of_runs (fun _ => rfl) htaken (runs_stageConvWork hepoch hsrc hdst hks hms hml hkl hlanes hfl hg hgOk
      hlanesOk hml1 hml2 hkl1 hkl2 hflags hplain hres hrows hcols halign hroom hsource hread) hstatus

end Sys2Proof.Proofs
end

section
/-! The record operations (R382, R395, R396): the work of EMIT and of EMIT_MOTION runs to its end. -/

namespace Sys2Proof.Proofs

open Sys2Proof Sys2Proof.Machine Sys2Proof.Laws

section
variable {c d : Card} {h r : Nat} {o : Op}

/-- What EMIT makes of an image of a settled operation (R382): the flags of the picture that is named, and no epoch. -/
def emitted (pic flags : Nat) (x : List Byte) : List Byte :=
  x.take 1 ++ leBytes 1 (if pic = 0 then leAt x 1 1 else flags) ++ (x.drop 2).take 10 ++ leBytes 2 0 ++ x.drop 14

/-- The records of an EMIT. -/
def emittedAll (n pic flags : Nat) (src : List Byte) : List (List Byte) :=
  (List.range n).map (fun i => emitted pic flags ((src.drop (64 * i)).take 64))

/-- The records of an EMIT_MOTION of a settled operation (R395). -/
def motionTiles (n f st frame refFrame wd ht bs : Nat) (res blk : List Byte) : List (List Byte) :=
  (List.range n).map (fun i =>
    motionTile f st frame refFrame 0 wd ht (2 ^ bs) (nbit f 2) (res.drop (32 * i)) (blk.drop (16 * i)))

theorem runs_emitWork {n : Nat} {src : List Byte} (hepoch : o.epoch = none) (hn : n = leAt o.body 0x10 4)
    (halign : leAt o.body 0 8 % 64 = 0) (hn1 : 1 ≤ n) (hn2 : n ≤ 4096)
    (hpass : c.passes h o.ctx (leAt o.body 0 8) (64 * n) false true)
    (hread : ReadsTo h o [(leAt o.body 0 8, 64 * n)] c [src] d) (hok : ∀ i < n, imageOk (src.drop (64 * i)) = true) :
    Runs emitWork { card := c, op := o, h := h, r := r } ()
      ⟨d, { o with records := emittedAll n (leAt o.body 8 8) (d.picFlags h o.ctx (leAt o.body 8 8)) src }, h, r⟩ := by
  subst hn
  refine runs_bind (runs_op _) (runs_bind (runs_check _ _ ?inRange) (runs_bind (runs_recSources ?pass ?hand)
    (runs_bind (runs_rd hread) (runs_bind (runs_check _ _ ?images) (runs_bind (runs_card _) (runs_bind (runs_hamper _)
      (runs_bind (runs_recEpoch hepoch) (runs_updOp _ _))))))))
  case inRange => simp [halign, hn1, hn2]
  case pass => simpa using hpass
  case hand => simpa using atHand_of_read hread
  case images => simpa using hok

theorem runs_emitMotionWork {n st wd ht bs f : Nat} {res blk : List Byte} (hepoch : o.epoch = none) (hn : n = leAt o.body 0x28 4)
    (hst : st = leAt o.body 0x2C 2) (hwd : wd = leAt o.body 0x2E 2) (hht : ht = leAt o.body 0x30 2)
    (hbs : bs = leAt o.body 0x32 1) (hn1 : 1 ≤ n) (hn2 : n ≤ 65536) (hstream : st < 64 ∨ (0x100 ≤ st ∧ st < 0x110) ∨ st = 0xFFFF)
    (hwidth : 16 ≤ wd ∧ wd ≤ 8192) (hheight : 16 ≤ ht ∧ ht ≤ 8192) (hblock : 3 ≤ bs ∧ bs ≤ 6)
    (hpassRes : c.passes h o.ctx (leAt o.body 0 8) (32 * n) false true)
    (hpassBlk : c.passes h o.ctx (leAt o.body 8 8) (16 * n) false true) (hhand : c.atHand h o (leAt o.body 8 8) (16 * n))
    (hread : ReadsTo h o [(leAt o.body 0 8, 32 * n), (leAt o.body 8 8, 16 * n)] c [res, blk] d)
    (hf : f = d.picFlags h o.ctx (leAt o.body 0x10 8) ||| d.picFlags h o.ctx (leAt o.body 0x18 8)) :
    Runs emitMotionWork { card := c, op := o, h := h, r := r } ()
      ⟨d, { o with records := motionTiles n f st (leAt o.body 0x20 4) (leAt o.body 0x24 4) wd ht bs res blk }, h, r⟩ := by
  subst hn hst hwd hht hbs hf
  obtain ⟨_, _, m, hbytes, hreadRes, hreadBlk⟩ := readsTo_cons hread
  obtain ⟨rfl, rfl⟩ := List.cons.inj hbytes
  refine runs_bind (runs_op _) (runs_bind (runs_check _ _ ?inRange) (runs_bind (runs_recSources ?pass ?hand)
    (runs_bind (runs_rd hreadRes) (runs_bind (runs_rd hreadBlk) (runs_bind (runs_card _) (runs_bind (runs_hamper _)
      (runs_bind (runs_recEpoch hepoch) (runs_updOp _ _))))))))
  case inRange => simp [hn1, hn2, hstream, hwidth, hheight, hblock, or_assoc]
  case pass => simpa using ⟨hpassRes, hpassBlk⟩
  case hand => simpa using ⟨atHand_of_read hread, hhand⟩

end

/-- Settles O60: each operation's work runs to its end, and leaves the records that its clause names. -/
theorem emitRowsComplete : Obligations.EmitRowsComplete := by
  refine ⟨?emit, ?motion⟩
  case emit =>
    intro c h r seq c0 d o n src htaken ⟨hepoch, hstatus⟩ hn halign hn1 hn2 hpass hread hok
    exact finishes_of_runs (fun _ => rfl) htaken (runs_emitWork hepoch hn halign hn1 hn2 hpass hread hok) hstatus
  case motion =>
    intro c h r seq c0 d o n st wd ht bs f res blk htaken ⟨hepoch, hstatus⟩ hn hst hwd hht hbs hn1 hn2 hstream hwidth hheight
      hblock hpassRes hpassBlk hhand hread hf
    exact finishes_of_runs (fun _ => rfl) htaken (runs_emitMotionWork hepoch hn hst hwd hht hbs hn1 hn2 hstream hwidth hheight
      hblock hpassRes hpassBlk hhand hread hf) hstatus

end Sys2Proof.Proofs
end

section
/-! PREPARE (R284, R293, R298): its checks pass, and it starts and goes on sample by sample. -/

namespace Sys2Proof.Proofs

open Sys2Proof Sys2Proof.Machine Sys2Proof.Laws

/-! ### Work that stops short of its end -/

/-- The work stops short of its end, and leaves `y`. -/
def Stops {α : Type} (w : Eng α) (x : Run) (e : Stop) (y : Run) : Prop := w.run.run x = (.error e, y)

theorem stops_bind {α β : Type} {w : Eng α} {f : α → Eng β} {x y z : Run} {a : α} {e : Stop} (hw : Runs w x a y)
    (hf : Stops (f a) y e z) : Stops (w >>= f) x e z := by
  unfold Runs Stops at *
  change (ExceptT.bind w f).run.run x = _
  simp only [ExceptT.bind, ExceptT.mk, ExceptT.run, StateT.run, bind, StateT.bind] at *
  rw [hw]
  exact hf

theorem stops_throw {α : Type} (e : Stop) (x : Run) : Stops (throw e : Eng α) x e x := rfl

theorem stops_if_false {α : Type} {p : Prop} [Decidable p] {w v : Eng α} {x y : Run} {e : Stop} (h : ¬p)
    (hv : Stops v x e y) : Stops (if p then w else v) x e y := by rwa [if_neg h]

/-- A command of an engine whose work goes on step by step leaves its operation on its unit. -/
theorem engine_of_onward {c c0 : Card} {h r seq cls opc : Nat} {o : Op} {w : Eng Unit} {y : Run}
    (htaken : c.takenUp h r seq cls opc = some (c0, o)) (hw : Stops w { card := c0, op := o, h := h, r := r } .onward y) :
    c.engine h r seq cls opc w = y.card.setOp h r y.op := by
  unfold Card.takenUp at htaken
  unfold Card.engine
  cases hrun : c.runnable h r seq cls opc with
  | none => rw [hrun] at htaken; cases htaken
  | some x =>
    obtain ⟨o1, u⟩ := x
    rw [hrun] at htaken
    simp only at htaken ⊢
    split at htaken
    · cases htaken
    · next hshed =>
      rw [if_neg hshed]
      simp only [Option.some.injEq] at htaken
      unfold Stops at hw
      simp only [Card.runFirst, Card.runStep, htaken, hw, Card.applyRun]

/-! ### The operations of a ring -/

theorem ring_of_agree {a b : Card} (hagree : Part.rings.agree a b) (h r : Nat) : b.ring h r = a.ring h r :=
  congrArg (fun t => tabGet ({} : Ring) t (16 * h + r)) hagree.symm

theorem ring_readDone (c : Card) (h ctx va n a b : Nat) : (c.readDone h ctx va n).ring a b = c.ring a b :=
  ring_of_agree ((frame_readDone (fun _ => id) c h ctx va n held_refl .rings).resolve_left (by decide)) a b

theorem ring_startOp (c : Card) (h : Nat) (o : Op) (u a b : Nat) : (c.startOp h o u).1.ring a b = c.ring a b :=
  ring_of_agree ((frame_startOp (fun _ => id) c h o u held_refl .rings).resolve_left (by decide)) a b

/-- Reads leave every ring as it is. -/
theorem ring_of_readsTo {h : Nat} {o : Op} {l : List (Nat × Nat)} {c d : Card} {bs : List (List Byte)}
    (hread : ReadsTo h o l c bs d) (a b : Nat) : d.ring a b = c.ring a b := by
  induction l generalizing c bs with
  | nil => rw [hread.2]
  | cons x t ih =>
    obtain ⟨_, _, -, -, -, -, hrest⟩ := hread
    exact (ih hrest).trans (ring_readDone c h o.ctx x.1 x.2 a b)

theorem startOp_op {c : Card} {h : Nat} {o : Op} {u : Nat} (hstarted : o.started = false) :
    (c.startOp h o u).2 = { o with started := true, unit := u } := by
  unfold Card.startOp
  rw [if_neg (by simp [hstarted])]

/-- The operation that a command takes up is the one that it names, started: its ring is as it was. -/
theorem takenUp_op {c c0 : Card} {h r seq cls opc : Nat} {o o1 : Op} (htaken : c.takenUp h r seq cls opc = some (c0, o))
    (hop : c.opOf h r seq = some o1) (hstarted : o1.started = false) :
    (∃ u, o = { o1 with started := true, unit := u }) ∧ c0.ring h r = c.ring h r := by
  unfold Card.takenUp at htaken
  cases hrun : c.runnable h r seq cls opc with
  | none => rw [hrun] at htaken; cases htaken
  | some x =>
    obtain ⟨o2, u⟩ := x
    have hsame : o2 = o1 := by
      unfold Card.runnable Card.readyOp at hrun
      rw [hop] at hrun
      obtain ⟨o3, hready, hunit⟩ := Option.bind_eq_some_iff.mp hrun
      obtain ⟨_, _, hpair⟩ := Option.map_eq_some_iff.mp hunit
      dsimp only at hready
      split at hready
      · cases hready
      · exact (congrArg Prod.fst hpair).symm.trans (Option.some.inj hready).symm
    subst hsame
    rw [hrun] at htaken
    dsimp only at htaken
    split at htaken
    · cases htaken
    · have hpair := Option.some.inj htaken
      exact ⟨⟨u, (congrArg Prod.snd hpair).symm.trans (startOp_op hstarted)⟩,
        (congrArg (fun x => x.1.ring h r) hpair).symm.trans (ring_startOp c h o2 u h r)⟩

/-- The operation that stands under a sequence number after `o` was put there is `o`. -/
theorem opOf_setOp {c : Card} {h r seq : Nat} {o x : Op} (hseq : o.seq = seq) (hgen : o.gen = (c.ring h r).gen)
    (hx : (c.setOp h r o).opOf h r seq = some x) : x = o := by
  unfold Card.setOp Card.opOf at hx
  rw [ring_setRing_self] at hx
  obtain ⟨hkey, _⟩ := List.find?_eq_some_iff_append.mp hx
  obtain ⟨y, -, hy⟩ := List.mem_map.mp (List.mem_of_find?_eq_some hx)
  split at hy
  · exact hy.symm
  · next hne => subst hy; exact absurd (by simpa [hseq, hgen] using hkey) hne

theorem opOf_key {c : Card} {h r seq : Nat} {o : Op} (hop : c.opOf h r seq = some o) :
    o.seq = seq ∧ o.gen = (c.ring h r).gen := by
  simpa using List.find?_some hop

/-! ### The checks of a PREPARE -/

section
variable {c d : Card} {h r : Nat} {o : Op}

/-- Ranges that pass their pre-check show no REMOTE page. -/
theorem runs_prechecks {x : Run} {l : List (Nat × Nat)} (hpass : ∀ g ∈ l, x.card.passes x.h x.op.ctx g.1 g.2 false false) :
    ∃ vs, Runs (l.mapM fun g => Eng.precheck g.1 g.2 false) x vs x ∧ vs.flatten.any PageView.remote = false := by
  induction l with
  | nil => exact ⟨[], runs_pure _ _, rfl⟩
  | cons g t ih =>
    obtain ⟨v, hv, hremote, -⟩ := runs_precheck (hpass g List.mem_cons_self)
    obtain ⟨vs, hvs, hremotes⟩ := ih fun g' hg' => hpass g' (List.mem_cons_of_mem _ hg')
    refine ⟨v :: vs, ?_, by rw [List.flatten_cons, List.any_append, hremote, hremotes, Bool.or_false]⟩
    rw [List.mapM_cons]
    exact runs_bind hv (runs_bind hvs (runs_pure _ _))

/-- The checks pass for a PREPARE to staging, without identifiers and with no stream to wait on. -/
theorem runs_prepCheck {ts ls : List Byte} {p : Prep} (hrange : prepInRange o.body = true) (hstream : leAt o.body 0x2F 1 = 0xFF)
    (hid : leAt o.body 0x18 8 = 0) (hstaged : leAt o.body 0x25 1 = 1)
    (hpassTable : c.passes h o.ctx (leAt o.body 0 8) (32 * leAt o.body 0x24 1) false false)
    (hpassList : c.passes h o.ctx (leAt o.body 8 8) (16 * leAt o.body 0x20 4) false false)
    (hhand : c.atHand h o (leAt o.body 8 8) (16 * leAt o.body 0x20 4))
    (hread : ReadsTo h o [(leAt o.body 0 8, 32 * leAt o.body 0x24 1), (leAt o.body 8 8, 16 * leAt o.body 0x20 4)] c [ts, ls] d)
    (hp : p = { b := o.body, ts := ts, ls := ls }) (hsrc : p.src.all (srcInRange p.chans) = true)
    (hsmp : p.smp.all (smpInRange p) = true)
    (hsources : ∀ g ∈ p.src.flatMap p.srcRanges, d.passes h o.ctx g.1 g.2 false false ∧ d.atHand h o g.1 g.2)
    (hroom : p.dst + p.count * p.bytes ≤ (d.staging h).2) :
    Runs prepCheck { card := c, op := o, h := h, r := r } p { card := d, op := o, h := h, r := r } := by
  subst hp
  obtain ⟨_, _, m, hbytes, hreadTable, hreadList⟩ := readsTo_cons hread
  obtain ⟨rfl, rfl⟩ := List.cons.inj hbytes
  obtain ⟨_, htable, -, -⟩ := runs_precheck (x := ⟨c, o, h, r⟩) hpassTable
  obtain ⟨_, hlist, -, -⟩ := runs_precheck (x := ⟨c, o, h, r⟩) hpassList
  obtain ⟨vs, hpages, hremote⟩ := runs_prechecks (x := ⟨d, o, h, r⟩) (fun g hg => (hsources g hg).1)
  refine runs_bind (runs_op _) (runs_bind (runs_check _ _ hrange) (runs_bind htable (runs_bind hlist
    (runs_bind (runs_want (atHand_of_read hread)) (runs_bind (runs_want hhand) (runs_bind (runs_rd hreadTable)
      (runs_bind (runs_rd hreadList) (runs_bind (runs_check _ _ ?entries) (runs_bind hpages (runs_if_false ?noRemote
        (runs_if_true ?toStaging (runs_bind (runs_pure _ _) (runs_if_true hid (runs_bind (runs_pure _ _)
          (runs_if_false ?noRemoteDst (runs_if_false ?noPicture (runs_bind (runs_card _) (runs_bind (runs_hamper _)
            (runs_bind (runs_op _) (runs_bind (runs_check _ _ ?fits) (runs_if_false (not_not_intro hstream)
              (runs_bind (runs_wants fun g hg => (hsources g hg).2) (runs_pure _ _)))))))))))))))))))))))
  case entries => rw [hsrc, hsmp]; rfl
  case noRemote => simp [hremote]
  case toStaging => simp [Prep.staged, hstaged]
  case noRemoteDst => simp
  case noPicture => simp [Prep.staged, hstaged]
  case fits => exact Bool.or_eq_true_iff.mpr (.inr (decide_eq_true hroom))

/-- The operation of a PREPARE that has started, its samples in their order. -/
def prepStarted (o : Op) (p : Prep) (order : List Nat) : Op :=
  { o with rest := p.ts ++ (p.order order).flatMap (fun i => (p.ls.drop (16 * i)).take 16), passes := 0 }

/-- A PREPARE that waits on no stream starts once its checks pass. -/
theorem stops_prepareWork {p : Prep} {order : List Nat} {x y : Run} (hcheck : Runs prepCheck x p y)
    (hstream : leAt p.b 0x2F 1 = 0xFF) :
    Stops (prepareWork order) x .onward { y with op := prepStarted y.op p order } :=
  stops_bind hcheck (stops_bind (runs_card _) (stops_bind (runs_hamper _) (stops_bind (runs_op _)
    (stops_if_false (not_not_intro hstream) (stops_bind (runs_updOp _ _) (stops_throw _ _))))))

end

/-- Settles O57: the checks pass, the work starts, and the operation is not held. -/
theorem shaperRowsComplete : Obligations.ShaperRowsComplete := by
  intro c h r seq order c0 c1 o o1 ts ls p hop hstarted htaken hplain hrange hstream hid hstaged hpassTable hpassList hhand
    hread hp hsrc hsmp hsources hroom q
  have hcheck : Runs prepCheck ⟨c0, o, h, r⟩ p ⟨c1, o, h, r⟩ := runs_prepCheck hrange hstream hid hstaged hpassTable
    hpassList hhand hread hp hsrc hsmp hsources hroom
  have hbody : leAt p.b 0x2F 1 = 0xFF := by rw [hp]; exact hstream
  have hengine := engine_of_onward htaken (stops_prepareWork (order := order) hcheck hbody)
  obtain ⟨⟨u, ho⟩, hring0⟩ := takenUp_op htaken hop hstarted
  have hring : c1.ring h r = c.ring h r := (ring_of_readsTo hread h r).trans hring0
  obtain ⟨hseq, hgen⟩ := opOf_key hop
  have hnotHeld : ((c1.setOp h r (prepStarted o p order)).opOf h r seq).any
      (fun x => x.cls == 2 && x.held && !o1.held) = false := by
    rw [Bool.eq_false_iff, Ne, Option.any_eq_true]
    rintro ⟨x, hx, hheld⟩
    rw [opOf_setOp (by subst ho; exact hseq) (by subst ho; exact hgen.trans (by rw [hring])) hx, ho] at hheld
    simp only [prepStarted, Bool.and_eq_true, Bool.not_eq_true'] at hheld
    exact Bool.noConfusion (hheld.1.2.symm.trans hheld.2)
  have hexec : ∀ s, exec (.prepare h r seq order) s = s.run fun c => match c.opOf h.val r.val seq with
      | none => c
      | some o =>
        let c' := c.engine h.val r.val seq 2 0x01 (if o.started then throw .stay else prepareWork order)
        if (c'.opOf h.val r.val seq).any (fun x => x.cls == 2 && x.held && !o.held) then c.progHold h.val r.val o else c' :=
    fun _ => rfl
  rw [hexec, State.run]
  simp only [hop, hstarted, Bool.false_eq_true, ↓reduceIte, hengine, hnotHeld]
  subst hp
  rfl

end Sys2Proof.Proofs
end

section
/-! A PREPARE's step (R284, R286, R289): one sample from a TENSOR source, made and written. -/

namespace Sys2Proof.Proofs

open Sys2Proof Sys2Proof.Machine Sys2Proof.Laws

section
variable {c d : Card} {h r : Nat} {o : Op} {p : Prep} {s : Src} {q : Smp}

/-- Work that reads one range for every item of a list, and answers what it makes of the bytes. -/
theorem runs_mapM_rd {α β : Type} {w : α → Eng β} (f : α → Nat × Nat) (k : List Byte → β)
    (hw : ∀ a c d b, ReadsTo h o [f a] c [b] d → Runs (w a) ⟨c, o, h, r⟩ (k b) ⟨d, o, h, r⟩) {l : List α} {bs : List (List Byte)}
    (hread : ReadsTo h o (l.map f) c bs d) : Runs (l.mapM w) ⟨c, o, h, r⟩ (bs.map k) ⟨d, o, h, r⟩ := by
  induction l generalizing c bs with
  | nil => obtain ⟨rfl, rfl⟩ := hread; exact runs_pure _ _
  | cons a t ih =>
    obtain ⟨b, rest, m, rfl, hfirst, hrest⟩ := readsTo_cons hread
    rw [List.mapM_cons, List.map_cons]
    exact runs_bind (hw a c m b hfirst) (runs_bind (ih hrest) (runs_pure _ _))

/-- The place of a TENSOR source's elements for an output position (R286). -/
def tensorAt (p : Prep) (s : Src) (g : Nat × Nat) : Nat × Nat := (s.base + g.2 * s.pitch + g.1 * p.c * p.e, p.c * p.e)

/-- The elements of one position, from their bytes. -/
def tensorElems (p : Prep) (bs : List Byte) : List Nat := (List.range p.c).map (fun k => leAt bs (k * p.e) p.e)

theorem runs_elems_tensor {g : Nat × Nat} {b : List Byte} (hfmt : s.fmt = 8) (hread : ReadsTo h o [tensorAt p s g] c [b] d) :
    Runs (Eng.elems p s q g.1 g.2) ⟨c, o, h, r⟩ (tensorElems p b) ⟨d, o, h, r⟩ :=
  runs_if_true hfmt (runs_bind (runs_rd hread) (runs_pure _ _))

/-- The positions of a sample's elements in raster order. -/
def positions (p : Prep) : List (Nat × Nat) := (List.range p.oh).flatMap (fun y => (List.range p.ow).map (fun x => (x, y)))

theorem positions_map_tensorAt : (positions p).map (tensorAt p s) = (List.range p.oh).flatMap (fun y =>
    (List.range p.ow).map (fun x => (s.base + y * s.pitch + x * p.c * p.e, p.c * p.e))) := by
  simp [positions, List.map_flatMap, Function.comp_def, tensorAt]

/-- The card after a sample is written to staging at a position, and counted. -/
def sampleStored (d : Card) (h : Nat) (p : Prep) (pos : Nat) (pads : Bool) (px : List (List Nat)) : Card :=
  ((d.stWrite h (p.dst + pos * p.bytes) 0 (p.laidOut px)).bump (hp h 0x80008) 1).bumpF (hp h 0x8000C) 31 0 (b2n pads)

theorem pads_tensor (hfmt : s.fmt = 8) : p.pads s q = false := by simp [Prep.pads, hfmt]

theorem runs_sampleWork_tensor {pos idx : Nat} {px : List (List Byte)} (hepoch : o.epoch = none) (hq : p.smp[idx]? = some q)
    (hs : p.src[q.src]? = some s) (hfmt : s.fmt = 8) (hstaged : p.staged = true) (hid : p.idVa = 0)
    (hread : ReadsTo h o ((positions p).map (tensorAt p s)) c px d) :
    Runs (sampleWork p pos idx) ⟨c, o, h, r⟩ () ⟨sampleStored d h p pos (p.pads s q) (px.map (tensorElems p)), o, h, r⟩ := by
  unfold sampleWork sampleStored
  simp only [hq, hs]
  exact runs_bind (runs_mapM_rd (tensorAt p s) (tensorElems p) (fun _ _ _ _ => runs_elems_tensor hfmt) hread)
    (runs_if_true hstaged (runs_bind (runs_stWr hepoch _ _) (runs_if_false (not_not_intro hid) (runs_bind (runs_hamper _)
      (runs_upd _ _)))))

/-- A step of a PREPARE whose sample is written moves the rotation and the operation on. -/
theorem runs_sampleStep (hwork : Runs (sampleWork o.prep o.passes o.passes) ⟨c, o, h, r⟩ () ⟨d, o, h, r⟩) :
    ∃ turns u, Runs sampleStep ⟨c, o, h, r⟩ () ⟨{ d with rot := turns }, { o with passes := o.passes + 1, unit := u }, h, r⟩ :=
  ⟨_, _, runs_bind (runs_op _) (runs_bind (runs_hamper _) (runs_bind hwork (runs_bind (runs_card _) (runs_bind (runs_upd _ _)
    (runs_bind (runs_card _) (runs_updOp _ _))))))⟩

/-- A step of an operation's work that runs to its end, the last or not. -/
theorem runStep_of_runs {w : Eng Unit} {last : Op → Bool} {y : Run} (hw : Runs w ⟨c, o, h, r⟩ () y) :
    c.runStep h r o w last = y.card.setOp h r (if last y.op then y.op.ran y.op.status y.op.detail y.op.ext else y.op) := by
  unfold Runs at hw
  unfold Card.runStep
  rw [hw]
  dsimp only [Card.applyRun]
  split <;> rfl

end

/-- Settles O30: the elements read are laid out and written, and the step ends the operation when none is left. -/
theorem tensorSampleIsWritten : Obligations.TensorSampleIsWritten := by
  intro c d h r o p s q px ⟨hepoch, hstatus⟩ hcls hp hq hs hfmt hstaged hid hread
  subst hp
  rw [← positions_map_tensorAt] at hread
  obtain ⟨turns, u, hstep⟩ := runs_sampleStep (runs_sampleWork_tensor (pos := o.passes) (r := r.val) hepoch hq hs hfmt hstaged
    hid hread)
  rw [pads_tensor hfmt] at hstep
  refine ⟨_, turns, u, rfl, (runStep_of_runs hstep).trans (congrArg (Card.setOp _ h.val r.val) ?_)⟩
  have hleft : (Op.left { o with passes := o.passes + 1, unit := u } == 0) = decide (leAt o.body 0x20 4 ≤ o.passes + 1) := by
    rw [Bool.eq_iff_iff, beq_iff_eq, decide_eq_true_iff, Op.left, if_neg (by rw [hcls]; decide), Nat.sub_eq_zero_iff_le]
  dsimp only
  rw [hleft]
  simp only [decide_eq_true_eq, hstatus]

end Sys2Proof.Proofs
end

section
/-! The whisk's operations (R335 to R337, R342, R344) on operands in staging: each reads its operands, and then writes staging
alone. -/

namespace Sys2Proof.Proofs

open Sys2Proof Sys2Proof.Machine Sys2Proof.Laws

/-! ### Work that keeps the operation -/

/-- From a card of `P` the work runs to its end, keeps the operation, and leaves a card of `Q`. -/
def Goes (h r : Nat) (o : Op) {α : Type} (P : Card → Prop) (w : Eng α) (Q : Card → Prop) : Prop :=
  ∀ c, P c → ∃ a d, Runs w ⟨c, o, h, r⟩ a ⟨d, o, h, r⟩ ∧ Q d

section
variable {h r : Nat} {o : Op} {α β : Type} {P Q R : Card → Prop}

theorem goes_pure (a : α) : Goes h r o P (pure a) P := fun c hc => ⟨a, c, runs_pure _ _, hc⟩

theorem goes_bind {w : Eng α} {f : α → Eng β} (hw : Goes h r o P w Q) (hf : ∀ a, Goes h r o Q (f a) R) :
    Goes h r o P (w >>= f) R := by
  intro c hc
  obtain ⟨a, d, hrun, hd⟩ := hw c hc
  obtain ⟨b, e, hrest, he⟩ := hf a d hd
  exact ⟨b, e, runs_bind hrun hrest, he⟩

theorem goes_of_imp {w : Eng α} (hPQ : ∀ c, P c → Q c) (hw : Goes h r o Q w R) : Goes h r o P w R := fun c hc => hw c (hPQ c hc)

/-- Work that leaves everything as it is gives what comes next its answer. -/
theorem goes_bind_same {w : Eng α} {f : α → Eng β} (a : α) (hw : ∀ c, P c → Runs w ⟨c, o, h, r⟩ a ⟨c, o, h, r⟩)
    (hf : Goes h r o P (f a) R) : Goes h r o P (w >>= f) R := by
  intro c hc
  obtain ⟨b, e, hrest, he⟩ := hf c hc
  exact ⟨b, e, runs_bind (hw c hc) hrest, he⟩

theorem goes_card {f : Card → Eng β} (hf : ∀ c, Goes h r o P (f c) R) : Goes h r o P (Eng.card >>= f) R :=
  goes_bind (fun c hc => ⟨c, c, runs_card _, hc⟩) hf

theorem goes_hamper {f : Nat → Eng β} (hf : Goes h r o P (f h) R) : Goes h r o P (Eng.hamper >>= f) R :=
  goes_bind_same h (fun _ _ => runs_hamper _) hf

theorem goes_upd {f : Card → Card} (hf : ∀ c, P c → Q (f c)) : Goes h r o P (Eng.upd f) Q :=
  fun c hc => ⟨(), f c, runs_upd _ _, hf c hc⟩

theorem goes_ite {p : Prop} [Decidable p] {w v : Eng α} (hw : p → Goes h r o P w Q) (hv : ¬p → Goes h r o P v Q) :
    Goes h r o P (if p then w else v) Q := by
  split
  · exact hw ‹_›
  · exact hv ‹_›

theorem goes_mapM {f : α → Eng β} {l : List α} (hf : ∀ a ∈ l, Goes h r o P (f a) P) : Goes h r o P (l.mapM f) P := by
  induction l with
  | nil => exact goes_pure _
  | cons a t ih =>
    rw [List.mapM_cons]
    exact goes_bind (hf a List.mem_cons_self) fun _ =>
      goes_bind (ih fun b hb => hf b (List.mem_cons_of_mem _ hb)) fun _ => goes_pure _

theorem goes_forIn_of_yields {g : α → PUnit → Eng (ForInStep PUnit)} {l : List α}
    (hg : ∀ a ∈ l, ∀ c, P c → ∃ d, Runs (g a PUnit.unit) ⟨c, o, h, r⟩ (.yield PUnit.unit) ⟨d, o, h, r⟩ ∧ P d) :
    Goes h r o P (forIn l PUnit.unit g) P := by
  induction l with
  | nil => exact goes_pure _
  | cons a t ih =>
    intro c hc
    obtain ⟨d, hrun, hd⟩ := hg a List.mem_cons_self c hc
    obtain ⟨u, e, hrest, he⟩ := ih (fun b hb => hg b (List.mem_cons_of_mem _ hb)) d hd
    rw [List.forIn_cons]
    exact ⟨u, e, runs_bind hrun hrest, he⟩

theorem goes_forIn {f : α → Eng Unit} {l : List α} (hf : ∀ a ∈ l, Goes h r o P (f a) P) :
    Goes h r o P (forIn l PUnit.unit fun a _ => do f a; pure (ForInStep.yield PUnit.unit)) P :=
  goes_forIn_of_yields fun a ha c hc => by
    obtain ⟨_, d, hrun, hd⟩ := hf a ha c hc
    exact ⟨d, runs_bind hrun (runs_pure _ _), hd⟩

/-- A loop whose every turn leaves everything as it is does so. -/
theorem runs_forIn_yields {g : α → PUnit → Eng (ForInStep PUnit)} {x : Run} {l : List α}
    (hg : ∀ a ∈ l, Runs (g a PUnit.unit) x (.yield PUnit.unit) x) : Runs (forIn l PUnit.unit g) x PUnit.unit x := by
  induction l with
  | nil => exact runs_pure _ _
  | cons a t ih =>
    rw [List.forIn_cons]
    exact runs_bind (hg a List.mem_cons_self) (ih fun b hb => hg b (List.mem_cons_of_mem _ hb))

theorem runs_forIn_same {f : α → Eng Unit} {x : Run} {l : List α} (hf : ∀ a ∈ l, Runs (f a) x () x) :
    Runs (forIn l PUnit.unit fun a _ => do f a; pure (ForInStep.yield PUnit.unit)) x PUnit.unit x :=
  runs_forIn_yields fun a ha => runs_bind (hf a ha) (runs_pure _ _)

end

/-! ### What the whisk keeps -/

/-- The memory is `m`. -/
def HasMem (m : List Host.Cell) (c : Card) : Prop := c.mem = m

/-- The memory is `m`, and hamper `h`'s staging is clean and where and as large as `st` says. -/
def Readable (h : Nat) (m : List Host.Cell) (st : Nat × Nat) (c : Card) : Prop :=
  c.mem = m ∧ c.staging h = st ∧ c.stagingClean h

section
variable {h r : Nat} {o : Op} {m : List Host.Cell} {st : Nat × Nat}

theorem mem_stWrite (c : Card) (h off e : Nat) (bs : List Byte) : (c.stWrite h off e bs).mem = c.mem :=
  ((frame_stWrite (fun _ => id) c h off e bs held_refl .mem).resolve_left (by decide)).symm

theorem mem_wkCount (c : Card) (h : Nat) (n : WkCount) : (c.wkCount h n).mem = c.mem :=
  ((frame_wkCount (fun _ => id) c h n held_refl .mem).resolve_left (by decide)).symm

theorem goes_stWr (hepoch : o.epoch = none) (off : Nat) (bs : List Byte) :
    Goes h r o (HasMem m) (Eng.stWr off bs) (HasMem m) :=
  fun c hc => ⟨(), _, runs_stWr hepoch off bs, (mem_stWrite c h off 0 bs).trans hc⟩

theorem goes_wkWr {d : Desc} (hepoch : o.epoch = none) (hstaging : d.staging = true) (off : Nat) (bs : List Byte) :
    Goes h r o (HasMem m) (Eng.wkWr d off bs) (HasMem m) := by
  unfold Eng.wkWr
  rw [if_pos hstaging]
  exact goes_stWr hepoch _ _

theorem goes_wkPut {d : Desc} (hepoch : o.epoch = none) (hstaging : d.staging = true) (amax : Option Nat) (i : Nat)
    (xs : List Nat) : Goes h r o (HasMem m) (Eng.wkPut d amax i xs) (HasMem m) :=
  goes_hamper (goes_card fun _ => goes_bind (goes_upd fun c hc => (mem_wkCount c.draw h _).trans hc) fun _ =>
    goes_wkWr hepoch hstaging _ _)

theorem goes_stRd (off n : Nat) : Goes h r o (Readable h m st) (Eng.stRd off n) (Readable h m st) :=
  fun c hc => ⟨_, c, runs_stRd hc.2.2 off n, hc⟩

theorem goes_wkRd {d : Desc} (hstaging : d.staging = true) (off n : Nat) (dst : Option (Bool × Nat × Nat)) :
    Goes h r o (Readable h m st) (Eng.wkRd d off n dst) (Readable h m st) := by
  refine goes_bind (Q := Readable h m st) ?source fun bs => ?clash
  case source =>
    rw [hstaging]
    exact goes_stRd _ _
  case clash =>
    cases dst with
    | none => exact goes_pure _
    | some x =>
      exact goes_ite (fun _ => goes_card fun _ => goes_bind (goes_upd fun c hc => hc) fun _ => goes_pure _) fun _ => goes_pure _

theorem goes_wkRow {d : Desc} (hstaging : d.staging = true) (cols i : Nat) (dst : Option (Bool × Nat × Nat)) :
    Goes h r o (Readable h m st) (Eng.wkRow d cols i dst) (Readable h m st) :=
  goes_bind (goes_wkRd hstaging _ _ dst) fun _ => goes_pure _

/-! ### The checks (R344) -/

theorem runs_wkStaging {c : Card} {d : Desc} {n : Nat} (hroom : d.addr + n ≤ (c.staging h).2) :
    Runs (Eng.wkStaging d n) ⟨c, o, h, r⟩ () ⟨c, o, h, r⟩ :=
  runs_bind (runs_card _) (runs_bind (runs_hamper _) (runs_check _ _ (Bool.or_eq_true_iff.mpr (.inr (decide_eq_true hroom)))))

theorem runs_wkPages {x : Run} {d : Desc} (hstaging : d.staging = true) (rows cols : Nat) (write : Bool) :
    Runs (Eng.wkPages d rows cols write) x () x :=
  runs_if_true hstaging (runs_pure _ _)

theorem runs_wkCheck {c : Card} {ok : Bool} {l : List (Desc × Nat × Nat × Bool)} (hok : ok = true)
    (hl : ∀ x ∈ l, x.1.staging = true ∧ x.1.addr + x.1.extent x.2.1 x.2.2.1 ≤ (c.staging h).2) :
    Runs (Eng.wkCheck ok l) ⟨c, o, h, r⟩ () ⟨c, o, h, r⟩ :=
  runs_bind (runs_check _ _ hok) (runs_bind (runs_forIn_same fun x hx => runs_wkStaging (hl x hx).2)
    (runs_bind (runs_forIn_same fun x hx => runs_wkPages (hl x hx).1 _ _ _) (runs_pure _ _)))

/-- The parameter part of an operation's body (R343). -/
def wkBodyOf (b : List Byte) : WkBody :=
  { rows := leAt b 0 4, cols := leAt b 4 4, fn := leAt b 8 1, param := leAt b 0xC 4, a := descAt b 0x10, b := descAt b 0x20,
    d := (descAt b 0x30).dest }

theorem runs_wkBody (x : Run) : Runs Eng.wkBody x (wkBodyOf x.op.body) x := runs_bind (runs_op x) (runs_pure _ _)

theorem runs_wkSize {x : Run} {w : WkBody} (hrows : 1 ≤ w.rows ∧ w.rows < 2 ^ 24) (hcols : 1 ≤ w.cols ∧ w.cols ≤ 65536)
    (hres : leAt x.op.body 9 3 = 0) : Runs (Eng.wkSize w) x true x := by
  refine runs_bind (runs_op x) ?_
  have hall : (decide (1 ≤ w.rows) && decide (w.rows < 2 ^ 24) && decide (1 ≤ w.cols) && decide (w.cols ≤ 65536) &&
      leAt x.op.body 9 3 == 0) = true := by
    simp only [hrows, hcols, hres, decide_true, Bool.and_self, BEq.rfl]
  rw [← hall]
  exact runs_pure _ _

/-! ### MAP -/

theorem hasMem_of_readable {c : Card} (hc : Readable h m st c) : HasMem m c := hc.1

theorem goes_mapWork {w : WkBody} (hepoch : o.epoch = none) (hw : w = wkBodyOf o.body) (hrows : 1 ≤ w.rows ∧ w.rows < 2 ^ 24)
    (hcols : 1 ≤ w.cols ∧ w.cols ≤ 65536) (hres : leAt o.body 9 3 = 0) (hfn : w.fn ≤ 14) (ha : w.a.ok w.cols false = true)
    (hd : w.d.ok w.cols true = true) (hzc : w.d.zc = false) (hs2 : (w.d.narrow && w.d.s2Tensor) = false)
    (hb : if binaryFn w.fn then w.b.ok w.cols false = true ∧ w.b.staging = true ∧ w.b.addr + w.b.extent w.rows w.cols ≤ st.2
      else w.b.none_ = true)
    (hastage : w.a.staging = true) (haroom : w.a.addr + w.a.extent w.rows w.cols ≤ st.2) (hdstage : w.d.staging = true)
    (hdroom : w.d.addr + w.d.extent w.rows w.cols ≤ st.2) : Goes h r o (Readable h m st) mapWork (HasMem m) := by
  subst hw
  refine goes_bind_same _ (fun _ _ => runs_wkBody _) (goes_bind_same true (fun _ _ => runs_wkSize hrows hcols hres)
    (goes_bind_same () (fun c hc => runs_wkCheck ?inRange ?operands) ?work))
  case inRange =>
    by_cases hbin : binaryFn (wkBodyOf o.body).fn = true
    · rw [if_pos hbin] at hb
      simp [hfn, ha, hd, hzc, hbin, hb]
    · rw [if_neg hbin] at hb
      simp [hfn, ha, hd, hzc, hbin, hs2, hb]
  case operands =>
    rw [hc.2.1]
    by_cases hbin : binaryFn (wkBodyOf o.body).fn = true
    · rw [if_pos hbin] at hb
      simp [hbin, hs2, hb, hastage, haroom, hdstage, hdroom]
    · simp [hbin, hs2, hastage, haroom, hdstage, hdroom]
  case work =>
    have hbstage : binaryFn (wkBodyOf o.body).fn = true → (wkBodyOf o.body).b.staging = true := fun hbin => by
      rw [if_pos hbin] at hb
      exact hb.2.1
    refine goes_ite (fun hs => absurd hs (by simp [hs2])) fun _ => goes_bind (goes_pure none) fun amax =>
      goes_bind (goes_mapM fun i _ => goes_bind (goes_wkRow hastage _ _ _) fun xs => goes_ite
        (fun hbin => goes_bind (goes_wkRow (hbstage hbin) _ _ _) fun _ => goes_pure _)
        fun _ => goes_bind (goes_pure _) fun _ => goes_pure _) fun ys => goes_ite (fun hs => absurd hs (by simp [hzc])) fun _ =>
          goes_of_imp (fun _ => hasMem_of_readable) (goes_bind (goes_forIn fun x _ => goes_wkPut hepoch hdstage _ _ _) fun _ =>
            goes_pure _)

/-! ### REDUCE -/

/-- The results of an ARGMAX are written. -/
theorem goes_argPuts {d : Desc} (hepoch : o.epoch = none) (hstaging : d.staging = true) (l : List ((Nat × Nat) × Nat)) :
    Goes h r o (HasMem m) (do
      for x in l do
        let c ← Eng.card
        Eng.upd (fun c => c.draw)
        Eng.wkWr d (x.2 * d.pitch) (leBytes 4 (argBits c x.1))) (HasMem m) :=
  goes_bind (goes_forIn_of_yields fun x _ c hc => by
    obtain ⟨_, e, hrun, he⟩ := goes_wkWr hepoch hstaging (x.2 * d.pitch) (leBytes 4 (argBits c x.1)) c.draw hc
    exact ⟨e, runs_bind (runs_card _) (runs_bind (runs_upd _ _) (runs_bind hrun (runs_pure _ _))), he⟩) fun _ => goes_pure _

theorem goes_reduceWork {w : WkBody} {d : Desc} (hepoch : o.epoch = none) (hw : w = wkBodyOf o.body)
    (hdest : d = if w.fn % 128 = 5 then { w.d with fmt := 7 } else w.d) (hrows : 1 ≤ w.rows ∧ w.rows < 2 ^ 24)
    (hcols : 1 ≤ w.cols ∧ w.cols ≤ 65536) (hres : leAt o.body 9 3 = 0) (hfn : w.fn % 128 ≤ 5) (ha : w.a.ok w.cols false = true)
    (hb : w.b.none_ = true) (hwd : w.d.ok 1 false = true) (hd : d.ok 1 false = true)
    (hs2 : (w.d.narrow && w.d.s2Tensor) = false) (hastage : w.a.staging = true)
    (haroom : w.a.addr + w.a.extent w.rows w.cols ≤ st.2) (hdstage : d.staging = true)
    (hdroom : d.addr + d.extent (if nbit w.fn 7 then 1 else w.rows) 1 ≤ st.2) :
    Goes h r o (Readable h m st) reduceWork (HasMem m) := by
  subst hw hdest
  refine goes_bind_same _ (fun _ _ => runs_wkBody _) (goes_bind_same true (fun _ _ => runs_wkSize hrows hcols hres)
    (goes_bind_same () (fun c hc => runs_wkCheck ?inRange ?operands) (goes_bind
      (goes_mapM fun i _ => goes_wkRow hastage _ _ _) fun rows => goes_of_imp (fun _ => hasMem_of_readable)
        (goes_ite (fun _ => goes_argPuts hepoch hdstage _) fun _ => goes_bind (goes_forIn fun x _ =>
          goes_wkPut hepoch hdstage _ _ _) fun _ => goes_pure _))))
  case inRange => simp [hfn, ha, hb, hwd, hd, hs2]
  case operands =>
    rw [hc.2.1]
    simp [hastage, haroom, hdstage, hdroom]

/-! ### NORM -/

/-- The rest of a NORM's work, once the first row of B is at hand. -/
theorem goes_normRows {w : WkBody} (hepoch : o.epoch = none) (hastage : w.a.staging = true) (hdstage : w.d.staging = true)
    (hbstage : w.fn ≠ 0 → w.b.staging = true) (dst : Option (Bool × Nat × Nat)) (b0 : List Nat) :
    Goes h r o (Readable h m st) (do
      let b1 ← if w.fn = 1 then Eng.wkRow w.b w.cols 1 dst else pure []
      let rows ← (List.range w.rows).mapM (fun i => Eng.wkRow w.a w.cols i dst)
      for x in rows.zipIdx do Eng.wkPut w.d none x.2 (normRow w.fn w.param b0 b1 x.1)) (HasMem m) := by
  have hrows : ∀ b1, Goes h r o (Readable h m st) (do
      let rows ← (List.range w.rows).mapM (fun i => Eng.wkRow w.a w.cols i dst)
      for x in rows.zipIdx do Eng.wkPut w.d none x.2 (normRow w.fn w.param b0 b1 x.1)) (HasMem m) := fun b1 =>
    goes_bind (goes_mapM fun i _ => goes_wkRow hastage _ _ _) fun rows => goes_of_imp (fun _ => hasMem_of_readable)
      (goes_bind (goes_forIn fun x _ => goes_wkPut hepoch hdstage _ _ _) fun _ => goes_pure _)
  exact goes_ite (fun hone => goes_bind (goes_wkRow (hbstage (by omega)) _ _ _) hrows)
    fun _ => goes_bind (goes_pure _) hrows

theorem goes_normWork {w : WkBody} (hepoch : o.epoch = none) (hw : w = wkBodyOf o.body) (hrows : 1 ≤ w.rows ∧ w.rows < 2 ^ 24)
    (hcols : 1 ≤ w.cols ∧ w.cols ≤ 65536) (hres : leAt o.body 9 3 = 0) (hfn : w.fn ≤ 2) (ha : w.a.ok w.cols false = true)
    (hb : if w.fn = 0 then w.b.none_ = true else w.b.ok w.cols false = true ∧ w.b.staging = true ∧
      w.b.addr + w.b.extent (if w.fn = 1 then 2 else 1) w.cols ≤ st.2)
    (hd : w.d.ok w.cols false = true) (hs2 : (w.d.narrow && w.d.s2Tensor) = false) (hastage : w.a.staging = true)
    (haroom : w.a.addr + w.a.extent w.rows w.cols ≤ st.2) (hdstage : w.d.staging = true)
    (hdroom : w.d.addr + w.d.extent w.rows w.cols ≤ st.2) : Goes h r o (Readable h m st) normWork (HasMem m) := by
  subst hw
  have hbstage : (wkBodyOf o.body).fn ≠ 0 → (wkBodyOf o.body).b.staging = true := fun hne => by
    rw [if_neg hne] at hb
    exact hb.2.1
  refine goes_bind_same _ (fun _ _ => runs_wkBody _) (goes_bind_same true (fun _ _ => runs_wkSize hrows hcols hres)
    (goes_bind_same () (fun c hc => runs_wkCheck ?inRange ?operands) ?work))
  case inRange =>
    by_cases hzero : (wkBodyOf o.body).fn = 0
    · rw [if_pos hzero] at hb
      simp [ha, hd, hs2, hzero, hb]
    · rw [if_neg hzero] at hb
      simp [hfn, ha, hd, hs2, hzero, hb]
  case operands =>
    rw [hc.2.1]
    by_cases hzero : (wkBodyOf o.body).fn = 0
    · simp [hzero, hastage, haroom, hdstage, hdroom]
    · rw [if_neg hzero] at hb
      simp [hzero, hb, hastage, haroom, hdstage, hdroom]
  case work =>
    exact goes_ite (fun _ => goes_bind (goes_pure _) (goes_normRows hepoch hastage hdstage hbstage _))
      fun hne => goes_bind (goes_wkRow (hbstage hne) _ _ _) (goes_normRows hepoch hastage hdstage hbstage _)

/-! ### DWCONV -/

/-- A descriptor of DWCONV in staging (R343): a plain format but INT4, and aligned. -/
def dwOperand (x : Desc) : Prop :=
  x.rsv = true ∧ x.fmt ≤ 7 ∧ x.fmt ≠ 1 ∧ x.addr % max 1 (elemBits x.fmt / 8) = 0 ∧ x.staging = true

theorem goes_dwWork {g : Conv2d} {cout groups : Nat} {a w d : Desc} (hepoch : o.epoch = none) (hcout : cout = leAt o.body 6 2)
    (hgroups : groups = leAt o.body 0xC 2)
    (hg : g = ⟨leAt o.body 0 2, leAt o.body 2 2, leAt o.body 4 2, leAt o.body 8 1, leAt o.body 9 1, leAt o.body 0xA 1,
      leAt o.body 0xB 1, leAt o.body 0xE 1⟩)
    (ha : a = descAt o.body 0x20) (hw : w = descAt o.body 0x30) (hd : d = (descAt o.body 0x40).dest) (hgOk : g.ok = true)
    (hcoutOk : 1 ≤ cout ∧ cout ≤ 8192) (hgroupsOk : 1 ≤ groups ∧ groups ≤ 8192) (hpost : leAt o.body 0xF 1 ≤ 1)
    (hres : leAt o.body 0x14 12 = 0) (hdiv : g.c % groups = 0 ∧ cout % groups = 0)
    (hcig : 1 ≤ g.c / groups ∧ g.c / groups ≤ 16) (hcog : 1 ≤ cout / groups ∧ cout / groups ≤ 16)
    (haOk : dwOperand a) (hwOk : dwOperand w) (hdOk : dwOperand d) (hint : fmtInt a.fmt = fmtInt w.fmt)
    (haroom : a.addr + layChans g.layout g.c * g.h * g.w * elemBits a.fmt / 8 ≤ st.2)
    (hwroom : w.addr + cout * g.rk * g.sk * (g.c / groups) * elemBits w.fmt / 8 ≤ st.2)
    (hdroom : d.addr + ceilDiv (layChans g.layout cout * g.p * g.q * elemBits d.fmt) 8 ≤ st.2) :
    Goes h r o (Readable h m st) dwWork (HasMem m) := by
  subst hcout hgroups hg ha hw hd
  obtain ⟨harsv, hafmt, hane, haalign, hastage⟩ := haOk
  obtain ⟨hwrsv, hwfmt, hwne, hwalign, hwstage⟩ := hwOk
  obtain ⟨hdrsv, hdfmt, hdne, hdalign, hdstage⟩ := hdOk
  have hplain : (descAt o.body 0x40).dest.zc = false := by
    simp only [Desc.zc, Bool.or_eq_false_iff, beq_eq_false_iff_ne]
    omega
  refine goes_bind_same o (fun _ _ => runs_op _) (goes_bind_same () (fun c hc => runs_check _ _ ?inRange)
    (goes_bind_same () (fun c hc => runs_wkStaging ?aRoom) (goes_bind_same () (fun c hc => runs_wkStaging ?wRoom)
      (goes_bind_same () (fun c hc => runs_wkStaging ?dRoom) (goes_bind_same () (fun c hc => runs_forIn_yields ?pages)
        (goes_bind (goes_wkRd hastage _ _ _) fun xs => goes_bind (goes_wkRd hwstage _ _ _) fun ws => goes_card fun c0 =>
          goes_of_imp (fun _ => hasMem_of_readable) (goes_bind (Q := HasMem m) (goes_upd fun c hc => hc) fun _ =>
            goes_ite (fun hzc => absurd hzc (by simp [hplain])) fun _ => ?write)))))))
  case inRange =>
    simp [hgOk, hcoutOk, hgroupsOk, hpost, hres, hdiv, hcig, hcog, harsv, hafmt, hane, haalign, hwrsv, hwfmt, hwne, hwalign,
      hint, hdrsv, hplain, hdfmt, hdalign]
  case aRoom => rw [hc.2.1]; exact haroom
  case wRoom => rw [hc.2.1]; exact hwroom
  case dRoom => rw [hc.2.1, if_neg (by simp [hplain])]; exact hdroom
  case pages =>
    intro x hx
    have hstage : x.1.staging = true := by
      simp only [List.mem_cons, List.not_mem_nil, or_false] at hx
      rcases hx with rfl | rfl | rfl
      exacts [hastage, hwstage, hdstage]
    exact runs_if_true hstage (runs_bind (runs_pure _ _) (runs_pure _ _))
  case write =>
    exact goes_hamper (goes_bind (goes_upd fun c hc => (mem_wkCount c h _).trans hc) fun _ => goes_wkWr hepoch hdstage _ _)

end

/-- A command whose meaning is an engine's finishes an operation whose work only writes staging, and keeps the memory. -/
theorem finishes_of_goes {i : Instr} {c c0 : Card} {h r seq cls opc : Nat} {o : Op} {w : Eng Unit}
    (hi : ∀ s, exec i s = s.run fun c => c.engine h r seq cls opc w) (htaken : c.takenUp h r seq cls opc = some (c0, o))
    (hstatus : o.status = stDone) (hclean : c0.stagingClean h)
    (hw : Goes h r o (Readable h c0.mem (c0.staging h)) w (HasMem c0.mem)) :
    ∃ d, Finishes i c h r d o ∧ d.mem = c0.mem := by
  obtain ⟨_, d, hrun, hmem⟩ := hw c0 ⟨rfl, rfl, hclean⟩
  exact ⟨d, finishes_of_runs hi htaken hrun hstatus, hmem⟩

/-- Settles O58: each operation reads its operands from staging, writes its results there, and ends. -/
theorem whiskRowsComplete : Obligations.WhiskRowsComplete := by
  refine ⟨?map, ?reduce, ?norm, ?dwconv⟩
  case map =>
    intro c h r seq c0 o w htaken ⟨hepoch, hstatus⟩ hw hrows hcols hres hfn ha hd hzc hs2 hb hastage haroom hdstage hdroom hclean
    exact finishes_of_goes (fun _ => rfl) htaken hstatus hclean (goes_mapWork hepoch hw hrows hcols hres hfn ha hd hzc hs2 hb
      hastage haroom hdstage hdroom)
  case reduce =>
    intro c h r seq c0 o w d htaken ⟨hepoch, hstatus⟩ hw hdest hrows hcols hres hfn ha hb hwd hd hs2 hastage haroom hdstage
      hdroom hclean
    exact finishes_of_goes (fun _ => rfl) htaken hstatus hclean (goes_reduceWork hepoch hw hdest hrows hcols hres hfn ha hb hwd
      hd hs2 hastage haroom hdstage hdroom)
  case norm =>
    intro c h r seq c0 o w htaken ⟨hepoch, hstatus⟩ hw hrows hcols hres hfn ha hb hd hs2 hastage haroom hdstage hdroom hclean
    exact finishes_of_goes (fun _ => rfl) htaken hstatus hclean (goes_normWork hepoch hw hrows hcols hres hfn ha hb hd hs2
      hastage haroom hdstage hdroom)
  case dwconv =>
    intro c h r seq c0 o g cout groups a w d htaken ⟨hepoch, hstatus⟩ hcout hgroups hg ha hw hd hgOk hcoutOk hgroupsOk hpost hres
      hdiv hcig hcog hplain hint haroom hwroom hdroom hclean
    exact finishes_of_goes (fun _ => rfl) htaken hstatus hclean (goes_dwWork hepoch hcout hgroups hg ha hw hd hgOk hcoutOk
      hgroupsOk hpost hres hdiv hcig hcog (hplain a (by simp)) (hplain w (by simp)) (hplain d (by simp)) hint haroom hwroom
      hdroom)

end Sys2Proof.Proofs
end

section
/-! The track scheduler's operations (R355, R357, R358, R361, R365): the work of STEP, UPDATE, SWAP and WITHDRAW runs to its end. -/

namespace Sys2Proof.Proofs

open Sys2Proof Sys2Proof.Machine Sys2Proof.Laws

/-! ### The track schedulers' part of the card -/

@[simp] theorem tracker_setTracker_self (c : Card) (h : Nat) (t : Tracker) : (c.setTracker h t).tracker h = t :=
  tabGet_put_self _ _ _ _

theorem tracker_of_agree {a b : Card} (hagree : Part.tracks.agree a b) (h : Nat) : b.tracker h = a.tracker h :=
  congrArg (fun t => tabGet ({} : Tracker) t h) hagree.symm

@[simp] theorem tracker_bump (c : Card) (k n h : Nat) : (c.bump k n).tracker h = c.tracker h := rfl

theorem tracker_semApply (c : Card) (g op val h : Nat) : (c.semApply g op val).tracker h = c.tracker h :=
  tracker_of_agree ((frame_semApply (fun _ => id) c g op val held_refl .tracks).resolve_left (by decide)) h

theorem tracker_readDone (c : Card) (h ctx va n a : Nat) : (c.readDone h ctx va n).tracker a = c.tracker a :=
  tracker_of_agree ((frame_readDone (fun _ => id) c h ctx va n held_refl .tracks).resolve_left (by decide)) a

theorem tracker_mapOps (c : Card) (h : Nat) (f : Nat → Op → Op) (a : Nat) : (c.mapOps h f).tracker a = c.tracker a :=
  tracker_of_agree ((frame_mapOps (fun _ => id) c h f held_refl .tracks).resolve_left (by decide)) a

theorem tracker_of_readsTo {h : Nat} {o : Op} {l : List (Nat × Nat)} {c d : Card} {bs : List (List Byte)}
    (hread : ReadsTo h o l c bs d) (a : Nat) : d.tracker a = c.tracker a := by
  induction l generalizing c bs with
  | nil => rw [hread.2]
  | cons x t ih =>
    obtain ⟨_, _, -, -, -, -, hrest⟩ := hread
    exact (ih hrest).trans (tracker_readDone c h o.ctx x.1 x.2 a)

/-- A request that has no entry left. -/
def reqDone (q : StepReq) : Bool := q.entries.isEmpty && q.open_ == 0

/-- A finished request's DONE_SEM is signalled, or kept for when its epoch settles (R357, R360). -/
def signalDone (h : Nat) (c : Card) (q : StepReq) : Card :=
  if q.doneSem = 0xFFFF then c
  else if c.unsettled h q.epoch then
    c.setTracker h { c.tracker h with pendingSigs := (c.tracker h).pendingSigs ++ [(q.epoch, 4096 * h + q.doneSem, q.frame + 1)] }
  else c.semApply (4096 * h + q.doneSem) 0 (q.frame + 1)

theorem settleReqs_eq (c : Card) (h : Nat) : c.settleReqs h = ((c.tracker h).reqs.filter reqDone).foldl (signalDone h)
    (c.setTracker h { c.tracker h with reqs := (c.tracker h).reqs.filter (fun q => !reqDone q) }) := rfl

theorem tracker_signalDone (h : Nat) (c : Card) (q : StepReq) :
    ∃ sigs, (signalDone h c q).tracker h = { c.tracker h with pendingSigs := sigs } := by
  unfold signalDone
  split
  · exact ⟨_, rfl⟩
  · split
    · exact ⟨_, tracker_setTracker_self _ _ _⟩
    · exact ⟨_, tracker_semApply _ _ _ _ _⟩

theorem tracker_foldl_signalDone (h : Nat) (l : List StepReq) (c : Card) :
    ∃ sigs, (l.foldl (signalDone h) c).tracker h = { c.tracker h with pendingSigs := sigs } := by
  induction l generalizing c with
  | nil => exact ⟨_, rfl⟩
  | cons q t ih =>
    obtain ⟨s, hs⟩ := ih (signalDone h c q)
    obtain ⟨s', hs'⟩ := tracker_signalDone h c q
    exact ⟨s, hs.trans (by rw [hs'])⟩

/-- Settling requests takes out those that are finished, and keeps the rest of the scheduler but its held signals. -/
theorem tracker_settleReqs (c : Card) (h : Nat) : ∃ sigs, (c.settleReqs h).tracker h =
    { c.tracker h with reqs := (c.tracker h).reqs.filter (fun q => !reqDone q), pendingSigs := sigs } := by
  obtain ⟨s, hs⟩ := tracker_foldl_signalDone h ((c.tracker h).reqs.filter reqDone)
    (c.setTracker h { c.tracker h with reqs := (c.tracker h).reqs.filter (fun q => !reqDone q) })
  rw [← settleReqs_eq, tracker_setTracker_self] at hs
  exact ⟨s, hs⟩

theorem batch_settleReqs (c : Card) (h : Nat) : ((c.settleReqs h).tracker h).batch = (c.tracker h).batch := by
  obtain ⟨_, hs⟩ := tracker_settleReqs c h
  rw [hs]

theorem batch_closeBatch (c : Card) (h : Nat) : ((c.closeBatch h).tracker h).batch = none := by
  unfold Card.closeBatch
  split
  · assumption
  · rw [tracker_mapOps, tracker_setTracker_self]

theorem batch_finishBatch (c : Card) (h : Nat) (b : Batch) : ((c.finishBatch h b).tracker h).batch = none := by
  unfold Card.finishBatch
  rw [batch_settleReqs, batch_closeBatch]

theorem unsettled_zero (c : Card) (h : Nat) : c.unsettled h 0 = false := rfl

theorem runs_join_zero {e : Nat} (x : Run) (he : e = 0) : Runs (Eng.join e) x () x :=
  runs_bind (runs_card x) (runs_bind (runs_hamper x) (runs_bind (runs_op x) (runs_if_true he (runs_pure _ _))))

section
variable {c d : Card} {h r : Nat} {o o' : Op}

/-! ### STEP -/

/-- The scheduler with a request added. -/
def withReq (t : Tracker) (q : StepReq) : Tracker := { t with nextReq := t.nextReq + 1, reqs := t.reqs ++ [q] }

/-- A step request registered (R365). -/
def stepAdded (c : Card) (h : Nat) (q : StepReq) (missed : Nat) : Card :=
  ((c.setTracker h (withReq (c.tracker h) q)).bump (hp h 0xB0028) missed).settleReqs h

theorem tracker_stepAdded (c : Card) (h : Nat) (q : StepReq) (missed : Nat) :
    ((stepAdded c h q missed).tracker h).nextReq = (c.tracker h).nextReq + 1 ∧
      (q.entries ≠ [] → q ∈ ((stepAdded c h q missed).tracker h).reqs) := by
  obtain ⟨_, hs⟩ := tracker_settleReqs ((c.setTracker h (withReq (c.tracker h) q)).bump (hp h 0xB0028) missed) h
  rw [tracker_bump, tracker_setTracker_self] at hs
  unfold stepAdded
  rw [hs]
  refine ⟨rfl, fun hne => List.mem_filter.mpr ⟨List.mem_append.mpr (.inr (List.mem_singleton.mpr rfl)), ?_⟩⟩
  simp [reqDone, hne]

/-- The request that a STEP without an epoch registers. -/
def stepReq (c : Card) (h r : Nat) (o : Op) (es : List StepEntry) : StepReq :=
  { order := (c.tracker h).nextReq, ring := r, fnNum := o.fnNum, ctx := o.ctx, lc := c.ringClass h r == 1,
    stream := leAt o.body 0x14 2, frame := leAt o.body 0x10 4, epoch := leAt o.body 0x1A 2, doneSem := leAt o.body 0x1C 2,
    entries := es, open_ := 0 }

theorem runs_stepWork {dets leaves : List Byte} {nd nl : Nat} {es : List StepEntry × Nat} (hnd : nd = leAt o.body 0x16 2)
    (hnl : nl = leAt o.body 0x18 2) (hready : c.tracksReady h) (hrange : stepInRange o.body = true)
    (hplain : c.plainRange h o.ctx (leAt o.body 0 8) (32 * nd) false = true) (hepoch : leAt o.body 0x1A 2 = 0)
    (hsem : leAt o.body 0x1C 2 = 0xFFFF ∨ ∀ x, c.ringVf h r = some x → c.vfHasSem h x (leAt o.body 0x1C 2) = true)
    (hroom : (c.tracker h).reqs.length < 256) (hhand : c.atHand h o (leAt o.body 8 8) (4 * nl))
    (hread : ReadsTo h o [(leAt o.body 0 8, 32 * nd), (leAt o.body 8 8, 4 * nl)] c [dets, leaves] d)
    (hdets : ∀ i < nd, leAt dets (32 * i + 0x10) 4 % 64 = 0 ∧ leAt dets (32 * i + 0x10) 4 + 992 ≤ (c.staging h).2 ∧
      leNat ((dets.drop (32 * i + 0x14)).take 12) = 0)
    (hes : es = c.stepEntries h o.ctx (leAt o.body 0x14 2) ((List.range nl).map (fun i => leAt leaves (4 * i) 4))
      ((List.range nd).map (fun i => (dets.drop (32 * i)).take 32))) :
    Runs stepWork ⟨c, o, h, r⟩ () ⟨stepAdded d h (stepReq d h r o es.1) es.2, o, h, r⟩ := by
  subst hnd hnl hes
  obtain ⟨_, _, m, hbytes, hreadDets, hreadLeaves⟩ := readsTo_cons hread
  obtain ⟨rfl, rfl⟩ := List.cons.inj hbytes
  refine runs_bind (runs_op _) (runs_bind (runs_hamper _) (runs_bind (runs_ring _) (runs_bind (runs_card _)
    (runs_bind (runs_trackReady ?inRange hready) (runs_if_false ?notCancelled (runs_bind (runs_check _ _ ?sem)
      (runs_if_false ?notFull (runs_bind (runs_join_zero _ hepoch) (runs_bind (runs_wants ?hand) (runs_bind (runs_rd hreadDets)
        (runs_bind (runs_check _ _ ?places) (runs_bind (runs_rd hreadLeaves) (runs_upd _ _)))))))))))))
  case inRange => simp [hrange, hplain, hepoch]
  case notCancelled => simp [hepoch]
  case sem =>
    rcases hsem with hsem | hsem
    · simp [hsem]
    · cases hvf : c.ringVf h r with
      | none => simp
      | some v => simp [hsem v hvf]
  case notFull => simp [Card.stepWaits]; omega
  case hand => simpa using ⟨atHand_of_read hread, hhand⟩
  case places => simpa [and_assoc] using hdets

/-! ### UPDATE -/

/-- The work runs to its end, and leaves a card and an operation of `P`. -/
def Reaches {α : Type} (w : Eng α) (x : Run) (P : Card → Op → Prop) : Prop :=
  ∃ a d o', Runs w x a ⟨d, o', x.h, x.r⟩ ∧ P d o'

theorem reaches_bind {α β : Type} {w : Eng α} {f : α → Eng β} {x y : Run} {a : α} {P : Card → Op → Prop} (hw : Runs w x a y)
    (hf : Reaches (f a) y P) (hh : y.h = x.h := by rfl) (hr : y.r = x.r := by rfl) : Reaches (w >>= f) x P := by
  obtain ⟨b, d, o', hrun, hP⟩ := hf
  exact ⟨b, d, o', runs_bind hw (hh ▸ hr ▸ hrun), hP⟩

theorem runs_of_card_bind {β : Type} {f : Card → Eng β} {x y : Run} {b : β} (hrun : Runs (Eng.card >>= f) x b y) :
    Runs (f x.card) x b y := hrun

theorem runs_of_hamper_bind {β : Type} {f : Nat → Eng β} {x y : Run} {b : β} (hrun : Runs (Eng.hamper >>= f) x b y) :
    Runs (f x.h) x b y := hrun

theorem runs_of_op_bind {β : Type} {f : Op → Eng β} {x y : Run} {b : β} (hrun : Runs (Eng.op >>= f) x b y) :
    Runs (f x.op) x b y := hrun

theorem runs_wrUnder_none {va : Nat} {bs : List Byte} {a b : Card × Op} (hepoch : a.2.epoch = none)
    (hwrite : WriteTo h r va bs a b) : Runs (Eng.wrUnder none va bs) ⟨a.1, a.2, h, r⟩ () ⟨b.1, b.2, h, r⟩ := by
  have hwr := runs_of_op_bind (runs_of_hamper_bind (runs_of_card_bind (runs_wr hepoch hwrite)))
  dsimp only at hwr
  rwa [hepoch, Option.filter_none] at hwr

/-- What a position was before its update (R354). -/
def beforeUpdate (c : Card) (h : Nat) (p : BatchPos) : TrackNow :=
  if p.kind = 2 then { half := 1 } else ((c.tracker h).track p.idx).now

/-- A position is updated with one new token written and one record. -/
theorem reaches_updatePos {b : Batch} {p : BatchPos} {resOff stateOff kvOff i base stride tok cap : Nat} {m : Card × Op}
    (hepoch : o.epoch = none) (hgeom : c.kvGeom h = (base, stride, tok, cap)) (hclean : c.stagingClean h)
    (hwrite : WriteTo h r (base + p.idx * stride + ((beforeUpdate c h p).first + (beforeUpdate c h p).len) % cap * tok)
      (c.sramRd h ((c.staging h).1 + (kvOff + roundUp tok 64 * i)) tok) (c, o) m) :
    Reaches (updatePos b resOff stateOff kvOff i p) ⟨c, o, h, r⟩ fun _ o' =>
      o'.records.length = o.records.length + 1 ∧ o'.status = o.status := by
  have hop : m.2.records = o.records ∧ m.2.status = o.status := by
    obtain ⟨-, -, -, rfl⟩ := hwrite
    exact ⟨rfl, rfl⟩
  have hbefore : beforeUpdate c h p = if (p.kind == 2) = true then { half := 1 } else ((c.tracker h).track p.idx).now := by
    simp [beforeUpdate]
  rw [hbefore] at hwrite
  have hwr := runs_wrUnder_none (a := (c, o)) hepoch hwrite
  refine reaches_bind (runs_hamper _) (reaches_bind (runs_card _) ?work)
  dsimp only
  rw [hgeom]
  dsimp only
  refine reaches_bind (runs_stRd hclean _ _) (reaches_bind (runs_stRd hclean _ _) (reaches_bind (runs_stRd hclean _ _)
    (reaches_bind hwr (reaches_bind (runs_upd _ _) (reaches_bind (runs_upd _ _) ⟨(), _, _, runs_updOp _ _, ?_⟩)))))
  simp [hop]

theorem reaches_updateWork {b : Batch} {p : BatchPos} {base stride tok cap : Nat} {m : Card × Op} (hepoch : o.epoch = none)
    (hready : c.tracksReady h) (hres : leAt o.body 0xC 4 = 0) (hbatch : (c.tracker h).batch = some b)
    (hopen : b.withdrawn = false) (hsettled : b.epoch = 0) (hpos : b.pos = [p]) (hgeom : c.kvGeom h = (base, stride, tok, cap))
    (hresRoom : leAt o.body 0 4 + 32 ≤ (c.staging h).2) (hstateRoom : leAt o.body 4 4 + 1024 ≤ (c.staging h).2)
    (hkvRoom : leAt o.body 8 4 + roundUp tok 64 ≤ (c.staging h).2) (hclean : c.stagingClean h)
    (hwrite : WriteTo h r (base + p.idx * stride + ((beforeUpdate c h p).first + (beforeUpdate c h p).len) % cap * tok)
      (c.sramRd h ((c.staging h).1 + leAt o.body 8 4) tok) (c, o) m) :
    Reaches updateWork ⟨c, o, h, r⟩ fun d o' =>
      o'.records.length = o.records.length + 1 ∧ o'.status = o.status ∧ (d.tracker h).batch = none := by
  obtain ⟨⟨⟩, d, o', hupdate, hrecords, hstatus⟩ := reaches_updatePos (b := b) (resOff := leAt o.body 0 4)
    (stateOff := leAt o.body 4 4) (kvOff := leAt o.body 8 4) (i := 0) hepoch hgeom hclean hwrite
  refine ⟨(), d.finishBatch h b, o', runs_bind (runs_op _) (runs_bind (runs_hamper _) (runs_bind (runs_card _) ?work)), hrecords,
    hstatus, batch_finishBatch d h b⟩
  dsimp only
  rw [hbatch]
  dsimp only
  rw [hgeom]
  have hpositions : Runs (forIn b.pos.zipIdx PUnit.unit fun x _ => do
      updatePos b (leAt o.body 0 4) (leAt o.body 4 4) (leAt o.body 8 4) x.2 x.1
      pure (ForInStep.yield PUnit.unit)) ⟨c, o, h, r⟩ PUnit.unit ⟨d, o', h, r⟩ := by
    simp only [hpos, List.zipIdx_cons, List.zipIdx_nil, List.forIn_cons, List.forIn_nil]
    exact runs_bind (runs_bind hupdate (runs_pure _ _)) (runs_pure _ _)
  refine runs_bind (runs_trackReady ?inRange hready) (runs_if_false (by simp [hopen]) (runs_bind (runs_join_zero _ hsettled)
    (runs_bind hpositions (runs_upd (fun c => c.finishBatch h b) ⟨d, o', h, r⟩))))
  simp [hres, hpos, hresRoom, hstateRoom, hkvRoom]

/-! ### SWAP -/

/-- The pieces of a weight set are read and written (R358). -/
theorem runs_forIn_swap {src dst : Nat} {l : List (Nat × Nat)} {a b : Card × Op} (hcopies : CopiesTo h r src dst l a b)
    (hepoch : a.2.epoch = none) :
    Runs (forIn l PUnit.unit fun k _ => do
        let bs ← Eng.rd (src + k.1) k.2
        Eng.wr (dst + k.1) bs
        pure (ForInStep.yield PUnit.unit)) ⟨a.1, a.2, h, r⟩ PUnit.unit ⟨b.1, b.2, h, r⟩ := by
  induction l generalizing a with
  | nil => subst hcopies; exact runs_pure _ _
  | cons k t ih =>
    obtain ⟨-, m, bs, d, hread, hwrite, hrest⟩ := hcopies
    obtain ⟨hkept, -⟩ := writeTo_epoch hwrite
    rw [List.forIn_cons]
    exact runs_bind (runs_bind (runs_rd hread) (runs_bind (runs_wr (a := (d, a.2)) hepoch hwrite) (runs_pure _ _)))
      (ih hrest (hkept.trans hepoch))

theorem runs_swapWork {src n : Nat} (hepoch : o.epoch = none) (hsrc : src = leAt o.body 0 8) (hn : n = leAt o.body 8 4)
    (hready : c.tracksReady h) (halign : n % 64 = 0) (hmax : n ≤ 0x4000000) (hres : leAt o.body 0xC 4 = 0)
    (hplain : c.plainRange h o.ctx src n true = true) (hbatch : (c.tracker h).batch = none) (hhand : c.atHand h o src n)
    (hcopies : CopiesTo h r src (c.pair (hp h 0xB0018) (hp h 0xB001C)) (chunks n) (c, o) (d, o')) :
    Runs swapWork ⟨c, o, h, r⟩ () ⟨d.setN (hp h 0xB0020) ((d.reg (hp h 0xB0020)).toNat + 1), o', h, r⟩ := by
  subst hsrc hn
  refine runs_bind (runs_op _) (runs_bind (runs_hamper _) (runs_bind (runs_card _) (runs_bind (runs_trackReady ?inRange hready)
    (runs_if_false (by simp [hbatch]) (runs_bind (runs_want hhand) (runs_bind (runs_forIn_swap hcopies hepoch)
      (runs_upd _ _)))))))
  simp [halign, hmax, hres, hplain]

/-! ### WITHDRAW -/

theorem runs_withdrawWork {e : Nat} (he : e = leAt o.body 0 2) (hready : c.tracksReady h) (hne : e ≠ 0)
    (hres : leNat (o.body.drop 2) = 0) (hunsettled : c.unsettled h e = true) (hroom : c.retractRoom h e (some r) = true)
    (hd : d = c.withdrawEpoch h e 3 (some r)) :
    Runs withdrawWork ⟨c, o, h, r⟩ () ⟨if (c.epochOf h e).stream < 64
      then d.bump (hp h (0x6101C + 0x40 * (c.epochOf h e).stream)) 1 else d, o, h, r⟩ := by
  subst he hd
  refine runs_bind (runs_op _) (runs_bind (runs_hamper _) (runs_bind (runs_ring _) (runs_bind (runs_card _)
    (runs_bind (runs_trackReady (by simp [hne, hres]) hready) (runs_bind (runs_check _ _ hunsettled)
      (runs_if_false (by simp [hroom]) (runs_bind (runs_upd _ _) ?counted)))))))
  by_cases hstream : (c.epochOf h (leAt o.body 0 2)).stream < 64
  · rw [if_pos hstream, if_pos hstream]
    exact runs_upd _ _
  · rw [if_neg hstream, if_neg hstream]
    exact runs_pure _ _

end

end Sys2Proof.Proofs
end

section
/-! BATCH (R355, R356, R367, R372): it gathers its positions into staging, writes its table, and opens the batch. -/

namespace Sys2Proof.Proofs

open Sys2Proof Sys2Proof.Machine Sys2Proof.Laws

/-! ### A card whose staging a BATCH has written -/

/-- The card with other SRAM, errors in it, and tags of staging lines. -/
def withSram (c : Card) (sram : List Host.Cell) (bad : Tab Bool) (tags : Tab Nat) : Card :=
  { c with sram := sram, sramBad := bad, stTag := tags }

/-- The card `c0` with other SRAM: hamper `h`'s has no error, and its staging no line of an epoch but `e`. -/
def Gathered (c0 : Card) (h e : Nat) (c : Card) : Prop :=
  ∃ sram bad tags, c = withSram c0 sram bad tags ∧ (∀ x ∈ bad, x.1 / 2 ^ 23 ≠ h) ∧
    ∀ off, tabGet 0 tags (stLine h off) = 0 ∨ tabGet 0 tags (stLine h off) = e

section
variable {c c0 : Card} {h r e : Nat} {o : Op}

theorem gathered_self (hclean : c0.stagingClean h) : Gathered c0 h e c0 :=
  ⟨_, _, _, rfl, hclean.1, fun off => .inl (hclean.2 off)⟩

theorem tracker_of_gathered (hc : Gathered c0 h e c) (a : Nat) : c.tracker a = c0.tracker a := by
  obtain ⟨_, _, _, rfl, -, -⟩ := hc
  rfl

theorem translate_of_gathered (hc : Gathered c0 h e c) (a ctx va : Nat) : c.translate a ctx va = c0.translate a ctx va := by
  obtain ⟨_, _, _, rfl, -, -⟩ := hc
  rfl

theorem region_of_gathered (hc : Gathered c0 h e c) (ctx reg d n : Nat) : c.region ctx reg d n = c0.region ctx reg d n := by
  obtain ⟨_, _, _, rfl, -, -⟩ := hc
  rfl

theorem anyLost_of_gathered (hc : Gathered c0 h e c) (x : RegionEnt) (d n : Nat) : c.anyLost x d n = c0.anyLost x d n := by
  obtain ⟨_, _, _, rfl, -, -⟩ := hc
  rfl

theorem firstFree_of_gathered (hc : Gathered c0 h e c) (a p fuel i : Nat) : c.firstFree a p fuel i = c0.firstFree a p fuel i := by
  induction fuel generalizing i with
  | zero => rfl
  | succ n ih =>
    unfold Card.firstFree
    rw [ih]
    obtain ⟨_, _, _, rfl, -, -⟩ := hc
    rfl

theorem heldVa_of_gathered (hc : Gathered c0 h e c) (a ctx : Nat) (write : Bool) (va n : Nat) :
    c.heldVa a ctx write va n = c0.heldVa a ctx write va n := by
  unfold Card.heldVa
  simp only [firstFree_of_gathered hc]
  obtain ⟨_, _, _, rfl, -, -⟩ := hc
  rfl

theorem sramWr_eq (c : Card) (h : Nat) (bs : List Byte) (off : Nat) :
    ∃ sram, c.sramWr h off bs = withSram c sram c.sramBad c.stTag := by
  induction bs generalizing c off with
  | nil => exact ⟨_, rfl⟩
  | cons b t ih =>
    obtain ⟨s, hs⟩ := ih { c with sram := tabPut 0 c.sram (h * 2 ^ 26 + off) b } (off + 1)
    exact ⟨s, hs⟩

/-- A write of staging changes the SRAM, takes errors away, and tags its lines. -/
theorem stWrite_eq (c : Card) (h off e : Nat) (bs : List Byte) : ∃ sram bad, (∀ x ∈ bad, x ∈ c.sramBad) ∧
    c.stWrite h off e bs = withSram c sram bad ((stLines off bs.length).foldl (fun t l => tabPut 0 t (stLine h l) e) c.stTag) := by
  obtain ⟨sram, hsram⟩ := sramWr_eq c h bs ((c.staging h).1 + off)
  unfold Card.stWrite Card.sramPut
  rw [hsram]
  exact ⟨sram, _, fun x hx => List.mem_of_mem_filter hx, rfl⟩

/-- Lines tagged with `e` leave every line without a tag, or tagged `e`. -/
theorem tags_foldl {lines : List Nat} {tags : Tab Nat}
    (htags : ∀ off, tabGet 0 tags (stLine h off) = 0 ∨ tabGet 0 tags (stLine h off) = e) (off : Nat) :
    tabGet 0 (lines.foldl (fun t l => tabPut 0 t (stLine h l) e) tags) (stLine h off) = 0 ∨
      tabGet 0 (lines.foldl (fun t l => tabPut 0 t (stLine h l) e) tags) (stLine h off) = e := by
  induction lines generalizing tags with
  | nil => exact htags off
  | cons l t ih =>
    refine ih fun off' => ?_
    by_cases hline : stLine h off' = stLine h l
    · rw [hline, tabGet_put_self]
      exact .inr rfl
    · rw [tabGet_put_ne _ _ hline]
      exact htags off'

theorem gathered_stWrite (hc : Gathered c0 h e c) (off : Nat) (bs : List Byte) : Gathered c0 h e (c.stWrite h off e bs) := by
  obtain ⟨sram', bad', hkept, hwritten⟩ := stWrite_eq c h off e bs
  obtain ⟨sram, bad, tags, rfl, hbad, htags⟩ := hc
  exact ⟨sram', bad', _, hwritten, fun x hx => hbad x (hkept x hx), tags_foldl htags⟩

/-! ### Gathering (R356) -/

theorem goes_card_of {α : Type} {P Q : Card → Prop} {f : Card → Eng α} (hf : ∀ c, P c → Goes h r o P (f c) Q) :
    Goes h r o P (Eng.card >>= f) Q := by
  intro c hc
  obtain ⟨a, d, hrun, hd⟩ := hf c hc c hc
  exact ⟨a, d, runs_bind (runs_card _) hrun, hd⟩

theorem goes_stPut (off : Nat) (bs : List Byte) : Goes h r o (Gathered c0 h e) (Eng.stPut e off bs) (Gathered c0 h e) :=
  goes_hamper (goes_upd fun _ hc => gathered_stWrite hc off bs)

theorem goes_sram (off n : Nat) : Goes h r o (Gathered c0 h e) (Eng.sram off n) (Gathered c0 h e) := by
  intro c hc
  have herr : c.sramErr h off n = false := by
    obtain ⟨_, _, _, rfl, hbad, -⟩ := hc
    rw [Card.sramErr, List.any_eq_false]
    intro x hx
    rw [beq_false_of_ne (hbad x hx), Bool.false_and]
    exact Bool.false_ne_true
  exact ⟨_, c, runs_bind (runs_card _) (runs_bind (runs_hamper _) (runs_bind (runs_ring _) (runs_bind (runs_op _)
    (runs_if_false (by simp [herr]) (runs_pure _ _))))), hc⟩

theorem goes_stGather (off n : Nat) : Goes h r o (Gathered c0 h e) (Eng.stGather e off n) (Gathered c0 h e) := by
  refine goes_card_of fun c hc => goes_hamper (goes_bind_same PUnit.unit (fun d _ => runs_forIn_yields fun l _ => ?_)
    (goes_sram _ _))
  have htag : tabGet 0 c.stTag (stLine h l) = 0 ∨ tabGet 0 c.stTag (stLine h l) = e := by
    obtain ⟨_, _, _, rfl, -, htags⟩ := hc
    exact htags l
  by_cases htag_e : tabGet 0 c.stTag (stLine h l) = e
  · exact runs_if_false (not_not_intro htag_e) (runs_pure _ _)
  · have hzero := htag.resolve_right htag_e
    refine runs_if_true htag_e (runs_if_false ?_ (runs_bind (runs_join_zero _ hzero) (runs_pure _ _)))
    rw [hzero, unsettled_zero]
    exact fun hbound => Bool.false_ne_true hbound.2

theorem goes_gatherRest {f : Nat → Eng (List Byte)} (stateOff kvOff maskOff : Nat) (state mask : List Byte)
    (kv : List (List Byte) → List Byte) : Goes h r o (Gathered c0 h e) (do
      let toks ← (List.range 0).mapM f
      Eng.stPut e stateOff state
      Eng.stPut e kvOff (kv toks)
      Eng.stPut e maskOff mask) (Gathered c0 h e) :=
  goes_bind (goes_mapM fun _ hj => absurd hj List.not_mem_nil) fun _ => goes_bind (goes_stPut _ _) fun _ =>
    goes_bind (goes_stPut _ _) fun _ => goes_stPut _ _

/-- A position is gathered whose track, if it has one, holds no token. -/
theorem goes_gatherPos {p : Option BatchPos} (stateOff kvOff maskOff i : Nat)
    (hempty : ∀ q ∈ p, q.kind = 2 ∨ ((c0.tracker h).track q.idx).now.len = 0) :
    Goes h r o (Gathered c0 h e) (gatherPos e stateOff kvOff maskOff i p) (Gathered c0 h e) := by
  refine goes_hamper (goes_card_of fun c hc => ?_)
  rcases hgeom : c.kvGeom h with ⟨base, stride, tok, cap⟩
  dsimp only
  cases p with
  | none => exact goes_bind (goes_stPut _ _) fun _ => goes_bind (goes_stPut _ _) fun _ => goes_stPut _ _
  | some q =>
    have hlen : (if q.kind = 2 then 0 else ((c.tracker h).track q.idx).now.len) = 0 := by
      rw [tracker_of_gathered hc]
      rcases hempty q rfl with hjoin | hlen
      · rw [if_pos hjoin]
      · rw [hlen, ite_self]
    dsimp only
    rw [hlen]
    exact goes_ite (fun _ => goes_bind (goes_stGather _ _) fun _ => goes_gatherRest _ _ _ _ _ _)
      fun _ => goes_bind (goes_sram _ _) fun _ => goes_gatherRest _ _ _ _ _ _

/-! ### The table (R367) -/

/-- A write of bytes within one page that the card's own memory holds makes no fault. -/
theorem writeTo_onePage {d : Card} {va reg off : Nat} {bs : List Byte} {l : Leaf} {x : RegionEnt} (hne : bs ≠ [])
    (hpage : va % 65536 + bs.length ≤ 65536) (hleaf : d.translate h o.ctx va = .ok l) (hcard : l.to_ = .card reg off)
    (hwrite : l.write = true) (hbacked : (l.sparse && !l.backed) = false)
    (hregion : d.region o.ctx reg (off + l.pageOff va) bs.length = .ok x)
    (hlost : d.anyLost x (off + l.pageOff va) bs.length = false) (hheld : d.heldVa h o.ctx true va bs.length = false) :
    WriteTo h r va bs (d, o) ((d.vwrite h o.ctx r none va bs).card.cacheXlate h o.ctx va bs.length,
      { o with undo := (d.vwrite h o.ctx r none va bs).undo ++ o.undo }) := by
  have hall : bs.take (pageRest va) = bs := List.take_of_length_le (by unfold pageRest; omega)
  have hnone : bs.drop (pageRest va) = [] := List.drop_of_length_le (by unfold pageRest; omega)
  have hfault : (d.vwritePage h o.ctx r none va bs).fault = none := by
    unfold Card.vwritePage
    simp [hleaf, hcard, hwrite, hbacked, hregion, hlost]
  have hlinks : (d.vwritePage h o.ctx r none va bs).links = [] := by
    unfold Card.vwritePage
    simp [hleaf, hcard, hwrite, hbacked, hregion, hlost]
  have hgo : (d.vwrite h o.ctx r none va bs).fault = none ∧ (d.vwrite h o.ctx r none va bs).links = [] := by
    unfold Card.vwrite
    simp [Card.vwriteGo, hne, hall, hnone, hfault, hlinks]
  exact ⟨hheld, hgo.1, hgo.2, rfl⟩

theorem length_tableRow (c : Card) (h : Nat) (p : BatchPos) : (c.tableRow h p).length = 32 := by
  simp [Card.tableRow]

/-- A row of a batch table, zero where no position stands. -/
def batchRow (c : Card) (h : Nat) (p : Option BatchPos) : List Byte :=
  match p with | some p => c.tableRow h p | none => List.replicate 32 0

theorem length_batchRow (c : Card) (h : Nat) (p : Option BatchPos) : (batchRow c h p).length = 32 := by
  cases p with
  | none => exact List.length_replicate
  | some p => exact length_tableRow c h p

/-- The rows of a batch table. -/
def batchRows (c : Card) (h bucket : Nat) (pos : List BatchPos) : List Byte :=
  (List.range bucket).flatMap (fun i => batchRow c h pos[i]?)

theorem length_batchRows (c : Card) (h bucket : Nat) (pos : List BatchPos) :
    (batchRows c h bucket pos).length = 32 * bucket := by
  simp [batchRows, List.length_flatMap, length_batchRow, Nat.mul_comm]

/-- The batch table (R367): its head, and its rows. -/
def batchTable (c : Card) (h : Nat) (k : Taking) (bucket cap : Nat) : List Byte :=
  let count := fun (kind : Nat) => (k.pos.filter (fun p => p.kind == kind)).length
  leBytes 2 k.pos.length ++ leBytes 2 bucket ++ leBytes 2 (count 1) ++ leBytes 2 (count 3) ++ leBytes 2 (count 2) ++
    leBytes 2 (k.epoch.getD 0) ++ leBytes 4 (if k.pos.length = 0 then (c.tracker h).steps else (c.tracker h).steps + 1) ++
    leBytes 4 (c.reg (hp h 0xB0020)).toNat ++ leBytes 2 cap ++ List.replicate 42 0 ++ batchRows c h bucket k.pos

theorem length_batchTable (c : Card) (h : Nat) (k : Taking) (bucket cap : Nat) :
    (batchTable c h k bucket cap).length = 64 + 32 * bucket := by
  simp only [batchTable, List.length_append, length_leBytes, List.length_replicate, length_batchRows]

/-! ### The batch opened (R355, R357) -/

/-- The scheduler's requests without what a batch has taken. -/
def withoutTaken (t : Tracker) (k : Taking) : Tracker :=
  { t with reqs := t.reqs.map (fun (q : StepReq) => { q with
      entries := q.entries.filter (fun e => !k.has q e), open_ := q.open_ + (k.pos.filter (fun p => p.req == q.order)).length }) }

/-- The requests settle once a batch has taken its entries. -/
def afterTaking (c : Card) (h : Nat) (k : Taking) : Card :=
  ((c.setTracker h (withoutTaken (c.tracker h) k)).bump (hp h 0xB0024) k.drops).settleReqs h

/-- The card after a BATCH: with a position at least, its batch is open. -/
def batchOpened (c : Card) (h : Nat) (k : Taking) (stepNo ver : Nat) : Card :=
  let d := afterTaking c h k
  if k.pos.length = 0 then d
  else (d.setTracker h { d.tracker h with steps := stepNo, batch := some { pos := k.pos, epoch := k.epoch.getD 0, stepNo := stepNo, ver := ver, at_ := d.ns } }).bump
    (hp h 0xB0030) 1

theorem batch_afterTaking (c : Card) (h : Nat) (k : Taking) : ((afterTaking c h k).tracker h).batch = (c.tracker h).batch := by
  unfold afterTaking
  rw [batch_settleReqs, tracker_bump, tracker_setTracker_self]
  rfl

theorem batchOpened_none {c : Card} {h : Nat} {k : Taking} {stepNo ver : Nat} (hpos : k.pos = []) :
    ((batchOpened c h k stepNo ver).tracker h).batch = (c.tracker h).batch := by
  unfold batchOpened
  rw [if_pos (by rw [hpos]; rfl)]
  exact batch_afterTaking c h k

theorem batchOpened_some {c : Card} {h : Nat} {k : Taking} {stepNo ver : Nat} (hpos : k.pos ≠ []) :
    ∃ b, ((batchOpened c h k stepNo ver).tracker h).batch = some b ∧ b.pos = k.pos ∧ b.epoch = k.epoch.getD 0 := by
  unfold batchOpened
  rw [if_neg (by simpa using hpos), tracker_bump, tracker_setTracker_self]
  exact ⟨_, rfl, rfl, rfl⟩

theorem tracker_written (d : Card) (h ctx r va n : Nat) (bs : List Byte) (a : Nat) :
    ((d.vwrite h ctx r none va bs).card.cacheXlate h ctx va n).tracker a = d.tracker a :=
  (tracker_of_agree ((frame_cacheXlate (fun _ => id) (d.vwrite h ctx r none va bs).card h ctx va n held_refl
    .tracks).resolve_left (by decide)) a).trans
  (tracker_of_agree ((frame_vwrite (fun _ => id) d h ctx r none va bs held_refl .tracks).resolve_left (by decide)) a)

theorem eq_ok_of_toOption {ε α : Type} {y : Except ε α} {a : α} (hy : y.toOption = some a) : y = .ok a := by
  cases y with
  | error _ => cases hy
  | ok _ => rw [Option.some.inj hy]

theorem reaches_if_false {α : Type} {p : Prop} [Decidable p] {w v : Eng α} {x : Run} {P : Card → Op → Prop} (hp : ¬p)
    (hv : Reaches v x P) : Reaches (if p then w else v) x P := by rwa [if_neg hp]

theorem reaches_batchWork {k : Taking} {bucket reg off : Nat} {l : Leaf} {x : RegionEnt} (hepoch : o.epoch = none)
    (hready : c0.tracksReady h) (hbatch : (c0.tracker h).batch = none) (hk : k = c0.takeAll h (leAt o.body 0x14 2))
    (hbucket : bucket = bucketOf k.pos.length) (hempty : ∀ p ∈ k.pos, p.kind = 2 ∨ ((c0.tracker h).track p.idx).now.len = 0)
    (halign0 : leAt o.body 0 8 % 64 = 0) (halign8 : leAt o.body 8 4 % 64 = 0) (halignC : leAt o.body 0xC 4 % 64 = 0)
    (halign10 : leAt o.body 0x10 4 % 64 = 0) (hmax : pow2ok (leAt o.body 0x14 2) = true) (hres : leNat (o.body.drop 0x16) = 0)
    (hplain : c0.plainRange h o.ctx (leAt o.body 0 8) (64 + 32 * bucket) false = true)
    (hstateRoom : leAt o.body 8 4 + bucket * 1024 ≤ (c0.staging h).2)
    (hkvRoom : leAt o.body 0xC 4 + bucket * roundUp ((c0.kvGeom h).2.2.2 * (c0.kvGeom h).2.2.1) 64 ≤ (c0.staging h).2)
    (hmaskRoom : leAt o.body 0x10 4 + bucket * roundUp (2 * (c0.kvGeom h).2.2.2) 64 ≤ (c0.staging h).2)
    (hpage : leAt o.body 0 8 % 65536 + 64 + 32 * bucket ≤ 65536)
    (hleaf : (c0.translate h o.ctx (leAt o.body 0 8)).toOption = some l) (hcard : l.to_ = .card reg off) (hwrite : l.write = true)
    (hbacked : (l.sparse && !l.backed) = false)
    (hregion : (c0.region o.ctx reg (off + l.pageOff (leAt o.body 0 8)) (64 + 32 * bucket)).toOption = some x)
    (hlost : c0.anyLost x (off + l.pageOff (leAt o.body 0 8)) (64 + 32 * bucket) = false)
    (hheld : c0.heldVa h o.ctx true (leAt o.body 0 8) (64 + 32 * bucket) = false) (hclean : c0.stagingClean h) :
    Reaches batchWork ⟨c0, o, h, r⟩ fun d o' => o'.ext = bucket ∧ o'.status = o.status ∧
      (k.pos = [] → (d.tracker h).batch = none) ∧
      (k.pos ≠ [] → ∃ b, (d.tracker h).batch = some b ∧ b.pos = k.pos ∧ b.epoch = k.epoch.getD 0) := by
  rcases hgeom : c0.kvGeom h with ⟨base, stride, tok, cap⟩
  rw [hgeom] at hkvRoom hmaskRoom
  have hlen := length_batchTable c0 h k bucket cap
  obtain ⟨⟨⟩, d, hloop, hd⟩ := goes_forIn (l := List.range bucket) (fun i _ => goes_gatherPos (r := r) (o := o)
    (e := k.epoch.getD 0) (p := k.pos[i]?) (leAt o.body 8 4) (leAt o.body 0xC 4) (leAt o.body 0x10 4) i
    (fun q hq => hempty q (List.mem_of_getElem? hq))) c0 (gathered_self hclean)
  obtain ⟨m, o', htable, htracker, hstatus⟩ : ∃ m o', Runs (Eng.wr (leAt o.body 0 8) (batchTable c0 h k bucket cap)) ⟨d, o, h, r⟩
      () ⟨m, o', h, r⟩ ∧ m.tracker h = c0.tracker h ∧ o'.status = o.status :=
    ⟨_, _, runs_wr (a := (d, o)) hepoch (writeTo_onePage (x := x) (List.ne_nil_of_length_pos (by omega)) (by omega)
      ((translate_of_gathered hd _ _ _).trans (eq_ok_of_toOption hleaf)) hcard hwrite hbacked
      (by rw [hlen, region_of_gathered hd]; exact eq_ok_of_toOption hregion)
      (by rw [hlen, anyLost_of_gathered hd]; exact hlost) (by rw [hlen, heldVa_of_gathered hd]; exact hheld)),
      (tracker_written _ _ _ _ _ _ _ _).trans (tracker_of_gathered hd h), rfl⟩
  subst hk hbucket
  refine reaches_bind (runs_op _) (reaches_bind (runs_hamper _) (reaches_bind (runs_card _)
    (reaches_if_false (by simp [hbatch]) ?work)))
  rw [hgeom]
  refine reaches_bind (runs_trackReady ?inRange hready) (reaches_bind hloop (reaches_bind htable
    (reaches_bind (runs_upd (fun c => batchOpened c h (c0.takeAll h (leAt o.body 0x14 2)) ((c0.tracker h).steps + 1)
      (c0.reg (hp h 0xB0020)).toNat) _) ⟨(), _, _, runs_updOp _ _, rfl, hstatus, fun hpos => ?none, batchOpened_some⟩)))
  case inRange =>
    simp [halign0, halign8, halignC, halign10, hmax, hres, hplain, hstateRoom, hkvRoom, hmaskRoom]
  case none => exact (batchOpened_none hpos).trans ((congrArg Tracker.batch htracker).trans hbatch)

end

/-- A command whose meaning is an engine's finishes an operation whose work reaches an end. -/
theorem finishes_of_reaches {i : Instr} {c c0 : Card} {h r seq cls opc : Nat} {o : Op} {w : Eng Unit} {P : Card → Op → Prop}
    (hi : ∀ s, exec i s = s.run fun c => c.engine h r seq cls opc w) (htaken : c.takenUp h r seq cls opc = some (c0, o))
    (hw : Reaches w ⟨c0, o, h, r⟩ P) (hstatus : ∀ d o', P d o' → o'.status = stDone) :
    ∃ d o', Finishes i c h r d o' ∧ P d o' := by
  obtain ⟨⟨⟩, d, o', hrun, hP⟩ := hw
  exact ⟨d, o', finishes_of_runs hi htaken hrun (hstatus d o' hP), hP⟩

/-- Settles O59: each operation's work runs to its end, and leaves the scheduler as its clause says. -/
theorem trackRowsComplete : Obligations.TrackRowsComplete := by
  refine ⟨?step, ?batch, ?update, ?swap, ?withdraw⟩
  case step =>
    intro c h r seq c0 d o dets leaves nd nl es htaken ⟨_, hstatus⟩ hnd hnl hready hrange hplain hepoch hsem hroom hhand hread
      hdets hes
    have hrun := runs_stepWork (r := r.val) hnd hnl hready hrange hplain hepoch hsem hroom hhand hread hdets rfl
    subst hes
    exact ⟨_, finishes_of_runs (fun _ => rfl) htaken hrun hstatus,
      (tracker_stepAdded _ _ _ _).1.trans (congrArg (fun t => t.nextReq + 1) (tracker_of_readsTo hread h.val)),
      fun hne => ⟨_, (tracker_stepAdded _ _ _ _).2 hne, rfl, rfl, hepoch⟩⟩
  case batch =>
    intro c h r seq c0 o k bucket reg off l e htaken ⟨hepoch, hstatus⟩ hready hbatch hk hbucket hempty halign0 halign8 halignC
      halign10 hmax hres hplain hstateRoom hkvRoom hmaskRoom hpage hleaf hcard hwrite hbacked hregion hlost hheld hclean
    obtain ⟨d, o', hfinishes, hext, -, hnone, hsome⟩ := finishes_of_reaches (i := .trackBatch h r seq) (fun _ => rfl) htaken
      (reaches_batchWork hepoch hready hbatch hk hbucket hempty halign0 halign8 halignC halign10 hmax hres hplain hstateRoom
        hkvRoom hmaskRoom hpage hleaf hcard hwrite hbacked hregion hlost hheld hclean)
      (fun d o' ⟨_, hkept, _⟩ => hkept.trans hstatus)
    exact ⟨d, o', hfinishes, hext, hnone, hsome⟩
  case update =>
    intro c h r seq c0 o b p base stride tok cap before m htaken ⟨hepoch, hstatus⟩ hready hres hbatch hopen hsettled hpos hgeom
      hresRoom hstateRoom hkvRoom hclean hbefore hwrite
    subst hbefore
    obtain ⟨d, o', hfinishes, hrecords, -, hdone⟩ := finishes_of_reaches (i := .trackUpdate h r seq) (fun _ => rfl) htaken
      (reaches_updateWork hepoch hready hres hbatch hopen hsettled hpos hgeom hresRoom hstateRoom hkvRoom hclean hwrite)
      (fun d o' ⟨_, hkept, _⟩ => hkept.trans hstatus)
    exact ⟨d, o', hfinishes, hrecords, hdone⟩
  case swap =>
    intro c h r seq c0 d o o' src n htaken ⟨hepoch, hstatus⟩ hsrc hn hready halign hmax hres hplain hbatch hhand hcopies
    exact finishes_of_runs (fun _ => rfl) htaken (runs_swapWork hepoch hsrc hn hready halign hmax hres hplain hbatch hhand
      hcopies) ((copiesTo_status hcopies).trans hstatus)
  case withdraw =>
    intro c h r seq c0 d o e htaken ⟨_, hstatus⟩ he hready hne hres hunsettled hroom hd
    exact finishes_of_runs (fun _ => rfl) htaken (runs_withdrawWork he hready hne hres hunsettled hroom hd) hstatus

end Sys2Proof.Proofs
end
